-- ==== Sys2Proof/Word.lean ====
section
/-! DEFINITION. Words of the YB-4096 block and their plainest arithmetic: register words, record words, the signed
difference of R6, and the sparse lists in one canonical form that tables and memories are held in. -/

namespace Sys2Proof

/-- A register word (R411). -/
abbrev W32 := BitVec 32
/-- A record, NVD or table word (R12, R57). -/
abbrev W64 := BitVec 64

/-- Field `[hi:lo]` of a word, both ends included (R9). -/
def bits {n : Nat} (w : BitVec n) (hi lo : Nat) : Nat := (w.toNat >>> lo) % 2 ^ (hi + 1 - lo)

/-- One bit of a word. -/
def bitOf {n : Nat} (w : BitVec n) (i : Nat) : Bool := w.getLsbD i

/-- The word `w` with field `[hi:lo]` replaced by the low bits of `v`. -/
def putBits {n : Nat} (w : BitVec n) (hi lo v : Nat) : BitVec n :=
  BitVec.ofNat n (w.toNat % 2 ^ lo + (v % 2 ^ (hi + 1 - lo)) * 2 ^ lo + (w.toNat >>> (hi + 1)) * 2 ^ (hi + 1))

/-- Fields `(value, width)` laid side by side, the first the most significant. -/
def packNat (fs : List (Nat × Nat)) : Nat := fs.foldl (fun a f => a * 2 ^ f.2 + f.1 % 2 ^ f.2) 0

/-- A 64-bit record from its fields (R12: bit 63 on the left). -/
def rec64 (fs : List (Nat × Nat)) : W64 := BitVec.ofNat 64 (packNat fs)

/-- A register word from its fields. -/
def word32 (fs : List (Nat × Nat)) : W32 := BitVec.ofNat 32 (packNat fs)

def b2n (b : Bool) : Nat := if b then 1 else 0

/-- The signed difference of R6 at width `w`; exactly `-2^(w-1)` counts as earlier. -/
def sdiffW (w a b : Nat) : Int :=
  let m := 2 ^ w
  let d := (a % m + m - b % m) % m
  if d ≥ 2 ^ (w - 1) then (d : Int) - (m : Int) else (d : Int)

/-- `sdiff(a,b)` of R6, at 32 bits. -/
def sdiff (a b : Nat) : Int := sdiffW 32 a b

/-- `v` read as a `w`-bit two's complement value. -/
def signedW (w v : Nat) : Int :=
  let m := 2 ^ w
  if v % m ≥ 2 ^ (w - 1) then ((v % m : Nat) : Int) - (m : Int) else ((v % m : Nat) : Int)

/-- The two's complement pattern of `v` at width `w`. -/
def patternW (w : Nat) (v : Int) : Nat := (v % (2 ^ w : Nat)).toNat

/-- Division rounded to the nearest, halves away from zero (R126, R261). -/
def roundDiv (a : Int) (b : Nat) : Int :=
  if b = 0 then 0 else if a ≥ 0 then (2 * a + b) / (2 * b) else -((2 * (-a) + b) / (2 * b))

/-- A sparse table: keys strictly rising, no entry equal to what its key reads as unlisted. -/
abbrev Sparse (α : Type) := List (Nat × α)

namespace Sparse
variable {α : Type}

/-- The value at a key, `d` where the key is not listed. -/
def get (d : α) : Sparse α → Nat → α
  | [], _ => d
  | (k, v) :: m, i => if i = k then v else get d m i

/-- Is a key listed. -/
def has (m : Sparse α) (i : Nat) : Bool := m.any (fun p => p.1 == i)

/-- Remove a key. -/
def del (i : Nat) (m : Sparse α) : Sparse α := m.filter (fun p => p.1 != i)

/-- List a key with a value, in its place. -/
def ins (i : Nat) (x : α) : Sparse α → Sparse α
  | [] => [(i, x)]
  | (k, v) :: m => if i = k then (i, x) :: m else if i < k then (i, x) :: (k, v) :: m else (k, v) :: ins i x m

/-- Write `x` at key `i`, whose unlisted value is `d`. -/
def put [DecidableEq α] (d : α) (i : Nat) (x : α) (m : Sparse α) : Sparse α :=
  if x = d then del i m else ins i x m

/-- The canonical form: keys strictly rising, no listed value equal to the unlisted one. -/
def wf [DecidableEq α] (d : Nat → α) : Sparse α → Bool
  | [] => true
  | (k, v) :: m => decide (v ≠ d k) && (m.all (fun p => decide (k < p.1))) && wf d m

end Sparse

/-- Element `i` of a list, `d` beyond its end. -/
def nth {α : Type} (d : α) (l : List α) (i : Nat) : α := (l[i]?).getD d

/-- Add a number to a rising list without repeats. -/
def setIns (x : Nat) (l : List Nat) : List Nat :=
  match l with
  | [] => [x]
  | y :: t => if x = y then y :: t else if x < y then x :: y :: t else y :: setIns x t

/-- Remove a number from a list. -/
def setDel (x : Nat) (l : List Nat) : List Nat := l.filter (fun y => y ≠ x)

/-- Addition that saturates at `top`. -/
def satAdd (top a b : Nat) : Nat := min top (a + b)

end Sys2Proof
end

