-- ==== Sys2Proof/Syntax.lean ====
section
/-! DEFINITION. The commands of the block: one constructor per row of spec/opcode_table.json, with the outside values
its rules read as operands (the table gives none). -/

namespace Sys2Proof

/-- A front-end channel (R83). -/
abbrev Chan := Fin 4096
/-- A serial lane (R268). -/
abbrev Lane := Fin 32
/-- A channel group (R83). -/
abbrev Group := Fin 64
/-- A shared ADC (R83). -/
abbrev Adc := Fin 512

/-- The dies that carry an ERR block or a TAP (R332, R433). -/
inductive Die where
  | fed | cda | cdb | hbd | sfd
  deriving DecidableEq, Repr

/-- The two Lid channels (R350). -/
inductive LidCh where
  | p | h
  deriving DecidableEq, Repr

/-- The outcomes of LOAD's own tests, which the hardware finds and no rule computes: L7 by die, L9 by link, the two
L8 comparisons as far as a copy was damaged in transfer, the boot-count copies whose write takes in L10, the values L10 loads into
TN and DT, and the duration. -/
structure LoadEnv where
  passFed : Bool
  passCda : Bool
  passCdb : Bool
  passHbd : Bool
  linkA : Bool
  linkB : Bool
  l8first : Bool
  l8second : Bool
  bootTaken : BitVec 3
  tn : Nat
  us : Nat
  deriving DecidableEq, Repr

/-- What a mode transition finds at its end: the present tick and the lanes whose resume failed (R275). -/
structure EntryEnv where
  now : Nat
  failed : List Nat
  deriving DecidableEq, Repr

/-- The words of a beat in which the ingress found errors (R332): uncorrectable ones, and ones it corrected. -/
structure BeatBits where
  unc : BitVec 4
  corr : BitVec 4
  deriving DecidableEq, Repr

/-- A scan of the boundary-scan chain (R433 to R436): the instruction code shifted into a die that is to act as BYPASS, the bits
shifted into the die's data register, the pins that its cells see and the two heartbeats, what each test receiver has seen since the
last Capture-DR (an edge or a changed level, or nothing), and the TCK cycles spent in Run-Test/Idle after it. -/
structure TapScan where
  code : BitVec 8
  tdi : List Bool
  pins : List Bool
  beats : List Bool
  rx : List (Option Bool)
  idle : Nat
  deriving DecidableEq, Repr

/-- A scan that loads an instruction into one die; the others keep theirs. -/
structure TapCmd where
  die : Die
  scan : TapScan
  deriving DecidableEq, Repr

/-- A timed discriminator edge: its tick, the sum code, and whether a line read 384 (R107, R108). -/
structure Edge where
  tick : Nat
  s : Nat
  full : Bool
  deriving DecidableEq, Repr

/-- The fields of a PTP message that R259 to R261 read; `other` marks a message of a type that the module does not run
(Pdelay, Signaling, Management). The times and corrections that its commands carry beside them
are in 2^-16 ns, in which 1 ns is 65,536 and one fine LSB is 100. -/
structure PtpMsg where
  other : Bool
  version : Nat
  domain : Nat
  majorSdo : Nat
  minorSdo : Nat
  port : Nat
  seqId : Nat
  logInt : Int
  deriving DecidableEq, Repr

/-- An instant: a tick of the clock and the fine LSB within it (R254, R261). -/
structure Instant where
  now : Nat
  fine : Fin 2048
  deriving DecidableEq, Repr

/-- The concentrator that a message comes from, with the GEN it carries (R166, R193). -/
structure Issuer where
  fromB : Bool
  gen : BitVec 8
  deriving DecidableEq, Repr

/-- What the monitor sampler finds at each position p = -63 to +63: disagreements with the data decisions (R279). -/
abbrev Eye := List Nat

/-- A block of the line code: its sync header and its 64 payload bits (R290), and whether it stands in the reserved slot
(R289). -/
structure LineBlock where
  sync : BitVec 2
  word : W64
  reserved : Bool := false
  deriving DecidableEq, Repr

/-- What a bring-up meets (R273 to R277, R281): the rate locked, the eye at each CTLE code and at each code of the repeat, the
CDR phase, SLIP, and the blocks of B7; the last step that ends in this command, and whether the step after it goes on. -/
structure BringUp where
  rate : Nat
  eyes : List Eye
  again : List Eye
  phase : Nat
  slip : Nat
  line : List LineBlock
  upTo : Nat
  ok : Bool
  deriving DecidableEq, Repr

/-- A bring-up of a lane. -/
structure LaneRun where
  lane : Lane
  run : BringUp
  deriving DecidableEq, Repr

/-- A stretch of bits that a lane receives without line code (R284, R285). -/
structure LaneBits where
  lane : Lane
  rx : List Bool
  deriving DecidableEq, Repr

/-- A frame as received: its head, its body and its TAIL word (R291). -/
structure DataFrame where
  head : W64
  body : List W64
  tail : W64
  deriving DecidableEq, Repr

/-- The blocks of a frame on the line (R290, R291). -/
def DataFrame.line (f : DataFrame) : List LineBlock :=
  ⟨2, f.head, false⟩ :: f.body.map (fun w => ⟨1, w, false⟩) ++ [⟨2, f.tail, false⟩]

/-- The monitors the planner reads in a cycle and that nothing else in the block holds (R379): the frequencies of the ring
oscillators in 10 kHz as they run, the temperatures in 0.0625 K and doses in Gy. -/
structure AgeReadings where
  ro : List Nat
  temp : List Int
  dose : List Nat
  deriving DecidableEq, Repr

/-- Temperatures and input supply as sampled every 10 ms (R416), and the lock-tracking word of the time base (R264) as
f / f_nominal - 1 in 10^-12. -/
structure HkSample where
  temps : List Int
  vin : Nat
  iin : Nat
  pin : Nat
  vmon : List Nat
  track : Int
  deriving DecidableEq, Repr

/-- The commands. Rows that slow control carries name the lane of the request. -/
inductive Instr where
  | powerOn (rstN : Bool)
  | powerLoss12V
  | supply24VApply
  | supply24VLoss
  | supplyLowExpire
  | rstNLow
  | rstNRise (lowMs : Nat)
  | resetStuck
  | reqLoad (lane : Lane)
  | reqSimmer (lane : Lane)
  | reqCalib (lane : Lane)
  | reqRun (lane : Lane)
  | reqDrain (lane : Lane) (now : Nat)
  | reqSafe (lane : Lane) (now : Nat)
  | reqTest (lane : Lane)
  | safeExit (lane : Lane)
  | loadSequence (env : LoadEnv)
  | loadComplete
  | lane0WaitExpire
  | parkWindowExpire
  | modeTransitionComplete (env : EntryEnv)
  | calibTaskComplete
  | drainComplete
  | safeDrainEnd
  | markSpillStart (mseq : BitVec 16) (slice : W32) (now : Nat)
  | markSpillEnd (mseq : BitVec 16) (slice : W32) (now : Nat)
  | markSync (mseq : BitVec 16) (slice : W32) (tick : Nat) (id : BitVec 16) (now : Nat)
  | markFlush (mseq : BitVec 16) (slice : W32) (id : BitVec 16) (now : Nat)
  | markMode (mseq : BitVec 16) (mode : BitVec 4) (now : Nat)
  | slotInvalidate (lane : Lane) (slot : Bool)
  | slotVerify (lane : Lane) (slot : Bool)
  | slotPrefer (lane : Lane) (slot : Bool)
  | calCommit (lane : Lane)
  | nvdCommandDone
  | nvdWindowWrite (lane : Lane) (off : BitVec 20) (data : W32) (be : BitVec 4)
  | channelTableWrite (lane : Lane) (ch : Chan) (high : Bool) (data : W32) (be : BitVec 4)
  | blankingEnd (ch : Chan)
  | groupEnableWrite (lane : Lane) (high : Bool) (data : W32) (be : BitVec 4)
  | rateGateWrite (lane : Lane) (data : W32) (be : BitVec 4)
  | rateGateEnd
  | injGo (lane : Lane) (data : W32) (be : BitVec 4)
  | injStop (lane : Lane) (data : W32) (be : BitVec 4)
  | injStrobe (tick : Nat)
  | leadingCrossing (ch : Chan) (e : Edge)
  | highCrossing (ch : Chan) (e : Edge)
  | trailingCrossing (ch : Chan) (e : Edge)
  | totTimeout (ch : Chan)
  | hitEmit (ch : Chan)
  | fillInternal (lane : Lane)
  | fillLive (lane : Lane)
  | swap (lane : Lane)
  | abort (lane : Lane)
  | fillLaunch (codes : List (Nat × Nat × Bool))
  | fillConvert (ch : Chan)
  | channelBankSwap (ch : Chan)
  | cdTableWrite (lane : Lane) (data : W32) (be : BitVec 4)
  | cdTableReadAutoinc (lane : Lane)
  | skewClear (lane : Lane) (data : W32) (be : BitVec 4)
  | ringFreeze (ch : Chan)
  | keepWindowReceive (fromB : Bool) (first last now : Nat)
  | releaseThroughReceive (issuer : Issuer) (x now : Nat)
  | holdBudgetExpire (ch : Chan) (ring : Fin 4)
  | adcConversionStart (adc : Adc) (now : Nat)
  | adcConversionEnd (adc : Adc) (raw : List Nat)
  | waveDeadline (ch : Chan) (ring : Fin 4)
  | waveUnitWrite (g : Group)
  | groupFifoWrite (g : Group)
  | gfifoLossWrite (g : Group)
  | innerLinkBeat (now : Nat)
  | beatReceive (ok : Bool) (x : BeatBits) (now : Nat)
  | creditGrant
  | creditReceive (gen : BitVec 8) (g : Group) (pages : Fin 16)
  | closedReceive (gen : BitVec 8) (n : W32)
  | levelReceive (gen : BitVec 8) (n : W32) (level : Fin 5) (step : Fin 7)
  | flush (lane : Lane) (id : BitVec 16) (now : Nat)
  | pqPopLo (lane : Lane)
  | pqPopHi (lane : Lane)
  | popStallExpire (lane : Lane)
  | sliceOpen
  | sliceClose
  | sliceDrainStart
  | headFrameStart
  | peerDeadline
  | pressureSample (awaiting : Nat)
  | throttle (lane : Lane) (data : W32) (be : BitVec 4)
  | primitiveArrival
  | whiskTickEvaluate
  | releaseThroughSend
  | ringFrameOriginate (now : Nat)
  | ringFrameReceive (frame : BitVec 128) (skew : Bool) (now : Nat)
  | ringFrameForward
  | ringFrameReturn (frame : BitVec 128) (skew : Bool) (now : Nat)
  | loopTask (lane : Lane)
  | loopTaskDone
  | blockCode (space : Nat)
  | pressJobResume (engine : Fin 8) (space : Nat)
  | blockIdleEnd (arrived : Nat)
  | blockVerify (flips : List (Nat × W64)) (now : Nat)
  | blockRelease
  | peerBlockExpand (src : Fin 8)
  | ptpSync (m : PtpMsg) (twoStep : Bool) (t1 corr : Int) (t2 : Instant)
  | ptpFollowUp (m : PtpMsg) (t1 corr : Int)
  | followUpTimeout
  | ptpDelayResp (m : PtpMsg) (reqPort : Nat) (t4 corr : Int)
  | ptpAnnounce (m : PtpMsg) (gmId : W64) (ptpScale : Bool) (utcValid : Bool) (utc : BitVec 16)
  | delayReqSend (t3 : Instant)
  | announceTimeout
  | ptpStaleExpire
  | slewDone
  | pendingStep
  | phaseJump (delta : Int)
  | holdoverUpdate (tempMilliK : Int)
  | tbIncWrite (lane : Lane) (high : Bool) (data : W32) (be : BitVec 4)
  | blindBringup (x : LaneRun)
  | losClear (n : Lane) (r : BringUp)
  | los (n : Lane)
  | lol (n : Lane)
  | fomMeasure (n : Lane) (eye : Eye)
  | adaptCycle (n : Lane) (eye eyeMinus eyePlus : Eye)
  | ctleManualStep (n : Lane)
  | retrain (lane : Lane) (n : Lane) (data : W32) (be : BitVec 4)
  | prbsPatternSet (lane : Lane) (data : W32) (be : BitVec 4)
  | injOne (lane : Lane) (data : W32) (be : BitVec 4)
  | prbsClear (lane : Lane)
  | frameTransmit (queued : List (Nat × Nat)) (departs : List Nat)
  | dataFrameReceive (n : Lane) (bs : List LineBlock)
  | slotIdleReceive (n : Lane) (u : W64)
  | peerAnnounceTimeout (n : Lane)
  | scNop (lane : Lane) (req dat : W64)
  | scResync (lane : Lane) (req dat : W64)
  | scResponseSend (lane : Lane)
  | crReceive (n : Lane) (u : W64)
  | crRepeat
  | sackSend (src : Fin 8) (n : W32)
  | sackRepeat
  | sackReceive (n : Lane) (u : W64)
  | ackTimeout
  | resendSend (src : Fin 8) (now : Nat)
  | resendReceive (n : Lane) (u : W64)
  | heartbeatTimeout
  | innerLinkUnlock
  | switch (lane : Lane)
  | replayWalkEnd
  | whiskCatchupEnd (tcu hold : Nat)
  | peerRestartResend
  | checkpointTake
  | checkpointAck (dur : Nat)
  | checkpointSkip
  | authPoll (b : Bool)
  | hbdBlockReceive
  | rejoin (lane : Lane)
  | autoRejoin
  | scrubRead (die : Die) (mem : BitVec 8) (index : Nat) (lastOfPass : Bool) (found : Fin 3)
  | voteRewrite (die : Die) (word : BitVec 8) (lost : Bool)
  | errRepair (lane : Lane) (die : Die) (addr : BitVec 24)
  | writeRaw (lane : Lane) (die : Die) (data : W32)
  | readRaw (lane : Lane) (die : Die) (data : W32)
  | voteFlip (lane : Lane) (die : Die) (data : W32)
  | stsWrite (lane : Lane) (addr : BitVec 24) (data : W32) (be : BitVec 4)
  | registerWrite (lane : Lane) (addr : BitVec 24) (data : W32) (be : BitVec 4)
  | safetyInputChange (i : Fin 4) (sideB : Bool) (healthy : Bool)
  | inputFilterExpire (c : LidCh) (i : Fin 4) (sideB : Bool)
  | discrepancySample (c : LidCh)
  | biasMonitorSample (c : LidCh) (q : Fin 4) (v i : Nat)
  | crosslinkFrame (rx : LidCh)
  | crosslinkTimeout (c : LidCh)
  | programWatchdog
  | lcrcCompare
  | driveReadbackFault (c : LidCh)
  | feedbackChange (b : Bool) (isOpen : Bool)
  | feedbackTimeout (b : Bool)
  | lidRstClose
  | lidRstRelease (hP hH : Nat)
  | resetHoldFault (c : LidCh)
  | degrade (lane : Lane)
  | qenWrite (lane : Lane) (data : W32) (be : BitVec 4)
  | plannerCycle (r : AgeReadings)
  | ageingRecordAbandon
  | deferredTrimStep
  | attestationReportRequest (lane : Lane)
  | signingDone (glitch : Nat)
  | time (lane : Lane)
  | bootCount (lane : Lane)
  | attReport (lane : Lane) (part : BitVec 16)
  | total (lane : Lane) (sel : BitVec 16)
  | mbxDataRead (lane : Lane) (i : Fin 6)
  | hkMonitorSample (x : HkSample)
  | tapReset
  | bypass (x : TapCmd)
  | idcode (x : TapCmd)
  | samplePreload (die : Die) (scan : TapScan)
  | extest (x : TapCmd)
  | extestPulse (x : TapCmd)
  | extestTrain (x : TapCmd)
  | clamp (x : TapCmd)
  | highz (x : TapCmd)
  | rstNHigh1ms
  | prbsSync (x : LaneBits)
  | prbsSyncLoss (x : LaneBits)
  | rejoinMirroring (ok : Bool)
  | pgLoss (die : Die)
  deriving DecidableEq, Repr

end Sys2Proof
end

