-- ==== Sys2Proof/Decode.lean ====
section
/-! DEFINITION. The command that a table word spells. The opcode table gives no row any bits: its rows are operations
and events of the block, so no word spells one. -/

namespace Sys2Proof

/-- The command of a word numbered as spec/opcode_table.json numbers it: none, as every row's list of fields is empty. -/
def decodeTableWord (_nbits _w : Nat) : Option Instr := none

end Sys2Proof
end

