-- ==== Sys2Proof/Machine/Records.lean ====
section
/-! DEFINITION. The record layouts (R177 to R188): one constructor function per record kind, and the fields a reader
takes out of a record. -/

namespace Sys2Proof.Machine

/-- A HIT in native mode (R179). -/
def recHit (src ch tick fine tot rise : Nat) (cal : Bool) : W64 :=
  rec64 [(0, 2), (src, 3), (ch, 12), (tick, 15), (fine, 11), (tot, 12), (rise, 8), (b2n cal, 1)]

/-- A HIT in compatibility mode (R180). -/
def recHitCompat (src ch tick fine hitNo disc : Nat) (cal : Bool) : W64 :=
  rec64 [(0, 2), (src, 3), (ch, 12), (tick, 15), (fine, 11), (hitNo, 8), (disc, 4), (0, 8), (b2n cal, 1)]

/-- A WAVE header (R181). -/
def recWave (src ch tick phase : Nat) (off : Int) (red nw status : Nat) : W64 :=
  rec64 [(1, 2), (src, 3), (ch, 12), (tick, 15), (phase, 8), (patternW 12 off, 12), (red, 3), (nw, 4), (status, 2), (0, 3)]

/-- A sample word (R181, R145): the tag and five values. -/
def waveWord (last : Bool) (red : Nat) (vs : List Nat) : W64 :=
  rec64 ((b2n last, 1) :: (red, 3) :: (List.range 5).map (fun i => (nth 0 vs i, 12)))

/-- A MARK record of a subtype with its 56 payload bits. -/
def recMark (sub : Nat) (fs : List (Nat × Nat)) : W64 := rec64 ([(2, 2), (sub, 6)] ++ fs)

/-- An EXT record. -/
def recExt (fs : List (Nat × Nat)) : W64 := rec64 ((3, 2) :: fs)

/-- MARK/SLICE_HEADER (R183). -/
def recHeader (slice complete level step km8 acq : Nat) (compat restart : Bool) : W64 :=
  recMark 1 [(slice, 32), (complete, 8), (level, 3), (step, 3), (km8, 3), (acq, 2), (b2n compat, 1), (b2n restart, 1), (0, 3)]

/-- The departure EXT records of a header (R183). -/
def recDep (sec ns frac : Nat) : W64 × W64 := (recExt [(sec, 48), (0, 14)], recExt [(ns, 30), (frac, 32)])

/-- MARK/SLICE_GAP (R184). -/
def recGap (slice cause : Nat) : W64 := recMark 2 [(slice, 32), (cause, 8), (0, 16)]

/-- MARK/TRIG and its EXT records (R185). -/
def recTrig (rule : Nat) (trunc coarse : Bool) (toff : Int) (fine pre post : Nat) (mask : Nat) : List W64 :=
  [recMark 3 [(rule, 6), (b2n trunc, 1), (b2n coarse, 1), (patternW 17 toff, 17), (fine, 11), (0, 20)],
   recExt [(pre, 12), (post, 12), (0, 6), (mask / 2 ^ 32, 32)],
   recExt [(0, 30), (mask, 32)]]

/-- MARK/LOSS (R186); COUNT saturates. -/
def recLoss (src lo hi count cause : Nat) : W64 :=
  recMark 4 [(src, 3), (lo, 12), (hi, 12), (min 0x1FFFFF count, 21), (cause, 8)]

/-- MARK/FLUSH (R187). -/
def recFlush (slice id : Nat) : W64 := recMark 5 [(slice, 32), (id, 16), (0, 8)]

/-- MARK/MODE (R187). -/
def recMode (slice mode cause : Nat) : W64 := recMark 6 [(slice, 32), (mode, 4), (cause, 8), (0, 12)]

/-- MARK/SYNC (R187). -/
def recSync (slice id : Nat) : W64 := recMark 7 [(slice, 32), (id, 16), (0, 8)]

/-- Header word H0 (R237). -/
def blockH0 (slice : Nat) (gen : BitVec 8) (src : Nat) (alone last first verify raw : Bool) (bidx : Nat) : W64 :=
  rec64 [(slice, 32), (gen.toNat, 8), (src, 3), (b2n alone, 1), (b2n last, 1), (b2n first, 1), (b2n verify, 1),
    (b2n raw, 1), (bidx, 16)]

/-- Header word H1 (R237). -/
def blockH1 (nrec pw pad : Nat) : W64 := rec64 [(nrec, 11), (pw, 11), (pad, 6), (0, 36)]

/-- The record kind (R177): 0 HIT, 1 WAVE, 2 MARK, 3 EXT. -/
def recKind (w : W64) : Nat := bits w 63 62

/-- SUBTYPE of a MARK. -/
def recSub (w : W64) : Nat := bits w 61 56

def recSource (w : W64) : Nat := bits w 61 59
def recChan (w : W64) : Nat := bits w 58 47
def recTick (w : W64) : Nat := bits w 46 32
def recFine (w : W64) : Nat := bits w 31 21
def recRise (w : W64) : Nat := bits w 8 1
def recCal (w : W64) : Bool := bitOf w 0
/-- NW of a WAVE header. -/
def recNw (w : W64) : Nat := bits w 8 5
/-- SLICE of a MARK that has one. -/
def recSlice (w : W64) : Nat := bits w 55 24

/-- The records that follow a record as its own (R178, R182). -/
def recTail (w : W64) : Nat :=
  match recKind w with
  | 1 => recNw w
  | 2 => if recSub w = 1 ∨ recSub w = 3 then 2 else 0
  | _ => 0

/-- Is a record a SLICE_GAP (R184). -/
def isGapWord (w : W64) : Bool := recKind w == 2 && recSub w == 2

/-- Cut a list of records into units: a record with the words that belong to it. -/
def recUnits : Nat → List W64 → List (List W64)
  | 0, _ => []
  | _, [] => []
  | n + 1, w :: t => (w :: t.take (recTail w)) :: recUnits n (t.drop (recTail w))

end Sys2Proof.Machine
end

