-- ==== Sys2Proof/Config.lean ====
section
/-! DEFINITION. What one module fixes and the spec does not give: constants and functions with no body, so that
nothing proved rests on a value of theirs. -/

namespace Sys2Proof.Config

/-- Module revision, HK_ID.REV (R388, R415 'fixed'). -/
opaque revision : W32
/-- IEEE 1149.1 IDCODE of FED, CDA, CDB, HBD, SFD and NVD (R388, R433). -/
opaque idcode : Nat → W32
/-- LID_ROM_ID.REV ('fixed'). -/
opaque lidRomId : W32
/-- Byte `i` of the 32 KiB mask ROM of channel P (R14, R388). -/
opaque lidRomByte : Nat → BitVec 8
/-- The two prime factors of the identity key's modulus, which have no read path (R395). -/
opaque keyP : Nat
opaque keyQ : Nat
/-- The salt of a signature, by draw number (R391). -/
opaque salt : Nat → List (BitVec 8)
/-- Check bits of a data word: the check-bit equations are not part of the interface (R340). -/
opaque checkBits : W64 → BitVec 8
/-- Does a stored word with check bits that are not its own, more than two bits from the word it held, read as a one-bit error?
R340 leaves the code open beyond what it can correct and detect. -/
opaque looksSingle : W64 → BitVec 8 → Bool
/-- The corrected data of a word with a one-bit error. -/
opaque corrected : W64 → BitVec 8 → W64
/-- Is `age_a * ln(1 + (t - ref) / tau)` rounded up, from AGE_A, t - REF and TAU (R264); its rounding is not stated. -/
opaque ageUp : Int → Int → Nat → Bool
/-- The ageing term where t lies so far before REF that the logarithm does not exist (R264). -/
opaque ageNoLog : Int → Int → Nat → Int
/-- Is the refit of AGE_A rounded up, from `D` and the two ends of the span (R384, margin 3); its rounding is not stated. -/
opaque refitUp : Int → Int → Int → Nat → Bool
/-- Is a ring oscillator's normalised frequency rounded up, from its frequency and its die's temperature in 0.0625 K (R379); its
rounding to 10 kHz is not stated. -/
opaque roUp : Nat → Int → Bool
/-- The fixed delay of the inner link and of the Colander's pipeline, in ticks (R322). -/
opaque linkDelay : Nat
/-- The state that HK_PQ, mailbox or diagnostic reads show where the spec states none, by draw number. -/
opaque free32 : Nat → W32
/-- A fresh 64-bit word where the spec states no value, by draw number. -/
opaque free64 : Nat → W64

end Sys2Proof.Config
end

