-- ==== Sys2Proof/Machine/State.lean ====
section
/-! DEFINITION. The state of the block: every register, FIFO, buffer, counter, mode and pin the spec gives the YB-4096,
as plain data, the queue of waiting commands, and the machine as it stands before 12 V is applied. -/

namespace Sys2Proof.Machine

/-- Why a command would stop the machine. -/
inductive Fault where
  /-- Raised by no command: every row of the table has an effect that the spec gives. Safe. -/
  | none
  deriving DecidableEq, Repr

/-- Why a command has no meaning. -/
inductive Refusal where
  /-- Raised by an arm of Dispatch whose command has no meaning yet. Safe. -/
  | notModelled (mnemonic : String)
  /-- Raised by a command whose operands no hardware event can carry (WellFormed.lean). Safe. -/
  | illFormed (mnemonic : String)
  deriving DecidableEq, Repr

/-- The eight modes (R34). -/
inductive Mode where
  | boot | load | simmer | calib | run | drain | safe | test
  deriving DecidableEq, Repr

/-- The code of a mode (R34). -/
def Mode.code : Mode → Nat
  | .boot => 0 | .load => 1 | .simmer => 2 | .calib => 3 | .run => 4 | .drain => 5 | .safe => 6 | .test => 7

/-- The module's roles (R15). -/
inductive Role where
  | solo | limb | head
  deriving DecidableEq, Repr

/-- An STS register: SEQ, the sticky bits, and the SEQ of each bit's latest event (R341). -/
structure Sts where
  seq : BitVec 8
  set : BitVec 24
  ev : Sparse (BitVec 8)
  deriving DecidableEq, Repr

/-- An STS register at reset. -/
def Sts.zero : Sts := ⟨0, 0, []⟩

/-- How LOAD ended (R36, R42). -/
inductive LoadResult where
  | none | simmer | safe | boot
  deriving DecidableEq, Repr

/-- The always-on domain: supplies, RST_N, the mode word and its transition (R34 to R55), and the HK registers as the last
LOAD left them (R416). `heldSpillEnd` is the slice that a held SPILL_END names, and whether it came before that slice began. -/
structure Hk where
  v12 : Bool
  v24 : Bool
  rstN : Bool
  stuck : Bool
  minimalLink : Bool
  mode : Mode
  prev : Mode
  cause : Nat
  target : Option Mode
  tcause : Nat
  safeFromTest : Bool
  safeFromLoad : Bool
  safeDrained : Bool
  firstLoadDone : Bool
  loadResult : LoadResult
  vinLow : Nat
  vinHigh : Nat
  tempArmed : List Nat
  heldSpillEnd : Option (Nat × Bool)
  spillSf : Option Nat
  spillEntry : Bool
  loadRegs : Sparse W32
  loadSts : Sparse Sts
  deriving DecidableEq, Repr

def Hk.reset : Hk :=
  { v12 := false, v24 := false, rstN := false, stuck := false, minimalLink := false, mode := .boot, prev := .boot,
    cause := 0, target := none, tcause := 0, safeFromTest := false, safeFromLoad := false, safeDrained := true,
    firstLoadDone := false, loadResult := .none, vinLow := 0, vinHigh := 0,
    tempArmed := [], heldSpillEnd := none, spillSf := none, spillEntry := false,
    loadRegs := [], loadSts := [] }

/-- The run (R43 to R45): its first slice, the slice a SPILL_START named, its last slice, the next slice to open. -/
structure Run where
  active : Bool
  sf : Nat
  named : Nat
  sl : Option Nat
  nextOpen : Nat
  opened : Bool
  closedMark : Bool
  endMode : Nat
  endCause : Nat
  lastEmitted : Option Nat
  deriving DecidableEq, Repr

def Run.reset : Run := ⟨false, 0, 0, none, 0, false, true, 0, 0, none⟩

/-- A running NVD command (R75). -/
inductive NvdOp where
  | invalidate | verify | prefer | commit
  deriving DecidableEq, Repr

/-- The live calibration set (R78): SKEW and trims in [23:0] of each channel entry. -/
structure Cal where
  chan : Sparse (BitVec 24)
  adc : Sparse W64
  xo : Sparse W64
  lane : Sparse W64
  hop : Sparse W64
  hdr : Sparse W64
  deriving DecidableEq, Repr

def Cal.zero : Cal := ⟨[], [], [], [], [], []⟩

/-- The non-volatile memory die and the image state (R56 to R82). `torn` marks a calibration set whose commit was stopped
(R81). -/
structure Nvd where
  words : Sparse W64
  busy : Option (NvdOp × Bool)
  verA : Bool
  verB : Bool
  snap : Option Cal
  length : Nat
  locksOn : Bool
  lockWhole : List Nat
  torn : Bool
  deriving DecidableEq, Repr

def Nvd.reset : Nvd := ⟨[], none, false, false, none, 0, false, [], false⟩

/-- Charge injection (R99 to R101): the latest strobe with its delay in fine LSB, and the tick at which the next falls due. -/
structure Inj where
  running : Bool
  sent : Nat
  last : Option Nat
  delay : Nat
  dither : Bool
  next : Nat
  deriving DecidableEq, Repr

/-- The front end (R83 to R105); `settle` is the tick at which the latest settling period of R103 ends. -/
structure Fe where
  tab : Sparse W64
  blank : List Nat
  groupEff : BitVec 64
  groupPend : Option (Nat × BitVec 64)
  cnt : Sparse Nat
  snap : Sparse Nat
  gate : Nat
  snapSeq : BitVec 8
  gateSeq : BitVec 8
  inj : Inj
  settle : Nat
  deriving DecidableEq, Repr

def Fe.reset : Fe :=
  ⟨[], [], BitVec.allOnes 64, none, [], [], 100, 0, 0, ⟨false, 0, none, 0, false, 0⟩, 0⟩

/-- A channel's TDC (R109 to R114): `edges` counts the events launched in tick `edgeTick`, of which the latest stands at sum
code `near`, nearest the line entry (R109). -/
structure Pulse where
  low : Bool
  held : Bool
  timing : Bool
  lead : Nat
  high : Option Nat
  latest : Nat
  bank : Bool
  skew : Int
  cal : Bool
  strobe : Option Nat
  lost : Bool
  spent : Bool
  rearm : Option Nat
  lastTick : Option Nat
  disc : Nat
  hitSlice : Nat
  hitNo : Nat
  edgeTick : Nat
  edges : Nat
  near : Nat
  deriving DecidableEq, Repr

def Pulse.idle : Pulse :=
  ⟨false, false, false, 0, none, 0, false, 0, false, none, false, false, none, none, 0, 0, 0, 0, 0, 0⟩

/-- A hit formed by the TDC that waits for its HIT_EMIT (R113). -/
structure Formed where
  chan : Nat
  lead : Nat
  high : Option Nat
  c : Nat
  tot : Nat
  rise : Nat
  cal : Bool
  strobe : Option Nat
  compat : Bool
  hitNo : Nat
  disc : Nat
  lost : Bool
  deriving DecidableEq, Repr

/-- A bank's state (R117). -/
inductive BankSt where
  | table | filling | failed
  deriving DecidableEq, Repr

/-- A channel's code-density banks and its last fill (R117 to R122); `good` is the SPAN of its last fill that left a usable
table (R379). -/
structure Banks where
  active : Bool
  st0 : BankSt
  st1 : BankSt
  swapWait : Bool
  n : Nat
  top : Nat
  ovr : Bool
  result : Nat
  fillLen : Nat
  span : Nat
  good : Nat
  deriving DecidableEq, Repr

def Banks.reset : Banks := ⟨false, .table, .table, false, 0, 0, false, 0, 0, 0, 0⟩

/-- A running fill or swap (R118 to R124). -/
structure Fill where
  internal : Bool
  swap : Bool
  remain : List Nat
  chans : List Nat
  groups : List Nat
  len : List W32
  deriving DecidableEq, Repr

/-- Time measurement (R106 to R127). -/
structure Tdc where
  pulse : Sparse Pulse
  formed : List Formed
  banks : Sparse Banks
  tab : Sparse Nat
  hist : Sparse Nat
  fill : Option Fill
  hard : Nat
  skew : Sparse (Nat × Int)
  deriving DecidableEq, Repr

def Tdc.reset : Tdc := ⟨[], [], [], [], [], none, 0, []⟩

/-- A capture of a hit (R130, R131). -/
structure Capture where
  chan : Nat
  c : Nat
  lead : Nat
  high : Nat
  post : Nat
  budget : Nat
  keepAll : Bool
  deriving DecidableEq, Repr

/-- A sampling ring (R132): its state code, the raw sample it started at, the capture it froze, the tick in which it became KEPT,
and where its deadline has passed the tick in which it becomes FREE (R139), otherwise 0. -/
structure RingCell where
  st : Nat
  start : Nat
  cap : Option Capture
  keptAt : Nat
  freeAt : Nat
  deriving DecidableEq, Repr

def RingCell.free : RingCell := ⟨0, 0, none, 0, 0⟩

/-- What a word on the hit path belongs to. -/
inductive RecKind where
  | hit | wave | loss
  deriving DecidableEq, Repr

/-- One 64-bit record word on the hit path, with the corrected time of its hit, the words of its unit still to follow,
and whether its code word reads uncorrectable. -/
structure Ent where
  word : W64
  kind : RecKind
  chan : Nat
  c : Nat
  slice : Nat
  more : Nat
  unc : Bool
  deriving DecidableEq, Repr

/-- A WAVE unit waiting for its group FIFO (R189): the ADC whose output buffer holds it. -/
structure WaveUnit where
  adc : Nat
  group : Nat
  ents : List Ent
  deriving DecidableEq, Repr

/-- Waveform capture (R128 to R147): `due` holds, by channel, the tick at whose first sample the lowest FREE ring starts;
`noticed` the rings that a release-through notice freed, with its tick. -/
structure Wf where
  sampStart : Option Nat
  rings : Sparse RingCell
  due : Sparse Nat
  waiting : List Capture
  released : List Capture
  noticed : List (Nat × Nat × RingCell)
  adc : Sparse (Option (Nat × Nat))
  units : List WaveUnit
  level : Sparse Nat
  intv : Sparse Nat
  deriving DecidableEq, Repr

def Wf.reset : Wf := ⟨none, [], [], [], [], [], [], [], [], []⟩

/-- A group's input stage, FIFO, dropped hits and allowance (R189 to R191, R205). -/
structure GroupSt where
  stage : List Ent
  fifo : List Ent
  dropN : Nat
  dropLo : Nat
  dropHi : Nat
  allow : Nat
  deriving DecidableEq, Repr

def GroupSt.empty : GroupSt := ⟨[], [], 0, 0, 0, 0⟩

/-- A beat of an inner link (R192); `ticks` holds the stored ticks of copies that are sent again (R322). -/
structure Beat where
  group : Nat
  gen : BitVec 8
  ents : List Ent
  ticks : List Nat
  deriving DecidableEq, Repr

/-- A retention copy: record word, group and the low 24 bits of the wall tick of its sending (R194, R322). -/
structure RetCopy where
  ent : Ent
  group : Nat
  tick : Nat
  deriving DecidableEq, Repr

/-- The FED's side of the inner links (R189 to R194); `retHead` is the word of MEM 0x11 that holds the oldest retention copy. -/
structure Fed where
  groups : Sparse GroupSt
  beats : List Beat
  ret : List RetCopy
  retShort : Bool
  retLost : Nat
  gen : BitVec 8
  rr : Nat
  walk : Option (List RetCopy)
  retHead : Nat
  deriving DecidableEq, Repr

def Fed.reset : Fed := ⟨[], [], [], false, 0, 0, 0, none, 0⟩

/-- A Pantry queue: the offset of its head record in its head page, and its records (R200). -/
structure Queue where
  off : Nat
  ents : List Ent
  deriving DecidableEq, Repr

def Queue.empty : Queue := ⟨0, []⟩

/-- An open or closed slice with the level and step fixed when it opened (R141, R231), its RESTART bit, the channels whose
rate suppression holds in it (R198) and the group enables of its ticks (R95). -/
structure SliceSt where
  n : Nat
  level : Nat
  step : Nat
  restart : Bool
  hot : List Nat
  groups : BitVec 64 := BitVec.allOnes 64
  deriving DecidableEq, Repr

/-- A loss to report: MARK/LOSS fields and the slice whose frame carries it (R186). A report held for the next run (R438) has
`slice` 1 while the run in which it arose stands, and 0 once the next one has begun. -/
structure Loss where
  slice : Nat
  src : Nat
  lo : Nat
  hi : Nat
  count : Nat
  cause : Nat
  deriving DecidableEq, Repr

/-- A barrier waiting for its slice (R226, R227): order class 1 SYNC, 2 own FLUSH, 3 LIMB FLUSH; `cmd` tells that Q_FLUSH
placed it. -/
structure Barrier where
  cls : Nat
  src : Nat
  after : Nat
  slice : Nat
  id : Nat
  cmd : Bool
  deriving DecidableEq, Repr

/-- A hit as the Whisk holds it (R148). -/
structure Prim where
  chan : Nat
  c : Nat
  tot : Nat
  rise : Nat
  compat : Bool
  silent : Bool
  tag : Nat
  deriving DecidableEq, Repr

/-- A rule's running state (R156 to R159). -/
structure RuleSt where
  prev : Bool
  holdUntil : Option Nat
  holdCnt : Nat
  presc : Nat
  deriving DecidableEq, Repr

def RuleSt.zero : RuleSt := ⟨false, none, 0, 0⟩

/-- A decision with its effective window (R160 to R163). -/
structure Dec where
  t : Nat
  fine : Nat
  coarse : Bool
  cause : Nat
  mask : List Nat
  first : Nat
  last : Nat
  trunc : Bool
  deriving DecidableEq, Repr

/-- A decision between its evaluation and its wall tick (R160, R163, R173): its tick, the rules that passed, their largest
PRE and POST, and the corrected time of its defining hit. -/
structure PendDec where
  t : Nat
  mask : List Nat
  pre : Nat
  post : Nat
  hit : Option Nat
  deriving DecidableEq, Repr

/-- The Whisk (R148 to R165). -/
structure Whisk where
  on : Bool
  start : Nat
  next : Nat
  prims : List Prim
  lastHit : Sparse Nat
  quiet : List Nat
  rules : Sparse RuleSt
  lastDec : Option Nat
  pend : List PendDec
  decs : List Dec
  windows : List (Nat × Nat)
  bus : List (Nat × Nat × Nat)
  sentThrough : Option Nat
  deriving DecidableEq, Repr

def Whisk.reset : Whisk := ⟨false, 0, 0, [], [], [], [], none, [], [], [], [], none⟩

/-- A record group on its way to the Press (R236); `rank` orders the records that stand behind a frame (R227): 0 none of
them, 8 SYNC, 16 own FLUSH, 24 + s FLUSH of source s, 99 the closing MARK/MODE. -/
structure LGroup where
  words : List W64
  slice : Nat
  first : Bool
  endFrame : Bool
  alone : Bool
  cut : Bool
  rank : Nat := 0
  deriving DecidableEq, Repr

/-- A Press block (R237), its header copy (R344), and whether a held word of it reads uncorrectable. -/
structure Block where
  h0 : W64
  h1 : W64
  dep : Option (W64 × W64)
  payload : List W64
  hdrCopy : W64
  unc : Bool
  rank : Nat := 0
  deriving DecidableEq, Repr

/-- The adaptive contexts of a block (R242). -/
structure Ctxs where
  sc : Nat
  tsame : Nat
  tneigh : Nat
  tot : Nat
  rise : Nat
  wv : Nat
  ws : Nat
  deriving DecidableEq, Repr

def Ctxs.init : Ctxs := ⟨0, 18, 16, 4, 2, 3, 8⟩

/-- A coding job (R247, R250): the record groups, what has been coded, and where the job stands: 1 coding, 2 stopped,
3 verifying, 4 waits for release, 5 its input is lost (R344). -/
structure Job where
  eng : Nat
  slice : Nat
  bidx : Nat
  first : Bool
  last : Bool
  alone : Bool
  verify : Bool
  raw : Bool
  groups : List (List W64)
  consumed : Nat
  ctx : Ctxs
  bits : List Bool
  space : Nat
  st : Nat
  rank : Nat := 0
  deriving DecidableEq, Repr

/-- The ladder (R229, R230). -/
structure Ladder where
  level : Nat
  step : Nat
  since : Nat
  p : Nat
  pantry : Nat
  replay : Nat
  output : Nat
  lastP : Nat
  deriving DecidableEq, Repr

def Ladder.zero : Ladder := ⟨0, 0, 0, 0, 0, 0, 0, 0⟩

/-- What became of a HIT in the Colander, for its WAVE (R146). -/
structure Seen where
  chan : Nat
  c : Nat
  slice : Nat
  out : Nat
  deriving DecidableEq, Repr

/-- The prescale history that a checkpoint reads (R316). -/
structure PrescHist where
  chan : Nat
  slice : Nat
  before : Nat
  closed : Option Nat
  deriving DecidableEq, Repr

/-- A checkpoint (R316). -/
structure Ckpt where
  m : Nat
  em : Nat
  restart : Bool
  presc : List (Nat × Nat)
  rateSup : List Nat
  quota : List (Nat × Nat)
  ladder : Ladder
  opened : List SliceSt
  whisk : Whisk
  barriers : List Barrier
  peers : Sparse Nat
  nextOpen : Nat
  bidx : Sparse Nat
  size : Nat
  deriving DecidableEq, Repr

/-- One concentrator die (R195 to R253, R313 to R323). `past` holds the slices emitted of late, for records that come after
them; `begun` the slices coded of late, newest first, each with the number of blocks of its SLICE that stood before its frame;
`placed` the barriers that stand behind built slices not yet handed over whole (R316). -/
structure Cd where
  st : Nat
  gen : BitVec 8
  qmap : Sparse W32
  rules : Sparse W32
  regions : Sparse W32
  presc : Sparse Nat
  prescHist : List PrescHist
  rateSup : List Nat
  hotPend : List Nat
  coolPend : List Nat
  quotaSup : List (Nat × Nat × Nat)
  queues : Sparse Queue
  out : Sparse Nat
  rem : Sparse Nat
  cum : Sparse Nat
  rr : Nat
  opened : List SliceSt
  closed : List SliceSt
  past : List SliceSt
  lastClosed : Option Nat
  losses : List Loss
  held : List Loss
  barriers : List Barrier
  placed : List Barrier
  ladder : Ladder
  whisk : Whisk
  toWhisk : List Prim
  seen : List Seen
  gather : List Ent
  asOf : Option Nat
  ladle : List LGroup
  jobs : List Job
  nextEng : Nat
  bidx : Sparse Nat
  begun : List (Nat × Nat)
  vfails : List Nat
  released : List Block
  handed : Option Nat
  ckpt : Option Ckpt
  peerDue : List Nat
  deriving DecidableEq, Repr

def Cd.reset : Cd :=
  { st := 0, gen := 0, qmap := [], rules := [], regions := [], presc := [], prescHist := [], rateSup := [],
    hotPend := [], coolPend := [], quotaSup := [], queues := [], out := [],
    rem := [], cum := [], rr := 0, opened := [], closed := [], past := [], lastClosed := none, losses := [], held := [],
    barriers := [], placed := [], ladder := .zero, whisk := .reset, toWhisk := [], seen := [], gather := [], asOf := none,
    ladle := [], jobs := [], nextEng := 0, bidx := [], begun := [], vfails := [], released := [], handed := none, ckpt := none,
    peerDue := [] }

/-- The trigger-bus ring interface (R168 to R176). `pendKeep` and `summary` hold what each CD offers for the own slot, by
the CD that offers it: trigger ticks of KEEPs, and summary tokens by evaluated frame (R174). `sent` holds the frames of a HEAD that
have not returned: tick div 8, slot 0, and whether it is a training frame. -/
structure Ring where
  aligned : Bool
  fault : Bool
  alignFault : Bool
  agree : Nat
  disagree : Nat
  bad : Nat
  rx : Option (BitVec 128 × Nat)
  sent : List (Nat × BitVec 16 × Bool)
  pendKeep : List (Bool × Nat)
  summary : List (Bool × Nat × BitVec 16)
  loop : Nat
  frames : List Nat
  task : Option (Nat × List (Nat × Nat))
  keepLag : Nat
  deriving DecidableEq, Repr

def Ring.reset : Ring := ⟨false, false, false, 0, 0, 0, none, [], [], [], 0, [], none, 0⟩

/-- Time-base states (R257). -/
inductive TbState where
  | freerun | acquire | locked | holdover
  deriving DecidableEq, Repr

def TbState.code : TbState → Nat
  | .freerun => 0 | .acquire => 1 | .locked => 2 | .holdover => 3

/-- The time base (R254 to R267): `off` is the filtered offset in fine LSB while the servo knows one, `track` the lock-tracking
words of the last 100 s and `temps` the XO's temperatures of the last 1 s (R264), `dreqFirst` the first Delay_Req after entry to
ACQUIRE, not yet sent (R259). -/
structure Tb where
  tn : Nat
  sec : Nat
  ns : Nat
  frac : Nat
  state : TbState
  srcXo : Bool
  everLocked : Bool
  stepPending : Bool
  slewing : Option Int
  stale : Bool
  gmOk : Bool
  holdValid : Bool
  lockedAt : Option Nat
  jumpAt : Option Int
  offs : List (Int × Nat)
  off : Option Int
  delays : List Int
  fwd : Option Int
  inLock : Nat
  lastSync : Option Nat
  lastAnn : Option Nat
  master : Option Nat
  twoStep : Option (Nat × Int × Int)
  dreqSeq : Nat
  dreqFirst : Bool
  t3 : Option Int
  track : List Int
  temps : List Int
  holdY : Int
  deriving DecidableEq, Repr

def Tb.reset : Tb :=
  { tn := 0, sec := 0, ns := 0, frac := 0, state := .freerun, srcXo := true, everLocked := false,
    stepPending := false, slewing := none, stale := false, gmOk := false, holdValid := false, lockedAt := none,
    jumpAt := none, offs := [], off := none, delays := [], fwd := none, inLock := 0, lastSync := none, lastAnn := none,
    master := none, twoStep := none, dreqSeq := 0, dreqFirst := false, t3 := none, track := [], temps := [], holdY := 0 }

/-- A slow-control response (R306): status, sequence number, address, data. -/
structure Resp where
  status : Nat
  seq : Nat
  addr : Nat
  data : W32
  deriving DecidableEq, Repr

/-- The PRBS generator and checker of a lane (R284 to R286): the last bits of the generator, its bit number, an INJ_ONE not yet
sent; the checker's reference, the bits of its seed, the error-free bits before SYNC, which of the last 256 bits in SYNC were
errors, and the bits checked below a unit of 2^16. -/
structure Prbs where
  tx : Nat
  txPos : Nat
  injOne : Bool
  ref : Nat
  seeded : Nat
  good : Nat
  win : List Bool
  part : Nat
  deriving DecidableEq, Repr

def Prbs.off : Prbs := ⟨0, 0, false, 0, 0, 0, [], 0⟩

/-- The receiver of a lane's line blocks (R289, R293, R282): the slot of the next block, the words of the frame that is open,
whether blocks are skipped until the next head, and which of the last 64 sync headers were invalid. -/
structure LineRx where
  slot : Nat
  frame : List W64
  skip : Bool
  headers : List Bool
  deriving DecidableEq, Repr

def LineRx.start : LineRx := ⟨0, [], false, []⟩

/-- A lane (R268 to R288) with its slow-control dispatcher state (R307, R210); `step` is the step of R273 that a bring-up has
reached, `stored` the rate, CTLE code, CDR phase and SLIP that a resume takes, `dropped` that the one resume after a drop has not
begun (R282), `fbReq` a fall-back request not yet applied
(R283), `txSlot` the slot of the next block sent, `half` the second unit of a response whose first one has been sent (R294);
`popWait` is the queue whose POP stalls and the entry that has ended its wait. -/
structure LaneSt where
  st : Nat
  los : Bool
  lol : Bool
  block : Bool
  degraded : Bool
  rate : Nat
  ctle : Nat
  fom : Nat
  phase : Nat
  slip : Nat
  stored : Option (Nat × Nat × Nat × Nat)
  lowRun : Nat
  goodRun : Nat
  step : Nat
  bringUp : Bool
  resume : Bool
  dropped : Bool
  waitLos : Bool
  fbReq : Bool
  cap : Nat
  prbsSync : Bool
  prbs : Prbs
  rx : LineRx
  txSlot : Nat
  half : Option W64
  e : Nat
  synced : Bool
  cache : List Resp
  snap : Option (Nat × W64)
  popWait : Option (Nat × Option W64)
  ann : Option (W64 × Nat)
  admitted : Bool
  decided : Bool
  deriving DecidableEq, Repr

def LaneSt.off : LaneSt :=
  { st := 0, los := false, lol := false, block := false, degraded := false, rate := 0, ctle := 0, fom := 0,
    phase := 0, slip := 0, stored := none, lowRun := 0, goodRun := 0, step := 0, bringUp := false, resume := false, dropped := false,
    waitLos := false, fbReq := false, cap := 0, prbsSync := false, prbs := .off, rx := .start, txSlot := 0, half := none, e := 0,
    synced := false, cache := [], snap := none, popWait := none, ann := none, admitted := false, decided := false }

/-- A DATA frame held in the replay buffer (R295 to R297): 0 waits to be sent again, 1 is being sent, 2 sent; with the
generation whose credit its records have used (R205). -/
structure Frame where
  fseq : Nat
  lane : Nat
  blocks : List Block
  st : Nat
  paid : BitVec 8
  deriving DecidableEq, Repr

/-- A HEAD's receive side for one LIMB source (R16, R222 to R224, R253, R296, R300); `lacks` tells that a frame of the set was lost
on the line; `kept` tells whether its latest HIT was queued,
for the WAVE units that follow it (R195); `late` counts the HITs of the late frame that arrives (R224); `passed` holds the lanes on
which frames of a RESEND have gone past the frame asked for (R300). -/
structure Peer where
  serial : Option W32
  next : Nat
  waiting : List (Nat × List (Nat × Block))
  blocks : List (Nat × Block)
  hdr : List (Nat × W64)
  gaps : List (Nat × Nat)
  lastHit : Option (Nat × Nat)
  badPend : Option (Nat × Nat)
  doneSlice : Option Nat
  log : List (Nat × Nat)
  sack : Option Nat
  lastResend : Option Nat
  asked : Bool
  lacks : Bool
  restart : Bool
  kept : Bool
  late : Nat
  passed : List Nat
  deriving DecidableEq, Repr

def Peer.empty : Peer := ⟨none, 0, [], [], [], [], none, none, none, [], none, none, false, false, false, true, 0, []⟩

/-- The link protocol (R289 to R305); `flushes` holds the slices and IDs of FLUSH markers not yet executed (R304). -/
structure Ulp where
  fseq : Nat
  wait : List Block
  held : List Frame
  peak : Nat
  marks : List (BitVec 16)
  acked : Nat
  genRx : BitVec 8
  cumRx : Nat
  allow : Nat
  ackFault : Bool
  resendLast : Nat
  rot : Nat
  peers : Sparse Peer
  totals : List Nat
  flushes : List (Nat × Nat)
  deriving DecidableEq, Repr

def Ulp.reset : Ulp := ⟨0, [], [], 0, [], 0, 0, 0, 0, false, 0, 0, [], [0, 0, 0, 0], []⟩

/-- Redundancy as the HBD holds it (R312 to R331); `authAt` is the tick of the last change of RD_AUTH, `tail` the records that
have come alone behind the frame passed on last, by its slice, `again` how many of them the new CD has still to send once more,
`short` the newest slice of which retention has lost copies, `taken` the slice of the latest checkpoint taken, `openS2` the newest
slice that was open at S2, and `s5End` the tick at which S5 ended (R327). -/
structure Rd where
  activeB : Bool
  authAt : Nat
  gen : BitVec 8
  step : Nat
  flight : Option Ckpt
  failsA : Nat
  failsB : Nat
  rejoin : Option (Bool × Nat)
  bm : Nat
  bmLast : Bool
  m : Nat
  crcs : List (Nat × Nat × W32)
  hdrs : List (Nat × W64)
  cut : Option Nat
  overlap : Bool
  peerFrom : Option Nat
  tail : Nat × Nat
  again : Nat
  short : Option Nat
  taken : Option Nat
  openS2 : Option Nat
  s5End : Nat
  deriving DecidableEq, Repr

def Rd.reset : Rd :=
  { activeB := false, authAt := 0, gen := 0, step := 0, flight := none, failsA := 0, failsB := 0, rejoin := none, bm := 0,
    bmLast := false, m := 0, crcs := [], hdrs := [], cut := none, overlap := false, peerFrom := none, tail := (0, 0), again := 0,
    short := none, taken := none, openS2 := none, s5End := 0 }

/-- A protected word that is not clean (R334): 1 a one-bit error, 2 uncorrectable, 3 poisoned. -/
structure BadWord where
  die : Die
  mem : Nat
  idx : Nat
  kind : Nat
  deriving DecidableEq, Repr

/-- A word written raw by the check-bit test, and the valid code word that it held before, from which its errors count (R340). -/
structure RawWord where
  die : Die
  mem : Nat
  idx : Nat
  data : W64
  check : BitVec 8
  base : Option (W64 × BitVec 8)
  deriving DecidableEq, Repr

/-- A copy of a triplicated word that differs from the other two, and the bits in which it does (R339, R340). -/
structure Vote where
  die : Die
  word : Nat
  copy : Nat
  mask : W32
  deriving DecidableEq, Repr

/-- Error state (R332 to R349): `heads` counts the entries that each privileged queue has given up, which places its entries among
its words; `ran` the dies whose data path has run since their memories were zeroed (R333); `crit` the CD that has met an
uncorrectable word of its critical state in this command (R343 class 5). -/
structure Err where
  bad : List BadWord
  raw : List RawWord
  votes : List Vote
  heads : Sparse Nat
  ran : List Die
  crit : Option Die
  deriving DecidableEq, Repr

def Err.reset : Err := ⟨[], [], [], [], [], none⟩

/-- The states of the Lid (R352). -/
inductive LidState where
  | off | stop | run | degraded | fault
  deriving DecidableEq, Repr

def LidState.code : LidState → Nat
  | .off => 0 | .stop => 1 | .run => 2 | .degraded => 3 | .fault => 4

/-- One quadrant as one Lid channel sees it (R360 to R364). -/
structure Quad where
  v : Nat
  i : Nat
  hist : List Nat
  runVH : Nat
  runVL : Nat
  runI : Nat
  armed : Bool
  ref : Nat
  diffs : Nat
  deriving DecidableEq, Repr

def Quad.zero : Quad := ⟨0, 0, [], 0, 0, 0, false, 0, 0⟩

/-- One channel of the Lid (R350 to R372): with the state that it holds (R352), and whether a drive still reads energised while it
is off (R366). -/
structure LidChan where
  drive : Bool
  causes : List Nat
  par : List (BitVec 8)
  crc : W32
  raw : List Bool
  filt : List Bool
  cnt : List Nat
  disc : List Nat
  hold : Nat
  quads : List Quad
  st : LidState
  outBad : Bool
  deriving DecidableEq, Repr

def LidChan.reset : LidChan :=
  { drive := false, causes := [], par := [], crc := 0, raw := List.replicate 8 false, filt := List.replicate 8 false,
    cnt := [0, 0, 0, 0], disc := [0, 0, 0, 0], hold := 0, quads := List.replicate 4 .zero, st := .off, outBad := false }

/-- The Lid (R350 to R375). -/
structure Lid where
  state : LidState
  p : LidChan
  h : LidChan
  agree : Bool
  qclosed : List Bool
  fbaOpen : Bool
  fbbOpen : Bool
  seenOpenA : Bool
  seenOpenB : Bool
  rstIn : Bool
  heldOver : Bool
  rejected : Bool
  linkP : Bool
  linkH : Bool
  progFail : Bool
  ms : Nat
  /-- FIRST: the lowest cause latched since the last accepted reset, 0 for none (R374). -/
  first : Nat
  /-- The latest demand: its millisecond of channel H, its cause, and the input or quadrant concerned (R374). -/
  demand : Option (Nat × Nat × Nat)
  /-- The hold of a LID_RST release that may be accepted, until its millisecond ends (R374). -/
  acc : Option Nat
  deriving DecidableEq, Repr

def Lid.reset : Lid :=
  { state := .off, p := .reset, h := .reset, agree := false, qclosed := [false, false, false, false],
    fbaOpen := false, fbbOpen := false, seenOpenA := false, seenOpenB := false, rstIn := false, heldOver := false,
    rejected := false, linkP := false, linkH := false, progFail := false, ms := 0, first := 0, demand := none, acc := none }

/-- The margin planner (R379 to R387): cycles since LOAD, the record number, reference and latest ring-oscillator values,
the sums of the cycle, of the hour and of the day, moves that wait, and what is exhausted, as (margin, item). `writing` holds the
words of the record not yet written. -/
structure Age where
  cycles : Nat
  rseq : Nat
  roRef : List Nat
  fn : List Nat
  hourRo : List Rat
  vtrim : List Nat
  trimWait : List (Nat × Int)
  lenWait : List (Nat × Nat)
  lenBack : List W32
  fillDue : List Nat
  exItems : List (Nat × Nat)
  ctleSum : Sparse (Nat × Nat)
  fomSum : Sparse (Nat × Nat)
  fomCycle : Sparse (Nat × Nat)
  lowHours : Sparse Nat
  failAt : Sparse Nat
  fbDay : List Nat
  xoSum : Int
  xoN : Nat
  xoDays : List Int
  xoSpan : Int
  writing : Option (List W64)
  deriving DecidableEq, Repr

def Age.reset : Age :=
  { cycles := 0, rseq := 0, roRef := [], fn := [], hourRo := [], vtrim := [0, 0, 0, 0],
    trimWait := [], lenWait := [], lenBack := [], fillDue := [], exItems := [], ctleSum := [], fomSum := [], fomCycle := [],
    lowHours := [], failAt := [], fbDay := [], xoSum := 0, xoN := 0, xoDays := [], xoSpan := 0, writing := none }

/-- Measurement and attestation (R388 to R395). -/
structure Att where
  meas : List (List (BitVec 8))
  bootCount : Nat
  bootOk : Bool
  busy : Option (List (BitVec 8))
  rid : Nat
  buf : List (BitVec 8)
  bufRid : Nat
  flags : Nat
  deriving DecidableEq, Repr

def Att.reset : Att := ⟨[[], [], [], []], 0, false, none, 0, [], 0, 0⟩

/-- The mailbox (R407 to R409). -/
structure Mbx where
  words : List W32
  valid : Bool
  rqn : BitVec 8
  item : Nat
  lane : Nat
  nw : Nat
  req : W32
  deriving DecidableEq, Repr

def Mbx.reset : Mbx := ⟨[], false, 0, 0, 0, 0, 0⟩

/-- The boundary-scan chain (R433 to R437): the instruction of each die, pin states captured, dies whose cells drive, the bits
last updated into each die's cells, and what the test receivers of the 64 RX legs hold. -/
structure Tap where
  ir : Sparse Nat
  captured : List (Nat × List Bool)
  driving : List Nat
  cells : List (Nat × List Bool)
  rx : List Bool
  deriving DecidableEq, Repr

def Tap.reset : Tap := ⟨[], [], [], [], List.replicate 64 false⟩

/-- What has left the module. -/
inductive Out where
  | frame (lane fseq : Nat) (words : List W64)
  | unit (lane : Nat) (u : W64)
  | ts (lane seq ns corr : Nat) (words : List W64)
  | credit (gen : BitVec 8) (g pages : Nat)
  | keep (gen : BitVec 8) (first last : Nat)
  | release (gen : BitVec 8) (x : Nat)
  | closed (gen : BitVec 8) (n : Nat)
  | level (gen : BitVec 8) (n lv step : Nat)
  | ring (frame : BitVec 128)
  | inject (ch amp delay : Nat)
  | acTest (die : Die) (edges : Nat)
  | tdo (bits : List Bool)
  | pins (drives : List (Option Bool))
  | prbs (lane : Nat) (bits : List Bool)
  deriving DecidableEq, Repr

/-- The block. -/
structure State where
  /-- Commands that wait, oldest first. -/
  pending : List Instr
  /-- Stored register words by key: an address, plus 2^24 × (index + 1) where a selector chooses among several. -/
  regs : Sparse W32
  sts : Sparse Sts
  hk : Hk
  run : Run
  nvd : Nvd
  cal : Cal
  fe : Fe
  tdc : Tdc
  wf : Wf
  fed : Fed
  cda : Cd
  cdb : Cd
  ring : Ring
  tb : Tb
  lanes : Sparse LaneSt
  ulp : Ulp
  resp : List (Nat × Resp)
  pq : List (Nat × W64)
  rd : Rd
  err : Err
  lid : Lid
  age : Age
  att : Att
  mbx : Mbx
  tap : Tap
  out : List Out
  /-- The model's own counter of free values drawn. -/
  free : Nat
  deriving DecidableEq, Repr

/-- The machine before 12 V is applied: every register at its Reset column (R415), every memory at zero. -/
def State.reset : State :=
  { pending := [], regs := [], sts := [], hk := .reset, run := .reset, nvd := .reset, cal := .zero, fe := .reset,
    tdc := .reset, wf := .reset, fed := .reset, cda := .reset, cdb := .reset, ring := .reset, tb := .reset, lanes := [],
    ulp := .reset, resp := [], pq := [], rd := .reset, err := .reset, lid := .reset, age := .reset, att := .reset,
    mbx := .reset, tap := .reset, out := [], free := 0 }

/-- The outcome of a command. -/
abbrev Outcm := Host.Outcome State Fault Refusal

end Sys2Proof.Machine
end

