-- ==== Sys2Proof/Machine/Coding.lean ====
section
/-! DEFINITION. The coded payload (R237 to R246) and its decoding (R251): bit strings, adaptive codes, WAVE units, the coder
of a block and the Expander. -/

namespace Sys2Proof.Machine

/-! ### Codes -/

/-- The low `n` bits of `v`, most significant first (R240). -/
def fieldBits (n v : Nat) : List Bool := (List.range n).map (fun i => v.testBit (n - 1 - i))

/-- The number that bits spell. -/
def bitsNat (l : List Bool) : Nat := l.foldl (fun a b => 2 * a + b2n b) 0

/-- The Rice code of a value (R241). -/
def riceBits (w m v : Nat) : List Bool :=
  if v / 2 ^ m < 15 then List.replicate (v / 2 ^ m) true ++ [false] ++ fieldBits m v
  else List.replicate 15 true ++ fieldBits w v

/-- The parameter after a value (R241). -/
def nextM (w m v : Nat) : Nat :=
  let q := v / 2 ^ m
  if q ≥ 2 then min (w - 1) (m + Nat.log2 q)
  else if q = 0 ∧ m > 0 ∧ v < 2 ^ (m - 1) then m - 1 else m

/-- `zz` of R241: a difference modulo 2^w as an unsigned value. -/
def zz (w : Nat) (d : Int) : Nat :=
  let x := signedW w (patternW w d)
  if x ≥ 0 then (2 * x).toNat else (-2 * x - 1).toNat

/-- The difference that a `zz` value stands for. -/
def unzz (v : Nat) : Int := if v % 2 = 0 then (v / 2 : Nat) else -(((v + 1) / 2 : Nat) : Int)

/-- The adaptive contexts of R242. -/
inductive Ctx where
  | sc | tsame | tneigh | tot | rise | wv | ws
  deriving DecidableEq, Repr

def Ctx.width : Ctx → Nat
  | .sc => 15 | .tsame => 26 | .tneigh => 26 | .tot => 12 | .rise => 8 | .wv => 13 | .ws => 13

def Ctxs.m (c : Ctxs) : Ctx → Nat
  | .sc => c.sc | .tsame => c.tsame | .tneigh => c.tneigh | .tot => c.tot | .rise => c.rise | .wv => c.wv | .ws => c.ws

def Ctxs.setM (c : Ctxs) (k : Ctx) (m : Nat) : Ctxs :=
  match k with
  | .sc => { c with sc := m } | .tsame => { c with tsame := m } | .tneigh => { c with tneigh := m }
  | .tot => { c with tot := m } | .rise => { c with rise := m } | .wv => { c with wv := m } | .ws => { c with ws := m }

/-! ### WAVE units -/

/-- The values of a reduction (R142). -/
def redValues (red : Nat) : Nat := nth 0 [64, 64, 32, 16, 8, 5] red

/-- The sample words of a reduction (R142). -/
def redWords (red : Nat) : Nat := nth 0 [13, 13, 7, 4, 2, 1] red

/-- RED of a WAVE header. -/
def recRed (w : W64) : Nat := bits w 11 9

/-- The five values of a sample word. -/
def wordValues (w : W64) : List Nat := [bits w 59 48, bits w 47 36, bits w 35 24, bits w 23 12, bits w 11 0]

/-- The sample words of a list of values, with the tags of R145 and zero padding. -/
def sampleWords (red : Nat) (vs : List Nat) : List W64 :=
  (List.range (redWords red)).map (fun i =>
    waveWord (i + 1 == redWords red) red ((List.range 5).map (fun j => nth 0 vs (5 * i + j))))

/-- May a WAVE unit be coded as one (R245): its values. -/
def unitValues (u : List W64) : Option (List Nat) :=
  match u with
  | [] => none
  | h :: ws =>
    let red := recRed h
    let vs := (ws.flatMap wordValues).take (redValues red)
    if recKind h = 1 ∧ red ≤ 5 ∧ recNw h = redWords red ∧ ws = sampleWords red vs then some vs else none

/-- The prediction of value `j` from the values before it and the reference unit (R246). -/
def predict (red : Nat) (x : List Nat) (r : Option (List Nat)) (j : Nat) : Nat :=
  if red = 5 then match r with
    | some v => nth 0 v j
    | none => 0
  else
    let s := if red = 0 then 1 else 2
    let a : Int := if j ≥ s then (nth 0 x (j - s) : Nat) else 256
    let p : Int := match r with
      | some v => if j ≥ s then a + (nth 0 v j : Nat) - (nth 0 v (j - s) : Nat) else (nth 0 v j : Nat)
      | none => a
    (min 4095 (max 0 p)).toNat

/-! ### History -/

/-- What a coder or decoder keeps of a block (R242, R243, R246): contexts, the record sequence newest first with its HITs
marked, and the units with the position of their header. -/
structure Hist where
  ctx : Ctxs
  seq : List (W64 × Bool)
  units : List (Nat × Nat × List Nat)
  deriving DecidableEq, Repr

def Hist.init : Hist := ⟨.init, [], []⟩

/-- The default reference (R243). -/
def Hist.lastHit (h : Hist) : Option W64 := (h.seq.find? Prod.snd).map Prod.fst

/-- Records enter the sequence. -/
def Hist.push (h : Hist) (ws : List W64) (hit : Bool) : Hist :=
  { h with seq := ws.foldl (fun l w => (w, hit) :: l) h.seq }

/-- The reference unit of a header that comes next (R246). -/
def Hist.refUnit (h : Hist) (red : Nat) : Option (List Nat) :=
  (h.units.find? (fun u => u.1 == red && decide (h.seq.length - u.2.1 ≤ 255))).map (fun u => u.2.2)

def recSC (w : W64) : Nat := bits w 61 47
def recT (w : W64) : Nat := bits w 46 21
/-- Bits [20:9]: ToT, or HITNO and DISC. -/
def recTot (w : W64) : Nat := bits w 20 9

/-! ### The coder -/

/-- A value in its context: its bits, and the contexts after it. -/
def putCtx (c : Ctxs) (k : Ctx) (v : Nat) : List Bool × Ctxs :=
  (riceBits k.width (c.m k) v, c.setM k (nextM k.width (c.m k) v))

/-- The reference the Press chooses for a HIT (R244): its distance, 0 for the default, and the record. -/
def Hist.choose (h : Hist) (w : W64) : Nat × W64 :=
  match h.lastHit with
  | none => (0, 0)
  | some r =>
    if recSC w = recSC r then (0, r)
    else
      let gap := fun (x : W64) => ((recT w : Int) - (recT x : Int)).natAbs
      let near := ((h.seq.take 255).mapIdx (fun i x => (i + 1, x))).filter (fun x => x.2.2 && recSC x.2.1 == recSC r)
      near.foldl (fun b x => if gap x.2.1 < gap b.2 then (x.1, x.2.1) else b) (0, r)

/-- A HIT (R243). -/
def Hist.codeHit (h : Hist) (w : W64) : List Bool × Hist :=
  let c := h.choose w
  let r := c.2
  let op := if c.1 = 0 then [false] else [true, false] ++ fieldBits 8 c.1
  let sc := (recSC w + 32768 - recSC r) % 32768
  let a := putCtx h.ctx .sc sc
  let dt : Int := (recT w : Int) - (recT r : Int)
  let b := if sc = 0 then putCtx a.2 .tsame (patternW 26 dt) else putCtx a.2 .tneigh (zz 26 dt)
  let d := putCtx b.2 .tot (zz 12 ((recTot w : Int) - (recTot r : Int)))
  let e := putCtx d.2 .rise (zz 8 ((recRise w : Int) - (recRise r : Int)))
  (op ++ a.1 ++ b.1 ++ d.1 ++ e.1 ++ [recCal w], { (h.push [w] true) with ctx := e.2 })

/-- The values of a unit from `j` on. -/
def codeValues (red : Nat) (x : List Nat) (r : Option (List Nat)) (c : Ctxs) : Nat → List Nat → List Bool × Ctxs
  | _, [] => ([], c)
  | j, v :: t =>
    let a := putCtx c (if red = 5 then .ws else .wv) (zz 13 ((v : Int) - (predict red x r j : Int)))
    let b := codeValues red x r a.2 (j + 1) t
    (a.1 ++ b.1, b.2)

/-- A WAVE unit (R245). -/
def Hist.codeUnit (h : Hist) (u : List W64) (vs : List Nat) : List Bool × Hist :=
  let hd := u.headD 0
  let prev := (h.seq.head?.map Prod.fst).getD 0
  let flag := if bits hd 61 32 = bits prev 61 32 then [false] else [true] ++ fieldBits 30 (bits hd 61 32)
  let red := recRed hd
  let b := codeValues red vs (h.refUnit red) h.ctx 0 vs
  let g := h.push u false
  ([true, true, true] ++ flag ++ fieldBits 32 (bits hd 31 0) ++ b.1,
    { g with ctx := b.2, units := (red, h.seq.length, vs) :: g.units })

/-- A part of a block that is coded whole. -/
inductive Item where
  | hit (w : W64)
  | unit (ws : List W64) (vs : List Nat)
  | plain (w : W64)
  | dep (ws : List W64)
  deriving DecidableEq, Repr

/-- The records of a part. -/
def Item.count : Item → Nat
  | .hit _ => 1
  | .unit ws _ => ws.length
  | .plain _ => 1
  | .dep ws => ws.length

/-- The parts of a list of records (R243, R245). -/
def itemsOf : Nat → List W64 → List Item
  | 0, _ => []
  | _, [] => []
  | n + 1, w :: t =>
    match recKind w with
    | 0 => .hit w :: itemsOf n t
    | 1 =>
      let u := w :: t.take (recNw w)
      let rest := t.drop (recNw w)
      match unitValues u with
      | some vs => .unit u vs :: itemsOf n rest
      | none => u.map Item.plain ++ itemsOf n rest
    | _ => .plain w :: itemsOf n t

/-- The parts of a block; in a FIRST block the header's EXT records are not coded (R238). -/
def blockItems (first : Bool) (ws : List W64) : List Item :=
  match first, ws with
  | true, h :: a :: b :: t => .plain h :: .dep [a, b] :: itemsOf t.length t
  | _, _ => itemsOf ws.length ws

/-- The code of a part, and the history after it. -/
def Hist.codeItem (h : Hist) : Item → List Bool × Hist
  | .hit w => h.codeHit w
  | .unit ws vs => h.codeUnit ws vs
  | .plain w => ([true, true, false] ++ fieldBits 64 w.toNat, h.push [w] false)
  | .dep ws => ([], h.push ws false)

/-- How far a job comes in `space` words (R250): the records coded, their bits, the contexts, and whether all are coded. -/
def codeRun (space : Nat) (h : Hist) (bs : List Bool) (n : Nat) : List Item → Nat × List Bool × Ctxs × Bool
  | [] => (n, bs, h.ctx, decide ((bs.length + 63) / 64 ≤ space))
  | i :: t =>
    let c := h.codeItem i
    if (bs.length + c.1.length) / 64 > space then (n, bs, h.ctx, false)
    else codeRun space c.2 (bs ++ c.1) (n + i.count) t

/-- Bits as 64-bit words, the last filled with zero bits. -/
def packWords : Nat → List Bool → List W64
  | 0, _ => []
  | n + 1, l =>
    let a := l.take 64
    BitVec.ofNat 64 (bitsNat (a ++ List.replicate (64 - a.length) false)) :: packWords n (l.drop 64)

/-! ### The Expander -/

/-- An error of R251: its code, and the payload bit position at which decoding stopped. -/
structure XpdErr where
  code : Nat
  pos : Nat
  deriving DecidableEq, Repr

/-- The bits still to decode, and the position of the first of them. -/
structure BitSrc where
  rest : List Bool
  pos : Nat
  deriving DecidableEq, Repr

/-- `n` bits; code 3 where they lie beyond the end. -/
def BitSrc.take (b : BitSrc) (n : Nat) : Except XpdErr (Nat × BitSrc) :=
  if b.rest.length < n then .error ⟨3, b.pos⟩ else .ok (bitsNat (b.rest.take n), ⟨b.rest.drop n, b.pos + n⟩)

/-- Leading one-bits, at most `f`; the zero-bit after fewer is taken too. -/
def BitSrc.ones : Nat → BitSrc → Except XpdErr (Nat × BitSrc)
  | 0, b => .ok (0, b)
  | f + 1, b =>
    match b.rest with
    | [] => .error ⟨3, b.pos⟩
    | false :: t => .ok (0, ⟨t, b.pos + 1⟩)
    | true :: t =>
      match BitSrc.ones f ⟨t, b.pos + 1⟩ with
      | .error e => .error e
      | .ok r => .ok (r.1 + 1, r.2)

/-- A coded value in its context (R241). -/
def getCtx (c : Ctxs) (k : Ctx) (b : BitSrc) : Except XpdErr (Nat × Ctxs × BitSrc) := do
  let m := c.m k
  let q ← b.ones 15
  if q.1 < 15 then
    let r ← q.2.take m
    let v := q.1 * 2 ^ m + r.1
    pure (v, c.setM k (nextM k.width m v), r.2)
  else
    let r ← q.2.take k.width
    if r.1 / 2 ^ m < 15 then throw ⟨1, r.2.pos⟩
    pure (r.1, c.setM k (nextM k.width m r.1), r.2)

/-- The fields of a HIT after its reference is known (R243). -/
def getHit (h : Hist) (r : W64) (b : BitSrc) : Except XpdErr (W64 × Ctxs × BitSrc) := do
  let sc ← getCtx h.ctx .sc b
  let t ← getCtx sc.2.1 (if sc.1 = 0 then .tsame else .tneigh) sc.2.2
  let tot ← getCtx t.2.1 .tot t.2.2
  let rise ← getCtx tot.2.1 .rise tot.2.2
  let cal ← rise.2.2.take 1
  let dt : Int := if sc.1 = 0 then (t.1 : Nat) else unzz t.1
  pure (rec64 [(0, 2), (recSC r + sc.1, 15), (patternW 26 ((recT r : Int) + dt), 26),
    (patternW 12 ((recTot r : Int) + unzz tot.1), 12), (patternW 8 ((recRise r : Int) + unzz rise.1), 8), (cal.1, 1)],
    rise.2.1, cal.2)

/-- `n` values of a unit after those in `x`, in order. -/
def getValues (red : Nat) (r : Option (List Nat)) : Nat → List Nat → Ctxs → BitSrc → Except XpdErr (List Nat × Ctxs × BitSrc)
  | 0, x, c, b => .ok (x, c, b)
  | n + 1, x, c, b => do
    let v ← getCtx c (if red = 5 then .ws else .wv) b
    let y := (predict red x r x.length : Int) + unzz v.1
    if y < 0 ∨ y > 4095 then throw ⟨1, v.2.2.pos⟩
    getValues red r n (x ++ [y.toNat]) v.2.1 v.2.2

/-- A 111 unit (R245); `room` records may still come. -/
def getUnit (h : Hist) (room : Nat) (b : BitSrc) : Except XpdErr (Hist × BitSrc) := do
  let f ← b.take 1
  let hi ← f.2.take (if f.1 = 1 then 30 else 0)
  let lo ← hi.2.take 32
  let prev := (h.seq.head?.map Prod.fst).getD 0
  let hd := rec64 [(1, 2), (if f.1 = 1 then hi.1 else bits prev 61 32, 30), (lo.1, 32)]
  let red := recRed hd
  if red > 5 ∨ recNw hd ≠ redWords red then throw ⟨1, lo.2.pos⟩
  if 1 + recNw hd > room then throw ⟨3, lo.2.pos⟩
  let v ← getValues red (h.refUnit red) (redValues red) [] h.ctx lo.2
  let g := h.push (hd :: sampleWords red v.1) false
  pure ({ g with ctx := v.2.1, units := (red, h.seq.length, v.1) :: g.units }, v.2.2)

/-- One operation (R240): the history after it, the sample words still owed to a verbatim WAVE header, and the bits. -/
def getItem (h : Hist) (room owed : Nat) (b : BitSrc) : Except XpdErr (Hist × Nat × BitSrc) := do
  let a ← b.take 1
  if a.1 = 0 then
    let x ← getHit h (h.lastHit.getD 0) a.2
    pure ({ (h.push [x.1] true) with ctx := x.2.1 }, 0, x.2.2)
  else
    let c ← a.2.take 1
    if c.1 = 0 then
      let d ← c.2.take 8
      if d.1 = 0 then throw ⟨1, d.2.pos⟩
      match h.seq[d.1 - 1]? with
      | some (r, true) =>
        let x ← getHit h r d.2
        pure ({ (h.push [x.1] true) with ctx := x.2.1 }, 0, x.2.2)
      | _ => throw ⟨2, d.2.pos⟩
    else
      let e ← c.2.take 1
      if e.1 = 0 then
        let w ← e.2.take 64
        let r : W64 := BitVec.ofNat 64 w.1
        let hit := owed = 0 ∧ recKind r = 0
        pure (h.push [r] (decide hit), if owed > 0 then owed - 1 else if recKind r = 1 then recNw r else 0, w.2)
      else
        let u ← getUnit h room e.2
        pure (u.1, 0, u.2)

/-- Is a record a slice header. -/
def isHeader (w : W64) : Bool := recKind w == 2 && recSub w == 1

/-- The operations of a payload until `nrec` records stand (R238, R251), with the position at which each record began. -/
def getAll (first : Bool) (dep : List W64) (nrec : Nat) :
    Nat → Hist → Nat → List Nat → BitSrc → Except XpdErr (Hist × List Nat × BitSrc)
  | 0, h, _, at', b => .ok (h, at', b)
  | f + 1, h, owed, at', b =>
    if h.seq.length ≥ nrec then .ok (h, at', b)
    else do
      let r ← getItem h (nrec - h.seq.length) owed b
      let start := h.seq = []
      if first ∧ start ∧ !isHeader ((r.1.seq.getLastD (0, false)).1) then throw ⟨1, r.2.2.pos⟩
      let g := if first ∧ start then r.1.push dep false else r.1
      getAll first dep nrec f g r.2.1 (at' ++ List.replicate (g.seq.length - h.seq.length) b.pos) r.2.2

/-- The header checks of R251, made before any payload is decoded. -/
def headerBad (b : Block) : Bool :=
  let nrec := bits b.h1 63 53
  let pw := bits b.h1 52 42
  let pad := bits b.h1 41 36
  let alone := bitOf b.h0 20
  let last := bitOf b.h0 19
  let first := bitOf b.h0 18
  let verify := bitOf b.h0 17
  let raw := bitOf b.h0 16
  bits b.h1 35 0 != 0 || nrec == 0 || decide (nrec > 512) || pw == 0 || decide (pw > 512) || (raw && pad != 0) ||
    (alone && (!last || !raw || first || nrec != 1)) || (verify && !raw) || (first && decide (nrec < 3))

/-- The Expander (R251): the records of a block, DEP placed after the header, with the position at which each began. -/
def expand (b : Block) : Except XpdErr (List W64 × List Nat) :=
  let nrec := bits b.h1 63 53
  let pw := bits b.h1 52 42
  let first := bitOf b.h0 18
  let dep := match b.dep with
    | some d => [d.1, d.2]
    | none => []
  if headerBad b then .error ⟨1, 0⟩
  else if bitOf b.h0 16 then
    if pw + (if first then 2 else 0) ≠ nrec ∨ b.payload.length ≠ pw then .error ⟨3, 0⟩
    else match first, b.payload with
      | true, h :: t =>
        if isHeader h then .ok (h :: dep ++ t, (List.range nrec).map (fun i => 64 * (i - 2))) else .error ⟨1, 64⟩
      | _, ws => .ok (ws, (List.range nrec).map (fun i => 64 * i))
  else
    let all := b.payload.flatMap (fun w => fieldBits 64 w.toNat)
    let limit := pw * 64 - bits b.h1 41 36
    match getAll first dep nrec nrec .init 0 [] ⟨all.take limit, 0⟩ with
      | .error e => .error e
      | .ok r =>
        if r.2.2.pos ≠ limit then .error ⟨3, r.2.2.pos⟩
        else if ((all.take (64 * pw)).drop limit).any (fun x => x) then .error ⟨3, limit⟩
        else .ok ((r.1.seq.reverse).map Prod.fst, r.2.1)

end Sys2Proof.Machine
end

