-- ==== Sys2Proof/Machine/Codes.lean ====
section
/-! DEFINITION. The checks and digests the spec names: CRC-32C over bytes (R63, R291), the CRC-16 of ITU-T V.41 over a
unit's bits (R291), SHA-512 (R388), and byte orders. -/

namespace Sys2Proof.Machine

/-- A byte. -/
abbrev Octet := BitVec 8

/-- One bit step of CRC-32C, reflected: polynomial 0x1EDC6F41. -/
def crc32cBit (c : Nat) : Nat := if c % 2 = 1 then (c / 2) ^^^ 0x82F63B78 else c / 2

/-- One byte of CRC-32C. -/
def crc32cByte (c : Nat) (b : Octet) : Nat :=
  crc32cBit (crc32cBit (crc32cBit (crc32cBit (crc32cBit (crc32cBit (crc32cBit (crc32cBit (c ^^^ b.toNat))))))))

/-- CRC-32C of a list of bytes. -/
def crc32c (bs : List Octet) : W32 := BitVec.ofNat 32 ((bs.foldl crc32cByte 0xFFFFFFFF) ^^^ 0xFFFFFFFF)

/-- The bytes of a 64-bit word, most significant first (R291). -/
def bytesBE (w : W64) : List Octet :=
  [w.extractLsb' 56 8, w.extractLsb' 48 8, w.extractLsb' 40 8, w.extractLsb' 32 8,
   w.extractLsb' 24 8, w.extractLsb' 16 8, w.extractLsb' 8 8, w.extractLsb' 0 8]

/-- The bytes of a 64-bit word, least significant first (R60). -/
def bytesLE (w : W64) : List Octet :=
  [w.extractLsb' 0 8, w.extractLsb' 8 8, w.extractLsb' 16 8, w.extractLsb' 24 8,
   w.extractLsb' 32 8, w.extractLsb' 40 8, w.extractLsb' 48 8, w.extractLsb' 56 8]

/-- The bytes of a register word, least significant first. -/
def bytes32LE (w : W32) : List Octet :=
  [w.extractLsb' 0 8, w.extractLsb' 8 8, w.extractLsb' 16 8, w.extractLsb' 24 8]

/-- The number that bytes spell, least significant first. -/
def leNat : List Octet → Nat
  | [] => 0
  | b :: t => b.toNat + 256 * leNat t

/-- CRC-32C of 64-bit words, each most significant byte first (R291). -/
def crcWords (ws : List W64) : W32 := crc32c (ws.flatMap bytesBE)

/-- One bit of the CRC-16: polynomial x^16 + x^12 + x^5 + 1. -/
def crc16Bit (c : Nat) (b : Bool) : Nat :=
  let top := decide (c / 0x8000 % 2 = 1)
  let sh := c * 2 % 0x10000
  if (top != b) then sh ^^^ 0x1021 else sh

/-- The CRC-16 of a unit over its bits [63:16], from bit 63 down, initial value 0xFFFF (R291). -/
def unitCrc (u : W64) : Nat :=
  (List.range 48).foldl (fun c i => crc16Bit c (u.getLsbD (63 - i))) 0xFFFF

/-- A unit with its CRC-16 in [15:0]. -/
def withUnitCrc (u : W64) : W64 := putBits u 15 0 (unitCrc u)

/-- Does a unit's CRC-16 hold (R293). -/
def unitCrcOk (u : W64) : Bool := bits u 15 0 == unitCrc u

/-! ### SHA-512 -/

/-- The integer `r`-th root of `n`, from bit `k` down, by trial. -/
def rootFrom (r n : Nat) : Nat → Nat → Nat
  | 0, acc => acc
  | k + 1, acc => rootFrom r n k (if (acc + 2 ^ k) ^ r ≤ n then acc + 2 ^ k else acc)

/-- Has `n` a divisor from 2 to `d`. -/
def hasDivisor (n : Nat) : Nat → Bool
  | 0 => false
  | d + 1 => (d + 1 ≥ 2 && n % (d + 1) == 0) || hasDivisor n d

/-- The primes below 410: the first 80. -/
def primes80 : List Nat := (List.range 410).filter (fun n => n ≥ 2 && !hasDivisor n (n - 1))

/-- The round constants: the first 64 fractional bits of the cube roots of the first 80 primes. -/
def sha512K : List Nat := primes80.map (fun p => rootFrom 3 (p * 2 ^ 192) 68 0 % 2 ^ 64)

/-- The initial hash: the first 64 fractional bits of the square roots of the first eight primes. -/
def sha512H : List Nat := (primes80.take 8).map (fun p => rootFrom 2 (p * 2 ^ 128) 69 0 % 2 ^ 64)

def rotr64 (x n : Nat) : Nat := (x / 2 ^ n + x * 2 ^ (64 - n)) % 2 ^ 64

/-- Message schedule: sixteen words, then one per round, newest first. -/
def shaExtend : Nat → List Nat → List Nat
  | 0, ws => ws
  | n + 1, ws =>
    let a := nth 0 ws 14
    let b := nth 0 ws 1
    let s0 := rotr64 a 1 ^^^ rotr64 a 8 ^^^ (a / 2 ^ 7)
    let s1 := rotr64 b 19 ^^^ rotr64 b 61 ^^^ (b / 2 ^ 6)
    shaExtend n (((nth 0 ws 15 + s0 + nth 0 ws 6 + s1) % 2 ^ 64) :: ws)

/-- One round over (a .. h). -/
def shaRound (st : List Nat) (kw : Nat × Nat) : List Nat :=
  match st with
  | [a, b, c, d, e, f, g, h] =>
    let s1 := rotr64 e 14 ^^^ rotr64 e 18 ^^^ rotr64 e 41
    let ch := (e &&& f) ^^^ ((e ^^^ (2 ^ 64 - 1)) &&& g)
    let t1 := h + s1 + ch + kw.1 + kw.2
    let s0 := rotr64 a 28 ^^^ rotr64 a 34 ^^^ rotr64 a 39
    let mj := (a &&& b) ^^^ (a &&& c) ^^^ (b &&& c)
    [(t1 + s0 + mj) % 2 ^ 64, a, b, c, (d + t1) % 2 ^ 64, e, f, g]
  | o => o

/-- One block of sixteen words. -/
def shaBlock (h : List Nat) (ws : List Nat) : List Nat :=
  let full := (shaExtend 64 ws.reverse).reverse
  ((sha512K.zip full).foldl shaRound h).zipWith (fun x y => (x + y) % 2 ^ 64) h

/-- The number that bytes spell, most significant first. -/
def beNat (bs : List Octet) : Nat := bs.foldl (fun a b => a * 256 + b.toNat) 0

/-- Big-endian bytes of a number. -/
def beBytes (n v : Nat) : List Octet := (List.range n).map (fun i => BitVec.ofNat 8 (v / 256 ^ (n - 1 - i)))

/-- Little-endian bytes of a number. -/
def leBytes (n v : Nat) : List Octet := (List.range n).map (fun i => BitVec.ofNat 8 (v / 256 ^ i))

/-- Cut a list into `n` pieces of `k`. -/
def chunks {α : Type} (k : Nat) : Nat → List α → List (List α)
  | 0, _ => []
  | n + 1, l => l.take k :: chunks k n (l.drop k)

/-- SHA-512 of a list of bytes. -/
def sha512 (bs : List Octet) : List Octet :=
  let padded := bs ++ [0x80#8] ++ List.replicate ((239 - bs.length % 128) % 128) 0#8 ++ beBytes 16 (8 * bs.length)
  let blocks := (chunks 128 (padded.length / 128) padded).map (fun b => (chunks 8 16 b).map beNat)
  (blocks.foldl shaBlock sha512H).flatMap (beBytes 8)

/-! ### RSASSA-PSS with SHA-512, for a modulus of 4,096 bits (R390, R391, RFC 8017) -/

/-- MGF1 with SHA-512. -/
def mgf1 (seed : List Octet) (n : Nat) : List Octet :=
  ((List.range ((n + 63) / 64)).flatMap (fun i => sha512 (seed ++ beBytes 4 i))).take n

/-- The hash of EMSA-PSS over a message and its salt. -/
def pssHash (m salt : List Octet) : List Octet := sha512 (List.replicate 8 0 ++ sha512 m ++ salt)

/-- The data block with its mask on, or off: the same operation; the leftmost bit stays zero. -/
def pssMask (h db : List Octet) : List Octet :=
  match db.zipWith (fun a b => a ^^^ b) (mgf1 h 447) with
  | [] => []
  | b :: t => (b &&& 0x7F) :: t

/-- EMSA-PSS-ENCODE with a 64-byte salt: 512 octets. -/
def pssEncode (m salt : List Octet) : List Octet :=
  let h := pssHash m salt
  pssMask h (List.replicate 382 0 ++ [1] ++ salt) ++ h ++ [0xBC]

/-- EMSA-PSS-VERIFY. -/
def pssVerify (m em : List Octet) : Bool :=
  let h := (em.drop 447).take 64
  let db := pssMask h (em.take 447)
  em.length == 512 && em.getLast? == some 0xBC && bitOf (em.headD 0) 7 == false && db.take 383 == List.replicate 382 0 ++ [1] &&
    pssHash m (db.drop 383) == h

end Sys2Proof.Machine
end

