-- ==== Sys2Proof/Machine/RegTable.lean ====
section
/-! DEFINITION. The register map: every register entry of the spec's chapters with its address, its field types and its
reset values (R411, R413, R415), and their addresses by name. CD registers stand at their alias address (die nibble 2),
the ERR block at the alias of the active CD. Made from the register tables of spec/ by a script. -/

namespace Sys2Proof.Machine

/-- The field types of R11. -/
inductive FTy where
  | cfg | lock | sts | cnt | cmd | mbx | ro
  deriving DecidableEq, Repr

/-- One field: bits `[hi:lo]`, type and reset value. -/
structure Field where
  hi : Nat
  lo : Nat
  ty : FTy
  rst : Nat
  deriving DecidableEq, Repr

/-- A run of equally laid out registers: first address, distance, number, fields; reserved fields are left out. -/
structure RegRow where
  base : Nat
  stride : Nat
  count : Nat
  fields : List Field
  deriving DecidableEq, Repr

abbrev Reg.HK_MODE : Nat := 0x000010
abbrev Reg.HK_MODE_REQ : Nat := 0x000014
abbrev Reg.HK_AUTO_SPILL : Nat := 0x000018
abbrev Reg.HK_MODE_EVT : Nat := 0x00001C
abbrev Reg.HK_SPILL_IGN_CNT : Nat := 0x000020
abbrev Reg.HK_CFG_INFO : Nat := 0x000040
abbrev Reg.HK_CFG_GEN : Nat := 0x000044
abbrev Reg.HK_NVD_PAGE : Nat := 0x000048
abbrev Reg.HK_NVD_CMD : Nat := 0x00004C
abbrev Reg.HK_NVD_STS : Nat := 0x000050
abbrev Reg.HK_CFG_EVT : Nat := 0x000054
abbrev Reg.HK_LOCKED_CNT : Nat := 0x000058
abbrev Reg.FE_CTRL : Nat := 0x100000
abbrev Reg.FE_GROUP_EN_0 : Nat := 0x100004
abbrev Reg.FE_GROUP_EN_1 : Nat := 0x100008
abbrev Reg.FE_INJ_CTRL : Nat := 0x100010
abbrev Reg.FE_INJ_PATTERN : Nat := 0x100014
abbrev Reg.FE_RATE_GATE : Nat := 0x100020
abbrev Reg.FE_RATE_SEL : Nat := 0x100024
abbrev Reg.FE_RATE_DATA : Nat := 0x100028
abbrev Reg.FE_STATE : Nat := 0x100030
abbrev Reg.FE_EVT : Nat := 0x100034
abbrev Reg.TDC_CTRL : Nat := 0x110000
abbrev Reg.TDC_LEN : Nat := 0x110010
abbrev Reg.TDC_LEN_ACT : Nat := 0x110020
abbrev Reg.TDC_CD_CMD : Nat := 0x110040
abbrev Reg.TDC_CD_GRP_0 : Nat := 0x110044
abbrev Reg.TDC_CD_GRP_1 : Nat := 0x110048
abbrev Reg.TDC_CD_STS : Nat := 0x11004C
abbrev Reg.TDC_CD_SEL : Nat := 0x110050
abbrev Reg.TDC_CD_DATA : Nat := 0x110054
abbrev Reg.TDC_CD_QUAL : Nat := 0x110058
abbrev Reg.TDC_SKW_CTRL : Nat := 0x110060
abbrev Reg.TDC_SKW_MEAN : Nat := 0x110064
abbrev Reg.TDC_EVT : Nat := 0x110070
abbrev Reg.TDC_OVR_CNT : Nat := 0x110074
abbrev Reg.TDC_DEAD_CNT : Nat := 0x110078
abbrev Reg.WF_CTRL : Nat := 0x120000
abbrev Reg.WF_HOLD : Nat := 0x120004
abbrev Reg.WF_EFF : Nat := 0x120008
abbrev Reg.WF_RING_SEL : Nat := 0x120010
abbrev Reg.WF_RING_STS : Nat := 0x120014
abbrev Reg.WF_EVT : Nat := 0x120020
abbrev Reg.WF_NORING_CNT : Nat := 0x120024
abbrev Reg.WF_DEADLINE_CNT : Nat := 0x120028
abbrev Reg.WF_LATE_KEEP_CNT : Nat := 0x12002C
abbrev Reg.WF_KEPT_CNT : Nat := 0x120030
abbrev Reg.WF_RELEASED_CNT : Nat := 0x120034
abbrev Reg.TRG_CTRL : Nat := 0x230000
abbrev Reg.TRG_ALIGN : Nat := 0x230004
abbrev Reg.TRG_KEEP_WIN : Nat := 0x230008
abbrev Reg.TRG_LIMB_WIN : Nat := 0x23000C
abbrev Reg.TRG_BUS_CFG : Nat := 0x230010
abbrev Reg.TRG_PRIM_A : Nat := 0x230020
abbrev Reg.TRG_PRIM_B : Nat := 0x230030
abbrev Reg.TRG_PRIM_C : Nat := 0x230040
abbrev Reg.TRG_PER_PERIOD_0 : Nat := 0x230050
abbrev Reg.TRG_PER_PERIOD_1 : Nat := 0x230054
abbrev Reg.TRG_PER_OFFSET_0 : Nat := 0x230058
abbrev Reg.TRG_PER_OFFSET_1 : Nat := 0x23005C
abbrev Reg.TRG_LAT : Nat := 0x230060
abbrev Reg.TRG_RING_STS : Nat := 0x230064
abbrev Reg.TRG_LOOP_CMD : Nat := 0x230068
abbrev Reg.TRG_EVT : Nat := 0x230070
abbrev Reg.TRG_DEC_CNT : Nat := 0x230074
abbrev Reg.TRG_HELD_CNT : Nat := 0x230078
abbrev Reg.TRG_BUSY_CNT : Nat := 0x23007C
abbrev Reg.TRG_PRESC_CNT : Nat := 0x230080
abbrev Reg.TRG_LATE_PRIM_CNT : Nat := 0x230084
abbrev Reg.TRG_TRUNC_CNT : Nat := 0x230088
abbrev Reg.TRG_RING_ERR_CNT : Nat := 0x23008C
abbrev Reg.TRG_RULE_SEL : Nat := 0x230090
abbrev Reg.TRG_RULE_CNT : Nat := 0x230094
abbrev Reg.COL_CTRL : Nat := 0x200000
abbrev Reg.COL_HOT_ON : Nat := 0x200004
abbrev Reg.COL_HOT_OFF : Nat := 0x200008
abbrev Reg.COL_HOT_NUM : Nat := 0x20000C
abbrev Reg.COL_EVT : Nat := 0x200010
abbrev Reg.COL_MASK_CNT : Nat := 0x200014
abbrev Reg.COL_HOT_CNT : Nat := 0x200018
abbrev Reg.COL_LADDER_CNT : Nat := 0x20001C
abbrev Reg.COL_VAL_CNT : Nat := 0x200020
abbrev Reg.COL_PRESC_CNT : Nat := 0x200024
abbrev Reg.COL_QDIS_CNT : Nat := 0x200028
abbrev Reg.Q_FREE : Nat := 0x210000
abbrev Reg.Q_ALLOW : Nat := 0x210004
abbrev Reg.Q_CRED_OUT : Nat := 0x210008
abbrev Reg.Q_CRED_CFG : Nat := 0x21000C
abbrev Reg.Q_GEN : Nat := 0x210010
abbrev Reg.Q_FLUSH : Nat := 0x210014
abbrev Reg.Q_EVT : Nat := 0x210018
abbrev Reg.Q_STALE_CNT : Nat := 0x21001C
abbrev Reg.Q_DESC_SEL : Nat := 0x210020
abbrev Reg.Q_DESC_DEPTH : Nat := 0x210024
abbrev Reg.Q_DESC_SLICE : Nat := 0x210028
abbrev Reg.FE_RET_STS : Nat := 0x100040
abbrev Reg.FE_RET_LOST : Nat := 0x100044
abbrev Reg.FE_RET_OVW_CNT : Nat := 0x100048
abbrev Reg.FE_GFIFO_DROP_CNT : Nat := 0x10004C
abbrev Reg.FE_DP_EVT : Nat := 0x100050
abbrev Reg.HK_PQ_SEL : Nat := 0x000080
abbrev Reg.HK_PQ_STS : Nat := 0x000084
abbrev Reg.HK_PQ_POP_LO : Nat := 0x000088
abbrev Reg.HK_PQ_POP_HI : Nat := 0x00008C
abbrev Reg.HK_PQ_OVR : Nat := 0x000090
abbrev Reg.SLC_CFG : Nat := 0x220000
abbrev Reg.SLC_LATE : Nat := 0x220004
abbrev Reg.SLC_PEER_WAIT : Nat := 0x220008
abbrev Reg.SLC_EFF : Nat := 0x22000C
abbrev Reg.SLC_LAT_MAX : Nat := 0x220010
abbrev Reg.SLC_STATE : Nat := 0x220014
abbrev Reg.SLC_NEWEST : Nat := 0x220018
abbrev Reg.SLC_OLDEST : Nat := 0x22001C
abbrev Reg.SLC_LADDER_UP : Nat := 0x220020
abbrev Reg.SLC_LADDER_DOWN : Nat := 0x220024
abbrev Reg.SLC_LADDER_CFG : Nat := 0x220028
abbrev Reg.SLC_THROTTLE : Nat := 0x22002C
abbrev Reg.SLC_PRESS : Nat := 0x220030
abbrev Reg.SLC_EVT : Nat := 0x220034
abbrev Reg.SLC_LATE_CNT : Nat := 0x220038
abbrev Reg.SLC_PEER_LATE_CNT : Nat := 0x22003C
abbrev Reg.SLC_PEER_INC_CNT : Nat := 0x220040
abbrev Reg.SLC_FRAME_CNT : Nat := 0x220044
abbrev Reg.PRS_CFG : Nat := 0x240000
abbrev Reg.PRS_EVT : Nat := 0x240004
abbrev Reg.PRS_ENG_SEL : Nat := 0x240008
abbrev Reg.PRS_ENG_STS : Nat := 0x24000C
abbrev Reg.PRS_BLK_CNT : Nat := 0x240010
abbrev Reg.PRS_RAW_CNT : Nat := 0x240014
abbrev Reg.PRS_VFAIL_CNT : Nat := 0x240018
abbrev Reg.PRS_STALL_CNT : Nat := 0x24001C
abbrev Reg.PRS_IN_CNT : Nat := 0x240020
abbrev Reg.PRS_OUT_CNT : Nat := 0x240024
abbrev Reg.XPD_EVT : Nat := 0x250000
abbrev Reg.XPD_ERR_INFO : Nat := 0x250004
abbrev Reg.XPD_ERR_POS : Nat := 0x250008
abbrev Reg.XPD_ERR_SLICE : Nat := 0x25000C
abbrev Reg.XPD_ILLEGAL_CNT : Nat := 0x250010
abbrev Reg.XPD_DIST_CNT : Nat := 0x250014
abbrev Reg.XPD_LEN_CNT : Nat := 0x250018
abbrev Reg.XPD_PEER_BLK_CNT : Nat := 0x25001C
abbrev Reg.TB_STS : Nat := 0x010000
abbrev Reg.TB_INC_LO : Nat := 0x010008
abbrev Reg.TB_INC_HI : Nat := 0x01000C
abbrev Reg.TB_PTP_CFG : Nat := 0x010010
abbrev Reg.TB_GM_ID_LO : Nat := 0x010014
abbrev Reg.TB_GM_ID_HI : Nat := 0x010018
abbrev Reg.TB_SERVO : Nat := 0x01001C
abbrev Reg.TB_LOCK_THR : Nat := 0x010020
abbrev Reg.TB_SLEW_LIM : Nat := 0x010024
abbrev Reg.TB_ASYM : Nat := 0x010028
abbrev Reg.TB_OFFSET : Nat := 0x01002C
abbrev Reg.TB_PATH_DELAY : Nat := 0x010030
abbrev Reg.TB_FREQ_HOLD : Nat := 0x010034
abbrev Reg.TB_UTC_OFFSET : Nat := 0x010038
abbrev Reg.TB_EVT : Nat := 0x01003C
abbrev Reg.TB_SYNC_CNT : Nat := 0x010040
abbrev Reg.TB_DRESP_CNT : Nat := 0x010044
abbrev Reg.TB_DISCARD_CNT : Nat := 0x010048
abbrev Reg.TB_GM_MISMATCH_CNT : Nat := 0x01004C
abbrev Reg.TB_STEP_CNT : Nat := 0x010050
abbrev Reg.TB_PHJ_CNT : Nat := 0x010054
abbrev Reg.LN_CFG : Nat := 0x020000
abbrev Reg.LN_STS : Nat := 0x020004
abbrev Reg.LN_EVT : Nat := 0x020008
abbrev Reg.LN_SEL : Nat := 0x022000
abbrev Reg.LN_FOM_THR : Nat := 0x022004
abbrev Reg.LN_LAT : Nat := 0x022008
abbrev Reg.LN_PRBS_CFG : Nat := 0x02200C
abbrev Reg.LN_PRBS_STS : Nat := 0x022010
abbrev Reg.LN_PRBS_ERR : Nat := 0x022014
abbrev Reg.LN_PRBS_BITS : Nat := 0x022018
abbrev Reg.LN_PRBS_SYNC_CNT : Nat := 0x02201C
abbrev Reg.LN_PRBS_CLR : Nat := 0x022020
abbrev Reg.LN_LOS_CNT : Nat := 0x022024
abbrev Reg.LN_LOL_CNT : Nat := 0x022028
abbrev Reg.LN_BLKERR_CNT : Nat := 0x02202C
abbrev Reg.LN_RETRAIN_CNT : Nat := 0x022030
abbrev Reg.LN_FAIL_CNT : Nat := 0x022034
abbrev Reg.LK_CFG : Nat := 0x030000
abbrev Reg.LK_SC_SEL : Nat := 0x030004
abbrev Reg.LK_SC_STS : Nat := 0x030008
abbrev Reg.LK_EVT : Nat := 0x03000C
abbrev Reg.LK_SC_REQ_CNT : Nat := 0x030010
abbrev Reg.LK_SC_DUP_CNT : Nat := 0x030014
abbrev Reg.LK_SC_GAP_CNT : Nat := 0x030018
abbrev Reg.LK_SC_CRC_CNT : Nat := 0x03001C
abbrev Reg.LK_SC_NOSPACE_CNT : Nat := 0x030020
abbrev Reg.LK_FRAME_CRC_CNT : Nat := 0x030024
abbrev Reg.LK_FRAMING_CNT : Nat := 0x030028
abbrev Reg.LK_RESEND_CNT : Nat := 0x03002C
abbrev Reg.LK_MARK_IGN_CNT : Nat := 0x030030
abbrev Reg.LK_DISCARD_CNT : Nat := 0x030034
abbrev Reg.LK_FSEQ_TX : Nat := 0x030038
abbrev Reg.LK_ACKED : Nat := 0x03003C
abbrev Reg.RD_AUTH : Nat := 0x040000
abbrev Reg.RD_CFG : Nat := 0x040004
abbrev Reg.RD_CMD : Nat := 0x040008
abbrev Reg.RD_STS : Nat := 0x04000C
abbrev Reg.RD_CKPT : Nat := 0x040010
abbrev Reg.RD_LAST : Nat := 0x040014
abbrev Reg.RD_LAST_SLICE : Nat := 0x040018
abbrev Reg.RD_EVT : Nat := 0x04001C
abbrev Reg.RD_SWITCH_CNT : Nat := 0x040020
abbrev Reg.RD_SKIP_CNT : Nat := 0x040024
abbrev Reg.RD_DUP_BLK_CNT : Nat := 0x040028
abbrev Reg.RD_DIVERGE_CNT : Nat := 0x04002C
abbrev Reg.ERR_EVT : Nat := 0x280000
abbrev Reg.ERR_FATAL : Nat := 0x280004
abbrev Reg.ERR_MEM_SEL : Nat := 0x280008
abbrev Reg.ERR_MEM_CORR_CNT : Nat := 0x28000C
abbrev Reg.ERR_MEM_UNCORR_CNT : Nat := 0x280010
abbrev Reg.ERR_MEM_LAST : Nat := 0x280014
abbrev Reg.ERR_VOTE_CNT : Nat := 0x280018
abbrev Reg.ERR_SCRUB_CFG : Nat := 0x28001C
abbrev Reg.ERR_LOSS : Nat := 0x280020
abbrev Reg.ERR_REPAIR : Nat := 0x280024
abbrev Reg.ERR_ECC_TEST : Nat := 0x280028
abbrev Reg.ERR_ECC_TADDR : Nat := 0x28002C
abbrev Reg.ERR_ECC_TDATA_LO : Nat := 0x280030
abbrev Reg.ERR_ECC_TDATA_HI : Nat := 0x280034
abbrev Reg.LID_STS : Nat := 0x500000
abbrev Reg.LID_CAUSE : Nat := 0x500004
abbrev Reg.LID_EVT : Nat := 0x500008
abbrev Reg.LID_CMD : Nat := 0x50000C
abbrev Reg.LID_QEN : Nat := 0x500010
abbrev Reg.LID_IN_STS : Nat := 0x500014
abbrev Reg.LID_MON_SEL : Nat := 0x500018
abbrev Reg.LID_MON : Nat := 0x50001C
abbrev Reg.LID_TRIP_CNT : Nat := 0x500020
abbrev Reg.LID_RST_ACC_CNT : Nat := 0x500024
abbrev Reg.LID_RST_REJ_CNT : Nat := 0x500028
abbrev Reg.LID_PAR : Nat := 0x500040
abbrev Reg.AGE_CFG : Nat := 0x050000
abbrev Reg.AGE_RO_THR : Nat := 0x050004
abbrev Reg.AGE_SPAN_THR : Nat := 0x050008
abbrev Reg.AGE_FB_CFG : Nat := 0x05000C
abbrev Reg.AGE_MARGIN : Nat := 0x050010
abbrev Reg.AGE_EVT : Nat := 0x050014
abbrev Reg.AGE_RSEQ : Nat := 0x050018
abbrev Reg.AGE_VTRIM : Nat := 0x05001C
abbrev Reg.AGE_RO_SEL : Nat := 0x050020
abbrev Reg.AGE_RO : Nat := 0x050024
abbrev Reg.AGE_ACT_CNT : Nat := 0x050028
abbrev Reg.AGE_SKIP_CNT : Nat := 0x05002C
abbrev Reg.ATT_CMD : Nat := 0x060000
abbrev Reg.ATT_STS : Nat := 0x060004
abbrev Reg.ATT_EVT : Nat := 0x060008
abbrev Reg.ATT_NONCE : Nat := 0x060010
abbrev Reg.ATT_REQ_CNT : Nat := 0x060030
abbrev Reg.ATT_FAIL_CNT : Nat := 0x060034
abbrev Reg.MBX_REQ : Nat := 0x070000
abbrev Reg.MBX_STS : Nat := 0x070004
abbrev Reg.MBX_DATA : Nat := 0x070008
abbrev Reg.HK_ID : Nat := 0x000000
abbrev Reg.HK_SERIAL_LO : Nat := 0x000004
abbrev Reg.HK_SERIAL_HI : Nat := 0x000008
abbrev Reg.HK_XO_STS : Nat := 0x00000C
abbrev Reg.HK_RUN_CNT : Nat := 0x000024
abbrev Reg.HK_SAFE_CNT : Nat := 0x000028
abbrev Reg.HK_MODE_REJ_CNT : Nat := 0x00002C
abbrev Reg.HK_MODE_TIME : Nat := 0x000030
abbrev Reg.HK_RST_STS : Nat := 0x000034
abbrev Reg.HK_LOAD_STEP : Nat := 0x000038
abbrev Reg.HK_SELFTEST : Nat := 0x00003C
abbrev Reg.HK_UPTIME : Nat := 0x00005C
abbrev Reg.HK_SCRATCH : Nat := 0x000060
abbrev Reg.HK_PWR_STS : Nat := 0x000070
abbrev Reg.HK_PWR_EVT : Nat := 0x000074
abbrev Reg.HK_TEMP_THR : Nat := 0x000078
abbrev Reg.HK_LOAD_TIME : Nat := 0x00007C
abbrev Reg.HK_IDCODE : Nat := 0x0000A0
abbrev Reg.HK_TEMP : Nat := 0x0000C0
abbrev Reg.HK_VIN : Nat := 0x0000E0
abbrev Reg.HK_IIN : Nat := 0x0000E4
abbrev Reg.HK_PIN : Nat := 0x0000E8
abbrev Reg.HK_VMON : Nat := 0x0000F0
abbrev Reg.LK_SC_E : Nat := 0x030040
abbrev Reg.LK_SET_UP : Nat := 0x030044
abbrev Reg.LK_REPLAY_FILL : Nat := 0x030048
abbrev Reg.LK_REPLAY_PEAK : Nat := 0x03004C
abbrev Reg.LK_REPLAY_OLDEST : Nat := 0x030050
abbrev Reg.LK_RESEND_LAST : Nat := 0x030054
abbrev Reg.LK_MARK_LAST : Nat := 0x030058
abbrev Reg.LK_MARK_SLICE : Nat := 0x03005C
abbrev Reg.LK_GEN_RX : Nat := 0x030060
abbrev Reg.LK_CR_CUM : Nat := 0x030064
abbrev Reg.LK_ALLOW : Nat := 0x030068
abbrev Reg.LK_RX_FSEQ : Nat := 0x03006C
abbrev Reg.LK_ACK_TMO_CNT : Nat := 0x030088
abbrev Reg.LK_LANE_TX_FRAMES : Nat := 0x03008C
abbrev Reg.LK_LANE_RX_FRAMES : Nat := 0x030090
abbrev Reg.LK_LANE_TX_UNITS : Nat := 0x030094
abbrev Reg.LK_LANE_RX_UNITS : Nat := 0x030098
abbrev Reg.LK_LANE_ERR : Nat := 0x03009C
abbrev Reg.RD_CKPT_SIZE : Nat := 0x040030
abbrev Reg.RD_CKPT_TIME : Nat := 0x040034
abbrev Reg.RD_BM : Nat := 0x040038
abbrev Reg.RD_NRET : Nat := 0x04003C
abbrev Reg.RD_TCU : Nat := 0x040040
abbrev Reg.RD_HB_AGE : Nat := 0x040044
abbrev Reg.RD_CAUSE_CNT : Nat := 0x040048
abbrev Reg.RD_REJOIN_CNT : Nat := 0x04005C
abbrev Reg.RD_REJOIN_FAIL_CNT : Nat := 0x040060
abbrev Reg.RD_YIELD_CNT : Nat := 0x040064
abbrev Reg.RD_REJOIN_STEP : Nat := 0x040068
abbrev Reg.RD_MIRROR_CNT : Nat := 0x04006C
abbrev Reg.RD_PEER_SEL : Nat := 0x040070
abbrev Reg.RD_PEER_PTR : Nat := 0x040074
abbrev Reg.RD_LAST_SEC : Nat := 0x040078
abbrev Reg.RD_LAST_NS : Nat := 0x04007C
abbrev Reg.LID_ROM_ID : Nat := 0x50002C
abbrev Reg.LID_CRC_P : Nat := 0x500030
abbrev Reg.LID_CRC_H : Nat := 0x500034
abbrev Reg.LID_RST_LAST : Nat := 0x500038
abbrev Reg.LID_V24 : Nat := 0x50003C

/-- Register rows of the hub die, part 0. -/
def regRowsHbd0 : List RegRow :=
  [ ⟨0x000000, 4, 1, [⟨31, 0, .ro, 0⟩]⟩,
    ⟨0x000004, 4, 2, [⟨31, 0, .ro, 0⟩]⟩,
    ⟨0x00000C, 4, 1, [⟨2, 2, .ro, 0⟩, ⟨1, 1, .ro, 0⟩, ⟨0, 0, .ro, 0⟩]⟩,
    ⟨0x000010, 4, 1, [⟨23, 20, .ro, 0⟩, ⟨16, 16, .ro, 0⟩, ⟨15, 8, .ro, 0⟩, ⟨7, 4, .ro, 0⟩, ⟨3, 0, .ro, 0⟩]⟩,
    ⟨0x000014, 4, 1, [⟨3, 0, .cmd, 0⟩]⟩,
    ⟨0x000018, 4, 1, [⟨0, 0, .cfg, 0⟩]⟩,
    ⟨0x00001C, 4, 1, [⟨31, 24, .ro, 0⟩, ⟨5, 5, .sts, 0⟩, ⟨4, 4, .sts, 0⟩, ⟨3, 3, .sts, 0⟩, ⟨2, 2, .sts, 0⟩, ⟨1, 1, .sts, 0⟩, ⟨0, 0, .sts, 0⟩]⟩,
    ⟨0x000020, 4, 1, [⟨15, 0, .cnt, 0⟩]⟩,
    ⟨0x000024, 4, 3, [⟨31, 0, .cnt, 0⟩]⟩,
    ⟨0x000030, 4, 1, [⟨31, 0, .ro, 0⟩]⟩,
    ⟨0x000034, 4, 1, [⟨31, 31, .ro, 0⟩, ⟨23, 0, .ro, 0⟩]⟩,
    ⟨0x000038, 4, 1, [⟨8, 8, .ro, 0⟩, ⟨7, 4, .ro, 0⟩, ⟨3, 0, .ro, 0⟩]⟩,
    ⟨0x00003C, 4, 1, [⟨9, 8, .ro, 0⟩, ⟨3, 0, .ro, 0⟩]⟩,
    ⟨0x000040, 4, 1, [⟨31, 24, .ro, 0⟩, ⟨23, 16, .ro, 0⟩, ⟨15, 12, .ro, 0⟩, ⟨10, 10, .ro, 0⟩, ⟨9, 9, .ro, 0⟩, ⟨8, 8, .ro, 0⟩, ⟨7, 7, .ro, 0⟩, ⟨6, 6, .ro, 0⟩, ⟨5, 4, .ro, 0⟩, ⟨2, 0, .ro, 0⟩]⟩,
    ⟨0x000044, 4, 1, [⟨31, 0, .ro, 0⟩]⟩,
    ⟨0x000048, 4, 1, [⟨5, 0, .cfg, 0⟩]⟩,
    ⟨0x00004C, 4, 1, [⟨8, 8, .cfg, 0⟩, ⟨3, 0, .cmd, 0⟩]⟩,
    ⟨0x000050, 4, 1, [⟨12, 8, .ro, 0x1f⟩, ⟨7, 4, .ro, 0⟩, ⟨1, 1, .ro, 0⟩, ⟨0, 0, .ro, 0⟩]⟩,
    ⟨0x000054, 4, 1, [⟨31, 24, .ro, 0⟩, ⟨3, 3, .sts, 0⟩, ⟨2, 2, .sts, 0⟩, ⟨1, 1, .sts, 0⟩, ⟨0, 0, .sts, 0⟩]⟩,
    ⟨0x000058, 4, 1, [⟨15, 0, .cnt, 0⟩]⟩ ]

/-- Register rows of the hub die, part 1. -/
def regRowsHbd1 : List RegRow :=
  [ ⟨0x00005C, 4, 1, [⟨31, 0, .ro, 0⟩]⟩,
    ⟨0x000060, 4, 4, [⟨31, 0, .cfg, 0⟩]⟩,
    ⟨0x000070, 4, 1, [⟨8, 8, .ro, 0⟩, ⟨3, 0, .ro, 0⟩]⟩,
    ⟨0x000074, 4, 1, [⟨31, 24, .ro, 0⟩, ⟨3, 3, .sts, 0⟩, ⟨2, 2, .sts, 0⟩, ⟨1, 1, .sts, 0⟩, ⟨0, 0, .sts, 0⟩]⟩,
    ⟨0x000078, 4, 1, [⟨15, 0, .cfg, 0x4b0⟩]⟩,
    ⟨0x00007C, 4, 1, [⟨31, 0, .ro, 0⟩]⟩,
    ⟨0x000080, 4, 1, [⟨3, 0, .cfg, 9⟩]⟩,
    ⟨0x000084, 4, 1, [⟨7, 7, .ro, 0⟩, ⟨6, 0, .ro, 0⟩]⟩,
    ⟨0x000088, 4, 2, [⟨31, 0, .ro, 0⟩]⟩,
    ⟨0x000090, 4, 1, [⟨31, 24, .ro, 0⟩, ⟨15, 0, .sts, 0⟩]⟩,
    ⟨0x0000A0, 4, 6, [⟨31, 0, .ro, 0⟩]⟩,
    ⟨0x0000C0, 4, 6, [⟨15, 0, .ro, 0x8000⟩]⟩,
    ⟨0x0000E0, 4, 3, [⟨15, 0, .ro, 0⟩]⟩,
    ⟨0x0000F0, 4, 4, [⟨15, 0, .ro, 0⟩]⟩,
    ⟨0x010000, 4, 1, [⟨8, 8, .ro, 0⟩, ⟨7, 7, .ro, 0⟩, ⟨6, 6, .ro, 0⟩, ⟨5, 5, .ro, 0⟩, ⟨4, 4, .ro, 0⟩, ⟨3, 3, .ro, 1⟩, ⟨1, 0, .ro, 0⟩]⟩,
    ⟨0x010008, 4, 1, [⟨31, 0, .cfg, 0x20000000⟩]⟩,
    ⟨0x01000C, 4, 1, [⟨7, 0, .cfg, 3⟩]⟩,
    ⟨0x010010, 4, 1, [⟨31, 24, .cfg, 0⟩, ⟨23, 20, .cfg, 3⟩, ⟨15, 8, .cfg, 0xf9⟩]⟩,
    ⟨0x010014, 4, 2, [⟨31, 0, .cfg, 0⟩]⟩,
    ⟨0x01001C, 4, 1, [⟨19, 4, .cfg, 0x40⟩, ⟨2, 0, .cfg, 3⟩]⟩ ]

/-- Register rows of the hub die, part 2. -/
def regRowsHbd2 : List RegRow :=
  [ ⟨0x010020, 4, 1, [⟨31, 16, .cfg, 0xa3d⟩, ⟨15, 0, .cfg, 0x28f⟩]⟩,
    ⟨0x010024, 4, 1, [⟨31, 0, .cfg, 0x10000⟩]⟩,
    ⟨0x010028, 4, 1, [⟨31, 0, .cfg, 0⟩]⟩,
    ⟨0x01002C, 4, 2, [⟨31, 0, .ro, 0⟩]⟩,
    ⟨0x010034, 4, 1, [⟨31, 0, .ro, 0⟩]⟩,
    ⟨0x010038, 4, 1, [⟨16, 16, .ro, 0⟩, ⟨15, 0, .ro, 0⟩]⟩,
    ⟨0x01003C, 4, 1, [⟨31, 24, .ro, 0⟩, ⟨4, 4, .sts, 0⟩, ⟨3, 3, .sts, 0⟩, ⟨2, 2, .sts, 0⟩, ⟨1, 1, .sts, 0⟩, ⟨0, 0, .sts, 0⟩]⟩,
    ⟨0x010040, 4, 6, [⟨31, 0, .cnt, 0⟩]⟩,
    ⟨0x020000, 256, 32, [⟨31, 30, .lock, 0⟩, ⟨29, 28, .lock, 0⟩, ⟨26, 24, .lock, 0⟩, ⟨23, 20, .cfg, 8⟩, ⟨19, 19, .cfg, 1⟩, ⟨2, 2, .cfg, 0⟩, ⟨1, 1, .cfg, 0⟩, ⟨0, 0, .cmd, 0⟩]⟩,
    ⟨0x020004, 256, 32, [⟨31, 29, .ro, 0⟩, ⟨28, 28, .ro, 0⟩, ⟨27, 27, .ro, 0⟩, ⟨26, 26, .ro, 0⟩, ⟨25, 25, .ro, 0⟩, ⟨24, 23, .ro, 0⟩, ⟨22, 19, .ro, 0⟩, ⟨16, 10, .ro, 0⟩, ⟨9, 3, .ro, 0⟩]⟩,
    ⟨0x020008, 256, 32, [⟨31, 24, .ro, 0⟩, ⟨6, 6, .sts, 0⟩, ⟨5, 5, .sts, 0⟩, ⟨4, 4, .sts, 0⟩, ⟨3, 3, .sts, 0⟩, ⟨2, 2, .sts, 0⟩, ⟨1, 1, .sts, 0⟩, ⟨0, 0, .sts, 0⟩]⟩,
    ⟨0x022000, 4, 1, [⟨4, 0, .cfg, 0⟩]⟩,
    ⟨0x022004, 4, 1, [⟨22, 16, .cfg, 0xc⟩, ⟨14, 8, .cfg, 0x18⟩, ⟨6, 0, .cfg, 0x28⟩]⟩,
    ⟨0x022008, 4, 1, [⟨31, 16, .ro, 0⟩, ⟨15, 0, .ro, 0⟩]⟩,
    ⟨0x02200C, 4, 1, [⟨18, 16, .cfg, 0⟩, ⟨14, 12, .cfg, 0⟩, ⟨8, 8, .cfg, 0⟩, ⟨7, 4, .cfg, 0⟩, ⟨0, 0, .cmd, 0⟩]⟩,
    ⟨0x022010, 4, 1, [⟨0, 0, .ro, 0⟩]⟩,
    ⟨0x022014, 4, 3, [⟨31, 0, .cnt, 0⟩]⟩,
    ⟨0x022020, 4, 1, [⟨0, 0, .cmd, 0⟩]⟩,
    ⟨0x022024, 4, 5, [⟨31, 0, .cnt, 0⟩]⟩,
    ⟨0x030000, 4, 1, [⟨31, 16, .cfg, 0xfa⟩, ⟨1, 1, .cfg, 0⟩, ⟨0, 0, .cfg, 1⟩]⟩ ]

/-- Register rows of the hub die, part 3. -/
def regRowsHbd3 : List RegRow :=
  [ ⟨0x030004, 4, 1, [⟨4, 0, .cfg, 0⟩]⟩,
    ⟨0x030008, 4, 1, [⟨31, 31, .ro, 0⟩, ⟨21, 16, .ro, 0⟩, ⟨15, 0, .ro, 0⟩]⟩,
    ⟨0x03000C, 4, 1, [⟨31, 24, .ro, 0⟩, ⟨6, 6, .sts, 0⟩, ⟨5, 5, .sts, 0⟩, ⟨4, 4, .sts, 0⟩, ⟨3, 3, .sts, 0⟩, ⟨2, 2, .sts, 0⟩, ⟨1, 1, .sts, 0⟩, ⟨0, 0, .sts, 0⟩]⟩,
    ⟨0x030010, 4, 10, [⟨31, 0, .cnt, 0⟩]⟩,
    ⟨0x030038, 4, 1, [⟨31, 0, .ro, 0⟩]⟩,
    ⟨0x03003C, 4, 1, [⟨31, 0, .ro, 0⟩]⟩,
    ⟨0x030040, 4, 1, [⟨31, 0, .ro, 0⟩]⟩,
    ⟨0x030044, 4, 1, [⟨31, 0, .ro, 0⟩]⟩,
    ⟨0x030048, 4, 2, [⟨23, 0, .ro, 0⟩]⟩,
    ⟨0x030050, 4, 2, [⟨31, 0, .ro, 0⟩]⟩,
    ⟨0x030058, 4, 1, [⟨31, 28, .ro, 0⟩, ⟨27, 24, .ro, 0⟩, ⟨23, 8, .ro, 0⟩, ⟨0, 0, .ro, 0⟩]⟩,
    ⟨0x03005C, 4, 1, [⟨31, 0, .ro, 0⟩]⟩,
    ⟨0x030060, 4, 1, [⟨7, 0, .ro, 0⟩]⟩,
    ⟨0x030064, 4, 2, [⟨23, 0, .ro, 0⟩]⟩,
    ⟨0x03006C, 4, 7, [⟨31, 0, .ro, 0⟩]⟩,
    ⟨0x030088, 4, 1, [⟨31, 0, .cnt, 0⟩]⟩,
    ⟨0x03008C, 4, 5, [⟨31, 0, .cnt, 0⟩]⟩,
    ⟨0x040000, 4, 1, [⟨15, 8, .ro, 0⟩, ⟨0, 0, .ro, 0⟩]⟩,
    ⟨0x040004, 4, 1, [⟨11, 8, .cfg, 2⟩, ⟨2, 2, .cfg, 1⟩, ⟨1, 1, .cfg, 0⟩, ⟨0, 0, .cfg, 1⟩]⟩,
    ⟨0x040008, 4, 1, [⟨1, 1, .cmd, 0⟩, ⟨0, 0, .cmd, 0⟩]⟩ ]

/-- Register rows of the hub die, part 4. -/
def regRowsHbd4 : List RegRow :=
  [ ⟨0x04000C, 4, 1, [⟨23, 20, .ro, 0⟩, ⟨19, 16, .ro, 0⟩, ⟨10, 8, .ro, 0⟩, ⟨2, 0, .ro, 0⟩]⟩,
    ⟨0x040010, 4, 1, [⟨31, 0, .ro, 0⟩]⟩,
    ⟨0x040014, 4, 1, [⟨31, 16, .ro, 0⟩, ⟨15, 8, .ro, 0⟩, ⟨7, 7, .ro, 0⟩, ⟨3, 0, .ro, 0⟩]⟩,
    ⟨0x040018, 4, 1, [⟨31, 0, .ro, 0⟩]⟩,
    ⟨0x04001C, 4, 1, [⟨31, 24, .ro, 0⟩, ⟨6, 6, .sts, 0⟩, ⟨5, 5, .sts, 0⟩, ⟨4, 4, .sts, 0⟩, ⟨3, 3, .sts, 0⟩, ⟨2, 2, .sts, 0⟩, ⟨1, 1, .sts, 0⟩, ⟨0, 0, .sts, 0⟩]⟩,
    ⟨0x040020, 4, 4, [⟨31, 0, .cnt, 0⟩]⟩,
    ⟨0x040030, 4, 1, [⟨19, 0, .ro, 0⟩]⟩,
    ⟨0x040034, 4, 1, [⟨31, 16, .ro, 0⟩, ⟨15, 0, .ro, 0⟩]⟩,
    ⟨0x040038, 4, 1, [⟨31, 31, .ro, 0⟩, ⟨15, 0, .ro, 0⟩]⟩,
    ⟨0x04003C, 4, 2, [⟨23, 0, .ro, 0⟩]⟩,
    ⟨0x040044, 4, 1, [⟨31, 16, .ro, 0xffff⟩, ⟨15, 0, .ro, 0xffff⟩]⟩,
    ⟨0x040048, 4, 5, [⟨31, 0, .cnt, 0⟩]⟩,
    ⟨0x04005C, 4, 3, [⟨31, 0, .cnt, 0⟩]⟩,
    ⟨0x040068, 4, 1, [⟨8, 8, .ro, 0⟩, ⟨2, 0, .ro, 0⟩]⟩,
    ⟨0x04006C, 4, 1, [⟨31, 0, .cnt, 0⟩]⟩,
    ⟨0x040070, 4, 1, [⟨2, 0, .cfg, 1⟩]⟩,
    ⟨0x040074, 4, 1, [⟨31, 0, .ro, 0⟩]⟩,
    ⟨0x040078, 4, 2, [⟨31, 0, .ro, 0⟩]⟩,
    ⟨0x050000, 4, 1, [⟨4, 0, .cfg, 0x1f⟩]⟩,
    ⟨0x050004, 4, 1, [⟨15, 8, .cfg, 0x71⟩, ⟨7, 0, .cfg, 0x57⟩]⟩ ]

/-- Register rows of the hub die, part 5. -/
def regRowsHbd5 : List RegRow :=
  [ ⟨0x050008, 4, 1, [⟨26, 16, .cfg, 0x564⟩, ⟨10, 0, .cfg, 0x4ce⟩]⟩,
    ⟨0x05000C, 4, 1, [⟨31, 16, .cfg, 0xe10⟩, ⟨7, 0, .cfg, 0x18⟩]⟩,
    ⟨0x050010, 4, 1, [⟨8, 8, .ro, 0⟩, ⟨4, 0, .ro, 0⟩]⟩,
    ⟨0x050014, 4, 1, [⟨31, 24, .ro, 0⟩, ⟨6, 6, .sts, 0⟩, ⟨5, 5, .sts, 0⟩, ⟨4, 4, .sts, 0⟩, ⟨3, 3, .sts, 0⟩, ⟨2, 2, .sts, 0⟩, ⟨1, 1, .sts, 0⟩, ⟨0, 0, .sts, 0⟩]⟩,
    ⟨0x050018, 4, 1, [⟨31, 0, .ro, 0⟩]⟩,
    ⟨0x05001C, 4, 1, [⟨15, 0, .ro, 0⟩]⟩,
    ⟨0x050020, 4, 1, [⟨5, 0, .cfg, 0⟩]⟩,
    ⟨0x050024, 4, 1, [⟨31, 16, .ro, 0⟩, ⟨15, 0, .ro, 0⟩]⟩,
    ⟨0x050028, 4, 2, [⟨31, 0, .cnt, 0⟩]⟩,
    ⟨0x060000, 4, 1, [⟨0, 0, .cmd, 0⟩]⟩,
    ⟨0x060004, 4, 1, [⟨31, 16, .ro, 0⟩, ⟨2, 2, .ro, 0⟩, ⟨1, 1, .ro, 0⟩, ⟨0, 0, .ro, 0⟩]⟩,
    ⟨0x060008, 4, 1, [⟨31, 24, .ro, 0⟩, ⟨1, 1, .sts, 0⟩, ⟨0, 0, .sts, 0⟩]⟩,
    ⟨0x060010, 4, 8, [⟨31, 0, .cfg, 0⟩]⟩,
    ⟨0x060030, 4, 2, [⟨31, 0, .cnt, 0⟩]⟩,
    ⟨0x070000, 4, 1, [⟨23, 8, .mbx, 0⟩, ⟨7, 0, .mbx, 0⟩]⟩,
    ⟨0x070004, 4, 1, [⟨31, 24, .ro, 0⟩, ⟨23, 16, .ro, 0⟩, ⟨12, 8, .ro, 0⟩, ⟨7, 4, .ro, 0⟩, ⟨0, 0, .ro, 0⟩]⟩,
    ⟨0x070008, 4, 6, [⟨31, 0, .mbx, 0⟩]⟩ ]

/-- Register rows of the front-end die, part 0. -/
def regRowsFed0 : List RegRow :=
  [ ⟨0x100000, 4, 1, [⟨1, 0, .cfg, 0⟩]⟩,
    ⟨0x100004, 4, 1, [⟨31, 0, .cfg, 0xffffffff⟩]⟩,
    ⟨0x100008, 4, 1, [⟨31, 0, .cfg, 0xffffffff⟩]⟩,
    ⟨0x100010, 4, 1, [⟨25, 16, .cfg, 0⟩, ⟨13, 8, .cfg, 0⟩, ⟨2, 2, .cfg, 0⟩, ⟨1, 1, .cmd, 0⟩, ⟨0, 0, .cmd, 0⟩]⟩,
    ⟨0x100014, 4, 1, [⟨31, 16, .cfg, 0⟩, ⟨15, 0, .cfg, 0x40⟩]⟩,
    ⟨0x100020, 4, 1, [⟨31, 24, .ro, 0⟩, ⟨9, 0, .cfg, 0x64⟩]⟩,
    ⟨0x100024, 4, 1, [⟨11, 0, .cfg, 0⟩]⟩,
    ⟨0x100028, 4, 1, [⟨31, 24, .ro, 0⟩, ⟨23, 0, .ro, 0⟩]⟩,
    ⟨0x100030, 4, 1, [⟨2, 2, .ro, 0⟩, ⟨1, 0, .ro, 0⟩]⟩,
    ⟨0x100034, 4, 1, [⟨31, 24, .ro, 0⟩, ⟨1, 1, .sts, 0⟩, ⟨0, 0, .sts, 0⟩]⟩,
    ⟨0x100040, 4, 1, [⟨31, 31, .ro, 0⟩, ⟨19, 0, .ro, 0⟩]⟩,
    ⟨0x100044, 4, 1, [⟨31, 0, .ro, 0⟩]⟩,
    ⟨0x100048, 4, 2, [⟨31, 0, .cnt, 0⟩]⟩,
    ⟨0x100050, 4, 1, [⟨31, 24, .ro, 0⟩, ⟨1, 1, .sts, 0⟩, ⟨0, 0, .sts, 0⟩]⟩,
    ⟨0x110000, 4, 1, [⟨2, 2, .cfg, 0⟩, ⟨0, 0, .lock, 0⟩]⟩,
    ⟨0x110010, 4, 4, [⟨31, 0, .cfg, 0x55555555⟩]⟩,
    ⟨0x110020, 4, 4, [⟨31, 0, .ro, 0x55555555⟩]⟩,
    ⟨0x110040, 4, 1, [⟨3, 0, .cmd, 0⟩]⟩,
    ⟨0x110044, 4, 2, [⟨31, 0, .cfg, 0xffffffff⟩]⟩,
    ⟨0x11004C, 4, 1, [⟨28, 16, .ro, 0⟩, ⟨12, 0, .ro, 0⟩]⟩ ]

/-- Register rows of the front-end die, part 1. -/
def regRowsFed1 : List RegRow :=
  [ ⟨0x110050, 4, 1, [⟨31, 31, .cfg, 0⟩, ⟨24, 24, .cfg, 0⟩, ⟨23, 12, .cfg, 0⟩, ⟨10, 0, .cfg, 0⟩]⟩,
    ⟨0x110054, 4, 1, [⟨15, 0, .cfg, 0⟩]⟩,
    ⟨0x110058, 4, 1, [⟨31, 31, .ro, 0⟩, ⟨30, 28, .ro, 0⟩, ⟨27, 26, .ro, 0⟩, ⟨25, 24, .ro, 0⟩, ⟨10, 0, .ro, 0⟩]⟩,
    ⟨0x110060, 4, 1, [⟨1, 1, .cmd, 0⟩, ⟨0, 0, .cfg, 0⟩]⟩,
    ⟨0x110064, 4, 1, [⟨31, 16, .ro, 0⟩, ⟨15, 0, .ro, 0⟩]⟩,
    ⟨0x110070, 4, 1, [⟨31, 24, .ro, 0⟩, ⟨4, 4, .sts, 0⟩, ⟨3, 3, .sts, 0⟩, ⟨2, 2, .sts, 0⟩, ⟨1, 1, .sts, 0⟩, ⟨0, 0, .sts, 0⟩]⟩,
    ⟨0x110074, 4, 1, [⟨31, 0, .cnt, 0⟩]⟩,
    ⟨0x110078, 4, 1, [⟨31, 0, .cnt, 0⟩]⟩,
    ⟨0x120000, 4, 1, [⟨14, 8, .cfg, 0x29⟩, ⟨6, 4, .cfg, 2⟩, ⟨1, 1, .cfg, 0⟩, ⟨0, 0, .cfg, 0⟩]⟩,
    ⟨0x120004, 4, 1, [⟨10, 0, .cfg, 0x1e0⟩]⟩,
    ⟨0x120008, 4, 1, [⟨26, 16, .ro, 0x1e0⟩, ⟨14, 8, .ro, 0x29⟩, ⟨6, 4, .ro, 2⟩]⟩,
    ⟨0x120010, 4, 1, [⟨11, 0, .cfg, 0⟩]⟩,
    ⟨0x120014, 4, 1, [⟨11, 0, .ro, 0⟩]⟩,
    ⟨0x120020, 4, 1, [⟨31, 24, .ro, 0⟩, ⟨4, 4, .sts, 0⟩, ⟨3, 3, .sts, 0⟩, ⟨2, 2, .sts, 0⟩, ⟨1, 1, .sts, 0⟩, ⟨0, 0, .sts, 0⟩]⟩,
    ⟨0x120024, 4, 5, [⟨31, 0, .cnt, 0⟩]⟩ ]

/-- Register rows of the concentrators and the ERR block, part 0. -/
def regRowsCd0 : List RegRow :=
  [ ⟨0x200000, 4, 1, [⟨1, 1, .cfg, 0⟩, ⟨0, 0, .cfg, 0⟩]⟩,
    ⟨0x200004, 4, 2, [⟨23, 0, .cfg, 0⟩]⟩,
    ⟨0x20000C, 4, 1, [⟨12, 0, .ro, 0⟩]⟩,
    ⟨0x200010, 4, 1, [⟨31, 24, .ro, 0⟩, ⟨2, 2, .sts, 0⟩, ⟨1, 1, .sts, 0⟩, ⟨0, 0, .sts, 0⟩]⟩,
    ⟨0x200014, 4, 6, [⟨31, 0, .cnt, 0⟩]⟩,
    ⟨0x210000, 4, 1, [⟨17, 0, .ro, 0x20000⟩]⟩,
    ⟨0x210004, 4, 1, [⟨15, 0, .ro, 0⟩]⟩,
    ⟨0x210008, 4, 1, [⟨17, 0, .ro, 0⟩]⟩,
    ⟨0x21000C, 4, 1, [⟨27, 16, .cfg, 0x100⟩, ⟨4, 0, .cfg, 0x10⟩]⟩,
    ⟨0x210010, 4, 1, [⟨7, 0, .ro, 0⟩]⟩,
    ⟨0x210014, 4, 1, [⟨31, 16, .cfg, 0⟩, ⟨0, 0, .cmd, 0⟩]⟩,
    ⟨0x210018, 4, 1, [⟨31, 24, .ro, 0⟩, ⟨1, 1, .sts, 0⟩, ⟨0, 0, .sts, 0⟩]⟩,
    ⟨0x21001C, 4, 1, [⟨31, 0, .cnt, 0⟩]⟩,
    ⟨0x210020, 4, 1, [⟨14, 0, .cfg, 0⟩]⟩,
    ⟨0x210024, 4, 1, [⟨22, 0, .ro, 0⟩]⟩,
    ⟨0x210028, 4, 1, [⟨31, 0, .ro, 0⟩]⟩,
    ⟨0x220000, 4, 1, [⟨9, 8, .cfg, 0⟩, ⟨2, 0, .cfg, 3⟩]⟩,
    ⟨0x220004, 4, 1, [⟨14, 0, .cfg, 0xa00⟩]⟩,
    ⟨0x220008, 4, 1, [⟨12, 0, .cfg, 0x1e00⟩]⟩,
    ⟨0x22000C, 4, 1, [⟨28, 16, .ro, 0x1e00⟩, ⟨14, 0, .ro, 0xa00⟩]⟩ ]

/-- Register rows of the concentrators and the ERR block, part 1. -/
def regRowsCd1 : List RegRow :=
  [ ⟨0x220010, 4, 1, [⟨31, 16, .ro, 0x4dc⟩, ⟨15, 0, .ro, 0x2e8⟩]⟩,
    ⟨0x220014, 4, 1, [⟨31, 25, .ro, 0⟩, ⟨24, 22, .ro, 0⟩, ⟨21, 19, .ro, 0⟩, ⟨18, 16, .ro, 0⟩, ⟨15, 8, .ro, 0⟩, ⟨7, 0, .ro, 0⟩]⟩,
    ⟨0x220018, 4, 2, [⟨31, 0, .ro, 0⟩]⟩,
    ⟨0x220020, 4, 1, [⟨31, 24, .cfg, 0xec⟩, ⟨23, 16, .cfg, 0xd8⟩, ⟨15, 8, .cfg, 0xc0⟩, ⟨7, 0, .cfg, 0xa0⟩]⟩,
    ⟨0x220024, 4, 1, [⟨31, 24, .cfg, 0xd8⟩, ⟨23, 16, .cfg, 0xc0⟩, ⟨15, 8, .cfg, 0xa0⟩, ⟨7, 0, .cfg, 0x80⟩]⟩,
    ⟨0x220028, 4, 1, [⟨31, 24, .cfg, 0x10⟩, ⟨6, 4, .cfg, 4⟩, ⟨2, 0, .cfg, 7⟩]⟩,
    ⟨0x22002C, 4, 1, [⟨6, 4, .cfg, 0⟩, ⟨2, 0, .cfg, 0⟩]⟩,
    ⟨0x220030, 4, 1, [⟨23, 16, .ro, 0⟩, ⟨15, 8, .ro, 0⟩, ⟨7, 0, .ro, 0⟩]⟩,
    ⟨0x220034, 4, 1, [⟨31, 24, .ro, 0⟩, ⟨5, 5, .sts, 0⟩, ⟨4, 4, .sts, 0⟩, ⟨3, 3, .sts, 0⟩, ⟨2, 2, .sts, 0⟩, ⟨1, 1, .sts, 0⟩, ⟨0, 0, .sts, 0⟩]⟩,
    ⟨0x220038, 4, 4, [⟨31, 0, .cnt, 0⟩]⟩,
    ⟨0x230000, 4, 1, [⟨1, 1, .cfg, 0⟩, ⟨0, 0, .cfg, 0⟩]⟩,
    ⟨0x230004, 4, 1, [⟨9, 0, .cfg, 0xa0⟩]⟩,
    ⟨0x230008, 4, 1, [⟨26, 16, .cfg, 0x40⟩, ⟨10, 0, .cfg, 0x40⟩]⟩,
    ⟨0x23000C, 4, 1, [⟨27, 16, .cfg, 0⟩, ⟨11, 0, .cfg, 0⟩]⟩,
    ⟨0x230010, 4, 1, [⟨6, 0, .cfg, 8⟩]⟩,
    ⟨0x230020, 4, 4, [⟨27, 16, .cfg, 0xfff⟩, ⟨11, 0, .cfg, 0⟩]⟩,
    ⟨0x230030, 4, 4, [⟨31, 24, .cfg, 0xfe⟩, ⟨23, 16, .cfg, 0⟩]⟩,
    ⟨0x230040, 4, 4, [⟨31, 31, .cfg, 0⟩, ⟨19, 0, .cfg, 0x40⟩]⟩,
    ⟨0x230050, 4, 2, [⟨31, 0, .cfg, 0⟩]⟩,
    ⟨0x230058, 4, 2, [⟨31, 0, .cfg, 0⟩]⟩ ]

/-- Register rows of the concentrators and the ERR block, part 2. -/
def regRowsCd2 : List RegRow :=
  [ ⟨0x230060, 4, 1, [⟨31, 16, .ro, 0⟩, ⟨11, 0, .ro, 0⟩]⟩,
    ⟨0x230064, 4, 1, [⟨31, 31, .ro, 0⟩, ⟨30, 30, .ro, 0⟩, ⟨23, 12, .ro, 0⟩, ⟨11, 0, .ro, 0⟩]⟩,
    ⟨0x230068, 4, 1, [⟨0, 0, .cmd, 0⟩]⟩,
    ⟨0x230070, 4, 1, [⟨31, 24, .ro, 0⟩, ⟨4, 4, .sts, 0⟩, ⟨3, 3, .sts, 0⟩, ⟨2, 2, .sts, 0⟩, ⟨1, 1, .sts, 0⟩, ⟨0, 0, .sts, 0⟩]⟩,
    ⟨0x230074, 4, 7, [⟨31, 0, .cnt, 0⟩]⟩,
    ⟨0x230090, 4, 1, [⟨5, 0, .cfg, 0⟩]⟩,
    ⟨0x230094, 4, 1, [⟨31, 0, .ro, 0⟩]⟩,
    ⟨0x240000, 4, 1, [⟨23, 16, .cfg, 0x20⟩, ⟨11, 8, .cfg, 3⟩, ⟨0, 0, .cfg, 0⟩]⟩,
    ⟨0x240004, 4, 1, [⟨31, 24, .ro, 0⟩, ⟨2, 2, .sts, 0⟩, ⟨1, 1, .sts, 0⟩, ⟨0, 0, .sts, 0⟩]⟩,
    ⟨0x240008, 4, 1, [⟨2, 0, .cfg, 0⟩]⟩,
    ⟨0x24000C, 4, 1, [⟨31, 28, .ro, 0⟩, ⟨27, 15, .ro, 0⟩, ⟨9, 0, .ro, 0⟩]⟩,
    ⟨0x240010, 4, 6, [⟨31, 0, .cnt, 0⟩]⟩,
    ⟨0x250000, 4, 1, [⟨31, 24, .ro, 0⟩, ⟨3, 3, .sts, 0⟩, ⟨2, 2, .sts, 0⟩, ⟨1, 1, .sts, 0⟩, ⟨0, 0, .sts, 0⟩]⟩,
    ⟨0x250004, 4, 1, [⟨31, 24, .ro, 0⟩, ⟨23, 22, .ro, 0⟩, ⟨21, 21, .ro, 0⟩, ⟨20, 18, .ro, 0⟩, ⟨17, 15, .ro, 0⟩, ⟨4, 0, .ro, 0⟩]⟩,
    ⟨0x250008, 4, 1, [⟨31, 16, .ro, 0⟩, ⟨15, 0, .ro, 0⟩]⟩,
    ⟨0x25000C, 4, 1, [⟨31, 0, .ro, 0⟩]⟩,
    ⟨0x250010, 4, 4, [⟨31, 0, .cnt, 0⟩]⟩,
    ⟨0x280000, 4, 1, [⟨31, 24, .ro, 0⟩, ⟨6, 6, .sts, 0⟩, ⟨5, 5, .sts, 0⟩, ⟨4, 4, .sts, 0⟩, ⟨3, 3, .sts, 0⟩, ⟨2, 2, .sts, 0⟩, ⟨1, 1, .sts, 0⟩, ⟨0, 0, .sts, 0⟩]⟩,
    ⟨0x280004, 4, 1, [⟨31, 24, .ro, 0⟩, ⟨3, 3, .sts, 0⟩, ⟨2, 2, .sts, 0⟩, ⟨1, 1, .sts, 0⟩, ⟨0, 0, .sts, 0⟩]⟩,
    ⟨0x280008, 4, 1, [⟨7, 0, .cfg, 0⟩]⟩ ]

/-- Register rows of the concentrators and the ERR block, part 3. -/
def regRowsCd3 : List RegRow :=
  [ ⟨0x28000C, 4, 2, [⟨31, 0, .cnt, 0⟩]⟩,
    ⟨0x280014, 4, 1, [⟨23, 0, .ro, 0⟩]⟩,
    ⟨0x280018, 4, 1, [⟨31, 0, .cnt, 0⟩]⟩,
    ⟨0x28001C, 4, 1, [⟨31, 16, .ro, 0⟩, ⟨0, 0, .cfg, 1⟩]⟩,
    ⟨0x280020, 4, 1, [⟨31, 8, .ro, 0⟩, ⟨7, 0, .cfg, 1⟩]⟩,
    ⟨0x280024, 4, 1, [⟨31, 31, .cmd, 0⟩, ⟨23, 0, .cfg, 0⟩]⟩,
    ⟨0x280028, 4, 1, [⟨23, 16, .cfg, 0⟩, ⟨15, 8, .cfg, 0⟩, ⟨3, 0, .cmd, 0⟩]⟩,
    ⟨0x28002C, 4, 1, [⟨23, 0, .cfg, 0⟩]⟩,
    ⟨0x280030, 4, 2, [⟨31, 0, .cfg, 0⟩]⟩ ]

/-- Register rows of the safety die, part 0. -/
def regRowsSfd0 : List RegRow :=
  [ ⟨0x500000, 4, 1, [⟨31, 24, .ro, 0⟩, ⟨23, 23, .ro, 0⟩, ⟨22, 22, .ro, 0⟩, ⟨21, 21, .ro, 0⟩, ⟨20, 20, .ro, 0⟩, ⟨19, 19, .ro, 0⟩, ⟨18, 18, .ro, 0⟩, ⟨17, 17, .ro, 0⟩, ⟨16, 16, .ro, 0⟩, ⟨15, 15, .ro, 0⟩, ⟨14, 11, .ro, 0⟩, ⟨2, 0, .ro, 0⟩]⟩,
    ⟨0x500004, 4, 1, [⟨25, 16, .ro, 0⟩, ⟨7, 0, .ro, 0⟩]⟩,
    ⟨0x500008, 4, 1, [⟨31, 24, .ro, 0⟩, ⟨4, 4, .sts, 0⟩, ⟨3, 3, .sts, 0⟩, ⟨2, 2, .sts, 0⟩, ⟨1, 1, .sts, 0⟩, ⟨0, 0, .sts, 0⟩]⟩,
    ⟨0x50000C, 4, 1, [⟨0, 0, .cmd, 0⟩]⟩,
    ⟨0x500010, 4, 1, [⟨3, 0, .cfg, 0⟩]⟩,
    ⟨0x500014, 4, 1, [⟨23, 20, .ro, 0⟩, ⟨19, 16, .ro, 0⟩, ⟨15, 8, .ro, 0⟩, ⟨7, 0, .ro, 0⟩]⟩,
    ⟨0x500018, 4, 1, [⟨2, 2, .cfg, 0⟩, ⟨1, 0, .cfg, 0⟩]⟩,
    ⟨0x50001C, 4, 1, [⟨31, 16, .ro, 0⟩, ⟨15, 0, .ro, 0⟩]⟩,
    ⟨0x500020, 4, 3, [⟨31, 0, .cnt, 0⟩]⟩,
    ⟨0x50002C, 4, 1, [⟨31, 0, .ro, 0⟩]⟩,
    ⟨0x500030, 4, 2, [⟨31, 0, .ro, 0⟩]⟩,
    ⟨0x500038, 4, 1, [⟨16, 16, .ro, 0⟩, ⟨15, 0, .ro, 0⟩]⟩,
    ⟨0x50003C, 4, 1, [⟨15, 0, .ro, 0⟩]⟩,
    ⟨0x500040, 4, 32, [⟨31, 0, .ro, 0⟩]⟩ ]

/-- Every register row. -/
def regRows : List RegRow :=
  regRowsHbd0 ++ regRowsHbd1 ++ regRowsHbd2 ++ regRowsHbd3 ++ regRowsHbd4 ++ regRowsHbd5 ++ regRowsFed0 ++ regRowsFed1 ++ regRowsCd0 ++ regRowsCd1 ++ regRowsCd2 ++ regRowsCd3 ++ regRowsSfd0

/-- The register at a normal address, if any (R404: every other address is reserved space). -/
def RegRow.covers (r : RegRow) (a : Nat) : Bool :=
  decide (r.base ≤ a) && decide (a < r.base + r.stride * r.count) && decide ((a - r.base) % r.stride = 0)

/-- The row of an address. -/
def regRow (a : Nat) : Option RegRow := regRows.find? (fun r => r.covers a)

/-- The fields of an address; none in reserved space. -/
def regFields (a : Nat) : List Field := ((regRow a).map RegRow.fields).getD []

/-- The reset word of a list of fields. -/
def resetWord (fs : List Field) : Nat := fs.foldl (fun v f => v + f.rst * 2 ^ f.lo) 0

/-- The reset value of the register at a normal address (R415); LN_CFG_0.ROLE resets to 1. -/
def regReset (a : Nat) : W32 :=
  if a = Reg.LN_CFG then BitVec.ofNat 32 (resetWord (regFields a) + 0x40000000)
  else BitVec.ofNat 32 (resetWord (regFields a))

/-- The mask of the fields of some types. -/
def fieldMask (fs : List Field) (p : FTy → Bool) : Nat :=
  fs.foldl (fun v f => if p f.ty then v ||| ((2 ^ (f.hi + 1 - f.lo) - 1) <<< f.lo) else v) 0

end Sys2Proof.Machine
end

