-- ==== Sys2Proof/Machine/Flags.lean ====
section
/-! DEFINITION. Registers, sticky status and counters: the one place where a stored register word is read or written,
where an event sets a sticky bit (R341), where a counter counts (R397), and which commands each mode accepts (R50). -/

namespace Sys2Proof.Machine

/-! ### Addresses -/

/-- A register's address as the register table lists it: CD nibbles under the alias, ERR blocks under 0x2_8xxxx. -/
def normAddr (a : Nat) : Nat :=
  if a / 0x10000 % 16 = 8 ∧ a / 0x100000 ≤ 4 then 0x280000 + a % 0x10000
  else if a / 0x100000 = 3 ∨ a / 0x100000 = 4 then 0x200000 + a % 0x100000
  else a

/-- The address of the die that serves `a`: the alias of nibble 2 names the active CD (R411, R412). -/
def State.phys (s : State) (a : Nat) : Nat :=
  if a / 0x100000 = 2 then (if s.rd.activeB then 0x400000 else 0x300000) + a % 0x100000 else a

/-- The key of one of several registers behind a selector. -/
def instKey (a i : Nat) : Nat := a % 0x1000000 + 0x1000000 * (i + 1)

/-- What a register word reads as while it is not listed: its Reset column (R415). The counts of ERR_LOSS by cause begin at
zero, beside its selector. -/
def keyDefault (k : Nat) : W32 :=
  if k < 0x1000000 then regReset (normAddr k)
  else if normAddr (k % 0x1000000) = Reg.ERR_LOSS then 0
  else regReset (normAddr (k % 0x1000000))

/-- The stored word under a key. -/
def State.regAt (s : State) (k : Nat) : W32 := Sparse.get (keyDefault k) s.regs k

/-- Store a word under a key. -/
def State.setRegAt (s : State) (k : Nat) (v : W32) : State :=
  { s with regs := Sparse.put (keyDefault k) k v s.regs }

/-- The stored word of a register. -/
def State.reg (s : State) (a : Nat) : W32 := s.regAt (s.phys a)

/-- Store the word of a register. -/
def State.setReg (s : State) (a : Nat) (v : W32) : State := s.setRegAt (s.phys a) v

/-- Field `[hi:lo]` of a register. -/
def State.fld (s : State) (a hi lo : Nat) : Nat := bits (s.reg a) hi lo

/-- One bit of a register. -/
def State.bit (s : State) (a i : Nat) : Bool := bitOf (s.reg a) i

/-- Set field `[hi:lo]` of a register. -/
def State.setFld (s : State) (a hi lo v : Nat) : State := s.setReg a (putBits (s.reg a) hi lo v)

/-- Set one bit of a register. -/
def State.setBit (s : State) (a i : Nat) (b : Bool) : State := s.setFld a i i (b2n b)

/-- Add to a counter under a key, saturating at `top`. -/
def State.countAt (s : State) (k top n : Nat) : State :=
  s.setRegAt k (BitVec.ofNat 32 (satAdd top (s.regAt k).toNat n))

/-- Add to a 32-bit counter of a register (R397: saturating). -/
def State.count (s : State) (a n : Nat) : State := s.countAt (s.phys a) 0xFFFFFFFF n

/-- Add to a 16-bit counter of a register. -/
def State.count16 (s : State) (a n : Nat) : State := s.countAt (s.phys a) 0xFFFF n

/-- Drop the stored words of every key that satisfies `p`: those registers return to their reset values. -/
def State.resetRegs (s : State) (p : Nat → Bool) : State :=
  { s with regs := s.regs.filter (fun e => !p e.1), sts := s.sts.filter (fun e => !p e.1) }

/-! ### Sticky status -/

/-- An event that sets several bits advances SEQ once, and each bit keeps that SEQ (R341). -/
def Sts.event (e : Sts) (bs : List Nat) : Sts :=
  { seq := e.seq + 1,
    set := bs.foldl (fun v b => v ||| BitVec.ofNat 24 (2 ^ b)) e.set,
    ev := bs.foldl (fun m b => Sparse.put 0 b (e.seq + 1) m) e.ev }

/-- The clear of R341: a masked bit clears when its latest event is not later than `w`. -/
def Sts.clear (e : Sts) (w : BitVec 8) (mask : Nat) : Sts :=
  { e with
    set := (List.range 24).foldl
      (fun v b => if mask.testBit b ∧ sdiffW 8 w.toNat (Sparse.get 0 e.ev b).toNat ≥ 0
        then v &&& ~~~(BitVec.ofNat 24 (2 ^ b)) else v) e.set }

/-- The word an STS register reads as. -/
def Sts.word (e : Sts) : W32 := BitVec.ofNat 32 (e.seq.toNat * 0x1000000 + e.set.toNat)

/-- The STS register under a key. -/
def State.stsAt (s : State) (k : Nat) : Sts := Sparse.get Sts.zero s.sts k

/-- The STS register at an address. -/
def State.stsOf (s : State) (a : Nat) : Sts := s.stsAt (s.phys a)

/-- An event in the STS register under a key. -/
def State.eventAt (s : State) (k : Nat) (bs : List Nat) : State :=
  { s with sts := Sparse.put Sts.zero k ((s.stsAt k).event bs) s.sts }

/-- An event in the STS register at an address. -/
def State.event (s : State) (a : Nat) (bs : List Nat) : State := s.eventAt (s.phys a) bs

/-- An event that falls only when `c` holds. -/
def State.eventIf (s : State) (c : Bool) (a : Nat) (bs : List Nat) : State := if c then s.event a bs else s

/-! ### Which commands a mode accepts -/

/-- The command classes of R50 other than the mode requests. -/
inductive Cls where
  | readHk | readOther | writeCfg | tableWrite | throttleFlush | nvdSlot | calSet | attest | testFn
  deriving DecidableEq, Repr

/-- The table of R50. LOAD has no slow-control path. -/
def Cls.accepted : Cls → Mode → Bool
  | _, .load => false
  | .readHk, _ => true
  | .readOther, m => m != .boot
  | .writeCfg, m => m != .boot
  | .tableWrite, m => m == .simmer || m == .calib || m == .safe || m == .test
  | .throttleFlush, m => m == .run || m == .drain
  | .nvdSlot, m => m == .boot || m == .simmer || m == .safe || m == .test
  | .calSet, m => m == .simmer || m == .calib
  | .attest, m => m != .boot
  | .testFn, m => m == .test

/-- Is a command of a class accepted now: in the source mode, and in TARGET while a transition runs (R38). -/
def State.allows (s : State) (c : Cls) : Bool :=
  c.accepted s.hk.mode &&
    (match s.hk.target with
     | none => true
     | some .load => c == .readHk
     | some t => c.accepted t)

/-- What R50 says of a mode request. -/
inductive ReqAns where
  | accept | reject | already
  deriving DecidableEq, Repr

/-- The rows REQ = … and SAFE_EXIT of R50, by HK_MODE_REQ code. -/
def reqAnswer : Nat → Mode → ReqAns
  | _, .load => .reject
  | 1, m => if m == .boot || m == .simmer || m == .safe || m == .test then .accept else .reject
  | 2, m => if m == .simmer then .already else if m == .calib then .accept else .reject
  | 3, m => if m == .calib then .already else if m == .simmer then .accept else .reject
  | 4, m => if m == .run then .already else if m == .simmer then .accept else .reject
  | 5, m => if m == .drain then .already else if m == .run then .accept else .reject
  | 6, m => if m == .safe then .already else if m == .boot then .reject else .accept
  | 7, m => if m == .test then .already else if m == .simmer || m == .safe then .accept else .reject
  | 8, m => if m == .safe then .accept else .reject
  | _, _ => .reject

/-- The mode of an HK_MODE_REQ code from 1 to 7. -/
def modeOfCode : Nat → Mode
  | 0 => .boot | 1 => .load | 2 => .simmer | 3 => .calib | 4 => .run | 5 => .drain | 6 => .safe | _ => .test

/-! ### Status of a request (R308) -/

namespace Stat
abbrev ok : Nat := 0
abbrev stateReject : Nat := 1
abbrev notReady : Nat := 2
abbrev locked : Nat := 3
abbrev resetStuck : Nat := 4
abbrev uncorrectable : Nat := 5
abbrev timeout : Nat := 6
abbrev empty : Nat := 7
abbrev badFormat : Nat := 8
abbrev badValue : Nat := 9
abbrev seqGap : Nat := 10
abbrev stale : Nat := 11
end Stat

end Sys2Proof.Machine
end

