-- ==== Sys2Proof/Machine/Operands.lean ====
section
/-! DEFINITION. How the operands of a register access act: byte enables (R401), the fields a write stores by their type
(R397), the locked fields of R398, and the two halves of a 64-bit table entry (R403). -/

namespace Sys2Proof.Machine

/-- The value of a write whose bytes with a BE bit of 0 keep their present value (R401). -/
def mergeBE (old new : W32) (be : BitVec 4) : W32 :=
  word32 ((List.range 4).map (fun i =>
    let j := 3 - i
    (if be.getLsbD j then bits new (8 * j + 7) (8 * j) else bits old (8 * j + 7) (8 * j), 8)))

/-- The clear mask of an STS write: only enabled bytes count (R401). -/
def maskBE (data : W32) (be : BitVec 4) : Nat := (mergeBE 0 data be).toNat % 0x1000000

/-- The fields of a key's register. -/
def fieldsOf (k : Nat) : List Field := regFields (normAddr (k % 0x1000000))

/-- The bits a write from outside stores: CFG and CNT. Before L10 ends only the image writes a LOCK field, and afterwards
none does (R397). -/
def storeMask (k : Nat) : Nat := fieldMask (fieldsOf k) (fun t => t == .cfg || t == .cnt)

/-- Store `v` into the CFG and CNT fields of a register, the others as they are. -/
def State.storeFields (s : State) (k : Nat) (v : W32) : State :=
  let m : W32 := BitVec.ofNat 32 (storeMask k)
  s.setRegAt k ((s.regAt k &&& ~~~m) ||| (v &&& m))

/-- The bits that R71 and R72 hold locked in a register. -/
def State.lockMask (s : State) (k : Nat) : Nat :=
  if s.nvd.locksOn then
    fieldMask (fieldsOf k) (fun t => t == .lock) |||
      (if s.nvd.lockWhole.contains (k % 0x1000000) then fieldMask (fieldsOf k) (fun t => t == .cfg) else 0)
  else 0

/-- Would the merged value change a locked field (R398). -/
def State.lockHit (s : State) (k : Nat) (v : W32) : Bool :=
  ((s.regAt k ^^^ v) &&& BitVec.ofNat 32 (s.lockMask k)) != 0

/-- Would a locked field change where the register's present value is not a stored word (R398). -/
def State.lockDiff (s : State) (k : Nat) (old v : W32) : Bool :=
  ((old ^^^ v) &&& BitVec.ofNat 32 (s.lockMask k)) != 0

/-- One 32-bit half of a 64-bit entry (R403): bits [31:0] at the lower address. -/
def halfOf (w : W64) (high : Bool) : W32 := if high then w.extractLsb' 32 32 else w.extractLsb' 0 32

/-- A 64-bit entry with one half replaced. -/
def setHalf (w : W64) (high : Bool) (v : W32) : W64 :=
  if high then putBits w 63 32 v.toNat else putBits w 31 0 v.toNat

end Sys2Proof.Machine
end

