-- ==== Sys2Proof/Machine/Ops.lean ====
section
/-! DEFINITION. The shared operations: the clock, the two concentrators, lanes and groups, the privileged queues, error
entries and losses, SAFE entry and mode transitions, and one slow-control access from sequence stage to response. -/

namespace Sys2Proof.Machine

/-! ### Time -/

/-- The nominal TB_INC: 3.125 ns per tick (R4). -/
abbrev tbNominal : Nat := 0x320000000

/-- TB_INC as it acts now, in 2^-32 ns per tick: the register acts only in TEST (R4, R254, R255). -/
def State.tbInc (s : State) : Nat :=
  if s.hk.mode = .test then (s.reg Reg.TB_INC_LO).toNat + 2 ^ 32 * s.fld Reg.TB_INC_HI 7 0 else tbNominal

/-- `n` ACLK edges: TN rises by `n`, DT by `n` × TB_INC (R254). -/
def State.advance (s : State) (n : Nat) : State :=
  let tot := s.tb.ns * 2 ^ 32 + s.tb.frac + n * s.tbInc
  let nsAll := tot / 2 ^ 32
  { s with tb := { s.tb with
    tn := (s.tb.tn + n) % 2 ^ 64, frac := tot % 2 ^ 32, ns := nsAll % 1000000000,
    sec := (s.tb.sec + nsAll / 1000000000) % 2 ^ 48 } }

/-- The wall tick reaches `now`; a tick already passed changes nothing. -/
def State.advanceTo (s : State) (now : Nat) : State :=
  if s.tb.tn < now then s.advance (now - s.tb.tn) else s

/-- Does ACLK run: in every mode but BOOT and LOAD (R34). -/
def State.aclkRuns (s : State) : Bool := s.hk.mode != .boot && s.hk.mode != .load


/-- Load TN and DT in one tick with DT = TN × 3.125 ns (R254). -/
def State.loadTime (s : State) (tn : Nat) : State :=
  let ps8 := tn * 25          -- eighths of a nanosecond
  { s with tb := { s.tb with
    tn := tn % 2 ^ 64, frac := ps8 % 8 * 2 ^ 29, ns := ps8 / 8 % 1000000000,
    sec := ps8 / 8 / 1000000000 % 2 ^ 48 } }

/-- TIME of an error or Lid entry: DT in microseconds, mod 2^16 (R342). -/
def State.usTime (s : State) : Nat := (s.tb.sec * 1000000 + s.tb.ns / 1000) % 65536

/-! ### Values that a run holds -/

/-- The key of the applied copy of a register whose writes wait for the next run (R213, R215). -/
def effKey (a : Nat) : Nat := instKey a 0

/-- The applied copy of a register. -/
def State.eff (s : State) (a : Nat) : W32 := s.regAt (effKey a)

/-- Set the applied copy of a register. -/
def State.setEff (s : State) (a : Nat) (v : W32) : State := s.setRegAt (effKey a) v

/-- The slice exponent k in force (R213). -/
def State.k (s : State) : Nat := bits (s.eff Reg.SLC_CFG) 2 0 + 8

/-- The acquisition mode in force: 0 TRIGGERED, 1 STREAMING, 2 MIXED; 3 acts as 0 (R213). -/
def State.acq (s : State) : Nat :=
  let a := bits (s.eff Reg.SLC_CFG) 9 8
  if a = 3 then 0 else a

/-- The applied lateness window L (R215). -/
def State.late (s : State) : Nat := bits (s.eff Reg.SLC_EFF) 14 0

/-- The applied peer wait (R223). -/
def State.peerWait (s : State) : Nat := bits (s.eff Reg.SLC_EFF) 28 16

/-- The slice of an absolute tick (R5, R254). -/
def State.sliceOf (s : State) (tick : Nat) : Nat := tick / 2 ^ s.k % 2 ^ 32

/-- The slice that DT lies in. -/
def State.curSlice (s : State) : Nat := s.sliceOf s.tb.tn

/-- The first tick of slice `n`, of the two live readings the one near the present (R7). -/
def State.firstTick (s : State) (n : Nat) : Nat :=
  (((s.tb.tn / 2 ^ s.k : Nat) : Int) + sdiff n s.curSlice).toNat * 2 ^ s.k

/-- The role of the module (R15). -/
def State.role (s : State) : Role :=
  match s.fld Reg.HK_CFG_INFO 5 4 with
  | 1 => .limb | 2 => .head | _ => .solo

/-- The source number stamped into own records (R16). -/
def State.source (s : State) : Nat :=
  if s.role = .limb then s.fld Reg.HK_CFG_INFO 2 0 else 0

/-- A fresh open value, and the state that has drawn it. -/
def State.draw (s : State) : Nat × State := ((Config.free32 s.free).toNat, { s with free := s.free + 1 })

/-! ### The two concentrators -/

/-- The active CD (R312). -/
def State.cd (s : State) : Cd := if s.rd.activeB then s.cdb else s.cda

/-- The other CD. -/
def State.other (s : State) : Cd := if s.rd.activeB then s.cda else s.cdb

def State.setCd (s : State) (c : Cd) : State := if s.rd.activeB then { s with cdb := c } else { s with cda := c }

def State.setOther (s : State) (c : Cd) : State := if s.rd.activeB then { s with cda := c } else { s with cdb := c }

/-- The die of the active CD. -/
def State.activeDie (s : State) : Die := if s.rd.activeB then .cdb else .cda

/-- Codes of a CD's state (R313). -/
abbrev cdOut : Nat := 0
abbrev cdLoading : Nat := 1
abbrev cdMirroring : Nat := 2
abbrev cdReady : Nat := 3
abbrev cdActive : Nat := 4

/-! ### Lanes, groups, channels -/

def State.lane (s : State) (n : Nat) : LaneSt := Sparse.get LaneSt.off s.lanes n

def State.setLane (s : State) (n : Nat) (l : LaneSt) : State :=
  { s with lanes := Sparse.put LaneSt.off n l s.lanes }

/-- LN_CFG_n. -/
abbrev laneCfg (n : Nat) : Nat := Reg.LN_CFG + 0x100 * n

/-- LN_EVT_n. -/
abbrev laneEvt (n : Nat) : Nat := Reg.LN_EVT + 0x100 * n

/-- ROLE of a lane: 0 OFF, 1 TIMING, 2 UPLINK, 3 PEER; lane 0 is always TIMING (R269). -/
def State.laneRole (s : State) (n : Nat) : Nat := if n = 0 then 1 else s.fld (laneCfg n) 31 30

/-- Is a lane UP (R272). -/
def State.laneUp (s : State) (n : Nat) : Bool := (s.lane n).st == 5

/-- A counter of a selected lane. -/
def State.countLane (s : State) (a n k : Nat) : State := s.countAt (instKey a n) 0xFFFFFFFF k

def State.group (s : State) (g : Nat) : GroupSt := Sparse.get GroupSt.empty s.fed.groups g

def State.setGroup (s : State) (g : Nat) (x : GroupSt) : State :=
  { s with fed := { s.fed with groups := Sparse.put GroupSt.empty g x s.fed.groups } }

def State.pulse (s : State) (c : Nat) : Pulse := Sparse.get Pulse.idle s.tdc.pulse c

def State.setPulse (s : State) (c : Nat) (p : Pulse) : State :=
  { s with tdc := { s.tdc with pulse := Sparse.put Pulse.idle c p s.tdc.pulse } }

/-- The live calibration word of a channel, [23:0] (R78). -/
def State.calWord (s : State) (c : Nat) : BitVec 24 := Sparse.get 0 s.cal.chan c

/-- The channel-table entry (R91): the calibration fields in [23:0], the rest as TABL or a write left it. -/
def State.chanWord (s : State) (c : Nat) : W64 :=
  putBits (Sparse.get 0 s.fe.tab c) 23 0 (s.calWord c).toNat

/-- The group of a channel (R83). -/
abbrev groupOf (c : Nat) : Nat := c / 64

/-! ### Privileged queues -/

/-- The depth of a privileged queue (R208). -/
def pqDepth (i : Nat) : Nat := if i = 15 then 16 else 64

/-- The entries of a privileged queue, oldest first. -/
def State.pqOf (s : State) (i : Nat) : List W64 := (s.pq.filter (fun e => e.1 == i)).map Prod.snd

/-- An entry that reaches an empty queue ends the waits of the POPs that stall on it: each holds its snapshot (R210). -/
def popWakes (i : Nat) (w : W64) (l : LaneSt) : LaneSt :=
  match l.popWait with
  | some (q, none) => if q = i then { l with popWait := some (q, some w), snap := some (q, w) } else l
  | _ => l

/-- Write a word of a protected memory whole: its error, its raw bits and its poison go (R334, R336). -/
def State.memClean (s : State) (d : Die) (mem idx : Nat) : State :=
  { s with err := { s.err with
    bad := s.err.bad.filter (fun b => !(b.die == d && b.mem == mem && b.idx == idx)),
    raw := s.err.raw.filter (fun r => !(r.die == d && r.mem == mem && r.idx == idx)) } }

/-- The word of MEM 0x03 that holds the entry at a position of a privileged queue: 64 words a queue, used in turn. -/
def State.pqWord (s : State) (q pos : Nat) : Nat :=
  64 * q + (Sparse.get 0 s.err.heads q + pos) % (if q < 9 then 32 else pqDepth q)

/-- A write to a privileged queue; with the full flag set it is ignored and HK_PQ_OVR records it (R209). -/
def State.pqPush (s : State) (i : Nat) (w : W64) : State :=
  if (s.pqOf i).length ≥ pqDepth i then s.event Reg.HK_PQ_OVR [i]
  else
    let t := s.memClean .hbd 0x03 (s.pqWord i (s.pqOf i).length)
    { t with pq := s.pq ++ [(i, w)], lanes := s.lanes.map (fun e => (e.1, popWakes i w e.2)) }

/-- The entry at a position of a privileged queue has left it. Where it is not the head, the entries before it keep their words'
errors, one word on. -/
def State.pqTaken (s : State) (q pos : Nat) : State :=
  let t := if pos = 0 then s else s.memClean .hbd 0x03 (s.pqWord q pos)
  let on := fun (i : Nat) => match (List.range pos).find? (fun k => s.pqWord q k == i) with
    | some k => s.pqWord q (k + 1)
    | none => i
  { t with err := { t.err with
    heads := Sparse.put 0 q (Sparse.get 0 t.err.heads q + 1) t.err.heads,
    bad := t.err.bad.map (fun b => if b.die = .hbd ∧ b.mem = 0x03 then { b with idx := on b.idx } else b),
    raw := t.err.raw.map (fun r => if r.die = .hbd ∧ r.mem = 0x03 then { r with idx := on r.idx } else r) } }

/-- Remove the head entry of a privileged queue. -/
def dropHead (i : Nat) : List (Nat × W64) → List (Nat × W64)
  | [] => []
  | (j, w) :: t => if j = i then t else (j, w) :: dropHead i t

/-! ### Errors and losses -/

/-- The first address of a die's ERR block (R413). -/
def errBase : Die → Nat
  | .fed => 0x180000 | .cda => 0x380000 | .cdb => 0x480000 | .hbd => 0x080000 | .sfd => 0x080000

/-- The ERR_EVT queue of a die (R208). -/
def errQueue : Die → Nat
  | .fed => 12 | .cda => 13 | .cdb => 14 | .hbd => 11 | .sfd => 11

/-- An ERR register of a die, by its address in the alias block. -/
def errReg (d : Die) (a : Nat) : Nat := errBase d + a % 0x10000

/-- An entry of R342. -/
def State.errEntry (s : State) (d : Die) (cls mem idx cause : Nat) : State :=
  s.pqPush (errQueue d) (rec64 [(cls, 6), (0, 2), (mem, 8), (idx, 24), (cause, 8), (s.usTime, 16)])

/-- The fault class of a loss record's ERR entry, by its cause (R343); 0 where no class of R343 writes that cause. -/
def lossClass (cause : Nat) : Nat :=
  match cause with
  | 0x04 => 19 | 0x08 => 9 | 0x09 => 6 | 0x0A => 10 | 0x0C => 3 | 0x0D => 11 | _ => 0

/-- A fault class, 1 to 19, that the spec leaves open for an entry of R342. -/
def State.drawClass (s : State) : Nat := 1 + s.draw.1 % 19

/-- The entry of R342 for a loss record of a fault class; a record that belongs to no class of R343 gets a free CLASS. -/
def State.lossEntry (s : State) (d : Die) (cls cause : Nat) : State :=
  if cls = 0 then s.draw.2.errEntry d s.drawClass 0 0 cause else s.errEntry d cls 0 0 cause

/-- A loss record is counted: ERR_LOSS under its cause and ERR_EVT.LOSS (R343). -/
def State.lossCount (s : State) (d : Die) (cause : Nat) : State :=
  (s.countAt (instKey (errReg d Reg.ERR_LOSS) cause) 0xFFFFFF 1).eventAt (errReg d Reg.ERR_EVT) [5]

/-- A loss record or SLICE_GAP of a fault class written by a die: counted, with its entry (R342, R343). -/
def State.errLossC (s : State) (d : Die) (cls cause : Nat) : State := (s.lossCount d cause).lossEntry d cls cause

/-- A loss record or SLICE_GAP written by a die, of the class that its cause names. -/
def State.errLoss (s : State) (d : Die) (cause : Nat) : State := s.errLossC d (lossClass cause) cause

/-- `n` entries of loss records of one cause. -/
def State.lossEntries (s : State) (d : Die) (cause : Nat) : Nat → State
  | 0 => s
  | n + 1 => (s.lossEntry d (lossClass cause) cause).lossEntries d cause n

/-- A block of `n` loss records written by a die (R325, R342 to R344). -/
def State.errLosses (s : State) (d : Die) (cause n : Nat) : State :=
  if n = 0 then s
  else
    ((s.countAt (instKey (errReg d Reg.ERR_LOSS) cause) 0xFFFFFF n).eventAt (errReg d Reg.ERR_EVT) [5]).lossEntries d cause n

/-- The active CD's losses for slice `n`, with one more: equal source, range and cause are summed (R349). -/
def mergeLoss (l : Loss) : List Loss → List Loss
  | [] => [l]
  | x :: t =>
    if x.slice = l.slice ∧ x.src = l.src ∧ x.lo = l.lo ∧ x.hi = l.hi ∧ x.cause = l.cause then
      { x with count := min 0x1FFFFF (x.count + l.count) } :: t
    else x :: mergeLoss l t

/-- The oldest open slice (R343); for a copy of the replay walk, the one that was oldest at its arrival tick (R322). -/
def Cd.oldest (c : Cd) : Option Nat :=
  match c.asOf with
  | some n => some n
  | none => c.opened.head?.map SliceSt.n

/-- The mark of a report held now: 1 where a slice of the present run has closed, so that it waits for the next one. -/
def Cd.heldKey (c : Cd) : Nat := if c.lastClosed.isSome then 1 else 0

/-- Place a loss in the frame of the oldest open slice, or hold it for the next run (R343, R438). -/
def Cd.place (c : Cd) (src lo hi count cause : Nat) : Cd :=
  match c.oldest with
  | some n => { c with losses := mergeLoss ⟨n, src, lo, hi, count, cause⟩ c.losses }
  | none => { c with held := mergeLoss ⟨c.heldKey, src, lo, hi, count, cause⟩ c.held }

/-- A loss of a fault class that the active CD writes into the oldest open slice, counted (R343). -/
def State.lossOldestC (s : State) (cls src lo hi count cause : Nat) : State :=
  (s.setCd (s.cd.place src lo hi count cause)).errLossC s.activeDie cls cause

/-- A loss the active CD writes into the oldest open slice, of the class that its cause names. -/
def State.lossOldest (s : State) (src lo hi count cause : Nat) : State :=
  s.lossOldestC (lossClass cause) src lo hi count cause

/-- A loss of a fault class that the active CD writes into the frame of slice `n`, counted. -/
def State.lossInC (s : State) (cls n src lo hi count cause : Nat) : State :=
  (s.setCd { s.cd with losses := mergeLoss ⟨n, src, lo, hi, count, cause⟩ s.cd.losses }).errLossC s.activeDie cls cause

/-- A loss the active CD writes into the frame of slice `n`, of the class that its cause names. -/
def State.lossIn (s : State) (n src lo hi count cause : Nat) : State :=
  s.lossInC (lossClass cause) n src lo hi count cause

/-- Widen the LATE_HIT report of a source in a list, if there is one (R217). -/
def widenLate (n src ch count : Nat) : List Loss → Option (List Loss)
  | [] => none
  | x :: t =>
    if x.slice = n ∧ x.src = src ∧ x.cause = 1 then
      some ({ x with lo := min x.lo ch, hi := max x.hi ch, count := min 0x1FFFFF (x.count + count) } :: t)
    else (widenLate n src ch count t).map (fun r => x :: r)

/-- A late record: counted, and reported once per source in the oldest open slice (R217). `hits` is 1 for a HIT, 0 for
a WAVE unit whose HIT was emitted. -/
def State.lateRecord (s : State) (src ch hits : Nat) : State :=
  let s := (s.count Reg.SLC_LATE_CNT 1).event Reg.SLC_EVT [0]
  match s.cd.oldest with
  | some n =>
    match widenLate n src ch hits s.cd.losses with
    | some l => s.setCd { s.cd with losses := l }
    | none => (s.setCd { s.cd with losses := s.cd.losses ++ [⟨n, src, ch, ch, hits, 1⟩] }).errLoss s.activeDie 1
  | none =>
    match widenLate s.cd.heldKey src ch hits s.cd.held with
    | some l => s.setCd { s.cd with held := l }
    | none => (s.setCd { s.cd with held := s.cd.held ++ [⟨s.cd.heldKey, src, ch, ch, hits, 1⟩] }).errLoss s.activeDie 1

/-! ### Transitions and SAFE entry -/

/-- The last step of a mode transition: MODE shows the new mode and BUSY clears (R36). -/
def State.modeDone (s : State) (m : Mode) (cause : Nat) : State :=
  let s1 := { s with hk := { s.hk with prev := s.hk.mode, mode := m, cause := cause, target := none, tcause := 0 } }
  let s2 := (s1.setFld Reg.HK_MODE_REQ 3 0 0).setReg Reg.HK_MODE_TIME 0
  match m with
  | .run => s2.count Reg.HK_RUN_CNT 1
  | .safe => s2.count Reg.HK_SAFE_CNT 1
  | _ => s2

/-- A mode transition begins: BUSY and TARGET (R36). -/
def State.modeGo (s : State) (m : Mode) (cause : Nat) : State :=
  { s with hk := { s.hk with target := some m, tcause := cause } }

/-- The slice chosen as Sl now: the present slice, not before Sf, and not after an Sl chosen before (R45). -/
def State.chooseSl (s : State) : Nat :=
  let c := if sdiff s.curSlice s.run.sf < 0 then s.run.sf else s.curSlice
  match s.run.sl with
  | some x => if sdiff x c < 0 then x else c
  | none => c

/-- Barriers that wait for a slice after Sl when Sl is chosen: a SYNC is dropped, an ignored marker (R226); an own FLUSH
stands after Sl (R212). -/
def endBarriers (sl : Nat) (bs : List Barrier) : List Barrier :=
  (bs.filter (fun b => !decide (b.cls = 1 ∧ sdiff b.after sl > 0))).map
    (fun b => if b.cls = 2 ∧ sdiff b.after sl > 0 then { b with after := sl, slice := sl } else b)

/-- Sl is chosen: the barriers that both CDs hold end with it (R212, R226, R319), and a SYNC that is dropped is counted. -/
def State.dropSyncs (s : State) (sl : Nat) : State :=
  let n := (s.cd.barriers.filter (fun b => decide (b.cls = 1 ∧ sdiff b.after sl > 0))).length
  let s1 := s.setCd { s.cd with barriers := endBarriers sl s.cd.barriers }
  let s2 := s1.setOther { s1.other with barriers := endBarriers sl s1.other.barriers }
  if n = 0 then s2 else (s2.count Reg.LK_MARK_IGN_CNT n).event Reg.LK_EVT [5]

/-- Is a record the closing MARK/MODE of a run (R43): its mode is not RUN. -/
def closingWord (w : W64) : Bool := recKind w == 2 && recSub w == 6 && bits w 23 20 != 4

/-- The closing record with another mode and cause. -/
def recastWord (mode cause : Nat) (w : W64) : W64 :=
  if closingWord w then putBits (putBits w 23 20 mode) 19 12 cause else w

/-- A closing record that waits in the Ladle, in an engine or released is not handed over yet: a SAFE entry gives it the
mode and the cause that it carries (R43, R45). -/
def Cd.recast (c : Cd) (mode cause : Nat) : Cd :=
  { c with
    ladle := c.ladle.map (fun g => if g.alone then { g with words := g.words.map (recastWord mode cause) } else g),
    jobs := c.jobs.map (fun j => if j.alone then { j with groups := j.groups.map (fun g => g.map (recastWord mode cause)) } else j),
    released := c.released.map (fun b =>
      if bitOf b.h0 20 then { b with payload := b.payload.map (recastWord mode cause) } else b) }

/-- Fix the last slice of the run, the mode and the cause that its closing record carries (R43, R45). -/
def State.endRun (s : State) (endMode cause : Nat) : State :=
  if s.run.active && !s.run.closedMark then
    let sl := s.chooseSl
    let t := ({ s with run := { s.run with sl := some sl, endMode := endMode, endCause := cause } }).dropSyncs sl
    t.setCd (t.cd.recast endMode cause)
  else s

/-- SAFE entry on a Lid trip (6), a fatal error (7) or a request (2): R38, R39, R45, R48. From BOOT and LOAD there is
none; a transition that leads out of SAFE is abandoned and the module stays in SAFE. -/
def State.enterSafe (s : State) (cause : Nat) : State :=
  match s.hk.mode with
  | .boot => s
  | .load => s
  | .safe =>
    match s.hk.target with
    | none => s
    | some _ => (({ s with hk := { s.hk with target := none, cause := cause } }).setFld Reg.HK_MODE_REQ 3 0 0)
  | m =>
    if s.hk.target = some .safe then s
    else
      let s1 := s.endRun 6 cause
      { s1 with hk := { s1.hk with
        target := some .safe, tcause := cause, safeFromTest := m == .test,
        safeDrained := !(s1.run.active && !s1.run.closedMark), spillEntry := false, spillSf := none, heldSpillEnd := none } }

/-- A fatal error at a word of a memory: its bit in ERR_FATAL of the die that detects it, an entry, and SAFE (R348). -/
def State.fatalAt (s : State) (d : Die) (bit mem idx : Nat) : State :=
  ((((s.eventAt (errReg d Reg.ERR_FATAL) [bit]).eventAt (errReg d Reg.ERR_EVT) [6]).errEntry d 19 mem idx 0)).enterSafe 7

/-- A fatal error that concerns no word. -/
def State.fatal (s : State) (d : Die) (bit : Nat) : State := s.fatalAt d bit 0 0

/-! ### Slow control -/

/-- The answer of an executed request: its status, its data, and the state it leaves. -/
structure Rep where
  status : Nat
  data : W32
  st : State
  deriving DecidableEq, Repr

/-- Can a request arrive on a lane: a slow-control path exists (R50) and the lane is UP. -/
def State.pathOpen (s : State) (lane : Nat) : Bool :=
  s.laneUp lane &&
    (match s.hk.mode with
     | .load => false
     | .boot => s.hk.minimalLink && lane == 0
     | _ => true)

/-- Does the lane's role accept slow control (R294). -/
def State.scRole (s : State) (lane : Nat) : Bool := s.laneRole lane == 1 || s.laneRole lane == 2

/-- The response queue of a lane (R208). -/
def State.respQueue (s : State) (lane : Nat) : Nat :=
  if s.laneRole lane = 1 then 0
  else 1 + ((List.range lane).filter (fun j => s.laneRole j == 2)).length % 8

/-- Entries of a response queue in use, the one a stalled POP has reserved included (R310). -/
def State.respUsed (s : State) (q : Nat) : Nat :=
  (s.resp.filter (fun e => s.respQueue e.1 == q)).length +
    ((List.range 32).filter (fun n => (s.lane n).popWait.isSome && s.respQueue n == q)).length

/-- HK_PQ_STS of the selected queue: 0 to 8 are the response queues (R208). -/
def State.pqSts (s : State) : W32 :=
  let q := s.fld Reg.HK_PQ_SEL 3 0
  let n := if q < 9 then s.respUsed q else (s.pqOf q).length
  word32 [(b2n (decide (n ≥ if q < 9 then 32 else pqDepth q)), 1), (n, 7)]

/-- The entries of a response queue, by the lane of each. -/
def State.respLanes (s : State) (q : Nat) : List Nat := (s.resp.map Prod.fst).filter (fun n => s.respQueue n == q)

/-- A response enters the lane's response queue (R309). -/
def State.respond (s : State) (lane : Nat) (r : Resp) : State :=
  let q := s.respQueue lane
  let t := s.memClean .hbd 0x03 (s.pqWord q (s.respLanes q).length)
  { t with resp := s.resp ++ [(lane, r)] }

/-- A refusal of the sequence stage, dropped and counted where no entry is free (R307, R310). -/
def State.refuse (s : State) (lane : Nat) (r : Resp) : State :=
  if s.respUsed (s.respQueue lane) ≥ 32 then (s.count Reg.LK_SC_NOSPACE_CNT 1).event Reg.LK_EVT [2]
  else s.respond lane r

/-- The response of an executed request enters the queue and the cache of the last 32, and E advances (R307). -/
def State.finish (s : State) (lane addr : Nat) (status : Nat) (data : W32) : State :=
  let l := s.lane lane
  let r : Resp := ⟨status, l.e % 65536, addr, data⟩
  ((s.setLane lane { l with e := (l.e + 1) % 2 ^ 32, cache := (l.cache ++ [r]).drop ((l.cache.length + 1) - 32) }).respond
    lane r).count Reg.LK_SC_REQ_CNT 1

/-- The data a SEQ_GAP response carries (R307). -/
def State.gapData (s : State) (lane : Nat) : W32 :=
  word32 [(b2n (!(s.lane lane).synced), 1), (0, 15), ((s.lane lane).e % 65536, 16)]

/-- Is an access answered NOT_READY without crossing to its die: the alias during a switch-over (R326), a CD that is OUT or
LOADING through its own nibble, the ERR blocks of the dies held in reset in BOOT (R406). -/
def State.notCrossed (s : State) (addr : Nat) : Bool :=
  let die := addr / 0x100000
  ((die == 2 || decide (0x900000 ≤ addr ∧ addr < 0xC00000)) && s.rd.step != 0) ||
    (die == 3 && decide (s.cda.st ≤ cdLoading)) || (die == 4 && decide (s.cdb.st ≤ cdLoading)) ||
    (s.hk.mode == .boot && decide (1 ≤ die ∧ die ≤ 4) && addr / 0x10000 % 16 == 8)

/-- Does the target of an access not accept it within 2 µs (R405): a die whose core supply has lost power-good, DEDUCED in
log entry 176. -/
def State.noAnswer (s : State) (addr : Nat) : Bool :=
  let w := addr / 0x100000
  let pg := fun (i : Nat) => bitOf (s.regAt Reg.HK_PWR_STS) i
  let active := if s.rd.activeB then pg 2 else pg 1
  ((w == 1 || w == 8 || w == 12) && !pg 0) || ((w == 2 || (9 ≤ w && w ≤ 11)) && !active) || (w == 3 && !pg 1) ||
    (w == 4 && !pg 2)

/-- Does an access not reach its die. -/
def State.noCross (s : State) (addr : Nat) : Bool := s.notCrossed addr || s.noAnswer addr

/-- A request that executes: its response is queued. One that would act on a die that it does not reach is answered
NOT_READY or TIMEOUT. -/
def State.execute (s : State) (lane addr : Nat) (act : State → Rep) : State :=
  let r := act s
  if s.noCross addr ∧ (r.status = Stat.ok ∨ r.status ≥ Stat.uncorrectable ∧ r.status ≤ Stat.empty) then
    s.finish lane addr (if s.noAnswer addr ∧ !s.notCrossed addr then Stat.timeout else Stat.notReady) 0
  else r.st.finish lane addr r.status (if r.status = Stat.ok then r.data else 0)

/-- Frames or units not accepted on a lane by R294 are discarded and counted (R293). -/
def State.discard (s : State) (lane n : Nat) : State :=
  (s.count Reg.LK_DISCARD_CNT n).countLane Reg.LK_LANE_ERR lane n

/-- A SEQ_GAP answer, counted where it is queued (R307). -/
def State.seqGap (s : State) (lane seq addr : Nat) : State :=
  let t := if s.respUsed (s.respQueue lane) ≥ 32 then s else s.count Reg.LK_SC_GAP_CNT 1
  t.refuse lane ⟨Stat.seqGap, seq, addr, s.gapData lane⟩

/-- A request answered OK with DATA zero. -/
def Rep.done (s : State) : Rep := ⟨Stat.ok, 0, s⟩

/-- A refused request that changes nothing (R400). -/
def Rep.no (status : Nat) (s : State) : Rep := ⟨status, 0, s⟩

/-- A write answered LOCKED: counted and marked (R72). -/
def Rep.lockedBy (s : State) : Rep := ⟨Stat.locked, 0, (s.count16 Reg.HK_LOCKED_CNT 1).event Reg.HK_CFG_EVT [0]⟩

/-- The order of R51: malformed, LOCKED, STATE_REJECT, NOT_READY, and then the effect. -/
def State.guarded (s : State) (bad lock : Bool) (cls : Cls) (wait : Bool) (eff : State) : Rep :=
  if bad then .no Stat.badValue s
  else if lock then .lockedBy s
  else if !s.allows cls then .no Stat.stateReject s
  else if wait then .no Stat.notReady s
  else .done eff

/-- A write that only stores fields, under a key and a command class. -/
def State.plainWrite (s : State) (k : Nat) (data : W32) (be : BitVec 4) (cls : Cls) : Rep :=
  let v := mergeBE (s.regAt k) data be
  s.guarded false (s.lockHit k v) cls false (s.storeFields k v)

/-- The state in which the alias names the other CD. -/
def State.flipCd (s : State) : State := { s with rd := { s.rd with activeB := !s.rd.activeB } }

/-- A write through the alias that the active CD answered OK runs in the other CD as well while that is MIRRORING or
READY; the status stays that of the active CD (R412). What an uncorrectable word does there happens (R51, R336). -/
def Rep.mirrored (r : Rep) (again : State → Rep) : Rep :=
  if r.status = Stat.ok ∧ (r.st.other.st = cdMirroring ∨ r.st.other.st = cdReady) then
    let q := again r.st.flipCd
    if q.status = Stat.ok ∨ q.status = Stat.uncorrectable then ⟨r.status, r.data, q.st.flipCd⟩ else r
  else r

end Sys2Proof.Machine
end

