-- ==== Sys2Proof/Machine/Memory.lean ====
section
/-! DEFINITION. Protected memories (R332 to R338): what a functional read, a whole write and a narrow write of a code word
do to errors and poison, and the words that the check-bit test reaches. The numbering of the words inside a memory is the
model's where the spec gives none. -/

namespace Sys2Proof.Machine

/-! ### The words of a memory -/

/-- The CD of a die. -/
def State.cdOf (s : State) : Die → Cd
  | .cdb => s.cdb
  | _ => s.cda

def State.setCdOf (s : State) (d : Die) (c : Cd) : State :=
  match d with
  | .cdb => { s with cdb := c }
  | _ => { s with cda := c }

/-- The memories of a die that carry a SECDED code (R332). -/
def memsOf : Die → List Nat
  | .hbd => [0x01, 0x03, 0x04]
  | .fed => [0x10, 0x11, 0x12, 0x13]
  | .cda => [0x20, 0x21, 0x22, 0x23, 0x24, 0x25, 0x26]
  | .cdb => [0x20, 0x21, 0x22, 0x23, 0x24, 0x25, 0x26]
  | .sfd => []

/-- The fault class of an uncorrectable word (R332); the NVD has none of the nineteen. -/
def memClass (mem : Nat) : Nat :=
  match mem with
  | 0x01 => 9 | 0x02 => 19 | 0x03 => 16 | 0x10 => 2 | 0x11 => 8 | 0x12 => 6 | 0x13 => 7 | 0x20 => 4 | 0x21 => 5
  | 0x22 => 5 | 0x23 => 7 | 0x24 => 7 | 0x25 => 9 | 0x26 => 5 | _ => 0

/-- The word of MEM 0x13 that holds channel `c`; ADC, XO, lane and hop entries follow in the order of R78. -/
abbrev chanIdx (c : Nat) : Nat := c
abbrev adcIdx (a : Nat) : Nat := 4096 + a
abbrev xoIdx (i : Nat) : Nat := 4608 + i
abbrev laneIdx (n : Nat) : Nat := 4616 + n
abbrev hopIdx (h : Nat) : Nat := 4648 + h
/-- The word of MEM 0x23 that holds queue `q`. -/
abbrev qmapIdx (q : Nat) : Nat := q / 2
/-- The word of MEM 0x24 that holds word `w` of rule `r`; the region table follows the rule table. -/
abbrev ruleIdx (r w : Nat) : Nat := (r * 16 + w) / 2
abbrev regionIdx (e : Nat) : Nat := 512 + e / 2
/-- The entry of a code-density bank, and the word of MEM 0x12 that holds it, four entries to a word. -/
abbrev tabKey (c : Nat) (bank : Bool) (i : Nat) : Nat := (c * 2 + b2n bank) * 1408 + i
abbrev tabIdx (c : Nat) (bank : Bool) (i : Nat) : Nat := tabKey c bank i / 4

/-- Mark the `i`-th record of the queues as uncorrectable: the pages' places are not stated (R200). -/
def markUnc : Nat → Sparse Queue → Sparse Queue
  | _, [] => []
  | i, (k, q) :: t =>
    if i < q.ents.length then (k, { q with ents := q.ents.mapIdx (fun j e => if j = i then { e with unc := true } else e) }) :: t
    else (k, q) :: markUnc (i - q.ents.length) t

/-- The block that holds the `i`-th word of a list of blocks is marked. -/
def markBlocks : Nat → List Block → List Block
  | _, [] => []
  | i, b :: t =>
    let n := 2 + b.payload.length + (if b.dep.isSome then 2 else 0)
    if i < n then { b with unc := true } :: t else b :: markBlocks (i - n) t

/-- Replace the entry at a position of a privileged queue. -/
def setEntry (q : Nat) (v : W64) : Nat → List (Nat × W64) → List (Nat × W64)
  | _, [] => []
  | n, (j, w) :: t =>
    if j ≠ q then (j, w) :: setEntry q v n t
    else match n with
      | 0 => (j, v) :: t
      | k + 1 => (j, w) :: setEntry q v k t

/-- The position in an event queue of the entry that a word of MEM 0x03 holds. -/
def State.entryAt (s : State) (idx : Nat) : Option Nat :=
  (List.range (s.pqOf (idx / 64)).length).find? (fun p => s.pqWord (idx / 64) p == idx)

/-- The words of a held block. -/
def heldWords (b : Block) : Nat := 2 + b.payload.length + (if b.dep.isSome then 2 else 0)

/-- Words of a frame's body. -/
def frameWords (f : Frame) : Nat := (f.blocks.map heldWords).sum

/-- The blocks that the replay buffer holds, in the order in which their words count. -/
def State.heldBlocks (s : State) : List Block := s.ulp.held.flatMap Frame.blocks ++ s.ulp.wait

/-- The words of a memory that the model holds as records or blocks, each with its mark. -/
def State.recWords (s : State) (d : Die) (mem : Nat) : List Bool :=
  match mem with
  | 0x01 => s.heldBlocks.flatMap (fun b => List.replicate (heldWords b) b.unc)
  | 0x20 => (s.cdOf d).queues.flatMap (fun q => q.2.ents.map Ent.unc)
  | _ => []

/-- Does a record or block hold this word of its memory. -/
def State.recHeld (s : State) (d : Die) (mem idx : Nat) : Bool := decide (idx < (s.recWords d mem).length)

/-- Mark the block of the `i`-th held word: held frames first, then the blocks that wait (the places in the replay buffer
are not stated). -/
def markHeld (wait : List Block) : Nat → List Frame → List Frame × List Block
  | i, [] => ([], markBlocks i wait)
  | i, f :: t =>
    if i < frameWords f then ({ f with blocks := markBlocks i f.blocks } :: t, wait)
    else
      let r := markHeld wait (i - frameWords f) t
      (f :: r.1, r.2)

/-- The nominal table of R117. -/
def nominal (i : Nat) : Nat := if i ≥ 1311 then 0 else (2 * (1311 - i) + 1) * 1024 / 1312

/-- An entry of a code-density bank; an unlisted entry is nominal. -/
def State.tabAt (s : State) (c : Nat) (bank : Bool) (i : Nat) : Nat :=
  Sparse.get (nominal i) s.tdc.tab (tabKey c bank i)

def State.setTab (s : State) (c : Nat) (bank : Bool) (i v : Nat) : State :=
  { s with tdc := { s.tdc with tab := Sparse.put (nominal i) (tabKey c bank i) v s.tdc.tab } }

/-- The data that a code word holds, where the model holds it as an addressed word. -/
def State.memData (s : State) (d : Die) (mem idx : Nat) : W64 :=
  let pair := fun (m : Sparse W32) (i : Nat) => (Sparse.get 0 m (i + 1)).append (Sparse.get 0 m i)
  match mem with
  | 0x03 => ((s.entryAt idx).bind (fun p => (s.pqOf (idx / 64))[p]?)).getD 0
  | 0x04 => Sparse.get 0 s.nvd.words idx
  | 0x12 => rec64 ((List.range 4).map (fun j =>
      let k := 4 * idx + (3 - j)
      (Sparse.get (nominal (k % 1408)) s.tdc.tab k, 16)))
  | 0x13 =>
    if idx < 4096 then s.chanWord idx
    else if idx < 4608 then Sparse.get 0 s.cal.adc (idx - 4096)
    else if idx < 4616 then Sparse.get 0 s.cal.xo (idx - 4608)
    else if idx < 4648 then Sparse.get 0 s.cal.lane (idx - 4616)
    else Sparse.get 0 s.cal.hop (idx - 4648)
  | 0x23 => pair (s.cdOf d).qmap (2 * idx)
  | 0x24 => if idx < 512 then pair (s.cdOf d).rules (2 * idx) else pair (s.cdOf d).regions (2 * (idx - 512))
  | _ => 0

/-- The bits that the entries of the queue map, the rule table and the region table hold (R202, R155, R153). -/
def qmapMask : W32 := 0x8000FFFF
def ruleMask (w : Nat) : W32 :=
  if w = 0 then 0xE01FFFFF else if w = 1 then 0xFFFF0000 else if w = 2 then 0x00FFFFFF else if w = 3 then 0xF80FFFFF
  else if w < 12 then 0xE0FFE0FF else 0
def regionMask (e : Nat) : W32 := if e < 4096 then 0x0003FFFF else 0x9FFF00FF

/-- The bits of a channel-table entry that stand in the table itself. -/
def chanMask : W64 := 0xDFFFFFFF00000000

/-- The bits that an entry of the calibration view stores beyond the channel entries (R78, R172, R264, R287). -/
def calMask (i : Nat) : W64 :=
  if i < 4608 then 0x0FFFFFFF else if i < 4616 then 0xFFFFFFFFFFFFFFFF else if i < 4648 then 0x8CFFFFFF else 0x80000FFF

/-- Replace the data of a code word that the model holds as an addressed word; reserved fields stay zero (R10). -/
def State.setMemData (s : State) (d : Die) (mem idx : Nat) (v : W64) : State :=
  let pair := fun (mask : Nat → W32) (m : Sparse W32) (i : Nat) =>
    Sparse.put 0 (i + 1) (halfOf v true &&& mask (i + 1)) (Sparse.put 0 i (halfOf v false &&& mask i) m)
  let c := v &&& calMask idx
  match mem with
  | 0x03 => match s.entryAt idx with
    | some p => { s with pq := setEntry (idx / 64) v p s.pq }
    | none => s
  | 0x04 => { s with nvd := { s.nvd with words := Sparse.put 0 idx v s.nvd.words } }
  | 0x12 =>
    (List.range 4).foldl (fun t j =>
      let k := 4 * idx + j
      { t with tdc := { t.tdc with
        tab := Sparse.put (nominal (k % 1408)) k (bits v (16 * j + 15) (16 * j)) t.tdc.tab } }) s
  | 0x13 =>
    if idx < 4096 then
      { s with
        fe := { s.fe with tab := Sparse.put 0 idx (v &&& chanMask) s.fe.tab },
        cal := { s.cal with chan := Sparse.put 0 idx (v.extractLsb' 0 24) s.cal.chan } }
    else if idx < 4608 then { s with cal := { s.cal with adc := Sparse.put 0 (idx - 4096) c s.cal.adc } }
    else if idx < 4616 then { s with cal := { s.cal with xo := Sparse.put 0 (idx - 4608) c s.cal.xo } }
    else if idx < 4648 then { s with cal := { s.cal with lane := Sparse.put 0 (idx - 4616) c s.cal.lane } }
    else { s with cal := { s.cal with hop := Sparse.put 0 (idx - 4648) c s.cal.hop } }
  | 0x23 => s.setCdOf d { s.cdOf d with qmap := pair (fun _ => qmapMask) (s.cdOf d).qmap (2 * idx) }
  | 0x24 =>
    if idx < 512 then s.setCdOf d { s.cdOf d with rules := pair (fun i => ruleMask (i % 16)) (s.cdOf d).rules (2 * idx) }
    else s.setCdOf d { s.cdOf d with regions := pair regionMask (s.cdOf d).regions (2 * (idx - 512)) }
  | _ => s

/-- An uncorrectable word in a memory whose words the model holds as records or blocks: the record or block is marked. -/
def State.damage (s : State) (d : Die) (mem idx : Nat) : State :=
  match mem with
  | 0x01 =>
    let r := markHeld s.ulp.wait idx s.ulp.held
    { s with ulp := { s.ulp with held := r.1, wait := r.2 } }
  | 0x20 => s.setCdOf d { s.cdOf d with queues := markUnc idx (s.cdOf d).queues }
  | _ => s

/-- The data path of a die runs: which words of its memories are written is not stated (R333). -/
def State.markRan (s : State) (d : Die) : State :=
  if s.err.ran.contains d then s else { s with err := { s.err with ran := s.err.ran ++ [d] } }

/-! ### Errors of a word -/

/-- The word's entry among the raw words (R340). -/
def State.rawAt (s : State) (d : Die) (mem idx : Nat) : Option RawWord :=
  s.err.raw.find? (fun r => r.die == d && r.mem == mem && r.idx == idx)

/-- Bits in which two words with their check bits differ. -/
def flipsOf (a b : W64 × BitVec 8) : Nat :=
  ((List.range 64).filter (fun i => a.1.getLsbD i != b.1.getLsbD i)).length +
    ((List.range 8).filter (fun i => a.2.getLsbD i != b.2.getLsbD i)).length

/-- What a word written raw holds: a (72,64) code corrects one bit and detects two; what more bits read as, beyond a valid word, is
open (R340). -/
def RawWord.kind (r : RawWord) : Nat :=
  let far := if r.check = Config.checkBits r.data then 0 else if Config.looksSingle r.data r.check then 1 else 2
  match r.base with
  | some b => if flipsOf b (r.data, r.check) ≤ 2 then flipsOf b (r.data, r.check) else far
  | none => far

/-- The data that a word written raw is read as, where it can be read. -/
def RawWord.value (r : RawWord) : W64 :=
  match r.kind with
  | 0 => r.data
  | _ => match r.base with
    | some b => if flipsOf b (r.data, r.check) = 1 then b.1 else Config.corrected r.data r.check
    | none => Config.corrected r.data r.check

/-- What a word holds: 0 clean, 1 a one-bit error, 2 uncorrectable, 3 poisoned. -/
def State.badKind (s : State) (d : Die) (mem idx : Nat) : Nat :=
  match s.rawAt d mem idx with
  | some r => r.kind
  | none =>
    match s.err.bad.find? (fun b => b.die == d && b.mem == mem && b.idx == idx) with
    | some b => b.kind
    | none => 0

/-- Poison a word (R334). -/
def State.poison (s : State) (d : Die) (mem idx : Nat) : State :=
  let t := s.memClean d mem idx
  { t with err := { t.err with bad := t.err.bad ++ [⟨d, mem, idx, 3⟩] } }

/-- A corrected word is counted (R334). -/
def State.countCorr (s : State) (d : Die) (mem : Nat) : State :=
  (s.countAt (instKey (errReg d Reg.ERR_MEM_CORR_CNT) mem) 0xFFFFFFFF 1).eventAt (errReg d Reg.ERR_EVT) [0]

/-- An uncorrectable word is counted, its index kept and an entry written (R334, R342). -/
def State.countUncorr (s : State) (d : Die) (mem idx cause : Nat) (evt : List Nat) : State :=
  let s1 := s.countAt (instKey (errReg d Reg.ERR_MEM_UNCORR_CNT) mem) 0xFFFFFFFF 1
  let s2 := (s1.setRegAt (instKey (errReg d Reg.ERR_MEM_LAST) mem) (BitVec.ofNat 32 (idx % 0x1000000))).eventAt
    (errReg d Reg.ERR_EVT) evt
  if memClass mem = 0 then s2.draw.2.errEntry d s2.drawClass mem idx cause
  else s2.errEntry d (memClass mem) mem idx cause

/-- An uncorrectable word and the loss record it leads to: one event with both bits, one count of each and one entry, whose
CAUSE is the record's (R342, R349). -/
def State.uncorrLoss (s : State) (d : Die) (mem idx cause : Nat) : State :=
  (s.countUncorr d mem idx cause [1, 5]).countAt (instKey (errReg d Reg.ERR_LOSS) cause) 0xFFFFFF 1

/-- Does the model hold the words of a memory at addresses of their own. -/
def heldByWord (mem : Nat) : Bool := [0x04, 0x12, 0x13, 0x23, 0x24].contains mem

/-- A word takes a value with valid check bits; where the model holds the memory otherwise, its bits stay at hand for the check-bit
test. -/
def State.putCode (s : State) (d : Die) (mem idx : Nat) (v : W64) : State :=
  let t := (s.setMemData d mem idx v).memClean d mem idx
  if heldByWord mem then t
  else
    let c := Config.checkBits v
    { t with err := { t.err with raw := t.err.raw ++ [⟨d, mem, idx, v, c, some (v, c)⟩] } }

/-- What was written raw reads as data (R340). -/
def State.takeRaw (s : State) (d : Die) (mem idx : Nat) : State :=
  match s.rawAt d mem idx with
  | some r => s.putCode d mem idx r.value
  | none => s

/-- The one-bit error of a word is corrected and written back (R334). -/
def State.correct (s : State) (d : Die) (mem idx : Nat) : State := (s.takeRaw d mem idx).countCorr d mem

/-- A functional read of a word whose loss record, if one is written, has this cause: does it return data, and what it
leaves (R334). -/
def State.memReadC (s : State) (d : Die) (mem idx cause : Nat) : Bool × State :=
  match s.badKind d mem idx with
  | 0 => (true, s.takeRaw d mem idx)
  | 1 => (true, s.correct d mem idx)
  | _ => (false, (s.poison d mem idx).countUncorr d mem idx cause [1])

/-- A functional read outside the data path. -/
def State.memRead (s : State) (d : Die) (mem idx : Nat) : Bool × State := s.memReadC d mem idx 0

/-- The words of a memory from `lo` that are read in one pass, `cause` that of the loss record a lost word leads to: do all of
them return data (R334). -/
def State.readRange (s : State) (d : Die) (mem lo n cause : Nat) : Bool × State :=
  let idx := ((s.err.bad.filter (fun b => b.die == d && b.mem == mem)).map BadWord.idx ++
    (s.err.raw.filter (fun r => r.die == d && r.mem == mem)).map RawWord.idx).filter (fun i => decide (lo ≤ i ∧ i < lo + n))
  idx.foldl (fun a i =>
    let r := a.2.memReadC d mem i cause
    (a.1 && r.1, r.2)) (true, s)

/-- A functional read of words of the active CD's critical state: an uncorrectable one is met (R343 class 5). -/
def State.readCrit (s : State) (mem lo n : Nat) : State :=
  let r := s.readRange s.activeDie mem lo n 0
  if r.1 then r.2 else { r.2 with err := { r.2.err with crit := some s.activeDie } }

/-- An uncorrectable word is met and lost, with a loss record that begins (`fresh`) or widens one (R334, R349). -/
def State.memLoss (s : State) (d : Die) (mem idx cause : Nat) (fresh : Bool) : State :=
  let t := s.poison d mem idx
  if fresh then t.uncorrLoss d mem idx cause else t.countUncorr d mem idx cause [1]

/-- A whole write of `n` words of a memory from `lo`. -/
def State.cleanRange (s : State) (d : Die) (mem lo n : Nat) : State :=
  let mine := fun (e : Die) (m i : Nat) => e == d && m == mem && decide (lo ≤ i ∧ i < lo + n)
  { s with err := { s.err with
    bad := s.err.bad.filter (fun b => !mine b.die b.mem b.idx), raw := s.err.raw.filter (fun r => !mine r.die r.mem r.idx) } }

/-- May a narrow write merge into the word (R336), and what the merge buffer's read leaves. -/
def State.memMerge (s : State) (d : Die) (mem idx : Nat) : Bool × State :=
  match s.badKind d mem idx with
  | 0 => (true, (s.memRead d mem idx).2)
  | 1 => (true, s.correct d mem idx)
  | _ => (false, (s.poison d mem idx).eventAt (errReg d Reg.ERR_EVT) [3])

/-- A write narrower than its code word, as the effect of a request (R336). -/
def State.merged (s : State) (d : Die) (mem idx : Nat) (eff : State → State) : Rep :=
  let r := s.memMerge d mem idx
  if r.1 then .done (eff r.2) else .no Stat.uncorrectable r.2

/-- Is a word unusable: uncorrectable or poisoned (R345). -/
def State.dead (s : State) (d : Die) (mem idx : Nat) : Bool := decide (s.badKind d mem idx ≥ 2)

/-- A guarded request whose effect is itself an answer. -/
def State.guardedR (s : State) (bad lock : Bool) (cls : Cls) (wait : Bool) (eff : Rep) : Rep :=
  if bad then .no Stat.badValue s
  else if lock then .lockedBy s
  else if !s.allows cls then .no Stat.stateReject s
  else if wait then .no Stat.notReady s
  else eff

/-! ### Requests -/

/-- The head entry of a queue is popped: the snapshots of other requesters that hold it go stale (R210). A stale snapshot
is kept under the queue's index plus 16. -/
def State.popEntry (s : State) (q : Nat) : State :=
  let ls := s.lanes.map (fun e => match e.2.snap with
    | some (i, w) => if i = q then (e.1, { e.2 with snap := some (i + 16, w) }) else e
    | none => e)
  let t := s.pqTaken q 0
  { t with pq := dropHead q s.pq, lanes := ls }

/-- Bits [31:0] of the head entry of a queue go out, and the requester holds its snapshot (R210); an uncorrectable entry
is popped instead (R347). -/
def State.popLo (s : State) (lane q : Nat) : Rep :=
  let r := s.memRead .hbd 0x03 (s.pqWord q 0)
  if r.1 then
    let w := (r.2.pqOf q).headD 0
    ⟨Stat.ok, w.extractLsb' 0 32, r.2.setLane lane { r.2.lane lane with snap := some (q, w) }⟩
  else
    let t := r.2.setLane lane { r.2.lane lane with snap := none }
    .no Stat.uncorrectable (t.popEntry q)

/-- A stalled POP of a lane ends (R210): with the entry that ended its wait, or EMPTY with no snapshot. -/
def State.endStall (s : State) (n : Nat) : State :=
  match (s.lane n).popWait with
  | none => s
  | some (q, got) =>
    let t := s.setLane n { s.lane n with popWait := none }
    let r := match got with
      | some w => if (s.lane n).snap = some (q, w) then t.popLo n q else ⟨Stat.ok, w.extractLsb' 0 32, t⟩
      | none => .no Stat.empty (t.setLane n { t.lane n with snap := none })
    r.st.finish n Reg.HK_PQ_POP_LO (if t.hk.stuck then Stat.resetStuck else r.status) (if r.status = Stat.ok then r.data else 0)

/-- The POP that stalls ends: requests execute one at a time, in the order of their arrival across all lanes, so that none
executes before (R309). -/
def State.endStalls (s : State) : State :=
  match s.lanes.find? (fun e => e.2.popWait.isSome) with
  | some e => s.endStall e.1
  | none => s

/-- What becomes of a request that stands at the sequence stage with d = 0: discarded where no path exists or the lane's
role does not accept it, SEQ_GAP while the lane is not SYNCED, discarded without a response entry, and otherwise run by
`go`. A POP that stalls ends before it (R309). -/
def State.atStage (s : State) (lane addr : Nat) (go : State → State) : State :=
  if !s.pathOpen lane then s
  else if !s.scRole lane then s.discard lane 2
  else
    let s := s.endStalls.countLane Reg.LK_LANE_RX_UNITS lane 2
    if !(s.lane lane).synced then s.seqGap lane ((s.lane lane).e % 65536) addr
    else if s.respUsed (s.respQueue lane) ≥ 32 then (s.count Reg.LK_SC_NOSPACE_CNT 1).event Reg.LK_EVT [2]
    else go s

/-- A request that R53 answers RESET_STUCK and that executes otherwise. -/
def State.access (s : State) (lane addr : Nat) (act : State → Rep) : State :=
  s.atStage lane addr (fun t => if t.hk.stuck then t.finish lane addr Stat.resetStuck 0 else t.execute lane addr act)

/-- A read of the HK block or of the HBD's ERR block: under R53 its data goes with RESET_STUCK, and nothing changes (R51). -/
def State.accessHk (s : State) (lane addr : Nat) (act : State → Rep) : State :=
  s.atStage lane addr (fun t =>
    if t.hk.stuck then t.finish lane addr Stat.resetStuck (if (act t).status = Stat.ok then (act t).data else 0)
    else t.execute lane addr act)

/-- A NOP answers OK with DATA zero, whatever its ADDR names (R308). -/
def State.accessNop (s : State) (lane addr : Nat) : State :=
  s.atStage lane addr (fun t => t.finish lane addr (if t.hk.stuck then Stat.resetStuck else Stat.ok) 0)

/-- A write request: BE = 0 is malformed (R308). -/
def State.accessW (s : State) (lane addr : Nat) (be : BitVec 4) (act : State → Rep) : State :=
  s.access lane addr (fun t => if be = 0 then .no Stat.badFormat t else act t)

/-! ### Reserved slots -/

/-- The two units of a response (R306). -/
def respUnits (r : Resp) : W64 × W64 :=
  (withUnitCrc (rec64 [(0xA, 4), (r.status, 4), (r.seq, 16), (r.addr, 24), (0, 16)]),
   withUnitCrc (rec64 [(0xB, 4), (0, 4), (r.seq % 256, 8), (r.data.toNat, 32), (0, 16)]))

/-- Drop the first response of a lane. -/
def dropResp (n : Nat) : List (Nat × Resp) → List (Nat × Resp)
  | [] => []
  | (k, r) :: t => if k = n then t else (k, r) :: dropResp n t

/-- Replace the first response of a lane. -/
def swapResp (n : Nat) (x : Resp) : List (Nat × Resp) → List (Nat × Resp)
  | [] => []
  | (k, r) :: t => if k = n then (k, x) :: t else (k, r) :: swapResp n x t

/-- The SLOT_IDLE unit that a lane sends in a reserved slot with no unit waiting: a LIMB announces itself on its peer lanes
(R292, R294). -/
def State.slotIdle (s : State) (n : Nat) : W64 :=
  if s.role = .limb ∧ s.laneRole n = 3 then
    withUnitCrc (rec64 [(8, 4), (1, 1), (s.source, 3), (bits (Sparse.get 0 s.nvd.words (0x20000 / 8)) 31 0, 32),
      (0, 8), (0, 16)])
  else withUnitCrc (rec64 [(8, 4), (0, 60)])

/-- `k` reserved slots of a lane with no unit waiting. -/
def State.sendIdles (s : State) (n k : Nat) : State :=
  { s with out := s.out ++ List.replicate k (Out.unit n (s.slotIdle n)) }

/-- The position of a lane's first response in its queue. -/
def State.respPos (s : State) (n : Nat) : Nat := ((s.respLanes (s.respQueue n)).takeWhile (fun k => k != n)).length

/-- The response that a lane sends next, as it is read from its queue: an uncorrectable entry goes as UNCORRECTABLE, and the
cache keeps that response (R347). -/
def State.readResp (s : State) (n : Nat) (r : Resp) : Resp × State :=
  let m := s.memRead .hbd 0x03 (s.pqWord (s.respQueue n) (s.respPos n))
  let r' : Resp := if m.1 then r else ⟨Stat.uncorrectable, r.seq, r.addr, 0⟩
  let l := m.2.lane n
  let t := m.2.setLane n { l with cache := l.cache.map (fun x => if x.seq = r.seq then r' else x) }
  (r', { t with resp := swapResp n r' t.resp })

/-- The first response of a lane leaves its queue. -/
def State.dropFirst (s : State) (n : Nat) : State :=
  let t := s.pqTaken (s.respQueue n) (s.respPos n)
  { t with resp := dropResp n s.resp }

/-- A unit leaves in the next reserved slot of a lane, in which the lane then stands (R289). -/
def State.unitOut (s : State) (n : Nat) (u : W64) : State :=
  ({ s with out := s.out ++ [Out.unit n u] }).countLane Reg.LK_LANE_TX_UNITS n 1

/-- What a reserved slot of a lane carries (R294): the second unit of a response, with which the response leaves its queue, the
first unit of the next response, or SLOT_IDLE. -/
def State.slotUnit (s : State) (n : Nat) : State :=
  match (s.lane n).half with
  | some u =>
    let t := s.setLane n { s.lane n with half := none }
    (t.dropFirst n).unitOut n u
  | none =>
    match s.resp.find? (fun e => e.1 == n) with
    | some (_, r) =>
      if s.pathOpen n then
        let x := s.readResp n r
        let us := respUnits x.1
        (x.2.setLane n { x.2.lane n with half := some us.2 }).unitOut n us.1
      else s.sendIdles n 1
    | none => s.sendIdles n 1

/-- `k` reserved slots of a lane. -/
def State.slotUnits (n : Nat) : Nat → State → State
  | 0, s => s
  | k + 1, s => State.slotUnits n k (s.slotUnit n)

/-- `k` frame blocks go out on a lane, back to back from its next slot on: a frame that reaches the reserved slot resumes in the
next one (R289). -/
def State.passSlots (s : State) (n k : Nat) : State :=
  let at' := (s.lane n).txSlot + k
  State.slotUnits n (at' / 31) (s.setLane n { s.lane n with txSlot := at' % 31 })

/-- A unit waits for the next reserved slot of a lane and leaves in it: the lane stands behind that slot (R289, R294). -/
def State.sendInSlot (s : State) (n : Nat) (u : W64) : State :=
  (s.setLane n { s.lane n with txSlot := 0 }).unitOut n u

end Sys2Proof.Machine
end

