-- ==== Sys2Proof/Machine/TimeBase.lean ====
section
/-! DEFINITION. The time base (R254 to R267): its states, the servo, holdover, and the meanings of the PTP commands.
Times and corrections are in 2^-16 ns (1 ns = 65,536, one fine LSB = 100), so no operand is rounded before R261 does. -/

namespace Sys2Proof.Machine

/-! ### Latencies and fine time -/

/-- The live calibration entry of a lane (R287); the minimal link takes neutral settings (R276). -/
def State.laneCal (s : State) (n : Nat) : W64 :=
  if s.hk.mode = .boot ∨ (s.hk.mode = .load ∧ s.hk.target = some .boot) then 0 else Sparse.get 0 s.cal.lane n

/-- Bits per tick of a rate code (R268). -/
def bitsPerTick : Nat → Nat
  | 0 => 32 | 1 => 64 | _ => 88

/-- rx_fix and tx_fix (R281). -/
def rxFix : Nat → Int
  | 0 => 9216 | 1 => 6656 | _ => 5632
def txFix : Nat → Int
  | 0 => 7168 | 1 => 5120 | _ => 4352

/-- The receive latency of a lane in fine LSB (R281). -/
def State.rxLatency (s : State) (n : Nat) : Int :=
  let l := s.lane n
  let b := bitsPerTick l.rate
  rxFix l.rate + ((l.slip * 2048 + b / 2) / b : Nat) + signedW 8 (bits (s.laneCal n) 11 4)

/-- The transmit latency of a lane in fine LSB (R281). -/
def State.txLatency (s : State) (n : Nat) : Int := txFix (s.lane n).rate + signedW 8 (bits (s.laneCal n) 19 12)

/-- DT in fine LSB (R254, R255). -/
def State.dtFine (s : State) : Int :=
  (s.tb.sec : Int) * 655360000000 + ((s.tb.ns * 2 ^ 32 + s.tb.frac) / 6553600 : Nat)

/-- `t2` of a TS frame in 2^-16 ns: its deserializer instant, `fine` fine LSB into the present tick, less the timing lane's
receive latency (R261, R281). -/
def State.arrival (s : State) (fine : Nat) : Int := (s.dtFine + fine - s.rxLatency 0) * 100

/-- `t3` of a TS frame in 2^-16 ns: its serializer instant and the timing lane's transmit latency (R261, R281). -/
def State.departure (s : State) (fine : Nat) : Int := (s.dtFine + fine + s.txLatency 0) * 100

/-! ### Events and states -/

/-- An entry of R267. -/
def State.tsEntry (s : State) (ty cause detail : Nat) : State :=
  s.pqPush 10 (rec64 [(ty, 4), (s.tb.state.code, 2), (0, 2), (cause, 8), (detail, 48)])

/-- A change in fine LSB as R267 writes it: 48-bit two's complement, saturated. -/
def sat48 (d : Int) : Nat := patternW 48 (max (-(2 ^ 47)) (min (2 ^ 47 - 1) d))

/-- Does the present mode permit a step (R262). -/
def State.stepOk (s : State) : Bool :=
  s.hk.mode == .simmer || s.hk.mode == .test || (s.hk.mode == .safe && s.hk.safeDrained)

/-- Ticks in a second. -/
abbrev ticksPerSec : Nat := 320000000

/-- HOLD_VALID on entry to HOLDOVER (R265). -/
def State.holdValidNow (s : State) : Bool :=
  s.tb.state == .locked &&
  (match s.tb.lockedAt with
   | some t => decide (1000 * ticksPerSec ≤ s.tb.tn - t)
   | none => false) &&
  s.bit Reg.HK_CFG_INFO 10 &&
  (match s.tb.jumpAt with
   | some t => decide ((100 * ticksPerSec : Nat) ≤ (s.tb.tn : Int) - t)
   | none => true)

/-- Does the timing lane carry TS frames now: also in the step out of LOAD, once the time base has
started (R36, R258), DEDUCED in log entry 177. -/
def State.tsOpen (s : State) : Bool :=
  s.laneUp 0 && (s.aclkRuns || (s.hk.mode == .load && (s.hk.target == some .simmer || s.hk.target == some .safe)))

/-- The module's own port identity: the device serial and portNumber 1 (R259). -/
def State.ownPort (s : State) : Nat := (Sparse.get 0 s.nvd.words (0x20000 / 8)).toNat * 65536 + 1

/-- The words of a Delay_Req's TS frame (R291, R303): an IEEE 1588 message of 44 bytes with version 2.1, the module's port
identity, the sequenceId and the originTimestamp, its correctionField zero (R261). -/
def State.dreqWords (s : State) (seq ns : Nat) : List W64 :=
  let sec := ns / 1000000000 % 2 ^ 48
  let head := rec64 [(4, 4), (6, 12), (0, 48)]
  let body := [rec64 [(1, 8), (0x12, 8), (44, 16), (s.fld Reg.TB_PTP_CFG 31 24, 8), (0, 24)], rec64 [(0, 64)],
    rec64 [(0, 32), (s.ownPort / 2 ^ 48, 32)], rec64 [(s.ownPort % 2 ^ 48, 48), (seq, 16)],
    rec64 [(1, 8), (0x7F, 8), (sec, 48)], rec64 [(ns % 1000000000, 32), (0, 32)]]
  (head :: body) ++ [rec64 [(6, 4), (0, 28), ((crcWords (head :: body)).toNat, 32)]]

/-- A Delay_Req leaves at `t3` (R259, R261): t3 is kept whole, and the originTimestamp is it rounded down to 1 ns. -/
def State.sendDreq (s : State) (t3 : Int) : State :=
  let q := (s.tb.dreqSeq + 1) % 65536
  let ns := (t3 / 65536).toNat
  (({ s with
    tb := { s.tb with dreqSeq := q, t3 := some t3, dreqFirst := false },
    out := s.out ++ [Out.ts 0 q ns 0 (s.dreqWords q ns)] }).passSlots 0 (s.dreqWords q ns).length).countLane
      Reg.LK_LANE_TX_FRAMES 0 1

/-- The first Delay_Req leaves when ACQUIRE is entered, or as soon as lane 0 carries frames after that (R259); its serializer
instant within the tick is open. -/
def State.firstDreq (s : State) : State :=
  if s.tb.dreqFirst ∧ s.tsOpen then s.draw.2.sendDreq (s.departure (s.draw.1 % 2048)) else s

/-- A state change: its entry, TB_EVT.STATE, and what entry to the new state sets (R258, R259, R265). -/
def State.tbGo (s : State) (t : TbState) (cause : Nat) : State :=
  if s.tb.state = t then s
  else
    let hv := t == .holdover && s.holdValidNow
    let b : Tb := { s.tb with
      state := t, inLock := 0, holdValid := hv,
      everLocked := s.tb.everLocked || t == .locked, dreqFirst := t == .acquire,
      lockedAt := if t = .locked then some s.tb.tn else none }
    ((({ s with tb := b }).tsEntry 1 cause s.tb.sec).event Reg.TB_EVT [0]).firstDreq

/-! ### Holdover -/

/-- An XO entry of the live calibration set (R264). -/
def State.xo (s : State) (i : Nat) : W64 := Sparse.get 0 s.cal.xo i

/-- An XO entry as a signed value. -/
def State.xoI (s : State) (i : Nat) : Int := signedW 64 (s.xo i).toNat

/-- The unit of the logarithms below: 2^-160. -/
abbrev lnUnit : Nat := 2 ^ 160

/-- `2 atanh z` for z = a/b at most 1/3, in units of 2^-160, by its series. -/
def lnSeries (a b : Nat) : Nat :=
  let z := a * lnUnit / b
  2 * ((List.range 56).foldl (fun (acc : Nat × Nat) j =>
    (acc.1 + acc.2 / (2 * j + 1), acc.2 * z / lnUnit * z / lnUnit)) (0, z)).1

/-- `ln (p / q)` in units of 2^-160, for p at least q and q not 0: the powers of two in it and the rest. -/
def lnRatio (p q : Nat) : Nat :=
  let k := (p / q).log2
  k * lnSeries 1 3 + lnSeries (p - q * 2 ^ k) (p + q * 2 ^ k)

/-- `ln (1 + dt / tau)` in units of 2^-160, where it exists. -/
def lnOnePlus (dt : Int) (tau : Nat) : Int :=
  if 0 ≤ dt then lnRatio (tau + dt.toNat) tau else -(lnRatio tau (tau - dt.natAbs) : Nat)

/-- The ageing term of R264 in 10^-15, `age_a * ln(1 + (t - ref) / tau)`: the whole number below or above it, as the spec states
no rounding; an open value where no logarithm exists. TAU = 0 removes the term. -/
def ageing (a dt : Int) (tau : Nat) : Int :=
  if tau = 0 then 0
  else if dt ≤ -(tau : Int) then Config.ageNoLog a dt tau
  else
    let v := a * lnOnePlus dt tau
    v / lnUnit + (if v % lnUnit ≠ 0 ∧ Config.ageUp a dt tau then 1 else 0)

/-- The model's ageing term at a time, with a coefficient. -/
def State.xoAge (s : State) (a sec : Int) : Int := ageing a (sec - ((s.xo 0).toNat : Int)) (s.xo 3).toNat

/-- `y(t)` of R264 in 10^-15, at a temperature in mK. -/
def State.xoY (s : State) (tempMilliK : Int) : Int :=
  let th := tempMilliK - s.xoI 4
  s.xoI 1 + s.xoAge (s.xoI 2) s.tb.sec +
    roundDiv (s.xoI 5 * th * 1000000 + s.xoI 6 * th * th * 1000 + s.xoI 7 * th * th * th) 1000000000

/-- The XO temperature in mK, as the mean of its samples of the last 1 s (R264); an open value where none of them is valid
(log entry 181, DESIGN CHOICE). -/
def State.xoTemp (s : State) : Int × State :=
  let ts := s.tb.temps.filter (fun t => t != -32768)
  if ts = [] then ((s.draw.1 : Int), s.draw.2) else (roundDiv (ts.sum * 125) (2 * ts.length), s)

/-- `f_L` of R264 as TB_FREQ_HOLD shows it: the mean of the lock-tracking words of the last 100 s; an open value where none has
been taken. -/
def State.learned (s : State) : Int × State :=
  if s.tb.track = [] then ((s.draw.1 : Int), s.draw.2)
  else (roundDiv s.tb.track.sum s.tb.track.length, s)

/-- ACLK goes on from the XO at the word `f_L`, from which R264 corrects it. -/
def State.toXo (s : State) : State :=
  let d := s.learned
  let f : W32 := BitVec.ofNat 32 (patternW 32 d.1)
  let x := d.2.xoTemp
  let t := (x.2.setReg Reg.TB_FREQ_HOLD f).setRegAt (instKey Reg.TB_FREQ_HOLD 0) f
  { t with tb := { t.tb with srcXo := true, slewing := none, holdY := t.xoY x.1 } }

/-- Entry to HOLDOVER by LOS or LOL (R264). -/
def State.enterHoldover (s : State) (cause : Nat) : State := (s.tbGo .holdover cause).toXo

/-- The timing lane loses signal (cause 1) or lock (cause 2): R258. -/
def State.tbLaneLost (s : State) (cause : Nat) : State :=
  match s.tb.state with
  | .freerun => s
  | .acquire =>
    if s.tb.everLocked then s.enterHoldover cause
    else ({ s with tb := { s.tb with srcXo := true, slewing := none, stepPending := false } }).tbGo .freerun cause
  | .locked => s.enterHoldover cause
  | .holdover => if s.tb.srcXo then s else s.toXo

/-- The timing lane reaches block lock: FREERUN to ACQUIRE, outside BOOT and LOAD but for the step out of LOAD (R258). -/
def State.tbLaneLock (s : State) : State :=
  if s.hk.mode = .boot ∨ (s.hk.mode = .load ∧ (s.hk.target = none ∨ s.hk.target = some .boot)) then s
  else
    let s1 := { s with tb := { s.tb with srcXo := false, track := if s.tb.srcXo then [] else s.tb.track } }
    if s.tb.state = .freerun then s1.tbGo .acquire 0 else s1

/-! ### Filters and the servo -/

/-- LOCK, UNLOCK and SLEW_LIM as applied (R262). -/
def State.tbThr (s : State) : Nat × Nat × Nat :=
  let lock := s.fld Reg.TB_LOCK_THR 15 0
  let unlock := max lock (s.fld Reg.TB_LOCK_THR 31 16)
  (lock, unlock, max unlock (s.reg Reg.TB_SLEW_LIM).toNat)

/-- The filter length 2^LOG_AVG (R261). -/
def State.avgLen (s : State) : Nat := 2 ^ s.fld Reg.TB_SERVO 2 0

/-- The last `n` of a list. -/
def lastN {α : Type} (n : Nat) (l : List α) : List α := l.drop (l.length - n)

/-- The sum of fractions. -/
def qsum (l : List (Int × Nat)) : Int × Nat :=
  l.foldl (fun a b => if a.2 = b.2 then (a.1 + b.1, a.2) else (a.1 * b.2 + b.1 * a.2, a.2 * b.2)) (0, 1)

/-- The mean of fractions in 2^-16 ns, rounded to a fine LSB (R261). -/
def qmeanFine (l : List (Int × Nat)) : Int := let q := qsum l; roundDiv q.1 (q.2 * l.length * 100)

/-- A step of time by an offset in fine LSB (R262): the whole ticks leave TN, DT follows it, the remainder moves ACLK's
phase; the offset filter empties, a Sync that waits for its Follow_Up included. The time of the last phase jump moves with TN, so
that the time since it stands (R265). -/
def State.timeStep (s : State) (off : Int) : State :=
  let s1 := s.loadTime (((s.tb.tn : Int) - off / 2048).toNat)
  let s2 := { s1 with tb := { s1.tb with
    stepPending := false, slewing := none, offs := [], off := none, fwd := none, twoStep := none, inLock := 0,
    jumpAt := s.tb.jumpAt.map (fun t => t + (s1.tb.tn : Int) - s.tb.tn) } }
  ((s2.count Reg.TB_STEP_CNT 1).event Reg.TB_EVT [1]).tsEntry 2 0 (sat48 (-off))

/-- Slew by an offset; no step waits any longer (R262). -/
def State.slew (s : State) (off : Int) : State :=
  { s with tb := { s.tb with stepPending := false, slewing := if off = 0 then s.tb.slewing else some off } }

/-- Hold a step for a mode that permits it (R262). -/
def State.holdStep (s : State) : State :=
  { s with tb := { s.tb with stepPending := true, slewing := none } }

/-- A step made from HOLDOVER by way of ACQUIRE (R262): cause 5 where the step was pending (R267). -/
def State.stepFromHoldover (s : State) (off : Int) : State :=
  (s.tbGo .acquire (if s.tb.stepPending then 5 else 0)).timeStep off

/-- Count a filtered offset within LOCK towards lock, and lock (R258). -/
def State.towardsLock (s : State) : State :=
  if s.tb.inLock + 1 ≥ s.avgLen ∧ s.tb.gmOk then s.tbGo .locked 3
  else { s with tb := { s.tb with inLock := s.tb.inLock + 1 } }

/-- The servo's action on a filtered offset: the table of R262. -/
def State.servo (s : State) (off : Int) : State :=
  let thr := s.tbThr
  let a := off.natAbs
  match s.tb.state with
  | .freerun => s
  | .acquire =>
    if a ≤ thr.1 then (s.slew off).towardsLock
    else
      let s := { s with tb := { s.tb with inLock := 0 } }
      if s.stepOk then s.timeStep off
      else if a ≤ thr.2.2 then s.slew off
      else s.holdStep
  | .locked =>
    if a ≤ thr.2.1 then s.slew off
    else
      let s := s.event Reg.TB_EVT [4]
      if s.stepOk then (s.tbGo .acquire 4).timeStep off
      else if a ≤ thr.2.2 then (s.tbGo .holdover 4).slew off
      else (s.holdStep).tbGo .holdover 5
  | .holdover =>
    if s.tb.srcXo then s
    else if a ≤ thr.1 then
      if s.tb.slewing = none then ({ s with tb := { s.tb with stepPending := false } }).tbGo .locked 3 else s
    else if s.stepOk then s.stepFromHoldover off
    else if a ≤ thr.2.2 then s.slew off
    else s.holdStep

/-- An accepted Sync sample: `fwd`, the filtered offset where a filtered path delay exists, and the servo (R261). -/
def State.syncSample (s : State) (seqId : Nat) (fwd : Int) : State :=
  let s1 := (({ s with tb := { s.tb with
    lastSync := some seqId, stale := false, twoStep := none, fwd := some fwd } }).count Reg.TB_SYNC_CNT 1)
  if s1.tb.delays = [] then s1
  else
    let n := 2 * s1.tb.delays.length
    let asym := signedW 32 (s1.reg Reg.TB_ASYM).toNat * 100
    let smp : Int × Nat := ((fwd - asym) * n - s1.tb.delays.foldl (· + ·) 0, n)
    let offs := lastN s1.avgLen (s1.tb.offs ++ [smp])
    let off := qmeanFine offs
    (({ s1 with tb := { s1.tb with offs := offs, off := some off } }).setReg Reg.TB_OFFSET (BitVec.ofNat 32 (patternW 32 off))).servo off

/-! ### Which messages are accepted -/

/-- The tests of R259 on a message: a type that the module runs, and the header. -/
def State.ptpHeader (s : State) (m : PtpMsg) : Bool :=
  !m.other && m.version == 2 && m.domain == s.fld Reg.TB_PTP_CFG 31 24 && m.majorSdo == 0 && m.minorSdo == 0

/-- A timing message from the master port, while the grandmaster check passes (R260). -/
def State.ptpMaster (s : State) (m : PtpMsg) : Bool := s.ptpHeader m && s.tb.gmOk && s.tb.master == some m.port

/-- Is a sequenceId later than the last accepted one, if there is one. -/
def laterSeq (last : Option Nat) (x : Nat) : Bool :=
  match last with
  | some y => decide (sdiffW 16 x y > 0)
  | none => true

/-- Discard a message (R259). -/
def State.ptpDiscard (s : State) : State := s.count Reg.TB_DISCARD_CNT 1

/-- A TS frame that the timing lane takes, counted (R294). -/
def State.takeTs (s : State) (go : State → State) : State :=
  if s.tsOpen then go (s.countLane Reg.LK_LANE_RX_FRAMES 0 1) else s

/-! ### Meanings -/

/-- R261: a Sync, whose block reaches the deserializer at `t2`. One-step it forms a sample at once;
two-step it waits for its Follow_Up (R259). -/
def execPtpSync (m : PtpMsg) (twoStep : Bool) (t1 corr : Int) (t2 : Instant) (s : State) : Outcm :=
  .next ((s.advanceTo t2.now).takeTs (fun s =>
    if s.ptpMaster m ∧ -7 ≤ m.logInt ∧ m.logInt ≤ 0 ∧ laterSeq s.tb.lastSync m.seqId then
      if twoStep then { s with tb := { s.tb with twoStep := some (m.seqId, s.arrival t2.fine, corr) } }
      else s.syncSample m.seqId (s.arrival t2.fine - t1 - corr)
    else s.ptpDiscard))

/-- R259: a Follow_Up of the same sequenceId completes the sample of a two-step Sync. -/
def execPtpFollowUp (m : PtpMsg) (t1 corr : Int) (s : State) : Outcm :=
  .next (s.takeTs (fun s =>
    if s.ptpMaster m then
      match s.tb.twoStep with
      | some (q, t2, c) => if q = m.seqId then s.syncSample q (t2 - t1 - (c + corr)) else s.ptpDiscard
      | none => s.ptpDiscard
    else s.ptpDiscard))

/-- R259: no Follow_Up within one Sync interval; the sample is dropped. -/
def execFollowUpTimeout (s : State) : Outcm := .next { s with tb := { s.tb with twoStep := none } }

/-- R261: a Delay_Resp to the last Delay_Req gives a path-delay sample. -/
def execPtpDelayResp (m : PtpMsg) (reqPort : Nat) (t4 corr : Int) (s : State) : Outcm :=
  .next (s.takeTs (fun s =>
    if s.ptpMaster m ∧ reqPort = s.ownPort ∧ m.seqId = s.tb.dreqSeq then
      match s.tb.t3 with
      | none => s.ptpDiscard
      | some t3 =>
        let s1 := s.count Reg.TB_DRESP_CNT 1
        match s.tb.fwd with
        | none => s1
        | some fwd =>
          let ds := lastN s.avgLen (s.tb.delays ++ [fwd + (t4 - t3 - corr)])
          ({ s1 with tb := { s1.tb with delays := ds } }).setReg Reg.TB_PATH_DELAY
            (BitVec.ofNat 32 (patternW 32 (roundDiv (ds.foldl (· + ·) 0) (2 * ds.length * 100))))
    else s.ptpDiscard))

/-- TB_GM_ID (R260). -/
def State.gmId (s : State) : Nat := (s.reg Reg.TB_GM_ID_HI).toNat * 2 ^ 32 + (s.reg Reg.TB_GM_ID_LO).toNat

/-- R260: an Announce passes the grandmaster check and fixes the master port, or fails it. -/
def execPtpAnnounce (m : PtpMsg) (gmId : W64) (ptpScale utcValid : Bool) (utc : BitVec 16) (s : State) : Outcm :=
  .next (s.takeTs (fun s =>
    if !s.ptpHeader m then s.ptpDiscard
    else if gmId.toNat = s.gmId ∧ ptpScale ∧ laterSeq s.tb.lastAnn m.seqId then
      ({ s with tb := { s.tb with gmOk := true, master := some m.port, lastAnn := some m.seqId } }).setReg
        Reg.TB_UTC_OFFSET (word32 [(b2n utcValid, 16), (utc.toNat, 16)])
    else
      ((s.count Reg.TB_GM_MISMATCH_CNT 1).event Reg.TB_EVT [2]).tsEntry 3 0 (gmId.toNat % 2 ^ 48)))

/-- R259, R261: a Delay_Req leaves the serializer at `t3`. -/
def execDelayReqSend (t3 : Instant) (s : State) : Outcm :=
  let t := s.advanceTo t3.now
  .next (if !t.tsOpen ∨ t.tb.state = .freerun then t else t.sendDreq (t.departure t3.fine))

/-- R260: no passing Announce within ANN_TMO intervals; the check fails. -/
def execAnnounceTimeout (s : State) : Outcm := .next { s with tb := { s.tb with gmOk := false } }

/-- R258: no Sync accepted within 4 intervals. -/
def execPtpStaleExpire (s : State) : Outcm := .next { s with tb := { s.tb with stale := true } }

/-- R267: a slew ends and posts SLEW_DONE. -/
def execSlewDone (s : State) : Outcm :=
  .next (match s.tb.slewing with
    | some _ => ({ s with tb := { s.tb with slewing := none } }).tsEntry 5 0 s.tb.sec
    | none => s)

/-- R262: a pending step in a mode that permits it, with the timing lane locked and the filtered offset known (R256, R258); from
HOLDOVER by way of ACQUIRE with cause 5. -/
def execPendingStep (s : State) : Outcm :=
  .next (match s.tb.off with
    | some off =>
      if s.tb.stepPending ∧ s.stepOk ∧ !s.tb.srcXo then
        if s.tb.state = .holdover then s.stepFromHoldover off else s.timeStep off
      else s
    | none => s)

/-- R256: an uncommanded phase change of more than 8 fine LSB; the filtered offset is unknown from here and rebuilt from samples
taken after it, and nothing is slewed or counted on the old one. -/
def execPhaseJump (delta : Int) (s : State) : Outcm :=
  .next (if delta.natAbs > 8 then
      ((({ s with tb := { s.tb with
        jumpAt := some s.tb.tn, offs := [], off := none, twoStep := none, inLock := 0, slewing := none } }).count
        Reg.TB_PHJ_CNT 1).event
        Reg.TB_EVT [3]).tsEntry 4 0 (sat48 delta)
    else s)

/-- R264: the update of the XO frequency word in holdover; TB_FREQ_HOLD shows f / f_nominal − 1 in 10^-12. -/
def execHoldoverUpdate (tempMilliK : Int) (s : State) : Outcm :=
  .next (if s.tb.state = .holdover ∧ s.tb.srcXo then
      let fl := signedW 32 (s.regAt (instKey Reg.TB_FREQ_HOLD 0)).toNat
      let dy := s.xoY tempMilliK - s.tb.holdY
      s.setReg Reg.TB_FREQ_HOLD (BitVec.ofNat 32 (patternW 32
        (roundDiv (fl * 10 ^ 15 - dy * 10 ^ 12 - fl * dy) (10 ^ 15))))
    else s)

/-- R255: a write of TB_INC takes effect in TEST; in every other mode it is answered NOT_READY. -/
def State.tbIncWrite (s : State) (high : Bool) (data : W32) (be : BitVec 4) : Rep :=
  let a := if high then Reg.TB_INC_HI else Reg.TB_INC_LO
  let v := mergeBE (s.reg a) data be
  s.guarded false (s.lockHit a v) .writeCfg (s.hk.mode != .test) (s.storeFields a v)

def execTbIncWrite (lane : Lane) (high : Bool) (data : W32) (be : BitVec 4) (s : State) : Outcm :=
  .next (s.accessW lane (if high then Reg.TB_INC_HI else Reg.TB_INC_LO) be (fun t => t.tbIncWrite high data be))

end Sys2Proof.Machine
end

