-- ==== Sys2Proof/WellFormed.lean ====
section
/-! DEFINITION. Which operands a hardware event can carry: the widths and list lengths that the spec gives each outside
value. A command that breaks them is no event of this part. -/

namespace Sys2Proof

/-- A sum code is at most 4 × 384, and is at least 384 when a line read 384 (R107, R108). -/
def Edge.wf (e : Edge) : Bool := decide (e.s ≤ 1536) && (!e.full || decide (384 ≤ e.s))

/-- Does a die carry an ERR block (R413). -/
def Die.hasErr : Die → Bool
  | .sfd => false
  | _ => true

/-- An eye is measured at 127 positions of 2^18 bits each (R279). -/
def Eye.wf (e : Eye) : Bool := decide (e.length = 127) && e.all (fun k => decide (k ≤ 262144))

/-- A bring-up finds one of three rates, sixteen eyes in each sweep, a SLIP of at most 65, and ends at a step of R273. -/
def BringUp.wf (r : BringUp) : Bool :=
  decide (r.rate ≤ 2) && decide (r.eyes.length = 16) && r.eyes.all Eye.wf && decide (r.again.length = 16) &&
    r.again.all Eye.wf && decide (r.slip ≤ 65) && decide (2 ≤ r.upTo ∧ r.upTo ≤ 7)

/-- A planner cycle reads 40 ring oscillators, 6 temperatures and 4 dose sensors (R379). -/
def AgeReadings.wf (r : AgeReadings) : Bool :=
  decide (r.ro.length = 40) && decide (r.temp.length = 6) && decide (r.dose.length = 4)

/-- A housekeeping sample holds 6 temperatures, 4 core supplies and 16-bit readings (R416). -/
def HkSample.wf (x : HkSample) : Bool :=
  decide (x.temps.length = 6) && decide (x.vmon.length = 4) && decide (x.vin < 65536) && decide (x.iin < 65536) &&
    decide (x.pin < 65536)

/-- Can a hardware event carry these operands. The first unit of a request is an SC_REQ (TYPE 0x9, R290). -/
def Instr.wf : Instr → Bool
  | .leadingCrossing _ e => e.wf
  | .highCrossing _ e => e.wf
  | .trailingCrossing _ e => e.wf
  | .fillLaunch codes => codes.all (fun c => decide (c.1 < 4096) && (Edge.mk 0 c.2.1 c.2.2).wf)
  | .adcConversionEnd _ raw => decide (raw.length = 64) && raw.all (fun v => decide (v < 4096))
  | .blindBringup x => x.run.wf
  | .losClear _ r => r.wf
  | .fomMeasure _ e => e.wf
  | .adaptCycle _ e eMinus ePlus => e.wf && eMinus.wf && ePlus.wf
  | .scrubRead die _ _ _ _ => die.hasErr
  | .errRepair _ die _ => die.hasErr
  | .writeRaw _ die _ => die.hasErr
  | .readRaw _ die _ => die.hasErr
  | .voteFlip _ die _ => die.hasErr
  | .biasMonitorSample _ _ v i => decide (v < 65536) && decide (i < 65536)
  | .plannerCycle r => r.wf
  | .hkMonitorSample x => x.wf
  | .pgLoss die => die.hasErr
  | .scNop _ req _ => bits req 63 60 == 9
  | .scResync _ req _ => bits req 63 60 == 9
  | _ => true

end Sys2Proof
end

