-- ==== Sys2Proof/Machine/Lanes.lean ====
section
/-! DEFINITION. The serial lanes (R268 to R288): bring-up, drop, equaliser, PRBS test, and the meanings of their
commands. -/

namespace Sys2Proof.Machine

/-! ### Entries and rates -/

/-- The highest rate that RATE_CAP allows. -/
def capRate (e : W64) : Nat :=
  match bits e 27 26 with
  | 0 => 2 | 1 => 1 | _ => 0

/-- The applied rate: the lower of RATE, the rate cap, and a rate kept until the next LOAD (R274). -/
def State.appliedRate (s : State) (n : Nat) : Nat :=
  let r := min (s.fld (laneCfg n) 29 28) (capRate (s.laneCal n))
  let l := s.lane n
  if n = 0 ∨ s.hk.mode = .boot then 0 else if l.cap = 0 then r else min r (l.cap - 1)

/-- GOOD, LOW and FAIL as applied (R279). -/
def State.fomThr (s : State) : Nat × Nat × Nat :=
  let good := s.fld Reg.LN_FOM_THR 6 0
  let low := min good (s.fld Reg.LN_FOM_THR 14 8)
  (good, low, min low (s.fld Reg.LN_FOM_THR 22 16))

/-- The SIMMER lane: the lowest UPLINK lane, or in a LIMB the lowest PEER lane (R270). -/
def State.simmerLane (s : State) : Option Nat :=
  (List.range 32).find? (fun n => s.laneRole n == (if s.role = .limb then 3 else 2))

/-! ### Bring-up and drop -/

/-- The candidates of B4 (R277). -/
def ctleCandidates (e : W64) : List Nat :=
  let base := bits e 23 20
  if bitOf e 31 then (List.range 16).filter (fun c => decide (base ≤ c + 3 ∧ c ≤ base + 3)) else List.range 16

/-- A monitor position counts as open with at most one disagreement in 2^18 bits (R279). -/
def openAt (e : Eye) (k : Nat) : Bool := match e[k]? with
  | some d => decide (d ≤ 1)
  | none => false

/-- The edge of one side that the binary search over its 63 positions finds, as a distance from p = 0: `f d` tells whether the
position `d` away is open (R279). -/
def eyeEdge (f : Nat → Bool) : Nat :=
  [32, 16, 8, 4, 2, 1].foldl (fun at' step => if f (at' + step) then at' + step else at') 0

/-- The FoM of an eye (R279): 0 where p = 0 is not open, and otherwise the positions from the left edge to the right edge. -/
def fomOf (e : Eye) : Nat :=
  if openAt e 63 then eyeEdge (fun d => openAt e (63 - d)) + eyeEdge (fun d => openAt e (63 + d)) + 1 else 0

/-- Distance of two codes. -/
def codeDist (a b : Nat) : Nat := (a - b) + (b - a)

/-- The best code: the highest FoM, ties to the nearest to CTLE_BASE, then the lower (R277). -/
def bestCode (e : W64) (foms : List Nat) : Nat :=
  let base := bits e 23 20
  (ctleCandidates e).foldl (fun best c =>
    let fb := nth 0 foms best
    let fc := nth 0 foms c
    if fc > fb ∨ (fc = fb ∧ codeDist c base < codeDist best base) then c else best)
    ((ctleCandidates e).headD 0)

/-- B4 (R277): the code with its FoM, and whether the sweep was repeated because the first one stayed below FAIL; the best of both
sweeps then goes on. -/
def sweep (e : W64) (failThr : Nat) (eyes again : List Eye) : Nat × Nat × Bool :=
  let f1 := eyes.map fomOf
  let c1 := bestCode e f1
  if nth 0 f1 c1 < failThr then
    let f2 := (again.map fomOf).mapIdx (fun i f => max f (nth 0 f1 i))
    (bestCode e f2, nth 0 f2 (bestCode e f2), true)
  else (c1, nth 0 f1 c1, false)

/-- Is a block a slot unit: sync header 10 and a unit type (R290). -/
def isUnitBlock (b : LineBlock) : Bool := b.sync == 2 && decide (8 ≤ bits b.word 63 60 ∧ bits b.word 63 60 ≤ 14)

/-- ULP alignment (R289): after 8 consecutive periods of 32 blocks in which a place holds units, that place is slot 31. The
answer is the slot of the block that comes after the last one given. -/
def alignSlot (bs : List LineBlock) : Option Nat :=
  let r := bs.foldl (fun (a : Nat × List Nat × Option Nat) b =>
    let p := a.1 % 32
    let c := if isUnitBlock b then nth 0 a.2.1 p + 1 else 0
    (a.1 + 1, a.2.1.set p c, match a.2.2 with
      | some q => some q
      | none => if c = 8 then some p else none)) (0, List.replicate 32 0, none)
  r.2.2.map (fun p => (r.1 + 31 - p) % 32)

/-- Is a pattern set on a lane (R284). -/
def State.patOn (s : State) (n : Nat) : Bool :=
  let w := s.regAt (instKey Reg.LN_PRBS_CFG n)
  decide (bits w 18 16 ≠ 0 ∨ bits w 14 12 ≠ 0)

/-- Block lock is gone on a lane: without lane 0's, ACLK no longer comes from it (R258, R278). -/
def State.unblock (s : State) (n cause : Nat) : State :=
  let t := s.setLane n { s.lane n with block := false }
  if n = 0 then t.tbLaneLost cause else t

/-- What a lane that is no longer UP forgets of its far end. -/
def LaneSt.cutOff (l : LaneSt) : LaneSt :=
  { l with dropped := false, ann := none, admitted := false, decided := false, rx := .start, txSlot := 0, half := none }

/-- A frame that a HEAD was receiving on a peer lane is lost: its set lacks one (R300). -/
def State.lacksFrame (s : State) (n : Nat) : State :=
  if s.role = .head ∧ s.laneRole n = 3 then
    let i := s.fld (laneCfg n) 26 24
    { s with ulp := { s.ulp with
      peers := Sparse.put Peer.empty i { Sparse.get Peer.empty s.ulp.peers i with lacks := true } s.ulp.peers } }
  else s

/-- An UP lane stops carrying frames, whatever takes it down: a frame that it was sending waits to be sent again (R297), one that
it was receiving is lacking (R300). -/
def State.framesCut (s : State) (n : Nat) : State :=
  if (s.lane n).st = 5 then
    let t := if (s.lane n).rx.frame = [] then s else s.lacksFrame n
    { t with ulp := { t.ulp with held := t.ulp.held.map (fun f => if f.lane = n ∧ f.st = 1 then { f with st := 0 } else f) } }
  else s

/-- A lane at step B1 of blind bring-up: SEARCH, transmitter running (R273); B2 is waited for where no signal is known. A lane
with a pattern set is in PRBS (R284). -/
def State.startBringUp (s : State) (n : Nat) : State :=
  let c := s.framesCut n
  let t := if (c.lane n).block then c.unblock n 2 else c
  let l := (t.lane n).cutOff
  let wait := l.los || l.waitLos || decide (l.st < 2)
  if s.patOn n then t.setLane n { l with st := 6, step := 0, bringUp := false, resume := false, waitLos := wait }
  else
    t.setLane n { l with
      st := 2, block := false, bringUp := true, resume := false, waitLos := wait, step := if wait then 1 else 2 }

/-- The lanes other than lane 0 that wait at the end of LOAD start blind bring-up (R276). -/
def State.startOthers (s : State) : State :=
  if s.hk.mode = .load ∧ (s.hk.target = some .simmer ∨ s.hk.target = some .safe) then
    ((List.range 32).filter (fun n => n != 0 && s.laneRole n != 0 && (s.lane n).st == 0)).foldl State.startBringUp s
  else s


/-- What a lane's arrival at UP sets (R273, R274, R276): settings stored, RETRAIN done. A LIMB announces itself (R292); lane 0
gives ACLK, and at the end of LOAD the other lanes start. -/
def State.laneReachesUp (s : State) (n : Nat) (l : LaneSt) : State :=
  let l' := { l.cutOff with
    st := 5, los := false, lol := false, block := true, step := 7, bringUp := false, resume := false, waitLos := false,
    stored := some (l.rate, l.ctle, l.phase, l.slip), rx := l.rx }
  let s1 := (s.setLane n l').setBit (laneCfg n) 0 false
  let s2 := if s.role = .limb ∧ s.laneRole n = 3 then s1.sendIdles n 8 else s1
  if n = 0 then s2.tbLaneLock.startOthers.firstDreq else s2

/-- A lane that was UP drops to SEARCH (R282): one resume with its stored settings is tried first, or blind bring-up where a
fall-back request waits (R275). -/
def State.laneDrop (s : State) (n : Nat) : State :=
  let l := (s.lane n).cutOff
  ((s.framesCut n).setLane n { l with
    st := 2, block := false, resume := !l.fbReq, dropped := !l.fbReq, bringUp := l.fbReq, waitLos := l.los,
    step := if l.los then 1 else if l.fbReq then 2 else 4 }).countLane Reg.LN_RETRAIN_CNT n 1

/-- A lane loses signal (cause 1) or lock (cause 2) (R258, R282): an UP lane drops, a bring-up starts again, and a resume gives way
to blind bring-up (R275), but for the one resume of a drop that has not begun; lane 0 moves the time base. -/
def State.laneLost (s : State) (n cause : Nat) : State :=
  let t := if n = 0 then s.tbLaneLost cause else s
  let l := t.lane n
  if l.st = 5 then t.laneDrop n
  else if l.st = 6 then t.setLane n { l with block := false }
  else if l.dropped then t.setLane n { l with block := false, waitLos := l.los, step := if l.los then 1 else 4 }
  else
    t.setLane n { l with
      st := 2, block := false, resume := false, bringUp := l.bringUp || l.resume, waitLos := l.los,
      step := if l.los then 1 else min l.step 2 }

/-- The next step of a bring-up fails: it begins again at B3, and a resume gives way to blind bring-up (R275). -/
def State.bringUpFails (s : State) (n : Nat) : State :=
  let t := if (s.lane n).block then s.unblock n 2 else s
  t.setLane n { t.lane n with st := 2, block := false, resume := false, dropped := false, bringUp := true, step := 2 }

/-- One step of R273 or R275, from B3 to B7, that a lane takes. -/
def State.bringUpStep (s : State) (n : Nat) (r : BringUp) (k : Nat) : State :=
  let l := { s.lane n with step := k, dropped := false }
  match k with
  | 3 =>
    let rate := min (s.appliedRate n) r.rate
    let cap := if rate < s.appliedRate n then rate + 1 else l.cap
    (s.setLane n { l with st := 3, rate := rate, ctle := 8, cap := cap, fbReq := false }).eventIf
      (decide (rate < s.fld (laneCfg n) 29 28)) (laneEvt n) [5]
  | 4 =>
    let c := sweep (s.laneCal n) s.fomThr.2.2 r.eyes r.again
    (s.setLane n { l with
      st := 4, ctle := c.1, fom := c.2.1, degraded := l.degraded || c.2.2, lowRun := 0, goodRun := 0 }).eventIf c.2.2
      (laneEvt n) [2]
  | 5 =>
    match (if l.resume then l.stored else none) with
    | some x => s.setLane n { l with st := 4, lol := false, rate := x.1, ctle := x.2.1, phase := x.2.2.1 }
    | none => s.setLane n { l with st := 4, lol := false, phase := r.phase }
  | 6 =>
    let t := s.setLane n { l with st := 4, block := true }
    if n = 0 then t.tbLaneLock else t
  | 7 =>
    match alignSlot r.line with
    | none => s.bringUpFails n
    | some slot =>
      if l.resume ∧ (l.stored.map (fun x => x.2.2.2)) ≠ some r.slip then s.startBringUp n
      else s.laneReachesUp n { l with slip := r.slip, rx := { LineRx.start with slot := slot % 31 } }
  | _ => s

/-- A bring-up with signal goes on to the step that it reaches (R273, R275): SEARCH before B4, TRAIN in B4, ALIGN after it. -/
def State.bringUpTo (s : State) (n : Nat) (r : BringUp) : State :=
  let t := [3, 4, 5, 6, 7].foldl (fun (t : State) k =>
    if (t.lane n).step + 1 = k ∧ k ≤ r.upTo ∧ ((t.lane n).bringUp ∨ (t.lane n).resume) then t.bringUpStep n r k else t) s
  if r.ok ∨ t.laneUp n then t else t.bringUpFails n

/-- Do lanes run now: outside BOOT and LOAD, on the minimal link, and in the step out of LOAD (R270); not
while the boundary-scan chain drives the pins (R437). -/
def State.lanesRun (s : State) (n : Nat) : Bool :=
  match s.hk.mode with
  | .boot => s.hk.minimalLink && n == 0
  | .load => s.hk.target != none
  | _ => s.tap.driving == []

/-- A lane is parked, keeping its settings (R270); a bring-up that RETRAIN had started ends with it (R288). -/
def State.park (s : State) (n : Nat) : State :=
  ((s.framesCut n).setLane n { (s.lane n).cutOff with
    st := 1, block := false, step := 0, bringUp := false, resume := false, waitLos := false }).setBit (laneCfg n) 0 false

/-- A lane that is down: settings and learned rate kept or not, its slow-control state kept. -/
def LaneSt.down (l : LaneSt) (all : Bool) : LaneSt :=
  if all then { LaneSt.off with e := l.e, synced := l.synced, cache := l.cache, snap := l.snap, popWait := l.popWait }
  else { l.cutOff with
    st := 0, los := false, lol := false, block := false, step := 0, bringUp := false, resume := false, waitLos := false }

/-- A PARKED lane begins to resume (R275). -/
def State.unpark (s : State) (n : Nat) : State :=
  let l := s.lane n
  if l.st = 1 ∧ s.laneRole n ≠ 0 then
    if l.stored.isSome ∧ !l.fbReq then
      s.setLane n { l with st := 2, step := 4, resume := true, los := false, lol := false }
    else s.startBringUp n
  else s

/-- Every PARKED lane begins to resume (R275). -/
def State.unparkAll (s : State) : State := (List.range 32).foldl State.unpark s

/-- All lanes but lane 0 and the SIMMER lane are parked (R270). -/
def State.parkExtra (s : State) : State :=
  ((List.range 32).filter (fun n => n != 0 && s.simmerLane != some n && s.laneRole n != 0)).foldl State.park s

/-- Every lane down (R270): settings go with it when `all`. -/
def State.lanesDown (s : State) (all : Bool) : State :=
  (List.range 32).foldl (fun t n => t.setLane n ((t.lane n).down all)) s

/-! ### Boundary scan -/

/-- The number of a die in HK_IDCODE_j. -/
def tapIdx : Die → Nat
  | .fed => 0 | .cda => 1 | .cdb => 2 | .hbd => 3 | .sfd => 4

/-- Does the TAP answer: not in BOOT, nor in LOAD before L1 ends (R434). -/
def State.tapAnswers (s : State) : Bool :=
  s.hk.v12 && s.hk.mode != .boot && !(s.hk.mode == .load && s.hk.loadResult == .none)

/-- The instruction that a die acts on: outside TEST those marked "TEST only" act as BYPASS, and so does every other code (R434). -/
def State.tapCode (s : State) (d : Die) : Nat :=
  let c := Sparse.get 1 s.tap.ir (tapIdx d)
  if c = 1 ∨ c = 2 ∨ (3 ≤ c ∧ c ≤ 7 ∧ s.hk.mode = .test) then c else 0xFF

/-- The bits last updated into the boundary cells of a die. -/
def State.cellsOf (s : State) (d : Die) : List Bool := ((s.tap.cells.find? (fun c => c.1 == tapIdx d)).map Prod.snd).getD []

/-- What the drivers of the HBD carry, TX lanes and then ring outputs: the data cell where the enable cell is set; under HIGHZ
nothing (R433, R434). -/
def State.drivePins (s : State) : State :=
  let c := s.cellsOf .hbd
  let drv := fun (i : Nat) => if s.tapCode .hbd != 7 && nth false c (i + 1) then some (nth false c i) else none
  { s with out := s.out ++ [Out.pins ((List.range 32).map (fun n => drv (2 * n)) ++ (List.range 4).map (fun j => drv (128 + 2 * j)))] }

/-- The chain takes the transmitters (R437): traffic stops on the lanes that are UP. -/
def State.tapTakes (s : State) : State :=
  (List.range 32).foldl (fun (t : State) n =>
    if (t.lane n).st = 5 then (if n = 0 then t.tbLaneLost 2 else t).laneDrop n else t) { s with tap := { s.tap with driving := [3] } }

/-- TEST is entered: an instruction marked "TEST only" that stands in the HBD acts from now on (R434). -/
def State.tapEnters (s : State) : State :=
  if decide (3 ≤ s.tapCode .hbd ∧ s.tapCode .hbd ≤ 7) && s.tap.driving == [] then s.tapTakes.drivePins else s

/-- The pins return to their functions: lanes that the chain took bring themselves up blind (R437). -/
def State.tapReleases (s : State) : State :=
  if s.tap.driving = [] then s
  else
    let t := { s with tap := { s.tap with driving := [] } }
    let u := (List.range 32).foldl (fun (v : State) n => if (v.lane n).st ≥ 2 then v.startBringUp n else v) t
    u.tbLaneLost 2

/-! ### Meanings -/

/-- R273: blind bring-up begins at B1 and waits in B2 for the far end's signal; with signal it goes on with the steps that
follow. -/
def execBlindBringup (x : LaneRun) (s : State) : Outcm :=
  if (Instr.blindBringup x).wf then
    let n := x.lane
    let l := s.lane n
    .next (if s.laneRole n = 0 ∨ !s.lanesRun n ∨ l.st = 5 ∨ l.st = 6 then s
      else if !l.bringUp ∧ !l.resume then s.startBringUp n
      else if l.waitLos then s
      else s.bringUpTo n x.run)
  else .refused (.illFormed "BLIND_BRINGUP")

/-- R273 to R277, R282: with signal present, B3 or the resume goes on, as far as this command reaches. -/
def execLosClear (n : Lane) (r : BringUp) (s : State) : Outcm :=
  if (Instr.losClear n r).wf then
    let l := { s.lane n with los := false, waitLos := false }
    .next (if s.laneRole n = 0 ∨ !s.lanesRun n then s
      else if l.st ≠ 2 ∧ l.st ≠ 3 ∧ l.st ≠ 4 then s.setLane n l
      else (s.setLane n { l with step := max l.step (if l.resume then 4 else 2) }).bringUpTo n r)
  else .refused (.illFormed "LOS_CLEAR")

/-- R282: loss of signal. -/
def execLos (n : Lane) (s : State) : Outcm :=
  let l := s.lane n
  .next (if l.st < 2 ∨ l.los then s
    else (((s.setLane n { l with los := true }).countLane Reg.LN_LOS_CNT n 1).event (laneEvt n) [0]).laneLost n 1)

/-- LOL of a lane: counted, and the lane is lost (R282). -/
def State.loseLock (s : State) (n : Nat) : State :=
  (((s.setLane n { s.lane n with lol := true }).countLane Reg.LN_LOL_CNT n 1).event (laneEvt n) [1]).laneLost n 2

/-- R282: loss of lock. -/
def execLol (n : Lane) (s : State) : Outcm :=
  .next (if (s.lane n).st < 2 ∨ (s.lane n).lol then s else s.loseLock n)

/-- A FoM of an UP lane is judged (R282), and enters the mean of the planner's cycle (R381). -/
def State.judgeFom (s : State) (n fom : Nat) : State :=
  let l := s.lane n
  let thr := s.fomThr
  let low := if fom < thr.2.1 then l.lowRun + 1 else 0
  let good := if fom ≥ thr.1 then l.goodRun + 1 else 0
  let sets := decide (low ≥ 10) && !l.degraded
  let s1 := s.setLane n { l with
    fom := fom, lowRun := low, goodRun := good, degraded := (l.degraded || sets) && !decide (good ≥ 10) }
  let f := Sparse.get (0, 0) s.age.fomCycle n
  let s2 := ({ s1 with age := { s1.age with fomCycle := Sparse.ins n (f.1 + fom, f.2 + 1) s1.age.fomCycle } }).eventIf sets
    (laneEvt n) [2]
  if fom < thr.2.2 then s2.countLane Reg.LN_FAIL_CNT n 1 else s2

/-- R279, R282: the FoM of an UP lane is measured and judged. -/
def execFomMeasure (n : Lane) (eye : Eye) (s : State) : Outcm :=
  if (Instr.fomMeasure n eye).wf then .next (if (s.lane n).st ≠ 5 then s else s.judgeFom n (fomOf eye))
  else .refused (.illFormed "FOM_MEASURE")

/-- An adaptation cycle with the FoM at the present code and its neighbours (R280, R288). -/
def State.adapt (s : State) (n f fMinus fPlus : Nat) : State :=
  let l := s.lane n
  let base := bits (s.laneCal n) 23 20
  let c := l.ctle
  let inWin := fun (x : Nat) => decide (base ≤ x + 3 ∧ x ≤ base + 3 ∧ x ≤ 15)
  let down := decide (c ≥ 1) && decide (fMinus ≥ f + 4)
  let up := decide (c + 1 ≤ 15) && decide (fPlus ≥ f + 4)
  let goal := if down && (!up || decide (fMinus ≥ fPlus)) then some (c - 1)
    else if up then some (c + 1) else none
  if c > base + 3 then s.setLane n { l with ctle := c - 1 }
  else if c + 3 < base then s.setLane n { l with ctle := c + 1 }
  else match goal with
    | none => s
    | some x => if inWin x then s.setLane n { l with ctle := x } else s.event (laneEvt n) [3]

/-- R280: an adaptation cycle moves the data path at most one code, inside CTLE_BASE ± 3 and 0 to 15. -/
def execAdaptCycle (n : Lane) (eye eyeMinus eyePlus : Eye) (s : State) : Outcm :=
  if (Instr.adaptCycle n eye eyeMinus eyePlus).wf then
    .next (if (s.lane n).st ≠ 5 ∨ !s.bit (laneCfg n) 19 then s
      else s.adapt n (fomOf eye) (fomOf eyeMinus) (fomOf eyePlus))
  else .refused (.illFormed "ADAPT_CYCLE")

/-- R280: with ADAPT = 0 the data path moves one code towards CTLE_MAN. -/
def execCtleManualStep (n : Lane) (s : State) : Outcm :=
  let l := s.lane n
  let m := s.fld (laneCfg n) 23 20
  .next (if l.st ≠ 5 ∨ s.bit (laneCfg n) 19 then s
    else s.setLane n { l with ctle := if l.ctle < m then l.ctle + 1 else if m < l.ctle then l.ctle - 1 else m })

/-- Is RETRAIN accepted now: in SIMMER, CALIB, SAFE and TEST, and during a transition in its target too (R38, R288). -/
def State.takesRetrain (s : State) : Bool :=
  let ok := fun (m : Mode) => m == .simmer || m == .calib || m == .safe || m == .test
  ok s.hk.mode && (match s.hk.target with
    | some t => ok t
    | none => true)

/-- A write of LN_CFG_n: CFG fields by R397, and RETRAIN as R288 states; a change of RX_INV while UP loses block lock. A lane in
PRBS runs no bring-up (R284): RETRAIN is answered OK with no effect. -/
def State.laneCfgWrite (s : State) (n : Nat) (data : W32) (be : BitVec 4) : Rep :=
  let a := laneCfg n
  let v := mergeBE (s.reg a) data be
  let go := bitOf v 0 && be.getLsbD 0 && !s.bit a 0
  let modeOk := s.takesRetrain
  let flips := (bitOf v 2 != s.bit a 2) && s.laneUp n
  let s1 := s.storeFields a (putBits v 0 0 (b2n (s.bit a 0)))
  let s2 := if flips then s1.loseLock n else s1
  let s3 := if go ∧ s.laneRole n ≠ 0 ∧ (s.lane n).st ≠ 6 then
      (if (s.lane n).bringUp then s2 else s2.startBringUp n).setBit a 0 true else s2
  if s.lockHit a v then .lockedBy s
  else if bitOf v 0 ∧ be.getLsbD 0 ∧ !modeOk then .no Stat.stateReject s
  else s.guarded false false .writeCfg false s3

/-- R288: LN_CFG_n.RETRAIN. -/
def execRetrain (lane n : Lane) (data : W32) (be : BitVec 4) (s : State) : Outcm :=
  .next (s.accessW lane (laneCfg n) be (fun t => t.laneCfgWrite n data be))

/-! ### PRBS -/

/-- The degree and the second tap of a pattern (R284). -/
def patTaps : Nat → Nat × Nat
  | 1 => (7, 6) | 2 => (9, 5) | 3 => (15, 14) | 4 => (23, 18) | 5 => (31, 28) | _ => (0, 0)

/-- The next bit of a pattern's shift register, whose bit 0 is the latest. -/
def patNext (pat reg : Nat) : Bool := reg.testBit ((patTaps pat).1 - 1) != reg.testBit ((patTaps pat).2 - 1)

/-- The register after a bit. -/
def patShift (pat reg : Nat) (b : Bool) : Nat := (2 * reg + b2n b) % 2 ^ (patTaps pat).1

/-- Is a pattern inverted on the line: the longer ones by O.150, and all once more with PAT_POL. -/
def patInverted (pat : Nat) (pol : Bool) : Bool := (decide (pat ≥ 3)) != pol

/-- What a stretch of bits leaves: generator and checker, SYNC, errors and bits counted, losses of SYNC, and the bits sent. -/
structure PrbsRun where
  p : Prbs
  sync : Bool
  errs : Nat
  checked : Nat
  losses : Nat
  sent : List Bool
  deriving DecidableEq, Repr

/-- The generator sends one bit (R284, R286): an INJ_ONE and a periodic inversion on the same bit invert it once. -/
def PrbsRun.send (x : PrbsRun) (pat rate : Nat) (pol : Bool) : PrbsRun :=
  if pat = 0 then x
  else
    let b := patNext pat x.p.tx
    let due := decide (rate ≠ 0) && (x.p.txPos + 1) % 2 ^ (2 * rate + 4) == 0
    { x with
      p := { x.p with tx := patShift pat x.p.tx b, txPos := x.p.txPos + 1, injOne := false }
      sent := x.sent ++ [(b != patInverted pat pol) != (x.p.injOne || due)] }

/-- The checker seeds again (R285). -/
def Prbs.reseed (p : Prbs) : Prbs := { p with ref := 0, seeded := 0, good := 0, win := [] }

/-- The checker reads one raw bit (R285): its seed, the 64 bits before SYNC, and in SYNC the counts and the loss at 32 errors
within 256 bits. An error before SYNC seeds it anew. -/
def PrbsRun.check (x : PrbsRun) (pat : Nat) (pol : Bool) (raw : Bool) : PrbsRun :=
  if pat = 0 then x
  else
    let b := raw != patInverted pat pol
    let p := x.p
    if p.seeded < (patTaps pat).1 then { x with p := { p with ref := patShift pat p.ref b, seeded := p.seeded + 1 } }
    else
      let want := patNext pat p.ref
      let q := { p with ref := patShift pat p.ref want }
      let bad := b != want
      if !x.sync then
        if bad then { x with p := p.reseed }
        else if p.good + 1 = 64 then { x with p := { q with good := 0, win := [] }, sync := true }
        else { x with p := { q with good := p.good + 1 } }
      else
        let win := lastN 256 (p.win ++ [bad])
        let y := { x with p := { q with win := win }, errs := x.errs + b2n bad, checked := x.checked + 1 }
        if win.count true ≥ 32 then { y with p := y.p.reseed, sync := false, losses := y.losses + 1 } else y

/-- A stretch of bits in PRBS state, as the checker receives it; the generator sends as many (R284 to R286). -/
def State.prbsRun (s : State) (n : Nat) (bs : List Bool) : PrbsRun :=
  let l := s.lane n
  let w := s.regAt (instKey Reg.LN_PRBS_CFG n)
  bs.foldl (fun x b => (x.send (bits w 18 16) (bits w 7 4) (bitOf w 8)).check (bits w 14 12) (bitOf w 8) b)
    ⟨l.prbs, l.prbsSync, 0, 0, 0, []⟩

/-- What the stretch changes: the counters, PRBS_LOSS, and the bits sent. -/
def State.prbsStretch (s : State) (n : Nat) (bs : List Bool) : State :=
  let x := s.prbsRun n bs
  let units := x.p.part + x.checked
  let t := s.setLane n { s.lane n with prbs := { x.p with part := units % 65536 }, prbsSync := x.sync }
  let u := (((t.countLane Reg.LN_PRBS_ERR n x.errs).countLane Reg.LN_PRBS_BITS n (units / 65536)).countLane
    Reg.LN_PRBS_SYNC_CNT n x.losses).eventIf (decide (x.losses > 0)) (laneEvt n) [6]
  { u with out := u.out ++ (if x.sent = [] then [] else [Out.prbs n x.sent]) }

/-- The lane that LN_SEL selects. -/
def State.lnSel (s : State) : Nat := s.fld Reg.LN_SEL 4 0

/-- Generator and checker after a write of LN_PRBS_CFG (R284 to R286): a new transmit pattern starts at an open point of its
sequence, a new receive pattern is seeded anew, and an INJ_ONE waits for the next bit. -/
def Prbs.set (p : Prbs) (start : Nat) (old v : W32) (inj : Bool) : Prbs :=
  let tx := bits v 18 16
  let q := if tx = bits old 18 16 then p
    else { p with tx := max 1 (start % 2 ^ (patTaps tx).1), txPos := 0, injOne := false }
  let r := if bits v 14 12 = bits old 14 12 then q else q.reseed
  { r with injOne := r.injOne || inj }

/-- A pattern is set on a lane or taken off it (R284): the lane is in PRBS while one is set, and a receive pattern ends block lock
(R278). -/
def State.prbsLane (s : State) (n : Nat) (old v : W32) (inj : Bool) : State :=
  if s.laneRole n = 0 then s
  else if bits v 18 16 ≠ 0 ∨ bits v 14 12 ≠ 0 then
    let d := (s.framesCut n).draw
    let t := (d.2.setLane n { (d.2.lane n).cutOff with
      st := 6, step := 0, bringUp := false, resume := false,
      waitLos := (d.2.lane n).waitLos || decide ((d.2.lane n).st < 2),
      prbs := (d.2.lane n).prbs.set d.1 old v inj,
      prbsSync := (d.2.lane n).prbsSync && decide (bits v 14 12 = bits old 14 12) }).setBit (laneCfg n) 0 false
    if bits v 14 12 ≠ 0 ∧ (t.lane n).block then t.unblock n 2 else t
  else if (s.lane n).st = 6 then (s.setLane n { s.lane n with prbsSync := false }).startBringUp n
  else s

/-- A write of LN_PRBS_CFG for the selected lane (R284, R286). -/
def State.prbsWrite (s : State) (req : Nat) (data : W32) (be : BitVec 4) : Rep :=
  let n := s.lnSel
  let k := instKey Reg.LN_PRBS_CFG n
  let old := s.regAt k
  let v := mergeBE old data be
  let bad := decide (bits v 18 16 > 5) || decide (bits v 14 12 > 5)
  let inj := bitOf v 0 && be.getLsbD 0
  let wait := (decide (bits v 18 16 ≠ 0 ∨ bits v 14 12 ≠ 0) && n == req) || (inj && decide (bits old 18 16 = 0))
  s.guarded bad (s.lockHit k v) .testFn wait ((s.storeFields k v).prbsLane n old v inj)

/-- R284: a write of LN_PRBS_CFG sets the patterns. -/
def execPrbsPatternSet (lane : Lane) (data : W32) (be : BitVec 4) (s : State) : Outcm :=
  .next (s.accessW lane Reg.LN_PRBS_CFG be (fun t => t.prbsWrite lane data be))

/-- R286: LN_PRBS_CFG.INJ_ONE inverts one bit. -/
def execInjOne (lane : Lane) (data : W32) (be : BitVec 4) (s : State) : Outcm :=
  .next (s.accessW lane Reg.LN_PRBS_CFG be (fun t => t.prbsWrite lane (data ||| 1) be))

/-- LN_PRBS_CLR: both counters of the selected lane clear at the same bit (R285). -/
def State.prbsClear (s : State) (go : Bool) : Rep :=
  let n := s.lnSel
  let l := s.lane n
  s.guarded false false .testFn false
    (if go then
      ((s.setLane n { l with prbs := { l.prbs with part := 0 } }).setRegAt (instKey Reg.LN_PRBS_ERR n) 0).setRegAt
        (instKey Reg.LN_PRBS_BITS n) 0
     else s)

def execPrbsClear (lane : Lane) (s : State) : Outcm :=
  .next (s.access lane Reg.LN_PRBS_CLR (fun t => t.prbsClear true))

/-- R285: a stretch of received bits in which the checker seeds itself and comes to SYNC. -/
def execPrbsSync (x : LaneBits) (s : State) : Outcm :=
  .next (if (s.lane x.lane).st = 6 then s.prbsStretch x.lane x.rx else s)

/-- R285: a stretch of received bits in which the checker loses SYNC. -/
def execPrbsSyncLoss (x : LaneBits) (s : State) : Outcm :=
  .next (if (s.lane x.lane).st = 6 then s.prbsStretch x.lane x.rx else s)

end Sys2Proof.Machine
end

