-- ==== Sys2Proof/Machine/FrontEnd.lean ====
section
/-! DEFINITION. The channel front end (R83 to R105): when a channel is live, blanking, group enables, rate counters and
charge injection, and the meanings of their commands. -/

namespace Sys2Proof.Machine

/-! ### Live channels -/

/-- The group enables as written. -/
def State.groupReg (s : State) : BitVec 64 := (s.reg Reg.FE_GROUP_EN_1).append (s.reg Reg.FE_GROUP_EN_0)

/-- The group enables in force at a tick (R95). -/
def State.groupsAt (s : State) (t : Nat) : BitVec 64 :=
  match s.fe.groupPend with
  | some (b, v) => if b ≤ t then v else s.fe.groupEff
  | none => s.fe.groupEff

/-- Is a channel live at a tick (R94, R345). -/
def State.live (s : State) (c t : Nat) : Bool :=
  bitOf (s.chanWord c) 63 && bitOf (s.groupsAt t) (groupOf c) && s.aclkRuns && !s.dead .fed 0x13 (chanIdx c)

/-- Are the delay lines launched: full bias by the table of R102, or settled on the way to it (R103). -/
def State.linesOn (s : State) : Bool :=
  match s.hk.mode with
  | .calib => true | .run => true | .drain => true | .test => true
  | .safe => !s.hk.safeDrained || s.hk.target == some .test
  | .simmer => s.hk.target == some .run || s.hk.target == some .calib || s.hk.target == some .test
  | _ => false

/-- Is the front end in compatibility mode (R114). -/
def State.compat (s : State) : Bool := s.bit Reg.TDC_CTRL 0

/-! ### Input stage and discriminators -/

/-- POL of a channel: does signal current flow out of the contact; the input stage inverts it then (R85). -/
def State.inverted (s : State) (c : Nat) : Bool := bitOf (s.chanWord c) 62

/-- The effective transimpedance of a channel in ohms, from GAIN and INPUT (R84). -/
def State.transimpedance (s : State) (c : Nat) : Nat :=
  (if bitOf (s.chanWord c) 60 then 625 else 5000) * 2 ^ bits (s.chanWord c) 59 58

/-- An effective threshold in units of 0.25 mV from a coarse and a trim code: at least 1.0 mV (R87). -/
def threshold (thr trim : Nat) : Nat := max 4 (8 * thr + trim - 32)

/-- The effective thresholds of the low and the high discriminator, in 0.25 mV (R87). -/
def State.vLow (s : State) (c : Nat) : Nat := threshold (bits (s.chanWord c) 39 32) (bits (s.chanWord c) 5 0)
def State.vHigh (s : State) (c : Nat) : Nat := threshold (bits (s.chanWord c) 47 40) (bits (s.chanWord c) 11 6)

/-- The hysteresis of the low discriminator in 0.25 mV, by HYST (R88). -/
def hysteresis : Nat → Nat
  | 0 => 0 | 1 => 4 | 2 => 8 | _ => 16

/-- The level at which the trailing crossing occurs, in 0.25 mV: at least 0.5 mV (R88). -/
def State.vTrail (s : State) (c : Nat) : Nat := max 2 (s.vLow c - hysteresis (bits (s.chanWord c) 57 56))

/-- The low discriminator: after a signal level `v` in 0.25 mV its output is high from the rise through v_lo to the fall
through the trailing level (R88). -/
def State.lowOut (s : State) (c v : Nat) (was : Bool) : Bool := if was then decide (s.vTrail c ≤ v) else decide (s.vLow c ≤ v)

/-- What the baseline restorer of a channel does (R86). -/
inductive Restorer where
  | stopped | frozen | running
  deriving DecidableEq, Repr

/-- The baseline restorer of a channel (R86): it runs in every mode but BOOT and LOAD, and is frozen while the low output is
high. -/
def State.restorer (s : State) (c : Nat) : Restorer :=
  if !s.aclkRuns then .stopped else if (s.pulse c).low then .frozen else .running

/-- Are the inputs clamped to their returns (R86, R102). -/
def State.clamped (s : State) : Bool := !s.aclkRuns

/-! ### Bias -/

/-- A settling period of the front end: 50 µs (R103). -/
abbrev settleTicks : Nat := 16000

/-- A settling period begins (R103). -/
def State.settles (s : State) : State := { s with fe := { s.fe with settle := s.tb.tn + settleTicks } }

/-- The front end goes to full bias as a transition from SIMMER starts, and settles (R103). From SAFE to TEST the bias is raised with no
settling period, DESIGN CHOICE of log entry 165. -/
def State.fullBias (s : State) : State := if s.hk.mode = .simmer then s.settles else s

/-- A write of FE_CTRL: a change of SIMMER_BIAS in SIMMER acts at once and settles (R103). -/
def State.biasWrite (s : State) (data : W32) (be : BitVec 4) : Rep :=
  let v := mergeBE (s.reg Reg.FE_CTRL) data be
  let s1 := s.storeFields Reg.FE_CTRL v
  s.guarded false (s.lockHit Reg.FE_CTRL v) .writeCfg false
    (if s.hk.mode = .simmer ∧ s1.fld Reg.FE_CTRL 1 0 ≠ s.fld Reg.FE_CTRL 1 0 then s1.settles else s1)

/-! ### Channel table -/

/-- The fields whose change blanks the discriminators (R93). -/
def analogBits : W64 := 0x5F00FFFF00000FFF

/-- A write of one half of a channel-table entry (R91 to R93). -/
def State.chanWrite (s : State) (c : Nat) (high : Bool) (data : W32) (be : BitVec 4) : Rep :=
  let eff := fun (t : State) =>
    let old := t.chanWord c
    let new := setHalf old high (mergeBE (halfOf old high) data be) &&& 0xDFFFFFFF00FFFFFF
    let u := { t with
      fe := { t.fe with tab := Sparse.put 0 c (new &&& 0xFFFFFFFF00000000) t.fe.tab },
      cal := { t.cal with chan := Sparse.put 0 c (new.extractLsb' 0 24) t.cal.chan } }
    if ((old ^^^ new) &&& analogBits) = 0 then u
    else { u with fe := { u.fe with blank := setIns c u.fe.blank } }
  s.guardedR false false .tableWrite false (s.merged .fed 0x13 (chanIdx c) eff)

/-- The address of a half of a channel-table entry. -/
abbrev chanAddr (c : Nat) (high : Bool) : Nat := 0x800000 + 8 * c + 4 * b2n high

/-- R93: a channel-table write. -/
def execChannelTableWrite (lane : Lane) (ch : Chan) (high : Bool) (data : W32) (be : BitVec 4) (s : State) : Outcm :=
  .next (s.accessW lane (chanAddr ch high) be (fun t => t.chanWrite ch high data be))

/-- R93: the blanking of a channel ends. -/
def execBlankingEnd (ch : Chan) (s : State) : Outcm :=
  .next { s with fe := { s.fe with blank := setDel ch.val s.fe.blank } }

/-! ### Group enables -/

/-- A write of FE_GROUP_EN (R95): held to the next slice boundary in RUN and DRAIN. -/
def State.groupWrite (s : State) (high : Bool) (data : W32) (be : BitVec 4) : Rep :=
  let a := if high then Reg.FE_GROUP_EN_1 else Reg.FE_GROUP_EN_0
  let v := mergeBE (s.reg a) data be
  let s1 := s.storeFields a v
  let now := s.groupsAt s.tb.tn
  let fe := if s.hk.mode = .run ∨ s.hk.mode = .drain then
      { s1.fe with groupEff := now, groupPend := some ((s.tb.tn / 2 ^ s.k + 1) * 2 ^ s.k, s1.groupReg) }
    else { s1.fe with groupEff := s1.groupReg, groupPend := none }
  s.guarded false (s.lockHit a v) .writeCfg false { s1 with fe := fe }

/-- R95: a write of FE_GROUP_EN. -/
def execGroupEnableWrite (lane : Lane) (high : Bool) (data : W32) (be : BitVec 4) (s : State) : Outcm :=
  .next (s.accessW lane (if high then Reg.FE_GROUP_EN_1 else Reg.FE_GROUP_EN_0) be (fun t => t.groupWrite high data be))

/-! ### Rate counters -/

/-- Count a leading crossing (R97). -/
def State.rateCount (s : State) (c : Nat) : State :=
  if s.fe.gate = 0 then s
  else
    let n := Sparse.get 0 s.fe.cnt c
    if n = 0xFFFFFF then s.event Reg.FE_EVT [1]
    else { s with fe := { s.fe with cnt := Sparse.put 0 c (n + 1) s.fe.cnt } }

/-- A write of FE_RATE_GATE.GATE (R97). -/
def State.gateWrite (s : State) (data : W32) (be : BitVec 4) : Rep :=
  let v := mergeBE (s.reg Reg.FE_RATE_GATE) data be
  let g := bits v 9 0
  let s1 := s.storeFields Reg.FE_RATE_GATE v
  let fe := if g = 0 then { s1.fe with gate := 0 }
    else if s.fe.gate = 0 then { s1.fe with gate := g, cnt := [] } else s1.fe
  s.guarded false (s.lockHit Reg.FE_RATE_GATE v) .writeCfg false { s1 with fe := fe }

/-- R97: a write of FE_RATE_GATE. -/
def execRateGateWrite (lane : Lane) (data : W32) (be : BitVec 4) (s : State) : Outcm :=
  .next (s.accessW lane Reg.FE_RATE_GATE be (fun t => t.gateWrite data be))

/-- COL_HOT_ON and the applied COL_HOT_OFF (R198). -/
def State.hotThr (s : State) : Nat × Nat :=
  let on := s.fld Reg.COL_HOT_ON 23 0
  (on, min on (s.fld Reg.COL_HOT_OFF 23 0))

/-- What the counts of a gate set for the next slice that opens (R198). -/
def State.hotUpdate (s : State) (cnt : Sparse Nat) : State :=
  let c := s.cd
  let thr := s.hotThr
  let hot := if s.bit Reg.COL_CTRL 0 ∧ thr.1 ≠ 0
    then (cnt.filter (fun e => decide (e.2 > thr.1))).map Prod.fst else []
  let pend := hot.foldl (fun l x => setIns x l) c.hotPend
  let cool := (c.rateSup ++ pend).filter (fun x => decide (Sparse.get 0 cnt x ≤ thr.2))
  s.setCd { c with
    hotPend := pend.filter (fun x => !cool.contains x),
    coolPend := (cool.foldl (fun l x => setIns x l) c.coolPend).filter (fun x => !hot.contains x) }

/-- R97: a gate ends: the counts are copied, the counters restart, SEQ advances. -/
def execRateGateEnd (s : State) : Outcm :=
  .next (if s.fe.gate = 0 ∨ !s.aclkRuns then s
    else
      let seq := s.fe.gateSeq + 1
      ({ s with fe := { s.fe with
        snap := s.fe.cnt, cnt := [], gateSeq := seq, snapSeq := seq,
        gate := s.fld Reg.FE_RATE_GATE 9 0 } }).hotUpdate s.fe.cnt)

/-! ### Charge injection -/

/-- The number of strobes asked for; 0 is continuous. -/
def State.injCount (s : State) : Nat := s.fld Reg.FE_INJ_PATTERN 31 16

/-- Injection ends before COUNT strobes because the mode leaves CALIB or TEST (R101). -/
def State.injAbort (s : State) : State :=
  if s.fe.inj.running then ({ s with fe := { s.fe with inj := { s.fe.inj with running := false } } }).event Reg.FE_EVT [0]
  else s

/-- PERIOD as applied (R99). -/
def State.injPeriod (s : State) : Nat := max 16 (s.fld Reg.FE_INJ_PATTERN 15 0)

/-- A write of FE_INJ_CTRL (R99, R101). STOP in the same write keeps GO from starting; a GO that finds injection running is
ignored, and the other fields of its write are stored, DEDUCED in log entry 128. The first strobe falls due 16 ticks after
execution. -/
def State.injWrite (s : State) (data : W32) (be : BitVec 4) : Rep :=
  let v := mergeBE (s.reg Reg.FE_INJ_CTRL) data be
  let go := bitOf v 0 && be.getLsbD 0
  let stop := bitOf v 1 && be.getLsbD 0
  let wait := go && !(s.hk.mode == .calib || s.hk.mode == .test)
  let s1 := s.storeFields Reg.FE_INJ_CTRL v
  let inj := if stop then { s.fe.inj with running := false }
    else if go ∧ !s.fe.inj.running then
      { s.fe.inj with running := true, sent := 0, dither := bitOf v 2, next := s.tb.tn + 16 }
    else s.fe.inj
  s.guarded false (s.lockHit Reg.FE_INJ_CTRL v) .writeCfg wait { s1 with fe := { s1.fe with inj := inj } }

/-- R99: FE_INJ_CTRL.GO. -/
def execInjGo (lane : Lane) (data : W32) (be : BitVec 4) (s : State) : Outcm :=
  .next (s.accessW lane Reg.FE_INJ_CTRL be (fun t => t.injWrite (data ||| 1) be))

/-- R101: FE_INJ_CTRL.STOP. -/
def execInjStop (lane : Lane) (data : W32) (be : BitVec 4) (s : State) : Outcm :=
  .next (s.accessW lane Reg.FE_INJ_CTRL be (fun t => t.injWrite (data ||| 2) be))

/-- The channels that a strobe reaches: live, with INJ = 1. -/
def State.injChans (s : State) (tick : Nat) : List Nat :=
  (s.fe.tab.map Prod.fst).filter (fun c => s.live c tick && bitOf (s.chanWord c) 55)

/-- The tick of the strobe that falls due: PERIOD after the one before, 16 after GO for the first; with DITHER the
oscillator's `tick`, one away at most (R99). -/
def Inj.strobeTick (i : Inj) (tick : Nat) : Nat :=
  if i.dither ∧ i.sent ≠ 0 then max (i.next - 1) (min (i.next + 1) tick) else i.next

/-- The delay of a strobe from its tick edge in fine LSB, in the steps of PHASE, or open with DITHER (R99). -/
def State.injDelay (s : State) : Nat × State :=
  if s.fe.inj.dither then (let d := s.draw; (d.1 % 2048, d.2)) else (32 * s.fld Reg.FE_INJ_CTRL 13 8, s)

/-- R99: a strobe falls due; the COUNT-th one ends the injection. AMP, PHASE, PERIOD and COUNT are those of the strobe's
moment and DITHER that of GO, DEDUCED in log entry 127. -/
def execInjStrobe (tick : Nat) (s : State) : Outcm :=
  .next (if s.fe.inj.running then
      let t := s.fe.inj.strobeTick tick
      let d := (s.advanceTo t).injDelay
      let s := d.2
      let n := s.fe.inj.sent + 1
      let amp := s.fld Reg.FE_INJ_CTRL 25 16
      { s with
        fe := { s.fe with inj := { s.fe.inj with
          sent := n, last := some t, delay := d.1, running := s.injCount = 0 || decide (n < s.injCount),
          next := t + s.injPeriod } },
        out := s.out ++ (if amp = 0 then [] else (s.injChans t).map (fun c => .inject c amp d.1)) }
    else s)

/-- Does a leading crossing in this tick follow a strobe within 8 ticks on a channel with INJ = 1 (R100). -/
def State.calMark (s : State) (c t : Nat) : Bool :=
  bitOf (s.chanWord c) 55 &&
    (match s.fe.inj.last with
     | some b => decide (b ≤ t) && decide (t < b + 8)
     | none => false)

end Sys2Proof.Machine
end

