-- ==== Sys2Proof/Machine/Tdc.lean ====
section
/-! DEFINITION. Time measurement in the channel (R106 to R127): conversion of a timed edge, pulses and their records,
code-density fills and swaps, skew accumulation, and the meanings of their commands. -/

namespace Sys2Proof.Machine

/-! ### Conversion -/

/-- An overrun (R108). -/
def State.overrun (s : State) : State := (s.count Reg.TDC_OVR_CNT 1).event Reg.TDC_EVT [0]

/-- Is an event an overrun (R108). -/
def Edge.isOverrun (e : Edge) : Bool := decide (e.s ≥ 1408) || e.full

/-- Convert an edge with a bank: the raw time, none where the table entry is uncorrectable (R108, R124). -/
def State.convert (s : State) (c : Nat) (bank : Bool) (e : Edge) : Option Nat × State :=
  if Edge.isOverrun e then (some (2048 * e.tick), s.overrun)
  else
    let r := s.memReadC .fed 0x12 (tabIdx c bank e.s) 9
    if r.1 then (some (2048 * e.tick + r.2.tabAt c bank e.s % 2048), r.2)
    else (none, r.2.event Reg.TDC_EVT [4])

/-- An event less than 64 fine LSB from the one before it takes its raw time (R109). -/
def nearPrev (latest raw : Nat) : Nat := if (raw - latest) + (latest - raw) < 64 then latest else raw

/-- An event launches its wavefront (R109): of the events launched in one tick the latest stands nearest the line entry, so
its code is not above that of the one before it. -/
def Pulse.launch (p : Pulse) (e : Edge) : Pulse × Edge :=
  if p.edges ≠ 0 ∧ p.edgeTick = e.tick then
    ({ p with edges := p.edges + 1, near := min p.near e.s }, { e with s := min p.near e.s })
  else ({ p with edgeTick := e.tick, edges := 1, near := e.s }, e)

/-- ToT (R110). -/
def totOf (lead trail : Nat) : Nat := min 0xFFF ((trail - lead + 32) / 64)

/-- rise (R110). -/
def riseOf (lead : Nat) (high : Option Nat) : Nat :=
  match high with
  | some h => min 0xFE ((h - lead + 32) / 64)
  | none => 0xFF

/-- The skew in effect (R115): none in CALIB while CALIB_SKEW = 0. -/
def State.skewNow (s : State) (c : Nat) : Int :=
  if s.hk.mode = .calib ∧ !s.bit Reg.TDC_CTRL 2 then 0 else signedW 12 (bits (s.calWord c) 23 12)

/-- The corrected time (R115). -/
def corrected (lead : Nat) (skew : Int) : Nat := ((lead : Int) + skew).toNat

/-- The strobe whose skew a CAL hit measures (R126), if it had a fixed phase. -/
def State.strobeOf (s : State) (cal : Bool) : Option Nat :=
  if cal ∧ !s.fe.inj.dither then s.fe.inj.last else none

/-! ### Fills -/

/-- The selected groups of TDC_CD_GRP. -/
def State.cdGroups (s : State) : List Nat :=
  let w := (s.reg Reg.TDC_CD_GRP_1).append (s.reg Reg.TDC_CD_GRP_0)
  (List.range 64).filter (fun g => bitOf w g)

/-- The live channels of some groups. -/
def State.liveOf (s : State) (gs : List Nat) : List Nat :=
  (s.fe.tab.map Prod.fst).filter (fun c => gs.contains (groupOf c) && s.live c s.tb.tn)

def State.banks (s : State) (c : Nat) : Banks := Sparse.get Banks.reset s.tdc.banks c

def State.setBanks (s : State) (c : Nat) (b : Banks) : State :=
  { s with tdc := { s.tdc with banks := Sparse.put Banks.reset c b s.tdc.banks } }

/-- State of a bank. -/
def Banks.st (b : Banks) (bank : Bool) : BankSt := if bank then b.st1 else b.st0

def Banks.setSt (b : Banks) (bank : Bool) (x : BankSt) : Banks := if bank then { b with st1 := x } else { b with st0 := x }

/-- LEN of a group in a list of four words (R125). -/
def lenOf (ws : List W32) (g : Nat) : Nat := bits (nth 0 ws (g / 16)) (2 * (g % 16) + 1) (2 * (g % 16))

/-- The four words of TDC_LEN or TDC_LEN_ACT. -/
def State.lenWords (s : State) (a : Nat) : List W32 := (List.range 4).map (fun i => s.reg (a + 4 * i))

/-- Drop the histogram of a bank. -/
def State.clearHist (s : State) (c : Nat) (bank : Bool) : State :=
  let lo := tabKey c bank 0
  { s with tdc := { s.tdc with hist := s.tdc.hist.filter (fun e => decide (e.1 < lo ∨ lo + 1408 ≤ e.1)) } }

/-- Drop the table of a bank: it reads nominal (R117). -/
def State.clearTab (s : State) (c : Nat) (bank : Bool) : State :=
  let lo := tabKey c bank 0
  { s with tdc := { s.tdc with tab := s.tdc.tab.filter (fun e => decide (e.1 < lo ∨ lo + 1408 ≤ e.1)) } }

/-- A channel's inactive bank starts to fill (R118). -/
def State.startFill (s : State) (len c : Nat) : State :=
  let b := s.banks c
  ((s.setBanks c { b.setSt (!b.active) .filling with n := 0, top := 0, ovr := false, fillLen := len }).clearHist c
    (!b.active)).clearTab c (!b.active)

/-- The number of events of a fill (R118). -/
abbrev fillN : Nat := 4194304

/-- One event of a fill. An overrun counts in N and SPAN and enters no H(s), whatever its code: DESIGN CHOICE of log entry
168. -/
def State.fillEvent (s : State) (c code : Nat) (ovr : Bool) : State :=
  let b := s.banks c
  if b.n ≥ fillN then s
  else
    let s1 := s.setBanks c { b with n := b.n + 1, top := max b.top (code + 1), ovr := b.ovr || ovr }
    if code < 1408 ∧ !ovr then
      let k := tabKey c (!b.active) code
      { s1 with tdc := { s1.tdc with hist := Sparse.put 0 k (Sparse.get 0 s1.tdc.hist k + 1) s1.tdc.hist } }
    else s1

/-- Is a channel being filled: by which source. -/
def State.filling (s : State) (c : Nat) (internal : Bool) : Bool :=
  match s.tdc.fill with
  | some f => !f.swap && (f.internal == internal) && f.remain.contains c
  | none => false

/-- Do an internal fill's lines shut out the channel's discriminators (R119). -/
def State.filled (s : State) (c : Nat) : Bool :=
  match s.tdc.fill with
  | some f => !f.swap && f.internal && f.chans.contains c
  | none => false

/-! ### Pulses -/

/-- A hit formed by its last event (R110, R113). -/
def State.form (s : State) (c : Nat) (p : Pulse) (tot : Nat) : State :=
  { s with tdc := { s.tdc with formed := s.tdc.formed ++
    [Formed.mk c p.lead p.high (corrected p.lead p.skew) tot (riseOf p.lead p.high) p.cal p.strobe false 0 0 p.lost] } }

/-- WF_CTRL.POST, WF_HOLD.BUDGET and WF_CTRL.INTERVAL as applied (R130, R133, R141). -/
def State.wfPost (s : State) : Nat := min 63 (s.fld Reg.WF_CTRL 14 8)
def State.wfBudget (s : State) : Nat := max 16 (min 1280 (s.fld Reg.WF_HOLD 10 0))
def State.wfInterval (s : State) : Nat := min 4 (s.fld Reg.WF_CTRL 6 4)

/-- Does the mode capture waveforms (R129). -/
def State.captures (s : State) : Bool :=
  match s.hk.mode with
  | .calib => true | .run => true | .drain => true | .test => true
  | .safe => !s.hk.safeDrained
  | _ => false

/-- A pulse gains its high crossing; if R129 holds but for WF_CTRL.EN, which the freeze judges (R136), its freeze falls due
(R130). -/
def State.captureDue (s : State) (c : Nat) (p : Pulse) (high : Nat) : State :=
  if bitOf (s.chanWord c) 54 && !s.compat && s.captures then
    { s with wf := { s.wf with waiting := s.wf.waiting ++
      [Capture.mk c (corrected p.lead p.skew) p.lead high s.wfPost 0 false] } }
  else s

/-- A leading crossing inside the dead time (R112, R114). -/
def State.deadCrossing (s : State) : State := s.count Reg.TDC_DEAD_CNT 1

/-- An accepted leading crossing of native mode (R110, R112): the first event of its tick, by the re-arm. One whose table read
is uncorrectable enters a live fill all the same, DEDUCED in log entry 171. -/
def State.leadNative (s : State) (c : Nat) (p : Pulse) (e : Edge) : State :=
  let b := s.banks c
  let r := s.convert c b.active e
  let raw := r.1.getD (2048 * e.tick)
  let cal := s.calMark c e.tick
  let q : Pulse := { p with
    low := true, held := false, timing := true, lead := raw, high := if p.held then some raw else none, latest := raw,
    bank := b.active, skew := s.skewNow c, cal := cal, strobe := s.strobeOf cal, lost := r.1.isNone, spent := false,
    rearm := none, edgeTick := e.tick, edges := 1, near := e.s }
  let t := r.2.setPulse c q
  let u := if t.filling c false then t.fillEvent c e.s (Edge.isOverrun e) else t
  if p.held then u.captureDue c q raw else u

/-- A leading crossing of compatibility mode that is accepted (R114). -/
def State.leadCompat (s : State) (c : Nat) (p : Pulse) (e : Edge) : State :=
  let b := s.banks c
  let r := s.convert c b.active e
  let raw := r.1.getD (2048 * e.tick)
  let cal := s.calMark c e.tick
  let cc := corrected raw (s.skewNow c)
  let sl := s.sliceOf (cc / 2048)
  let no := if p.hitSlice = sl then p.hitNo else 0
  let t := r.2.setPulse c { p with
    low := true, lastTick := some e.tick, disc := 0, hitSlice := sl, hitNo := no + 1, edgeTick := e.tick, edges := 1,
    near := e.s }
  let u := { t with tdc := { t.tdc with formed := t.tdc.formed ++
    [Formed.mk c raw none cc 0 0xFF cal (s.strobeOf cal) true (no % 256) p.disc r.1.isNone] } }
  if u.filling c false then u.fillEvent c e.s (Edge.isOverrun e) else u

/-- R110, R112, R114: the low discriminator rises. One that an internal fill shuts out counts in the rate counter, DEDUCED in
log entry 169; the ticks that R112 and R114 compare stand as they were taken when a step has moved TN since, DESIGN CHOICE of
log entry 166. -/
def execLeadingCrossing (ch : Chan) (e : Edge) (s : State) : Outcm :=
  if (Instr.leadingCrossing ch e).wf then
    let c := ch.val
    let p := s.pulse c
    .next (if s.fe.blank.contains c ∨ p.low then s
      else if !s.live c e.tick then s.setPulse c { p with held := false }
      else
        let s := (s.advanceTo (e.tick + 1)).rateCount c
        if !s.linesOn ∨ s.filled c then s.setPulse c { p with low := true, held := false }
        else if s.compat then
          match p.lastTick with
          | some t =>
            if e.tick > t then s.leadCompat c p e
            else (s.setPulse c { p with low := true, disc := min 15 (p.disc + 1) }).deadCrossing
          | none => s.leadCompat c p e
        else
          match p.rearm with
          | some m =>
            if p.timing ∨ e.tick < m + 3 then (s.setPulse c { p with low := true }).deadCrossing
            else s.leadNative c p e
          | none =>
            if p.timing then (s.setPulse c { p with low := true }).deadCrossing else s.leadNative c p e)
  else .refused (.illFormed "LEADING_CROSSING")

/-- R110: the high discriminator rises; while the low output is low the crossing is held. A pulse whose leading crossing
was taken is timed completely (R95). -/
def execHighCrossing (ch : Chan) (e : Edge) (s : State) : Outcm :=
  if (Instr.highCrossing ch e).wf then
    let c := ch.val
    let p := s.pulse c
    .next (if (!p.timing && !s.live c e.tick) ∨ s.fe.blank.contains c ∨ !s.linesOn ∨ s.compat ∨ s.filled c then s
      else if !p.low then (s.advanceTo (e.tick + 1)).setPulse c { p with held := true }
      else if !p.timing ∨ p.high.isSome then s
      else
        let s := s.advanceTo (e.tick + 1)
        let l := p.launch e
        let r := s.convert c p.bank l.2
        let raw := nearPrev p.latest (r.1.getD (2048 * e.tick))
        let q := { l.1 with high := some raw, latest := raw, lost := p.lost || r.1.isNone }
        (r.2.setPulse c q).captureDue c q raw)
  else .refused (.illFormed "HIGH_CROSSING")

/-- R112: the low discriminator falls; the pulse is complete and the re-arm begins. While an internal fill shuts the
channel's events out no hit is formed (R119). A pulse open when its channel is blanked or disabled: DESIGN CHOICE of log
entries 125 and 126. -/
def execTrailingCrossing (ch : Chan) (e : Edge) (s : State) : Outcm :=
  if (Instr.trailingCrossing ch e).wf then
    let c := ch.val
    let p := s.pulse c
    .next (if !p.low then s
      else
        let s := s.advanceTo (e.tick + 1)
        if s.fe.blank.contains c then s.setPulse c { p with low := false }
        else if s.filled c then s.setPulse c { p with low := false, held := false, timing := false, spent := false }
        else if p.timing then
          let l := p.launch e
          let r := s.convert c p.bank l.2
          let raw := nearPrev p.latest (r.1.getD (2048 * e.tick))
          let q := { l.1 with
            low := false, held := false, timing := false, latest := raw, rearm := some e.tick,
            lost := p.lost || r.1.isNone }
          (r.2.setPulse c q).form c q (totOf p.lead raw)
        else if p.spent then s.setPulse c { p with low := false, held := false, spent := false, rearm := some e.tick }
        else s.setPulse c { p with low := false, held := false })
  else .refused (.illFormed "TRAILING_CROSSING")

/-- R111: no trailing crossing by tick t_L + 128. While an internal fill shuts the channel's events out no hit is formed
(R119). -/
def execTotTimeout (ch : Chan) (s : State) : Outcm :=
  let c := ch.val
  let p := s.pulse c
  .next (if p.timing then
      let q := { p with timing := false, spent := p.low }
      let t := (s.advanceTo (p.lead / 2048 + 129)).setPulse c q
      if s.filled c then t else t.form c q 0xFFF
    else s)

/-! ### Records of hits -/

/-- Can a hit of a corrected time belong to the run (R44, R45). -/
def State.inRun (s : State) (c : Nat) : Bool :=
  let n := s.sliceOf (c / 2048)
  s.run.active && decide (sdiff n s.run.sf ≥ 0) &&
    (match s.run.sl with
     | some l => decide (sdiff n l ≤ 0)
     | none => true)

/-- Are records made of a hit of this corrected time: in the run, and in CALIB, where the Whisk alone takes them (R148,
R150). -/
def State.recording (s : State) (c : Nat) : Bool := s.inRun c || s.hk.mode == .calib

/-- A record that cannot be taken by a group FIFO is dropped (R191). -/
def State.gfifoDrop (s : State) (c : Nat) : State :=
  let g := groupOf c
  let x := s.group g
  let y := if x.dropN = 0 then { x with dropN := 1, dropLo := c, dropHi := c }
    else { x with dropN := x.dropN + 1, dropLo := min x.dropLo c, dropHi := max x.dropHi c }
  ((s.setGroup g y).count Reg.FE_GFIFO_DROP_CNT 1).event Reg.FE_DP_EVT [0]

/-- A record enters the input stage of its group (R189). -/
def State.stageIn (s : State) (c : Nat) (e : Ent) : State :=
  let g := groupOf c
  let x := s.group g
  if x.stage.length ≥ 64 then s.gfifoDrop c else s.setGroup g { x with stage := x.stage ++ [e] }

/-- The record of a formed hit (R179, R180). -/
def State.hitWord (s : State) (f : Formed) : W64 :=
  let tick := f.c / 2048 % 2 ^ s.k
  if f.compat then recHitCompat s.source f.chan tick (f.c % 2048) f.hitNo f.disc f.cal
  else recHit s.source f.chan tick (f.c % 2048) f.tot f.rise f.cal

/-- The accumulation of R126; an event without a time (R124) has no R to add. -/
def State.skewAdd (s : State) (f : Formed) : State :=
  match f.strobe with
  | none => s
  | some t =>
    let a := Sparse.get (0, 0) s.tdc.skew f.chan
    if s.hk.mode = .calib ∧ f.cal ∧ !f.lost ∧ !s.bit Reg.TDC_CTRL 2 ∧ s.bit Reg.TDC_SKW_CTRL 0 ∧ a.1 < 65535 then
      { s with tdc := { s.tdc with
        skew := Sparse.put (0, 0) f.chan (a.1 + 1, a.2 + ((f.lead : Int) - 2048 * (t : Int))) s.tdc.skew } }
    else s

/-- Take the oldest formed hit of a channel. -/
def takeFormed (c : Nat) : List Formed → Option (Formed × List Formed)
  | [] => none
  | f :: t => if f.chan = c then some (f, t) else (takeFormed c t).map (fun r => (r.1, f :: r.2))

/-- R113, R114: a hit is formed and offered to its group FIFO. Outside a run no record is made of it. -/
def execHitEmit (ch : Chan) (s : State) : Outcm :=
  .next (match takeFormed ch.val s.tdc.formed with
    | none => s
    | some (f, rest) =>
      let s1 := ({ s with tdc := { s.tdc with formed := rest } }).skewAdd f
      let n := s.sliceOf (f.c / 2048)
      if !s.recording f.c then s1
      else if f.lost then
        if !s.inRun f.c then s1
        else (s1.stageIn f.chan ⟨recLoss s.source f.chan f.chan 1 9, .loss, f.chan, f.c, n, 0, false⟩).lossCount .fed 9
      else s1.stageIn f.chan ⟨s.hitWord f, .hit, f.chan, f.c, n, 0, false⟩)

/-! ### Margin 1 of the planner -/

/-- A margin is exhausted, or no longer, for one item (R387): AGE_MARGIN shows the margins, an item newly exhausted is an
event. -/
def State.exhaust (s : State) (margin item : Nat) (on : Bool) : State :=
  let was := s.age.exItems.contains (margin, item)
  let items := if on then (if was then s.age.exItems else s.age.exItems ++ [(margin, item)])
    else s.age.exItems.filter (fun x => x != (margin, item))
  let t := { s with age := { s.age with exItems := items } }
  (t.setBit Reg.AGE_MARGIN margin (items.any (fun x => x.1 == margin))).eventIf (on && !was) Reg.AGE_EVT [1]

/-- A move of the planner (R387); with `fill`, one that makes a fill due (R385). -/
def State.plannerMove (s : State) (fill : Bool) : State :=
  let t := (s.count Reg.AGE_ACT_CNT 1).event Reg.AGE_EVT (if fill then [0, 4] else [0])
  if fill then t.setBit Reg.AGE_MARGIN 8 true else t

/-- Is a margin enabled (R384). -/
def State.marginOn (s : State) (n : Nat) : Bool := s.bit Reg.AGE_CFG n

/-- Relative cell delay of a line setting, in percent (R125). -/
def relDelay : Nat → Nat
  | 0 => 100 | 1 => 112 | 2 => 125 | _ => 140

/-- SPANs of a group's channels, from their last usable fills (R379). -/
def State.groupSpans (s : State) (g : Nat) : List Nat :=
  ((List.range 64).map (fun i => (s.banks (64 * g + i)).good)).filter (fun x => x != 0)

/-- The least and the greatest of a list. -/
def leastOf (l : List Nat) : Nat := l.foldl min (l.headD 0)
def mostOf (l : List Nat) : Nat := l.foldl max 0

/-- Twice the distance of the predicted mean SPAN from 1,312, at setting `b` where it was measured at `a` (R384). -/
def spanMiss (lo hi a b : Nat) : Rat :=
  let d : Rat := ((lo + hi) * relDelay a : Nat) / (relDelay b : Nat) - 2624
  if d < 0 then -d else d

/-- The setting that margin 1 chooses for SPANs from `lo` to `hi` measured at setting `a`, if one qualifies. -/
def chooseLen (lo hi a : Nat) : Option Nat :=
  let good := [0, 1, 2, 3].filter (fun b => b != a && decide (lo * relDelay a ≥ 1200 * relDelay b) &&
    decide (hi * relDelay a ≤ 1396 * relDelay b))
  good.foldl (fun (best : Option Nat) b => match best with
    | none => some b
    | some x => if spanMiss lo hi a b < spanMiss lo hi a x then some b else some x) none

/-- Is a fill in progress, which keeps the planner from supply steps and TDC_LEN writes (R385). -/
def State.fillRuns (s : State) : Bool := s.tdc.fill.any (fun f => !f.swap)

/-- A TDC_LEN write of the planner, of the value that stands there too (R384, R385). -/
def State.planLen (s : State) (g len : Nat) : State :=
  let a := Reg.TDC_LEN + 4 * (g / 16)
  let j := g % 16
  let t := s.setFld a (2 * j + 1) (2 * j) len
  ({ t with age := { t.age with fillDue := setIns g t.age.fillDue } }).plannerMove true

/-- Margin 1 for one group, measured at setting `a` (R384); `now` is false while a fill keeps the move waiting (R385). -/
def State.margin1 (s : State) (now : Bool) (g a : Nat) : State :=
  let sp := s.groupSpans g
  let lo := leastOf sp
  let hi := mostOf sp
  if sp = [] then s
  else if lo ≥ s.fld Reg.AGE_SPAN_THR 10 0 ∧ hi ≤ s.fld Reg.AGE_SPAN_THR 26 16 then s.exhaust 1 g false
  else match chooseLen lo hi a with
    | none => s.exhaust 1 g true
    | some x =>
      let t := s.exhaust 1 g false
      if now then t.planLen g x
      else { t with age := { t.age with lenWait := t.age.lenWait.filter (fun w => w.1 != g) ++ [(g, x)] } }

/-- The planner's part at the end of a fill: FILL_DUE, the moves that waited, and margin 1 for the groups that hold a channel
of `chans` (R384, R385). -/
def State.planFill (s : State) (f : Fill) (chans : List Nat) (ended : Bool) : State :=
  let due := s.age.fillDue.filter (fun g => !(f.internal && f.groups.contains g))
  let t := if ended ∧ f.internal then
      let u := { s with age := { s.age with fillDue := due } }
      if due = [] then u.setBit Reg.AGE_MARGIN 8 false else u
    else s
  let gs := f.groups.filter (fun g => chans.any (fun c => groupOf c == g))
  if !t.marginOn 1 ∨ gs = [] then t
  else
    let waits := if ended then t.age.lenWait.filter (fun w => !gs.contains w.1) else []
    let u := waits.foldl (fun (v : State) w => v.planLen w.1 w.2)
      (if ended then { t with age := { t.age with lenWait := [] } } else t)
    gs.foldl (fun (v : State) g => v.margin1 ended g (lenOf f.len g)) u

/-! ### Code-density commands -/

/-- An internal fill ends: usable tables swap in at once, the settings take effect (R121). -/
def State.endInternal (s : State) (f : Fill) : State :=
  let old := s.lenWords Reg.TDC_LEN_ACT
  let s1 := f.chans.foldl (fun t c =>
    let b := t.banks c
    let na := !b.active
    if b.st na = .table then t.setBanks c { b with active := na }
    else if lenOf old (groupOf c) ≠ lenOf f.len (groupOf c) then
      ((t.setBanks c { b.setSt na .table with active := na }).clearTab c na).clearHist c na
    else t) s
  let ws := f.groups.foldl (fun ws g =>
    ws.set (g / 16) (putBits (nth 0 ws (g / 16)) (2 * (g % 16) + 1) (2 * (g % 16)) (lenOf f.len g))) old
  let s2 := (List.range 4).foldl (fun t i => t.setReg (Reg.TDC_LEN_ACT + 4 * i) (nth 0 ws i)) s1
  ({ s2 with tdc := { s2.tdc with fill := none } }).planFill f f.chans true

/-- A hard result (R120). -/
def State.hardResult (s : State) (c result : Nat) : State :=
  let b := s.banks c
  let t := s.setBanks c { b.setSt (!b.active) .failed with result := result, span := min 2047 b.top }
  ({ t with tdc := { t.tdc with hard := t.tdc.hard + 1 } }).event Reg.TDC_EVT [1]

/-- A running fill stops before N events (R121, R124): every channel left gets ABORTED, no channel swaps. A channel that holds N
events and is not converted yet is among them, DEDUCED in log entry 172. -/
def State.abortFill (s : State) : State :=
  match s.tdc.fill with
  | some f =>
    if f.swap then s
    else
      let s1 := f.remain.foldl (fun t c => t.hardResult c 6) s
      ({ s1 with tdc := { s1.tdc with fill := none } }).planFill f (f.chans.filter (fun c => !f.remain.contains c)) false
  | none => s

/-- A command of TDC_CD_CMD (R124). The channels of a fill are those live at the command, DESIGN CHOICE of log entry 170; during
a transition R124's table judges the mode that is left and R38 the class of the write, DEDUCED in log entry 174. -/
def State.cdCmd (s : State) (op : Nat) : Rep :=
  let m := s.hk.mode
  let modeOk := match op with
    | 1 => m == .calib
    | 2 => m == .calib || m == .run || m == .drain
    | 3 => s.aclkRuns
    | _ => m != .boot
  let gs := s.cdGroups
  let chans := s.liveOf gs
  let eff := match op with
    | 1 | 2 =>
      let len := s.lenWords (if op = 1 then Reg.TDC_LEN else Reg.TDC_LEN_ACT)
      let s1 := { s with tdc := { s.tdc with
        hard := 0, fill := if chans = [] ∧ op = 2 then none else some ⟨op == 1, false, chans, chans, gs, len⟩ } }
      let s2 := chans.foldl (fun t c => t.startFill (lenOf len (groupOf c)) c) s1
      if op = 1 ∧ chans = [] then s2.endInternal ⟨true, false, [], [], gs, len⟩ else s2
    | 3 =>
      let go := chans.filter (fun c => (s.banks c).st (!(s.banks c).active) == .table)
      let s1 := go.foldl (fun t c => t.setBanks c { t.banks c with swapWait := true })
        (s.eventIf (decide (go.length < chans.length)) Reg.TDC_EVT [2])
      { s1 with tdc := { s1.tdc with fill := if go = [] then none else some ⟨false, true, go, go, gs, []⟩ } }
    | _ => s.abortFill
  if op = 0 then .done s
  else if op > 4 then .no Stat.badValue s
  else if !s.allows .writeCfg ∨ !modeOk then .no Stat.stateReject s
  else if op ≠ 4 ∧ s.tdc.fill.isSome then .no Stat.notReady s
  else .done eff

/-- R121: TDC_CD_CMD = FILL_INTERNAL. -/
def execFillInternal (lane : Lane) (s : State) : Outcm := .next (s.access lane Reg.TDC_CD_CMD (fun t => t.cdCmd 1))
/-- R119: TDC_CD_CMD = FILL_LIVE. -/
def execFillLive (lane : Lane) (s : State) : Outcm := .next (s.access lane Reg.TDC_CD_CMD (fun t => t.cdCmd 2))
/-- R122: TDC_CD_CMD = SWAP. -/
def execSwap (lane : Lane) (s : State) : Outcm := .next (s.access lane Reg.TDC_CD_CMD (fun t => t.cdCmd 3))
/-- R124: TDC_CD_CMD = ABORT. -/
def execAbort (lane : Lane) (s : State) : Outcm := .next (s.access lane Reg.TDC_CD_CMD (fun t => t.cdCmd 4))

/-- The sum code a fill's wavefront is sampled at in a channel, and whether a line read 384: as `codes` lists it, else a free
value. -/
def State.launchCode (s : State) (codes : List (Nat × Nat × Bool)) (c : Nat) : Edge × State :=
  match codes.find? (fun x => x.1 == c) with
  | some x => (⟨0, x.2.1, x.2.2⟩, s)
  | none => let d := s.draw; (⟨0, d.1 % 1537, d.1 / 1537 % 2 == 1 && decide (384 ≤ d.1 % 1537)⟩, d.2)

/-- A channel of an internal fill samples its wavefront (R108, R118). -/
def State.launchIn (s : State) (codes : List (Nat × Nat × Bool)) (c : Nat) : State :=
  let r := s.launchCode codes c
  let ovr := Edge.isOverrun r.1
  (if ovr then r.2.overrun else r.2).fillEvent c r.1.s ovr

/-- R119: the fill oscillator launches one wavefront into every channel of the fill. -/
def execFillLaunch (codes : List (Nat × Nat × Bool)) (s : State) : Outcm :=
  if (Instr.fillLaunch codes).wf then
    .next (match s.tdc.fill with
      | some f => if f.internal && !f.swap then f.remain.foldl (fun t c => t.launchIn codes c) s else s
      | none => s)
  else .refused (.illFormed "FILL_LAUNCH")

/-- The result of a filled channel (R120): BIN_SAT before OVERRUN where both hold. -/
def State.fillResult (s : State) (c : Nat) : Nat :=
  let b := s.banks c
  let lo := tabKey c (!b.active) 0
  if s.tdc.hist.any (fun e => decide (lo ≤ e.1 ∧ e.1 < lo + 1408 ∧ e.2 > 65535)) then 4
  else if b.ovr then 5
  else if b.top < 1200 then 2
  else if b.top > 1396 then 3 else 1

/-- The conversion of R118: the histogram becomes a table, from the top code down. A word of the bank that is uncorrectable
or poisoned is converted by its count and keeps its poison: DESIGN CHOICE of log entry 129. An empty bin below every event takes
the formula's 2,048, which a conversion uses as 0: DESIGN CHOICE of log entry 167. -/
def State.convertHist (s : State) (c : Nat) (bank : Bool) : State :=
  let r := (List.range 1408).foldl (fun (p : Nat × State) j =>
    let i := 1407 - j
    let h := Sparse.get 0 s.tdc.hist (tabKey c bank i)
    (p.1 + h, p.2.setTab c bank i ((2 * p.1 + h) / 4096))) (0, s)
  r.2.clearHist c bank

/-- R118: a channel's histogram has reached N events. -/
def execFillConvert (ch : Chan) (s : State) : Outcm :=
  let c := ch.val
  .next (match s.tdc.fill with
    | none => s
    | some f =>
      if f.swap ∨ !f.remain.contains c ∨ (s.banks c).n < fillN then s
      else
        let b := s.banks c
        let r := s.fillResult c
        let s1 := if r = 4 ∨ r = 5 then s.hardResult c r
          else ((s.convertHist c (!b.active)).setBanks c
            { b.setSt (!b.active) .table with result := r, span := b.top, good := b.top }).eventIf (r != 1) Reg.TDC_EVT [3]
        let f' := { f with remain := setDel c f.remain }
        if f'.remain = [] then
          (if f.internal then s1.endInternal f' else ({ s1 with tdc := { s1.tdc with fill := none } }).planFill f' f'.chans true)
        else { s1 with tdc := { s1.tdc with fill := some f' } })

/-- R122: the first tick with no pulse open and no event being converted. -/
def execChannelBankSwap (ch : Chan) (s : State) : Outcm :=
  let c := ch.val
  .next (match s.tdc.fill with
    | none => s
    | some f =>
      if !f.swap ∨ !f.remain.contains c ∨ (s.pulse c).timing ∨ s.tdc.formed.any (fun x => x.chan == c) then s
      else
        let b := s.banks c
        let s1 := s.setBanks c { b with active := !b.active, swapWait := false }
        let rest := setDel c f.remain
        { s1 with tdc := { s1.tdc with fill := if rest = [] then none else some { f with remain := rest } } })

/-! ### Table entries -/

/-- CHANNEL, BANK and ENTRY of TDC_CD_SEL. -/
def State.cdSel (s : State) : Nat × Bool × Nat :=
  (s.fld Reg.TDC_CD_SEL 23 12, s.bit Reg.TDC_CD_SEL 24, s.fld Reg.TDC_CD_SEL 10 0)

/-- ENTRY advances after an access while AUTOINC = 1. -/
def State.cdInc (s : State) : State :=
  if s.bit Reg.TDC_CD_SEL 31 then s.setFld Reg.TDC_CD_SEL 10 0 (s.fld Reg.TDC_CD_SEL 10 0 + 1) else s

/-- What an entry reads as: the fine code of a table, the count of a histogram. -/
def State.cdEntry (s : State) (c : Nat) (bank : Bool) (i : Nat) : Nat :=
  if i ≥ 1408 then 0
  else if (s.banks c).st bank = .table then s.tabAt c bank i
  else min 65535 (Sparse.get 0 s.tdc.hist (tabKey c bank i))

/-- Does the selected entry take no write: it does not exist, or its bank is active or filling (R123). -/
def State.cdShut (s : State) : Bool :=
  let b := s.banks s.cdSel.1
  decide (s.cdSel.2.2 ≥ 1408) || s.cdSel.2.1 == b.active || b.st s.cdSel.2.1 == .filling

/-- The selected entry takes a value, and its bank becomes a TABLE (R123). A FAILED bank keeps what its other entries
hold. -/
def State.cdStore (t : State) (v : Nat) : State :=
  let c := t.cdSel.1
  let bank := t.cdSel.2.1
  let b := t.banks c
  let t1 := if b.st bank = .failed then
      (List.range 1408).foldl (fun u j => u.setTab c bank j (t.cdEntry c bank j)) (t.clearHist c bank) else t
  ((t1.setTab c bank t.cdSel.2.2 v).setBanks c (b.setSt bank .table)).cdInc

/-- A write of TDC_CD_DATA (R123): VALUE is all 16 bits of the entry, DESIGN CHOICE of log entry 130. A register that is
locked whole keeps the entry's present value (R72). -/
def State.cdDataWrite (s : State) (data : W32) (be : BitVec 4) : Rep :=
  let c := s.cdSel.1
  let bank := s.cdSel.2.1
  let i := s.cdSel.2.2
  let old : W32 := BitVec.ofNat 32 (s.cdEntry c bank i)
  let v := bits (mergeBE old data be) 15 0
  s.guardedR false (s.lockDiff Reg.TDC_CD_DATA old (BitVec.ofNat 32 v)) .writeCfg s.cdShut
    (s.merged .fed 0x12 (tabIdx c bank i) (fun t => t.cdStore v))

/-- R123: a write of TDC_CD_DATA. -/
def execCdTableWrite (lane : Lane) (data : W32) (be : BitVec 4) (s : State) : Outcm :=
  .next (s.accessW lane Reg.TDC_CD_DATA be (fun t => t.cdDataWrite data be))

/-- A read of TDC_CD_DATA (R123, R402). An entry at or above 1,408 reads zero and counts for AUTOINC, DESIGN CHOICE of log
entry 173. -/
def State.cdDataRead (s : State) : Rep :=
  let c := s.cdSel.1
  let bank := s.cdSel.2.1
  let i := s.cdSel.2.2
  let r := if i ≥ 1408 then (true, s) else s.memRead .fed 0x12 (tabIdx c bank i)
  if !s.allows .readOther then .no Stat.stateReject s
  else if r.1 then ⟨Stat.ok, BitVec.ofNat 32 (r.2.cdEntry c bank i), r.2.cdInc⟩
  else .no Stat.uncorrectable r.2

/-- R123: a read of TDC_CD_DATA, with AUTOINC. -/
def execCdTableReadAutoinc (lane : Lane) (s : State) : Outcm :=
  .next (s.access lane Reg.TDC_CD_DATA (fun t => t.cdDataRead))

/-! ### Skew accumulators -/

/-- A write of TDC_SKW_CTRL (R126). -/
def State.skwWrite (s : State) (data : W32) (be : BitVec 4) : Rep :=
  let v := mergeBE (s.reg Reg.TDC_SKW_CTRL) data be
  let s1 := s.storeFields Reg.TDC_SKW_CTRL v
  s.guarded false (s.lockHit Reg.TDC_SKW_CTRL v) .writeCfg false
    (if bitOf v 1 ∧ be.getLsbD 0 then { s1 with tdc := { s1.tdc with skew := [] } } else s1)

/-- R126: TDC_SKW_CTRL.CLEAR. -/
def execSkewClear (lane : Lane) (data : W32) (be : BitVec 4) (s : State) : Outcm :=
  .next (s.accessW lane Reg.TDC_SKW_CTRL be (fun t => t.skwWrite (data ||| 2) be))

/-- TDC_SKW_MEAN of the selected channel (R126). -/
def State.skwMean (s : State) : W32 :=
  let a := Sparse.get (0, 0) s.tdc.skew s.cdSel.1
  let m := if a.1 = 0 then 0 else max (-32768) (min 32767 (roundDiv (4 * a.2) a.1))
  word32 [(a.1, 16), (patternW 16 m, 16)]

end Sys2Proof.Machine
end

