-- ==== Sys2Proof/Machine/Waveform.lean ====
section
/-! DEFINITION. Waveform capture and reduction (R128 to R147): rings, keeps and releases, conversion, reduction, and the
meanings of their commands. -/

namespace Sys2Proof.Machine

/-! ### Rings -/

/-- The key of a ring. -/
abbrev ringKey (c r : Nat) : Nat := 4 * c + r

/-- The lowest FREE ring starts at a tick's first sample while the channel has no SAMPLING ring (R132). -/
def startFree (tick : Nat) (rs : List RingCell) : List RingCell :=
  if rs.any (fun x => x.st == 1) then rs
  else match rs.findIdx? (fun x => x.st == 0) with
    | some i => rs.set i { RingCell.free with st := 1, start := 8 * tick }
    | none => rs

/-- Is anything stored of a channel's rings since the samplers started. -/
def State.ringsStored (s : State) (c : Nat) : Bool :=
  Sparse.has s.wf.due c || (List.range 4).any (fun j => Sparse.has s.wf.rings (ringKey c j))

/-- The tick at whose first sample a ring of the channel starts, 0 where none is to (R132). -/
def State.ringDue (s : State) (c : Nat) : Nat :=
  if s.ringsStored c then Sparse.get 0 s.wf.due c else s.wf.sampStart.getD 0

/-- A ring as it stands in a tick: FREE where its time to become so has come (R139). -/
def RingCell.at (x : RingCell) (tick : Nat) : RingCell := if x.freeAt ≠ 0 ∧ x.freeAt ≤ tick then RingCell.free else x

/-- The four rings of a channel as they stand in a tick: a start that is due by then has come. -/
def State.ringsBy (s : State) (c tick : Nat) : List RingCell :=
  let rs := (List.range 4).map (fun j => (Sparse.get RingCell.free s.wf.rings (ringKey c j)).at tick)
  if s.wf.sampStart.isNone then rs.map (fun _ => RingCell.free)
  else if s.ringDue c ≠ 0 ∧ s.ringDue c ≤ tick then startFree (s.ringDue c) rs else rs

/-- The four rings of a channel now, and one of them. -/
def State.ringsOf (s : State) (c : Nat) : List RingCell := s.ringsBy c s.tb.tn
def State.ringAt (s : State) (c r : Nat) : RingCell := nth RingCell.free (s.ringsOf c) r

/-- Write the four rings of a channel as they stand in a tick. With no SAMPLING ring one starts at tick `next`, or at an
earlier start that is still due; with no FREE one either, in the tick after one becomes FREE (R132). -/
def State.setRings (s : State) (c tick next : Nat) (rs : List RingCell) : State :=
  let m := (List.range 4).foldl (fun m j => Sparse.put RingCell.free (ringKey c j) (nth RingCell.free rs j) m) s.wf.rings
  let d := if rs.any (fun x => x.st == 1) then 0
    else if !rs.any (fun x => x.st == 0) then
      (match rs.find? (fun x => x.freeAt != 0) with
       | some x => x.freeAt + 1
       | none => 0)
    else if s.ringDue c > tick then min (s.ringDue c) next else next
  { s with wf := { s.wf with rings := m, due := Sparse.put 0 c d s.wf.due } }

/-- A ring becomes FREE at the end of a tick (R132). -/
def State.freeRing (s : State) (c r tick : Nat) : State :=
  s.setRings c tick (tick + 1) ((s.ringsBy c tick).set r RingCell.free)

/-- The samplers start at the next tick (R132). -/
def State.startSamplers (s : State) : State :=
  { s with wf := { s.wf with sampStart := some (s.tb.tn + 1), rings := [], due := [], waiting := [], released := [],
                             noticed := [], adc := [], units := [] } }

/-- The samplers and the ADCs stop (R140). -/
def State.stopSamplers (s : State) : State :=
  { s with wf := { s.wf with sampStart := none, rings := [], due := [], waiting := [], released := [], noticed := [],
                             adc := [] } }

/-! ### Captures -/

/-- The last raw sample of a capture, its first cell and the tick of its freeze (R130, R133). -/
def Capture.last (p : Capture) : Nat := p.high / 256 + p.post
def Capture.first (p : Capture) : Int := (p.last : Int) - 63
def Capture.freeze (p : Capture) : Nat := (p.last + 1) / 8

/-- OFFSET and PHASE (R131). -/
def Capture.offset (p : Capture) : Int := p.first - ((p.lead / 256 : Nat) : Int)
def Capture.phase (p : Capture) : Nat := p.lead % 256

/-- The corrected tick of a capture's hit. -/
def Capture.tick (p : Capture) : Nat := p.c / 2048

/-- A WAVE unit (R144, R145): header and sample words as hit-path entries. -/
def State.waveUnit (s : State) (p : Capture) (red status : Nat) (ws : List W64) : WaveUnit :=
  let h := recWave s.source p.chan (p.tick % 2 ^ s.k) p.phase p.offset red ws.length status
  let n := s.sliceOf p.tick
  let all := h :: ws
  { adc := p.chan / 8, group := groupOf p.chan,
    ents := all.mapIdx (fun i w => ⟨w, .wave, p.chan, p.c, n, ws.length - i, false⟩) }

/-- A unit waits for its group FIFO; outside a run no record is made (R44). -/
def State.unitIn (s : State) (p : Capture) (u : WaveUnit) : State :=
  if s.recording p.c then { s with wf := { s.wf with units := s.wf.units ++ [u] } } else s

/-- Take the capture of a channel whose freeze comes first, the oldest of equal ones (R130, R136). -/
def takeCapture (c : Nat) : List Capture → Option (Capture × List Capture)
  | [] => none
  | p :: t =>
    match takeCapture c t with
    | none => if p.chan = c then some (p, t) else none
    | some r => if p.chan = c ∧ p.last ≤ r.1.last then some (p, t) else some (r.1, p :: r.2)

/-- R130, R132: a captured hit's freeze falls due. EN, KEEP_ALL and BUDGET are those in force now (R136). -/
def execRingFreeze (ch : Chan) (s : State) : Outcm :=
  let c := ch.val
  .next (match takeCapture c s.wf.waiting with
    | none => s
    | some (p0, rest) =>
      let p := { p0 with budget := s.wfBudget, keepAll := s.bit Reg.WF_CTRL 1 }
      let s := ({ s with wf := { s.wf with waiting := rest } }).advanceTo p.freeze
      let rs := s.ringsBy c p.freeze
      if !s.bit Reg.WF_CTRL 0 then s
      else match rs.findIdx? (fun x => x.st == 1 && decide (x.start ≤ p.last)) with
      | some i =>
        let cell : RingCell := ⟨if p.keepAll then 3 else 2, (nth RingCell.free rs i).start, some p, p.freeze, 0⟩
        let t := s.setRings c p.freeze (p.freeze + 1) (rs.set i cell)
        if p.keepAll then t.count Reg.WF_KEPT_CNT 1 else t
      | none =>
        let t := (({ s with wf := { s.wf with released := s.wf.released ++ [p] } }).count Reg.WF_NORING_CNT 1).event
          Reg.WF_EVT [1]
        t.unitIn p (t.waveUnit p 6 2 []))

/-! ### Keep and release -/

/-- Is a CD's message heard: it is named by the authority register, or that changed at most 1 µs ago (R166, R174, R314). -/
def State.heard (s : State) (b : Bool) : Bool := b == s.rd.activeB || decide (s.tb.tn ≤ s.rd.authAt + 320)

/-- A HELD ring is released at the end of a tick (R134). -/
def State.release (s : State) (c r tick : Nat) : State :=
  match (s.ringAt c r).cap with
  | some p =>
    (({ s with wf := { s.wf with released := s.wf.released ++ [p] } }).freeRing c r tick).count Reg.WF_RELEASED_CNT 1
  | none => s.freeRing c r tick

/-- The listed rings that are HELD. -/
def State.heldRings (s : State) : List (Nat × Nat × Capture) :=
  s.wf.rings.filterMap (fun e =>
    match e.2.cap with
    | some p => if e.2.st = 2 then some (e.1 / 4, e.1 % 4, p) else none
    | none => none)

/-- A ring becomes KEPT in a tick (R134). -/
def State.keepRing (s : State) (c r now : Nat) (x : RingCell) : State :=
  (s.setRings c now (now + 1) ((s.ringsBy c now).set r { x with st := 3, keptAt := now })).count Reg.WF_KEPT_CNT 1

/-- A keep in the tick of the release-through notice that freed a ring prevails (R134): the ring is KEPT, and its release
has not been. -/
def State.unrelease (s : State) (now key : Nat) (x : RingCell) : State :=
  let p := x.cap
  let t := { s with wf := { s.wf with
    released := s.wf.released.filter (fun q => some q != p),
    noticed := s.wf.noticed.filter (fun e => e.2.1 != key) } }
  (t.setReg Reg.WF_RELEASED_CNT (t.reg Reg.WF_RELEASED_CNT - 1)).keepRing (key / 4) (key % 4) now x

/-- A keep window reaches the FED in a tick (R134, R135). -/
def State.keepWindow (s : State) (first last now : Nat) : State :=
  let covers := fun (p : Capture) => decide (first ≤ p.tick ∧ p.tick ≤ last)
  let due := s.heldRings.filter (fun h => decide (h.2.2.freeze + h.2.2.budget < now))
  let s0 := due.foldl (fun t h => t.release h.1 h.2.1 (h.2.2.freeze + h.2.2.budget)) s
  let back := s0.wf.noticed.filter (fun e => e.1 == now && (match e.2.2.cap with | some p => covers p | none => false))
  let s1 := back.foldl (fun t e => t.unrelease now e.2.1 e.2.2) s0
  let late := (s1.wf.released.filter covers).length
  let s2 := if late = 0 then s1 else (s1.count Reg.WF_LATE_KEEP_CNT late).event Reg.WF_EVT [3]
  (s2.heldRings.filter (fun h => covers h.2.2 && decide (h.2.2.freeze < now))).foldl (fun t h =>
    t.keepRing h.1 h.2.1 now (t.ringAt h.1 h.2.1)) s2

/-- R134, R166: the FED receives a keep window, from either link while both CDs may act. -/
def execKeepWindowReceive (fromB : Bool) (first last now : Nat) (s : State) : Outcm :=
  .next (let s := s.advanceTo now
    if s.heard fromB then s.keepWindow first last now else s)

/-- A release-through notice names a tick (R134): the rings it frees are noted while its tick lasts, in which a keep would
prevail where their budgets have not ended. -/
def State.releaseThrough (s : State) (x now : Nat) : State :=
  let go := s.heldRings.filter (fun h => decide (h.2.2.tick < x ∧ h.2.2.freeze < now))
  let open' := go.filter (fun h => decide (now ≤ h.2.2.freeze + h.2.2.budget))
  let was := s.wf.noticed.filter (fun e => e.1 == now) ++ open'.map (fun h => (now, ringKey h.1 h.2.1, s.ringAt h.1 h.2.1))
  go.foldl (fun t h => t.release h.1 h.2.1 now) { s with wf := { s.wf with noticed := was } }

/-- R134, R166, R193: the FED acts on a RELEASE of its own generation from the CD that the authority register names. -/
def execReleaseThroughReceive (issuer : Issuer) (x now : Nat) (s : State) : Outcm :=
  .next (let s := s.advanceTo now
    if issuer.gen = s.fed.gen ∧ issuer.fromB = s.rd.activeB then s.releaseThrough x now else s)

/-- R134: the hold budget of a HELD ring ends. -/
def execHoldBudgetExpire (ch : Chan) (ring : Fin 4) (s : State) : Outcm :=
  let x := s.ringAt ch.val ring.val
  .next (match x.cap with
    | some p => if x.st = 2 then (s.advanceTo (p.freeze + p.budget + 1)).release ch.val ring.val (p.freeze + p.budget) else s
    | none => s)

/-! ### Conversion and reduction -/

/-- `E` of R139: the close of the hit's slice. -/
def State.waveEnd (s : State) (p : Capture) : Nat := (p.tick / 2 ^ s.k + 1) * 2 ^ s.k + s.late

/-- Does ring `a` go before ring `b` at the ADC (R138): the freezes compare by their samples. -/
def ringBefore (a b : Nat × RingCell) : Bool :=
  let f := fun (x : Nat × RingCell) => (x.2.cap.map Capture.last).getD 0
  decide (a.2.keptAt < b.2.keptAt) ||
    (a.2.keptAt == b.2.keptAt && (decide (f a < f b) || (f a == f b && decide (a.1 < b.1))))

/-- The KEPT ring of an ADC's channels that goes next, in a tick. -/
def State.nextKept (s : State) (a now : Nat) : Option (Nat × RingCell) :=
  (s.wf.rings.filter (fun e => e.1 / 32 == a && e.2.st == 3 && e.2.freeAt == 0 &&
      (match e.2.cap with
       | some p => decide (now + 320 ≤ s.waveEnd p)
       | none => false))).foldl
    (fun best e => match best with
      | none => some e
      | some b => some (if ringBefore e b then e else b)) none

/-- Has a unit's group FIFO room for it whole (R138, R189). -/
def State.unitRoom (s : State) (u : WaveUnit) : Bool := decide ((s.group u.group).fifo.length + u.ents.length ≤ 511)

/-- R138: an idle ADC starts a conversion; none while a unit in its output buffer waits for room. -/
def execAdcConversionStart (adc : Adc) (now : Nat) (s : State) : Outcm :=
  .next (let s := s.advanceTo now
    if (Sparse.get none s.wf.adc adc.val).isSome ∨ s.wf.units.any (fun u => u.adc == adc.val && !s.unitRoom u) then s
    else match s.nextKept adc.val now with
      | none => s
      | some e =>
        let c := e.1 / 4
        let r := e.1 % 4
        let t := s.setRings c s.tb.tn (s.tb.tn + 1) ((s.ringsOf c).set r { e.2 with st := 4 })
        { t with wf := { t.wf with adc := Sparse.put none adc.val (some (c, r)) t.wf.adc } })

/-- A corrected count (R137). -/
def State.adcValue (s : State) (a raw : Nat) : Nat :=
  let e := Sparse.get 0 s.cal.adc a
  let v := (((raw : Int) + signedW 12 (bits e 27 16)) * (bits e 15 0 : Nat) + 16384) / 32768
  (max 1 (min 4095 v)).toNat

/-- The reduction of a slice's waveforms (R141): RED. -/
def State.redOf (s : State) (slice : Nat) : Nat :=
  let i0 := Sparse.get s.wfInterval s.wf.intv slice
  match Sparse.get 0 s.wf.level slice with
  | 0 => i0
  | 1 => min 4 (i0 + 1)
  | _ => 5

/-- Minimum and maximum of the written cells of each interval (R142); an unwritten cell holds 0. -/
def minmax (n : Nat) : Nat → List Nat → List Nat
  | 0, _ => []
  | m + 1, cells =>
    let w := (cells.take n).filter (fun v => v != 0)
    (if w = [] then [0, 0] else [w.foldl min 4095, w.foldl max 0]) ++ minmax n m (cells.drop n)

/-- The summary (R143). -/
def summary (cells : List Nat) : List Nat :=
  let w := cells.filter (fun v => v != 0)
  let sum := w.foldl (· + ·) 0
  let peak := w.foldl max 0
  let four := w.take 4
  let n := four.length
  [sum / 4096, sum % 4096, peak, (cells.findIdx? (fun v => v == peak && v != 0)).getD 0,
   if n = 0 then 0 else (four.foldl (· + ·) 0 + n / 2) / n]

/-- The values of a reduction. -/
def reduceCells (red : Nat) (cells : List Nat) : List Nat :=
  match red with
  | 0 => cells
  | 1 => minmax 2 32 cells
  | 2 => minmax 4 16 cells
  | 3 => minmax 8 8 cells
  | 4 => minmax 16 4 cells
  | _ => summary cells

/-- Values packed into sample words (R142, R145). -/
def packWave (red : Nat) (vs : List Nat) : List W64 :=
  let n := (vs.length + 4) / 5
  (chunks 5 n vs).mapIdx (fun i c => waveWord (i + 1 == n) red c)

/-- R137, R138: a conversion ends; its unit goes to the ADC's output buffer and its ring is FREE. -/
def execAdcConversionEnd (adc : Adc) (raw : List Nat) (s : State) : Outcm :=
  if (Instr.adcConversionEnd adc raw).wf then
    .next (match Sparse.get none s.wf.adc adc.val with
      | none => s
      | some (c, r) =>
        let x := s.ringAt c r
        let s1 := { s with wf := { s.wf with adc := Sparse.put none adc.val none s.wf.adc } }
        match x.cap with
        | none => s1.freeRing c r s.tb.tn
        | some p =>
          let cells := raw.mapIdx (fun i v => if p.first + (i : Int) < (x.start : Int) then 0 else s.adcValue adc.val v)
          let red := s.redOf (s.sliceOf p.tick)
          let partly := decide (p.first < (x.start : Int))
          let u := s.waveUnit p red (b2n partly) (packWave red (reduceCells red cells))
          ((s1.freeRing c r s.tb.tn).unitIn p u).eventIf (partly && s.recording p.c) Reg.WF_EVT [0])
  else .refused (.illFormed "ADC_CONVERSION_END")

/-- A KEPT ring past its deadline becomes FREE in the tick after its header fell due (R139). -/
def State.freeAfter (s : State) (c r : Nat) : State :=
  let rs := s.ringsBy c s.tb.tn
  s.setRings c s.tb.tn (s.tb.tn + 1) (rs.set r { nth RingCell.free rs r with freeAt := s.tb.tn + 1 })

/-- R139: a KEPT ring past its last start: its header falls due, and the ring is FREE in the tick after. -/
def execWaveDeadline (ch : Chan) (ring : Fin 4) (s : State) : Outcm :=
  let x := s.ringAt ch.val ring.val
  .next (match x.cap with
    | some p =>
      if x.st = 3 ∧ x.freeAt = 0 then
        let s := s.advanceTo (s.waveEnd p - 319)
        (((s.freeAfter ch.val ring.val).unitIn p (s.waveUnit p 6 3 [])).count Reg.WF_DEADLINE_CNT 1).event
          Reg.WF_EVT [2]
      else s
    | none => s)

/-! ### Into the group FIFO -/

/-- Has the HIT of a unit reached its FIFO, or been dropped (R132, R146). -/
def State.hitGone (s : State) (u : WaveUnit) : Bool :=
  match u.ents with
  | [] => true
  | e :: _ =>
    let p := s.pulse e.chan
    !(p.timing && corrected p.lead p.skew == e.c) && !s.tdc.formed.any (fun f => f.chan == e.chan && f.c == e.c) &&
      !(s.group u.group).stage.any (fun x => x.chan == e.chan && x.c == e.c)

/-- Can a unit be written now: its HIT has gone before it, and the FIFO has room for the whole unit (R189). -/
def State.unitFits (s : State) (u : WaveUnit) : Bool :=
  s.hitGone u && s.unitRoom u

/-- Take the first unit of a group that can be written; `held` are the ADCs whose buffer holds an earlier unit, behind which
theirs wait in order. -/
def State.takeUnit (s : State) (g : Nat) : List Nat → List WaveUnit → Option (WaveUnit × List WaveUnit)
  | _, [] => none
  | held, u :: t =>
    if u.group = g ∧ !held.contains u.adc ∧ s.unitFits u then some (u, t)
    else (s.takeUnit g (u.adc :: held) t).map (fun r => (r.1, u :: r.2))

/-- R189: a waiting WAVE unit of a group, the first of its ADC's output buffer, is written whole, when it fits. -/
def execWaveUnitWrite (g : Group) (s : State) : Outcm :=
  .next (match s.takeUnit g.val [] s.wf.units with
    | none => s
    | some (u, rest) =>
      let x := s.group g.val
      ({ s with wf := { s.wf with units := rest } }).setGroup g.val { x with fifo := x.fifo ++ u.ents })

/-- Is a ring of the run's hits still to be resolved: HELD, KEPT or CONVERTING, or its freeze or its unit waits (R140). -/
def State.ringsOpen (s : State) : Bool :=
  s.wf.rings.any (fun e => decide (2 ≤ e.2.st) && e.2.freeAt == 0 && (match e.2.cap with | some p => s.inRun p.c | none => false)) ||
    s.wf.waiting.any (fun p => s.inRun p.c) || s.wf.units.any (fun u => u.ents.any (fun e => s.inRun e.c))

end Sys2Proof.Machine
end

