-- ==== Sys2Proof/Machine/Timing.lean ====
section
/-! DEFINITION. Values that the trigger and slice chapters derive from their registers: the applied alignment, windows
and latencies (R149, R165, R167, R172, R173), the applied lateness window and peer wait (R215, R223), and the moment at
which held writes act (R213). -/

namespace Sys2Proof.Machine

/-! ### Peers -/

/-- The receive side of a source (R16). -/
def State.peer (s : State) (i : Nat) : Peer := Sparse.get Peer.empty s.ulp.peers i

def State.setPeer (s : State) (i : Nat) (p : Peer) : State :=
  { s with ulp := { s.ulp with peers := Sparse.put Peer.empty i p s.ulp.peers } }

/-- The lanes that the image assigns to a source (R269). -/
def State.peerLanes (s : State) (i : Nat) : List Nat :=
  (List.range 32).filter (fun n => s.laneRole n == 3 && s.fld (laneCfg n) 26 24 == i)

/-- The configured sources of a HEAD (R17). -/
def State.configured (s : State) : List Nat :=
  if s.role = .head then (List.range 8).filter (fun i => i != 0 && s.peerLanes i != []) else []

/-- The admitted lanes of a source (R16). -/
def State.sourceLanes (s : State) (i : Nat) : List Nat := (s.peerLanes i).filter (fun n => (s.lane n).admitted)

/-- The admitted sources of a HEAD (R16). -/
def State.admitted (s : State) : List Nat := s.configured.filter (fun i => s.sourceLanes i != [])

/-- A unit leaves on a source's lowest lane that is UP (R294). -/
def State.sendUnit (s : State) (i : Nat) (u : W64) : State :=
  match (s.sourceLanes i).find? s.laneUp with
  | some n => s.sendInSlot n u
  | none => s

/-! ### Trigger timing -/

/-- A as applied (R149). -/
def State.trgA (s : State) : Nat := max 144 (bits (s.eff Reg.TRG_ALIGN) 9 0)

def State.keepPre (s : State) : Nat := bits (s.eff Reg.TRG_KEEP_WIN) 10 0
def State.keepPost (s : State) : Nat := bits (s.eff Reg.TRG_KEEP_WIN) 26 16
def State.limbPre (s : State) : Nat := bits (s.eff Reg.TRG_LIMB_WIN) 11 0
def State.limbPost (s : State) : Nat := bits (s.eff Reg.TRG_LIMB_WIN) 27 16
/-- STRETCH as applied (R172). -/
def State.stretch (s : State) : Nat := max 1 (min 64 (bits (s.eff Reg.TRG_BUS_CFG) 6 0))

/-- A hop entry (R172): VALID and DLY. -/
def State.hop (s : State) (i : Nat) : Bool × Nat :=
  let e := Sparse.get 0 s.cal.hop i
  (bitOf e 31, bits e 11 0)

/-- The slots admitted to the ring (R172). -/
def State.ringSlots (s : State) : List Nat := s.admitted.filter (fun i => (s.hop i).1)

/-- Dring (R172); no slot needs realigning where none is admitted. -/
def State.dring (s : State) : Nat :=
  match s.ringSlots.map (fun i => (s.hop i).2) with
  | [] => 0
  | k :: ks => (s.hop 0).2 - ks.foldl min k + 15

/-- The wall ticks between a tick and its evaluation (R149, R172). -/
def State.evalLag (s : State) : Nat := s.trgA + s.dring

/-- Ld, and the keep latency to the own FED (R173). -/
def State.ld (s : State) : Nat := s.evalLag + 3
def State.keepLat (s : State) : Nat := s.evalLag + 5

/-! ### Applied values -/

/-- Are writes held to the next run (R213, R215): a run stands, or its entry has begun. -/
def State.holdsRun (s : State) : Bool :=
  s.run.active || s.hk.mode == .run || s.hk.mode == .drain || s.hk.target == some .run

/-- The registers whose writes in RUN or DRAIN wait for the next run: SLC_CFG for its entry (R213), the others for its
first tick. -/
def heldRegs : List Nat :=
  [Reg.SLC_CFG, Reg.SLC_LATE, Reg.TRG_ALIGN, Reg.TRG_KEEP_WIN, Reg.TRG_LIMB_WIN, Reg.TRG_BUS_CFG, Reg.PRS_CFG]

/-- The registers that have an applied copy; SLC_PEER_WAIT waits for nothing (R223). -/
def appliedRegs : List Nat := Reg.SLC_PEER_WAIT :: heldRegs

/-- The limits of L (R215). -/
def State.lateLimits (s : State) : Nat × Nat :=
  (if s.role = .limb then 512 else max 512 (s.ld + 8), min 32767 (63 * 2 ^ s.k))

/-- A value within limits, the upper one deciding last. -/
def clampTo (lim : Nat × Nat) (v : Nat) : Nat := min lim.2 (max lim.1 v)

/-- The values of the registers `rs` take effect: their applied copies follow them, SLC_EFF the limits; an adjusted value
sets CFG_CLAMP when it is applied anew (R149, R172, R213, R215, R223). -/
def State.latch (s : State) (rs : List Nat) : State :=
  let changed := rs.filter (fun a => s.eff a != s.reg a)
  let old := s.eff Reg.SLC_EFF
  let s1 := rs.foldl (fun t a => t.setEff a (t.reg a)) s
  let l := bits (s1.eff Reg.SLC_LATE) 14 0
  let w := bits (s1.eff Reg.SLC_PEER_WAIT) 12 0
  let l' := clampTo s1.lateLimits l
  let w' := clampTo (1280, 7680) w
  let new := word32 [(w', 16), (l', 16)]
  let fresh := fun (a : Nat) => changed.contains a
  let slc := (fresh Reg.SLC_CFG && bits (s1.eff Reg.SLC_CFG) 9 8 == 3) ||
    (l' != l && (fresh Reg.SLC_LATE || bits new 14 0 != bits old 14 0)) || (w' != w && fresh Reg.SLC_PEER_WAIT)
  let st := bits (s1.eff Reg.TRG_BUS_CFG) 6 0
  let trg := (fresh Reg.TRG_ALIGN && decide (bits (s1.eff Reg.TRG_ALIGN) 9 0 < 144)) ||
    (fresh Reg.TRG_BUS_CFG && (st == 0 || decide (st > 64)))
  (((s1.setEff Reg.SLC_EFF new).eventIf slc Reg.SLC_EVT [4])).eventIf trg Reg.TRG_EVT [0]

/-- What a write of a register with an applied copy brings into force: that register alone, and nothing while its writes
are held. -/
def State.latchNow (s : State) (a : Nat) : State :=
  if heldRegs.contains a && s.holdsRun then s else s.latch [a]

/-- The slice `n` that a CD has opened: open, closed, or emitted of late. -/
def Cd.slice (c : Cd) (n : Nat) : Option SliceSt := (c.opened ++ c.closed ++ c.past).find? (fun x => x.n == n)

/-- Is slice `n` still to be emitted. -/
def Cd.holdsSlice (c : Cd) (n : Nat) : Bool := (c.opened ++ c.closed).any (fun x => x.n == n)

/-- Is slice `n` closed (R215). -/
def Cd.isClosed (c : Cd) (n : Nat) : Bool :=
  match c.lastClosed with
  | some l => decide (sdiff n l ≤ 0)
  | none => false

end Sys2Proof.Machine
end

