-- ==== Sys2Proof/Machine/HitPath.lean ====
section
/-! DEFINITION. The hit path (R189 to R212): group FIFOs, inner-link beats, retention, the Colander, the Pantry queues,
credit, the flush rule and the privileged-queue reads, with the meanings of their commands. -/

namespace Sys2Proof.Machine

/-! ### Group FIFOs -/

/-- R189: the oldest record of a group's input stage takes its write slot. A hit that finds 511 entries is dropped (R191);
a loss record may take the reserved entry. -/
def execGroupFifoWrite (g : Group) (s : State) : Outcm :=
  let x := s.group g.val
  .next (match x.stage with
    | [] => s
    | e :: rest =>
      if x.fifo.length < 511 ∨ (e.kind = .loss ∧ x.fifo.length < 512) then
        s.setGroup g.val { x with stage := rest, fifo := x.fifo ++ [e] }
      else if e.kind = .loss then s
      else (s.setGroup g.val { x with stage := rest }).gfifoDrop e.chan)

/-- R191: the full flag has cleared: one loss record covers the hits dropped since the last one. -/
def execGfifoLossWrite (g : Group) (s : State) : Outcm :=
  let x := s.group g.val
  .next (if x.dropN = 0 ∨ x.fifo.length ≥ 511 then s
    else
      let e : Ent := ⟨recLoss s.source x.dropLo x.dropHi x.dropN 5, .loss, x.dropLo, 0, s.curSlice, 0, false⟩
      (s.setGroup g.val { x with fifo := x.fifo ++ [e], dropN := 0, dropLo := 0, dropHi := 0 }).errLoss .fed 5)

/-! ### Inner links -/

/-- Does CCLK run: from the entry of RUN or CALIB to the end of the run's drain (R36, R48). -/
def State.cclkRuns (s : State) : Bool := s.run.active || s.hk.mode == .calib || s.hk.mode == .run || s.hk.mode == .drain

/-- The records of a beat: up to `n` from the front, no part of a WAVE unit beyond the allowance (R192, R205). -/
def takeBeat : Nat → Nat → List Ent → List Ent
  | 0, _, _ => []
  | _, _, [] => []
  | n + 1, allow, e :: t => if e.more + 1 ≤ allow then e :: takeBeat n (allow - 1) t else []

/-- Can a group send (R192, R205). -/
def GroupSt.ready (x : GroupSt) : Bool := takeBeat 1 x.allow x.fifo != []

/-- The next group that can send, in round-robin order after the last one served. -/
def State.nextGroup (s : State) : Option Nat :=
  ((List.range 64).map (fun i => (s.fed.rr + 1 + i) % 64)).find? (fun g => (s.group g).ready)

/-- The word of MEM 0x11 that holds the copy at a position. -/
def Fed.copyWord (f : Fed) (pos : Nat) : Nat := (f.retHead + pos) % 524288

/-- A retention copy (R194). -/
def State.retain (s : State) (now : Nat) (g : Nat) (e : Ent) : State :=
  let c : RetCopy := ⟨e, g, now % 2 ^ 24⟩
  let s := s.memClean .fed 0x11 (s.fed.copyWord s.fed.ret.length)
  match s.fed.ret with
  | o :: rest =>
    if s.fed.ret.length < 524288 then { s with fed := { s.fed with ret := s.fed.ret ++ [c] } }
    else
      let s1 := { s with fed := { s.fed with
        ret := rest ++ [c], retHead := s.fed.copyWord 1, retShort := true, retLost := o.ent.slice } }
      (s1.count Reg.FE_RET_OVW_CNT 1).event Reg.FE_DP_EVT [1]
  | [] => { s with fed := { s.fed with ret := [c] } }

/-- A copy is read for the walk: of an uncorrectable one a loss record of its group goes in its place (R343 class 8). -/
def State.readCopy (s : State) (word : Nat) (c : RetCopy) : Ent × State :=
  if s.dead .fed 0x11 word then
    ({ c.ent with word := recLoss s.source (64 * c.group) (64 * c.group + 63) 1 8, kind := .loss, chan := 64 * c.group, more := 0 },
      s.memLoss .fed 0x11 word 8 true)
  else (c.ent, (s.memRead .fed 0x11 word).2)

/-- The copies of a beat are read, from a word on. -/
def State.readCopies : Nat → List RetCopy → State → List Ent × State
  | _, [], s => ([], s)
  | w, c :: t, s =>
    let r := s.readCopy (w % 524288) c
    let q := State.readCopies (w + 1) t r.2
    (r.1 :: q.1, q.2)

/-- A beat of the retention walk (R322): the oldest copies of one group, under the credit of that group; copies are not
copied again. -/
def State.walkBeat (s : State) (w : List RetCopy) : State :=
  match w with
  | [] => s
  | c :: _ =>
    let x := s.group c.group
    let same := w.takeWhile (fun d => d.group == c.group)
    let es := takeBeat 4 x.allow (same.map RetCopy.ent)
    let n := es.length
    if n = 0 then s
    else
      let r := State.readCopies (s.fed.retHead + (s.fed.ret.length - w.length)) (w.take n) s
      let s1 := r.2.setGroup c.group { x with allow := x.allow - n }
      { s1 with fed := { s1.fed with
        walk := some (w.drop n),
        beats := s1.fed.beats ++ [Beat.mk c.group s1.fed.gen r.1 ((w.take n).map RetCopy.tick)] } }

/-- R192: the next beat leaves on both links, and its records are copied into retention (R194). -/
def execInnerLinkBeat (now : Nat) (s : State) : Outcm :=
  .next (let s := s.advanceTo now
    if !s.cclkRuns then s
    else match s.fed.walk with
      | some w => s.walkBeat w
      | none =>
        match s.nextGroup with
        | none => s
        | some g =>
          let x := s.group g
          let es := takeBeat 4 x.allow x.fifo
          let n := es.length
          let s1 := s.setGroup g { x with fifo := x.fifo.drop n, allow := x.allow - n }
          let s2 := { s1 with fed := { s1.fed with
            rr := g, beats := s1.fed.beats ++ [Beat.mk g s1.fed.gen es []] } }
          es.foldl (fun t e => t.retain now g e) s2)

/-! ### Pages -/

/-- The pages a queue holds (R200). -/
def Queue.pages (q : Queue) : Nat := (q.off + q.ents.length + 31) / 32

/-- Has a queue no free slot in a tail page (R206). -/
def Queue.noTail (q : Queue) : Bool := (q.off + q.ents.length) % 32 == 0

def Cd.queue (c : Cd) (q : Nat) : Queue := Sparse.get Queue.empty c.queues q

def Cd.setQueue (c : Cd) (q : Nat) (x : Queue) : Cd := { c with queues := Sparse.put Queue.empty q x c.queues }

/-- F, C and A of R206. -/
def Cd.f (c : Cd) : Nat := 131072 - (c.queues.map (fun e => e.2.pages)).sum
def Cd.cOut (c : Cd) : Nat := (c.out.map Prod.snd).sum
def Cd.a (c : Cd) : Nat := (c.qmap.filter (fun e => bitOf e.2 31 && (c.queue e.1).noTail)).length

/-- Take the first record of a queue; a queue that empties returns all its pages (R200). -/
def Cd.popQueue (c : Cd) (q : Nat) : Cd :=
  let x := c.queue q
  match x.ents with
  | [] => c
  | [_] => c.setQueue q Queue.empty
  | _ :: t => c.setQueue q { off := (x.off + 1) % 32, ents := t }

/-- The queue of a record (R201): class 0 validated, 1 unvalidated, 2 WAVE, 3 CAL. -/
def State.queueOf (s : State) (src ch slice cls : Nat) : Nat :=
  if s.role = .head then 4096 * src + ch else 8 * ch + 4 * (slice % 2) + cls

/-! ### Credit -/

/-- The senders of the FED and PEER loops: the groups, and 64 + s for source s. -/
def State.senders (s : State) : List Nat := List.range 64 ++ (s.admitted.map (fun i => 64 + i))

/-- The most pages outstanding per sender (R204). -/
def State.credMax (s : State) (snd : Nat) : Nat :=
  if snd < 64 then max 1 (min 16 (s.fld Reg.Q_CRED_CFG 4 0)) else max 1 (s.fld Reg.Q_CRED_CFG 27 16)

/-- A sender's records consume its credit, a page for every 32 (R205). -/
def Cd.consume (c : Cd) (snd n : Nat) : Cd :=
  let r := Sparse.get 0 c.rem snd + n
  { c with
    rem := Sparse.put 0 snd (r % 32) c.rem,
    out := Sparse.put 0 snd (Sparse.get 0 c.out snd - r / 32) c.out }

/-- A CR unit (R298). -/
def crUnit (gen cum : Nat) : W64 := withUnitCrc (rec64 [(0xC, 4), (gen, 8), (cum, 24), (0, 12), (0, 16)])

/-- A grant leaves: a CREDIT message to the FED, or a CR unit to a LIMB with the pages granted so far (R193, R301). -/
def State.grantOut (s : State) (snd g : Nat) : State :=
  if snd < 64 then { s with out := s.out ++ [Out.credit s.cd.gen snd g] }
  else s.sendUnit (snd - 64) (crUnit s.cd.gen.toNat (Sparse.get 0 s.cd.cum (snd - 64)))

/-- The word of MEM 0x22 that holds a sender's credit counter, behind the descriptors of the queues. -/
abbrev creditIdx (snd : Nat) : Nat := 32768 + snd

/-- The next grant in round-robin order (R206). -/
def State.grantNext (s : State) : State :=
  let c := s.cd
  let room := c.f - (c.cOut + c.a)
  let order := s.senders.filter (fun x => decide (x > c.rr)) ++ s.senders.filter (fun x => decide (x ≤ c.rr))
  if c.st < cdActive then s
    else match order.find? (fun x => decide (Sparse.get 0 c.out x < s.credMax x)) with
      | none => s
      | some x =>
        let g := min room (min 15 (s.credMax x - Sparse.get 0 c.out x))
        let s := s.readCrit 0x22 (creditIdx x) 1
        if g = 0 then s.event Reg.Q_EVT [1]
        else
          let t := s.setCd { c with
            rr := x, out := Sparse.put 0 x (Sparse.get 0 c.out x + g) c.out,
            cum := if x < 64 then c.cum else Sparse.put 0 (x - 64) (Sparse.get 0 c.cum (x - 64) + g) c.cum }
          t.grantOut x g

/-- R193, R205: a CREDIT message of the FED's own generation adds 32 records per page. -/
def execCreditReceive (gen : BitVec 8) (g : Group) (pages : Fin 16) (s : State) : Outcm :=
  .next (if gen = s.fed.gen then
      let x := s.group g.val
      s.setGroup g.val { x with allow := x.allow + 32 * pages.val }
    else s)

/-- Copies released from the oldest end by CLOSED (n) (R194). -/
def releaseCopies (n : Nat) : List RetCopy → List RetCopy
  | [] => []
  | c :: t => if sdiff c.ent.slice n > 0 then c :: t else releaseCopies n t

/-- CLOSED (n) releases the copies of the slices up to `n` (R194). -/
def Fed.release (f : Fed) (n : Nat) : Fed :=
  let ret := releaseCopies n f.ret
  { f with ret := ret, retHead := f.copyWord (f.ret.length - ret.length) }

/-- R193, R194: CLOSED (n) of the FED's own generation. -/
def execClosedReceive (gen : BitVec 8) (n : W32) (s : State) : Outcm :=
  let old := fun (m : Sparse Nat) => m.filter (fun e => decide (sdiff e.1 n.toNat > 0))
  .next (if gen = s.fed.gen then
      { s with
        fed := s.fed.release n.toNat,
        wf := { s.wf with level := old s.wf.level, intv := old s.wf.intv } }
    else s)

/-- R141, R193: LEVEL of the FED's own generation fixes the reduction of a slice. -/
def execLevelReceive (gen : BitVec 8) (n : W32) (level : Fin 5) (_step : Fin 7) (s : State) : Outcm :=
  .next (if gen = s.fed.gen then
      { s with wf := { s.wf with
        level := Sparse.put 0 n.toNat level.val s.wf.level } }
    else s)

/-! ### The Colander -/

/-- A loss summed per slice, source, channel and cause; it is counted in ERR_LOSS when it begins (R199, R203, R345). -/
def State.lossSum (s : State) (cls n src ch count cause : Nat) : State :=
  if s.cd.losses.any (fun x => x.slice == n && x.src == src && x.lo == ch && x.hi == ch && x.cause == cause) then
    s.setCd { s.cd with losses := mergeLoss ⟨n, src, ch, ch, count, cause⟩ s.cd.losses }
  else s.lossInC cls n src ch ch count cause

/-- What the Colander did with a HIT, for its WAVE: 0 kept, 1 dropped, 2 late (R146, R217). -/
def State.note (s : State) (e : Ent) (out : Nat) : State :=
  s.setCd { s.cd with seen := s.cd.seen ++ [⟨e.chan, e.c, e.slice, out⟩] }

/-- The channels suppressed by rate in a slice (R198). -/
def Cd.hotIn (c : Cd) (n : Nat) : List Nat := ((c.slice n).map SliceSt.hot).getD c.rateSup

/-- Is a source's channel suppressed by quota in a slice, from the corrected time of its first dropped HIT on (R198). -/
def Cd.quotaIn (c : Cd) (key n t : Nat) : Bool :=
  c.quotaSup.any (fun q => q.1 == key && q.2.1 == n && decide (q.2.2 ≤ t))

/-- Does a quota decision come from the checkpoint: a copy of slice m in the walk (R322). -/
def State.quotaGiven (s : State) (n : Nat) : Bool := s.cd.asOf.isSome && n == s.rd.m

/-- Is a HIT validated (R196). -/
def State.validated (s : State) (w : W64) : Bool := s.compat || recRise w != 0xFF

/-- The page quota of a queue stops a record (R198). -/
def State.quotaHit (s : State) (q : Nat) : Bool :=
  let c := s.cd
  let w := Sparse.get 0 c.qmap q
  let x := c.queue q
  s.bit Reg.COL_CTRL 1 && bits w 15 0 != 0 && x.noTail && decide (x.pages ≥ bits w 15 0)

/-- The records of a unit enter their queue. -/
def State.enqueue (s : State) (q : Nat) (es : List Ent) : State :=
  let t := s.cleanRange s.activeDie 0x20 ((s.recWords s.activeDie 0x20).length) es.length
  let x := t.cd.queue q
  t.setCd (t.cd.setQueue q { x with ents := x.ents ++ es })

/-- A record of a queue whose map entry is uncorrectable is dropped: one loss per slice and channel sums them, and the fault of one
record is one event (R345, R349). -/
def State.mapLoss (s : State) (q n src ch hits : Nat) : State :=
  let fresh := !s.cd.losses.any (fun x => x.slice == n && x.src == src && x.lo == ch && x.hi == ch && x.cause == 8)
  let t := s.memLoss s.activeDie 0x23 (qmapIdx q) 8 fresh
  t.setCd { t.cd with losses := mergeLoss ⟨n, src, ch, ch, hits, 8⟩ t.cd.losses }

/-- Stage 6 (R198, R202, R203, R345) for a record, or for a WAVE unit, which adds no HIT to a count: what happened (0
kept, 1 dropped), and the state it leaves. -/
def State.stageQueue (s : State) (src cls : Nat) (es : List Ent) : Nat × State :=
  match es with
  | [] => (1, s)
  | e :: _ =>
    let q := s.queueOf src e.chan e.slice cls
    let hits := if e.kind = .hit then 1 else 0
    let key := 4096 * src + e.chan
    let d := s.activeDie
    let t := (s.memRead d 0x23 (qmapIdx q)).2.readCrit 0x22 q 1
    if s.dead d 0x23 (qmapIdx q) then (1, s.mapLoss q e.slice src e.chan hits)
    else if !bitOf (Sparse.get 0 t.cd.qmap q) 31 then
      (1, ((if hits = 1 then t.count Reg.COL_QDIS_CNT 1 else t).event Reg.COL_EVT [2]).lossSum 0 e.slice src e.chan hits 7)
    else if hits = 1 ∧ (t.cd.quotaIn key e.slice e.c ∨ (!t.quotaGiven e.slice && t.quotaHit q)) then
      let first := !t.cd.quotaIn key e.slice e.c
      let c := t.cd
      let t1 := t.setCd (if first then { c with quotaSup := c.quotaSup ++ [(key, e.slice, e.c)] } else c)
      (1, ((t1.count Reg.COL_HOT_CNT 1).eventIf first Reg.COL_EVT [1]).lossSum 0 e.slice src e.chan 1 6)
    else (0, t.enqueue q es)

/-- The prescale counter of stage 5 (R197) and its history for checkpoints (R316): is the HIT kept. -/
def State.prescale (s : State) (e : Ent) : Bool × State :=
  let c := s.cd
  let before := Sparse.get 0 c.presc e.chan
  let p := bits (s.chanWord e.chan) 51 48
  let keep := decide (before + 1 ≥ 2 ^ p)
  let hist := if p = 0 then c.prescHist else c.prescHist ++ [PrescHist.mk e.chan e.slice before c.lastClosed]
  (keep, s.setCd { c with
    presc := Sparse.put 0 e.chan (if keep then 0 else before + 1) c.presc, prescHist := hist })

/-- The class of a HIT (R201). -/
def State.hitClass (s : State) (w : W64) : Nat := if recCal w then 3 else if s.validated w then 0 else 1

/-- The level of a slice (R231). -/
def Cd.levelOf (c : Cd) (n : Nat) : Nat := ((c.slice n).map SliceSt.level).getD 0

/-- An own HIT passes the Colander (R195). -/
def State.ownHit (s : State) (e : Ent) : State :=
  let w := s.chanWord e.chan
  let n := e.slice
  if bitOf w 53 then (s.count Reg.COL_MASK_CNT 1).note e 1
  else if (s.cd.hotIn n).contains e.chan ∨ s.cd.quotaIn (4096 * s.source + e.chan) n e.c then
    let t := s.count Reg.COL_HOT_CNT 1
    if t.cd.isClosed n then (t.lateRecord s.source e.chan 1).note e 2
    else (t.lossSum 0 n s.source e.chan 1 6).note e 1
  else
    let cal := recCal e.word
    let prim : Prim := ⟨e.chan, e.c, bits e.word 20 9, recRise e.word, s.compat, false, 0⟩
    let s := if cal && !s.bit Reg.TRG_CTRL 1 then s
      else s.setCd { s.cd with toWhisk := s.cd.toWhisk ++ [prim] }
    let val := s.validated e.word
    if !s.inRun e.c then s.note e 1
    else if s.acq = 1 ∧ s.cd.levelOf n ≥ 3 ∧ !val then (s.count Reg.COL_LADDER_CNT 1).note e 1
    else if bitOf w 52 ∧ !val then (s.count Reg.COL_VAL_CNT 1).note e 1
    else
      let r := s.prescale e
      if !r.1 then (r.2.count Reg.COL_PRESC_CNT 1).note e 1
      else if r.2.cd.isClosed n then (r.2.lateRecord s.source e.chan 1).note e 2
      else
        let q := r.2.stageQueue s.source (s.hitClass e.word) [e]
        q.2.note e q.1

/-- The windows that select records (R220). -/
def State.selWindows (s : State) : List (Nat × Nat) :=
  if s.role = .limb then s.cd.whisk.windows else s.cd.whisk.decs.map (fun d => (d.first, d.last))

/-- Is a tick in a window. -/
def covered (ws : List (Nat × Nat)) (tick : Nat) : Bool := ws.any (fun w => decide (w.1 ≤ tick ∧ tick ≤ w.2))

/-- Does the streaming part of MIXED leave an unselected HIT of the own source out (R220, R221); the records of a LIMB have passed
its own Colander (R195, R225). -/
def State.mixedDrop (s : State) (src level : Nat) (h : Ent) : Bool :=
  src == s.source && s.acq == 2 && decide (level ≥ 3) && !s.validated h.word && !covered s.selWindows (h.c / 2048)

/-- Does the frame of its slice take a queued HIT (R220, R221, R343). -/
def State.selected (s : State) (src level : Nat) (h : Ent) : Bool :=
  !h.unc && !(s.acq == 0 && !covered s.selWindows (h.c / 2048)) && !s.mixedDrop src level h

/-- Is the HIT of a late WAVE unit emitted (R217): one that still waits in its queue, when its frame takes it. -/
def State.hitEmitted (s : State) (e : Ent) : Bool :=
  match (s.cd.queues.flatMap (fun q => q.2.ents)).find? (fun h => h.kind == .hit && h.chan == e.chan && h.c == e.c) with
  | some h => s.selected s.source (s.cd.levelOf e.slice) h
  | none => true

/-- An own WAVE unit shares the outcome of its HIT (R146, R217). -/
def State.ownWave (s : State) (es : List Ent) : State :=
  match es with
  | [] => s
  | e :: _ =>
    match s.cd.seen.find? (fun x => x.chan == e.chan && x.c == e.c) with
    | some x =>
      let t := s.setCd { s.cd with seen := s.cd.seen.filter (fun y => !(y.chan == e.chan && y.c == e.c)) }
      if x.out ≠ 0 then t
      else if t.cd.isClosed e.slice then (if t.hitEmitted e then t.lateRecord s.source e.chan 0 else t)
      else (t.stageQueue s.source 2 es).2
    | none => s

/-- A LOSS record from the FED: placed in the oldest open slice (R191, R195). -/
def State.ownLoss (s : State) (w : W64) : State :=
  s.setCd (s.cd.place (bits w 55 53) (bits w 52 41) (bits w 40 29) (bits w 28 8) (bits w 7 0))

/-! ### Beats -/

/-- The unit at the front of a list of records. -/
def unitLen (e : Ent) : Nat := e.more + 1

/-- Take in the units of a beat. A WAVE unit is gathered over its beats in the queue's `units` and acted on when whole;
`more` = 0 marks its last word. -/
def State.ingest (s : State) (g : Nat) (e : Ent) : State :=
  if e.unc then
    let idx := s.draw
    let t := idx.2
    if e.kind ≠ .wave then
      let u := (t.setCd (t.cd.place s.source (64 * g) (64 * g + 63) 1 8)).uncorrLoss s.activeDie 0x10 idx.1 8
      if e.kind = .hit then u.note e 1 else u
    else
      let live := t.cd.seen.any (fun y => y.chan == e.chan && y.c == e.c && y.out == 0)
      let u := if live then
          (t.setCd (t.cd.place s.source (64 * g) (64 * g + 63) 0 8)).uncorrLoss s.activeDie 0x10 idx.1 8
        else t.countUncorr s.activeDie 0x10 idx.1 0 [1]
      u.setCd { u.cd with
      seen := u.cd.seen.filter (fun y => !(y.chan == e.chan && y.c == e.c)),
      gather := u.cd.gather.filter (fun x => !(x.chan == e.chan && x.c == e.c)) }
  else if e.kind = .loss then s.ownLoss e.word
  else if e.kind = .hit then s.ownHit e
  else
    let s1 := s.setCd { s.cd with gather := s.cd.gather ++ [e] }
    if e.more ≠ 0 then s1
    else
      let mine := fun (x : Ent) => x.chan == e.chan && x.c == e.c
      let es := s1.cd.gather.filter mine
      let s2 := s1.setCd { s1.cd with gather := s1.cd.gather.filter (fun x => !mine x) }
      if es.length = ((es.head?.map unitLen).getD 0) then s2.ownWave es else s2

/-- The arrival tick of a copy at the old CD (R322): the tick at which it was first sent, widened, and the fixed delay of the link
and the Colander's pipeline, an open number (log entry 185). -/
def State.arrivalOf (s : State) (tick : Nat) : Nat := s.tb.tn - (s.tb.tn - tick) % 2 ^ 24 + Config.linkDelay

/-- Did a tick lie before the close of slice `n` (R215). -/
def State.beforeClose (s : State) (arr n : Nat) : Bool := decide (arr < (s.firstTick n + 2 ^ s.k) + s.late)

/-- Must a copy of the walk be discarded without count (R322): its slice has been emitted, and it arrived before that
slice's close, or it was late for a slice that has been emitted too. -/
def State.walkSkip (s : State) (e : Ent) (tick : Nat) : Bool :=
  let before := s.beforeClose (s.arrivalOf tick)
  match s.cd.lastClosed with
  | none => false
  | some l =>
    if e.kind = .loss then before l
    else if sdiff e.slice l > 0 then false
    else before e.slice || before l

/-- The oldest slice that was open at a copy's arrival tick (R322). -/
def State.openAt (s : State) (tick : Nat) : Option Nat :=
  match s.cd.opened.find? (fun x => s.beforeClose (s.arrivalOf tick) x.n) with
  | some x => some x.n
  | none => s.cd.opened.head?.map SliceSt.n

/-- Did the old CD emit the HIT of a copy that came in time for a slice emitted before the restart: not where stage 1 or 4 of the
Colander or the streaming ladder dropped it; the counter of a prescaled channel at that HIT is not mirrored, so that there the
outcome is open (R195, R316, R322; log entry 185, DEDUCED). -/
def State.oldOutcome (s : State) (e : Ent) : Nat × State :=
  let w := s.chanWord e.chan
  let val := s.validated e.word
  if bitOf w 53 ∨ !s.inRun e.c ∨ (bitOf w 52 ∧ !val) ∨ (s.acq = 1 ∧ s.cd.levelOf e.slice ≥ 3 ∧ !val) then (1, s)
  else if bits w 51 48 ≠ 0 then (s.draw.1 % 2, s.draw.2)
  else (0, s)

/-- A copy that is discarded: a HIT leaves its outcome for the WAVE units that came late behind it (R217, R322). -/
def State.passCopy (s : State) (tick : Nat) (e : Ent) : State :=
  if e.kind ≠ .hit then s
  else if s.beforeClose (s.arrivalOf tick) e.slice then
    let r := s.oldOutcome e
    r.2.note e r.1
  else s.note e 2

/-- A copy of the walk is taken in as it arrived. -/
def State.ingestCopy (s : State) (g tick : Nat) (e : Ent) : State :=
  if s.walkSkip e tick then s.passCopy tick e
  else
    let t := (s.setCd { s.cd with asOf := s.openAt tick }).ingest g e
    t.setCd { t.cd with asOf := none }

/-- An uncorrectable word marks its entry of a beat. -/
def markBeat (unc : BitVec 4) (es : List Ent) : List Ent :=
  es.mapIdx (fun i e => { e with unc := e.unc || unc.getLsbD i })

/-- The corrected words of a beat are counted under MEM 0x10 in the active CD (R332, R334). -/
def State.countBeat (s : State) (corr : BitVec 4) (n : Nat) : State :=
  ((List.range n).filter (fun i => corr.getLsbD i)).foldl (fun t _ => t.countCorr t.activeDie 0x10) s

/-- The active CD takes in the oldest beat on the links (R192, R195, R207). -/
def State.takeBeat (s : State) (ok : Bool) (x : BeatBits) : State :=
  match s.fed.beats with
  | [] => s
  | b :: rest =>
    let s1 := { s with fed := { s.fed with beats := rest } }
    if s1.cd.st < cdActive then s1
    else if !ok then s1.lossOldest s1.source 0 4095 0 12
    else if b.gen ≠ s1.cd.gen then (s1.count Reg.Q_STALE_CNT 1).event Reg.Q_EVT [0]
    else
      let s2 := (s1.setCd (s1.cd.consume b.group b.ents.length)).countBeat x.corr b.ents.length
      ((markBeat x.unc b.ents).mapIdx (fun i e => (i, e))).foldl
        (fun t p =>
          match b.ticks[p.1]? with
          | some tick => t.ingestCopy b.group tick p.2
          | none => t.ingest b.group p.2) s2

/-! ### Records that stand behind a frame -/

/-- A record that travels alone (R236). -/
def aloneGroup (n : Nat) (w : W64) : LGroup := ⟨[w], n, false, true, true, false, 0⟩

/-- The order class of a barrier (R227). -/
def Barrier.rank (b : Barrier) : Nat := b.cls * 8 + b.src

/-- The record of a barrier (R187). -/
def Barrier.word (b : Barrier) : W64 := if b.cls = 1 then recSync b.slice b.id else recFlush b.slice b.id

/-- The place of a record of a rank behind slice `n` among what is on its way to the HBD, each item given by whether it
belongs to a frame or a gap of a slice not after `n`, and by its rank. -/
def barrierPos (rank : Nat) (xs : List (Bool × Nat)) : Nat :=
  let p := xs.length - (xs.reverse.takeWhile (fun x => !x.1)).length
  p + ((xs.drop p).takeWhile (fun x => x.2 != 0 && decide (x.2 ≤ rank))).length

/-- Does an item with these records belong to a frame or a gap of a slice not after `n`. -/
def upTo (n slice : Nat) (alone : Bool) (ws : List W64) : Bool :=
  decide (sdiff slice n ≤ 0) && (!alone || ws.any isGapWord)

/-- What is on its way from the Ladle to the HBD, oldest first: the released blocks, the jobs, the Ladle's groups. -/
def Cd.onWay (c : Cd) (n : Nat) : List (Bool × Nat) :=
  c.released.map (fun b => (upTo n (bits b.h0 63 32) (bitOf b.h0 20) b.payload, b.rank)) ++
    c.jobs.map (fun j => (upTo n j.slice j.alone j.groups.flatten, j.rank)) ++
    c.ladle.map (fun g => (upTo n g.slice g.alone g.words, g.rank))

/-- A barrier takes its place behind slice `n`, whose frame or gap the Ladle has built already (R212, R226, R227). A record
that is put ahead of blocks of the Press keeps their order and takes the BIDX of the first of them of its SLICE. -/
def State.insertBarrier (s : State) (b : Barrier) : State :=
  let c := s.cd
  let p := barrierPos b.rank (c.onWay b.after)
  let nr := c.released.length
  let nj := c.jobs.length
  if p ≥ nr + nj then
    let q := p - (nr + nj)
    s.setCd { c with ladle := c.ladle.take q ++ { aloneGroup b.slice b.word with rank := b.rank } :: c.ladle.drop q }
  else
    let later := ((c.released.drop p).map (fun x => (bits x.h0 63 32, bits x.h0 15 0)) ++
      (c.jobs.drop (p - nr)).map (fun j => (j.slice, j.bidx))).filter (fun x => x.1 == b.slice)
    let k := (later.head?.map Prod.snd).getD (Sparse.get 0 c.bidx b.slice)
    let rel := (c.released.drop p).map (fun x =>
      if bits x.h0 63 32 = b.slice then { x with h0 := putBits x.h0 15 0 (bits x.h0 15 0 + 1) } else x)
    let jbs := (c.jobs.drop (p - nr)).map (fun j => if j.slice = b.slice then { j with bidx := j.bidx + 1 } else j)
    let c1 := { c with bidx := Sparse.put 0 b.slice (Sparse.get 0 c.bidx b.slice + 1) c.bidx }
    if p < nr then
      let x : Block :=
        { h0 := blockH0 b.slice c.gen s.source true true false false true k, h1 := blockH1 1 1 0, dep := none,
          payload := [b.word], hdrCopy := 0, unc := false, rank := b.rank }
      let t := s.setCd { c1 with released := c.released.take p ++ x :: rel, jobs := jbs }
      (((t.count Reg.PRS_BLK_CNT 1).count Reg.PRS_RAW_CNT 1).count Reg.PRS_IN_CNT 1).count Reg.PRS_OUT_CNT 3
    else
      let j : Job :=
        { eng := 8, slice := b.slice, bidx := k, first := false, last := true, alone := true, verify := false,
          raw := true, groups := [[b.word]], consumed := 1, ctx := .init, bits := [], space := 1, st := 4, rank := b.rank }
      s.setCd { c1 with jobs := c.jobs.take (p - nr) ++ j :: jbs }

/-- Has the frame or gap of slice `n` of the run been built. -/
def State.built (s : State) (n : Nat) : Bool :=
  decide (sdiff n s.run.sf < 0) || (match s.run.lastEmitted with
    | some e => decide (sdiff n e ≤ 0)
    | none => false)

/-- Has the frame or gap of slice `n` been handed whole to the HBD. -/
def State.handed (s : State) (n : Nat) : Bool :=
  match s.cd.handed with
  | some h => decide (sdiff n h ≤ 0)
  | none => false

/-- The next slice that the module emits: the first of the run that has not been handed over. -/
def State.nextEmitted (s : State) : Nat :=
  match s.cd.handed with
  | some h => (h + 1) % 2 ^ 32
  | none => s.run.named

/-- A standby records the markers and commands that the HBD delivers to both CDs, without acting on them (R319). -/
def State.recordBarrier (s : State) (b : Barrier) : State :=
  if b.cls ≠ 3 ∧ (s.other.st = cdMirroring ∨ s.other.st = cdReady) then
    s.setOther { s.other with barriers := s.other.barriers ++ [b] }
  else s

/-- A barrier stands behind its slice: at once where that slice has been built, otherwise when it is. -/
def State.standBarrier (s : State) (b : Barrier) : State :=
  let t := s.recordBarrier b
  if t.built b.after then
    let u := t.insertBarrier b
    u.setCd { u.cd with placed := u.cd.placed ++ [b] }
  else t.setCd { t.cd with barriers := t.cd.barriers ++ [b] }

/-! ### Flush -/

/-- The slice at whose end a FLUSH executed now stands (R212): the one that DT lies in, not after Sl. -/
def State.flushSlice (s : State) : Nat :=
  match s.run.sl with
  | some l => if sdiff s.curSlice l > 0 then l else s.curSlice
  | none => s.curSlice

/-- A FLUSH executed now (R212). -/
def State.flushNow (s : State) (id : Nat) : State := s.standBarrier ⟨2, 0, s.flushSlice, s.flushSlice, id, true⟩

/-- Does Q_FLUSH.GO read 1 (R212): a barrier of it is not placed yet. -/
def Cd.flushing (c : Cd) : List Barrier := c.barriers.filter (fun b => b.cls == 2 && b.cmd)

/-- A write of Q_FLUSH (R212, R397): a FLUSH finds no slice left after the closing MARK/MODE, and none but one of the same
slice starts while GO reads 1. -/
def State.flushWrite (s : State) (data : W32) (be : BitVec 4) : Rep :=
  let v := mergeBE (s.reg Reg.Q_FLUSH) data be
  let go := bitOf v 0 && be.getLsbD 0
  let s1 := s.storeFields (s.phys Reg.Q_FLUSH) v
  if go then
    s.guarded false (s.lockHit (s.phys Reg.Q_FLUSH) v) .throttleFlush
      ((s.hk.mode == .drain && s.run.closedMark) || s.cd.flushing.any (fun b => b.after != s.flushSlice))
      (s1.flushNow (bits v 31 16))
  else s.guarded false (s.lockHit (s.phys Reg.Q_FLUSH) v) .writeCfg false s1

/-- A write of Q_FLUSH through the alias (R412): the other CD stores the ID. -/
def State.flushAlias (s : State) (data : W32) (be : BitVec 4) : Rep :=
  (s.flushWrite data be).mirrored (fun t => t.plainWrite (t.phys Reg.Q_FLUSH) data be .writeCfg)

/-- R212: the FLUSH command. -/
def execFlush (lane : Lane) (id : BitVec 16) (now : Nat) (s : State) : Outcm :=
  .next ((s.advanceTo now).accessW lane Reg.Q_FLUSH 0xF
    (fun t => t.flushAlias (word32 [(id.toNat, 16), (0, 15), (1, 1)]) 0xF))

/-- A marker without effect is counted (R226, R304). -/
def State.markLost (s : State) : State := (s.count Reg.LK_MARK_IGN_CNT 1).event Reg.LK_EVT [5]

/-- A FLUSH marker is executed at the end of slice `n`: R50 and R212 judge it then, and after Sl it stands behind Sl (R304). -/
def State.flushAt (s : State) (n id : Nat) : State :=
  let at' := match s.run.sl with
    | some l => if sdiff n l > 0 then l else n
    | none => n
  if !s.allows .throttleFlush ∨ (s.hk.mode = .drain ∧ s.run.closedMark) then s.markLost
  else s.standBarrier ⟨2, 0, at', at', id, false⟩

/-- Has slice `n` ended. -/
def State.sliceEnded (s : State) (n : Nat) : Bool := decide (s.firstTick n + 2 ^ s.k ≤ s.tb.tn)

/-- The FLUSH markers whose slice has ended are executed, in the order of their arrival (R304). -/
def State.runFlushes (s : State) : State :=
  let due := s.ulp.flushes.filter (fun f => s.sliceEnded f.1)
  due.foldl (fun t f => t.flushAt f.1 f.2)
    { s with ulp := { s.ulp with flushes := s.ulp.flushes.filter (fun f => !s.sliceEnded f.1) } }

/-! ### Privileged-queue reads -/

/-- A read of HK_PQ_POP_LO (R210). On an empty queue the read stalls, its response entry reserved. -/
def State.popLoRequest (s : State) (n : Nat) : State :=
  let q := s.fld Reg.HK_PQ_SEL 3 0
  if q ≥ 9 ∧ !s.hk.stuck ∧ s.endStalls.pqOf q = [] then
    s.atStage n Reg.HK_PQ_POP_LO (fun t => t.setLane n { t.lane n with popWait := some (q, none) })
  else s.accessHk n Reg.HK_PQ_POP_LO (fun t =>
    match t.pqOf q with
    | _ :: _ => if q < 9 then .no Stat.badValue t else t.popLo n q
    | [] => .no Stat.badValue t)

/-- R210: HK_PQ_POP_LO. -/
def execPqPopLo (lane : Lane) (s : State) : Outcm := .next (s.popLoRequest lane)

/-- A read of HK_PQ_POP_HI acts on the requester's snapshot, whatever HK_PQ_SEL holds (R210). -/
def State.popHi (s : State) (n : Nat) : Rep :=
  match (s.lane n).snap with
  | none => .no Stat.badValue s
  | some (q, w) =>
    let u := s.setLane n { s.lane n with snap := none }
    if q < 16 then ⟨Stat.ok, w.extractLsb' 32 32, u.popEntry q⟩
    else .no Stat.notReady u

/-- R210: HK_PQ_POP_HI. -/
def execPqPopHi (lane : Lane) (s : State) : Outcm :=
  .next (s.accessHk lane Reg.HK_PQ_POP_HI (fun t => t.popHi lane))

/-- R210: a stalled POP ends: normally where an entry has arrived, otherwise EMPTY. -/
def execPopStallExpire (lane : Lane) (s : State) : Outcm := .next (s.endStall lane)

end Sys2Proof.Machine
end

