-- ==== Sys2Proof/Machine/Whisk.lean ====
section
/-! DEFINITION. The trigger engine (R148 to R176): primitives, regions, rules and decisions, keep windows, and the
trigger-bus ring, with the meanings of their commands. -/

namespace Sys2Proof.Machine

/-! ### Primitives and regions -/

/-- The whole state of the Whisk of the active CD replaced. -/
def State.setWhisk (s : State) (w : Whisk) : State := s.setCd { s.cd with whisk := w }

/-- T of a profile as applied (R151), and its form: true for OPEN. -/
def State.profT (s : State) (p : Nat) : Bool × Nat :=
  let c := s.reg (Reg.TRG_PRIM_C + 4 * p)
  let t := max 1 (bits c 19 0)
  (bitOf c 31, if bitOf c 31 then min 128 t else t)

/-- An entry of the region table (R153); an unusable one is zero (R345). -/
def State.regionEntry (s : State) (e : Nat) : W32 :=
  if s.dead s.activeDie 0x24 (regionIdx e) then 0 else Sparse.get 0 s.cd.regions e

/-- A word of a rule (R155); a rule with an unusable word is disabled (R345). -/
def State.ruleWord (s : State) (r w : Nat) : W32 := Sparse.get 0 s.cd.rules (16 * r + w)

/-- Is rule `r` evaluated. -/
def State.ruleOn (s : State) (r : Nat) : Bool :=
  bitOf (s.ruleWord r 0) 31 && !(List.range 16).any (fun w => s.dead s.activeDie 0x24 (ruleIdx r w))

/-- Does a channel belong to a region (R153). -/
def State.inRegion (s : State) (c r : Nat) : Bool :=
  let e := s.regionEntry c
  (bitOf e 16 && bits e 7 0 == r) || (bitOf e 17 && bits e 15 8 == r)

/-- The tag of the event that a hit or a SILENT primitive makes in a region (R151, R154). A tag below `tag` was evaluated
before the hit arrived. -/
def State.eventTag (s : State) (d : W32) (p : Prim) : Option Nat :=
  let prof := bits d 23 22
  let a := s.reg (Reg.TRG_PRIM_A + 4 * prof)
  let b := s.reg (Reg.TRG_PRIM_B + 4 * prof)
  let t := s.profT prof
  let tick := p.c / 2048
  if p.silent then
    if bitOf d 27 && p.tot == prof && !t.1 then some p.tag else none
  else
    let open128 := bitOf d 27 && t.1 && !p.compat && decide (p.tot ≥ min 4095 (32 * t.2))
    let now := bitOf d 28 || (!p.compat &&
      ((bitOf d 24 && decide (bits a 11 0 ≤ p.tot ∧ p.tot ≤ bits a 27 16)) || (bitOf d 25 && p.rise == 0xFF) ||
        (bitOf d 26 && p.rise != 0xFF && decide (bits b 23 16 ≤ p.rise ∧ p.rise ≤ bits b 31 24))))
    let tag := if now then some tick else if open128 then some (tick + t.2) else none
    match tag with
    | some x => if p.tag ≤ x then some x else none
    | none => none

/-- The events of region `r` with their tags. -/
def State.regionEvents (s : State) (r : Nat) : List (Nat × Prim) :=
  let d := s.regionEntry (4096 + r)
  s.cd.whisk.prims.filterMap (fun p =>
    if s.inRegion p.chan r then (s.eventTag d p).map (fun t => (t, p)) else none)

/-- The condition of region `r` at tick `t` (R154). -/
def State.regionTrue (s : State) (r t : Nat) : Bool :=
  let d := s.regionEntry (4096 + r)
  let w := bits d 21 16 + 1
  bitOf d 31 && bits d 7 0 != 0 &&
    decide (((s.regionEvents r).filter (fun e => decide (t < e.1 + w ∧ e.1 ≤ t))).length ≥ bits d 7 0)

/-- The primitives that TIMEOUT SILENT generates at tick `t` (R152), with the trackers they stop. -/
def State.silentAt (s : State) (t : Nat) : List (Nat × Nat) :=
  let w := s.cd.whisk
  let profs := (List.range 256).filterMap (fun r =>
    let d := s.regionEntry (4096 + r)
    if bitOf d 31 && bitOf d 27 && !(s.profT (bits d 23 22)).1 then some (r, bits d 23 22) else none)
  let chans := (s.cd.regions.map Prod.fst).filter (fun e => decide (e < 4096))
  chans.flatMap (fun c =>
    ((profs.filter (fun rp => s.inRegion c rp.1)).map Prod.snd).eraseDups.filterMap (fun p =>
      if Sparse.get w.start w.lastHit c + (s.profT p).2 + 1 = t && !w.quiet.contains (4 * c + p) && s.live c t &&
          !bitOf (s.chanWord c) 53 then some (c, p) else none))

/-! ### Rules -/

/-- OR, AND and MAJ over a list of inputs (R156); a threshold is applied within 1 to 4. -/
def combine (op m : Nat) (vs : List Bool) : Bool :=
  match op with
  | 1 => vs.all (fun v => v)
  | 2 => decide ((vs.filter (fun v => v)).length ≥ max 1 (min 4 m))
  | _ => vs.any (fun v => v)

/-- A leaf of a rule: its half word (R155). -/
def State.leafOf (s : State) (r i : Nat) : W32 :=
  let w := s.ruleWord r (4 + i / 2)
  BitVec.ofNat 32 (if i % 2 = 0 then bits w 15 0 else bits w 31 16)

/-- Is the ring in fault (R169, R175). -/
def State.ringFault (s : State) : Bool := s.ring.fault || s.ring.alignFault

/-- The value of a leaf at tick `t`, before INV; none for a leaf that is ignored (R156, R171). -/
def State.leafIn (s : State) (l : W32) (t : Nat) : Option Bool :=
  match bits l 14 13 with
  | 1 => some (s.regionTrue (bits l 7 0) t)
  | 2 =>
    if s.role = .limb then none
    else
      let slot := bits l 4 2
      some (!s.ringFault && s.ringSlots.contains slot && s.cd.whisk.bus.any (fun b =>
        b.1 == slot && b.2.1 == bits l 1 0 && decide (b.2.2 ≤ t ∧ t < b.2.2 + s.stretch)))
  | 3 =>
    let j := bits l 0 0
    let per := (s.reg (Reg.TRG_PER_PERIOD_0 + 4 * j)).toNat
    some (per != 0 && (((t : Int) - ((s.reg (Reg.TRG_PER_OFFSET_0 + 4 * j)).toNat : Int)) % (per : Int) == 0))
  | _ => none

/-- The inputs of group `g` of a rule, with the leaves they come from. -/
def State.groupLeaves (s : State) (r g t : Nat) : List (W32 × Bool) :=
  (List.range 4).filterMap (fun i =>
    let l := s.leafOf r (4 * g + i)
    (s.leafIn l t).map (fun v => (l, v != bitOf l 15)))

/-- The active groups of a rule: operator, threshold, inputs (R156). -/
def State.ruleGroups (s : State) (r t : Nat) : List (Nat × Nat × List (W32 × Bool)) :=
  (List.range 4).filterMap (fun g =>
    let f := bits (s.ruleWord r 3) (5 * g + 4) (5 * g)
    let ls := s.groupLeaves r g t
    if f / 8 = 3 ∨ ls = [] then none else some (f / 8, f % 8, ls))

/-- A rule's tree at tick `t` (R156). -/
def State.tree (s : State) (r t : Nat) : Bool :=
  let gs := s.ruleGroups r t
  let top := s.ruleWord r 3
  gs != [] && combine (bits top 31 30) (bits top 29 27) (gs.map (fun g => combine g.1 g.2.1 (g.2.2.map Prod.snd)))

/-- HOLD, PRE and POST of a rule as applied (R155). -/
def State.ruleHold (s : State) (r : Nat) : Nat :=
  let w := s.ruleWord r 0
  min (if bitOf w 29 then 65535 else 1048576) (bits w 20 0)
def State.rulePre (s : State) (r : Nat) : Nat := bits (s.ruleWord r 2) 11 0
def State.rulePost (s : State) (r : Nat) : Nat := min (bits (s.ruleWord r 2) 23 12) (4095 - s.rulePre r)

/-- P_eff of a rule at tick `t` (R158). -/
def State.pEff (s : State) (r t : Nat) : Nat :=
  let step := if bitOf (s.ruleWord r 0) 30 ∨ !s.run.active then 0
    else ((s.cd.slice (s.sliceOf t)).map SliceSt.step).getD 0
  max 1 (bits (s.ruleWord r 1) 31 16) * 2 ^ step

def Whisk.rule (w : Whisk) (r : Nat) : RuleSt := Sparse.get RuleSt.zero w.rules r

def Whisk.setRule (w : Whisk) (r : Nat) (x : RuleSt) : Whisk := { w with rules := Sparse.put RuleSt.zero r x w.rules }

/-- Is a rule in hold-off at tick `t` (R159). -/
def RuleSt.held (x : RuleSt) (t : Nat) : Bool :=
  (match x.holdUntil with
   | some u => decide (t ≤ u)
   | none => false) || x.holdCnt != 0

/-- The three gates of R157 for one firing rule: does it pass. -/
def State.gates (s : State) (r t : Nat) : Bool × State :=
  let w := s.cd.whisk
  let x := w.rule r
  if x.held t then (false, s.count Reg.TRG_HELD_CNT 1)
  else if (match w.lastDec with
      | some d => decide (t < d + 64)
      | none => false) then (false, s.count Reg.TRG_BUSY_CNT 1)
  else if x.presc + 1 ≥ s.pEff r t then (true, s.setWhisk (w.setRule r { x with presc := 0 }))
  else (false, (s.setWhisk (w.setRule r { x with presc := x.presc + 1 })).count Reg.TRG_PRESC_CNT 1)

/-! ### Decisions -/

/-- The defining hit of a decision (R161): its C, if there is one. -/
def State.defining (s : State) (cause t : Nat) : Option Nat :=
  let regions := (s.ruleGroups cause t).flatMap (fun g =>
    g.2.2.filterMap (fun lv =>
      if bits lv.1 14 13 = 1 ∧ !bitOf lv.1 15 ∧ lv.2 then some (bits lv.1 7 0) else none))
  let hits := regions.flatMap (fun r =>
    (s.regionEvents r).filterMap (fun e =>
      if e.1 = t ∧ !e.2.silent ∧ e.2.c / 2048 = t then some e.2.c else none))
  hits.foldl (fun b c => match b with
    | none => some c
    | some x => some (min x c)) none

/-- The effective window of a decision at tick `t` (R163): first and last tick, TRUNC, and how many cuts count in
TRG_TRUNC_CNT. -/
def State.window (s : State) (t pre post : Nat) : Nat × Nat × Bool × Nat :=
  let p := 2 ^ s.k
  let sf := if s.run.active then s.firstTick s.run.sf else 0
  let cutSf := s.run.active && decide (t < pre + sf)
  let a := if cutSf then sf else t - pre
  let made := t + s.ld
  let closed := s.run.active && decide ((a / p + 1) * p + s.late ≤ made)
  let b := if closed then (made - s.late) / p * p else a
  let foot := (b / p + 4) * p - 1
  let cutFoot := decide (t + post > foot)
  let e := if cutFoot then foot else t + post
  let stop := match s.run.sl with
    | some l => if s.run.active then some (s.firstTick l + p - 1) else none
    | none => none
  let cutSl := match stop with
    | some x => decide (e > x)
    | none => false
  let last := if cutSl then stop.getD e else e
  (b, last, cutSf || closed || cutFoot || cutSl, b2n closed + b2n cutFoot)

/-- Hold-offs after a decision (R159). -/
def State.holdOff (s : State) (passing : List Nat) (t : Nat) : State :=
  let w := s.cd.whisk
  let less := w.rules.map (fun (e : Nat × RuleSt) => (e.1, { e.2 with holdCnt := e.2.holdCnt - 1 }))
  let aged := { w with rules := less.filter (fun e => decide (e.2 ≠ RuleSt.zero)) }
  let w' := passing.foldl (fun v r =>
    let h := s.ruleHold r
    if h = 0 then v
    else if bitOf (s.ruleWord r 0) 29 then v.setRule r { v.rule r with holdCnt := h }
    else v.setRule r { v.rule r with holdUntil := some (t + h) }) aged
  s.setWhisk { w' with lastDec := some t }

/-- A keep window of a decision at tick `t` leaves for the FED (R165, R193). -/
def State.keepOut (s : State) (t : Nat) : State :=
  { s with out := s.out ++ [.keep s.cd.gen (t - s.keepPre) (t + s.keepPost)] }

/-- Rules pass at the evaluated tick `t` (R159, R160): one decision, which falls due 3 ticks later (R173). -/
def State.passRules (s : State) (passing : List Nat) (t : Nat) : State :=
  match passing with
  | [] => s
  | cause :: _ =>
    let p : PendDec := ⟨t, passing, (passing.map s.rulePre).foldl max 0, (passing.map s.rulePost).foldl max 0,
      s.defining cause t⟩
    let s1 := s.setWhisk { s.cd.whisk with pend := s.cd.whisk.pend ++ [p] }
    (passing.foldl (fun u r => u.countAt (instKey (u.phys Reg.TRG_RULE_CNT) r) 0xFFFFFFFF 1) s1).holdOff passing t

/-- A decision is made at its wall tick: its effective window is fixed, its keep window leaves, and a HEAD's KEEP waits for
the next ring frame (R160 to R165, R170). -/
def State.makeDecision (s : State) (p : PendDec) : State :=
  let w := s.window p.t p.pre p.post
  let d : Dec := ⟨p.t, (p.hit.getD 0) % 2048, p.hit.isNone, p.mask.headD 0, p.mask, w.1, w.2.1, w.2.2.1⟩
  let s1 := s.setWhisk { s.cd.whisk with decs := s.cd.whisk.decs ++ [d] }
  let s2 := (((s1.count Reg.TRG_TRUNC_CNT w.2.2.2).eventIf w.2.2.1 Reg.TRG_EVT [2]).count Reg.TRG_DEC_CNT 1).keepOut p.t
  if s2.role = .head then { s2 with ring := { s2.ring with pendKeep := s2.ring.pendKeep ++ [(s2.rd.activeB, p.t)] } }
  else s2

/-- The decisions that are due when tick `e` is evaluated are made (R173). -/
def State.makeDue (s : State) (e : Nat) : State :=
  let w := s.cd.whisk
  (w.pend.filter (fun p => decide (p.t + 3 ≤ e))).foldl State.makeDecision
    (s.setWhisk { w with pend := w.pend.filter (fun p => !decide (p.t + 3 ≤ e)) })

/-! ### Evaluation -/

/-- The Whisk starts at a tick with cleared state (R150), and with it the counts of TRG_RULE_CNT: at a run's start, by its register
table, and when CALIB is entered too, DESIGN CHOICE of log entry 175. -/
def State.whiskStart (s : State) (t : Nat) : State :=
  let s1 := s.setCd { s.cd with whisk := { Whisk.reset with on := true, start := t, next := t }, toWhisk := [] }
  let p := s.phys Reg.TRG_RULE_CNT
  s1.resetRegs (fun k => decide (k ≥ 0x1000000) && k % 0x1000000 == p)

/-- The last tick to evaluate, where the run has an end (R150). -/
def State.lastEval (s : State) : Option Nat :=
  if s.run.active then s.run.sl.map (fun l => s.firstTick l + 2 ^ s.k - 1) else none

/-- Does a word of MEM 0x24 hold an entry in use: an enabled rule, a channel that belongs to a region, an evaluated region
(R153, R155, R345)? -/
def State.tableInUse (s : State) (idx : Nat) : Bool :=
  if idx < 512 then bitOf (s.ruleWord (idx / 8) 0) 31
  else [2 * (idx - 512), 2 * (idx - 512) + 1].any (fun e =>
    let w := Sparse.get 0 s.cd.regions e
    if e < 4096 then bitOf w 16 || bitOf w 17 else bitOf w 31)

/-- Table words of the Whisk with an error are read (R334, R345). -/
def State.readTables (s : State) : State :=
  let d := s.activeDie
  let idx := (s.err.bad.filter (fun b => b.die == d && b.mem == 0x24 && b.kind != 3)).map BadWord.idx ++
    (s.err.raw.filter (fun r => r.die == d && r.mem == 0x24)).map RawWord.idx
  (idx.filter s.tableInUse).foldl (fun t i => (t.memRead d 0x24 i).2) s

/-- A summary term rises in a LIMB (R170, R171). -/
def State.summaryRise (s : State) (j t : Nat) : State :=
  let n := t / 8
  let b := s.rd.activeB
  let old := ((s.ring.summary.find? (fun e => e.1 == b && e.2.1 == n)).map (fun e => e.2.2)).getD 0
  let new := if bitOf old (4 * j + 3) then old else putBits old (4 * j + 3) (4 * j) (8 + t % 8)
  let rest := s.ring.summary.filter (fun e => !(e.1 == b && e.2.1 == n) && decide (n ≤ e.2.1 + 256))
  let s1 := { s with ring := { s.ring with summary := rest ++ [(b, n, new)] } }
  s1.countAt (instKey (s1.phys Reg.TRG_RULE_CNT) j) 0xFFFFFFFF 1

/-- Tick `t` is evaluated. -/
def State.evalTick (s : State) (t : Nat) : State :=
  let s := s.readTables.readCrit 0x26 0 16777216
  let quiet := s.silentAt t
  let w := s.cd.whisk
  let s1 := s.setWhisk { w with
    prims := (w.prims.filter (fun p => decide (t < (if p.silent then p.tag else p.c / 2048) + 256))) ++
      quiet.map (fun q => Prim.mk q.1 0 q.2 0 false true t),
    quiet := quiet.foldl (fun l q => setIns (4 * q.1 + q.2) l) w.quiet,
    bus := w.bus.filter (fun b => decide (t < b.2.2 + 64)) }
  let rules := (List.range (if s1.role = .limb then 4 else 64)).filter s1.ruleOn
  let vals := rules.map (fun r => (r, s1.tree r t))
  let fired := (vals.filter (fun v => v.2 && !(s1.cd.whisk.rule v.1).prev)).map Prod.fst
  let high := (vals.filter Prod.snd).map Prod.fst
  let w1 := (List.range 64).foldl (fun v r =>
    let x := v.rule r
    if x.prev = high.contains r then v else v.setRule r { x with prev := high.contains r }) s1.cd.whisk
  let s2 := s1.setWhisk { w1 with next := t + 1 }
  if s2.role = .limb then fired.foldl (fun u j => u.summaryRise j t) s2
  else
    let g := fired.foldl (fun (acc : List Nat × State) r =>
      let x := acc.2.gates r t
      (if x.1 then acc.1 ++ [r] else acc.1, x.2)) ([], s2)
    g.2.passRules g.1 t

/-- The wall tick at which tick `t` is evaluated has come; the catch-up of a restart does not wait for it (R149, R323). -/
def State.evalWait (s : State) (t : Nat) : State := if s.rd.step = 5 then s else s.advanceTo (t + s.evalLag)

/-- The Whisk evaluates its next tick when the wall tick has come; with EN = 0 the tick passes. After the last tick of the run its
last decisions are made (R149, R150). -/
def State.whiskNext (s : State) : State :=
  let w := s.cd.whisk
  if !w.on then s
  else if (match s.lastEval with
      | some l => decide (w.next > l)
      | none => false) then
    let t := (s.evalWait (w.next + 2)).makeDue (w.next + 2)
    t.setWhisk { t.cd.whisk with on := false }
  else
    let s := (s.evalWait w.next).makeDue w.next
    if s.bit Reg.TRG_CTRL 0 then s.evalTick w.next else s.setWhisk { s.cd.whisk with next := w.next + 1 }

/-- R148, R149: a HIT reaches the Whisk. -/
def execPrimitiveArrival (s : State) : Outcm :=
  .next (match s.cd.toWhisk with
    | [] => s
    | p :: rest =>
      let s1 := s.setCd { s.cd with toWhisk := rest }
      let w := s1.cd.whisk
      let tick := p.c / 2048
      let after : Bool := match s1.lastEval with
        | some l => decide (tick > l)
        | none => false
      if !w.on ∨ !s1.bit Reg.TRG_CTRL 0 then s1
      else if s1.rd.step = 4 ∧ tick < w.next then
        if after then s1 else s1.setWhisk { w with prims := w.prims ++ [{ p with tag := 0 }] }
      else if tick < w.start ∨ after then s1
      else
        let p' := { p with tag := w.next }
        if tick < w.next then
          ((s1.setWhisk { w with prims := w.prims ++ [p'] }).count Reg.TRG_LATE_PRIM_CNT 1).event Reg.TRG_EVT [1]
        else
          s1.setWhisk { w with
            prims := w.prims ++ [p'], lastHit := Sparse.ins p.chan tick w.lastHit,
            quiet := w.quiet.filter (fun q => q / 4 != p.chan) })

/-- X of a release-through notice (R165): the latest evaluated tick before every decision still to be made, less KEEP_PRE,
plus 1. -/
def State.releaseX (s : State) : Nat := (s.cd.whisk.pend.map PendDec.t).foldl min s.cd.whisk.next - s.keepPre

/-- R165: the active CD sends a release-through notice to its own FED. -/
def execReleaseThroughSend (s : State) : Outcm :=
  let w := s.cd.whisk
  .next (if s.role = .limb ∨ !w.on ∨ !s.bit Reg.TRG_CTRL 0 ∨ w.next ≤ w.start then s
    else
      let t := s.setWhisk { w with sentThrough := some (w.next - 1) }
      { t with out := t.out ++ [.release s.cd.gen s.releaseX] })

/-! ### The ring -/

/-- Slot `i` of a ring frame (R168). -/
def slotOf (f : BitVec 128) (i : Nat) : BitVec 16 := f.extractLsb' (16 * i) 16

/-- A frame with slot `i` replaced. -/
def setSlot (f : BitVec 128) (i : Nat) (t : BitVec 16) : BitVec 128 := putBits f (16 * i + 15) (16 * i) t.toNat

/-- The training frame (R169). -/
def trainingFrame : BitVec 128 := 0xFFF00300_FFF00200_FFF00100_FFF00000#128

/-- Does a frame open with a run of exactly 12 ones on every pair, as a training frame does (R169). -/
def looksTraining (f : BitVec 128) : Bool :=
  (List.range 4).all (fun j => (f.extractLsb' (32 * j + 19) 13) == 0x1FFE#13)

/-- Is a frame a training frame: slot 0 of one is zero, while a token frame that matches the pattern carries its token there
(R169). -/
def isTraining (f : BitVec 128) : Bool := looksTraining f && bits (slotOf f 0) 15 14 == 0

/-- Are the pair numbers of a training frame right. -/
def pairsRight (f : BitVec 128) : Bool := (List.range 4).all (fun j => (f.extractLsb' (32 * j + 8) 2).toNat == j)

/-- Does the trigger bus carry tokens, not training, in this mode (R169, R170). -/
def State.tokenMode (s : State) : Bool :=
  s.hk.mode == .run || s.hk.mode == .drain || s.hk.mode == .calib || (s.hk.mode == .safe && !s.hk.safeDrained)

/-- Is a ring check in progress: on the way from SIMMER to RUN or CALIB (R169). -/
def State.ringChecking (s : State) : Bool :=
  s.hk.mode == .simmer && (s.hk.target == some .run || s.hk.target == some .calib)

/-- The ring enters fault (R175). -/
def State.ringFails (s : State) (align : Bool) : State :=
  let was := s.ringFault
  let s1 := if align then { s with ring := { s.ring with alignFault := true } }
    else { s with ring := { s.ring with fault := true } }
  s1.eventIf (!was) Reg.TRG_EVT [3]

/-- A training frame is checked (R169). -/
def State.trainSeen (s : State) (ok : Bool) : State :=
  let r := s.ring
  if ok then
    if r.agree + 1 ≥ 16 then { s with ring := { r with agree := 16, disagree := 0, aligned := true, alignFault := false } }
    else { s with ring := { r with agree := r.agree + 1, disagree := 0 } }
  else
    let s1 := { s with ring := { r with agree := 0, disagree := r.disagree + 1 } }
    if r.aligned ∧ r.disagree + 1 ≥ 3 then ({ s1 with ring := { s1.ring with aligned := false } }).ringFails true else s1

/-- Is a received frame a training frame: where the trigger bus carries no tokens, one with the run of R169 on some pair is one too,
damaged on the others. -/
def State.trainingIn (s : State) (f : BitVec 128) : Bool :=
  isTraining f || (!s.tokenMode && bits (slotOf f 0) 15 14 == 0 &&
    (List.range 4).any (fun j => (f.extractLsb' (32 * j + 19) 13) == 0x1FFE#13))

/-- Does a training frame agree (R169): its run on every pair, the pair numbers, and the offsets. -/
def trainingOk (f : BitVec 128) (skew : Bool) : Bool := looksTraining f && pairsRight f && !skew

/-- What a receiver makes of the pattern of R169 in a frame: a training frame is checked, a token frame that matches only
confirms the alignment. -/
def State.patternSeen (s : State) (train : Bool) (f : BitVec 128) (skew : Bool) : State :=
  if train then s.trainSeen (trainingOk f skew)
  else if trainingOk f skew && s.ring.aligned then s.trainSeen true else s

/-- The ring check of a HEAD begins with the transition: the frames that agree are counted from there (R169). -/
def State.checkBegins (s : State) : State :=
  if s.role = .head then { s with ring := { s.ring with agree := 0 } } else s

/-- One frame's checks of R175 passed or failed: three failures in a row are a fault. -/
def State.ringCheckFrame (s : State) (ok : Bool) : State :=
  if ok then { s with ring := { s.ring with bad := 0 } }
  else
    let s1 := { s with ring := { s.ring with bad := s.ring.bad + 1 } }
    if s1.ring.bad ≥ 3 then s1.ringFails false else s1

/-- The HBD's choice among the two CDs' offers for slot 0 of a HEAD (R174): a KEEP of either, one that differs from it in the
next frame, before the RELEASE of the authorised CD; a late offer of the other CD is dropped. -/
def State.offerToken (s : State) : BitVec 16 × State :=
  let ks := s.ring.pendKeep.filter (fun k => s.heard k.1)
  match ks with
  | d :: rest =>
    (BitVec.ofNat 16 (0x4000 + d.2 % 16384),
      { s with ring := { s.ring with pendKeep := rest.filter (fun k => k.2 != d.2) } })
  | [] => (BitVec.ofNat 16 (0x8000 + s.releaseX % 16384), { s with ring := { s.ring with pendKeep := [] } })

/-- The HEAD's slot 0 token of the frame that begins at tick `t`, and the state it leaves (R170, R174, R176). -/
def State.headToken (s : State) (t : Nat) : BitVec 16 × State :=
  if !s.tokenMode then (0, s)
  else match s.ring.task with
    | some (n, rs) =>
      if n < 64 then
        (BitVec.ofNat 16 (0xC000 + t % 16384), { s with ring := { s.ring with task := some (n + 1, rs) } })
      else s.offerToken
    | none => s.offerToken

/-- R168, R169, R170: the HEAD originates a ring frame. -/
def execRingFrameOriginate (now : Nat) (s : State) : Outcm :=
  .next (let s := s.advanceTo now
    if s.role ≠ .head ∨ !s.aclkRuns then s
    else
      let x := s.tb.tn / 8
      let train := s.ringChecking || (!s.tokenMode && x % 64 == 0)
      let r := s.headToken (8 * x)
      let f : BitVec 128 := if train then trainingFrame else setSlot 0 0 r.1
      let t := if train then s else r.2
      { t with
        ring := { t.ring with sent := t.ring.sent ++ [(x, slotOf f 0, train)] },
        out := t.out ++ [.ring f] })

/-- A 14-bit tick widened against the present tick (R170). -/
def State.widen14 (s : State) (v : Nat) : Int := (s.tb.tn : Int) + sdiffW 14 v s.tb.tn

/-- A LIMB acts on a KEEP token with trigger tick `t` (R167); the start of its window is cut as in R163. -/
def State.limbKeep (s : State) (t : Nat) : State :=
  let p := 2 ^ s.k
  let a := if s.run.active then max (t - s.limbPre) (s.firstTick s.run.sf) else t - s.limbPre
  let closed := s.run.active && decide ((a / p + 1) * p + s.late ≤ s.tb.tn)
  let b := if closed then (s.tb.tn - s.late) / p * p else a
  let w := s.cd.whisk
  let s1 := s.setWhisk { w with windows := w.windows ++ [(b, t + s.limbPost)] }
  let s2 := { s1 with ring := { s1.ring with keepLag := max s1.ring.keepLag (s1.tb.tn - t) } }
  let s3 := s2.keepOut t
  if closed then ((s3.lossOldest s3.source 0 4095 0 2).count Reg.TRG_TRUNC_CNT 1).event Reg.TRG_EVT [2] else s3

/-- A LIMB checks slot 0 of a frame (R175) and acts on it (R167). -/
def State.limbToken (s : State) (tok : BitVec 16) : State :=
  let ty := bits tok 15 14
  let lag := (s.tb.tn : Int) - s.widen14 (bits tok 13 0)
  let ok := decide (ty = 0 ∨ ty = 3) || decide (0 ≤ lag ∧ lag ≤ 2047)
  let s1 := s.ringCheckFrame ok
  if !ok then s1
  else
    let t := (s1.widen14 (bits tok 13 0)).toNat
    if ty = 1 then s1.limbKeep t
    else if ty = 2 then { s1 with out := s1.out ++ [.release s1.cd.gen t] }
    else s1

/-- R168, R169: a LIMB receives a whole ring frame. -/
def execRingFrameReceive (frame : BitVec 128) (skew : Bool) (now : Nat) (s : State) : Outcm :=
  .next (let s := s.advanceTo now
    if s.role ≠ .limb ∨ !s.aclkRuns then s
    else
      let s1 := { s with ring := { s.ring with rx := some (frame, s.tb.tn) } }
      let s2 := s1.patternSeen (s.trainingIn frame) frame skew
      if s.trainingIn frame then s2 else s2.limbToken (slotOf frame 0))

/-- Two CDs' summary tokens merged term by term (R174): ACT is the OR, TICK the smaller among the active. -/
def mergeSummary (x y : BitVec 16) : BitVec 16 :=
  (List.range 4).foldl (fun r j =>
    let a := bits x (4 * j + 3) (4 * j)
    let b := bits y (4 * j + 3) (4 * j)
    putBits r (4 * j + 3) (4 * j) (if a < 8 then (if b < 8 then 0 else b) else if b < 8 then a else min a b)) 0

/-- A LIMB's own token in a frame that it finished receiving at tick `t`: what its CDs offer for the evaluated frame, merged
(R170, R171, R174). -/
def State.limbSlot (s : State) (f : BitVec 128) (t : Nat) : BitVec 16 :=
  if bits (slotOf f 0) 15 14 = 3 then BitVec.ofNat 16 (0xC000 + t % 16384)
  else if t < s.trgA + 8 then 0
  else
    ((s.ring.summary.filter (fun e => e.2.1 == (t - s.trgA - 8) / 8 && s.heard e.1)).map (fun e => e.2.2)).foldl
      mergeSummary 0

/-- R168: a LIMB forwards the frame 4 ticks later; a training frame goes on unchanged (R169). -/
def execRingFrameForward (s : State) : Outcm :=
  .next (match s.ring.rx with
    | none => s
    | some (f, t) =>
      let s := s.advanceTo (t + 4)
      let g := if s.trainingIn f then f else setSlot f s.source (s.limbSlot f t)
      { s with ring := { s.ring with rx := none }, out := s.out ++ [.ring g] })

/-- The summary token of a slot becomes BUS leaves (R172). -/
def State.busToken (s : State) (x slot : Nat) (tok : BitVec 16) : State :=
  let base := 8 * x + (s.hop slot).2
  if base < s.trgA + 8 then s
  else
    let n := (base - s.trgA - 8) / 8
    let ls := (List.range 4).filterMap (fun j =>
      if bitOf tok (4 * j + 3) then some (slot, j, 8 * n + bits tok (4 * j + 2) (4 * j)) else none)
    s.setWhisk { s.cd.whisk with bus := s.cd.whisk.bus ++ ls }

/-- A MARK frame's results for the loop task (R176). -/
def State.loopResults (s : State) (f : BitVec 128) (x : Nat) : State :=
  match s.ring.task with
  | none => s
  | some (n, rs) =>
    let echo := (List.range 8).filterMap (fun i =>
      let tok := slotOf f i
      if i ≠ 0 ∧ bits tok 15 14 = 3 then some (i, (sdiffW 14 (bits tok 13 0) (8 * x)).toNat) else none)
    { s with ring := { s.ring with task := some (n, rs ++ [(0, s.tb.tn - 8 * x)] ++ echo) } }

/-- R172, R175, R176: a frame returns to the HEAD. -/
def execRingFrameReturn (frame : BitVec 128) (skew : Bool) (now : Nat) (s : State) : Outcm :=
  .next (let s := s.advanceTo now
    match s.ring.sent with
    | [] => s
    | (x, tok, train) :: rest =>
      if s.role ≠ .head then s
      else
        let same := slotOf frame 0 == tok
        let s0 := { s with ring := { s.ring with sent := rest, loop := s.tb.tn - 8 * x } }
        let s1 := if same then s0 else s0.count Reg.TRG_RING_ERR_CNT 1
        let s2 := s1.ringCheckFrame same
        let s3 := s2.patternSeen (train || isTraining frame) frame skew
        if train || isTraining frame then s3
        else if bits tok 15 14 = 3 then s3.loopResults frame x
        else s3.ringSlots.foldl (fun t i => t.busToken x i (slotOf frame i)) s3)

/-! ### The loop task -/

/-- A write of TRG_LOOP_CMD (R176): GO is answered STATE_REJECT outside CALIB and outside a HEAD. -/
def State.loopWrite (s : State) (data : W32) (be : BitVec 4) : Rep :=
  if bitOf (mergeBE 0 data be) 0 then
    if !s.allows .writeCfg ∨ s.role ≠ .head ∨ s.hk.mode ≠ .calib ∨ s.hk.target ≠ none then .no Stat.stateReject s
    else if s.ring.task.isSome then .no Stat.notReady s
    else .done { s with ring := { s.ring with task := some (0, []) } }
  else s.guarded false false .writeCfg false s

/-- R176: TRG_LOOP_CMD.GO. -/
def execLoopTask (lane : Lane) (s : State) : Outcm :=
  .next (s.accessW lane Reg.TRG_LOOP_CMD 0xF (fun t => t.loopWrite 1 0xF))

/-- The result of the loop task for a slot: its 64 results agree. -/
def loopResult (slot : Nat) (rs : List (Nat × Nat)) : Option Nat :=
  let mine := (rs.filter (fun r => r.1 == slot)).map Prod.snd
  match mine with
  | [] => none
  | v :: t => if mine.length = 64 ∧ t.all (fun x => x == v) then some v else none

/-- R176: the loop task ends; a slot with 64 agreeing results gets them as its entry, one without is not valid. -/
def execLoopTaskDone (s : State) : Outcm :=
  .next (match s.ring.task with
    | none => s
    | some (_, rs) =>
      let slots := 0 :: s.configured
      let hop := (List.range 8).foldl (fun m i => Sparse.put 0 i (match loopResult i rs with
        | some v => rec64 [(1, 1), (0, 19), (v, 12)]
        | none => (putBits (Sparse.get 0 m i) 31 31 0)) m) s.cal.hop
      let fail := slots.any (fun i => (loopResult i rs).isNone)
      let s1 := { s with cal := { s.cal with hop := hop }, ring := { s.ring with task := none } }
      if fail then s1.event Reg.TRG_EVT [4]
      else { s1 with ring := { s1.ring with fault := false, bad := 0 } })

end Sys2Proof.Machine
end

