-- ==== Sys2Proof/Machine/Slices.lean ====
section
/-! DEFINITION. Slices (R213 to R235): opening, closing and draining, the frame that the Ladle builds, barriers, the merge
of peer frames in a HEAD and the rate-reduction ladder, with the meanings of their commands. -/

namespace Sys2Proof.Machine

/-! ### The ladder -/

/-- Threshold `n` (1 to 4) of SLC_LADDER_UP or SLC_LADDER_DOWN as written. -/
def State.ladderByte (s : State) (a n : Nat) : Nat := bits (s.reg a) (8 * n - 1) (8 * n - 8)

/-- The applied entry thresholds (R230): up[n], each not below the one before. -/
def State.upThr (s : State) : Nat → Nat
  | 0 => 0
  | n + 1 => if n = 0 then s.ladderByte Reg.SLC_LADDER_UP 1 else max (s.upThr n) (s.ladderByte Reg.SLC_LADDER_UP (n + 1))

/-- The applied leave thresholds (R230). -/
def State.downThr (s : State) (n : Nat) : Nat :=
  let d := s.ladderByte Reg.SLC_LADDER_DOWN n
  if d < s.upThr n then d else s.upThr n - 1

/-- Is a value of the ladder adjusted (R230, R231). -/
def State.ladderClamped (s : State) : Bool :=
  [1, 2, 3, 4].any (fun n => s.upThr n != s.ladderByte Reg.SLC_LADDER_UP n ||
    s.downThr n != s.ladderByte Reg.SLC_LADDER_DOWN n) ||
  s.fld Reg.SLC_LADDER_CFG 31 24 == 0 || decide (s.fld Reg.SLC_LADDER_CFG 6 4 > 4) ||
  decide (s.fld Reg.SLC_THROTTLE 2 0 > 4) || decide (s.fld Reg.SLC_THROTTLE 6 4 > 6)

/-- One opening of the ladder (R230) at pressure `p`. -/
def State.ladderStep (s : State) (l : Ladder) (p : Nat) : Ladder :=
  let top := min 4 (s.fld Reg.SLC_LADDER_CFG 6 4)
  let gap := max 1 (s.fld Reg.SLC_LADDER_CFG 31 24)
  let target := (List.range (top + 1)).foldl (fun t n => if n ≠ 0 ∧ p ≥ s.upThr n then n else t) 0
  let l' :=
    if target > l.level then
      if target = 4 ∧ l.step = 0 then { l with level := 4, step := 1, since := 0 } else { l with level := target }
    else if l.level > 0 ∧ p < s.downThr l.level then
      if l.level = 4 ∧ l.step > 1 then
        if l.since ≥ gap then { l with step := l.step - 1, since := 0 } else l
      else { l with level := l.level - 1, step := if l.level = 4 then 0 else l.step }
    else if l.level = 4 ∧ p ≥ s.upThr 4 ∧ l.step < 6 ∧ l.since ≥ gap then { l with step := l.step + 1, since := 0 }
    else l
  { l' with since := l'.since + 1, lastP := p, p := 0 }

/-- The applied level and step (R231). -/
def State.applied (s : State) (l : Ladder) : Nat × Nat :=
  let lv := max l.level (min 4 (s.fld Reg.SLC_THROTTLE 2 0))
  (lv, if lv = 4 then max (max l.step (min 6 (s.fld Reg.SLC_THROTTLE 6 4))) 1 else 0)

/-- The words of a block on a lane (R237). -/
def Block.size (b : Block) : Nat := 2 + (if b.dep.isSome then 2 else 0) + b.payload.length

/-- Bytes held in the replay buffer. -/
def State.replayBytes (s : State) : Nat :=
  8 * ((s.ulp.wait.map Block.size).sum + ((s.ulp.held.map (fun f => (f.blocks.map Block.size).sum)).sum))

/-- The lanes of the uplink group, or of a LIMB's peer-lane set (R21). -/
def State.outSet (s : State) : List Nat :=
  (List.range 32).filter (fun n => s.laneRole n == (if s.role = .limb then 3 else 2))

/-- W_o in microseconds (R234). -/
def State.waitOut (s : State) : Nat :=
  match s.role with
  | .solo => 50 | .limb => 10 | .head => 26

/-- Bits of payload that the set sends in W_o, times 66 / 64 (R229, R268). -/
def State.outBits (s : State) : Nat :=
  (((s.outSet.filter s.laneUp).map (fun n => bitsPerTick (s.lane n).rate)).sum) * 320 * s.waitOut

/-- The Pantry and replay samples of R229. -/
def State.pantryNow (s : State) : Nat := min 255 (256 * (131072 - s.cd.f) / 131072)
def State.replayNow (s : State) : Nat := min 255 (256 * s.replayBytes / 8388608)

/-- The output sample of R229 for a number of bytes awaiting serialization. -/
def State.outputNow (s : State) (bytes : Nat) : Nat :=
  let c := 64 * s.outBits
  if c = 0 then (if bytes = 0 then 0 else 255) else min 255 (256 * (bytes * 8 * 66) / c)

/-- The largest enabled sample of the last three (R229). -/
def State.enabledMax (s : State) (l : Ladder) : Nat :=
  let src := s.reg Reg.SLC_LADDER_CFG
  max (if bitOf src 0 then l.pantry else 0) (max (if bitOf src 1 then l.replay else 0) (if bitOf src 2 then l.output else 0))

/-- R229, R234: the active CD samples its pressures; a backlog beyond W_o sets LAT_EXCEEDED. -/
def execPressureSample (awaiting : Nat) (s : State) : Outcm :=
  .next (if !s.cclkRuns then s
    else
      let l := { s.cd.ladder with pantry := s.pantryNow, replay := s.replayNow, output := s.outputNow awaiting }
      let l' := { l with p := max l.p (s.enabledMax l) }
      (s.setCd { s.cd with ladder := l' }).eventIf (decide (awaiting * 8 * 66 > 64 * s.outBits)) Reg.SLC_EVT [5])

/-- A write of SLC_THROTTLE (R231). -/
def State.throttleWrite (s : State) (data : W32) (be : BitVec 4) : Rep :=
  let k := s.phys Reg.SLC_THROTTLE
  let v := mergeBE (s.reg Reg.SLC_THROTTLE) data be
  let t := s.storeFields k v
  s.guarded false (s.lockHit k v) .throttleFlush false (t.eventIf t.ladderClamped Reg.SLC_EVT [4])

/-- A write of SLC_THROTTLE through the alias (R412). -/
def State.throttleAlias (s : State) (data : W32) (be : BitVec 4) : Rep :=
  (s.throttleWrite data be).mirrored (fun t => t.throttleWrite data be)

/-- R231: the THROTTLE command. -/
def execThrottle (lane : Lane) (data : W32) (be : BitVec 4) (s : State) : Outcm :=
  .next (s.accessW lane Reg.SLC_THROTTLE be (fun t => t.throttleAlias data be))

/-! ### Opening and closing -/

/-- What the first tick of a run clears (R150, R197, R230; SLC_THROTTLE and FE_RET_STS by their register tables). -/
def State.runFirst (s : State) : State :=
  let l := { Ladder.zero with pantry := s.pantryNow, replay := s.replayNow, output := s.cd.ladder.output }
  let c := s.cd
  let s1 := s.setCd { c with
    presc := [], prescHist := [], quotaSup := [], seen := [], gather := [], lastClosed := none, opened := [], closed := [],
    past := [], held := c.held.map (fun x => { x with slice := 0 }),
    ladder := { l with p := s.enabledMax l }, ckpt := none, peerDue := [] }
  let s2 := (s1.setFld Reg.SLC_THROTTLE 2 0 0).latch (heldRegs.filter (fun a => a != Reg.SLC_CFG))
  let s3 := { s2 with
                      fed := { s2.fed with retShort := false }, ring := { s2.ring with keepLag := 0 },
                      ulp := { s2.ulp with peak := s2.replayBytes } }
  s3.whiskStart (s3.firstTick s3.run.sf)

/-- The group enables held for a slice boundary take effect (R95). -/
def State.groupBoundary (s : State) : State :=
  match s.fe.groupPend with
  | some (b, v) => if b ≤ s.tb.tn then { s with fe := { s.fe with groupEff := v, groupPend := none } } else s
  | none => s

/-- Slice `n` opens (R198, R216, R230, R231). -/
def State.openSlice (s : State) (n : Nat) : State :=
  let c := s.cd
  let l := s.ladderStep c.ladder c.ladder.p
  let a := s.applied l
  let step := if s.role = .limb then 0 else a.2
  let hot := (c.hotPend.foldl (fun x h => setIns h x) c.rateSup).filter (fun h => !c.coolPend.contains h)
  let fresh := hot.any (fun h => !c.rateSup.contains h)
  let s1 := s.setCd { c with
    ladder := l, rateSup := hot, hotPend := [], coolPend := [],
    opened := c.opened ++ [SliceSt.mk n a.1 step false hot s.fe.groupEff] }
  let s2 := (s1.eventIf fresh Reg.COL_EVT [0]).eventIf (decide (l.level > c.ladder.level)) Reg.SLC_EVT [3]
  { s2 with
    run := { s2.run with nextOpen := (n + 1) % 2 ^ 32, opened := true },
    wf := { s2.wf with intv := Sparse.ins n s2.wfInterval s2.wf.intv },
    out := s2.out ++ [.level s2.cd.gen n a.1 step] }

/-- R45, R216: a slice boundary is reached. The next slice opens, or the mode becomes DRAIN after Sl. -/
def execSliceOpen (s : State) : Outcm :=
  let n := s.run.nextOpen
  let past := match s.run.sl with
    | some l => decide (sdiff n l > 0)
    | none => false
  .next (if !s.run.active then s
    else if past then
      if s.hk.mode = .run ∧ s.hk.target = some .drain ∧ s.run.endMode = 2 then
        let t := (s.advanceTo (s.firstTick n)).groupBoundary.runFlushes
        t.modeDone .drain t.run.endCause
      else s
    else if s.run.sl = none ∧ s.hk.mode ≠ .run then s
    else
      let t := (s.advanceTo (s.firstTick n)).groupBoundary.runFlushes
      (if t.run.opened then t else t.runFirst).openSlice n)

/-- May the oldest slice close: not during the replay walk, and during the catch-up only when the Whisk has come far
enough (R322, R323). -/
def State.mayClose (s : State) (n : Nat) : Bool :=
  match s.rd.step with
  | 0 => true
  | 5 => !s.bit Reg.TRG_CTRL 0 || decide (s.cd.whisk.next + s.ld > s.firstTick n + 2 ^ s.k + s.late)
  | _ => false

/-- R215: the oldest open slice closes. -/
def execSliceClose (s : State) : Outcm :=
  .next (match s.cd.opened with
    | [] => s
    | x :: rest =>
      if s.mayClose x.n then
        let t := (s.advanceTo (s.firstTick x.n + 2 ^ s.k + s.late)).runFlushes
        t.setCd { t.cd with opened := rest, closed := t.cd.closed ++ [x], lastClosed := some x.n }
      else s)

/-! ### Peers -/

/-- The header of slice `n` from a source. -/
def Peer.header (p : Peer) (n : Nat) : Option W64 := (p.hdr.find? (fun h => h.1 == n)).map Prod.snd

/-- The gap of slice `n` from a source. -/
def Peer.gap (p : Peer) (n : Nat) : Option Nat := (p.gaps.find? (fun h => h.1 == n)).map Prod.snd

/-- Has the whole frame of slice `n` arrived from a source. -/
def Peer.whole (p : Peer) (n : Nat) : Bool :=
  match p.doneSlice with
  | some d => decide (sdiff n d ≤ 0)
  | none => false

/-- May a HEAD build the frame of slice `n` (R223): headers from every admitted LIMB, or the peer deadline; and every
frame whose header came in time is there, since the output waits for its records. -/
def State.headReady (s : State) (n : Nat) : Bool :=
  let adm := s.admitted
  (s.cd.peerDue.contains n || adm.all (fun i => ((s.peer i).header n).isSome || ((s.peer i).gap n).isSome)) &&
    adm.all (fun i => ((s.peer i).header n).isNone || (s.peer i).whole n)

/-- R214: does a LIMB header match the module's own KM8, ACQ and COMPAT. -/
def State.headerMatches (s : State) (h : W64) : Bool :=
  bits h 9 7 == s.k - 8 && bits h 6 5 == s.acq && bitOf h 4 == s.compat

/-- Does a ring fault make sources incomplete (R175): in TRIGGERED and MIXED. -/
def State.ringSpoils (s : State) : Bool := s.ringFault && s.acq != 1

/-- The COMPLETE bit of source `i` in the frame of slice `n` (R175, R224, R345). -/
def State.sourceComplete (s : State) (n i : Nat) : Bool :=
  let tables := s.acq != 1 && s.err.bad.any (fun b =>
    b.die == s.activeDie && b.mem == 0x24 && decide (b.kind ≥ 2) && s.tableInUse b.idx)
  match s.role with
  | .solo => i != 0 || !tables
  | .limb => i != s.source || (!tables && !s.ringSpoils)
  | .head =>
    if i = 0 then !tables
    else if !s.configured.contains i then true
    else if !s.admitted.contains i then false
    else match (s.peer i).header n with
      | some h => bitOf h (16 + i) && s.headerMatches h && !s.ringSpoils
      | none => false

/-- The COMPLETE field. -/
def State.complete (s : State) (n : Nat) : Nat :=
  ((List.range 8).map (fun i => if s.sourceComplete n i then 2 ^ i else 0)).sum

/-- Was slice `n` open at S2 of the latest switch-over of the run (R327). -/
def State.openAtS2 (s : State) (n : Nat) : Bool :=
  match s.rd.openS2 with
  | some o => decide (sdiff n o ≤ 0)
  | none => false

/-- The peer deadline of slice `n` (R223); of one that was open at S2 it is the end of S5 plus W_p (R327). -/
def State.peerDeadline (s : State) (n : Nat) : Nat :=
  if s.openAtS2 n then s.rd.s5End + s.peerWait else s.firstTick n + 2 ^ s.k + s.late + s.peerWait

/-- R223: the peer deadline of the oldest closed slice that has not met it. -/
def execPeerDeadline (s : State) : Outcm :=
  .next (if s.role ≠ .head then s
    else match s.cd.closed.find? (fun x => !s.cd.peerDue.contains x.n) with
      | none => s
      | some x =>
        if s.rd.step ≠ 0 ∧ s.openAtS2 x.n then s
        else
          let t := s.advanceTo (s.peerDeadline x.n)
          t.setCd { t.cd with peerDue := t.cd.peerDue ++ [x.n] })

/-! ### Draining -/

/-- Cut queue entries into records and WAVE units. -/
def entUnits : Nat → List Ent → List (List Ent)
  | 0, _ => []
  | _, [] => []
  | f + 1, e :: t =>
    let n := if e.kind = .wave then e.more else 0
    (e :: t.take n) :: entUnits f (t.drop n)

/-- The units of slice `n` in a queue. In a HEAD a WAVE of the own source may stand behind a HIT of the next slice; it is
merged with its HIT as in a SOLO module, which keeps it in a queue of its own (R201, R219). -/
def Queue.unitsOf (q : Queue) (n : Nat) : List (List Ent) :=
  let es := q.ents.filter (fun e => decide (sdiff e.slice n ≤ 0))
  entUnits es.length es

/-- A queue after the records of slice `n` have left. -/
def Queue.after (q : Queue) (n : Nat) : Queue :=
  let rest := q.ents.filter (fun e => decide (sdiff e.slice n > 0))
  if rest = [] then Queue.empty else { off := (q.off + (q.ents.length - rest.length)) % 32, ents := rest }

/-- Source and channel of a queue (R201). -/
def State.queueSrc (s : State) (q : Nat) : Nat × Nat :=
  if s.role = .head then (q / 4096, q % 4096) else (s.source, q / 8)

/-- Insert by a key, after equal ones. -/
def insBy {α : Type} (key : α → Nat) (x : α) : List α → List α
  | [] => [x]
  | y :: t => if key x < key y then x :: y :: t else y :: insBy key x t

/-- A stable sort by a key. -/
def sortBy {α : Type} (key : α → Nat) (l : List α) : List α := l.foldl (fun a x => insBy key x a) []

/-- The HITs of slice `n` in record order, each with its WAVE units (R219): source, channel, HIT, units. -/
def State.hitsOf (s : State) (n : Nat) : List (Nat × Nat × Ent × List (List Ent)) :=
  let units := s.cd.queues.flatMap (fun e => (e.2.unitsOf n).map (fun u => (s.queueSrc e.1, u)))
  let hits := units.filterMap (fun x => match x.2 with
    | e :: _ => if e.kind = .hit then some (x.1.1, x.1.2, e) else none
    | [] => none)
  let waves := fun (src : Nat) (h : Ent) => (units.filter (fun x => match x.2 with
    | e :: _ => e.kind == .wave && x.1 == (src, h.chan) && e.c == h.c
    | [] => false)).map Prod.snd
  let sorted := sortBy (fun x => x.1 * 4096 + x.2.1) (sortBy (fun x => x.2.2.c) hits)
  sorted.map (fun x => (x.1, x.2.1, x.2.2, waves x.1 x.2.2))


/-- An uncorrectable Pantry entry met at drain (R343 class 4): skipped, reported in the same frame. -/
def State.pantryLoss (s : State) (n src ch count : Nat) : State :=
  let r := s.draw
  (r.2.setCd { r.2.cd with losses := mergeLoss ⟨n, src, ch, ch, count, 8⟩ r.2.cd.losses }).uncorrLoss s.activeDie 0x20
    (r.1 % 0x1000000) 8

/-- The record section of slice `n` (R219 to R221): its groups, and the state that counts and losses leave. -/
def State.recordSection (s : State) (n level : Nat) : List (List W64) × State :=
  (s.hitsOf n).foldl (fun (acc : List (List W64) × State) x =>
    let t := acc.2
    let h := x.2.2.1
    if h.unc then (acc.1, t.pantryLoss n x.1 x.2.1 1)
    else if s.mixedDrop x.1 level h then (acc.1, t.count Reg.COL_LADDER_CNT 1)
    else if !s.selected x.1 level h then acc
    else
      let good := x.2.2.2.filter (fun u => !u.any Ent.unc)
      let bad := (x.2.2.2.filter (fun u => u.any Ent.unc)).length
      let t1 := (List.range bad).foldl (fun u _ => u.pantryLoss n x.1 x.2.1 0) t
      (acc.1 ++ [h.word :: (good.flatMap (fun u => u.map Ent.word))], t1)) ([], s)

/-- What became of the own HITs of slice `n`, for the WAVE units that come after its frame: one that the frame left out is
dropped (R146, R217). -/
def State.seenAfter (s : State) (n level : Nat) : List Seen :=
  let sent := (s.hitsOf n).filter (fun x => x.1 == s.source && s.selected x.1 level x.2.2.1)
  s.cd.seen.map (fun x =>
    if x.slice = n ∧ x.out = 0 ∧ !sent.any (fun h => h.2.1 == x.chan && h.2.2.1.c == x.c) then { x with out := 1 } else x)

/-- The trigger section of slice `n` (R164, R185). -/
def State.trigSection (s : State) (n : Nat) : List (List W64) :=
  let a := s.firstTick n
  let b := a + 2 ^ s.k - 1
  let ds := s.cd.whisk.decs.filter (fun d => decide (d.first ≤ b ∧ a ≤ d.last))
  if s.role = .limb then []
  else (sortBy Dec.t ds).map (fun d =>
    recTrig d.cause d.trunc d.coarse ((d.t : Int) - (a : Int)) d.fine (d.t - d.first) (d.last - d.t)
      ((d.mask.map (fun r => 2 ^ r)).sum))

/-- Reports that a frame carries for unusable channel-table entries (R345), for a LIMB's gap (R224) and for a faulty peer
block of the slice whose report is still open (R253), and those held since the last run (R438). -/
def State.frameLosses (s : State) (n : Nat) : State :=
  let on := (s.cd.slice n).map SliceSt.groups |>.getD s.fe.groupEff
  let dead := ((s.err.bad.filter (fun b => b.die == .fed && b.mem == 0x13 && decide (b.kind ≥ 2) && decide (b.idx < 4096))).map
    BadWord.idx).filter (fun c => bitOf (s.chanWord c) 63 && bitOf on (groupOf c))
  let s1 := dead.foldl (fun t c => t.lossInC 7 n t.source c c 0 8) s
  let s2 := s1.admitted.foldl (fun (t : State) i => match (t.peer i).gap n with
    | some cause => t.lossInC 12 n i 0 4095 0 cause
    | none => t) s1
  let s3 := s2.admitted.foldl (fun (t : State) i => match (t.peer i).badPend with
    | some (m, lo) => if m = n then (t.setPeer i { t.peer i with badPend := none }).lossIn n i lo 4095 0 10 else t
    | none => t) s2
  let held := s3.cd.held.filter (fun x => x.slice == 0)
  s3.setCd { s3.cd with
    held := s3.cd.held.filter (fun x => x.slice != 0),
    losses := held.foldl (fun l x => mergeLoss { x with slice := n } l) s3.cd.losses }

/-- The loss section of slice `n` (R218). -/
def State.lossSection (s : State) (n : Nat) : List (List W64) :=
  let ls := s.cd.losses.filter (fun x => x.slice == n)
  (sortBy (fun x => x.src * 2 ^ 20 + x.lo * 2 ^ 8 + x.cause) ls).map (fun x => [recLoss x.src x.lo x.hi x.count x.cause])

/-- The level of the header (R225). -/
def State.headerLevel (s : State) (n own : Nat) : Nat :=
  if s.role = .head then
    (s.admitted.filterMap (fun i => ((s.peer i).header n).map (fun h => bits h 15 13))).foldl max own
  else own

/-- The groups of a frame, the first and the last marked. -/
def frameGroups (n : Nat) (gs : List (List W64)) : List LGroup :=
  gs.mapIdx (fun i g => ⟨g, n, i == 0, i + 1 == gs.length, false, false, 0⟩)

/-- The barrier records that follow slice `n`, in the order of R227. -/
def barrierGroups (bs : List Barrier) (n : Nat) : List LGroup :=
  let mine := sortBy Barrier.rank (bs.filter (fun b => b.after == n))
  mine.map (fun b => { aloneGroup b.slice b.word with rank := b.rank })

/-- The closing MARK/MODE after Sl (R43). -/
def State.closing (s : State) (n : Nat) : List LGroup :=
  if s.run.sl = some n then [{ aloneGroup n (recMode n s.run.endMode s.run.endCause) with rank := 99 }] else []

/-- What a HEAD no longer needs of a peer once slice `n` has been emitted: readings of slices that lie well behind (R7). -/
def Peer.retire (p : Peer) (n : Nat) : Peer :=
  let live := fun (m : Nat) => decide (sdiff m n ≥ -64)
  let near := fun (m : Nat) => decide (sdiff m n ≥ -(2 ^ 21 : Int))
  { p with
    hdr := p.hdr.filter (fun h => live h.1), gaps := p.gaps.filter (fun h => live h.1),
    doneSlice := p.doneSlice.filter near, sack := p.sack.filter near, lastHit := p.lastHit.filter (fun h => near h.1),
    log := p.log.filter (fun e => near e.2) }

/-- The run's first slices follow behind slice `n` at 2^30 slices, so that no comparison with them wraps (R7). -/
def Run.retire (r : Run) (n : Nat) : Run :=
  let near := fun (m : Nat) => if sdiff n m > 2 ^ 30 then (n + 2 ^ 32 - 2 ^ 30) % 2 ^ 32 else m
  { r with sf := near r.sf, named := near r.named }

/-- Slice `n` has been emitted: readings that lie far behind it are dropped (R7). -/
def State.retirePeers (s : State) (n : Nat) : State :=
  let peers := (s.ulp.peers.map (fun (e : Nat × Peer) => (e.1, e.2.retire n))).filter (fun e => decide (e.2 ≠ Peer.empty))
  let near := fun (m : Nat) => decide (sdiff m n ≥ -(2 ^ 21 : Int))
  { s with
    ulp := { s.ulp with peers := peers },
    rd := { s.rd with
      peerFrom := s.rd.peerFrom.filter near, short := s.rd.short.filter near, openS2 := s.rd.openS2.filter near,
      taken := s.rd.taken.filter near },
    run := s.run.retire n }

/-- What follows the frame or gap of slice `n`: its barriers and, after Sl, the closing record; what no later slice needs
is dropped. Barriers and decisions of a slice stay until it has been handed over whole, for a checkpoint taken by then (R316). -/
def State.afterSlice (s : State) (n : Nat) : State :=
  let s := s.retirePeers n
  let c := s.cd
  let old := fun (m : Nat) => decide (sdiff m n < -64)
  let stale := fun (h : PrescHist) => old h.slice && (match h.closed with
    | some x => old x
    | none => true)
  let endTick := min (s.firstTick n + 2 ^ s.k) (s.firstTick s.nextEmitted)
  let s1 := s.setCd { c with
    ladle := c.ladle ++ barrierGroups c.barriers n ++ s.closing n,
    barriers := c.barriers.filter (fun b => b.after != n),
    placed := (c.placed ++ c.barriers.filter (fun b => b.after == n)).filter (fun b => decide (sdiff b.after s.nextEmitted ≥ 0)),
    losses := c.losses.filter (fun x => x.slice != n),
    quotaSup := c.quotaSup.filter (fun q => !old q.2.1),
    seen := c.seen.filter (fun x => !old x.slice), past := c.past.filter (fun x => !old x.n),
    prescHist := c.prescHist.filter (fun h => !stale h),
    peerDue := c.peerDue.filter (fun x => x != n),
    whisk := { c.whisk with
      decs := c.whisk.decs.filter (fun d => decide (d.last ≥ endTick)),
      windows := c.whisk.windows.filter (fun w => decide (w.2 ≥ endTick)) } }
  { s1 with run := { s1.run with lastEmitted := some n } }

/-- The descriptors of the queues drained for slice `n` are read, and the links of one that spans pages (R200, R332). The places of
the pages are not stated: any link word counts as read then, DESIGN CHOICE of log entry 187. -/
def State.readDrained (s : State) (n : Nat) : State :=
  let mine := s.cd.queues.filter (fun e => e.2.ents.any (fun x => decide (sdiff x.slice n ≤ 0)))
  let t := mine.foldl (fun u e => u.readCrit 0x22 e.1 1) s
  if mine.any (fun e => decide (e.2.pages > 1)) then t.readCrit 0x21 0 131072 else t

/-- The frame of the oldest closed slice is built (R218). -/
def State.buildFrame (s : State) : State :=
  match s.cd.closed with
  | [] => s
  | x :: rest =>
    let n := x.n
    let s := s.readDrained n
    let sec := s.recordSection n x.level
    let s1 := sec.2.frameLosses n
    let comp := s1.complete n
    let missing := s1.configured.any (fun i => !s1.sourceComplete n i)
    let h := recHeader n comp (s1.headerLevel n x.level) x.step (s1.k - 8) s1.acq s1.compat x.restart
    let dep := recDep 0 0 0
    let gs := frameGroups n ([[h, dep.1, dep.2]] ++ s1.trigSection n ++ sec.1 ++ s1.lossSection n)
    let c := s1.cd
    let s2 := s1.setCd { c with
      closed := rest, past := c.past ++ [x], ladle := c.ladle ++ gs, seen := s1.seenAfter n x.level,
      queues := (c.queues.map (fun e => (e.1, e.2.after n))).filter (fun e => decide (e.2 ≠ Queue.empty)) }
    let s3 := (s2.count Reg.SLC_FRAME_CNT 1).count Reg.SLC_PEER_INC_CNT (b2n missing)
    s3.afterSlice n

/-- Reports placed in the frame of slice `n` that are not of that slice's own HITs: those a slice that becomes a gap passes
on to the next frame (R33, R217, R343). -/
def Loss.travels (x : Loss) (n : Nat) : Bool := x.slice == n && x.cause != 6 && x.cause != 7

/-- A slice that cannot be drained is emitted as SLICE_GAP (R48, R329): the reports of earlier records that its frame was to
carry go into the next frame, or wait for the next run (R32, R33, R438). -/
def State.gapSlice (s : State) (n cause : Nat) : State :=
  let c := s.cd
  let left := (c.opened ++ c.closed).filter (fun x => x.n != n && decide (sdiff x.n n > 0))
  let next := (left.map SliceSt.n).foldl (fun (b : Option Nat) m => match b with
    | none => some m
    | some k => some (if sdiff m k < 0 then m else k)) none
  let move := c.losses.filter (fun x => x.travels n)
  let stay := c.losses.filter (fun x => !x.travels n)
  let s1 := s.setCd { c with
    opened := c.opened.filter (fun x => x.n != n), closed := c.closed.filter (fun x => x.n != n),
    past := c.past ++ (c.opened ++ c.closed).filter (fun x => x.n == n),
    lastClosed := if c.isClosed n then c.lastClosed else some n,
    losses := match next with
      | some m => move.foldl (fun l x => mergeLoss { x with slice := m } l) stay
      | none => stay,
    held := match next with
      | some _ => c.held
      | none => move.foldl (fun l x => mergeLoss { x with slice := if s.run.sl.isSome then 1 else 0 } l) c.held,
    seen := c.seen.map (fun x => if x.slice = n ∧ x.out = 0 then { x with out := 1 } else x),
    ladle := c.ladle ++ [aloneGroup n (recGap n cause)],
    queues := (c.queues.map (fun e => (e.1, e.2.after n))).filter (fun e => decide (e.2 ≠ Queue.empty)) }
  (s1.errLoss s.activeDie cause).afterSlice n

/-- Has retention lost copies of slice `n`, whose first block the HBD has not received (R329): since a switch-over discards what
the HBD held of later slices, each but a first slice that was partly sent. DEDUCED in log entry 186. -/
def State.shortOf (s : State) (n : Nat) : Bool :=
  match s.rd.short with
  | some l => decide (sdiff n l ≤ 0 ∧ sdiff n s.rd.m ≥ 0) && !(n == s.rd.m && decide (s.rd.bm > 0))
  | none => false

/-- The Stockpot drains the oldest closed slice and the Ladle builds its frame (R216). Slices that a fatal error keeps from
being drained (R48), and those of which retention has lost copies (R329), become SLICE_GAP. -/
def State.drainNext (s : State) : State :=
  if s.cd.st < cdActive then
    match s.cd.closed ++ s.cd.opened with
    | [] => s
    | x :: _ => s.gapSlice x.n 4
  else match s.cd.closed with
    | [] => s
    | x :: _ => if s.shortOf x.n then s.gapSlice x.n 11 else if s.role = .head then s else s.buildFrame

/-- A HEAD starts the frame of the oldest closed slice (R223). -/
def State.startHeadFrame (s : State) : State :=
  match s.cd.closed with
  | [] => s
  | x :: _ => if s.role = .head ∧ s.cd.st ≥ cdActive ∧ s.headReady x.n ∧ !s.shortOf x.n then s.buildFrame else s

end Sys2Proof.Machine
end

