-- ==== Sys2Proof/Machine/Redundancy.lean ====
section
/-! DEFINITION. The twin concentrators (R312 to R331): switch-over causes, the switch-over and its restart, checkpoints,
the HBD's treatment of rebuilt blocks, and rejoining, with the meanings of their commands. -/

namespace Sys2Proof.Machine

/-! ### Blocks -/

def Block.slice (b : Block) : Nat := bits b.h0 63 32
def Block.gen (b : Block) : BitVec 8 := b.h0.extractLsb' 24 8
def Block.src (b : Block) : Nat := bits b.h0 23 21
def Block.alone (b : Block) : Bool := bitOf b.h0 20
def Block.last (b : Block) : Bool := bitOf b.h0 19
def Block.first (b : Block) : Bool := bitOf b.h0 18
def Block.verify (b : Block) : Bool := bitOf b.h0 17
def Block.raw (b : Block) : Bool := bitOf b.h0 16
def Block.bidx (b : Block) : Nat := bits b.h0 15 0
def Block.nrec (b : Block) : Nat := bits b.h1 63 53
def Block.pw (b : Block) : Nat := bits b.h1 52 42
def Block.pad (b : Block) : Nat := bits b.h1 41 36

/-- The words of a block on a lane, DEP included. -/
def Block.words (b : Block) : List W64 :=
  [b.h0, b.h1] ++ (match b.dep with
    | some d => [d.1, d.2]
    | none => []) ++ b.payload

/-- The CRC-32C of a block with H0.GEN and DEP taken as zero (R324). -/
def Block.crc (b : Block) : W32 :=
  crcWords ({ b with h0 := putBits b.h0 31 24 0, dep := b.dep.map (fun _ => (0, 0)) }).words

/-- A RAW block that ends slice `n`: one MARK/LOSS per source of a mask (R325, R344). -/
def State.closingBlock (s : State) (n bidx mask cause : Nat) : Block :=
  let ws := ((List.range 8).filter (fun i => mask.testBit i)).map (fun i => recLoss i 0 4095 0 cause)
  { h0 := blockH0 n s.rd.gen s.source false true false false true bidx, h1 := blockH1 ws.length ws.length 0, dep := none,
    payload := ws, hdrCopy := 0, unc := false }

/-- A RESEND unit (R298). -/
def resendUnit (gen fseq : Nat) : W64 := withUnitCrc (rec64 [(0xE, 4), (gen, 8), (0, 4), (fseq, 32), (0, 16)])

/-! ### Errors of a CD -/

/-- Is die B meant. -/
def dieB (d : Die) : Bool := d == .cdb

/-- A CD goes OUT with one more failure (R320, R330). -/
def State.failCd (s : State) (b : Bool) : State :=
  if b then { s with cdb := { s.cdb with st := cdOut }, rd := { s.rd with failsB := min 15 (s.rd.failsB + 1) } }
  else { s with cda := { s.cda with st := cdOut }, rd := { s.rd with failsA := min 15 (s.rd.failsA + 1) } }

/-- One more failure of the active CD, which stays as it is until it yields. -/
def State.countFail (s : State) : State :=
  if s.rd.activeB then { s with rd := { s.rd with failsB := min 15 (s.rd.failsB + 1) } }
  else { s with rd := { s.rd with failsA := min 15 (s.rd.failsA + 1) } }

/-- The die that detects a cause (R320). -/
def State.detects (s : State) (cause : Nat) : Die := if cause = 1 ∨ cause = 4 then .hbd else s.activeDie

/-! ### The switch-over -/

/-- Is there a data path to restart: CALIB, RUN, DRAIN, and SAFE before its drain has ended (R321). -/
def State.restarts (s : State) : Bool := s.run.active || s.hk.mode == .calib

/-- The block counts from which a restart at slice `m` goes on: the blocks of its SLICE that stood before its frame, and none of
later slices, whose blocks the HBD does not keep (R237, R324). -/
def Cd.bidxAt (c : Cd) (m : Nat) : Sparse Nat :=
  let near := c.bidx.filter (fun e => decide (sdiff e.1 m ≤ 0))
  match c.begun.find? (fun x => x.1 == m) with
  | some x => Sparse.put 0 m x.2 near
  | none => near

/-- The checkpoint that a standby holds before the first one of a run: its first slice, nothing yet done. -/
def State.firstCkpt (s : State) : Ckpt :=
  { m := s.run.sf, em := s.firstTick s.run.sf - 1, restart := false, presc := [], rateSup := s.cd.rateSup, quota := [],
    ladder := .zero, opened := [], whisk := { s.cd.whisk with rules := [], decs := [], pend := [], lastDec := none, prims := [] },
    barriers := [], peers := [], nextOpen := s.run.sf, bidx := s.cd.bidxAt s.run.sf, size := 0 }

/-- The slices that the restart opens (R322 to R324): those of the checkpoint and those opened since. -/
def State.restartSlices (s : State) (c : Ckpt) (bm : Nat) : List SliceSt :=
  let olds := s.cd.opened ++ s.cd.closed
  let all := (List.range 130).filterMap (fun i =>
    let n := (c.m + i) % 2 ^ 32
    if olds.any (fun x => x.n == n) ∨ (sdiff n s.run.nextOpen < 0 ∧ sdiff n c.m ≥ 0 ∧ s.run.opened) then some n else none)
  let a := s.applied c.ladder
  all.map (fun n =>
    let base := (c.opened.find? (fun x => x.n == n)).getD
      ⟨n, a.1, if s.role = .limb then 0 else a.2, false, c.rateSup, s.fe.groupEff⟩
    { base with restart := if n = c.m ∧ bm > 0 then c.restart else true })

/-- The stand-alone records ahead of the frame of the restart's first slice that the HBD has not received: those coded, by
slice, and all of them in order. None once the frame has begun to arrive. -/
def State.unsentAhead (s : State) (m : Nat) : List Nat × List LGroup :=
  let c := s.cd
  let rel := c.released.takeWhile (fun b => bitOf b.h0 20)
  let jbs := if rel.length < c.released.length then [] else c.jobs.takeWhile (fun j => j.alone)
  let lad := if rel.length < c.released.length ∨ jbs.length < c.jobs.length then [] else c.ladle.takeWhile (fun g => g.alone)
  if s.rd.hdrs.any (fun h => h.1 == m) then ([], [])
  else
    (rel.map (fun b => bits b.h0 63 32) ++ jbs.map Job.slice,
     rel.map (fun b => { aloneGroup (bits b.h0 63 32) (b.payload.headD 0) with rank := b.rank }) ++
       jbs.map (fun j => { aloneGroup j.slice (j.groups.flatten.headD 0) with rank := j.rank }) ++ lad)

/-- The new CD's working state from its checkpoint (S3 of R321). -/
def State.restartCd (s : State) (new : Cd) (bm : Nat) : Cd :=
  let c := new.ckpt.getD s.firstCkpt
  let ahead := s.unsentAhead c.m
  { new with
    st := if s.restarts then 5 else cdActive,
    presc := c.presc.foldl (fun m e => Sparse.put 0 e.1 e.2 m) [], prescHist := [],
    rateSup := c.rateSup, quotaSup := c.quota.map (fun q => (q.1, c.m, q.2)),
    queues := [], out := [], rem := [], cum := [], rr := 0,
    opened := if s.run.active then s.restartSlices c bm else [], closed := [], past := [], begun := [], placed := [],
    lastClosed := if s.run.active ∧ c.m ≠ s.run.sf then some ((c.m + 2 ^ 32 - 1) % 2 ^ 32) else none,
    losses := [],
    barriers := c.barriers ++ new.barriers.filter (fun b => !c.barriers.contains b && decide (sdiff b.after c.m ≥ 0)),
    ladder := c.ladder,
    whisk := { c.whisk with on := s.cd.whisk.on, start := c.em + 1, next := c.em + 1, lastHit := [], quiet := [] },
    toWhisk := [], seen := [], gather := [], asOf := none, ladle := ahead.2, jobs := [], nextEng := 0,
    bidx := ahead.1.foldl (fun m n => Sparse.put 0 n (Sparse.get 0 m n - 1) m) c.bidx, vfails := [], released := [],
    handed := some ((c.m + 2 ^ 32 - 1) % 2 ^ 32), peerDue := [], held := s.cd.held }

/-- What a HEAD forgets of its peers' slices from m on, to expand them again (R327). -/
def Peer.restartAt (p : Peer) (m : Nat) : Peer :=
  let keep := fun (n : Nat) => decide (sdiff n m < 0)
  let done : Option Nat := match p.doneSlice with
    | some d => if sdiff d m < 0 then some d else some ((m + 2 ^ 32 - 1) % 2 ^ 32)
    | none => none
  { p with
    hdr := p.hdr.filter (fun h => keep h.1), gaps := p.gaps.filter (fun h => keep h.1), lastHit := none, badPend := none,
    doneSlice := done, restart := true, late := 0 }

/-- The newest slice that was open when the switch-over came (R327). -/
def State.newestOpen (s : State) : Option Nat :=
  if s.run.active ∧ s.run.opened then some ((s.run.nextOpen + 2 ^ 32 - 1) % 2 ^ 32) else none

/-- What the HBD holds of slices after `m` from the die that is named no longer: it is discarded, since the new CD builds those
slices again (R324, R326). -/
def State.dropLater (s : State) (m : Nat) : State :=
  let keep := fun (n : Nat) => decide (sdiff n m ≤ 0)
  { s with
    ulp := { s.ulp with wait := s.ulp.wait.filter (fun b => keep b.slice) },
    rd := { s.rd with crcs := s.rd.crcs.filter (fun x => keep x.1), hdrs := s.rd.hdrs.filter (fun h => keep h.1) },
    run := { s.run with
      closedMark := false, lastEmitted := if m = s.run.sf then none else some ((m + 2 ^ 32 - 1) % 2 ^ 32) } }

/-- S2 and S3 of R321: the standby is named, GEN advances, every allowance is zero, and the new CD restarts. -/
def State.switchOver (s : State) (cause : Nat) : State :=
  let c := s.other.ckpt.getD s.firstCkpt
  let g := s.rd.gen + 1
  let bm := ((s.rd.crcs.filter (fun x => x.1 == c.m)).length)
  let done := match s.cd.handed with
    | some h => decide (sdiff h c.m ≥ 0)
    | none => false
  let new := { s.restartCd s.other bm with gen := g }
  let old := { s.cd with gen := g, st := if cause = 1 then cdOut else s.cd.st, released := [], barriers := [], placed := [] }
  let from' := s.rd.activeB
  let s1 := if cause = 5 then s else s.countFail
  let s2 := ((s1.setCd old).setOther new).markRan (if from' then .cda else .cdb)
  let broke := (s2.fed.groups.map (fun (e : Nat × GroupSt) => (e.1, { e.2 with allow := 0 }))).filter
    (fun e => decide (e.2 ≠ GroupSt.empty))
  let again := (s2.ulp.peers.map (fun (e : Nat × Peer) => (e.1, e.2.restartAt c.m))).filter
    (fun e => decide (e.2 ≠ Peer.empty))
  let s3 := { s2 with
    rd := { s2.rd with
      activeB := !from', authAt := s2.tb.tn, gen := g, step := if s.restarts then 4 else 0, m := c.m, bm := bm, bmLast := done, flight := none,
      overlap := s.run.active && decide (bm > 0), cut := none, peerFrom := some c.m, again := 0, short := none,
      openS2 := s.newestOpen },
    fed := { s2.fed with
      gen := g, groups := broke,
      walk := if s.restarts then some s2.fed.ret else none },
    ulp := { s2.ulp with peers := again } }
  let s3 := if s.run.active then s3.dropLater c.m else s3
  let s4 := (((s3.count Reg.RD_SWITCH_CNT 1).count (Reg.RD_CAUSE_CNT + 4 * (cause - 1)) 1).event Reg.RD_EVT [0])
  let s5 := (s4.setReg Reg.RD_LAST (word32 [(0, 16), (g.toNat, 8), (b2n from', 1), (0, 3), (cause, 4)])).setReg
    Reg.RD_LAST_SLICE (BitVec.ofNat 32 c.m)
  let s6 := (s5.setReg Reg.RD_LAST_SEC (BitVec.ofNat 32 s5.tb.sec)).setReg Reg.RD_LAST_NS (BitVec.ofNat 32 s5.tb.ns)
  (s6.setReg Reg.RD_BM (word32 [(b2n done, 1), (0, 15), (bm, 16)])).setReg Reg.RD_NRET
    (BitVec.ofNat 32 (min 0xFFFFFF (if s.restarts then s.fed.ret.length else 0)))

/-- A second cause in the cycle in which RD_AUTH changed: RD_LAST holds the lower code (R331). -/
def State.sameCycle (s : State) (cause : Nat) : State :=
  s.setFld Reg.RD_LAST 3 0 (min cause (s.fld Reg.RD_LAST 3 0))

/-- Has RD_AUTH changed in this cycle by a switch-over (R331). -/
def State.justSwitched (s : State) : Bool := s.fld Reg.RD_LAST 3 0 != 0 && s.rd.authAt == s.tb.tn

/-- A CD fails for good: a switch-over to it ends there (R331). -/
def State.deadCd (s : State) : State :=
  let t := s.failCd s.rd.activeB
  { t with rd := { t.rd with step := 0 }, fed := { t.fed with walk := none } }

/-- A cause of R320 arises in the active CD. -/
def State.swCause (s : State) (cause : Nat) : State :=
  let dead := fun (t : State) => if cause = 3 then t else t.deadCd
  if s.justSwitched then s.sameCycle cause
  else if s.rd.step ≠ 0 then (dead s).fatal (s.detects cause) 1
  else if (s.bit Reg.RD_CFG 0 ∨ cause = 5) ∧ s.other.st = cdReady then s.switchOver cause
  else (dead s).fatal (s.detects cause) 0

/-- A rejoin fails: the die is OUT and counted (R330). -/
def State.rejoinFails (s : State) (b : Bool) : State :=
  let t := s.failCd b
  (({ t with rd := { t.rd with rejoin := none } }).event Reg.RD_EVT [3]).count Reg.RD_REJOIN_FAIL_CNT 1

/-- A cause of R320 arises in a CD. In the other one it puts that die OUT, a rejoin of it fails, and the cause of a switch-over of
this cycle becomes the lower of the two (R320, R330, R331). -/
def State.cdCause (s : State) (d : Die) (cause : Nat) : State :=
  if dieB d = s.rd.activeB then s.swCause cause
  else
    let t := if s.justSwitched then s.sameCycle cause else s
    if (s.cdOf d).st = cdOut then t
    else if s.rd.rejoin.isSome then t.rejoinFails (dieB d)
    else t.failCd (dieB d)

/-- A CD that has met an uncorrectable word of its critical state: switch-over cause 2 (R320, R343 class 5). -/
def State.settleCrit (s : State) : State :=
  match s.err.crit with
  | some d => ({ s with err := { s.err with crit := none } }).cdCause d 2
  | none => s

/-! ### Commands that read the critical state of a CD -/

/-- R192, R195, R207: the active CD takes in the oldest beat on the links. -/
def execBeatReceive (ok : Bool) (x : BeatBits) (now : Nat) (s : State) : Outcm :=
  .next ((s.advanceTo now).takeBeat ok x).settleCrit

/-- R206: the next grant in round-robin order. -/
def execCreditGrant (s : State) : Outcm := .next s.grantNext.settleCrit

/-- R149, R150: the Whisk evaluates its next tick. -/
def execWhiskTickEvaluate (s : State) : Outcm := .next s.whiskNext.settleCrit

/-- R216: the oldest closed slice is drained. -/
def execSliceDrainStart (s : State) : Outcm := .next s.drainNext.settleCrit

/-- R223: a HEAD starts the frame of the oldest closed slice. -/
def execHeadFrameStart (s : State) : Outcm := .next s.startHeadFrame.settleCrit

/-! ### The two dies -/

/-- R320: no heartbeat from the active CD for 2 µs. -/
def execHeartbeatTimeout (s : State) : Outcm := .next (if s.cd.st < cdActive then s else s.swCause 1)

/-- R320: the active CD's inner link out of lock for 1 µs. -/
def execInnerLinkUnlock (s : State) : Outcm := .next (if s.cd.st < cdActive then s else s.swCause 4)

/-- May a die rejoin (R330): OUT, and not failed too often. -/
def State.mayRejoin (s : State) : Bool :=
  s.other.st == cdOut && s.rd.step == 0 && s.rd.rejoin.isNone &&
    decide ((if s.rd.activeB then s.rd.failsA else s.rd.failsB) ≤ max 1 (s.fld Reg.RD_CFG 11 8))

/-- J1 to J4 begin (R330): the die is reset and its memories zeroed. -/
def State.startRejoin (s : State) : State :=
  let b := !s.rd.activeB
  let d : Die := if b then .cdb else .cda
  let lo := if b then 0x400000 else 0x300000
  let s1 := s.setOther { Cd.reset with st := cdLoading, gen := s.rd.gen }
  let s2 := s1.resetRegs (fun k => decide (lo ≤ k % 0x1000000 ∧ k % 0x1000000 < lo + 0x100000))
  { s2 with
    rd := { s2.rd with rejoin := some (b, 1) },
    err := { s2.err with
      bad := s2.err.bad.filter (fun x => x.die != d), raw := s2.err.raw.filter (fun x => x.die != d),
      ran := s2.err.ran.filter (fun x => x != d), votes := s2.err.votes.filter (fun x => x.die != d) } }

/-- A write of RD_CMD (R320, R330, R331). -/
def State.rdCmdWrite (s : State) (data : W32) (be : BitVec 4) : Rep :=
  let v := mergeBE 0 data be
  let sw := bitOf v 0
  let rj := bitOf v 1
  let wait := (sw && (s.other.st != cdReady || s.rd.step != 0)) || (rj && !s.mayRejoin)
  let t := if rj then s.startRejoin else s
  s.guarded false false .writeCfg wait (if sw then t.swCause 5 else t)

/-- R320, R331: RD_CMD.SWITCH. -/
def execSwitch (lane : Lane) (s : State) : Outcm :=
  .next (s.accessW lane Reg.RD_CMD 0xF (fun t => t.rdCmdWrite 1 0xF))

/-- R330: RD_CMD.REJOIN. -/
def execRejoin (lane : Lane) (s : State) : Outcm :=
  .next (s.accessW lane Reg.RD_CMD 0xF (fun t => t.rdCmdWrite 2 0xF))

/-- R330: automatic rejoin, 1 ms after the die entered OUT. -/
def execAutoRejoin (s : State) : Outcm :=
  .next (if s.bit Reg.RD_CFG 1 ∧ s.mayRejoin ∧ s.aclkRuns then s.startRejoin else s)

/-- The CFG fields of one register are copied into another of the same kind. -/
def State.copyCfg (s : State) (k k' : Nat) : State :=
  let m : W32 := BitVec.ofNat 32 (fieldMask (fieldsOf k') (fun t => t == .cfg))
  s.setRegAt k' ((s.regAt k' &&& ~~~m) ||| (s.regAt k &&& m))

/-- The CFG fields of the CD blocks, the queue map, rule and region tables are mirrored (J5 of R330). -/
def State.mirrorAll (s : State) : State :=
  let src := if s.rd.activeB then 0x400000 else 0x300000
  let dst := if s.rd.activeB then 0x300000 else 0x400000
  let offs := fun (base : Nat) => (s.regs.filter (fun e => decide (base ≤ e.1 ∧ e.1 < base + 0x100000))).map (fun e => e.1 - base)
  let s1 := (offs src ++ offs dst).foldl (fun t o => t.copyCfg (src + o) (dst + o)) s
  s1.setOther { s1.other with qmap := s1.cd.qmap, rules := s1.cd.rules, regions := s1.cd.regions }

/-- R314: a CD reads RD_AUTH; finding the other die named, it yields. -/
def execAuthPoll (b : Bool) (s : State) : Outcm :=
  let c := if b then s.cdb else s.cda
  .next (if b = s.rd.activeB ∨ c.st < cdActive then s
    else
      let t := if b then { s with cdb := { s.cdb with st := cdOut } } else { s with cda := { s.cda with st := cdOut } }
      (t.event Reg.RD_EVT [5]).count Reg.RD_YIELD_CNT 1)

/-! ### Restart steps -/

/-- The rest of slice m from the new CD is discarded (R325); what stood alone behind its frame already is not sent again (R30). -/
def State.cutFirst (s : State) : State :=
  { s with rd := { s.rd with
    cut := some s.rd.m, again := if s.rd.bmLast ∧ s.rd.tail.1 = s.rd.m then s.rd.tail.2 else 0 } }

/-- The block with which the HBD ends slice m, where its last block has not been received (R325). -/
def State.endFirst (s : State) : State :=
  let mask := ((s.rd.hdrs.find? (fun h => h.1 == s.rd.m)).map (fun h => bits h.2 23 16)).getD 0
  let b := s.closingBlock s.rd.m s.rd.bm mask 11
  let t := if s.rd.bmLast then s else { s with ulp := { s.ulp with wait := s.ulp.wait ++ [b] } }
  t.errLosses .hbd 11 b.payload.length

/-- Retention that did not cover the restart (R329): slices m to FE_RET_LOST of which the HBD has received nothing become SLICE_GAP,
each in its turn; slice m, partly sent, ends as R325 states. -/
def State.restartShort (s : State) : State :=
  let lost := s.fed.retLost
  if s.fed.retShort && s.run.active && decide (sdiff lost s.rd.m ≥ 0) then
    let s1 := ({ s with rd := { s.rd with short := some lost } }).event Reg.RD_EVT [4]
    if s1.rd.bm = 0 then s1 else if s1.rd.bmLast then s1.cutFirst else s1.cutFirst.endFirst
  else s

/-- R322, R323: the walk has ended; the group FIFOs resume and the Whisk catches up. -/
def execReplayWalkEnd (s : State) : Outcm :=
  .next (if s.rd.step = 4 ∧ s.fed.walk = some [] ∧ s.fed.beats = [] then
      let t := { s with fed := { s.fed with walk := none }, rd := { s.rd with step := 5 } }
      t.restartShort
    else s)

/-- R321, R326: S5 has ended, after `tcu` ticks of catch-up; `hold` is the measured h in 100 ns. -/
def execWhiskCatchupEnd (tcu hold : Nat) (s : State) : Outcm :=
  .next (if s.rd.step = 5 then
      let t := s.setCd { s.cd with st := cdActive }
      let u := { t with rd := { t.rd with step := 0, s5End := t.tb.tn } }
      ((u.setReg Reg.RD_TCU (BitVec.ofNat 32 (min 0xFFFFFF tcu))).setFld Reg.RD_LAST 31 16 (min 0xFFFF hold)).eventIf
        (decide (hold > 400)) Reg.SLC_EVT [5]
    else s)

/-- R327: the HBD sends each admitted LIMB a RESEND that names its mirrored peer pointer. -/
def execPeerRestartResend (s : State) : Outcm :=
  .next (if s.role ≠ .head then s
    else
      let due := s.admitted.filter (fun i => (s.peer i).restart && Sparse.has s.cd.cum i)
      let ptr := fun (i : Nat) => Sparse.get (s.peer i).next ((s.cd.ckpt.map Ckpt.peers).getD []) i
      let t := due.foldl (fun u i => u.setPeer i { u.peer i with restart := false, next := ptr i, waiting := [], passed := [] }) s
      due.foldl (fun u i => u.sendUnit i (resendUnit u.rd.gen.toNat (ptr i))) t)

/-! ### Checkpoints -/

/-- The prescale snapshot of C_m (R316). -/
def Cd.prescAt (c : Cd) (m : Nat) : List (Nat × Nat) :=
  let late := fun (h : PrescHist) => decide (sdiff h.slice m ≥ 0) || (match h.closed with
    | some x => decide (sdiff x m ≥ -1)
    | none => false)
  let hs := c.prescHist.filter late
  let chans := (c.presc.map Prod.fst ++ hs.map PrescHist.chan).eraseDups
  (chans.map (fun ch => (ch, ((hs.find? (fun h => h.chan == ch)).map PrescHist.before).getD (Sparse.get 0 c.presc ch)))).filter
    (fun e => e.2 != 0)

/-- The peer pointer of a source for slice m (R316). -/
def Peer.pointer (p : Peer) (m : Nat) : Nat :=
  ((p.log.find? (fun e => decide (sdiff e.2 m ≥ 0))).map Prod.fst).getD p.next

/-- C_m of the active CD (R316), whose size is 2 KiB and the variable terms at most, by the open value `size`. -/
def State.makeCkpt (s : State) (x : SliceSt) (size : Nat) : Ckpt :=
  let c := s.cd
  let first := s.firstTick x.n
  let from' := (c.past ++ c.closed ++ c.opened).filter (fun y => decide (sdiff y.n x.n > 0))
  let decs := c.whisk.decs.filter (fun d => decide (d.last ≥ first))
  let presc := c.prescAt x.n
  let quota := (c.quotaSup.filter (fun q => q.2.1 == x.n)).map (fun q => (q.1, q.2.2))
  let bars := (c.placed ++ c.barriers).filter (fun b => decide (sdiff b.after x.n ≥ 0))
  let change := (c.rateSup.filter (fun h => !x.hot.contains h)).length + (x.hot.filter (fun h => !c.rateSup.contains h)).length
  let most := 2048 + 4 * presc.length + 4 * change + 8 * quota.length + 32 * decs.length + 8 * bars.length
  { m := x.n, em := c.whisk.next - 1, restart := x.restart, presc := presc, rateSup := c.rateSup, quota := quota,
    ladder := c.ladder, opened := x :: from',
    whisk := { c.whisk with prims := [], decs := decs }, barriers := bars,
    peers := (s.admitted).foldl (fun m i => Sparse.put 0 i ((s.peer i).pointer x.n) m) [],
    nextOpen := s.run.nextOpen, bidx := c.bidxAt x.n, size := size % (most + 1) }

/-- The slice m whose checkpoint is due (R315): the first one not yet handed over whole, where it has closed; a slice that is
handed over already only where it is the one closed last. -/
def State.ckptDue (s : State) : Option Nat :=
  match s.cd.lastClosed with
  | none => none
  | some l =>
    let next := match s.cd.handed with
      | some h => (h + 1) % 2 ^ 32
      | none => s.run.sf
    let m := if sdiff next l < 0 then next else l
    if s.rd.taken = some m ∨ (s.cd.handed = none ∧ m ≠ s.run.sf) then none else some m

/-- R315: the active CD takes C_m when slice m has closed and the frame of m − 1 has been handed over whole. -/
def execCheckpointTake (s : State) : Outcm :=
  .next (match s.ckptDue with
    | none => s
    | some m =>
      if !s.run.active ∨ s.rd.step ≠ 0 ∨ s.rd.flight.isSome ∨ (s.other.st ≠ cdReady ∧ s.other.st ≠ cdMirroring)
      then s
      else
        let r := s.draw
        let x := (s.cd.slice m).getD ⟨m, 0, 0, false, [], s.fe.groupEff⟩
        { r.2 with rd := { r.2.rd with flight := some (r.2.makeCkpt x r.1), taken := some m } })

/-- R315, R318, R330: the standby has stored the checkpoint, `dur` × 10 ns after it was taken. -/
def execCheckpointAck (dur : Nat) (s : State) : Outcm :=
  .next (match s.rd.flight with
    | none => s
    | some c =>
      let rejoined := s.other.st == cdMirroring
      let s1 := s.setOther { s.other with
        ckpt := some c, st := if rejoined then cdReady else s.other.st,
        barriers := s.other.barriers.filter (fun b => decide (sdiff b.after c.m ≥ 0)) }
      let keep := fun (h : PrescHist) => decide (sdiff h.slice c.m ≥ 0) || (match h.closed with
        | some x => decide (sdiff x c.m ≥ -1)
        | none => false)
      let s2 := s1.setCd { s1.cd with prescHist := s1.cd.prescHist.filter keep }
      let t := min 0xFFFF dur
      let s3 := { s2 with
        rd := { s2.rd with flight := none, rejoin := if rejoined then none else s2.rd.rejoin },
        out := s2.out ++ [Out.closed s2.cd.gen ((c.m + 2 ^ 32 - 1) % 2 ^ 32)] }
      let s4 := ((s3.setReg Reg.RD_CKPT (BitVec.ofNat 32 c.m)).setReg Reg.RD_CKPT_SIZE (BitVec.ofNat 32 c.size)).setReg
        Reg.RD_CKPT_TIME (word32 [(max t (s3.fld Reg.RD_CKPT_TIME 31 16), 16), (t, 16)])
      (s4.count Reg.RD_MIRROR_CNT 1).count Reg.RD_REJOIN_CNT (b2n rejoined))

/-- R317: a checkpoint not acknowledged in time is skipped. -/
def execCheckpointSkip (s : State) : Outcm :=
  .next (match s.rd.flight with
    | none => s
    | some _ => (({ s with rd := { s.rd with flight := none } }).count Reg.RD_SKIP_CNT 1).event Reg.RD_EVT [1])

/-! ### The HBD's side -/

/-- Is a block the closing MARK/MODE of the run (R43): its mode is not RUN. -/
def Block.closesRun (b : Block) : Bool :=
  b.alone && (match b.payload with
    | w :: _ => recKind w == 2 && recSub w == 6 && bits w 23 20 != 4
    | [] => false)

/-- Does a block end a slice of the run: the last block of a frame, or a SLICE_GAP. -/
def Block.endsSlice (b : Block) : Bool :=
  b.last && (!b.alone || (match b.payload with
    | w :: _ => recKind w == 2 && recSub w == 2
    | [] => false))

/-- What the HBD and the CD note when a block is handed over whole (R45, R315, R318). -/
def State.handOver (s : State) (b : Block) : State :=
  let s1 := if b.endsSlice then
      let t := s.setCd { s.cd with handed := some b.slice }
      if t.other.st = cdReady then t else { t with out := t.out ++ [Out.closed t.cd.gen b.slice] }
    else s
  if b.closesRun then { s1 with run := { s1.run with closedMark := true } } else s1

/-- Room in the replay buffer while a LIMB takes its HEAD as faulty (R346): the oldest held frames are freed, each counted
under REPLAY_SHORT with no record. -/
def State.makeRoom : Nat → Nat → State → State
  | 0, _, s => s
  | f + 1, bytes, s =>
    match s.ulp.held with
    | [] => s
    | _ :: t =>
      if s.replayBytes + bytes ≤ 8388608 then s
      else State.makeRoom f bytes (({ s with ulp := { s.ulp with held := t } }).countAt
        (instKey (errReg .hbd Reg.ERR_LOSS) 13) 0xFFFFFF 1)

/-- 64-bit words of the replay buffer in use: the blocks held, those on their way to it, and the output space that the
engines have been granted, with the 32 bytes of header and DEP of each job (R23, R250). -/
def State.replayUsed (s : State) : Nat :=
  s.replayBytes / 8 + (s.cd.released.map Block.size).sum + (s.cd.jobs.map (fun j => 4 + j.space)).sum

/-- The output space that the HBD can grant of `want` words: no more than the 8 MiB of the replay buffer leave. A LIMB that
takes its HEAD as faulty frees its oldest frames for it (R23, R250, R346). -/
def State.grantSpace (s : State) (want : Nat) : Nat × State :=
  let t := if s.role = .limb ∧ s.ulp.ackFault then s.makeRoom s.ulp.held.length (8 * (s.replayUsed + want) - s.replayBytes) else s
  (min want (1048576 - t.replayUsed), t)

/-- A block enters the replay buffer. -/
def State.buffer (s : State) (b : Block) : State :=
  let s0 := if s.role = .limb ∧ s.ulp.ackFault then s.makeRoom s.ulp.held.length (8 * b.size) else s
  let s1 := s0.cleanRange .hbd 0x01 ((s0.recWords .hbd 0x01).length) b.size
  let s2 := { s1 with ulp := { s1.ulp with wait := s1.ulp.wait ++ [b] } }
  { s2 with ulp := { s2.ulp with peak := max s2.ulp.peak s2.replayBytes } }

/-- Could a restart go back to slice `n`: it does not lie before the checkpoint that the READY standby holds (R321). -/
def State.restartable (s : State) (n : Nat) : Bool :=
  s.other.st == cdReady && decide (sdiff n ((s.other.ckpt.map Ckpt.m).getD s.run.sf) ≥ 0)

/-- What has come alone behind the frame passed on last, a block later. -/
def tailAfter (t : Nat × Nat) (b : Block) : Nat × Nat :=
  if b.endsSlice then (b.slice, 0) else if b.alone ∧ t.1 = b.slice then (t.1, t.2 + 1) else t

/-- A block is passed on and its CRC kept for the two newest slices (R318, R324), and for those that a restart could go back to,
DEDUCED in log entry 183; a header as long as blocks of its slice wait besides. -/
def State.passBlock (s : State) (b : Block) : State :=
  let near := fun (n : Nat) => decide (sdiff n b.slice ≥ -1) || s.restartable n
  let wanted := fun (n : Nat) => near n || s.ulp.wait.any (fun x => x.slice == n)
  let s1 := { s with
    rd := { s.rd with
      tail := tailAfter s.rd.tail b,
      crcs := s.rd.crcs.filter (fun (x : Nat × Nat × W32) => near x.1) ++ [(b.slice, b.bidx, b.crc)],
      hdrs := s.rd.hdrs.filter (fun (x : Nat × W64) => wanted x.1) ++ (if b.first then [(b.slice, b.hdrCopy)] else []) } }
  (s1.buffer b).handOver b

/-- R324, R325: the HBD takes the next block from the active CD. -/
def execHbdBlockReceive (s : State) : Outcm :=
  .next (match s.cd.released with
    | [] => s
    | b :: rest =>
      let s1 := s.setCd { s.cd with released := rest }
      if s1.rd.cut = some b.slice then
        let t := if b.endsSlice then { s1 with rd := { s1.rd with cut := none, overlap := false } } else s1
        t.handOver b
      else if s1.rd.again > 0 ∧ b.slice = s1.rd.m ∧ b.alone then
        (({ s1 with rd := { s1.rd with again := s1.rd.again - 1 } }).count Reg.RD_DUP_BLK_CNT 1).handOver b
      else if s1.rd.overlap ∧ b.slice = s1.rd.m ∧ b.bidx < s1.rd.bm then
        match s1.rd.crcs.find? (fun x => x.1 == b.slice && x.2.1 == b.bidx) with
        | some x =>
          if x.2.2 = b.crc then (s1.count Reg.RD_DUP_BLK_CNT 1).handOver b
          else
            let t := s1.cutFirst.endFirst
            let u := if b.endsSlice then { t with rd := { t.rd with cut := none, overlap := false } } else t
            ((u.count Reg.RD_DIVERGE_CNT 1).event Reg.RD_EVT [2]).handOver b
        | none => s1.passBlock b
      else s1.passBlock b)

end Sys2Proof.Machine
end

