-- ==== Sys2Proof/Machine/Press.lean ====
section
/-! DEFINITION. The Press and the peer Expanders (R236 to R253): jobs and engines, verification, release, and the expansion
of a LIMB's blocks, with the meanings of their commands. -/

namespace Sys2Proof.Machine

/-! ### Jobs -/

/-- The records of a job, in order. -/
def Job.words (j : Job) : List W64 := j.groups.flatten

/-- NREC. -/
def Job.nrec (j : Job) : Nat := j.words.length

/-- The records that the payload codes: the header's EXT records travel as DEP (R238). -/
def Job.coded (j : Job) : List W64 :=
  match j.first, j.words with
  | true, h :: _ :: _ :: t => h :: t
  | _, ws => ws

/-- The payload words that a job has written (R250): whole words only while it is coded, the last one with its PAD once it is
done, and those of a RAW block once it is copied. -/
def Job.written (j : Job) : Nat :=
  if j.raw || j.alone then (if j.st = 4 then j.coded.length else 0)
  else if j.st = 3 ∨ j.st = 4 then (j.bits.length + 63) / 64 else j.bits.length / 64

/-- Is every block RAW (R239). -/
def State.forceRaw (s : State) : Bool := bitOf (s.eff Reg.PRS_CFG) 0

/-- A job that stops for output space (R250). -/
def State.stall (s : State) : State := (s.count Reg.PRS_STALL_CNT 1).event Reg.PRS_EVT [0]

/-- The groups of the next block (R236): at most 512 records, ended by the frame's end, a cut, or a group that does not
fit. -/
def takeBlock : Nat → Nat → List LGroup → List LGroup
  | 0, _, _ => []
  | _, _, [] => []
  | f + 1, n, g :: t =>
    if n + g.words.length > 512 then []
    else if g.endFrame || g.cut then [g]
    else g :: takeBlock f (n + g.words.length) t

/-- The groups of the block at the front of the Ladle's output. -/
def nextBlock (l : List LGroup) : List LGroup :=
  match l with
  | [] => []
  | g :: t =>
    if g.alone || g.endFrame || g.cut then [g]
    else g :: takeBlock t.length g.words.length (t.takeWhile (fun x => !x.alone && x.slice == g.slice))

/-- A job goes on with the space it has been granted (R239, R250): it is coded, stops, or waits as RAW. The second part
tells whether it stopped. -/
def Job.go (j : Job) (force : Bool) : Job × Bool :=
  let n := j.coded.length
  let asRaw := fun (x : Job) =>
    if n ≤ x.space then ({ x with raw := true, bits := [], consumed := x.nrec, st := 4 }, false)
    else ({ x with raw := true, bits := [], consumed := 0, st := 2 }, true)
  if j.raw || j.alone || force then asRaw j
  else
    let r := codeRun j.space .init [] 0 (blockItems j.first j.words)
    let k := { j with consumed := r.1, bits := r.2.1, ctx := r.2.2.1 }
    if !r.2.2.2 then ({ k with st := 2 }, true)
    else if (r.2.1.length + 63) / 64 ≥ n then asRaw k
    else ({ k with st := 3 }, false)

/-- The credit units of the PRESS loop that a block's input takes: 256 B of frame input each (R204). -/
def pressUnits (records : Nat) : Nat := (records + 31) / 32

/-- The PRESS loop's outstanding units: what the engines hold until their blocks are released (R204, R247). -/
def Cd.pressOut (c : Cd) : Nat := ((c.jobs.filter (fun j => decide (j.eng < 8))).map (fun j => pressUnits j.nrec)).sum

/-- Has the Press input stage credit for a block: a free engine, and at most 128 units outstanding (R204, R247). -/
def Cd.pressRoom (c : Cd) (records : Nat) : Bool :=
  decide ((c.jobs.filter (fun j => decide (j.eng < 8))).length < 8) && decide (c.pressOut + pressUnits records ≤ 128)

/-- R247: the next block is handed to the next engine in turn and coded, with the output space that the HBD grants of the
`space` asked for (R250). Its 32 bytes of header and DEP must be free. -/
def execBlockCode (space : Nat) (s : State) : Outcm :=
  .next (match nextBlock s.cd.ladle with
    | [] => s
    | g :: t =>
      let grant := s.grantSpace (space + 4)
      let space := grant.1 - 4
      let s := grant.2
      let c := s.cd
      if !c.pressRoom ((g :: t).map (fun x => x.words.length)).sum ∨ grant.1 < 4 then s
      else
        let gs := g :: t
        let bidx := Sparse.get 0 c.bidx g.slice
        let j : Job := { eng := c.nextEng, slice := g.slice, bidx := bidx, first := g.first,
                         last := (gs.getLastD g).endFrame, alone := g.alone, verify := false, raw := false,
                         groups := gs.map LGroup.words, consumed := 0, ctx := .init, bits := [], space := space, st := 1,
                         rank := g.rank }
        let r := j.go s.forceRaw
        let s1 := s.cleanRange s.activeDie 0x25 (512 * c.nextEng) j.nrec
        let s2 := s1.setCd { s1.cd with
          begun := if g.first || g.words.any isGapWord then ((g.slice, bidx) :: c.begun).take 130 else c.begun,
          ladle := c.ladle.drop gs.length, jobs := c.jobs ++ [r.1], nextEng := (c.nextEng + 1) % 8,
          bidx := (Sparse.put 0 g.slice (bidx + 1) c.bidx).filter (fun e => decide (sdiff e.1 g.slice ≥ -(2 ^ 21 : Int))) }
        if r.2 then s2.stall else s2)

/-- Replace the job of an engine. -/
def Cd.setJob (c : Cd) (j : Job) : Cd := { c with jobs := c.jobs.map (fun x => if x.eng = j.eng then j else x) }

/-- An engine reads its held input (R332, R343 class 9): an uncorrectable word is switch-over cause 2 while the other CD is
READY, and otherwise cuts the frame at this block. The first part tells whether the job may go on. -/
def State.readInput (s : State) (j : Job) : Bool × State :=
  let r := s.readRange s.activeDie 0x25 (512 * j.eng) j.nrec (if s.other.st = cdReady then 0 else 8)
  if r.1 ∨ j.eng ≥ 8 then (true, r.2)
  else if r.2.other.st = cdReady then (false, r.2.swCause 2)
  else (false, r.2.setCd (r.2.cd.setJob { j with st := 5 }))

/-- R250: output space is granted to a stopped job. -/
def execPressJobResume (engine : Fin 8) (space : Nat) (s : State) : Outcm :=
  .next (match s.cd.jobs.find? (fun j => j.eng == engine.val) with
    | none => s
    | some j =>
      if j.st ≠ 2 then s
      else
        let i := s.readInput j
        if !i.1 then i.2
        else
          let g := i.2.grantSpace space
          let r := ({ j with space := j.space + g.1 }).go s.forceRaw
          let t := g.2.setCd (g.2.cd.setJob r.1)
          if r.2 then t.stall else t)

/-- Mark the group at which the first `n` records end. -/
def cutAt : Nat → List LGroup → List LGroup
  | _, [] => []
  | n, g :: t =>
    if g.words.length > n then g :: t
    else if (match t with
      | [] => true
      | h :: _ => decide (g.words.length + h.words.length > n)) then { g with cut := true } :: t
    else g :: cutAt (n - g.words.length) t

/-- R236: no record has reached the Press for IDLE_END × 8 cycles; the block ends after the records that have arrived. -/
def execBlockIdleEnd (arrived : Nat) (s : State) : Outcm :=
  .next (match s.cd.ladle with
    | [] => s
    | g :: _ =>
      if bits (s.eff Reg.PRS_CFG) 23 16 = 0 ∨ g.alone then s
      else s.setCd { s.cd with ladle := cutAt arrived s.cd.ladle })

/-! ### Blocks out of jobs -/

/-- The block of a finished job (R237 to R239). -/
def State.blockOf (s : State) (j : Job) : Block :=
  let raw := j.raw || j.alone
  let pw := if raw then j.coded.length else (j.bits.length + 63) / 64
  let pad := if raw then 0 else pw * 64 - j.bits.length
  { h0 := blockH0 j.slice s.cd.gen s.source j.alone j.last j.first j.verify raw j.bidx,
    h1 := blockH1 j.nrec pw pad,
    dep := if j.first then some (0, 0) else none,
    payload := if raw then j.coded else packWords pw j.bits,
    hdrCopy := if j.first then j.words.headD 0 else 0, unc := false, rank := j.rank }

/-- Output words as the Expander reads them: the given words with bits inverted. -/
def flipWords (flips : List (Nat × W64)) (ws : List W64) : List W64 :=
  ws.mapIdx (fun i w => (flips.filter (fun f => f.1 == i)).foldl (fun a f => a ^^^ f.2) w)

/-- A block as the Expander reads it from the output space: H0, H1 and the payload words (R248, R250). -/
def Block.seen (b : Block) (flips : List (Nat × W64)) : Block :=
  match flipWords flips (b.h0 :: b.h1 :: b.payload) with
  | h0 :: h1 :: ws => { b with h0 := h0, h1 := h1, payload := ws }
  | _ => b

/-- The position of the first difference of two record lists, in payload bits. -/
def firstDiff : List W64 → List W64 → List Nat → Option Nat
  | a :: x, b :: y, p :: z => if a = b then firstDiff x y z else some p
  | [], [], _ => none
  | _, _, p :: _ => some p
  | _, _, [] => some 0

/-- What verification finds (R248): nothing, or a code and a position. -/
def verifyBlock (b : Block) (ws : List W64) : Option XpdErr :=
  match expand b with
  | .error e => some e
  | .ok r =>
    let zero := if bitOf b.h0 18 then (match ws with
      | h :: _ :: _ :: t => h :: 0 :: 0 :: t
      | x => x) else ws
    (firstDiff r.1 zero r.2).map (fun p => ⟨0, p⟩)

/-- An Expander error is captured (R252). -/
def State.capture (s : State) (e : XpdErr) (peer : Bool) (b : Block) (unit lane : Nat) : State :=
  let s1 := if e.code = 0 then s.event Reg.XPD_EVT [3]
    else (s.event Reg.XPD_EVT [e.code - 1]).count (Reg.XPD_ILLEGAL_CNT + 4 * (e.code - 1)) 1
  let seq := (s1.stsOf Reg.XPD_EVT).seq.toNat
  ((s1.setReg Reg.XPD_ERR_INFO (word32 [(seq, 8), (e.code, 2), (b2n peer, 1), (b.src, 3), (unit, 3), (0, 10), (lane, 5)])).setReg
    Reg.XPD_ERR_POS (word32 [(b.bidx, 16), (e.pos, 16)])).setReg Reg.XPD_ERR_SLICE (BitVec.ofNat 32 b.slice)

/-- A verify failure (R248, R249). -/
def State.verifyFail (s : State) (j : Job) (b : Block) (e : XpdErr) : State :=
  let r := ({ j with raw := true, verify := true }).go true
  let s1 := s.setCd (s.cd.setJob r.1)
  let s2 := if r.2 then s1.stall else s1
  let s3 := ((s2.count Reg.PRS_VFAIL_CNT 1).event Reg.PRS_EVT [1]).capture e false b j.eng 0
  let now := s3.tb.tn
  let fs := s3.cd.vfails.filter (fun t => decide (now < t + 320000)) ++ [now]
  let s4 := s3.setCd { s3.cd with vfails := fs }
  let lim := bits (s4.eff Reg.PRS_CFG) 11 8
  if lim ≠ 0 ∧ fs.length ≥ lim then
    let s5 := s4.event Reg.PRS_EVT [2]
    if s5.bit Reg.RD_CFG 2 then s5.swCause 3 else s5
  else s4

/-- R248: the Expander of the oldest finished engine decodes its block, some of whose output words may read inverted. -/
def execBlockVerify (flips : List (Nat × W64)) (now : Nat) (s : State) : Outcm :=
  .next (let s := s.advanceTo now
    match s.cd.jobs.find? (fun j => j.st == 3) with
    | none => s
    | some j =>
      let i := s.readInput j
      if !i.1 then i.2
      else
        let b := i.2.blockOf j
        match verifyBlock (b.seen flips) j.words with
        | some e => i.2.verifyFail j b e
        | none => i.2.setCd (i.2.cd.setJob { j with st := 4 }))

/-- The mask of unconfigured sources (R344). -/
def State.unconfigured (s : State) : Nat :=
  ((List.range 8).map (fun i => if i = s.source ∨ s.configured.contains i then 0 else 2 ^ i)).sum

/-- The block that ends a cut frame (R344): of slice `n` at index `bidx`, with the header copy where the cut block is
FIRST, or the mask of the sent header. -/
def State.cutBlock (s : State) (n bidx : Nat) (first : Bool) (copy : W64) : Block :=
  if first then
    { h0 := blockH0 n s.rd.gen s.source false true true false true bidx, h1 := blockH1 3 1 0, dep := some (0, 0),
      payload := [putBits copy 23 16 s.unconfigured], hdrCopy := copy, unc := false }
  else
    let mask := ((s.rd.hdrs.find? (fun h => h.1 == n)).map (fun h => bits h.2 23 16)).getD 0
    s.closingBlock n bidx mask 8

/-- The loss records of a block that closes a cut frame: all its records, and none where it is the header's copy (R344). -/
def Block.lossWords (b : Block) : Nat := if b.first then 0 else b.payload.length

/-- A stand-alone record is lost in its held block (R32, R343 class 9), of which R344 says nothing: a SLICE_GAP goes again with
cause UNCORRECTABLE, so that its slice number stands; of a barrier or a MARK/MODE a MARK/LOSS stands in the next frame, and a
closing record still closes the run. DESIGN CHOICE of log entry 38. `held` is the word of MEM 0x01 that lost it, whose fault and
gap are one event (R349). -/
def State.aloneLost (s : State) (b : Block) (held : Option Nat) : State :=
  if b.payload.any isGapWord then
    let x : Block := { b with
      h0 := blockH0 b.slice b.gen b.src true true false false true b.bidx, h1 := blockH1 1 1 0,
      payload := [recGap b.slice 8], unc := false }
    let t := { s with ulp := { s.ulp with wait := x :: s.ulp.wait } }
    match held with
    | some i => t.uncorrLoss .hbd 0x01 i 8
    | none => t.errLoss .hbd 8
  else
    let t := match held with
      | some i => s.countUncorr .hbd 0x01 i 0 [1]
      | none => s
    t.lossOldest t.source 0 4095 0 8

/-- R247: the oldest job, when it may leave, is released to the HBD. -/
def execBlockRelease (s : State) : Outcm :=
  .next (match s.cd.jobs with
    | [] => s
    | j :: rest =>
      if j.st = 5 then
        if s.cd.released ≠ [] then s
        else
          let t := s.setCd { s.cd with jobs := rest }
          if j.alone then
            let b := t.blockOf { j with raw := true }
            let w := t.ulp.wait
            let u := ({ t with ulp := { t.ulp with wait := [] } }).aloneLost b none
            ({ u with ulp := { u.ulp with wait := w ++ u.ulp.wait } }).handOver b
          else
            let b := t.cutBlock j.slice j.bidx j.first (j.words.headD 0)
            let u := ({ t with ulp := { t.ulp with wait := t.ulp.wait ++ [b] } }).errLosses .hbd 8 b.lossWords
            if j.last then u.handOver b else { u with rd := { u.rd with cut := some j.slice } }
      else if j.st ≠ 4 then s
      else
        let i := if j.raw || j.alone then s.readInput j else (true, s)
        if !i.1 then i.2
        else
          let t := i.2
          let b := t.blockOf j
          let u := t.setCd { t.cd with jobs := rest, released := t.cd.released ++ [b] }
          (((u.count Reg.PRS_BLK_CNT 1).count Reg.PRS_RAW_CNT (b2n b.raw)).count Reg.PRS_IN_CNT j.nrec).count
            Reg.PRS_OUT_CNT b.words.length)

/-! ### Peer expansion -/

/-- Has the frame or gap of slice `n` been emitted. -/
def State.emitted (s : State) (n : Nat) : Bool :=
  match s.run.lastEmitted with
  | some l => decide (sdiff n l ≤ 0)
  | none => false

/-- Is a LIMB's slice late: emitted already, or past its peer deadline (R223, R224). -/
def State.peerLate (s : State) (n : Nat) : Bool := s.emitted n || s.cd.peerDue.contains n

/-- A loss of a source that belongs to the HEAD frame of slice `n`; where that frame has gone, to the oldest open slice
(R217, R343). -/
def State.peerLoss (s : State) (n src lo hi count cause : Nat) : State :=
  if s.cd.holdsSlice n then s.lossIn n src lo hi count cause else s.lossOldest src lo hi count cause

/-- The report that a faulty block left open is written, CH_LAST known (R253). -/
def State.closeBad (s : State) (src : Nat) (hi : Nat) : State :=
  match (s.peer src).badPend with
  | some (n, lo) =>
    let t := s.setPeer src { s.peer src with badPend := none }
    t.peerLoss n src lo hi 0 10
  | none => s

/-- The end of a LIMB's frame or gap of slice `n`. -/
def State.peerDone (s : State) (src n : Nat) : State :=
  s.setPeer src { s.peer src with doneSlice := some n }

/-- A peer block with an error of R251 (R253). -/
def State.peerFault (s : State) (src lane : Nat) (b : Block) (e : XpdErr) : State :=
  let r := s.draw
  let s1 := r.2.capture e true b (r.1 % 4) lane
  let p := s1.peer src
  let s2 := match p.badPend with
    | some (n, _) => if n = b.slice then s1 else s1.closeBad src 4095
    | none => s1
  let q := s2.peer src
  let lo := match q.lastHit with
    | some (n, c) => if n = b.slice then c else 0
    | none => 0
  let s3 := if q.badPend.isSome then s2 else s2.setPeer src { q with badPend := some (b.slice, lo) }
  if b.last then (s3.closeBad src 4095).peerDone src b.slice else s3

/-- The units of a record list as entries of slice `n`: a WAVE unit takes the corrected time of its HIT. -/
def State.peerEnts (s : State) (n : Nat) : Nat → Nat → List W64 → List (List Ent)
  | 0, _, _ => []
  | _, _, [] => []
  | f + 1, c, w :: t =>
    let u := w :: t.take (recTail w)
    let c' := if recKind w = 0 then (s.firstTick n + recTick w) * 2048 + recFine w else c
    let k : RecKind := if recKind w = 0 then .hit else if recKind w = 1 then .wave else .loss
    (u.mapIdx (fun i x => Ent.mk x k (recChan w) c' n (u.length - 1 - i) false)) ::
      s.peerEnts n f c' (t.drop (recTail w))

/-- A unit of a LIMB's frame enters the Pantry or the loss section (R222). -/
def State.peerUnit (s : State) (src n : Nat) (es : List Ent) : State :=
  match es with
  | [] => s
  | e :: _ =>
    match e.kind with
    | .loss =>
      if recKind e.word = 2 ∧ recSub e.word = 4 then
        let l : Loss :=
          ⟨n, bits e.word 55 53, bits e.word 52 41, bits e.word 40 29, bits e.word 28 8, bits e.word 7 0⟩
        s.setCd { s.cd with losses := mergeLoss l s.cd.losses }
      else s
    | .hit =>
      let r := s.stageQueue src 0 es
      r.2.setPeer src { r.2.peer src with kept := r.1 == 0 }
    | .wave => if (s.peer src).kept then (s.stageQueue src 2 es).2 else s

/-- The number of HITs of a record list, and its first and last HIT's channel. -/
def hitChans (us : List (List Ent)) : List Nat :=
  us.filterMap (fun u => match u with
    | e :: _ => if e.kind = .hit then some e.chan else none
    | [] => none)

/-- Is a report of this source, range and cause already in the place where one would be written now (R349, R438). -/
def Cd.reported (c : Cd) (src lo hi cause : Nat) : Bool :=
  let same := fun (n : Nat) (x : Loss) => x.slice == n && x.src == src && x.lo == lo && x.hi == hi && x.cause == cause
  match c.oldest with
  | some n => c.losses.any (same n)
  | none => c.held.any (same c.heldKey)

/-- The records of a late frame are discarded; when its last block has come its HITs are reported at once, in one record
(R224, R438). -/
def State.peerLateBlock (s : State) (src hits : Nat) (first last : Bool) : State :=
  let s1 := if first then (s.count Reg.SLC_PEER_LATE_CNT 1).event Reg.SLC_EVT [1] else s
  let p := s1.peer src
  if !last then s1.setPeer src { p with late := p.late + hits }
  else
    let s2 := s1.setPeer src { p with late := 0 }
    if s2.cd.reported src 0 4095 1 then s2.setCd (s2.cd.place src 0 4095 (p.late + hits) 1)
    else s2.lossOldestC 12 src 0 4095 (p.late + hits) 1

/-- A LIMB's stand-alone record (R222, R224, R227). A SLICE_GAP whose HEAD frame has been emitted is reported with its CAUSE in
the oldest open slice. -/
def State.peerAlone (s : State) (src : Nat) (w : W64) : State :=
  let n := recSlice w
  match recSub w with
  | 2 =>
    let t := if s.emitted n then s.lossOldestC 12 src 0 4095 0 (bits w 23 16)
      else s.setPeer src { s.peer src with gaps := (s.peer src).gaps ++ [(n, bits w 23 16)] }
    t.peerDone src n
  | 5 =>
    let late := s.handed n
    (s.standBarrier ⟨3, src, if late then s.nextEmitted else n, n, bits w 23 8, false⟩).eventIf late Reg.SLC_EVT [1]
  | _ => s

/-- The records of a rebuilt block (R222 to R224, R253). -/
def State.peerRecords (s : State) (src : Nat) (b : Block) (ws : List W64) : State :=
  let n := b.slice
  let us := s.peerEnts n ws.length 0 ws
  let hs := hitChans us
  let s1 := match (s.peer src).badPend with
    | some (m, _) => s.closeBad src (if m = n then hs.headD 4095 else 4095)
    | none => s
  let s1 := s1.eventIf (b.first && !s1.headerMatches (ws.headD 0)) Reg.SLC_EVT [2]
  let s2 := if b.first ∧ !s1.peerLate n then
      s1.setPeer src { s1.peer src with hdr := (s1.peer src).hdr ++ [(n, ws.headD 0)] }
    else s1
  let hd := (s2.peer src).header n
  let s3 :=
    if s2.emitted n || (hd.isNone && s2.peerLate n) then s2.peerLateBlock src hs.length b.first b.last
    else if (match hd with
      | some h => !s2.headerMatches h
      | none => false) then s2
    else us.foldl (fun t u => t.peerUnit src n u) s2
  let s4 := match hs.getLast? with
    | some c => s3.setPeer src { s3.peer src with lastHit := some (n, c) }
    | none => s3
  if b.last then s4.peerDone src n else s4

/-- The next block of a source is rebuilt, or discarded by its GEN or its slice (R207, R253, R327). -/
def State.expandNext (s : State) (i : Nat) : State :=
  match (s.peer i).blocks with
  | [] => s
  | (lane, b) :: rest =>
    if s.role ≠ .head ∨ s.cd.st < cdActive then s
    else
      let s1 := s.setPeer i { s.peer i with blocks := rest }
      if b.gen ≠ s1.cd.gen then (s1.count Reg.Q_STALE_CNT 1).event Reg.Q_EVT [0]
      else
        let s2 := s1.setCd (s1.cd.consume (64 + i) b.nrec)
        if (match s2.rd.peerFrom with
          | some m => decide (sdiff b.slice m < 0)
          | none => false) then s2
        else match expand b with
          | .error e => s2.peerFault i lane b e
          | .ok r =>
            let s3 := s2.count Reg.XPD_PEER_BLK_CNT 1
            if b.alone then s3.peerAlone i (r.1.headD 0) else s3.peerRecords i b r.1

/-- R253: the next block of a source is rebuilt, or discarded. -/
def execPeerBlockExpand (src : Fin 8) (s : State) : Outcm := .next (s.expandNext src.val).settleCrit

end Sys2Proof.Machine
end

