-- ==== Sys2Proof/Machine/Link.lean ====
section
/-! DEFINITION. The link protocol (R289 to R303): DATA frames sent and received, peer admission, and the CR, SACK and RESEND
units, with the meanings of their commands. Times on the wire come as operands. -/

namespace Sys2Proof.Machine

/-! ### Sending -/

/-- DEP of a block on a lane whose serializer instant is `off` fine LSB after DT (R266): the lane's transmit latency is added, and
DEP_FRAC is the multiple of one fine LSB that is not above the fraction. -/
def State.depAt (s : State) (lane off : Nat) : W64 × W64 :=
  let fine := ((((s.tb.ns * 2 ^ 32 + s.tb.frac) / 6553600 + off : Nat) : Int) + s.txLatency lane).toNat
  let in32 := fine % 655360000000 * 6553600
  recDep (s.tb.sec + fine / 655360000000) (in32 / 2 ^ 32) (in32 % 2 ^ 32 / 6553600 * 6553600)

/-- The generation that a block carries at its departure: in a LIMB the present HEAD generation (R327). -/
def State.departGen (s : State) (b : Block) : Block :=
  if s.role = .limb then { b with h0 := putBits b.h0 31 24 s.ulp.genRx.toNat } else b

/-- DEP written into the FIRST blocks of a frame on a lane, in order. -/
def State.stamp (s : State) (lane : Nat) : List Nat → List Block → List Block
  | _, [] => []
  | offs, b :: t =>
    if b.dep.isSome then { s.departGen b with dep := some (s.depAt lane (offs.headD 0)) } :: s.stamp lane (offs.drop 1) t
    else s.departGen b :: s.stamp lane offs t

/-- The words of a DATA frame (R291, R295). -/
def dataWords (fseq : Nat) (bs : List Block) : List W64 :=
  let body := bs.flatMap Block.words
  let head := rec64 [(1, 4), (body.length, 12), (bs.length, 9), (0, 7), (fseq, 32)]
  (head :: body) ++ [rec64 [(6, 4), (0, 28), ((crcWords (head :: body)).toNat, 32)]]

/-- The UP lane of the set with the fewest bits queued, ties to the lower (R296). -/
def State.pickLane (s : State) (queued : List (Nat × Nat)) : Option Nat :=
  let q := fun (n : Nat) => ((queued.find? (fun e => e.1 == n)).map Prod.snd).getD 0
  (s.outSet.filter s.laneUp).foldl (fun b n => match b with
    | none => some n
    | some m => if q n < q m then some n else some m) none

/-- Must a sent frame stay in the replay buffer until a SACK covers it (R297). -/
def State.holdsSent (s : State) : Bool := s.role == .limb || s.bit Reg.LK_CFG 1

/-- Frames whose last bit has left: their lane has nothing queued (R297). -/
def State.settle (s : State) (queued : List (Nat × Nat)) : State :=
  let busy := fun (n : Nat) => queued.any (fun e => e.1 == n && e.2 != 0)
  let fs := s.ulp.held.map (fun f => if f.st = 1 ∧ !busy f.lane then { f with st := 2 } else f)
  { s with ulp := { s.ulp with held := if s.holdsSent then fs else fs.filter (fun f => f.st != 2) } }

/-- May the HBD send the blocks of slice `n` (R318). -/
def State.gateOpen (s : State) (n : Nat) : Bool :=
  s.other.st != cdReady || (match s.other.ckpt with
    | some c => decide (sdiff c.m n ≥ 0)
    | none => false)

/-- The blocks of the next frame (R295, R318, R205): within 1,024 body blocks, past the gate, and in a LIMB within the
allowance. -/
def State.nextBlocks (s : State) : Nat → Nat → Nat → List Block → List Block
  | 0, _, _, _ => []
  | _, _, _, [] => []
  | f + 1, room, allow, b :: t =>
    if b.unc || !s.gateOpen b.slice || decide (b.size > room) || (s.role == .limb && decide (b.nrec > allow)) then []
    else b :: s.nextBlocks f (room - b.size) (allow - b.nrec) t

/-- An uncorrectable block at the front of those that wait: its frame is cut (R343 class 9, R344). -/
def State.cutWaiting (s : State) : State :=
  match s.ulp.wait with
  | [] => s
  | b :: t =>
    if !b.unc then s
    else
      let r := s.draw
      let idx := r.1 % 0x1000000
      if b.alone then ({ r.2 with ulp := { r.2.ulp with wait := t } }).aloneLost b (some idx)
      else
        let s1 := r.2
        let more := t.filter (fun x => !(x.slice == b.slice && !x.alone))
        let gone := b.last || t.any (fun x => x.slice == b.slice && !x.alone && x.last)
        let s2 := { s1 with ulp := { s1.ulp with wait := s1.cutBlock b.slice b.bidx b.first b.hdrCopy :: more } }
        let k := (s1.cutBlock b.slice b.bidx b.first b.hdrCopy).lossWords
        let s3 := if gone then s2 else { s2 with rd := { s2.rd with cut := some b.slice } }
        if k = 0 then s3.countUncorr .hbd 0x01 idx 0 [1]
        else
          ((s3.uncorrLoss .hbd 0x01 idx 8).countAt (instKey (errReg .hbd Reg.ERR_LOSS) 8) 0xFFFFFF (k - 1)).lossEntries .hbd 8 (k - 1)

/-- Add to a 64-bit total (R407). -/
def State.total (s : State) (i n : Nat) : State :=
  { s with ulp := { s.ulp with totals := s.ulp.totals.mapIdx (fun j x => if j = i then (x + n) % 2 ^ 64 else x) } }


/-- A frame starts on a lane: DEP and GEN are written, and what it adds to the totals (R266, R297, R407). -/
def State.sendFrame (s : State) (lane : Nat) (f : Frame) (again : Bool) (departs : List Nat) : State :=
  let bs := s.stamp lane departs f.blocks
  let bytes := 8 * (bs.map Block.size).sum
  let gaps := (bs.filter (fun b => b.alone && (match b.payload with
    | w :: _ => recKind w == 2 && recSub w == 2
    | [] => false))).length
  let charge := if s.role = .limb ∧ f.paid ≠ s.ulp.genRx then (bs.map Block.nrec).sum else 0
  let g : Frame := { f with lane := lane, blocks := bs, st := 1, paid := s.ulp.genRx }
  let s1 := { s with
    out := s.out ++ [Out.frame lane f.fseq (dataWords f.fseq bs)],
    ulp := { s.ulp with
      allow := s.ulp.allow - charge,
      held := s.ulp.held.map (fun (x : Frame) => if x.fseq = f.fseq then g else x) } }
  ((((s1.passSlots lane (dataWords f.fseq bs).length).countLane Reg.LK_LANE_TX_FRAMES lane 1).total (if again then 1 else 0) bytes).total 2
    (bs.filter Block.first).length).total 3 gaps

/-- R295 to R297: a frame that waits to be sent again, or the next new one, starts on the least loaded UP lane of the set. -/
def execFrameTransmit (queued : List (Nat × Nat)) (departs : List Nat) (s : State) : Outcm :=
  let s := s.settle queued
  .next (match s.pickLane queued with
    | none => s
    | some lane =>
      match s.ulp.held.find? (fun f => f.st == 0) with
      | some f =>
        if f.blocks.any Block.unc then
          let r := s.draw
          (({ r.2 with ulp := { r.2.ulp with held := r.2.ulp.held.filter (fun x => x.fseq != f.fseq) } }).countUncorr .hbd
            0x01 (r.1 % 0x1000000) 0 [1])
        else if s.role = .limb ∧ f.paid ≠ s.ulp.genRx ∧ (f.blocks.map Block.nrec).sum > s.ulp.allow then s
        else s.sendFrame lane f true departs
      | none =>
        let t := s.cutWaiting
        match t.nextBlocks t.ulp.wait.length 1024 t.ulp.allow t.ulp.wait with
        | [] => t
        | b :: bs =>
          let f : Frame := ⟨t.ulp.fseq, lane, b :: bs, 1, t.ulp.genRx + 1⟩
          let u := { t with ulp := { t.ulp with
            wait := t.ulp.wait.drop (bs.length + 1), fseq := (t.ulp.fseq + 1) % 2 ^ 32, held := t.ulp.held ++ [f] } }
          u.sendFrame lane f false departs)

/-! ### Receiving frames -/

/-- Cut the body of a DATA frame into blocks (R295); none where the headers do not add up. -/
def cutBody : Nat → Nat → List W64 → Option (List Block)
  | 0, nblk, ws => if nblk = 0 ∧ ws = [] then some [] else none
  | _ + 1, 0, ws => if ws = [] then some [] else none
  | f + 1, nblk + 1, ws =>
    match ws with
    | h0 :: h1 :: t =>
      let dep := if bitOf h0 18 then (match t with
        | a :: c :: _ => some (a, c)
        | _ => none) else none
      let rest := if bitOf h0 18 then t.drop 2 else t
      let pw := bits h1 52 42
      if rest.length < pw ∨ (bitOf h0 18 ∧ dep = none) then none
      else (cutBody f nblk (rest.drop pw)).map (fun bs =>
        Block.mk h0 h1 dep (rest.take pw) 0 false 0 :: bs)
    | _ => none

/-- A frame or unit with a framing fault or a failed CRC (R293): the open frame of the lane is discarded, and after a framing fault
blocks are skipped until the next head. -/
def State.frameFault (s : State) (lane : Nat) (crc : Bool) : State :=
  let v := if (s.lane lane).rx.frame = [] then s else s.lacksFrame lane
  let u := v.setLane lane { s.lane lane with rx := { (s.lane lane).rx with frame := [], skip := !crc } }
  let t := if crc then (u.count Reg.LK_FRAME_CRC_CNT 1).event Reg.LK_EVT [3]
    else (u.count Reg.LK_FRAMING_CNT 1).event Reg.LK_EVT [4]
  t.countLane Reg.LK_LANE_ERR lane 1

/-- The newest slice among a frame's blocks. -/
def newestSlice (bs : List (Nat × Block)) : Nat :=
  bs.foldl (fun n b => if sdiff b.2.slice n > 0 then b.2.slice else n) ((bs.head?.map (fun b => b.2.slice)).getD 0)

/-- Frames are delivered in FSEQ order as far as they have come (R296). -/
def Peer.deliver : Nat → Peer → Peer
  | 0, p => p
  | f + 1, p =>
    match p.waiting.find? (fun w => w.1 == p.next) with
    | none => p
    | some w =>
      Peer.deliver f { p with
        waiting := p.waiting.filter (fun x => x.1 != p.next), next := (p.next + 1) % 2 ^ 32,
        blocks := p.blocks ++ w.2, log := (p.log ++ [(w.1, newestSlice w.2)]).drop (p.log.length + 1 - 65536),
        asked := false, passed := [] }

/-- The earliest frame that waits, relative to `next`. -/
def Peer.earliest (p : Peer) : Nat :=
  p.waiting.foldl (fun n w => if sdiff w.1 n < 0 then w.1 else n) ((p.waiting.head?.map Prod.fst).getD p.next)

/-- The frames before the earliest one held are gone: the span is reported (R300). -/
def State.replayShort (s : State) (src : Nat) : State :=
  let p := s.peer src
  (s.setPeer src { p with next := p.earliest, asked := false, passed := [] }).lossOldest src 0 4095 0 13

/-- The lanes on which frames sent again have gone past the frame that a RESEND asked for, after one more frame: a copy of a frame
that waits already has been sent again, and on its lane everything after it follows (R296, R300). -/
def Peer.goPast (p : Peer) (lane : Nat) (known : Bool) : List Nat :=
  if p.asked && (known || p.passed != []) && !p.passed.contains lane then p.passed ++ [lane] else p.passed

/-- A frame of a source arrives (R296, R300). It waits while an earlier one is missing; the missing one is held no longer where
frames sent again have gone past it on every lane of the set. -/
def State.peerFrame (s : State) (src fseq : Nat) (bs : List (Nat × Block)) : State :=
  let p := s.peer src
  if sdiff fseq p.next < 0 then s
  else
    let known := p.waiting.any (fun w => w.1 == fseq)
    let past := if fseq = p.next then p.passed else p.goPast ((bs.head?.map Prod.fst).getD 0) known
    let q := { p with waiting := if known then p.waiting else p.waiting ++ [(fseq, bs)], passed := past }
    let s1 := s.setPeer src q
    let gone := past != [] && fseq != p.next && ((s.sourceLanes src).filter s.laneUp).all (fun n => past.contains n)
    let s2 := if gone then s1.replayShort src else s1
    s2.setPeer src ((s2.peer src).deliver (s2.peer src).waiting.length)

/-- What a frame head may be (R290, R295, R303, R304): LEN in its range, and the fields that are fixed at zero. -/
def headOk (h : W64) : Bool :=
  let len := bits h 59 48
  let nblk := bits h 47 39
  match bits h 63 60 with
  | 1 => decide (3 ≤ len ∧ len ≤ 1024 ∧ 1 ≤ nblk ∧ nblk ≤ 341) && bits h 38 32 == 0
  | 4 => decide (1 ≤ len ∧ len ≤ 8) && bits h 47 0 == 0
  | 5 => len == 2
  | _ => false

/-- What the body of a MARK frame may be: its fields that are fixed at zero (R304). -/
def markOk (a b : W64) : Bool :=
  let kind := bits a 63 60
  bits a 23 0 == 0 && bits b 31 15 == 0 && (kind == 5 || bits a 59 56 == 0) && (kind == 3 || kind == 4 || bits a 39 24 == 0) &&
    (kind == 3 || bits b 14 0 == 0) && (kind != 5 || bits b 63 32 == 0)

/-- Byte `i` of a frame's body, the first one in [63:56] of its first word. -/
def bodyByte (body : List W64) (i : Nat) : Nat := bits (body.getD (i / 8) 0) (63 - 8 * (i % 8)) (56 - 8 * (i % 8))

/-- The body of a TS frame holds zero bytes after its IEEE 1588 message, whose length stands in bytes 2 and 3 (R303). -/
def tsBodyOk (body : List W64) : Bool :=
  let n := bodyByte body 2 * 256 + bodyByte body 3
  (List.range (8 * body.length)).all (fun i => decide (i < n) || bodyByte body i == 0)

/-- A DATA frame with a good CRC: cut into blocks and delivered where the lane accepts it (R293 to R296). -/
def State.dataWhole (s : State) (n : Nat) (head : W64) (body : List W64) : State :=
  match cutBody body.length (bits head 47 39) body with
  | none => (s.lacksFrame n).frameFault n false
  | some bs =>
    if s.role ≠ .head ∨ s.laneRole n ≠ 3 ∨ !(s.lane n).admitted then s.discard n 1
    else (s.countLane Reg.LK_LANE_RX_FRAMES n 1).peerFrame (s.fld (laneCfg n) 26 24) (bits head 31 0)
      (bs.map (fun b => (n, b)))

/-- A frame is whole (R291, R293, R294): its TAIL, its CRC, and whether the lane accepts it. `mark` is what the two words of a MARK
frame do; the message of a TS frame acts through its own row. -/
def State.frameWhole (s : State) (n : Nat) (ws : List W64) (tail : W64) (mark : State → W64 → W64 → State) : State :=
  match ws with
  | [] => s
  | head :: body =>
    if body.length ≠ bits head 59 48 ∨ bits tail 59 32 ≠ 0 then s.frameFault n false
    else if bits tail 31 0 ≠ (crcWords ws).toNat then s.frameFault n true
    else
      let t := s.setLane n { s.lane n with rx := { (s.lane n).rx with frame := [] } }
      match bits head 63 60 with
      | 1 => t.dataWhole n head body
      | 4 => if !tsBodyOk body then t.frameFault n false else if t.laneRole n = 1 then t else t.discard n 1
      | _ =>
        match body with
        | [a, b] =>
          if !markOk a b then t.frameFault n false
          else if t.laneRole n = 1 then mark t a b
          else t.discard n 1
        | _ => t.frameFault n false

/-- A block whose sync header is valid, in a slot of frame blocks (R290, R293). -/
def State.rxWord (s : State) (n : Nat) (b : LineBlock) (mark : State → W64 → W64 → State) : State :=
  let rx := (s.lane n).rx
  let set := fun (r : LineRx) => s.setLane n { s.lane n with rx := r }
  let fits := decide (rx.frame.length ≤ bits (rx.frame.headD 0) 59 48)
  if b.sync = 1 then
    if rx.frame = [] then s
    else if fits then set { rx with frame := rx.frame ++ [b.word] } else s.frameFault n false
  else
    let ty := bits b.word 63 60
    let fresh := if rx.frame = [] then s else s.frameFault n false
    let start := fun (t : State) (f : List W64) =>
      t.setLane n { t.lane n with rx := { (t.lane n).rx with frame := f, skip := false } }
    if ty = 6 then
      if rx.frame ≠ [] then s.frameWhole n rx.frame b.word mark
      else if rx.skip then s else s.frameFault n false
    else if ty = 0 then (if bits b.word 59 0 = 0 then start fresh [] else fresh.frameFault n false)
    else if headOk b.word then start fresh [b.word]
    else if rx.skip ∧ ty ≠ 1 ∧ ty ≠ 4 ∧ ty ≠ 5 then s
    else (if ty = 1 then s.lacksFrame n else s).frameFault n false

/-- A unit with a failed CRC (R293). -/
def State.unitFault (s : State) (lane : Nat) : State :=
  ((s.count Reg.LK_SC_CRC_CNT 1).event Reg.LK_EVT [0]).countLane Reg.LK_LANE_ERR lane 1

/-- A block whose sync header is valid, in the reserved slot (R289, R293): a body block or a type that is no unit has no place there,
and an SC_RSP is accepted on no lane (R294). Every other unit acts through its own row. -/
def State.rxReserved (s : State) (n : Nat) (b : LineBlock) : State :=
  let ty := bits b.word 63 60
  if b.sync = 1 ∨ ty < 8 ∨ ty = 15 then s.frameFault n false
  else if ty = 0xA then (if unitCrcOk b.word then s.discard n 1 else s.unitFault n)
  else s

/-- A block arrives in its slot (R282, R289): an invalid sync header is counted, and 16 of them within 64 lose lock. -/
def State.rxBlock (s : State) (n : Nat) (b : LineBlock) (mark : State → W64 → W64 → State) : State :=
  if !s.laneUp n then s
  else
    let rx := (s.lane n).rx
    let bad := b.sync == 0 || b.sync == 3
    let hs := lastN 64 (rx.headers ++ [bad])
    let slot := if b.reserved then rx.slot else (rx.slot + 1) % 31
    let t := s.setLane n { s.lane n with rx := { rx with slot := slot, headers := hs } }
    if bad then
      let u := t.countLane Reg.LN_BLKERR_CNT n 1
      if hs.count true ≥ 16 ∧ !(u.lane n).lol then u.loseLock n else u
    else if b.reserved then t.rxReserved n b
    else t.rxWord n b mark

/-! ### Units -/

/-- A unit is checked (R293, R294): its CRC, the fields fixed at zero, and whether the lane accepts it; then it acts. -/
def State.unit (s : State) (lane : Nat) (u : W64) (bad accepted : Bool) (go : State → State) : State :=
  if !s.laneUp lane then s
  else if !unitCrcOk u then s.unitFault lane
  else if bad then s.frameFault lane false
  else if !accepted then s.discard lane 1
  else go (s.countLane Reg.LK_LANE_RX_UNITS lane 1)

/-- Is a unit of the reverse stream accepted: in a LIMB on its peer lanes, and elsewhere on uplinks with UP_ACK (R294). -/
def State.takesAck (s : State) (lane : Nat) : Bool :=
  if s.role = .limb then s.laneRole lane == 3 else s.laneRole lane == 2 && s.bit Reg.LK_CFG 1

/-- The GEN of a HEAD's unit, in a LIMB (R298): an earlier one is discarded, a later one acts under R207. -/
def State.headGen (s : State) (u : W64) (go : State → State) : State :=
  let g : BitVec 8 := u.extractLsb' 52 8
  if s.role ≠ .limb then go s
  else
    let d := sdiffW 8 g.toNat s.ulp.genRx.toNat
    if d < 0 then s.count Reg.Q_STALE_CNT 1
    else if d > 0 then go { s with ulp := { s.ulp with genRx := g, cumRx := 0, allow := 0 } }
    else go s

/-- A refusal of a peer lane (R16). -/
def State.refusePeer (s : State) (n : Nat) : State :=
  (s.setLane n { s.lane n with decided := true, admitted := false }).event Reg.RD_EVT [6]

/-- Admission of a peer lane by its announcement (R16). -/
def State.admitPeer (s : State) (n : Nat) (src : Nat) (serial : W32) : State :=
  let mine := s.fld (laneCfg n) 26 24
  let p := s.peer mine
  if src ≠ mine ∨ src = 0 ∨ (p.serial.getD serial) ≠ serial then s.refusePeer n
  else (s.setLane n { s.lane n with decided := true, admitted := true }).setPeer mine { p with serial := some serial }

/-- R292: a SLOT_IDLE unit. An admitted lane that announces another source or serial is treated as dropped, once
eight equal units say so: DEDUCED in log entry 182. -/
def execSlotIdleReceive (n : Lane) (u : W64) (s : State) : Outcm :=
  let ann := bitOf u 59
  let bad := bits u 63 60 ≠ 8 ∨ bits u 23 16 ≠ 0 ∨ (!ann ∧ bits u 58 24 ≠ 0)
  .next (s.unit n u (decide bad) true (fun t =>
    if t.role ≠ .head ∨ t.laneRole n ≠ 3 then t
    else
      let l := t.lane n
      let c := match l.ann with
        | some (v, k) => if v = u then min 8 (k + 1) else 1
        | none => 1
      if !ann then t.setLane n { l with ann := none }
      else
        let t1 := t.setLane n { l with ann := some (u, c) }
        let src := bits u 58 56
        let serial : W32 := u.extractLsb' 24 32
        if c < 8 then t1
        else if !l.decided then t1.admitPeer n src serial
        else if l.admitted ∧ (src ≠ t1.fld (laneCfg n) 26 24 ∨ (t1.peer src).serial ≠ some serial) then t1.laneDrop n
        else t1))

/-- R292: a peer lane has announced nothing within 1 ms of reaching UP. -/
def execPeerAnnounceTimeout (n : Lane) (s : State) : Outcm :=
  .next (if s.role = .head ∧ s.laneRole n = 3 ∧ s.laneUp n ∧ !(s.lane n).decided then s.refusePeer n else s)

/-- R301: a CR unit in a LIMB. -/
def execCrReceive (n : Lane) (u : W64) (s : State) : Outcm :=
  .next (s.unit n u (decide (bits u 63 60 ≠ 0xC ∨ bits u 27 16 ≠ 0)) (s.role == .limb && s.laneRole n == 3) (fun t =>
    t.headGen u (fun v =>
      let d := sdiffW 24 (bits u 51 28) v.ulp.cumRx
      if d > 0 then
        { v with ulp := { v.ulp with cumRx := bits u 51 28, allow := v.ulp.allow + 32 * d.toNat } }
      else v)))

/-- The latest CR of a CD is repeated to every admitted LIMB that has had one from it. -/
def State.repeatCr (s : State) (c : Cd) (gen : BitVec 8) : State :=
  (s.admitted.filter (fun i => Sparse.has c.cum i)).foldl
    (fun t i => t.sendUnit i (crUnit gen.toNat (Sparse.get 0 c.cum i))) s

/-- Does the CD that RD_AUTH named before still act: for 1 µs after the change, until it has yielded (R302, R314). -/
def State.bothAct (s : State) : Bool :=
  s.fld Reg.RD_LAST 3 0 != 0 && decide (s.tb.tn < s.rd.authAt + 320) && decide (s.other.st ≥ cdActive)

/-- R301, R302: the HEAD repeats its latest CR to every admitted LIMB, and for 1 µs after a change of RD_AUTH that of the CD named
before as well, under the generation it granted (DEDUCED, log entry 184). -/
def execCrRepeat (s : State) : Outcm :=
  .next (if s.role ≠ .head then s
    else
      let t := if s.cd.st < cdActive then s else s.repeatCr s.cd s.cd.gen
      if s.bothAct then t.repeatCr s.other (s.rd.gen - 1) else t)

/-- A SACK unit (R298). -/
def sackUnit (gen slice : Nat) : W64 := withUnitCrc (rec64 [(0xD, 4), (gen, 8), (0, 4), (slice, 32), (0, 16)])

/-- R299: SACK for slice `n` of a LIMB, once it has been rebuilt or turned away and the own frame has been handed over. -/
def execSackSend (src : Fin 8) (n : W32) (s : State) : Outcm :=
  let i := src.val
  let p := s.peer i
  let done := p.whole n.toNat && (match s.cd.handed with
    | some h => decide (sdiff n.toNat h ≤ 0)
    | none => false)
  let newer : Bool := match p.sack with
    | some k => decide (sdiff n.toNat k > 0)
    | none => true
  .next (if s.role = .head ∧ s.admitted.contains i ∧ done ∧ newer then
      (s.setPeer i { p with sack := some n.toNat }).sendUnit i (sackUnit s.rd.gen.toNat n.toNat)
    else s)

/-- R299: the HEAD repeats its latest SACK to every admitted LIMB. -/
def execSackRepeat (s : State) : Outcm :=
  .next (if s.role ≠ .head then s
    else s.admitted.foldl (fun t i => match (t.peer i).sack with
      | some k => t.sendUnit i (sackUnit t.rd.gen.toNat k)
      | none => t) s)

/-- R299: a SACK frees every held frame whose slices it covers. -/
def execSackReceive (n : Lane) (u : W64) (s : State) : Outcm :=
  let k := bits u 47 16
  .next (s.unit n u (decide (bits u 63 60 ≠ 0xD ∨ bits u 51 48 ≠ 0)) (s.takesAck n) (fun t =>
    t.headGen u (fun v =>
      let keep := v.ulp.held.filter (fun f => f.blocks.any (fun b => decide (sdiff b.slice k > 0)))
      { v with ulp := { v.ulp with
        held := keep, acked := k, ackFault := v.ulp.ackFault && keep.length == v.ulp.held.length } })))

/-- R299, R346: no SACK has covered a slice in time; the LIMB treats its HEAD as faulty. -/
def execAckTimeout (s : State) : Outcm :=
  .next (if s.role = .limb ∧ s.ulp.held ≠ [] then
      ({ s with ulp := { s.ulp with ackFault := true } }.count Reg.LK_ACK_TMO_CNT 1).event Reg.LK_EVT [6]
    else s)

/-- R300: a HEAD asks a LIMB to send again from the first frame it lacks, at most once in 10 µs: a frame of the set was lost on the
line, or frames wait behind a gap. -/
def execResendSend (src : Fin 8) (now : Nat) (s : State) : Outcm :=
  let i := src.val
  .next (let s := s.advanceTo now
    let p := s.peer i
    let soon : Bool := match p.lastResend with
      | some t => decide (s.tb.tn < t + 3200)
      | none => false
    if s.role = .head ∧ s.bit Reg.LK_CFG 0 ∧ s.admitted.contains i ∧ !soon ∧ (p.lacks ∨ p.waiting ≠ []) then
      let t := s.setPeer i { p with lastResend := some s.tb.tn, asked := true, lacks := false, passed := [] }
      (({ t with ulp := { t.ulp with resendLast := p.next } }).sendUnit i (resendUnit t.rd.gen.toNat p.next)).event
        Reg.LK_EVT [1]
    else s)

/-- R300: every held frame from the named FSEQ onward is sent again. -/
def execResendReceive (n : Lane) (u : W64) (s : State) : Outcm :=
  let k := bits u 47 16
  .next (s.unit n u (decide (bits u 63 60 ≠ 0xE ∨ bits u 51 48 ≠ 0)) (s.takesAck n) (fun t =>
    t.headGen u (fun v =>
      let fs := v.ulp.held.map (fun f => if sdiff f.fseq k ≥ 0 then { f with st := 0 } else f)
      (({ v with ulp := { v.ulp with held := fs, resendLast := k } }).count Reg.LK_RESEND_CNT 1).event Reg.LK_EVT [1])))

/-! ### Responses -/

/-- R309: the oldest response of a lane is sent once the lane is UP, its two units in the next reserved slots; one whose first unit
a frame's reserved slot has carried is completed (R294). -/
def execScResponseSend (lane : Lane) (s : State) : Outcm :=
  let n := lane.val
  .next (if s.resp.any (fun e => e.1 == n) ∧ s.pathOpen n then
      let t := if (s.lane n).half.isSome then s else s.slotUnit n
      let u := t.slotUnit n
      u.setLane n { u.lane n with txSlot := 0 }
    else s)

end Sys2Proof.Machine
end

