-- ==== Sys2Proof/Machine/Image.lean ====
section
/-! DEFINITION. The non-volatile memory and the image (R56 to R82): bytes of the NVD, header and sections, lane roles, REGS,
TABL and the calibration set, slot commands and window writes, with the meanings of their commands. -/

namespace Sys2Proof.Machine

/-! ### Bytes of the NVD -/

/-- The NVD word that holds a byte address. -/
def Nvd.word (v : Nvd) (a : Nat) : W64 := Sparse.get 0 v.words (a / 8)

/-- `n` bytes from a byte address (R60: little-endian). -/
def Nvd.bytes (v : Nvd) (a n : Nat) : List Octet :=
  ((((List.range ((a % 8 + n + 7) / 8)).flatMap (fun i => bytesLE (v.word (a + 8 * i)))).drop (a % 8)).take n)

/-- A little-endian number of `n` bytes. -/
def Nvd.num (v : Nvd) (a n : Nat) : Nat := leNat (v.bytes a n)

/-- Write a 64-bit word. -/
def Nvd.put (v : Nvd) (a : Nat) (w : W64) : Nvd := { v with words := Sparse.put 0 (a / 8) w v.words }

/-- Write 64-bit words from an aligned address. -/
def Nvd.putWords (v : Nvd) (a : Nat) : List W64 → Nvd
  | [] => v
  | w :: t => (v.put a w).putWords (a + 8) t

/-- Does a stretch of the NVD read whole: its corrected words are counted and written back, an uncorrectable one makes it
fail (R57, R334). -/
def State.nvdReads (s : State) (a n : Nat) : Bool × State := s.readRange .hbd 0x04 (a / 8) ((a % 8 + n + 7) / 8) 0

/-- The first address of a slot. -/
def slotBase (b : Bool) : Nat := if b then 0x2000000 else 0x1000000

/-! ### Header and sections -/

/-- What the header of an image says (R62). -/
structure Header where
  minor : Nat
  length : Nat
  role : Nat
  source : Nat
  nsect : Nat
  gen : Nat
  active : Nat
  deriving DecidableEq, Repr

/-- The header check of L2 (R63). -/
def Nvd.header (v : Nvd) (base : Nat) : Option Header :=
  let f := fun (o n : Nat) => v.num (base + o) n
  let role := f 0x0C 1
  let src := f 0x0D 1
  if f 0 4 = 0x46434259 ∧ f 4 2 = 1 ∧ role ≤ 2 ∧ f 0x14 1 ≤ 1 ∧ 4 ≤ f 0x0E 2 ∧ f 0x0E 2 ≤ 16 ∧
      (if role = 1 then 1 ≤ src ∧ src ≤ 7 else src = 0) ∧ 128 ≤ f 8 4 ∧ f 8 4 ≤ 16777216 ∧
      f 0x3C 4 = (crc32c (v.bytes base 0x3C)).toNat then
    some ⟨f 6 2, f 8 4, role, src, f 0x0E 2, f 0x10 4, f 0x14 1⟩
  else none

/-- A section table entry (R64). -/
structure Section where
  tag : Nat
  off : Nat
  len : Nat
  crc : Nat
  deriving DecidableEq, Repr

/-- The section table. -/
def Nvd.sections (v : Nvd) (base n : Nat) : List Section :=
  (List.range n).map (fun i =>
    let a := base + 0x40 + 16 * i
    ⟨v.num a 4, v.num (a + 4) 4, v.num (a + 8) 4, v.num (a + 12) 4⟩)

abbrev tagRegs : Nat := 0x53474552
abbrev tagTabl : Nat := 0x4C424154
abbrev tagLid : Nat := 0x2044494C
abbrev tagLock : Nat := 0x4B434F4C

/-- The four tags that an image needs once each. -/
def neededTags : List Nat := [tagRegs, tagTabl, tagLid, tagLock]

/-- Does a section pass L3, its words apart (R64). -/
def Nvd.sectionOk (v : Nvd) (base length : Nat) (x : Section) : Bool :=
  decide (x.off + x.len ≤ length) && (crc32c (v.bytes (base + x.off) x.len)).toNat == x.crc

/-- The first failing section of an image (R64): its index, 31 where only an absent tag fails, with whether a word was
uncorrectable; and what reading leaves. A section whose needed tag appears more than once fails. -/
def State.checkSections (s : State) (base length : Nat) (ss : List Section) : Option (Nat × Bool) × State :=
  let r := ss.foldl (fun (a : Nat × Option (Nat × Bool) × State) x =>
    let fits := decide (x.off + x.len ≤ length)
    let rd := if fits then a.2.2.nvdReads (base + x.off) x.len else (true, a.2.2)
    let doubled := neededTags.contains x.tag && decide ((ss.filter (fun y => y.tag == x.tag)).length > 1)
    let bad := !fits || !rd.1 || doubled || !(rd.2.nvd.sectionOk base length x)
    (a.1 + 1, if a.2.1 = none ∧ bad then some (a.1, !rd.1) else a.2.1, rd.2)) (0, none, s)
  let missing := neededTags.any (fun t => !ss.any (fun x => x.tag == t))
  match r.2.1 with
  | some e => (some e, r.2.2)
  | none => (if missing then some (31, false) else none, r.2.2)

/-- The section of a tag. -/
def sectionOf (ss : List Section) (t : Nat) : Option Section := ss.find? (fun x => x.tag == t)

/-- The bytes of a tag's section. -/
def Nvd.sectionBytes (v : Nvd) (base : Nat) (ss : List Section) (t : Nat) : List Octet :=
  match sectionOf ss t with
  | some x => v.bytes (base + x.off) x.len
  | none => []

/-- Little-endian numbers of `k` bytes, as many as are whole. -/
def numsLE (k : Nat) (bs : List Octet) : List Nat := (chunks k (bs.length / k) bs).map leNat

/-! ### REGS, lane roles, TABL, LOCK -/

/-- The addresses that a REGS or LOCK address of die nibbles 0 to 5 names: the alias names both CDs. -/
def bothCds (a : Nat) : List Nat :=
  if a / 0x100000 = 2 then [0x300000 + a % 0x100000, 0x400000 + a % 0x100000] else [a]

/-- Does an address name a register with a field of some types. -/
def hasField (a : Nat) (p : FTy → Bool) : Bool :=
  decide (a / 0x100000 ≤ 5) && a % 4 == 0 && (regFields (normAddr a)).any (fun f => p f.ty)

/-- May a REGS entry set a register (R67). -/
def regsTakes (addr : Nat) : Bool := addr / 2 ^ 24 == 0 && hasField addr (fun t => t == .cfg || t == .lock)

/-- A register key of an image entry: the selected lane's word where the register acts on one. -/
def State.imageKey (s : State) (a : Nat) : Nat := if a = Reg.LN_PRBS_CFG then instKey a s.lnSel else a

/-- The CFG and LOCK fields of a register set to a value (R67). TDC_CD_DATA stands for the selected entry, where that takes
a write (R123); outside TEST nothing changes TB_INC (R254, R255). -/
def State.setFields (s : State) (a : Nat) (v : W32) : State :=
  if a = Reg.TDC_CD_DATA then (if s.cdShut then s else s.cdStore (bits v 15 0))
  else if (a = Reg.TB_INC_LO ∨ a = Reg.TB_INC_HI) ∧ s.hk.mode ≠ .test then s
  else
  let k := s.imageKey a
  let m : W32 := BitVec.ofNat 32 (fieldMask (regFields (normAddr a)) (fun t => t == .cfg || t == .lock))
  s.setRegAt k ((s.regAt k &&& ~~~m) ||| (v &&& m))

/-- SKIPPED counts one more (R64, R67, R68, R71). -/
def State.skip (s : State) (n : Nat) : State :=
  if n = 0 then s
  else (s.setFld Reg.HK_CFG_INFO 31 24 (min 255 (s.fld Reg.HK_CFG_INFO 31 24 + n)))

/-- REGS entries as (ADDR, VALUE) (R66). Bytes behind the last whole entry are dropped and not counted, DESIGN CHOICE in log
entry 164. -/
def regsEntries (bs : List Octet) : List (Nat × W32) :=
  (chunks 8 (bs.length / 8) bs).map (fun e => (leNat (e.take 4), BitVec.ofNat 32 (leNat (e.drop 4))))

/-- The entries of REGS are applied in order (R66, R67). -/
def State.applyRegs (s : State) (es : List (Nat × W32)) : State :=
  es.foldl (fun t e =>
    if regsTakes e.1 then (bothCds e.1).foldl (fun u a => u.setFields a e.2) t else t.skip 1) s

/-- The lane-role check of L6 (R20, R269). -/
def State.rolesOk (s : State) : Bool :=
  let w := fun (n : Nat) => s.regAt (laneCfg n)
  let role := fun (n : Nat) => bits (w n) 31 30
  let all := List.range 32
  let up := (all.filter (fun n => role n == 2)).length
  let peers := all.filter (fun n => role n == 3)
  let src := fun (n : Nat) => bits (w n) 26 24
  role 0 == 1 && all.all (fun n => n == 0 || role n != 1) && bits (w 0) 29 28 == 0 && all.all (fun n => bits (w n) 29 28 != 3) &&
    (match s.role with
     | .solo => decide (1 ≤ up ∧ up ≤ 16) && peers == [] && all.all (fun n => src n == 0)
     | .limb => up == 0 && peers != [] && all.all (fun n => src n == 0)
     | .head => decide (1 ≤ up ∧ up ≤ 16) && peers != [] && peers.all (fun n => src n != 0))

/-- A table entry is set in both CDs. -/
def State.bothTables (s : State) (f : Cd → Cd) : State := { s with cda := f s.cda, cdb := f s.cdb }

/-- One entry of a TABL block (R68). -/
def State.setEntry (s : State) (table i : Nat) (bs : List Octet) : State :=
  match table with
  | 8 =>
    let w : W64 := BitVec.ofNat 64 (leNat bs)
    { s with
      fe := { s.fe with tab := Sparse.put 0 i (w &&& chanMask) s.fe.tab },
      cal := { s.cal with chan := Sparse.put 0 i (w.extractLsb' 0 24) s.cal.chan } }
  | 9 => s.bothTables (fun c => { c with qmap := Sparse.put 0 i (BitVec.ofNat 32 (leNat bs) &&& qmapMask) c.qmap })
  | 10 =>
    s.bothTables (fun c => { c with rules := (numsLE 4 bs).foldl (fun (m : Sparse W32 × Nat) v =>
      (Sparse.put 0 (16 * i + m.2) (BitVec.ofNat 32 v &&& ruleMask m.2) m.1, m.2 + 1)) (c.rules, 0) |>.1 })
  | _ => s.bothTables (fun c => { c with regions := Sparse.put 0 i (BitVec.ofNat 32 (leNat bs) &&& regionMask i) c.regions })

/-- Entries and entry size of a table (R417); none for a window that TABL may not name. -/
def tableShape : Nat → Option (Nat × Nat)
  | 8 => some (4096, 8) | 9 => some (32768, 4) | 10 => some (64, 64) | 11 => some (4352, 4) | _ => none

/-- The blocks of TABL (R68). A block that the section cuts off ends it. -/
def State.applyTabl : Nat → List Octet → State → State
  | 0, _, s => s
  | f + 1, bs, s =>
    if bs.length < 16 then s
    else
      let n := fun (o : Nat) => leNat ((bs.drop o).take 4)
      let table := n 0
      let first := n 4
      let count := n 8
      let size := n 12
      let body := (bs.drop 16).take (count * size)
      let rest := (bs.drop 16).drop (count * size)
      let s' := match tableShape table with
        | none => s.skip 1
        | some sh =>
          if sh.2 ≠ size then s.skip 1
          else
            let es := (chunks size (body.length / size) body).mapIdx (fun i e => (first + i, e))
            let t := (es.filter (fun e => decide (e.1 < sh.1))).foldl (fun u e => u.setEntry table e.1 e.2) s
            t.skip (es.filter (fun e => decide (sh.1 ≤ e.1))).length
      State.applyTabl f rest s'

/-- The registers that LOCK names (R71). -/
def State.applyLock (s : State) (as' : List Nat) : State :=
  let take := fun (a : Nat) => a / 2 ^ 24 == 0 && hasField a (fun t => t == .cfg)
  let good := (as'.take 256).filter take
  let t := s.skip (as'.length - good.length)
  { t with nvd := { t.nvd with lockWhole := good.flatMap bothCds } }

/-! ### The calibration set -/

abbrev calBase : Nat := 0x10000

/-- The device serial of the identity region (R395). -/
def Nvd.serial (v : Nvd) : W64 := v.word 0x20000

/-- Does the stored set pass R79, its words apart. -/
def Nvd.calOk (v : Nvd) : Bool :=
  let f := fun (o n : Nat) => v.num (calBase + o) n
  !v.torn && f 0 4 == 0x53434259 && f 0x3C 4 == (crc32c (v.bytes calBase 0x3C)).toNat &&
    f 0x24 4 == (crc32c (v.bytes (calBase + 0x40) 37248)).toNat && f 0x20 4 == 37248 && v.word (calBase + 0x10) == v.serial

/-- The neutral values of R79. -/
def Cal.neutral : Cal :=
  { Cal.zero with
    chan := (List.range 4096).map (fun c => (c, 0x000820#24)),
    adc := (List.range 512).map (fun a => (a, 0x8000#64)) }

/-- Entries of a stored table without their reserved fields (R10), listed where they are not zero; the first stands at
index `base` of the calibration store. -/
def Nvd.calTable (v : Nvd) (off n base : Nat) : Sparse W64 :=
  ((List.range n).map (fun i => (i, v.word (calBase + off + 8 * i) &&& calMask (base + i)))).filter (fun e => e.2 != 0)

/-- The stored set as live values (R78), its header words last (R418). -/
def Nvd.calSet (v : Nvd) : Cal :=
  { chan := ((v.calTable 0x40 4096 0).map (fun e => (e.1, e.2.extractLsb' 0 24))).filter (fun e => e.2 != 0),
    adc := v.calTable 0x8040 512 4096, xo := v.calTable 0x9040 8 4608, lane := v.calTable 0x9080 32 4616,
    hop := v.calTable 0x9180 8 4648,
    hdr := [] }

/-- The header words as they were read; an uncorrectable one shows zero (R418). -/
def State.calHeader (s : State) : Sparse W64 :=
  ((List.range 8).map (fun i =>
    (i, if s.dead .hbd 0x04 (calBase / 8 + i) then 0 else s.nvd.word (calBase + 8 * i)))).filter (fun e => e.2 != 0)

/-- L6 applies the calibration set (R69, R79). -/
def State.applyCal (s : State) : State :=
  let r := s.nvdReads calBase 37312
  let t := r.2
  let hdr := t.calHeader
  if r.1 ∧ t.nvd.calOk then
    (({ t with cal := { t.nvd.calSet with hdr := hdr } }).setFld Reg.HK_CFG_INFO 10 10 1).setFld Reg.HK_CFG_INFO 9 9
      (t.nvd.num (calBase + 6) 2)
  else
    ((({ t with cal := { Cal.neutral with hdr := hdr } }).setFld Reg.HK_CFG_INFO 10 10 0).setFld Reg.HK_CFG_INFO 9 9 0).event
      Reg.HK_CFG_EVT [1]

/-- The words of the body of a set. -/
def Cal.body (c : Cal) : List W64 :=
  (List.range 4096).map (fun i => (Sparse.get 0 c.chan i).setWidth 64) ++ (List.range 512).map (Sparse.get 0 c.adc) ++
    (List.range 8).map (Sparse.get 0 c.xo) ++ (List.range 32).map (Sparse.get 0 c.lane) ++
    (List.range 8).map (Sparse.get 0 c.hop)

/-- The header words of a committed set (R78, R80): version as it stood. -/
def commitHeader (version count sec : Nat) (serial : W64) (body : List W64) : List W64 :=
  let w0 : W64 := BitVec.ofNat 64 (0x53434259 + version * 2 ^ 32 + 2 ^ 48)
  let w1 : W64 := BitVec.ofNat 64 ((count + 1) % 2 ^ 32)
  let bcrc := (crc32c (body.flatMap bytesLE)).toNat
  let front := [w0, w1, serial, BitVec.ofNat 64 sec, BitVec.ofNat 64 (37248 + bcrc * 2 ^ 32), 0, 0]
  let hcrc := (crc32c ((front.flatMap bytesLE) ++ [0#8, 0#8, 0#8, 0#8])).toNat
  front ++ [BitVec.ofNat 64 (hcrc * 2 ^ 32)]

/-! ### Slots and the directory -/

/-- A directory copy's PREF, where its CRC-32C is valid (R74). -/
def Nvd.prefCopy (v : Nvd) (i : Nat) : Option Nat :=
  let a := 0x1000 * i
  if v.num (a + 4) 4 = (crc32c (v.bytes a 4)).toNat ∧ v.num a 4 ≤ 1 then some (v.num a 4) else none

/-- The preferred slot: what at least two valid copies hold, otherwise slot A (R74); and what reading leaves. -/
def State.votePref (s : State) : Bool × State :=
  let r := [0, 1, 2].foldl (fun (a : Nat × State) i =>
    let x := a.2.nvdReads (0x1000 * i) 8
    (a.1 + b2n (x.1 && x.2.nvd.prefCopy i == some 1), x.2)) (0, s)
  (decide (r.1 ≥ 2), r.2)

/-- Is a slot the one that holds the loaded image. -/
def State.loadedSlot (s : State) (b : Bool) : Bool := s.bit Reg.HK_CFG_INFO 7 && s.bit Reg.HK_CFG_INFO 6 == b

/-- A slot's verified mark. -/
def State.setVerified (s : State) (b v : Bool) : State :=
  if b then { s with nvd := { s.nvd with verB := v } } else { s with nvd := { s.nvd with verA := v } }

/-- What SLOT_VERIFY finds (R75): a result code, the failing section, and what reading leaves. -/
def State.verifySlot (s : State) (b : Bool) : Nat × Nat × State :=
  let base := slotBase b
  let r := s.nvdReads base 64
  if !r.1 then (4, 31, r.2)
  else match r.2.nvd.header base with
    | none => (1, 31, r.2)
    | some h =>
      let t := r.2.nvdReads (base + 0x40) (16 * h.nsect)
      if !t.1 then (4, 31, t.2)
      else
        let ss := t.2.nvd.sections base h.nsect
        let c := t.2.checkSections base h.length ss
        match c.1 with
        | some e => (if e.2 then 4 else 2, e.1, c.2)
        | none =>
          let fresh := { c.2 with regs := [] }
          let trial := (fresh.setFld Reg.HK_CFG_INFO 5 4 h.role).applyRegs
            (regsEntries (c.2.nvd.sectionBytes base ss tagRegs))
          if trial.rolesOk then (0, 31, c.2) else (3, 31, c.2)

/-- Is a calibration task in progress (R80): a task of CALIB that has begun and not ended. -/
def State.calibBusy (s : State) : Bool :=
  s.hk.mode == .calib && (s.tdc.fill.isSome || s.fe.inj.running || s.ring.task.isSome)

/-- A write of HK_NVD_CMD (R59, R61, R75, R76, R80). -/
def State.nvdCmdWrite (s : State) (data : W32) (be : BitVec 4) : Rep :=
  let v := mergeBE (s.reg Reg.HK_NVD_CMD &&& 0xFFFFFFF0) data be
  let op := bits v 3 0
  let slot := bitOf v 8
  let locked := s.lockHit Reg.HK_NVD_CMD v || ((op == 1 || op == 2) && s.loadedSlot slot)
  let wait := (op != 0 && s.nvd.busy.isSome) || (op == 3 && !(if slot then s.nvd.verB else s.nvd.verA)) ||
    (op == 4 && s.calibBusy)
  let s1 := s.storeFields Reg.HK_NVD_CMD v
  let go := fun (x : NvdOp) => { (s1.setFld Reg.HK_NVD_CMD 3 0 op) with nvd := { s1.nvd with busy := some (x, slot) } }
  let eff := match op with
    | 1 => go .invalidate
    | 2 => go .verify
    | 3 => go .prefer
    | 4 =>
      let t := go .commit
      { t with nvd := { t.nvd with snap := some s.cal } }
    | _ => s1
  s.guarded (decide (op > 4)) locked (if op = 4 then .calSet else .nvdSlot) wait eff

/-- The word of an NVD command. -/
def nvdCmdWord (op : Nat) (slot : Bool) : W32 := word32 [(b2n slot, 1), (0, 4), (op, 4)]

/-- R75: HK_NVD_CMD = SLOT_INVALIDATE. -/
def execSlotInvalidate (lane : Lane) (slot : Bool) (s : State) : Outcm :=
  .next (s.access lane Reg.HK_NVD_CMD (fun t => t.nvdCmdWrite (nvdCmdWord 1 slot) 0xF))

/-- R75: HK_NVD_CMD = SLOT_VERIFY. -/
def execSlotVerify (lane : Lane) (slot : Bool) (s : State) : Outcm :=
  .next (s.access lane Reg.HK_NVD_CMD (fun t => t.nvdCmdWrite (nvdCmdWord 2 slot) 0xF))

/-- R75: HK_NVD_CMD = SLOT_PREFER. -/
def execSlotPrefer (lane : Lane) (slot : Bool) (s : State) : Outcm :=
  .next (s.access lane Reg.HK_NVD_CMD (fun t => t.nvdCmdWrite (nvdCmdWord 3 slot) 0xF))

/-- R80: HK_NVD_CMD = CAL_COMMIT. -/
def execCalCommit (lane : Lane) (s : State) : Outcm :=
  .next (s.access lane Reg.HK_NVD_CMD (fun t => t.nvdCmdWrite (nvdCmdWord 4 (t.bit Reg.HK_NVD_CMD 8)) 0xF))

/-- SLOT_INVALIDATE's write (R75). -/
def State.invalidate (s : State) (b : Bool) : Nat × State :=
  let a := slotBase b
  let m := s.memMerge .hbd 0x04 (a / 8)
  if m.1 then (0, ({ m.2 with nvd := m.2.nvd.put a (putBits (m.2.nvd.word a) 31 0 0) }).setVerified b false)
  else (4, m.2.setVerified b false)

/-- SLOT_PREFER's writes (R75): the three copies, each with its CRC. -/
def State.prefer (s : State) (b : Bool) : State :=
  let pv := leBytes 4 (b2n b)
  let w : W64 := BitVec.ofNat 64 (b2n b + (crc32c pv).toNat * 2 ^ 32)
  [0, 1, 2].foldl (fun t i => ({ t with nvd := t.nvd.put (0x1000 * i) w }).memClean .hbd 0x04 (0x200 * i)) s

/-- CAL_COMMIT's writes (R80): the body as it stood at the start, and last the header, with the DT seconds of that moment. -/
def State.commit (s : State) : State :=
  match s.nvd.snap with
  | none => s
  | some c =>
    let body := c.body
    let hd := commitHeader (s.nvd.num (calBase + 4) 2) (s.nvd.num (calBase + 8) 4) s.tb.sec s.nvd.serial body
    let t := s.cleanRange .hbd 0x04 (calBase / 8) 4664
    let v := (t.nvd.putWords (calBase + 0x40) body).putWords calBase hd
    let hdr := ((List.range 8).map (fun i => (i, nth 0 hd i))).filter (fun e => e.2 != 0)
    let u := { t with
      nvd := { v with snap := none, torn := false }, cal := { t.cal with hdr := hdr },
      att := { t.att with flags := t.att.flags ||| 1 } }
    (u.setFld Reg.HK_CFG_INFO 10 10 1).setFld Reg.HK_CFG_INFO 9 9 1

/-- One word of the ageing record is written, in offset order; with the last one RSEQ rises (R381). -/
def State.writeRecord (s : State) (w : W64) (rest : List W64) : State :=
  let a := 0x100000 + 256 * (s.age.rseq % 4096) + 8 * (31 - rest.length)
  let t := { (s.memClean .hbd 0x04 (a / 8)) with nvd := s.nvd.put a w }
  if rest = [] then
    ({ t with age := { t.age with writing := none, rseq := (t.age.rseq + 1) % 2 ^ 32 } }).setReg
      Reg.AGE_RSEQ (BitVec.ofNat 32 s.age.rseq)
  else { t with age := { t.age with writing := some rest } }

/-- The next word of a record that is being written, while no NVD command runs (R381). -/
def State.recordWord (s : State) : State :=
  match s.age.writing with
  | some (w :: rest) => if s.nvd.busy.isSome then s else s.writeRecord w rest
  | _ => s

/-- One tick with no command waiting (log entry 1), in which the FLUSH markers of a slice that ends are executed (R304) and a word of
the ageing record may be written (log entry 178). -/
def State.tick (s : State) : State := if s.aclkRuns then (s.advance 1).runFlushes.recordWord else s

/-- R75: the running NVD command ends. -/
def execNvdCommandDone (s : State) : Outcm :=
  .next (match s.nvd.busy with
    | none => s
    | some (op, b) =>
      let s1 := { (s.setFld Reg.HK_NVD_CMD 3 0 0) with nvd := { s.nvd with busy := none } }
      let fin := fun (t : State) (res sec : Nat) =>
        (t.setFld Reg.HK_NVD_STS 7 4 res).setFld Reg.HK_NVD_STS 12 8 sec
      match op with
      | .invalidate =>
        let r := s1.invalidate b
        fin r.2 r.1 31
      | .verify =>
        let r := s1.verifySlot b
        let t := if r.1 = 0 then r.2.2.setVerified b true else r.2.2.event Reg.HK_CFG_EVT [2]
        fin t r.1 r.2.1
      | .prefer => fin (s1.prefer b) 0 31
      | .commit => fin s1.commit 0 31)

/-! ### Window writes -/

/-- What R56 and R59 say of a window address: the slot it lies in, a region that only commands write, or reserved. -/
inductive NvdPlace where
  | slot (b : Bool)
  | held
  | reserved
  deriving DecidableEq, Repr

def nvdPlace (a : Nat) : NvdPlace :=
  if 0x1000000 ≤ a ∧ a < 0x2000000 then .slot false
  else if 0x2000000 ≤ a ∧ a < 0x3000000 then .slot true
  else if a < 0x3000 ∨ (0x10000 ≤ a ∧ a < 0x30018) ∨ (0x100000 ≤ a ∧ a < 0x200000) then .held
  else .reserved

/-- The NVD byte address of a window offset (R56). -/
def State.nvdAddr (s : State) (off : Nat) : Nat := 0x100000 * s.fld Reg.HK_NVD_PAGE 5 0 + off

/-- A window write (R59 to R61, R75, R76); one of a reserved region has no effect (R404). -/
def State.nvdWrite (s : State) (off : Nat) (data : W32) (be : BitVec 4) : Rep :=
  let a := s.nvdAddr off
  match nvdPlace a with
  | .reserved => s.guarded false false .writeCfg false s
  | .held => .lockedBy s
  | .slot b =>
    let hi := a % 8 == 4
    let eff := fun (t : State) =>
      let w := t.nvd.word a
      ({ t with
        nvd := t.nvd.put a (setHalf w hi (mergeBE (halfOf w hi) data be)),
        att := { t.att with flags := t.att.flags ||| 4 } }).setVerified b false
    s.guardedR false (s.loadedSlot b) .nvdSlot s.nvd.busy.isSome (s.merged .hbd 0x04 (a / 8) eff)

/-- R60: a write through window 0xD. -/
def execNvdWindowWrite (lane : Lane) (off : BitVec 20) (data : W32) (be : BitVec 4) (s : State) : Outcm :=
  .next (s.accessW lane (0xD00000 + off.toNat) be (fun t =>
    if off.toNat % 4 ≠ 0 then .no Stat.badFormat t else t.nvdWrite off.toNat data be))

end Sys2Proof.Machine
end

