-- ==== Sys2Proof/Machine/Ageing.lean ====
section
/-! DEFINITION. The margin planner (R379 to R387) but margin 1, which runs where a fill ends: the cycle with its record, the
hourly and daily margins and deferred supply steps, with the meanings of their commands. -/

namespace Sys2Proof.Machine

/-! ### The log -/

/-- The first address of a log slot (R381). -/
def logSlot (i : Nat) : Nat := 0x100000 + 256 * i

/-- Is a slot's record valid: its words readable, MAGIC and CRC correct (R382). -/
def State.recordOk (s : State) (i : Nat) : Bool :=
  let a := logSlot i
  s.nvd.num a 4 == 0x47414259 && !(List.range 32).any (fun j => s.dead .hbd 0x04 (a / 8 + j)) &&
    s.nvd.num (a + 0xFC) 4 == (crc32c (s.nvd.bytes a 0xFC)).toNat

/-- The slot of the valid record with the highest RSEQ. -/
def State.newestRecord (s : State) : Option Nat :=
  ((List.range 4096).filter s.recordOk).foldl (fun (best : Option Nat) i => match best with
    | none => some i
    | some b => if s.nvd.num (logSlot i + 4) 4 > s.nvd.num (logSlot b + 4) 4 then some i else some b) none

/-- A ring oscillator's frequency normalised to 85 °C (R379): f × (1 + 0.001 × (T − 85)), the temperature `t` in 0.0625 K. -/
def roNorm (f : Nat) (t : Int) : Nat :=
  let x := (f : Int) * (16000 + t - 1360)
  (x / 16000).toNat + (if x % 16000 ≠ 0 ∧ Config.roUp f t then 1 else 0)

/-- The normalised frequencies of a cycle, eight of each die. -/
def normFn (r : AgeReadings) : List Nat := r.ro.mapIdx (fun j f => roNorm f (r.temp[j / 8]?.getD 1360))

/-- The TDC_LEN values of the log go into TDC_LEN_0 to TDC_LEN_3 (R382), and make a fill due; while one is in progress they wait
(R385). -/
def State.restoreLens (s : State) (ws : List W32) : State :=
  if s.fillRuns then { s with age := { s.age with lenBack := ws } }
  else
    let old := s.lenWords Reg.TDC_LEN
    let changed := (List.range 64).filter (fun g => lenOf old g != lenOf ws g)
    let t := (List.range 4).foldl (fun (v : State) j => v.setReg (Reg.TDC_LEN + 4 * j) (nth 0 ws j)) s
    (({ t with age := { t.age with
      lenBack := [], fillDue := changed.foldl (fun l g => setIns g l) t.age.fillDue } }).event Reg.AGE_EVT [4]).setBit
      Reg.AGE_MARGIN 8 true

/-- RO_REF, VTRIM, TDC_LEN and RSEQ from the log's newest record (R382). -/
def State.restoreFrom (t : State) (r : AgeReadings) (newest : Option Nat) : State :=
  match newest with
  | none => { t with age := { t.age with rseq := 0, roRef := (normFn r) } }
  | some i =>
    let a := logSlot i
    let num := fun (o n : Nat) => t.nvd.num (a + o) n
    let u := t.restoreLens ((List.range 4).map (fun j => BitVec.ofNat 32 (num (0xAC + 4 * j) 4)))
    { u with age := { u.age with
      rseq := (num 4 4 + 1) % 2 ^ 32, roRef := (List.range 40).map (fun j => num (0x5C + 2 * j) 2),
      vtrim := (List.range 4).map (fun j => num (0xC0 + j) 1) } }

/-- The first cycle after LOAD reads the log and restores what its newest valid record holds (R382). -/
def State.restoreLog (s : State) (r : AgeReadings) : State :=
  let t := (s.nvdReads 0x100000 0x100000).2
  t.restoreFrom r t.newestRecord

/-- The ratio code of R381: exact where the ratio falls on a code, otherwise one of the two codes beside it, and open outside
the byte. -/
def ratioByte (fn ref free : Nat) : Nat :=
  let v : Rat := 128 + 1024 * ((fn : Rat) / (ref : Rat) - 1)
  let lo := v.floor
  let c := if (lo : Rat) = v then lo else lo + (free % 2 : Nat)
  if 0 ≤ c ∧ c < 256 then c.toNat else free % 256

/-- The mean FoM of a lane over the cycle's measurements (R279, R381), and its present FoM where none was taken; a mean between
two numbers is either of them, as `free` decides. DESIGN CHOICE of log entry 179. -/
def State.fomMean (s : State) (n : Nat) (free : W32) : Nat :=
  match Sparse.get (0, 0) s.age.fomCycle n with
  | (_, 0) => (s.lane n).fom
  | (sum, k) => sum / k + (if sum % k ≠ 0 ∧ bitOf free 0 then 1 else 0)

/-- The XO's fractional frequency against ACLK in 10^-12, from the lock-tracking word `w` = f / f_nominal - 1 (R264, R379):
the quotient, DEDUCED in log entry 180. -/
def xoOffset (w : Int) : Int := roundDiv (-(w * 10 ^ 12)) (10 ^ 12 + w).toNat

/-- The XO offset of a cycle, from the latest lock-tracking word; an open value where none has been taken. -/
def State.xoMeas (s : State) : Int × State :=
  match s.tb.track.getLast? with
  | some w => (xoOffset w, s)
  | none => (signedW 32 s.draw.1, s.draw.2)

/-- The least SPAN of a group, with its group (R381). -/
def State.spanMin (s : State) : Nat × Nat :=
  let all := ((List.range 64).map (fun g => (leastOf (s.groupSpans g), g))).filter (fun x => x.1 != 0)
  all.foldl (fun best x => if x.1 < best.1 then x else best) (all.headD (0, 0))

/-- The record of a cycle, without its CRC (R381). -/
def State.recordBytes (s : State) (r : AgeReadings) (xo : Int) (sec : Nat) : List Octet :=
  let up := fun (n : Nat) => s.laneUp n
  leBytes 4 0x47414259 ++ leBytes 4 s.age.rseq ++ leBytes 8 sec ++ leBytes 4 (s.att.bootCount % 2 ^ 32) ++
    leBytes 4 (s.hk.mode.code + 16 * s.tb.state.code + 256 * s.fld Reg.AGE_MARGIN 4 0) ++
    r.temp.flatMap (fun t => leBytes 2 (patternW 16 t)) ++ r.dose.flatMap (leBytes 4) ++
    ((List.range 40).map (fun j =>
      BitVec.ofNat 8 (ratioByte (nth 0 s.age.fn j) (nth 0 s.age.roRef j) (Config.free32 (s.free + j)).toNat))) ++
    (List.range 40).flatMap (fun j => leBytes 2 (nth 0 s.age.roRef j)) ++ (s.lenWords Reg.TDC_LEN).flatMap bytes32LE ++
    leBytes 2 s.spanMin.1 ++ leBytes 1 s.spanMin.2 ++ leBytes 1 0 ++ (List.range 4).flatMap (fun i => leBytes 1 (nth 0 s.age.vtrim i)) ++
    leBytes 4 (if s.tb.state = .locked then patternW 32 xo else 0x80000000) ++
    (List.range 32).flatMap (fun n => leBytes 1 (if up n then s.fomMean n (Config.free32 (s.free + 40 + n)) else 0xFF)) ++
    (List.range 16).flatMap (fun j => leBytes 1 ((s.lane (2 * j)).ctle % 16 + 16 * ((s.lane (2 * j + 1)).ctle % 16))) ++ leBytes 4 0

/-- The words of a record. -/
def recordWords (bs : List Octet) : List W64 :=
  (chunks 8 32 (bs ++ bytes32LE (crc32c bs))).map (fun c => BitVec.ofNat 64 (leNat c))

/-- The record begins to be written (R381): a word at a time, while no NVD command runs. -/
def State.logCycle (s : State) (r : AgeReadings) (xo : Int) (sec : Nat) : State :=
  { s with
    free := s.free + 72, age := { s.age with writing := some (recordWords (s.recordBytes r xo sec)), fomCycle := [] } }

/-- A record that is not complete after 10 s is abandoned (R381). -/
def State.abandonRecord (s : State) : State :=
  match s.age.writing with
  | none => s
  | some _ =>
    (({ s with age := { s.age with writing := none, rseq := (s.age.rseq + 1) % 2 ^ 32 } }).count Reg.AGE_SKIP_CNT 1).event
      Reg.AGE_EVT [2]

/-! ### Margin 0: core supply trim -/

/-- May a supply step be made now (R385). -/
def State.trimNow (s : State) : Bool :=
  (s.hk.mode == .simmer || s.hk.mode == .calib) && !s.fillRuns

/-- A supply trim step of a die, up or down: a step on the FED makes a fill due (R385). -/
def State.trimStep (s : State) (die : Nat) (up : Int) : State :=
  let v := ((nth 0 s.age.vtrim die : Int) + up).toNat
  ({ s with age := { s.age with vtrim := s.age.vtrim.set die (min 12 v) } }).plannerMove (die == 0)

/-- A step that falls due: made now, or waiting (R385). -/
def State.trimDue (s : State) (die : Nat) (up : Int) : State :=
  if s.trimNow then s.trimStep die up
  else { s with age := { s.age with trimWait := s.age.trimWait.filter (fun w => w.1 != die) ++ [(die, up)] } }

/-- The ratio of a code of R381. -/
def codeRatio (v : Nat) : Rat := 1 + ((v : Rat) - 128) / 1024

/-- Margin 0 for one die, over an hour's sum of its slowest ratio (R384). -/
def State.margin0 (s : State) (die : Nat) : State :=
  let r : Rat := nth 0 s.age.hourRo die / 360
  let trim := nth 0 s.age.vtrim die
  let low := decide (r < codeRatio (s.fld Reg.AGE_RO_THR 7 0))
  let high := decide (r > codeRatio (s.fld Reg.AGE_RO_THR 15 8))
  if low then (if trim < 12 then (s.exhaust 0 die false).trimDue die 1 else s.exhaust 0 die true)
  else
    let t := s.exhaust 0 die false
    if high ∧ trim > 0 then t.trimDue die (-1) else t

/-! ### Margins 2, 3 and 4 -/

/-- Set the live entry of a lane. -/
def State.setLaneCal (s : State) (n : Nat) (w : W64) : State :=
  { s with cal := { s.cal with lane := Sparse.put 0 n w s.cal.lane } }

/-- Margin 2 for one lane (R384). -/
def State.margin2 (s : State) (n : Nat) : State :=
  let e := s.laneCal n
  let base := bits e 23 20
  let d := Sparse.get (0, 0) s.age.ctleSum n
  if !s.laneUp n ∨ !bitOf e 31 ∨ d.2 = 0 ∨ s.dead .fed 0x13 (laneIdx n) then s
  else
    let move := fun (b : Nat) =>
      let t := (s.exhaust 2 n false).setLaneCal n (putBits e 23 20 b)
      ({ t with age := { t.age with lowHours := Sparse.put 0 n 0 t.age.lowHours } }).plannerMove false
    if d.1 ≥ (base + 2) * d.2 then (if base = 15 then s.exhaust 2 n true else move (base + 1))
    else if d.1 + 2 * d.2 ≤ base * d.2 then (if base = 0 then s.exhaust 2 n true else move (base - 1))
    else s.exhaust 2 n false

/-- Set an XO entry to a signed value. -/
def State.setXo (s : State) (i : Nat) (v : Int) : State :=
  { s with cal := { s.cal with xo := Sparse.put 0 i (BitVec.ofNat 64 (patternW 64 v)) s.cal.xo } }

/-- AGE_A = D / Δℓ of a refit (R384), Δℓ in units of 2^-160: the whole number below or above it, as the spec states no
rounding. -/
def ageRefit (d t1 t2 : Int) (tau : Nat) : Int :=
  let dl := lnOnePlus t2 tau - lnOnePlus t1 tau
  d * lnUnit / dl + (if d * lnUnit % dl ≠ 0 ∧ Config.refitUp d t1 t2 tau then 1 else 0)

/-- The refit of AGE_A after 30 days (R384). -/
def State.refit (s : State) : State :=
  let tau := (s.xo 3).toNat
  let ref : Int := (s.xo 0).toNat
  let t1 := s.age.xoSpan
  let t2 : Int := s.tb.sec
  let old := s.xoI 2
  let d := s.age.xoDays.sum + (s.xoAge old t2 - s.xoAge old t1)
  let t := { s with age := { s.age with xoDays := [], xoSpan := t2 } }
  if tau ≠ 0 ∧ t1 < t2 ∧ ref < t1 + tau then
    let new := ageRefit d (t1 - ref) (t2 - ref) tau
    (t.setXo 2 new).setXo 1 (s.xoI 1 + s.xoAge old t2 - s.xoAge new t2)
  else t

/-- Margin 3 at the end of a day (R384, R386). `mean` is the mean of XO_MEAS less the model, with its rounding open. -/
def State.margin3 (s : State) (tempMilliK : Int) : State :=
  let n := s.age.xoN
  let open' := s.tb.state == .holdover || s.tb.state == .freerun || !s.bit Reg.HK_CFG_INFO 10
  let beyond := fun (t : State) => decide (t.xoY tempMilliK > 8000000000 ∨ t.xoY tempMilliK < -8000000000)
  if n < 8000 then s
  else if open' then s
  else if decide (s.age.xoSum > 50000000 * (n : Int) ∨ s.age.xoSum < -50000000 * (n : Int)) then s.event Reg.AGE_EVT [3]
  else if beyond s then s.exhaust 3 0 true
  else
    let lo := s.age.xoSum / (n : Int)
    let d := s.draw
    let exact := decide (s.age.xoSum % (n : Int) = 0)
    let e := if exact then lo else lo + ((d.1 % 2 : Nat) : Int)
    let t := ((if exact then s else d.2).setXo 1 (s.xoI 1 + e)).plannerMove false
    let u := { t with age := { t.age with xoDays := t.age.xoDays ++ [e] } }
    let v := if u.age.xoDays.length ≥ 30 then u.refit else u
    v.exhaust 3 0 (beyond v)

/-- Margin 4 for one lane (R384): the hour's FoM and failures, kept while the margin is not enabled too. -/
def State.margin4 (s : State) (n : Nat) : State :=
  let f := Sparse.get (0, 0) s.age.fomSum n
  let low := decide (f.2 > 0) && decide (f.1 < s.fomThr.2.1 * f.2)
  let hours := if low then Sparse.get 0 s.age.lowHours n + 1 else 0
  let fails := (s.regAt (instKey Reg.LN_FAIL_CNT n)).toNat
  let rose := fails - Sparse.get 0 s.age.failAt n
  let t := { s with age := { s.age with
    lowHours := Sparse.put 0 n hours s.age.lowHours, failAt := Sparse.put 0 n fails s.age.failAt } }
  let holds := decide (hours ≥ max 1 (s.fld Reg.AGE_FB_CFG 7 0)) || decide (rose ≥ s.fld Reg.AGE_FB_CFG 31 16)
  let e := t.laneCal n
  let cap := bits e 27 26
  if !t.marginOn 4 ∨ n = 0 ∨ t.laneRole n = 0 ∨ t.dead .fed 0x13 (laneIdx n) then t
  else if !holds then t.exhaust 4 n false
  else if cap ≥ 2 then t.exhaust 4 n true
  else if t.age.fbDay.contains n then t.exhaust 4 n false
  else
    let c := ((t.exhaust 4 n false).setLaneCal n (putBits e 27 26 (cap + 1))).event (laneEvt n) [4]
    let u := c.setLane n { c.lane n with fbReq := true }
    ({ u with age := { u.age with fbDay := setIns n u.age.fbDay } }).plannerMove false

/-! ### The cycle -/

/-- The slowest RO ratio of a die. -/
def State.slowest (s : State) (die : Nat) : Rat :=
  let q := (List.range 8).map (fun j =>
    ((nth 0 s.age.fn (8 * die + j) : Nat) : Rat) / ((nth 0 s.age.roRef (8 * die + j) : Nat) : Rat))
  q.foldl (fun a b => if b < a then b else a) (q.headD 0)

/-- The XO temperature of a reading in mK. -/
def xoMilliK (r : AgeReadings) : Int := (r.temp[5]?.getD 0) * 125 / 2

/-- The monitors are read and their sums kept (R379, R387). -/
def State.readMonitors (s : State) (r : AgeReadings) (xo : Int) : State :=
  let t := { s with age := { s.age with fn := (normFn r) } }
  let ups := (List.range 32).filter t.laneUp
  let add := fun (m : Sparse (Nat × Nat)) (n v : Nat) =>
    Sparse.put (0, 0) n ((Sparse.get (0, 0) m n).1 + v, (Sparse.get (0, 0) m n).2 + 1) m
  let locked := decide (t.tb.state = .locked)
  let u := { t with age := { t.age with
    cycles := t.age.cycles + 1,
    hourRo := (List.range 4).map (fun i => nth 0 t.age.hourRo i + t.slowest i),
    ctleSum := ups.foldl (fun m n => add m n (t.lane n).ctle) t.age.ctleSum,
    fomSum := ups.foldl (fun m n => add m n (t.lane n).fom) t.age.fomSum,
    xoSum := if locked then t.age.xoSum + (xo * 1000 - t.xoY (xoMilliK r)) else t.age.xoSum,
    xoN := t.age.xoN + b2n locked } }
  (u.eventIf (r.dose.any (fun d => decide (d ≥ 1600000))) Reg.AGE_EVT [5]).eventIf
    ((r.temp.take 5).any (fun x => decide (x > 1360))) Reg.AGE_EVT [6]

/-- The margins that fall due, in the order of R384; the sums of an hour or a day that has ended are cleared. -/
def State.margins (s : State) (r : AgeReadings) : State :=
  let hour := s.age.cycles % 360 == 0
  let day := s.age.cycles % 8640 == 0
  let all := List.range 32
  let t0 := if hour ∧ s.marginOn 0 then (List.range 4).foldl State.margin0 s else s
  let t2 := if day ∧ t0.marginOn 2 then all.foldl State.margin2 t0 else t0
  let t3 := if day ∧ t2.marginOn 3 then t2.margin3 (xoMilliK r) else t2
  let t4 := if hour then all.foldl State.margin4 t3 else t3
  let h := if hour then { t4 with age := { t4.age with hourRo := [], fomSum := [] } } else t4
  if day then { h with age := { h.age with ctleSum := [], fbDay := [], xoSum := 0, xoN := 0 } } else h

/-- R380: a planner cycle: the monitors are read, the margins evaluated, the record written. -/
def execPlannerCycle (r : AgeReadings) (s : State) : Outcm :=
  if (Instr.plannerCycle r).wf then
    .next (if !s.aclkRuns then s
      else
        let sec := s.tb.sec
        let a := s.abandonRecord
        let t := if a.age.cycles = 0 then a.restoreLog r else if a.age.lenBack ≠ [] then a.restoreLens a.age.lenBack else a
        let u := if t.age.cycles = 0 then { t with age := { t.age with xoSpan := sec } } else t
        let x := u.xoMeas
        ((x.2.readMonitors r x.1).margins r).logCycle r x.1 sec)
  else .refused (.illFormed "PLANNER_CYCLE")

/-- R381: 10 s have passed and the record is not complete. -/
def execAgeingRecordAbandon (s : State) : Outcm := .next s.abandonRecord

/-- R385: a supply step that waited is made. -/
def execDeferredTrimStep (s : State) : Outcm :=
  .next (match s.age.trimWait with
    | [] => s
    | (die, up) :: rest =>
      if s.trimNow then ({ s with age := { s.age with trimWait := rest } }).trimStep die up else s)

end Sys2Proof.Machine
end

