-- ==== Sys2Proof/Machine/LidCmds.lean ====
section
/-! DEFINITION. The bias safety interlock (R350 to R378): its causes and state changes as shared operations, and the
meanings of the commands that act on it. -/

namespace Sys2Proof.Machine

/-! ### Parameters and channels -/

/-- A byte of a channel's parameter copy (R355). -/
def LidChan.b (c : LidChan) (i : Nat) : Nat := (nth 0 c.par i).toNat

/-- A 16-bit parameter. -/
def LidChan.h (c : LidChan) (i : Nat) : Nat := c.b i + 256 * c.b (i + 1)

/-- A 16-bit parameter of quadrant `q` at its block offset `o`. -/
def LidChan.qp (c : LidChan) (q o : Nat) : Nat := c.h (0x18 + 16 * q + o)

/-- One channel. -/
def Lid.chan (l : Lid) : LidCh → LidChan
  | .p => l.p
  | .h => l.h

def Lid.setChan (l : Lid) (c : LidCh) (x : LidChan) : Lid :=
  match c with
  | .p => { l with p := x }
  | .h => { l with h := x }

/-- Is a channel powered: P from 12 V, H from 24 V (R350). -/
def State.chanOn (s : State) : LidCh → Bool
  | .p => s.hk.v12
  | .h => s.hk.v24

/-- Is bias permitted: RUN or DEGRADED (R354). -/
def Lid.biasOn (l : Lid) : Bool := l.state == .run || l.state == .degraded

/-! ### Entries, causes, trips -/

/-- The CH bit of R375. -/
def lidChCode : LidCh → Nat
  | .p => 0
  | .h => 1

/-- An entry of R375, with the state after the event. -/
def State.lidEntry (s : State) (ty : Nat) (st : LidState) (c : LidCh) (cause idx value : Nat) : State :=
  s.pqPush 9 (rec64 [(ty, 4), (st.code, 3), ((lidChCode c), 1), (cause, 8), (idx, 4), (0, 12), (value, 16),
    (s.lid.ms, 16)])

/-- Open the quadrant switches and disarm their lower bounds (R361). -/
def Quad.open (q : Quad) : Quad := { q with armed := false, hist := [], runVL := 0 }

/-- Take both drives and every switch off (R350, R352). -/
def Lid.outputsOff (l : Lid) : Lid :=
  { l with
    p := { l.p with drive := false, quads := l.p.quads.map Quad.open },
    h := { l.h with drive := false, quads := l.h.quads.map Quad.open },
    qclosed := [false, false, false, false],
    seenOpenA := if l.p.drive then false else l.seenOpenA,
    seenOpenB := if l.h.drive then false else l.seenOpenB }

/-- The state a latched cause takes the Lid to (R353, R354). -/
def Lid.after (l : Lid) (cause : Nat) : LidState :=
  if cause ≥ 0x10 then (if l.state == .off then .off else .fault)
  else if l.biasOn then .stop else l.state

/-- Both channels take a state; one without supply holds its outputs off (R350, R352). -/
def State.lidSet (s : State) (t : LidState) : State :=
  let one := fun (c : LidCh) (x : LidChan) => { x with st := if s.chanOn c then t else .off }
  { s with lid := { s.lid with state := t, p := one .p s.lid.p, h := one .h s.lid.h } }

/-- A change of state, with its entry; leaving RUN or DEGRADED is a trip: counted, outputs off, module to SAFE. -/
def State.lidGo (s : State) (c : LidCh) (t : LidState) (evt : List Nat) : State :=
  if s.lid.state = t then s.eventIf (evt ≠ []) Reg.LID_EVT evt
  else
    let trip := s.lid.biasOn && t != .run && t != .degraded
    let s1 := { s with lid := (if trip then s.lid.outputsOff else s.lid) }
    let s2 := (s1.lidSet t).lidEntry 1 t c 0 0 0
    let evt' := (if trip then [0] else []) ++ evt
    let s3 := s2.eventIf (evt' ≠ []) Reg.LID_EVT evt'
    if trip then (s3.count Reg.LID_TRIP_CNT 1).enterSafe 6 else s3

/-- Latch a cause in both channels, with its entry, which names the state that it leads to; a cause already latched posts none
(R353, R375). -/
def State.lidLatch (s : State) (st : LidState) (c : LidCh) (cause idx value : Nat) : State :=
  if s.lid.h.causes.contains cause then s
  else
    let l := s.lid
    ({ s with lid := { l with p := { l.p with causes := setIns cause l.p.causes },
                              h := { l.h with causes := setIns cause l.h.causes },
                              first := if l.first = 0 then cause else min l.first cause } }).lidEntry 2 st c cause idx value

/-- What a rejected reset leaves: its entry, the count, and LID_RST_LAST (R372, R375). -/
def State.lidRefuse (s : State) (cause idx h : Nat) : State :=
  ((((s.lidEntry 4 s.lid.state .h cause idx h).count Reg.LID_RST_REJ_CNT 1).event Reg.LID_EVT [4]).setReg Reg.LID_RST_LAST
    (word32 [(0, 16), (min h 65535, 16)]))

/-- A reset whose millisecond has not ended is rejected for a cause that comes in it (R374). -/
def State.lidCancel (s : State) (cause idx : Nat) : State :=
  match s.lid.acc with
  | some h => ({ s with lid := { s.lid with acc := none } }).lidRefuse cause idx h
  | none => s

/-- A cause comes: a reset released in the same millisecond is rejected, and a demand is noted for a release that follows in it
(R374). -/
def State.lidDemand (s : State) (cause idx : Nat) : State :=
  let t := s.lidCancel cause idx
  if cause < 0x10 then { t with lid := { t.lid with demand := some (t.lid.ms, cause, idx) } } else t

/-- A cause detected by channel `c`: latched, and the state it leads to (R353, R354). Demands do not latch in OFF. -/
def State.lidCause (s : State) (c : LidCh) (cause idx value : Nat) : State :=
  if cause < 0x10 ∧ s.lid.state = .off then s
  else
    let fresh := !s.lid.h.causes.contains cause
    let s1 := (s.lidDemand cause idx).lidLatch (s.lid.after cause) c cause idx value
    s1.lidGo c (s.lid.after cause) (if cause ≥ 0x10 ∧ fresh then [1] else [])

/-- Entry to DEGRADED from RUN: each channel takes the present V as its reference (R354, R361, R363). -/
def State.lidDegrade (s : State) (c : LidCh) : State :=
  if s.lid.state = .run then
    let d := fun (x : LidChan) => { x with quads := x.quads.map (fun q => { q with ref := q.v, armed := false, runVL := 0 }) }
    ({ s with lid := { s.lid with p := d s.lid.p, h := d s.lid.h } }).lidGo c .degraded [2]
  else s

/-- Module entry to BOOT or LOAD takes the Lid to OFF (R373). -/
def State.lidOff (s : State) : State :=
  let t := s.lidCancel 0x08 0
  let s1 := if s.lid.biasOn then t.lidLatch .off .h 0x08 0 0 else t
  s1.lidGo .h .off []

/-- Channel H closes the switches that R365 permits; a switch that closes starts its windows again. -/
def State.lidSwitches (s : State) : State :=
  let l := s.lid
  let may := fun q => l.state == .run && s.bit Reg.LID_QEN q && !l.fbaOpen && !l.fbbOpen && s.hk.v24
  let newly := (List.range 4).map (fun q => may q && !nth false l.qclosed q)
  let fix := fun (x : LidChan) =>
    { x with quads := x.quads.zipWith (fun q n => if n then q.open else q) newly }
  { s with lid := { l with qclosed := (List.range 4).map (fun q => nth false l.qclosed q || may q),
                           p := fix l.p, h := fix l.h } }

/-- Is the 24 V supply, as channel P measures it, within its limits (R368). -/
def State.v24ok (s : State) : Bool :=
  decide (19200 ≤ s.fld Reg.LID_V24 15 0) && decide (s.fld Reg.LID_V24 15 0 ≤ 28800)

/-- Set the measured 24 V level to an open value inside (or below) its limits. -/
def State.setV24 (s : State) (ok : Bool) : State :=
  let d := s.draw
  d.2.setFld Reg.LID_V24 15 0 (if ok then 19200 + d.1 % 9601 else d.1 % 19200)

/-! ### Meanings: supplies of the safety domain -/

/-- R425: 24 V is applied; the Lid stays as it is, OFF until L8. -/
def execSupply24VApply (s : State) : Outcm :=
  .next (if s.hk.v24 then s
    else ({ s with
      hk := { s.hk with v24 := true },
      lid := { s.lid with linkP := false, linkH := false, ms := 0, demand := none } }).setV24 true)

/-- R368: 24 V is lost; KA and KB drop without a decision. With 12 V absent too every latched cause is lost. -/
def execSupply24VLoss (s : State) : Outcm :=
  .next (if s.hk.v24 then
      if s.hk.v12 then
        let l := s.lid.outputsOff
        (({ s with
          hk := { s.hk with v24 := false },
          lid := { l with linkP := false, p := { l.p with outBad := false }, h := { l.h with st := .off, outBad := false } } }).lidCancel
            0x18 0).setV24 false
      else
        { (s.resetRegs (fun k => k % 0x1000000 / 0x100000 == 5)) with
          hk := { s.hk with v24 := false },
          lid := { Lid.reset with p := { LidChan.reset with raw := s.lid.p.raw },
                                  h := { LidChan.reset with raw := s.lid.h.raw },
                                  fbaOpen := s.lid.fbaOpen, fbbOpen := s.lid.fbbOpen, rstIn := s.lid.rstIn } }
    else s)

/-- R368: channel P has seen 24 V below 19.2 V for 5 ms and latches SUPPLY. -/
def execSupplyLowExpire (s : State) : Outcm :=
  .next (if s.hk.v12 then (s.setV24 false).lidCause .p 0x18 0 0 else s)

/-! ### Meanings: safety inputs -/

/-- R357: a side changes its raw level, in both channels' circuits. -/
def execSafetyInputChange (i : Fin 4) (sideB healthy : Bool) (s : State) : Outcm :=
  let j := 2 * i.val + b2n sideB
  let f := fun (x : LidChan) => { x with raw := x.raw.set j healthy }
  .next { s with lid := { s.lid with p := f s.lid.p, h := f s.lid.h } }

/-- SI_MODE of an input as a channel holds it: 0 unused, 1 STOP, 2 DEGRADE. -/
def LidChan.siMode (x : LidChan) (i : Nat) : Nat := x.b (8 + i)

/-- R358: a demand on a used input acts on its own. -/
def State.inputDemand (s : State) (c : LidCh) (i : Nat) : State :=
  match (s.lid.chan c).siMode i with
  | 1 => s.lidCause c 0x01 i 0
  | 2 =>
    if s.lid.state = .off ∨ s.lid.state = .degraded then s
    else ((s.lidDemand 0x02 i).lidLatch (if s.lid.state = .run then .degraded else s.lid.state) c 0x02 i 0).lidDegrade c
  | _ => s

/-- R357: a raw level has held for SI_FILT; the filtered value changes, and a demand acts at once. -/
def execInputFilterExpire (c : LidCh) (i : Fin 4) (sideB : Bool) (s : State) : Outcm :=
  let x := s.lid.chan c
  let j := 2 * i.val + b2n sideB
  let v := nth false x.raw j
  .next (if x.siMode i = 0 ∨ nth false x.filt j = v ∨ !s.chanOn c then s
    else
      let s1 := { s with lid := s.lid.setChan c { x with filt := x.filt.set j v } }
      if v then s1 else s1.inputDemand c i)

/-- One discrepancy sample of input `i`: the count, and the phases of a latched discrepancy (R359). -/
def LidChan.discStep (x : LidChan) (i : Nat) : LidChan :=
  let a := nth false x.filt (2 * i)
  let b := nth false x.filt (2 * i + 1)
  let n := if a != b then nth 0 x.cnt i + 1 else 0
  let d := nth 0 x.disc i
  let d' := if n ≥ x.h 0x10 then 1
    else if d = 1 ∧ !a ∧ !b then 2
    else if d = 2 ∧ a ∧ b then 0 else d
  { x with cnt := x.cnt.set i n, disc := x.disc.set i d' }

/-- An accepted reset: every latched cause clears, both drives energise, the state is RUN (R372). -/
def State.lidAccept (s : State) (h : Nat) : State :=
  let clr := fun (x : LidChan) => { x with causes := [], drive := true, st := .run }
  let s1 := { s with lid := { s.lid with state := .run, p := clr s.lid.p, h := clr s.lid.h, first := 0 } }
  let s2 := ((s1.lidEntry 3 .run .h 0 0 h).lidEntry 1 .run .h 0 0 0).lidSwitches
  ((s2.count Reg.LID_RST_ACC_CNT 1).event Reg.LID_EVT [3]).setReg Reg.LID_RST_LAST
    (word32 [(1, 16), (min h 65535, 16)])

/-- The millisecond of a LID_RST release ends with channel H's next one: a reset that nothing in it has rejected is accepted
(R372, R374), DEDUCED in log entry 188. -/
def State.lidSettle (s : State) : State :=
  match s.lid.acc with
  | some h => ({ s with lid := { s.lid with acc := none } }).lidAccept h
  | none => s

/-- R359: the millisecond sample of every used input. -/
def execDiscrepancySample (c : LidCh) (s : State) : Outcm :=
  .next (if !s.chanOn c then s
    else
      let s := if c = .h then s.lidSettle else s
      let x := s.lid.chan c
      let used := (List.range 4).filter (fun i => x.siMode i != 0)
      let y := used.foldl LidChan.discStep x
      let s1 := { s with lid := { s.lid.setChan c y with ms := s.lid.ms + (lidChCode c) } }
      (used.filter (fun i => decide (nth 0 y.cnt i ≥ y.h 0x10))).foldl (fun t i => t.lidCause c 0x10 i 0) s1)

/-! ### Meanings: bias monitors -/

/-- Take a sample into a quadrant: run lengths of the level violations, arming, the ramp window and the reference. -/
def Quad.sample (q : Quad) (x : LidChan) (n v i : Nat) (closed deg : Bool) : Quad :=
  let armed := (q.armed || (closed && !deg && decide (v ≥ x.qp n 2))) && closed && !deg
  { q with
    v := v, i := i, armed := armed,
    runVH := if v > x.qp n 0 then q.runVH + 1 else 0,
    runI := if i > x.qp n 4 then q.runI + 1 else 0,
    runVL := if armed && decide (v < x.qp n 2) then q.runVL + 1 else 0,
    hist := if closed then (v :: q.hist).take 65 else [],
    ref := min q.ref v }

/-- R362: does the newest sample differ from the one RAMP_W before it by more than the limit. -/
def Quad.ramp (q : Quad) (x : LidChan) (n : Nat) : Bool :=
  let w := x.b 0x16
  match q.hist[0]?, q.hist[w]? with
  | some a, some b => decide (1000 * ((a - b) + (b - a)) > x.qp n 6 * w)
  | _, _ => false

/-- R360 to R363: a sample of a channel's own monitor becomes ready and is judged. -/
def execBiasMonitorSample (c : LidCh) (q : Fin 4) (v i : Nat) (s : State) : Outcm :=
  if (Instr.biasMonitorSample c q v i).wf then
    let x := s.lid.chan c
    let closed := nth false s.lid.qclosed q
    let deg := s.lid.state == .degraded
    let y := (nth Quad.zero x.quads q).sample x q v i closed deg
    let s1 := { s with lid := s.lid.setChan c { x with quads := x.quads.set q y } }
    let n := x.b 0x15
    let hits := [(0x03, decide (y.runVH ≥ n), v), (0x04, decide (y.runVL ≥ n), v), (0x05, decide (y.runI ≥ n), i),
      (0x06, y.ramp x q, v), (0x07, deg && decide (v > y.ref + x.qp q 8), v)]
    .next (if !s.chanOn c then s
      else if s.lid.state = .off then s1
      else (hits.filter (fun e => e.2.1)).foldl (fun t e => t.lidCause c e.1 q e.2.2) s1)
  else .refused (.illFormed "BIAS_MONITOR_SAMPLE")

/-! ### Meanings: cross-link, parameters, drives -/

/-- R364: the count of exchanges on which a quadrant's two monitors differ. -/
def Lid.compare (l : Lid) (rx : LidCh) : Lid :=
  let x := l.chan rx
  let qs := x.quads.mapIdx (fun n q =>
    let a := nth Quad.zero l.p.quads n
    let b := nth Quad.zero l.h.quads n
    let far := decide ((a.v - b.v) + (b.v - a.v) > x.qp n 0xA) || decide ((a.i - b.i) + (b.i - a.i) > x.qp n 0xC)
    { q with diffs := if far then q.diffs + 1 else 0 })
  l.setChan rx { x with quads := qs }

/-- R369: a channel receives the other's frame, and compares the monitors (R364). -/
def execCrosslinkFrame (rx : LidCh) (s : State) : Outcm :=
  .next (if !s.chanOn .p ∨ !s.chanOn .h then s
    else
      let l := match rx with
        | .p => { s.lid with linkP := true }
        | .h => { s.lid with linkH := true, progFail := false, h := { s.lid.h with st := s.lid.p.st } }
      if l.agree then
        let l' := l.compare rx
        ((List.range 4).filter (fun n => decide ((nth Quad.zero (l'.chan rx).quads n).diffs ≥ 10))).foldl
          (fun t n => t.lidCause rx 0x14 n 0) { s with lid := l' }
      else { s with lid := l })

/-- R369: no valid frame for 3 ms; the channel latches CHANNEL. Channel H waits for the first frame of channel P after its supply
came (R425). -/
def execCrosslinkTimeout (c : LidCh) (s : State) : Outcm :=
  .next (if !s.chanOn c ∨ (c = .h ∧ !s.lid.linkH) then s
    else
      let l := match c with
        | .p => { s.lid with linkP := false }
        | .h => { s.lid with linkH := false }
      ({ s with lid := l }).lidCause c 0x15 0 0)

/-- R369: channel P's program misses its cycle end by 2 ms; channel H latches CHANNEL. -/
def execProgramWatchdog (s : State) : Outcm :=
  .next (if !s.chanOn .h then s
    else ({ s with lid := { s.lid with progFail := true, linkH := false } }).lidCause .h 0x15 0 0)

/-- R356: the channels compare their LCRC; a difference latches PARAM. -/
def execLcrcCompare (s : State) : Outcm :=
  .next (if s.lid.p.crc = s.lid.h.crc ∨ !s.chanOn .p ∨ !s.chanOn .h then s
    else ({ s with lid := { s.lid with agree := false } }).lidCause .h 0x17 0 0)

/-- R366: a drive reads back wrongly for 2 ms; the channel latches OUTPUT. -/
def execDriveReadbackFault (c : LidCh) (s : State) : Outcm :=
  .next (if s.chanOn c then
      let x := s.lid.chan c
      ({ s with lid := s.lid.setChan c { x with outBad := !s.lid.biasOn } }).lidCause c 0x16 0 0
    else s)

/-- R367, R365: a contactor feedback changes; the switches that may close do. -/
def execFeedbackChange (b isOpen : Bool) (s : State) : Outcm :=
  let l := s.lid
  let l' := if b then { l with fbbOpen := isOpen, seenOpenB := l.seenOpenB || isOpen }
    else { l with fbaOpen := isOpen, seenOpenA := l.seenOpenA || isOpen }
  .next (({ s with lid := l' }).lidSwitches)

/-- The fault a feedback shows at its bound, if it misses it (R367). -/
def Lid.fbFault (l : Lid) (b : Bool) : Option Nat :=
  let drive := if b then l.h.drive else l.p.drive
  let isOpen := if b then l.fbbOpen else l.fbaOpen
  let seen := if b then l.seenOpenB else l.seenOpenA
  if drive then (if isOpen then some 0x13 else none)
  else if isOpen then none
  else some (if seen then 0x12 else 0x11)

/-- R367: a feedback misses its FB_MS bound. -/
def execFeedbackTimeout (b : Bool) (s : State) : Outcm :=
  .next (match s.lid.fbFault b with
    | some cause =>
      if (s.lid.chan (if b then .h else .p)).par = [] ∨ !s.chanOn (if b then .h else .p) then s else s.lidCause (if b then .h else .p) cause 0 0
    | none => s)

/-! ### Meanings: LID_RST -/

/-- R371: LID_RST closes and the channels start counting. -/
def execLidRstClose (s : State) : Outcm :=
  .next { s with lid := { s.lid with rstIn := true, heldOver := false,
                                     p := { s.lid.p with hold := 0 }, h := { s.lid.h with hold := 0 } } }

/-- Is a quadrant within R361 with the lower bound disarmed, as a channel sees it. -/
def LidChan.levelsOk (x : LidChan) : Bool :=
  (List.range 4).all (fun n =>
    let q := nth Quad.zero x.quads n
    decide (q.v ≤ x.qp n 0) && decide (q.i ≤ x.qp n 4))

/-- The first bound that a quadrant misses in either channel, lowest quadrant first: the cause of R361 and the quadrant. -/
def Lid.levelMissed (l : Lid) : Option (Nat × Nat) :=
  ((List.range 4).flatMap (fun n =>
    let past := fun (f : Quad → Nat) (o : Nat) =>
      [l.p, l.h].any (fun x => decide (f (nth Quad.zero x.quads n) > x.qp n o))
    [(0x03, past Quad.v 0, n), (0x05, past Quad.i 4, n)])).find? (fun e => e.2.1) |>.map (fun e => (e.1, e.2.2))

/-- The lowest used input for which something holds in either channel. -/
def Lid.inputWhere (l : Lid) (f : LidChan → Nat → Bool) : Nat :=
  ((List.range 4).find? (fun i => [l.p, l.h].any (fun x => x.siMode i != 0 && f x i))).getD 0

/-- The lowest input of some mode that demands. -/
def Lid.demandInput (l : Lid) (mode : Nat) : Nat :=
  l.inputWhere (fun x i => x.siMode i == mode && !(nth false x.filt (2 * i) && nth false x.filt (2 * i + 1)))

/-- The lowest input with a discrepancy. -/
def Lid.discrepantInput (l : Lid) : Nat := l.inputWhere (fun x i => nth 0 x.disc i != 0 || nth 0 x.cnt i != 0)

/-- Does a used input of some mode demand, in either channel. -/
def Lid.demanding (l : Lid) (mode : Nat) : Bool :=
  [l.p, l.h].any (fun x => (List.range 4).any (fun i =>
    x.siMode i == mode && !(nth false x.filt (2 * i) && nth false x.filt (2 * i + 1))))

/-- Is a discrepancy of a used input latched or counting, in either channel. -/
def Lid.discrepant (l : Lid) : Bool :=
  [l.p, l.h].any (fun x => (List.range 4).any (fun i =>
    x.siMode i != 0 && (nth 0 x.disc i != 0 || nth 0 x.cnt i != 0)))

/-- What R372 and R371 say at a release: `none` accepts; otherwise the code of the first unmet condition, where R353 has
one for it, and the input or quadrant concerned. -/
def State.lidRstBlock (s : State) (hP hH : Nat) : Option (Option (Nat × Nat)) :=
  let l := s.lid
  let has := fun c => l.h.causes.contains c || l.p.causes.contains c
  if hP < 100 ∨ hH < 100 ∨ hP > 2000 ∨ hH > 2000 then some none
  else if !l.agree ∨ has 0x17 then some (some (0x17, 0))
  else if has 0x15 ∧ (!l.linkP ∨ !l.linkH) then some (some (0x15, 0))
  else if l.p.outBad ∨ l.h.outBad then some (some (0x16, 0))
  else if !s.v24ok then some (some (0x18, 0))
  else if s.lid.demand.any (fun d => d.1 == l.ms) then some (s.lid.demand.map Prod.snd)
  else if l.demanding 1 then some (some (0x01, l.demandInput 1))
  else if l.demanding 2 then some (some (0x02, l.demandInput 2))
  else if l.discrepant then some (some (0x10, l.discrepantInput))
  else if (!l.p.drive ∧ !l.fbaOpen) ∨ (!l.h.drive ∧ !l.fbbOpen) ∨ l.state = .run then some (some (0x12, 0))
  else if !(l.p.levelsOk && l.h.levelsOk) then some l.levelMissed
  else if s.hk.mode = .boot ∨ s.hk.mode = .load then some (some (0x08, 0))
  else if s.hk.safeFromLoad then some none
  else if l.state = .degraded ∧ s.hk.mode = .safe ∧ l.h.b 0x14 = 1 then some none
  else none

/-- A rejected reset: counted, an entry, and nothing else but FB_WELDED where a feedback is found closed (R367, R372). -/
def State.lidReject (s : State) (why : Option (Nat × Nat)) (h : Nat) : State :=
  let d := s.draw
  let s1 := match why with
    | some c => s.lidRefuse c.1 c.2 h
    | none => d.2.lidRefuse (d.1 % 256) 0 h
  if why = some (0x12, 0) ∧ !s.lid.biasOn then s1.lidCause .h 0x12 0 0 else s1

/-- R371, R372: LID_RST is released; a hold that reached 5,001 ms is ignored. A reset that R372 allows is accepted when its
millisecond has passed without a demand (R374). -/
def execLidRstRelease (hP hH : Nat) (s : State) : Outcm :=
  .next (if !s.lid.rstIn then s
    else
      let held : Lid := { s.lid with p := { s.lid.p with hold := hP }, h := { s.lid.h with hold := hH } }
      let s1 := { s with lid := { held with rstIn := false, heldOver := false } }
      if s.lid.heldOver then s1
      else match s1.lidRstBlock hP hH with
        | none => { s1 with lid := { s1.lid with acc := some hH } }
        | some why => s1.lidReject why hH)

/-- R371: a hold that reaches 5,001 ms latches RESET_FAULT at once; the release is ignored. -/
def execResetHoldFault (c : LidCh) (s : State) : Outcm :=
  .next (if s.lid.rstIn ∧ s.chanOn c then ({ s with lid := { s.lid with heldOver := true } }).lidCause c 0x19 0 0 else s)

/-! ### Meanings: the two registers that reach the Lid -/

/-- LID_CMD.DEGRADE: from RUN to DEGRADED; elsewhere no effect, answered OK (R354, R374). -/
def State.lidCmd (s : State) (data : W32) : Rep :=
  s.guarded false (s.lockHit Reg.LID_CMD data) .writeCfg false (if bitOf data 0 then s.lidDegrade .h else s)

def execDegrade (lane : Lane) (s : State) : Outcm :=
  .next (s.access lane Reg.LID_CMD (fun t => t.lidCmd 1))

/-- LID_QEN: a cleared bit opens its switch, a set bit permits it (R365). -/
def State.qenWrite (s : State) (data : W32) (be : BitVec 4) : Rep :=
  let v := mergeBE (s.reg Reg.LID_QEN) data be
  let s1 := s.storeFields Reg.LID_QEN v
  let shut := (List.range 4).map (fun q => !bitOf v q)
  let fix := fun (x : LidChan) => { x with quads := x.quads.zipWith (fun q n => if n then q.open else q) shut }
  let closed := (List.range 4).map (fun q => nth false s.lid.qclosed q && bitOf v q)
  let s2 := { s1 with lid := { s1.lid with qclosed := closed, p := fix s1.lid.p, h := fix s1.lid.h } }
  s.guarded false (s.lockHit Reg.LID_QEN v) .writeCfg false s2.lidSwitches

def execQenWrite (lane : Lane) (data : W32) (be : BitVec 4) (s : State) : Outcm :=
  .next (s.accessW lane Reg.LID_QEN be (fun t => t.qenWrite data be))

end Sys2Proof.Machine
end

