-- ==== Sys2Proof/Machine/Errors.lean ====
section
/-! DEFINITION. Errors and recovery (R332 to R349): the scrubber, votes of triplicated words, repair of table words and the
check-bit test, with the meanings of their commands. -/

namespace Sys2Proof.Machine

/-! ### Scrubber and votes -/

/-- The memories that a die's scrubber walks (R332). -/
def scrubbed (d : Die) : List Nat := (memsOf d).filter (fun m => m != 0x10 && m != 0x04 && m != 0x02)

/-- What a word holds, a record's or a block's mark being poison: it goes with the record. -/
def State.wordKind (s : State) (d : Die) (mem idx : Nat) : Nat :=
  if s.recHeld d mem idx ∧ (s.rawAt d mem idx).isNone then (if nth false (s.recWords d mem) idx then 3 else 0)
  else s.badKind d mem idx

/-- The scrubber acts on a word (R335): what it finds beside what the word is known to hold. A word already poisoned stays; an
uncorrectable one causes no loss and no switch-over until a functional read meets it. -/
def State.scrubWord (s : State) (d : Die) (mem idx found : Nat) : State :=
  let k := s.wordKind d mem idx
  if k = 3 then s
  else
    match max found k with
    | 0 => s
    | 1 => s.correct d mem idx
    | _ =>
      let t := if s.recHeld d mem idx then (s.damage d mem idx).memClean d mem idx else s.poison d mem idx
      t.countUncorr d mem idx 0 [4]

/-- One more completed pass of a memory; the count wraps. -/
def State.scrubPass (s : State) (d : Die) (mem : Nat) : State :=
  let k := instKey (errReg d Reg.ERR_SCRUB_CFG) mem
  s.setRegAt k (BitVec.ofNat 32 ((bits (s.regAt k) 31 16 + 1) % 65536 * 65536 + bits (s.regAt k) 15 0))

/-- Does a die hold pointer state whose uncorrectable word is fatal: the FED's retention and group FIFO pointers, the HBD's FSEQ
and replay pointers (R348)? R332 gives it no memory identifier; MEM 0x00 names it here. DESIGN CHOICE of log entry 51. -/
def pointerState (d : Die) (mem : Nat) : Bool := mem == 0 && (d == .fed || d == .hbd)

/-- R335: a scrub slot, or the read of a word of pointer state that finds it uncorrectable (R348). -/
def execScrubRead (die : Die) (mem : BitVec 8) (index : Nat) (lastOfPass : Bool) (found : Fin 3) (s : State) : Outcm :=
  if (Instr.scrubRead die mem index lastOfPass found).wf then
    .next (if pointerState die mem.toNat then (if found.val = 2 ∧ s.aclkRuns then s.fatalAt die 3 0 index else s)
      else if !(scrubbed die).contains mem.toNat ∨ !bitOf (s.regAt (errReg die Reg.ERR_SCRUB_CFG)) 0 ∨ !s.aclkRuns then s
      else
        let t := s.scrubWord die mem.toNat index found.val
        if lastOfPass then t.scrubPass die mem.toNat else t)
  else .refused (.illFormed "SCRUB_READ")

/-- The vote finds a copy of a word that differs: it is rewritten and counted (R339); the safety die has no ERR block. -/
def State.voteFix (s : State) (d : Die) (word : Nat) : State :=
  let t := { s with err := { s.err with votes := s.err.votes.filter (fun v => !(v.die == d && v.word == word)) } }
  if d = .sfd then t
  else (t.countAt (errReg d Reg.ERR_VOTE_CNT) 0xFFFFFFFF 1).eventAt (errReg d Reg.ERR_EVT) [2]

/-- The channel of the Lid whose parameters a triplicated word of the safety die holds: the upper numbers are channel H's.
DESIGN CHOICE of log entry 51. -/
def voteChan (word : Nat) : LidCh := if word < 128 then .p else .h

/-- The memory that a triplicated word belongs to: the upper words of the HBD are the replay buffer's block descriptors and header
copies, MEM 0x02 (R332); the others belong to none. DESIGN CHOICE of log entry 51. -/
def voteMem (d : Die) (word : Nat) : Nat := if d = .hbd ∧ 128 ≤ word then 2 else 0

/-- A lost vote (R339): cause 2 in a CD, a fatal error in the HBD or the FED, PARAM in the Lid (R356). -/
def State.voteLost (s : State) (d : Die) (word : Nat) : State :=
  let t := { s with err := { s.err with votes := s.err.votes.filter (fun v => !(v.die == d && v.word == word)) } }
  match d with
  | .cda => (t.errEntry d 5 0 word 0).cdCause d 2
  | .cdb => (t.errEntry d 5 0 word 0).cdCause d 2
  | .sfd =>
    let c := voteChan word
    if t.chanOn c then ({ t with lid := { t.lid with agree := false } }).lidCause c 0x17 0 0 else t
  | _ => t.fatalAt d 2 (voteMem d word) word

/-- R339: a copy that differs is rewritten, or no two copies agree. -/
def execVoteRewrite (die : Die) (word : BitVec 8) (lost : Bool) (s : State) : Outcm :=
  .next (if lost then s.voteLost die word.toNat else s.voteFix die word.toNat)

/-! ### Repair -/

/-- The code word of a table window address that a die stores: its memory and index; `none` beyond the table's end (R338,
R417). -/
def tableWord (addr : Nat) : Option (Nat × Nat) :=
  let o := addr % 0x100000
  match addr / 0x100000 with
  | 8 => if o < 0x8000 then some (0x13, chanIdx (o / 8)) else none
  | 9 => if o < 0x20000 then some (0x23, qmapIdx (o / 4)) else none
  | 10 => if o < 0x1000 then some (0x24, o / 8) else none
  | 11 => if o < 0x4400 then some (0x24, regionIdx (o / 4)) else none
  | 12 =>
    if o < 0x40 then none
    else if o < 0x8040 then some (0x13, chanIdx ((o - 0x40) / 8))
    else if o < 0x9040 then some (0x13, adcIdx ((o - 0x8040) / 8))
    else if o < 0x9080 then some (0x13, xoIdx ((o - 0x9040) / 8))
    else if o < 0x9180 then some (0x13, laneIdx ((o - 0x9080) / 8))
    else if o < 0x91C0 then some (0x13, hopIdx ((o - 0x9180) / 8))
    else none
  | _ => none

/-- The windows whose addresses a die's ERR_REPAIR accepts (R338). -/
def repairs (d : Die) (addr : Nat) : Bool :=
  let w := addr / 0x100000
  match d with
  | .fed => w == 8 || w == 12
  | .cda => w == 9 || w == 10 || w == 11
  | .cdb => w == 9 || w == 10 || w == 11
  | _ => false

/-- A write of ERR_REPAIR of a die (R338). -/
def State.repairWrite (s : State) (d : Die) (data : W32) (be : BitVec 4) : Rep :=
  let k := errReg d Reg.ERR_REPAIR
  let v := mergeBE (s.regAt k) data be
  let go := bitOf v 31
  let s1 := s.storeFields k v
  let eff := match (if go then tableWord (bits v 23 0) else none) with
    | some x => (s1.setMemData d x.1 x.2 0).memClean d x.1 x.2
    | none => s1
  s.guarded (go && !repairs d (bits v 23 0)) (s.lockHit k v) (if go then .tableWrite else .writeCfg) false eff

/-- R338: ERR_REPAIR. -/
def execErrRepair (lane : Lane) (die : Die) (addr : BitVec 24) (s : State) : Outcm :=
  if (Instr.errRepair lane die addr).wf then
    .next (s.access lane (errReg die Reg.ERR_REPAIR) (fun t =>
      t.repairWrite die (BitVec.ofNat 32 (0x80000000 + addr.toNat)) 0xF))
  else .refused (.illFormed "ERR_REPAIR")

/-! ### The check-bit test -/

/-- The word index, or the selector of VOTE_FLIP. -/
def State.taddr (s : State) (d : Die) : Nat := bits (s.regAt (errReg d Reg.ERR_ECC_TADDR)) 23 0

/-- Has a word of a memory been written since the memory was zeroed (R333): of a privileged queue by its entries, of the memories
of the data path where the die's has run, since the places of their records are not stated. -/
def State.written (s : State) (d : Die) (mem idx : Nat) : Bool :=
  if mem = 0x03 then
    let q := idx / 64
    decide (Sparse.get 0 s.err.heads q + (if q < 9 then (s.respLanes q).length else (s.pqOf q).length) > idx % 64)
  else s.err.ran.contains d

/-- The valid code word that a word holds, or held before a raw write, where the model knows it: an addressed word, an entry of an
event queue, or zero where nothing has been written (R333). -/
def State.codeAt (s : State) (d : Die) (mem idx : Nat) : Option (W64 × BitVec 8) :=
  let ofData := fun (v : W64) => some (v, Config.checkBits v)
  match s.rawAt d mem idx with
  | some r => r.base
  | none =>
    if s.wordKind d mem idx ≠ 0 then none
    else if heldByWord mem ∨ (mem = 0x03 ∧ (s.entryAt idx).isSome) then ofData (s.memData d mem idx)
    else if s.written d mem idx then none
    else ofData 0

/-- A word of the identity region, which nothing writes after manufacture (R56, R395): raw access does not either, DEDUCED in
log entry 190. -/
def identityWord (mem idx : Nat) : Bool := mem == 4 && decide (0x20000 / 8 ≤ idx ∧ idx < 0x30000 / 8)

/-- OP 1: the word takes data and check bits as they stand (R340). -/
def State.rawWrite (s : State) (d : Die) (mem idx : Nat) (check : BitVec 8) : State :=
  if identityWord mem idx then s else
  let data := (s.regAt (errReg d Reg.ERR_ECC_TDATA_HI)).append (s.regAt (errReg d Reg.ERR_ECC_TDATA_LO))
  let r : RawWord := ⟨d, mem, idx, data, check, s.codeAt d mem idx⟩
  let t := s.memClean d mem idx
  let u := { t with err := { t.err with raw := t.err.raw ++ [r] } }
  match r.kind with
  | 0 => u.setMemData d mem idx data
  | 1 => u.setMemData d mem idx r.value
  | _ => u.damage d mem idx

/-- OP 2: what the read finds, data and check bits (R340). A clean word whose data the model does not hold shows open data, which
then stay with it; of an uncorrectable one the stored bits are open. -/
def State.rawRead (s : State) (d : Die) (mem idx : Nat) : W64 × BitVec 8 × State :=
  match s.rawAt d mem idx, s.codeAt d mem idx with
  | some r, _ => (r.data, r.check, s)
  | none, some c => (c.1, c.2, s)
  | none, none =>
    let v := Config.free64 s.free
    if s.wordKind d mem idx = 0 then
      let c := Config.checkBits v
      let t := { s with free := s.free + 1 }
      (v, c, { t with err := { t.err with raw := t.err.raw ++ [⟨d, mem, idx, v, c, some (v, c)⟩] } })
    else (v, (Config.free32 (s.free + 1)).extractLsb' 0 8, { s with free := s.free + 2 })

/-- OP 3: one bit of one copy of a triplicated word is inverted; an earlier differing copy of it has been rewritten. -/
def State.flipCopy (s : State) (d : Die) : State :=
  let a := s.taddr d
  let word := a / 256 % 256
  let t := if s.err.votes.any (fun v => v.die == d && v.word == word) then s.voteFix d word else s
  { t with err := { t.err with votes := t.err.votes ++ [Vote.mk d word (a / 32 % 4) (BitVec.ofNat 32 (2 ^ (a % 32)))] } }

/-- A write of ERR_ECC_TEST of a die (R340). -/
def State.eccTestWrite (s : State) (d : Die) (data : W32) (be : BitVec 4) : Rep :=
  let k := errReg d Reg.ERR_ECC_TEST
  let v := mergeBE (s.regAt k) data be
  let op := bits v 3 0
  let mem := bits v 15 8
  let bad := decide (op > 3) || ((op == 1 || op == 2) && !(memsOf d).contains mem) || (op == 3 && s.taddr d / 32 % 4 == 3)
  let s1 := s.storeFields k v
  let eff := match op with
    | 1 => s1.rawWrite d mem (s.taddr d) (v.extractLsb' 16 8)
    | 2 =>
      let r := s1.rawRead d mem (s.taddr d)
      ((r.2.2.setRegAt k (putBits (r.2.2.regAt k) 23 16 r.2.1.toNat)).setRegAt (errReg d Reg.ERR_ECC_TDATA_LO)
        (halfOf r.1 false)).setRegAt (errReg d Reg.ERR_ECC_TDATA_HI) (halfOf r.1 true)
    | 3 => s1.flipCopy d
    | _ => s1
  s.guarded bad (s.lockHit k v) .testFn false eff

/-- The word of ERR_ECC_TEST with an operation. -/
def eccWord (data : W32) (op : Nat) : W32 := putBits data 3 0 op

/-- R340: OP WRITE_RAW. -/
def execWriteRaw (lane : Lane) (die : Die) (data : W32) (s : State) : Outcm :=
  if (Instr.writeRaw lane die data).wf then
    .next (s.access lane (errReg die Reg.ERR_ECC_TEST) (fun t => t.eccTestWrite die (eccWord data 1) 0xF))
  else .refused (.illFormed "WRITE_RAW")

/-- R340: OP READ_RAW. -/
def execReadRaw (lane : Lane) (die : Die) (data : W32) (s : State) : Outcm :=
  if (Instr.readRaw lane die data).wf then
    .next (s.access lane (errReg die Reg.ERR_ECC_TEST) (fun t => t.eccTestWrite die (eccWord data 2) 0xF))
  else .refused (.illFormed "READ_RAW")

/-- R340: OP VOTE_FLIP. -/
def execVoteFlip (lane : Lane) (die : Die) (data : W32) (s : State) : Outcm :=
  if (Instr.voteFlip lane die data).wf then
    .next (s.access lane (errReg die Reg.ERR_ECC_TEST) (fun t => t.eccTestWrite die (eccWord data 3) 0xF))
  else .refused (.illFormed "VOTE_FLIP")

end Sys2Proof.Machine
end

