-- ==== Sys2Proof/Machine/Modes.lean ====
section
/-! DEFINITION. Modes, start-up and reset (R34 to R55) without the LOAD sequence: supplies, RST_N, mode requests and their
completion, runs and spills, and the markers of lane 0 (R304), with the meanings of their commands. -/

namespace Sys2Proof.Machine

/-! ### What a reset clears -/

/-- Is a key one of the HK registers that hold, in BOOT, the value they had when the last LOAD ended (R416). -/
def hkHeld (k : Nat) : Bool :=
  let a := k % 0x1000000
  decide (0x40 ≤ a ∧ a < 0xC0) && a != 0x5C

/-- Is a key one of HK_TEMP_0 to HK_TEMP_4 or HK_VMON, which read their reset values in BOOT (R416). -/
def hkDown (k : Nat) : Bool :=
  let a := k % 0x1000000
  decide (0xC0 ≤ a ∧ a < 0xD4) || decide (0xF0 ≤ a ∧ a < 0x100)

/-- LOAD has ended: what the HK registers hold now is what BOOT shows (R416), the fill of the selected queue included. -/
def State.keepHk (s : State) : State :=
  let t := s.setReg Reg.HK_PQ_STS s.pqSts
  { t with hk := { t.hk with
    loadRegs := t.regs.filter (fun e => hkHeld e.1), loadSts := t.sts.filter (fun e => hkHeld e.1) } }

/-- The HK registers as the AON domain serves them in BOOT (R416). -/
def State.bootHk (s : State) : State :=
  let s1 := s.resetRegs (fun k => hkHeld k || hkDown k)
  let s2 := s.hk.loadRegs.foldl (fun t e => t.setRegAt e.1 e.2) s1
  { s2 with sts := s.hk.loadSts.foldl (fun m e => Sparse.put Sts.zero e.1 e.2 m) s2.sts }

/-- An entry of the privileged queue ATT (R392) for a report body. -/
def attEntry (ty : Nat) (body : List Octet) : W64 :=
  rec64 [(ty, 4), (0, 12), (leNat ((body.drop 0x0C).take 2), 16), (leNat ((body.drop 0x20).take 4), 32)]

/-- Entry to LOAD or BOOT during signing abandons the request (R393). -/
def State.attAbort (s : State) : State :=
  match s.att.busy with
  | some body => ({ s with att := { s.att with busy := none } }).event Reg.ATT_EVT [1] |>.pqPush 15 (attEntry 2 body)
  | none => s

/-- A commit that is stopped leaves a set that fails R79 (R81). -/
def Nvd.stop (v : Nvd) : Nvd :=
  { v with
    busy := none, verA := false, verB := false, snap := none, locksOn := false, lockWhole := [],
    torn := v.torn || (match v.busy with
      | some (.commit, _) => true
      | _ => false) }

/-- Everything that is held in reset in BOOT and LOAD: all but the AON domain, the Lid, the registers, the time and the
event queues. -/
def State.unitsReset (s : State) : State :=
  let t := s.attAbort
  { t with
    hk := { t.hk with
      stuck := false, minimalLink := false, safeFromTest := false, safeFromLoad := false, safeDrained := true,
      loadResult := .none, heldSpillEnd := none, spillSf := none, spillEntry := false },
    run := .reset, nvd := t.nvd.stop, cal := .zero, fe := .reset, tdc := .reset, wf := .reset, fed := .reset, cda := .reset,
    cdb := .reset, ring := .reset, lanes := [], ulp := .reset, resp := [], rd := .reset, age := .reset, att := .reset,
    mbx := .reset, tap := .reset, err := { t.err with votes := [] } }

/-- What TEST alone uses stops with it: TB_INC is nominal and DT follows TN again (R254, R255), no pattern is set and no
checker is in SYNC (R284). -/
def State.stopTest (s : State) : State :=
  let t := s.resetRegs (fun k => k == Reg.TB_INC_LO || k == Reg.TB_INC_HI)
  let u := if s.hk.mode = .test then t.loadTime t.tb.tn else t
  (List.range 32).foldl (fun (v : State) n =>
    let k := instKey Reg.LN_PRBS_CFG n
    (v.setRegAt k (putBits (putBits (v.regAt k) 18 16 0) 14 12 0)).setLane n { v.lane n with prbsSync := false, prbs := .off }) u

/-- The module enters BOOT from any mode (R36, R54, R373). -/
def State.enterBoot (s : State) (cause : Nat) : State := ((s.stopTest.unitsReset.modeDone .boot cause).lidOff).bootHk

/-- The module enters LOAD (R36, R258, R373): the time base is FREERUN, TN and DT stand until L10 loads them. -/
def State.enterLoad (s : State) : State :=
  let t := s.injAbort.tbGo .freerun 6
  let u := { t with tb := { Tb.reset with tn := t.tb.tn, sec := t.tb.sec, ns := t.tb.ns, frac := t.tb.frac } }
  (u.stopTest.unitsReset.modeDone .load s.hk.tcause).lidOff

/-! ### Supplies and RST_N -/

/-- R36: 12 V comes within limits; XO and AON clock start. -/
def execPowerOn (rstN : Bool) (s : State) : Outcm :=
  .next (if s.hk.v12 then s
    else
      let s1 := { s with hk := { Hk.reset with v12 := true, v24 := s.hk.v24, rstN := rstN } }
      s1.lidOff.setReg Reg.HK_XO_STS 3)

/-- R425, R373: 12 V is lost. What stays: the NVD, and while 24 V stays channel H with the latched causes. -/
def execPowerLoss12V (s : State) : Outcm :=
  .next (if !s.hk.v12 then s
    else
      let s1 := if s.hk.v24 then s.lidCause .h 0x15 0 0 else s
      let l := s1.lid
      let lost : Lid := { Lid.reset with
        p := { LidChan.reset with raw := l.p.raw }, h := { LidChan.reset with raw := l.h.raw },
        fbaOpen := l.fbaOpen, fbbOpen := l.fbbOpen, rstIn := l.rstIn }
      let kept : Lid := { l with
        p := { LidChan.reset with raw := l.p.raw, causes := l.p.causes }, acc := none, agree := false, linkP := false, linkH := false }
      let lidKey := fun (k : Nat) => k % 0x1000000 / 0x100000 == 5
      { State.reset with
        pending := s.pending, out := s.out, free := s1.free, hk := { Hk.reset with v24 := s.hk.v24 },
        regs := if s.hk.v24 then s1.regs.filter (fun e => lidKey e.1) else [],
        sts := if s.hk.v24 then s1.sts.filter (fun e => lidKey e.1) else [],
        lid := if s.hk.v24 then kept else lost,
        nvd := { Nvd.reset with words := s.nvd.words, torn := s.nvd.stop.torn },
        err := { Err.reset with
          bad := s.err.bad.filter (fun b => b.mem == 4), raw := s.err.raw.filter (fun r => r.mem == 4) } })

/-- R36, R52, R54: RST_N is low for 10 µs. -/
def execRstNLow (s : State) : Outcm :=
  .next (if !s.hk.v12 ∨ !s.hk.rstN then s
    else (({ s with hk := { s.hk with rstN := false } }).enterBoot 1).setFld Reg.HK_RST_STS 23 0 0)

/-- R52, R53: RST_N rises after `lowMs` ms; minimal mode ends and LOAD is to follow. -/
def execRstNRise (lowMs : Nat) (s : State) : Outcm :=
  .next (if !s.hk.v12 ∨ s.hk.rstN then s
    else
      let t := if s.hk.stuck then { s with lanes := [], resp := [] } else s
      ({ t with hk := { t.hk with rstN := true, stuck := false, minimalLink := false } }).setFld Reg.HK_RST_STS 23 0
        (min 0xFFFFFF lowMs))

/-- R53: RST_N has been low for 10 s. -/
def execResetStuck (s : State) : Outcm :=
  .next (if !s.hk.v12 ∨ s.hk.rstN ∨ s.hk.stuck ∨ s.hk.mode ≠ .boot then s
    else
      let t := { s with hk := { s.hk with stuck := true, minimalLink := true, cause := 0xB } }
      ((t.event Reg.HK_MODE_EVT [2]).setFld Reg.HK_RST_STS 23 0 10000).startBringUp 0)

/-- R36: RST_N has been high for 1 ms with supplies good. -/
def execRstNHigh1ms (s : State) : Outcm :=
  .next (if s.hk.v12 ∧ s.hk.rstN ∧ s.hk.mode = .boot ∧ !s.hk.minimalLink ∧ s.hk.target = none then
      s.modeGo .load (if s.hk.cause = 0 then 0 else 1)
    else s)

/-! ### Mode requests -/

/-- Is a fatal-error sticky bit set (R348). -/
def State.fatalSet (s : State) : Bool :=
  [Die.fed, Die.cda, Die.cdb, Die.hbd].any (fun d => (s.stsAt (errReg d Reg.ERR_FATAL)).set != 0)

/-- Where SAFE_EXIT leads (R49). -/
def State.safeExitTo (s : State) : Mode :=
  if (s.hk.cause = 6 ∨ s.hk.cause = 2) ∧ !s.fatalSet ∧ !s.hk.safeFromTest then .simmer else .load

/-- The preconditions of an accepted request (R49, R51, R79, R275). -/
def State.reqWaits (s : State) (code : Nat) : Bool :=
  match code with
  | 4 =>
    !(s.tb.state == .locked || s.tb.state == .holdover) || !s.bit Reg.HK_CFG_INFO 10 ||
      (s.role != .limb && !((s.simmerLane.map s.laneUp).getD false))
  | 1 => s.hk.mode == .safe && !s.hk.safeDrained
  | 8 => !s.hk.safeDrained || s.lid.state == .fault
  | _ => false

/-- RUN entry begins (R36, R213): a held SLC_CFG acts, and the lanes resume. -/
def State.goRun (s : State) (cause : Nat) : State :=
  ((s.latch [Reg.SLC_CFG]).fullBias.checkBegins.modeGo .run cause).unparkAll

/-- The drain of a run begins with the present slice as Sl (R45). -/
def State.goDrain (s : State) (cause : Nat) : State := (s.endRun 2 cause).modeGo .drain cause

/-- An accepted request starts its transition. -/
def State.startReq (s : State) (code : Nat) : State :=
  let t := match code with
    | 1 => s.modeGo .load 2
    | 2 => s.modeGo .simmer 2
    | 3 => (s.fullBias.checkBegins.modeGo .calib 2).unparkAll
    | 4 => s.goRun 2
    | 5 => s.goDrain 2
    | 6 => s.enterSafe 2
    | 7 => (s.fullBias.modeGo .test 2).unparkAll
    | _ => s.modeGo s.safeExitTo 2
  t.setFld Reg.HK_MODE_REQ 3 0 code

/-- A mode request that R38 or R50 rejects is counted. -/
def Rep.modeReject (s : State) : Rep := ⟨Stat.stateReject, 0, s.count Reg.HK_MODE_REJ_CNT 1⟩

/-- A write of a code to HK_MODE_REQ (R38, R49, R50, R51). -/
def State.modeReq (s : State) (code : Nat) : Rep :=
  if code = 0 then .done s
  else if code > 8 then .no Stat.badValue s
  else
    match s.hk.target with
    | some t =>
      if code ≤ 7 ∧ modeOfCode code = t then .done s
      else if code = 6 then
        (if reqAnswer 6 s.hk.mode = .reject then .modeReject s
         else if s.hk.mode = .safe then .done (s.enterSafe 2)
         else .done ((s.enterSafe 2).setFld Reg.HK_MODE_REQ 3 0 6))
      else .modeReject s
    | none =>
      match reqAnswer code s.hk.mode with
      | .reject => .modeReject s
      | .already => .done s
      | .accept => if s.reqWaits code then .no Stat.notReady s else .done (s.startReq code)

/-- A write of HK_MODE_REQ: a code in a byte that is not enabled is not written (R401). -/
def State.modeReqWrite (s : State) (data : W32) (be : BitVec 4) : Rep :=
  s.modeReq (if be.getLsbD 0 then bits data 3 0 else 0)

/-- R36: REQ = LOAD. -/
def execReqLoad (lane : Lane) (s : State) : Outcm :=
  .next (s.access lane Reg.HK_MODE_REQ (fun t => t.modeReqWrite 1 0xF))

/-- R36: REQ = SIMMER. -/
def execReqSimmer (lane : Lane) (s : State) : Outcm :=
  .next (s.access lane Reg.HK_MODE_REQ (fun t => t.modeReqWrite 2 0xF))

/-- R36: REQ = CALIB. -/
def execReqCalib (lane : Lane) (s : State) : Outcm :=
  .next (s.access lane Reg.HK_MODE_REQ (fun t => t.modeReqWrite 3 0xF))

/-- R36: REQ = RUN. -/
def execReqRun (lane : Lane) (s : State) : Outcm :=
  .next (s.access lane Reg.HK_MODE_REQ (fun t => t.modeReqWrite 4 0xF))

/-- R45: REQ = DRAIN, at a wall tick. -/
def execReqDrain (lane : Lane) (now : Nat) (s : State) : Outcm :=
  .next ((s.advanceTo now).access lane Reg.HK_MODE_REQ (fun t => t.modeReqWrite 5 0xF))

/-- R48: REQ = SAFE, at a wall tick. -/
def execReqSafe (lane : Lane) (now : Nat) (s : State) : Outcm :=
  .next ((s.advanceTo now).access lane Reg.HK_MODE_REQ (fun t => t.modeReqWrite 6 0xF))

/-- R36: REQ = TEST. -/
def execReqTest (lane : Lane) (s : State) : Outcm :=
  .next (s.access lane Reg.HK_MODE_REQ (fun t => t.modeReqWrite 7 0xF))

/-- R49: SAFE_EXIT. -/
def execSafeExit (lane : Lane) (s : State) : Outcm :=
  .next (s.access lane Reg.HK_MODE_REQ (fun t => t.modeReqWrite 8 0xF))

/-! ### Entering and leaving modes -/

/-- Samplers, ADCs and the Whisk stop, and no run stands (R36, R48, R140). -/
def State.stopData (s : State) : State :=
  let t := s.stopSamplers
  let u := t.setCd { t.cd with whisk := { t.cd.whisk with on := false } }
  { u with run := { u.run with active := false }, fe := { u.fe with groupEff := u.groupReg, groupPend := none } }

/-- The tasks of CALIB and TEST end with the mode (R101, R121, R124, R176). -/
def State.stopTasks (s : State) : State :=
  let t := s.injAbort.abortFill
  { t with ring := { t.ring with task := none } }

/-- Leaving TEST for SAFE: DT follows TN by TB_INC's nominal value again (R254), the lanes under test bring themselves up blind,
every TAP controller is reset (R437). -/
def State.leaveTest (s : State) : State :=
  let t := s.stopTest
  let u := (List.range 32).foldl (fun (w : State) n => if (w.lane n).st = 6 then w.startBringUp n else w) t
  let v := u.tapReleases
  { v with tap := { v.tap with ir := [] } }

/-- Lanes that have been resuming since the transition began: UP, or at blind bring-up where the resume failed (R275). -/
def State.finishResume (s : State) (failed : List Nat) : State :=
  (List.range 32).foldl (fun (t : State) n =>
    let l := t.lane n
    if (l.st = 2 ∨ l.st = 4) ∧ l.resume ∧ !l.los ∧ !l.lol then
      match (if failed.contains n then none else l.stored) with
      | some x => t.laneReachesUp n { l with rate := x.1, ctle := x.2.1, phase := x.2.2.1, slip := x.2.2.2 }
      | none => t.startBringUp n
    else t) s

/-- Does the ring check of an entry to RUN or CALIB pass (R169). -/
def State.checkPasses (s : State) : Bool :=
  match s.role with
  | .solo => true
  | .limb => s.ring.aligned
  | .head => s.ring.aligned && s.ring.agree == 16 && decide (s.ring.loop ≤ (s.hop 0).2 + 1 ∧ (s.hop 0).2 ≤ s.ring.loop + 1)

/-- The ring check of an entry to RUN: a pass ends a fault, a failure is one (R169, R175). A SOLO module has none. -/
def State.ringCheck (s : State) : State :=
  if s.role = .solo then s
  else if s.checkPasses then { s with ring := { s.ring with fault := false, bad := 0 } } else s.ringFails false

/-- The ring check of an entry to CALIB: one that passes ends a fault, one that fails is none (R36, R175). -/
def State.calibCheck (s : State) : State := if s.checkPasses then s.ringCheck else s

/-- Extra lanes are parked at the end of LOAD (R276), with the settings that a lane stored when it reached UP; LOAD began with none
stored, so one that has not reached UP is parked untrained. -/
def State.parkLoaded (s : State) : State := s.parkExtra

/-- CALIB is reached (R36, R150). -/
def State.toCalib (s : State) (env : EntryEnv) : State :=
  let t := (((s.advanceTo env.now).finishResume env.failed).calibCheck.markRan .fed).markRan s.activeDie |>.modeDone .calib s.hk.tcause
  t.startSamplers.whiskStart (t.tb.tn + 1)

/-- TEST is reached. -/
def State.toTest (s : State) (env : EntryEnv) : State :=
  (((s.advanceTo env.now).finishResume env.failed).modeDone .test s.hk.tcause).startSamplers.tapEnters

/-- SIMMER is reached from LOAD, CALIB or SAFE. -/
def State.toSimmer (s : State) (env : EntryEnv) : State :=
  let t := s.advanceTo env.now
  let u := match t.hk.mode with
    | .load => t.parkLoaded
    | .calib => t.stopTasks.stopData.parkExtra
    | _ => t.parkExtra
  (u.modeDone .simmer s.hk.tcause).firstDreq

/-- SAFE is reached: within 10 µs of its trigger, with the drain still to end where a run stands (R48), or at the end of
LOAD (R42). A Lid in RUN goes to DEGRADED where its parameters say so (R354). -/
def State.toSafe (s : State) (env : EntryEnv) : State :=
  let t := s.advanceTo env.now
  let u := if t.hk.mode = .load then
      let v := t.parkLoaded.unparkAll
      { v with hk := { v.hk with safeFromLoad := true, safeDrained := true } }
    else
      let v := if t.hk.mode = .test then t.stopTasks.leaveTest else t.stopTasks
      let w := v.unparkAll
      if w.hk.safeDrained then w.stopData else w
  let x := (u.modeDone .safe s.hk.tcause).firstDreq
  if s.hk.tcause ≠ 6 ∧ x.lid.h.b 0x14 = 1 then x.lidDegrade .h else x

/-! ### Runs -/

/-- The first slice whose first tick is not before a tick (R44). -/
def State.nextSlice (s : State) (tick : Nat) : Nat := ((tick + 2 ^ s.k - 1) / 2 ^ s.k) % 2 ^ 32

/-- The state of a fresh run that begins at slice `sf` (R43, R44). -/
def State.openRun (s : State) (sf named : Nat) : State :=
  let c := s.cd
  let s1 := s.setCd { c with
    barriers := [], placed := [], bidx := [], begun := [], past := [], handed := none, ladle := [], jobs := [], released := [],
    opened := [], closed := [], lastClosed := none, nextEng := 0 }
  let s2 := (((s1.setOther { s1.other with ckpt := none, barriers := [] }).markRan .fed).markRan .hbd).markRan s1.activeDie
  let fresh := (s2.ulp.peers.map (fun (e : Nat × Peer) => (e.1, { e.2 with
    hdr := [], gaps := [], lastHit := none, badPend := none, doneSlice := none, log := [], sack := none, kept := true,
    late := 0 }))).filter (fun e => decide (e.2 ≠ Peer.empty))
  { s2 with
    ulp := { s2.ulp with peers := fresh },
    run := { active := true, sf := sf, named := named, sl := none, nextOpen := sf, opened := false, closedMark := false,
             endMode := 0, endCause := 0, lastEmitted := none },
    rd := { s2.rd with
      crcs := [], hdrs := [], cut := none, overlap := false, peerFrom := none, flight := none, tail := (0, 0), again := 0,
      short := none, taken := none, openS2 := none } }

/-- Records that travel alone ahead of the first frame. -/
def State.aheadOf (s : State) (gs : List LGroup) : State := s.setCd { s.cd with ladle := s.cd.ladle ++ gs }

/-- Does a SPILL_END that names slice `n` have no effect now (R46). -/
def State.spillMisses (s : State) (n : Nat) : Bool :=
  s.hk.mode != .run || s.hk.target != none || decide (sdiff n s.run.named < 0) || decide (sdiff n s.curSlice > 2 ^ 20)

/-- A SPILL_END in time: Sl is the slice it names, never before Sf (R45). -/
def State.spillInTime (s : State) (n : Nat) : State :=
  let sl := if sdiff n s.run.sf < 0 then s.run.sf else n
  let t := { s with run := { s.run with sl := some sl, endMode := 2, endCause := 4 } }
  (t.dropSyncs sl).modeGo .drain 4

/-- A SPILL_END that arrives in RUN (R45, R46); the flag says that it had no effect. -/
def State.spillEnd (s : State) (n : Nat) : Bool × State :=
  if s.spillMisses n then (true, s)
  else if sdiff n s.curSlice > 0 then (false, s.spillInTime n)
  else (false, (s.event Reg.HK_MODE_EVT [4]).goDrain 12)

/-- A spill marker without effect is counted (R46). -/
def State.spillIgnored (s : State) : State := (s.count16 Reg.HK_SPILL_IGN_CNT 1).event Reg.HK_MODE_EVT [5]

/-- A SPILL_END held during the entry is judged as RUN is reached, by every test of the list (R46); it is in time where it
arrived before the slice it names began (R45). -/
def State.heldEnd (x : State) (held : Option (Nat × Bool)) : State :=
  match held with
  | none => x
  | some (n, early) =>
    let r := if !x.bit Reg.HK_AUTO_SPILL 0 then (true, x)
      else if early && !x.spillMisses n then (false, x.spillInTime n)
      else x.spillEnd n
    if r.1 then r.2.spillIgnored else r.2

/-- RUN is reached: the module is ready at `now`, and MODE shows RUN when Sf begins (R36, R43, R44, R46). -/
def State.toRun (s : State) (env : EntryEnv) : State :=
  let t := ((s.advanceTo env.now).runFlushes.finishResume env.failed).ringCheck.startSamplers
  let soon := t.nextSlice t.tb.tn
  let named := (t.hk.spillSf).getD soon
  let late := decide (sdiff named soon < 0)
  let sf := if late then soon else named
  let cause := t.hk.tcause
  let u := (t.openRun sf named).aheadOf [aloneGroup named (recMode named 4 cause)]
  let gaps := if late then (List.range (sdiff sf named).toNat).map (fun i => (named + i) % 2 ^ 32) else []
  let v := gaps.foldl (fun (x : State) n => (x.aheadOf [aloneGroup n (recGap n 3)]).errLoss x.activeDie 3) u
  let v := (t.cd.barriers.filter (fun b => b.cls == 3)).foldl (fun x b => x.standBarrier { b with after := named }) v
  let w := (v.eventIf late Reg.HK_MODE_EVT [3]).advanceTo (v.firstTick sf)
  let x := { w with hk := { w.hk with heldSpillEnd := none, spillSf := none, spillEntry := false } }.modeDone .run cause
  x.heldEnd w.hk.heldSpillEnd

/-! ### The end of transitions and drains -/

/-- R36, R276: LOAD has ended, and the step towards SIMMER, SAFE or BOOT begins with lane 0. -/
def execLoadComplete (s : State) : Outcm :=
  .next (if s.hk.mode ≠ .load ∨ s.hk.target ≠ none then s
    else match s.hk.loadResult with
      | .none => s
      | .simmer => (s.modeGo .simmer 5).startBringUp 0
      | .safe => (s.modeGo .safe s.hk.tcause).startBringUp 0
      | .boot => (s.modeGo .boot 8).startBringUp 0)

/-- R276: 60 ms after lane 0's B1 without UP. -/
def execLane0WaitExpire (s : State) : Outcm := .next (if s.laneUp 0 then s else s.startOthers)

/-- R276: the 50 ms bring-up window ends. -/
def execParkWindowExpire (s : State) : Outcm :=
  .next (if s.hk.mode = .load ∧ (s.hk.target = some .simmer ∨ s.hk.target = some .safe) then s.parkLoaded else s)

/-- R36: the last step of a transition ends. -/
def execModeTransitionComplete (env : EntryEnv) (s : State) : Outcm :=
  .next (match s.hk.target with
    | none => s
    | some .load => s.enterLoad
    | some .simmer => s.toSimmer env
    | some .calib => s.toCalib env
    | some .run => s.toRun env
    | some .safe => if s.rd.step ≠ 0 ∧ s.hk.tcause = 6 then s else s.toSafe env
    | some .test => s.toTest env
    | some .boot =>
      let t := s.modeDone .boot s.hk.tcause
      ({ t with hk := { t.hk with minimalLink := true } }).bootHk
    | some .drain => s)

/-- R36: a calibration task has ended and the module returns to SIMMER. -/
def execCalibTaskComplete (s : State) : Outcm :=
  .next (if s.hk.mode = .calib ∧ s.hk.target = none ∧ !s.calibBusy then s.modeGo .simmer 5 else s)

/-- R45, R346: the run is closed and every ring of its hits resolved (R140); what a LIMB still holds at the bound is freed
and counted. -/
def execDrainComplete (s : State) : Outcm :=
  .next (if s.hk.mode ≠ .drain ∨ !s.run.closedMark ∨ s.ringsOpen ∨ s.hk.target ≠ none then s
    else
      let t := if s.role = .limb then
          ({ s with ulp := { s.ulp with held := [] } }).countAt (instKey (errReg .hbd Reg.ERR_LOSS) 13) 0xFFFFFF
            s.ulp.held.length
        else s
      (t.runFlushes.abortFill.stopData.parkExtra).modeDone .simmer 5)

/-- R48: the drain of a SAFE entry ends. -/
def execSafeDrainEnd (s : State) : Outcm :=
  .next (if (s.hk.mode = .safe ∨ s.hk.target = some .safe) ∧ !s.hk.safeDrained ∧ s.run.closedMark ∧ !s.ringsOpen then
      let t := s.stopData
      { t with hk := { t.hk with safeDrained := true } }
    else s)

/-! ### Markers -/

/-- A marker received on lane 0 (R304, R305): a duplicate is discarded; `act` answers whether it had no effect. -/
def State.marker (s : State) (kind mode mseq slice : Nat) (act : State → Bool × State) : State :=
  if !s.pathOpen 0 then s
  else if s.ulp.marks.contains (BitVec.ofNat 16 mseq) then s.count Reg.LK_DISCARD_CNT 1
  else
    let t := { s with ulp := { s.ulp with marks := lastN 8 (s.ulp.marks ++ [BitVec.ofNat 16 mseq]) } }
    let r := act (t.countLane Reg.LK_LANE_RX_FRAMES 0 1)
    (r.2.setReg Reg.LK_MARK_LAST (word32 [(kind, 4), (mode, 4), (mseq, 16), (0, 7), (b2n r.1, 1)])).setReg
      Reg.LK_MARK_SLICE (BitVec.ofNat 32 slice)

/-- A marker other than a spill marker that has no effect is counted (R304). -/
def State.markIgnored (r : Bool × State) : Bool × State := if r.1 then (true, r.2.markLost) else r

/-- A spill marker that has no effect is counted (R46). -/
def State.spillJudged (r : Bool × State) : Bool × State := if r.1 then (true, r.2.spillIgnored) else r

/-- SPILL_START (R44, R46). The slice it names and the present one are taken with the k that the entry brings into force
(R213). One that meets a transition towards another mode is taken as arriving outside SIMMER, DEDUCED in log entry 119. -/
def State.markStart (s : State) (mseq slice : Nat) : State :=
  s.marker 1 0 mseq slice (fun t =>
    let d := sdiff slice (t.latch [Reg.SLC_CFG]).curSlice
    State.spillJudged (
      if !t.bit Reg.HK_AUTO_SPILL 0 ∨ t.hk.mode ≠ .simmer ∨ t.hk.target ≠ none ∨ d > 2 ^ 20 ∨ d < -64 then (true, t)
      else
        let u := t.goRun 3
        (false, { u with hk := { u.hk with spillSf := some slice, spillEntry := true } })))

/-- R44, R46: SPILL_START, received in the tick `now`. -/
def execMarkSpillStart (mseq : BitVec 16) (slice : W32) (now : Nat) (s : State) : Outcm :=
  .next ((s.advanceTo now).markStart mseq.toNat slice.toNat)

/-- SPILL_END (R45, R46); during a RUN entry from SPILL_START it is held. -/
def State.markEnd (s : State) (mseq slice : Nat) : State :=
  s.marker 2 0 mseq slice (fun t =>
    State.spillJudged (
      if !t.bit Reg.HK_AUTO_SPILL 0 then (true, t)
      else if t.hk.mode = .simmer ∧ t.hk.target = some .run ∧ t.hk.spillEntry ∧ t.hk.heldSpillEnd = none then
        (false, { t with hk := { t.hk with heldSpillEnd := some (slice, decide (sdiff slice t.curSlice > 0)) } })
      else t.spillEnd slice))

/-- R45, R46: SPILL_END, received in the tick `now`. -/
def execMarkSpillEnd (mseq : BitVec 16) (slice : W32) (now : Nat) (s : State) : Outcm :=
  .next ((s.advanceTo now).markEnd mseq.toNat slice.toNat)

/-- Where a MARK/SYNC of slice `n` goes (R226): behind its own slice, or, where that one has been handed over or lies before
the run, behind the next one that the module emits. -/
def State.placeSync (s : State) (n id : Nat) : Bool × State :=
  let past : Nat → Bool := fun x => match s.run.sl with
    | some l => decide (sdiff x l > 0)
    | none => false
  let a := if s.handed n ∨ sdiff n s.run.named < 0 then s.nextEmitted else n
  if !s.run.active ∨ s.run.closedMark ∨ past n ∨ past a then (true, s) else (false, s.standBarrier ⟨1, 0, a, n, id, false⟩)

/-- SYNC (R226, R304). -/
def State.markSync (s : State) (mseq slice id : Nat) : State :=
  s.marker 3 0 mseq slice (fun t => State.markIgnored (t.placeSync slice id))

/-- R226: SYNC, received in the tick `now`. -/
def execMarkSync (mseq : BitVec 16) (slice : W32) (_tick : Nat) (id : BitVec 16) (now : Nat) (s : State) : Outcm :=
  .next ((s.advanceTo now).markSync mseq.toNat slice.toNat id.toNat)

/-- R304: a FLUSH marker waits for the end of its slice, where it is executed; one for a slice more than 2^20 ahead is ignored. -/
def State.markFlush (s : State) (slice id : Nat) : Bool × State :=
  let cur := s.curSlice
  let n := if sdiff slice cur < 0 then cur else slice
  if sdiff slice cur > 2 ^ 20 then (true, s)
  else (false, { s with ulp := { s.ulp with flushes := s.ulp.flushes ++ [(n, id)] } })

/-- FLUSH as a marker (R304). -/
def State.markFlushAt (s : State) (mseq slice id : Nat) : State :=
  s.marker 4 0 mseq slice (fun t => State.markIgnored (t.runFlushes.markFlush slice id))

/-- R304: FLUSH as a marker, received in the tick `now`. -/
def execMarkFlush (mseq : BitVec 16) (slice : W32) (id : BitVec 16) (now : Nat) (s : State) : Outcm :=
  .next ((s.advanceTo now).markFlushAt mseq.toNat slice.toNat id.toNat)

/-- MODE as a marker: a mode request without a response (R304). -/
def State.markMode (s : State) (mseq mode : Nat) : State :=
  s.marker 5 mode mseq 0 (fun t =>
    let r := t.modeReq mode
    State.markIgnored (if t.hk.stuck ∨ mode = 0 ∨ r.status ≠ Stat.ok then (true, t) else (false, r.st)))

/-- R304: MODE as a marker, received in the tick `now`. -/
def execMarkMode (mseq : BitVec 16) (mode : BitVec 4) (now : Nat) (s : State) : Outcm :=
  .next ((s.advanceTo now).markMode mseq.toNat mode.toNat)

/-- A MARK frame by the two words of its body (R304); MKIND 0 and 6 to 15 have no effect and are counted. -/
def State.markFrame (s : State) (a b : W64) : State :=
  let mseq := bits a 55 40
  let id := bits a 39 24
  let slice := bits b 63 32
  match bits a 63 60 with
  | 1 => s.markStart mseq slice
  | 2 => s.markEnd mseq slice
  | 3 => s.markSync mseq slice id
  | 4 => s.markFlushAt mseq slice id
  | 5 => s.markMode mseq (bits a 59 56)
  | k => s.marker k (bits a 59 56) mseq slice (fun t => State.markIgnored (true, t))

/-- R293 to R296: blocks arrive on a lane in its slots of frame blocks; a DATA frame among them is received whole. -/
def execDataFrameReceive (n : Lane) (bs : List LineBlock) (s : State) : Outcm :=
  .next (bs.foldl (fun t b => t.rxBlock n b State.markFrame) s)

end Sys2Proof.Machine
end

