-- ==== Sys2Proof/Machine/Load.lean ====
section
/-! DEFINITION. The LOAD sequence L1 to L10 (R40 to R42): reset of the registers, choice and reading of a slot, the
measurements, zeroed memories, the image applied, self-tests, the Lid parameters, authority, locks and the boot count; and
which register values count as adjusted (CFG_CLAMP). -/

namespace Sys2Proof.Machine

/-! ### Adjusted values -/

/-- Is a WF value adjusted (R130, R133, R141). -/
def State.wfClamped (s : State) : Bool :=
  decide (s.fld Reg.WF_CTRL 14 8 > 63) || decide (s.fld Reg.WF_CTRL 6 4 > 4) ||
    decide (s.fld Reg.WF_HOLD 10 0 < 16 ∨ s.fld Reg.WF_HOLD 10 0 > 1280)

/-- Is the T of a TRG_PRIM_C word adjusted (R151). -/
def primClamped (w : W32) : Bool := bits w 19 0 == 0 || (bitOf w 31 && decide (bits w 19 0 > 128))

/-- Is a majority threshold outside 1 to 4. -/
def majOff (m : Nat) : Bool := m == 0 || decide (m > 4)

/-- Is a value of word `i` of a rule adjusted (R155): HOLD; PRESCALE 0; PRE + POST; TOP_OP 3 and the thresholds of MAJ. -/
def ruleClamped (i : Nat) (w : W32) : Bool :=
  match i with
  | 0 => decide (bits w 20 0 > (if bitOf w 29 then 65535 else 1048576))
  | 1 => bits w 31 16 == 0
  | 2 => decide (bits w 11 0 + bits w 23 12 > 4095)
  | 3 => bits w 31 30 == 3 || (bits w 31 30 == 2 && majOff (bits w 29 27)) ||
     (List.range 4).any (fun g => bits w (5 * g + 4) (5 * g + 3) == 2 && majOff (bits w (5 * g + 2) (5 * g)))
  | _ => false

/-- Is a value of a loaded rule adjusted: one of whose words the image gave a value. -/
def State.ruleAdjusted (s : State) (r : Nat) : Bool :=
  (List.range 16).any (fun i => s.ruleWord r i != 0) && (List.range 4).any (fun i => ruleClamped i (s.ruleWord r i))

/-- The TRG_PRIM_C words. -/
def State.primC (s : State) (j : Nat) : W32 := s.reg (Reg.TRG_PRIM_C + 4 * j)

/-- The adjustments that the loaded registers and tables need are marked, in both CDs. -/
def State.loadClamps (s : State) : State :=
  let trg := (List.range 4).any (fun j => primClamped (s.primC j)) ||
    (List.range 64).any s.ruleAdjusted
  let t := (((s.latch appliedRegs).eventIf s.wfClamped Reg.WF_EVT [4]).eventIf trg Reg.TRG_EVT [0]).eventIf s.ladderClamped
    Reg.SLC_EVT [4]
  [Reg.TRG_EVT, Reg.SLC_EVT].foldl (fun (u : State) a =>
    { u with sts := Sparse.put Sts.zero (0x400000 + a % 0x100000) (u.stsAt (0x300000 + a % 0x100000)) u.sts }) t

/-! ### L1 to L5 -/

/-- Is a key reset at L1: the Module domain of R415, which leaves out the AON registers and the Lid. -/
def resetAtL1 (k : Nat) : Bool :=
  let a := k % 0x1000000
  a / 0x100000 != 5 && decide (0x40 ≤ a) && a != 0x5C

/-- L1: the registers of the Module domain are reset, the supplies ramp, the synthesiser and the PLL lock. -/
def State.loadL1 (s : State) : State :=
  let vin := (s.reg Reg.HK_VIN).toNat
  ((s.resetRegs resetAtL1).setReg Reg.HK_PWR_STS (word32 [(b2n (decide (10800 ≤ vin ∧ vin ≤ 13200)), 1), (0, 4), (0xF, 4)])).setBit
    Reg.HK_XO_STS 2 true

/-- `n` open 64-bit words as bytes. -/
def State.freeBytes : Nat → State → List Octet × State
  | 0, s => ([], s)
  | n + 1, s =>
    let r := State.freeBytes n { s with free := s.free + 1 }
    (bytesBE (Config.free64 s.free) ++ r.1, r.2)

/-- The digest of a stretch of the NVD; where a word of it is uncorrectable, no rule gives the digest. -/
def State.digest (s : State) (a n : Nat) : List Octet × State :=
  let r := s.nvdReads a n
  if r.1 then (sha512 (r.2.nvd.bytes a n), r.2) else State.freeBytes 8 r.2

/-- The revision record (R388). -/
def revisionRecord : List Octet :=
  (List.range 6).flatMap (fun j => bytes32LE (Config.idcode j)) ++ bytes32LE Config.revision ++ leBytes 4 0

/-- L3 and L4: the four measurement slots (R65, R388). -/
def State.measure (s : State) (base length : Nat) : State :=
  let m1 := s.digest base length
  let m2 := m1.2.digest calBase 37312
  let m0 := sha512 ((List.range 32768).map Config.lidRomByte)
  { m2.2 with att := { m2.2.att with meas := [m0, m1.1, m2.1, sha512 revisionRecord] } }

/-- Does an entry of a protected memory outlive L5: the NVD always, the event queues but at the first LOAD (R208, R333). -/
def keptAtL5 (first : Bool) (mem idx : Nat) : Bool := mem == 4 || (mem == 3 && decide (64 * 9 ≤ idx) && !first)

/-- L5: all memories zero with valid check bits. -/
def State.zeroMemories (s : State) : State :=
  let first := !s.hk.firstLoadDone
  { s with
    cal := .zero, fe := .reset, tdc := .reset, wf := .reset, fed := .reset, cda := .reset, cdb := .reset, ulp := .reset,
    resp := [], pq := if first then [] else s.pq,
    err := { bad := s.err.bad.filter (fun b => keptAtL5 first b.mem b.idx),
             raw := s.err.raw.filter (fun r => keptAtL5 first r.mem r.idx), votes := [],
             heads := s.err.heads.filter (fun h => decide (9 ≤ h.1) && !first), ran := [], crit := none } }

/-! ### L2 to L6: one slot -/

/-- What trying a slot left: the failing step, 0 where the image is accepted, the header and the sections it was read by. -/
structure Try where
  fail : Nat
  header : Header
  ss : List Section
  st : State
  deriving DecidableEq, Repr

/-- A header of nothing. -/
def Header.none : Header := ⟨0, 0, 0, 0, 0, 0, 0⟩

/-- L6: REGS, TABL and the calibration set, with the fields of the header (R66 to R69). -/
def State.applyImage (s : State) (b : Bool) (h : Header) (ss : List Section) : State :=
  let base := slotBase b
  let w := s.reg Reg.HK_CFG_INFO
  let info := word32 [(bits w 31 24, 8), (h.minor % 256, 8), (1, 4), (0, 3), (bits w 8 8, 1), (1, 1), (b2n b, 1),
    (h.role, 2), (0, 1), (h.source, 3)]
  let t := ((s.setReg Reg.HK_CFG_INFO info).setReg Reg.HK_CFG_GEN (BitVec.ofNat 32 h.gen)).skip
    (ss.filter (fun x => !neededTags.contains x.tag)).length
  let u := t.applyRegs (regsEntries (t.nvd.sectionBytes base ss tagRegs))
  let tabl := u.nvd.sectionBytes base ss tagTabl
  (State.applyTabl tabl.length tabl u).applyCal

/-- L2 and L3 with one slot: its header and sections are read and checked (R63, R64). -/
def State.readSlot (s : State) (b : Bool) : Try :=
  let base := slotBase b
  let r := s.nvdReads base 64
  match (if r.1 then r.2.nvd.header base else none) with
  | none => ⟨2, .none, [], r.2⟩
  | some h =>
    let t := r.2.nvdReads (base + 0x40) (16 * h.nsect)
    let ss := t.2.nvd.sections base h.nsect
    let c := t.2.checkSections base h.length ss
    if !t.1 then ⟨3, h, [], t.2⟩
    else if c.1.isSome then ⟨3, h, [], c.2⟩
    else ⟨0, h, ss, c.2⟩

/-- L2 to L6 with one slot. -/
def State.trySlot (s : State) (b : Bool) : Try :=
  let t := s.readSlot b
  if t.fail ≠ 0 then t
  else
    let u := ((t.st.measure (slotBase b) t.header.length).zeroMemories).applyImage b t.header t.ss
    { t with fail := if u.rolesOk then 0 else 6, st := u }

/-- The registers that L6 wrote from a rejected image return to their reset values, SKIPPED to zero (R41). -/
def State.unload (s : State) (b : Bool) (ss : List Section) : State :=
  let es := regsEntries (s.nvd.sectionBytes (slotBase b) ss tagRegs)
  let as' := (es.filter (fun e => regsTakes e.1)).flatMap (fun e => bothCds e.1)
  let t := s.resetRegs (fun k => as'.contains k || (k % 0x1000000 == Reg.LN_PRBS_CFG && as'.contains Reg.LN_PRBS_CFG))
  (t.setReg Reg.HK_CFG_INFO (word32 [(bits (s.reg Reg.HK_CFG_INFO) 8 8, 1), (0, 8)])).setReg Reg.HK_CFG_GEN 0

/-- HK_LOAD_STEP. -/
def State.loadStep (s : State) (second : Bool) (fail last : Nat) : State :=
  s.setReg Reg.HK_LOAD_STEP (word32 [(b2n second, 1), (fail, 4), (last, 4)])

/-! ### L7 to L10 -/

/-- Does a quadrant block of the Lid parameters lie in its ranges (R355). -/
def lidQuadOk (p : Nat → Nat) (q : Nat) : Bool :=
  let h := fun (o : Nat) => p (0x18 + 16 * q + o) + 256 * p (0x18 + 16 * q + o + 1)
  let within := fun (o lo hi : Nat) => decide (lo ≤ h o ∧ h o ≤ hi)
  within 0 1 11000 && decide (h 2 < h 0) && within 4 1 48000 && within 6 1 65535 && within 8 1 1000 && within 0xA 5 1000 &&
    within 0xC 8 4000 && h 0xE == 0

/-- What a channel checks of its copy of the LID section (R355, R356). -/
def lidParOk (bs : List Octet) : Bool :=
  let p := fun (i : Nat) => (nth 0 bs i).toNat
  let h := fun (i : Nat) => p i + 256 * p (i + 1)
  let within := fun (v lo hi : Nat) => decide (lo ≤ v ∧ v ≤ hi)
  bs.length == 128 && leNat (bs.take 4) == 0x5044494C && h 4 == 1 && h 6 == 128 &&
    leNat (bs.drop 0x7C) == (crc32c (bs.take 0x7C)).toNat &&
    (List.range 4).all (fun i => decide (p (8 + i) ≤ 2) && within (p (0xC + i)) 5 40 && lidQuadOk p i) &&
    within (h 0x10) 10 500 && within (h 0x12) 20 500 && decide (p 0x14 ≤ 1) && within (p 0x15) 1 8 && within (p 0x16) 1 64 &&
    p 0x17 == 0 && (List.range 36).all (fun i => p (0x58 + i) == 0)

/-- L8: the channels load the parameters and compare (R356, R373); true where they agree. -/
def State.loadLid (s : State) (bs : List Octet) (agreed : Bool) : Bool × State :=
  let ok := lidParOk bs
  let lcrc : W32 := BitVec.ofNat 32 (leNat (bs.drop 0x7C))
  let agree := ok && agreed
  let set := fun (x : LidChan) (c : W32) => { x with
    par := bs, crc := c, causes := if agree then setDel 0x17 x.causes else x.causes, quads := x.quads.map Quad.open }
  let l := s.lid
  let t := { s with lid := { l with
    p := set l.p (if ok then lcrc else 0), h := set l.h (if agree then lcrc else 0), agree := agree,
    seenOpenA := true, seenOpenB := true } }
  if agree then
    let held := t.lid.h.causes.any (fun c => decide (c ≥ 0x10)) || t.lid.p.causes.any (fun c => decide (c ≥ 0x10))
    let u := t.lidGo .h (if held then .fault else .stop) []
    (true, if l.rstIn then ({ u with lid := { u.lid with heldOver := true } }).lidCause .h 0x19 0 0 else u)
  else
    let fresh := !t.lid.h.causes.contains 0x17
    let u := (t.lidLatch .fault .h 0x17 0 0).lidGo .h .fault (if fresh then [1] else [])
    (false, if l.rstIn then ({ u with lid := { u.lid with heldOver := true } }).lidCause .h 0x19 0 0 else u)

/-- L9: the links are trained and RD_AUTH is written (R40, R42, R312). -/
def State.loadCds (s : State) (active : Nat) (env : LoadEnv) : State :=
  let la := env.passFed && env.passCda && env.linkA
  let lb := env.passFed && env.passCdb && env.linkB
  let failA := !(env.passCda && (env.linkA || !env.passFed))
  let failB := !(env.passCdb && (env.linkB || !env.passFed))
  let named := active == 1
  let b := if named then !failB else failA
  let g : BitVec 8 := s.rd.gen + 1
  let st := fun (me fail : Bool) => if fail then cdOut else if me then cdActive else cdReady
  let t := { s with
    cda := { s.cda with st := st (!b) failA, gen := g }, cdb := { s.cdb with st := st b failB, gen := g },
    fed := { s.fed with gen := g }, rd := { s.rd with activeB := b, gen := g } }
  let u := if failA then t.failCd false else t
  (if failB then u.failCd true else u).setFld Reg.HK_SELFTEST 9 8 (b2n la + 2 * b2n lb)

/-- The value that at least two readable copies of the boot count hold (R389). -/
def State.bootMajority (s : State) : Option W64 × State :=
  let r := [0x30000, 0x30008, 0x30010].foldl (fun (a : List W64 × State) x =>
    let y := a.2.nvdReads x 8
    (if y.1 then a.1 ++ [y.2.nvd.word x] else a.1, y.2)) ([], s)
  (r.1.find? (fun w => decide ((r.1.filter (fun v => v == w)).length ≥ 2)), r.2)

/-- The boot count as it stood: the majority of the readable copies. Where no two agree, which R389 does not treat, it is open, but
not below the largest of them, so that the count does not fall: DESIGN CHOICE of log entry 189. -/
def State.bootOld (s : State) : W64 × State :=
  let r := s.bootMajority
  match r.1 with
  | some w => (w, r.2)
  | none =>
    let low := (([0x30000, 0x30008, 0x30010].filter (fun x => !r.2.dead .hbd 0x04 (x / 8))).map
      (fun x => (r.2.nvd.word x).toNat)).foldl max 0
    (BitVec.ofNat 64 (low + (Config.free64 r.2.free).toNat % (2 ^ 64 - 1 - low)), { r.2 with free := r.2.free + 1 })

/-- The three copies of the boot count are written in order, where the writes take. -/
def State.writeBoot (s : State) (w : W64) (taken : BitVec 3) : State :=
  ((List.range 3).filter (fun i => taken.getLsbD i)).foldl (fun (x : State) i =>
    ({ x with nvd := x.nvd.put (0x30000 + 8 * i) w }).memClean .hbd 0x04 ((0x30000 + 8 * i) / 8)) s

/-- The read-back of the copies: does each hold the count (R389). -/
def State.readBoot (s : State) (w : W64) : Bool × State :=
  [0x30000, 0x30008, 0x30010].foldl (fun (a : Bool × State) x =>
    let y := a.2.nvdReads x 8
    (a.1 && y.1 && y.2.nvd.word x == w, y.2)) (true, s)

/-- L10: the locks, the boot count, and the time (R71, R72, R254, R389). -/
def State.loadL10 (s : State) (lock : List Octet) (env : LoadEnv) : State :=
  let t := s.applyLock (numsLE 4 lock)
  let r := ({ t with nvd := { t.nvd with locksOn := true } }).bootOld
  let v := (r.2.writeBoot (r.1 + 1) env.bootTaken).readBoot (r.1 + 1)
  let w := { v.2 with att := { v.2.att with bootCount := (r.1 + 1).toNat, bootOk := v.1 } }
  (w.loadTime env.tn).setReg Reg.HK_LOAD_TIME (BitVec.ofNat 32 env.us)

/-! ### LOAD -/

/-- LOAD has ended with a result and the cause that the transition out of it takes. -/
def State.loadEnds (s : State) (r : LoadResult) (cause : Nat) : State :=
  let t := s.eventIf (s.fld Reg.HK_CFG_INFO 31 24 != 0) Reg.HK_CFG_EVT [3]
  ({ t with hk := { t.hk with loadResult := r, tcause := cause, firstLoadDone := true } }).keepHk

/-- L7 to L10 with an accepted image of slot `b` (R42). -/
def State.loadRest (s : State) (b second : Bool) (t : Try) (env : LoadEnv) : State :=
  let base := slotBase b
  let s1 := (s.setReg Reg.HK_SELFTEST (word32 [(b2n env.passHbd, 1), (b2n env.passCdb, 1), (b2n env.passCda, 1),
    (b2n env.passFed, 1)])).loadClamps
  let s2 := { s1 with fe := { s1.fe with groupEff := s1.groupReg, gate := s1.fld Reg.FE_RATE_GATE 9 0 } }
  let lid := s2.loadLid (s2.nvd.sectionBytes base t.ss tagLid) (env.l8first || env.l8second)
  let dieFail := !env.passFed || !env.passHbd || (!env.passCda && !env.passCdb)
  if !lid.1 then
    ((lid.2.eventIf dieFail Reg.HK_MODE_EVT [1]).loadStep second 8 8).loadEnds .safe 0xA
  else
    let s3 := lid.2.loadCds t.header.active env
    let s4 := s3.loadL10 (s3.nvd.sectionBytes base t.ss tagLock) env
    let none' := decide (s4.cda.st = cdOut ∧ s4.cdb.st = cdOut)
    if dieFail then ((s4.event Reg.HK_MODE_EVT [1]).loadStep second 7 10).loadEnds .safe 9
    else if none' then ((s4.event Reg.HK_MODE_EVT [1]).loadStep second 9 10).loadEnds .safe 9
    else (s4.loadStep second 0 10).loadEnds .simmer 5

/-- R40, R41, R42: the LOAD sequence. -/
def execLoadSequence (env : LoadEnv) (s : State) : Outcm :=
  .next (if s.hk.mode ≠ .load ∨ s.hk.target ≠ none ∨ s.hk.loadResult ≠ .none then s
    else
      let p := s.loadL1.votePref
      let s1 := p.2.setFld Reg.HK_CFG_INFO 8 8 (b2n p.1)
      let t := s1.trySlot p.1
      if t.fail = 0 then t.st.loadRest p.1 false t env
      else
        let s2 := ((t.st.unload p.1 t.ss).zeroMemories).event Reg.HK_MODE_EVT [0]
        let u := s2.trySlot (!p.1)
        if u.fail = 0 then u.st.loadRest (!p.1) true u env
        else
          let w := u.st.reg Reg.HK_CFG_INFO
          let s3 := (u.st.setReg Reg.HK_CFG_INFO (word32 [(bits w 31 24, 8), (0, 13), (bits w 10 8, 3), (0, 8)])).setReg
            Reg.HK_CFG_GEN 0
          ((s3.event Reg.HK_MODE_EVT [1]).loadStep true u.fail u.fail).loadEnds .boot 8)

/-! ### Rejoin -/

/-- The REGS entries of an image that name a register of one CD, by its address there (R77). -/
def cdEntries (b : Bool) (es : List (Nat × W32)) : List (Nat × W32) :=
  (es.filter (fun e => regsTakes e.1)).flatMap (fun e =>
    ((bothCds e.1).filter (fun a => a / 0x100000 == if b then 4 else 3)).map (fun a => (a, e.2)))

/-- J2 of R330: the CD that is not active reloads REGS and TABL of the loaded image from its slot (R77). -/
def State.reloadCd (s : State) (b : Bool) (base : Nat) (ss : List Section) : State :=
  let t := (cdEntries b (regsEntries (s.nvd.sectionBytes base ss tagRegs))).foldl (fun u e => u.setFields e.1 e.2) s
  let tabl := s.nvd.sectionBytes base ss tagTabl
  let c := (State.applyTabl tabl.length tabl t).other
  t.setOther { t.other with qmap := c.qmap, rules := c.rules, regions := c.regions }

/-- R330: J1 to J4 end. The loaded slot is read and checked (R77); a step that fails leaves the die OUT, J5 with it. -/
def execRejoinMirroring (ok : Bool) (s : State) : Outcm :=
  .next (match s.rd.rejoin with
    | some (b, n) =>
      if n ≥ 5 then (if ok then s else s.rejoinFails b)
      else
        let slot := s.bit Reg.HK_CFG_INFO 6
        let r := s.readSlot slot
        if r.fail ≠ 0 ∨ !ok then r.st.rejoinFails b
        else
          let t := (r.st.reloadCd b (slotBase slot) r.ss).mirrorAll
          let u := t.setOther { t.other with st := cdMirroring }
          { u with rd := { u.rd with rejoin := some (b, 5) } }
    | none => s)

end Sys2Proof.Machine
end

