-- ==== Sys2Proof/Machine/Misc.lean ====
section
/-! DEFINITION. Attestation reports (R388 to R395), the mailbox (R407 to R410), housekeeping samples (R416) and the
boundary-scan chain (R433 to R437), with the meanings of their commands. -/

namespace Sys2Proof.Machine

/-! ### Attestation -/

/-- The signed body of a report made now (R390). -/
def State.reportBody (s : State) : List Octet :=
  leBytes 4 0x54414259 ++ leBytes 2 1 ++ leBytes 2 1 ++ leBytes 4 848 ++ leBytes 2 ((s.att.rid + 1) % 65536) ++
    leBytes 2 (s.att.flags + 2 * s.fld Reg.HK_LOAD_STEP 8 8) ++ bytesLE s.nvd.serial ++ leBytes 8 s.att.bootCount ++
    leBytes 8 s.tb.sec ++ bytes32LE (s.reg Reg.HK_CFG_INFO) ++ bytes32LE (s.reg Reg.HK_CFG_GEN) ++
    (List.range 8).flatMap (fun j => bytes32LE (s.reg (Reg.ATT_NONCE + 4 * j))) ++ s.att.meas.flatten

/-- A write of ATT_CMD (R389, R392, R393). -/
def State.attCmdWrite (s : State) (data : W32) (be : BitVec 4) : Rep :=
  let go := bitOf data 0 && be.getLsbD 0
  let wait := go && (s.att.busy.isSome || !s.att.bootOk)
  s.guarded false false .attest wait
    (if go then { s with att := { s.att with busy := some s.reportBody } } else s)

/-- R392: ATT_CMD.GO. -/
def execAttestationReportRequest (lane : Lane) (s : State) : Outcm :=
  .next (s.access lane Reg.ATT_CMD (fun t => t.attCmdWrite 1 0xF))

/-- The identity key (R391, R395): its modulus, and the private exponent that belongs to the public one of 65,537. -/
def keyModulus : Nat := Config.keyP * Config.keyQ
def keyExponent : Nat :=
  let phi := (Config.keyP - 1) * (Config.keyQ - 1)
  (Nat.gcdA 65537 phi % (phi : Int)).toNat

/-- The signature of a body with the salt of a draw, most significant octet first; `glitch` are the bits that the engine computed
wrong (R391). -/
def signBody (body : List Octet) (draw glitch : Nat) : List Octet :=
  let salt := (List.range 64).map (nth 0 (Config.salt draw))
  beBytes 512 ((beNat (pssEncode body salt) ^ keyExponent % keyModulus) ^^^ glitch)

/-- Does a signature hold under the public key (R391). -/
def signatureOk (body sig : List Octet) : Bool := pssVerify body (beBytes 512 (beNat sig ^ 65537 % keyModulus))

/-- R391 to R393: signing ends; the report is released when the engine's own check with the public key holds. -/
def execSigningDone (glitch : Nat) (s : State) : Outcm :=
  .next (match s.att.busy with
    | none => s
    | some body =>
      let sig := signBody body s.free glitch
      if signatureOk body sig then
        let rid := leNat ((body.drop 0x0C).take 2)
        let t := { s with
          free := s.free + 1,
          att := { s.att with busy := none, buf := body ++ sig, bufRid := rid, rid := rid } }
        (t.count Reg.ATT_REQ_CNT 1).pqPush 15 (attEntry 1 body)
      else
        let t := { s with free := s.free + 1, att := { s.att with busy := none } }
        ((t.event Reg.ATT_EVT [0]).count Reg.ATT_FAIL_CNT 1).pqPush 15 (attEntry 3 body))

/-! ### The mailbox -/

/-- A 64-bit value as two words. -/
def lowHigh (v : Nat) : List W32 := [BitVec.ofNat 32 v, BitVec.ofNat 32 (v / 2 ^ 32)]

/-- The words of DT and TN (R267). -/
def State.timeWords (s : State) : List W32 :=
  let tb := s.tb
  [BitVec.ofNat 32 tb.frac, word32 [(tb.state.code, 2), (tb.ns, 30)], BitVec.ofNat 32 tb.sec,
    BitVec.ofNat 32 (tb.sec / 2 ^ 32 % 65536)] ++ lowHigh tb.tn

/-- The words of an item (R407); none for a code or an argument outside the list. -/
def State.mbxItem (s : State) (item arg : Nat) : Option (List W32) :=
  match item with
  | 1 => if arg = 0 then some s.timeWords else none
  | 2 => if arg = 0 then some (lowHigh s.att.bootCount) else none
  | 3 =>
    if arg ≤ 52 then
      some ((List.range 4).map (fun i => BitVec.ofNat 32 (leNat ((s.att.buf.drop (16 * arg + 4 * i)).take 4))))
    else none
  | 4 => if arg ≤ 3 then some (lowHigh (nth 0 s.ulp.totals arg)) else none
  | _ => none

/-- A write of MBX_REQ by a lane (R407, R408). -/
def State.mbxReqWrite (s : State) (lane : Nat) (data : W32) (be : BitVec 4) : Rep :=
  let v := mergeBE s.mbx.req data be &&& 0xFFFFFF
  let ws := s.mbxItem (bits v 7 0) (bits v 23 8)
  let words := ws.getD []
  s.guarded ws.isNone false .readOther (bits v 7 0 == 3 && s.att.buf == [])
    { s with mbx := { words := words, valid := true, rqn := s.mbx.rqn + 1, item := bits v 7 0, lane := lane, nw := words.length,
                      req := v } }

/-- The word of MBX_REQ for an item and its argument. -/
def mbxWord (item arg : Nat) : W32 := word32 [(arg, 16), (item, 8)]

/-- R407: item TIME. -/
def execTime (lane : Lane) (s : State) : Outcm :=
  .next (s.access lane Reg.MBX_REQ (fun t => t.mbxReqWrite lane (mbxWord 1 0) 0xF))

/-- R407: item BOOT_COUNT. -/
def execBootCount (lane : Lane) (s : State) : Outcm :=
  .next (s.access lane Reg.MBX_REQ (fun t => t.mbxReqWrite lane (mbxWord 2 0) 0xF))

/-- R394, R407: item ATT_REPORT. -/
def execAttReport (lane : Lane) (part : BitVec 16) (s : State) : Outcm :=
  .next (s.access lane Reg.MBX_REQ (fun t => t.mbxReqWrite lane (mbxWord 3 part.toNat) 0xF))

/-- R407: item TOTAL. -/
def execTotal (lane : Lane) (sel : BitVec 16) (s : State) : Outcm :=
  .next (s.access lane Reg.MBX_REQ (fun t => t.mbxReqWrite lane (mbxWord 4 sel.toNat) 0xF))

/-- A read of MBX_DATA_i (R409). -/
def State.mbxRead (s : State) (i : Nat) : Rep :=
  if !s.allows .readOther then .no Stat.stateReject s
  else if !s.mbx.valid then .no Stat.notReady s
  else
    ⟨Stat.ok, if i < s.mbx.nw then nth 0 s.mbx.words i else 0,
      if i + 1 = s.mbx.nw then { s with mbx := { s.mbx with valid := false } } else s⟩

/-- R409: a mailbox data word is read. -/
def execMbxDataRead (lane : Lane) (i : Fin 6) (s : State) : Outcm :=
  .next (s.access lane (Reg.MBX_DATA + 4 * i.val) (fun t => t.mbxRead i))

/-! ### Housekeeping -/

/-- Temperatures as sampled: in BOOT only the XO's (R416). -/
def State.takeTemps (s : State) (x : HkSample) : State :=
  (List.range 6).foldl (fun (t : State) j =>
    if t.hk.mode = .boot ∧ j ≠ 5 then t
    else t.setReg (Reg.HK_TEMP + 4 * j) (BitVec.ofNat 32 (patternW 16 (x.temps[j]?.getD 0)))) s

/-- The warning of HK_PWR_EVT.TEMP_WARN over the five dies: armed by a sample 2 K below the threshold. A reading of 0x8000
is no sample. -/
def State.tempWarn (s : State) (x : HkSample) : State :=
  if s.hk.mode = .boot then s
  else
    let thr := signedW 16 (s.fld Reg.HK_TEMP_THR 15 0)
    let v := fun (j : Nat) => x.temps[j]?.getD 0
    let valid := (List.range 5).filter (fun j => v j != -32768)
    let warn := valid.filter (fun j => decide (v j > thr) && s.hk.tempArmed.contains j)
    let armed := (valid.filter (fun j => decide (v j ≤ thr - 32))).foldl (fun l j => setIns j l)
      (s.hk.tempArmed.filter (fun j => !warn.contains j))
    ({ s with hk := { s.hk with tempArmed := armed } }).eventIf (warn != []) Reg.HK_PWR_EVT [3]

/-- Does a reading of the 12 V input lie within its limits (R416). -/
def vinGood (mv : Nat) : Bool := decide (10800 ≤ mv ∧ mv ≤ 13200)

/-- The 12 V input (R416): its readings, and outside BOOT VIN_OK and the warnings after three samples. -/
def State.takeVin (s : State) (x : HkSample) : State :=
  let on := s.hk.mode != .boot
  let low := if on ∧ x.vin < 10800 then s.hk.vinLow + 1 else 0
  let high := if on ∧ x.vin > 13200 then s.hk.vinHigh + 1 else 0
  let t := { s with hk := { s.hk with vinLow := low, vinHigh := high } }
  let u := ((t.setReg Reg.HK_VIN (BitVec.ofNat 32 x.vin)).setReg Reg.HK_IIN (BitVec.ofNat 32 x.iin)).setReg Reg.HK_PIN
    (BitVec.ofNat 32 x.pin)
  let v := if on then u.setBit Reg.HK_PWR_STS 8 (vinGood x.vin) else u
  (v.eventIf (low == 3) Reg.HK_PWR_EVT [1]).eventIf (high == 3) Reg.HK_PWR_EVT [2]

/-- The core supplies, which read zero in BOOT (R416). -/
def State.takeVmon (s : State) (x : HkSample) : State :=
  if s.hk.mode = .boot then s
  else (List.range 4).foldl (fun (t : State) j =>
    t.setReg (Reg.HK_VMON + 4 * j) (BitVec.ofNat 32 (nth 0 x.vmon j % 65536))) s

/-- The counters of the AON clock advance by 10 ms: HK_MODE_TIME, HK_UPTIME and HK_RST_STS.LOW_MS. -/
def State.aonTen (s : State) : State :=
  let t := s.count Reg.HK_MODE_TIME 10
  let k := instKey Reg.HK_UPTIME 0
  let ms := (t.regAt k).toNat + 10
  let u := if ms ≥ 1000 then (t.setReg Reg.HK_UPTIME (t.reg Reg.HK_UPTIME + 1)).setRegAt k (BitVec.ofNat 32 (ms - 1000))
    else t.setRegAt k (BitVec.ofNat 32 ms)
  if s.hk.rstN then u else u.setFld Reg.HK_RST_STS 23 0 (min 0xFFFFFF (u.fld Reg.HK_RST_STS 23 0 + 10))

/-- The XO's temperatures of the last 1 s, and the lock-tracking word while ACLK comes from the lane, its samples of the last
100 s: one of each in 10 ms (R264). -/
def State.takeTrack (s : State) (x : HkSample) : State :=
  let t := { s with tb := { s.tb with temps := lastN 100 (s.tb.temps ++ [x.temps[5]?.getD (-32768)]) } }
  if t.tb.srcXo then t else { t with tb := { t.tb with track := lastN 10000 (t.tb.track ++ [x.track]) } }

/-- A die sample above 85 °C (R387), outside BOOT, in which no die is sampled. -/
def State.tempHigh (s : State) (x : HkSample) : State :=
  s.eventIf (s.hk.mode != .boot && (x.temps.take 5).any (fun t => decide (t > 1360))) Reg.AGE_EVT [6]

/-- R416: the 10 ms sample. -/
def execHkMonitorSample (x : HkSample) (s : State) : Outcm :=
  if (Instr.hkMonitorSample x).wf then
    .next (if !s.hk.v12 then s else ((((((s.aonTen).takeTemps x).tempWarn x).takeVin x).takeVmon x).takeTrack x).tempHigh x)
  else .refused (.illFormed "HK_MONITOR_SAMPLE")

/-- The bit of a die in HK_PWR_STS.PG. -/
def pgBit : Die → Nat
  | .fed => 0 | .cda => 1 | .cdb => 2 | .hbd => 3 | .sfd => 3

/-- R416: a core supply loses power-good outside BOOT and L1. -/
def execPgLoss (die : Die) (s : State) : Outcm :=
  if (Instr.pgLoss die).wf then
    .next (if !s.hk.v12 ∨ s.hk.mode = .boot ∨ (s.hk.mode = .load ∧ s.hk.loadResult = .none) then s
      else (s.setBit Reg.HK_PWR_STS (pgBit die) false).event Reg.HK_PWR_EVT [0])
  else .refused (.illFormed "PG_LOSS")

/-! ### Boundary scan -/

/-- Does an instruction code drive the pins of a die: EXTEST to HIGHZ in TEST, and only the HBD has drivers (R433 to
R435). -/
def State.tapDrives (s : State) (d : Die) (code : Nat) : Bool :=
  s.hk.mode == .test && d == .hbd && decide (3 ≤ code ∧ code ≤ 7)

/-- A die's instruction register is updated (R434, R437). -/
def State.tapLoad (s : State) (d : Die) (code : Nat) : State :=
  if !s.tapAnswers then s
  else
    let t := { s with tap := { s.tap with ir := Sparse.put 1 (tapIdx d) code s.tap.ir } }
    if t.tapDrives d code then (if t.tap.driving = [] then t.tapTakes else t)
    else if d = .hbd then t.tapReleases
    else t

/-- R437: Test-Logic-Reset: IDCODE is loaded everywhere and the pins return to their functions. -/
def execTapReset (s : State) : Outcm :=
  .next (if !s.tapAnswers then s else
    let t := s.tapReleases
    { t with tap := { t.tap with ir := [] } })

/-- What the boundary cells of a die capture, in the order of R433: the low discriminators' outputs; the safety inputs, feedbacks,
LID_RST and drives; a concentrator's power-good and heartbeat; of the HBD its lane and ring pins, whose output cells capture what
the chain drives while it does, the test receivers, and RST_N. -/
def State.cells (s : State) (d : Die) (x : TapScan) : List Bool :=
  match d with
  | .fed => (List.range 4096).map (fun c => (s.pulse c).low)
  | .sfd => (List.range 8).map (nth false s.lid.p.raw) ++
    [s.lid.fbaOpen, s.lid.fbbOpen, s.lid.rstIn, s.lid.p.drive && s.hk.v24, s.lid.h.drive && s.hk.v24]
  | .hbd => (List.range 140).map (fun i =>
      if 64 ≤ i ∧ i < 128 then nth false s.tap.rx (i - 64)
      else if s.tap.driving ≠ [] ∧ i < 136 then nth false (s.cellsOf .hbd) i
      else nth false x.pins i) ++ [s.hk.rstN]
  | _ => [s.bit Reg.HK_PWR_STS (pgBit d), nth false x.beats (if d = .cdb then 1 else 0)]

/-- The bits that a die's selected data register captures, the one nearest TDO first (R433, R434). -/
def State.drOf (s : State) (d : Die) (x : TapScan) : List Bool :=
  match s.tapCode d with
  | 1 => (List.range 32).map (fun i => (Config.idcode (tapIdx d)).getLsbD i)
  | 2 => s.cells d x
  | 3 => s.cells d x
  | 4 => s.cells d x
  | 5 => s.cells d x
  | _ => [false]

/-- The dies from TDO to TDI (R433). -/
def chainDies : List Die := [.sfd, .cdb, .cda, .fed, .hbd]

/-- Has a die's instruction its boundary register between TDI and TDO. -/
def State.tapBoundary (s : State) (d : Die) : Bool := decide (2 ≤ s.tapCode d ∧ s.tapCode d ≤ 5)

/-- The test receivers take the edges and the changed levels that they have seen (R436). -/
def State.takeRx (s : State) (x : TapScan) : State :=
  { s with tap := { s.tap with rx := s.tap.rx.mapIdx (fun i b => (nth none x.rx i).getD b) } }

/-- A scan of the data registers: every die's register is captured and shifted out, the bits for one die are shifted in, and
Update-DR takes them into its boundary cells (R434). -/
def State.scanDr (s : State) (d : Die) (x : TapScan) : State :=
  let t := s.takeRx x
  let seen := (chainDies.filter t.tapBoundary).map (fun e => (tapIdx e, t.cells e x))
  let cap := t.tap.captured.filter (fun c => !seen.any (fun y => y.1 == c.1)) ++ seen
  let n := (t.cells d x).length
  let new := if t.tapBoundary d then
      t.tap.cells.filter (fun c => c.1 != tapIdx d) ++ [(tapIdx d, (List.range n).map (nth false x.tdi))]
    else t.tap.cells
  { t with
    tap := { t.tap with captured := cap, cells := new },
    out := t.out ++ [Out.tdo (chainDies.flatMap (fun e => t.drOf e x))] }

/-- What an instruction in force does at Update-DR and in the Run-Test/Idle that follows: EXTEST and the AC tests drive the cells, a
pulse is one transition, and a train one per TCK cycle in Run-Test/Idle (R436). -/
def State.updateDr (s : State) (d : Die) (x : TapScan) : State :=
  if d ≠ .hbd ∨ s.tap.driving = [] then s
  else match s.tapCode d with
    | 3 => s.drivePins
    | 4 => let t := s.drivePins
           { t with out := t.out ++ [Out.acTest d 1] }
    | 5 => let t := s.drivePins
           if x.idle = 0 then t else { t with out := t.out ++ [Out.acTest d x.idle] }
    | _ => s

/-- One scan (R433 to R436): the instruction registers are captured and shifted out, the new instruction takes effect, and a scan of
the data registers follows: DESIGN CHOICE of log entry 191. A TAP that does not answer leaves TDO high-impedance. -/
def State.tapScan (s : State) (d : Die) (code : Nat) (x : TapScan) : State :=
  if !s.tapAnswers then s
  else
    let t := { s with out := s.out ++ [Out.tdo ((List.range 40).map (fun i => i % 8 == 0))] }
    let u := t.tapLoad d code
    let v := if d = .hbd ∧ u.tap.driving ≠ [] then u.drivePins else u
    (v.scanDr d x).updateDr d x

/-- R434: BYPASS, by its own code or by one that is no other instruction's. -/
def execBypass (x : TapCmd) (s : State) : Outcm :=
  .next (s.tapScan x.die (if 1 ≤ x.scan.code.toNat ∧ x.scan.code.toNat ≤ 7 then 0xFF else x.scan.code.toNat) x.scan)

/-- R434: IDCODE. -/
def execIdcode (x : TapCmd) (s : State) : Outcm := .next (s.tapScan x.die 0x01 x.scan)

/-- R434: SAMPLE/PRELOAD captures the pins that a die's boundary cells see, and the bits shifted in are what EXTEST and CLAMP drive. -/
def execSamplePreload (die : Die) (scan : TapScan) (s : State) : Outcm := .next (s.tapScan die 0x02 scan)

/-- R434: EXTEST. -/
def execExtest (x : TapCmd) (s : State) : Outcm := .next (s.tapScan x.die 0x03 x.scan)

/-- R436: EXTEST_PULSE. -/
def execExtestPulse (x : TapCmd) (s : State) : Outcm := .next (s.tapScan x.die 0x04 x.scan)

/-- R436: EXTEST_TRAIN. -/
def execExtestTrain (x : TapCmd) (s : State) : Outcm := .next (s.tapScan x.die 0x05 x.scan)

/-- R434: CLAMP. -/
def execClamp (x : TapCmd) (s : State) : Outcm := .next (s.tapScan x.die 0x06 x.scan)

/-- R434: HIGHZ. -/
def execHighz (x : TapCmd) (s : State) : Outcm := .next (s.tapScan x.die 0x07 x.scan)

end Sys2Proof.Machine
end

