-- ==== Sys2Proof/Machine/RegView.lean ====
section
/-! DEFINITION. What a register or a table window reads as (R396, R397, R402 to R404, R411 to R418): the stored word, or the
value that the field table gives a register which shows state of the block. -/

namespace Sys2Proof.Machine

/-- A number as a register word. -/
def w32 (n : Nat) : W32 := BitVec.ofNat 32 n

/-- A signed number as a register word. -/
def w32i (v : Int) : W32 := BitVec.ofNat 32 (patternW 32 v)

/-! ### Hub die -/

/-- HK registers that show state. -/
def State.viewHk (s : State) (a : Nat) : Option W32 :=
  if a = Reg.HK_ID then some Config.revision
  else if a = Reg.HK_SERIAL_LO then some (halfOf s.nvd.serial false)
  else if a = Reg.HK_SERIAL_HI then some (halfOf s.nvd.serial true)
  else if a = Reg.HK_MODE then
    let target := match s.hk.target with
      | some m => m.code
      | none => 0
    some (word32 [(target, 4), (0, 3), (b2n s.hk.target.isSome, 1), (s.hk.cause, 8), (s.hk.prev.code, 4), (s.hk.mode.code, 4)])
  else if a = Reg.HK_RST_STS then some (putBits (s.reg a) 31 31 (b2n s.hk.rstN))
  else if a = Reg.HK_NVD_STS then some (putBits (s.reg a) 1 0 (b2n s.nvd.verA + 2 * b2n s.nvd.verB))
  else if a = Reg.HK_PQ_STS then (if s.hk.mode = .boot then none else some s.pqSts)
  else if Reg.HK_IDCODE ≤ a ∧ a < Reg.HK_IDCODE + 24 then some (Config.idcode ((a - Reg.HK_IDCODE) / 4))
  else none

/-- TB_STS (R257 to R265). -/
def State.viewTb (s : State) (a : Nat) : Option W32 :=
  if a = Reg.TB_STS then
    some (word32 [(b2n s.tb.holdValid, 1), (b2n s.tb.gmOk, 1), (b2n s.tb.stale, 1), (b2n s.tb.slewing.isSome, 1),
      (b2n s.tb.stepPending, 1), (b2n s.tb.srcXo, 1), (0, 1), (s.tb.state.code, 2)])
  else none

/-- LN_STS_n. -/
def State.lnSts (s : State) (n : Nat) : W32 :=
  let l := s.lane n
  word32 [(l.st, 3), (b2n l.los, 1), (b2n l.lol, 1), (b2n l.block, 1), (b2n l.degraded, 1), (l.rate, 2), (l.ctle, 4), (0, 2),
    (l.fom, 7), (l.slip, 7), (0, 3)]

/-- LN_LAT of a lane (R281); a lane that has never locked shows the reset value. -/
def State.lnLat (s : State) (n : Nat) : W32 :=
  let l := s.lane n
  if l.st ≠ 5 ∧ l.stored = none then 0
  else word32 [(patternW 16 (s.txLatency n), 16), (patternW 16 (s.rxLatency n), 16)]

/-- The registers that act on the lane in LN_SEL. -/
def lnSelected : List Nat :=
  [Reg.LN_PRBS_CFG, Reg.LN_PRBS_ERR, Reg.LN_PRBS_BITS, Reg.LN_PRBS_SYNC_CNT, Reg.LN_LOS_CNT, Reg.LN_LOL_CNT,
    Reg.LN_BLKERR_CNT, Reg.LN_RETRAIN_CNT, Reg.LN_FAIL_CNT]

/-- The counters that act on the lane in LK_SC_SEL. -/
def lkSelected : List Nat :=
  [Reg.LK_LANE_TX_FRAMES, Reg.LK_LANE_RX_FRAMES, Reg.LK_LANE_TX_UNITS, Reg.LK_LANE_RX_UNITS, Reg.LK_LANE_ERR]

/-- LN registers that show state. -/
def State.viewLn (s : State) (a : Nat) : Option W32 :=
  if Reg.LN_CFG ≤ a ∧ a < Reg.LN_SEL ∧ a % 0x100 = 4 then some (s.lnSts ((a - Reg.LN_CFG) / 0x100))
  else if a = Reg.LN_LAT then some (s.lnLat s.lnSel)
  else if a = Reg.LN_PRBS_STS then some (w32 (b2n (s.lane s.lnSel).prbsSync))
  else none

/-- The lane in LK_SC_SEL. -/
def State.scSel (s : State) : Nat := s.fld Reg.LK_SC_SEL 4 0

/-- LK registers that show state. -/
def State.viewLk (s : State) (a : Nat) : Option W32 :=
  let l := s.lane s.scSel
  let limb := s.role == .limb
  let src := (a - Reg.LK_RX_FSEQ) / 4 + 1
  if a = Reg.LK_SC_STS then
    some (word32 [(b2n l.synced, 1), (0, 9), ((s.resp.filter (fun e => e.1 == s.scSel)).length, 6), (l.e, 16)])
  else if a = Reg.LK_SC_E then some (w32 l.e)
  else if a = Reg.LK_SET_UP then some (w32 (((s.outSet.filter s.laneUp).map (fun n => 2 ^ n)).sum))
  else if a = Reg.LK_FSEQ_TX then some (w32 s.ulp.fseq)
  else if a = Reg.LK_ACKED then some (w32 s.ulp.acked)
  else if a = Reg.LK_REPLAY_FILL then some (w32 (s.replayBytes % 0x1000000))
  else if a = Reg.LK_REPLAY_PEAK then some (w32 (s.ulp.peak % 0x1000000))
  else if a = Reg.LK_REPLAY_OLDEST then some (w32 ((s.ulp.held.head?.map Frame.fseq).getD 0))
  else if a = Reg.LK_RESEND_LAST then some (w32 s.ulp.resendLast)
  else if a = Reg.LK_GEN_RX then some (if limb then s.ulp.genRx.setWidth 32 else 0)
  else if a = Reg.LK_CR_CUM then some (if limb then w32 s.ulp.cumRx else 0)
  else if a = Reg.LK_ALLOW then some (if limb then w32 (s.ulp.allow % 0x1000000) else 0)
  else if Reg.LK_RX_FSEQ ≤ a ∧ a < Reg.LK_RX_FSEQ + 28 then some (if s.role = .head then w32 (s.peer src).next else 0)
  else none

/-- The peer pointers of the latest acknowledged checkpoint (R316). -/
def State.ackedPeers (s : State) : Sparse Nat :=
  match s.other.ckpt with
  | some c => c.peers
  | none => (s.cd.ckpt.map Ckpt.peers).getD []

/-- RD registers that show state. The time since a heartbeat is not held: its two fields are open. -/
def State.viewRd (s : State) (a : Nat) : Option W32 :=
  if a = Reg.RD_AUTH then some (word32 [(s.rd.gen.toNat, 8), (0, 7), (b2n s.rd.activeB, 1)])
  else if a = Reg.RD_CMD then
    some (word32 [(b2n s.rd.rejoin.isSome, 1), (b2n (s.rd.step != 0 && s.fld Reg.RD_LAST 3 0 == 5), 1)])
  else if a = Reg.RD_STS then
    some (word32 [(s.rd.failsB, 4), (s.rd.failsA, 4), (0, 5), (s.cdb.st, 3), (0, 5), (s.cda.st, 3)])
  else if a = Reg.RD_REJOIN_STEP then
    some (match s.rd.rejoin with
      | some (b, n) => word32 [(b2n b, 1), (0, 5), (n, 3)]
      | none => 0)
  else if a = Reg.RD_PEER_PTR then
    let i := s.fld Reg.RD_PEER_SEL 2 0
    some (if s.role = .head ∧ i ≠ 0 then w32 (Sparse.get 0 s.ackedPeers i) else 0)
  else none

/-- AGE registers that show state. -/
def State.viewAge (s : State) (a : Nat) : Option W32 :=
  let i := s.fld Reg.AGE_RO_SEL 5 0
  if a = Reg.AGE_VTRIM then
    some (word32 [(nth 0 s.age.vtrim 3, 4), (nth 0 s.age.vtrim 2, 4), (nth 0 s.age.vtrim 1, 4), (nth 0 s.age.vtrim 0, 4)])
  else if a = Reg.AGE_RO then some (word32 [(nth 0 s.age.roRef i, 16), (nth 0 s.age.fn i, 16)])
  else none

/-- ATT registers that show state. -/
def State.viewAtt (s : State) (a : Nat) : Option W32 :=
  let done := s.att.buf != []
  if a = Reg.ATT_CMD then some (w32 (b2n s.att.busy.isSome))
  else if a = Reg.ATT_STS then
    some (word32 [(if done then s.att.bufRid else 0, 16), (0, 13), (b2n s.att.bootOk, 1), (b2n done, 1),
      (b2n s.att.busy.isSome, 1)])
  else none

/-- MBX_REQ and MBX_STS. -/
def State.viewMbx (s : State) (a : Nat) : Option W32 :=
  if a = Reg.MBX_REQ then some s.mbx.req
  else if a = Reg.MBX_STS then
    some (word32 [(s.mbx.rqn.toNat, 8), (s.mbx.item, 8), (0, 3), (s.mbx.lane, 5), (s.mbx.nw, 4), (0, 3), (b2n s.mbx.valid, 1)])
  else none

/-! ### Front-end die -/

/-- FE_STATE (R102, R103). -/
def State.feState (s : State) : W32 :=
  let on := s.aclkRuns
  let settling := on && decide (s.tb.tn < s.fe.settle)
  word32 [(b2n settling, 1), (if !on then 0 else if s.linesOn then 2 else 1, 2)]

/-- Records in the retention buffer (R194). -/
def State.retFill (s : State) : Nat := s.fed.ret.length

/-- The code of the running TDC command. -/
def State.cdRunning (s : State) : Nat :=
  match s.tdc.fill with
  | none => 0
  | some f => if f.swap then 3 else if f.internal then 1 else 2

/-- The code of a bank's state. -/
def BankSt.code : BankSt → Nat
  | .table => 0 | .filling => 1 | .failed => 2

/-- TDC_CD_QUAL of the selected channel. -/
def State.cdQual (s : State) : W32 :=
  let b := s.banks s.cdSel.1
  word32 [(b2n b.active, 1), (b.result, 3), ((b.st (!b.active)).code, 2), (b.fillLen, 2), (0, 13), (b.span, 11)]

/-- FE registers that show state. -/
def State.viewFe (s : State) (a : Nat) : Option W32 :=
  if a = Reg.FE_INJ_CTRL then some (putBits (s.reg a) 0 0 (b2n s.fe.inj.running))
  else if a = Reg.FE_RATE_GATE then some (putBits (s.reg a) 31 24 s.fe.gateSeq.toNat)
  else if a = Reg.FE_RATE_DATA then
    some (word32 [(s.fe.snapSeq.toNat, 8), (Sparse.get 0 s.fe.snap (s.fld Reg.FE_RATE_SEL 11 0), 24)])
  else if a = Reg.FE_STATE then some s.feState
  else if a = Reg.FE_RET_STS then some (word32 [(b2n s.fed.retShort, 1), (0, 11), (s.retFill, 20)])
  else if a = Reg.FE_RET_LOST then some (w32 s.fed.retLost)
  else none

/-- TDC and WF registers that show state. -/
def State.viewTdc (s : State) (a : Nat) : Option W32 :=
  if a = Reg.TDC_CD_CMD then some (w32 s.cdRunning)
  else if a = Reg.TDC_CD_STS then
    some (word32 [(((s.tdc.fill.map Fill.remain).getD []).length, 13), (0, 3), (s.tdc.hard, 13)])
  else if a = Reg.TDC_CD_QUAL then some s.cdQual
  else if a = Reg.TDC_SKW_MEAN then some s.skwMean
  else if a = Reg.WF_EFF then some (word32 [(s.wfBudget, 11), (0, 1), (s.wfPost, 7), (0, 1), (s.wfInterval, 3), (0, 4)])
  else if a = Reg.WF_RING_STS then
    let c := s.fld Reg.WF_RING_SEL 11 0
    some (word32 [((s.ringAt c 3).st, 3), ((s.ringAt c 2).st, 3), ((s.ringAt c 1).st, 3), ((s.ringAt c 0).st, 3)])
  else none

/-! ### Concentrators -/

/-- Channels suppressed in the newest open slice, by either trigger of R198. -/
def Cd.hotNum (c : Cd) : Nat :=
  match c.opened.getLast? with
  | none => 0
  | some x => (x.hot ++ ((c.quotaSup.filter (fun q => q.2.1 == x.n)).map Prod.fst)).eraseDups.length

/-- COL and Q registers that show state, of the active CD. -/
def State.viewCol (s : State) (a : Nat) : Option W32 :=
  let c := s.cd
  let q := c.queue (s.fld Reg.Q_DESC_SEL 14 0)
  if a = Reg.COL_HOT_NUM then some (w32 (c.hotNum % 0x2000))
  else if a = Reg.Q_FREE then some (w32 c.f)
  else if a = Reg.Q_ALLOW then some (w32 (c.a % 0x10000))
  else if a = Reg.Q_CRED_OUT then some (w32 (c.cOut % 0x40000))
  else if a = Reg.Q_GEN then some (w32 c.gen.toNat)
  else if a = Reg.Q_FLUSH then some (putBits (s.reg a) 0 0 (b2n (c.flushing != [])))
  else if a = Reg.Q_DESC_DEPTH then some (w32 (q.ents.length % 0x800000))
  else if a = Reg.Q_DESC_SLICE then some (w32 ((q.ents.head?.map Ent.slice).getD 0))
  else none

/-- SLC_LAT_MAX (R234). -/
def State.latMax (s : State) : W32 :=
  let ticks := 2 ^ s.k + s.late
  let hundred := fun (t : Nat) => (t + 31) / 32
  let n := if s.role = .head then hundred (ticks + s.peerWait) + 360 else hundred ticks + 600
  word32 [(n + 500, 16), (n, 16)]

/-- SLC registers that show state, of the active CD. -/
def State.viewSlc (s : State) (a : Nat) : Option W32 :=
  let c := s.cd
  let x := (c.opened.getLast?).getD ⟨0, 0, 0, false, [], 0⟩
  if a = Reg.SLC_EFF then some (s.eff Reg.SLC_EFF)
  else if a = Reg.SLC_LAT_MAX then some s.latMax
  else if a = Reg.SLC_STATE then
    some (word32 [(c.opened.length, 7), (x.level, 3), (x.step, 3), (c.ladder.level, 3), (min 255 c.ladder.since, 8),
      (c.ladder.lastP, 8)])
  else if a = Reg.SLC_NEWEST then some (w32 x.n)
  else if a = Reg.SLC_OLDEST then some (w32 ((c.opened.head?.map SliceSt.n).getD 0))
  else if a = Reg.SLC_PRESS then some (word32 [(c.ladder.output, 8), (c.ladder.replay, 8), (c.ladder.pantry, 8)])
  else none

/-- TRG registers that show state, of the active CD. -/
def State.viewTrg (s : State) (a : Nat) : Option W32 :=
  if a = Reg.TRG_LAT then
    some (if s.role = .limb then word32 [(s.ring.keepLag, 16), (0, 16)] else word32 [(s.keepLat, 16), (0, 4), (s.ld, 12)])
  else if a = Reg.TRG_RING_STS then
    some (word32 [(b2n s.ringFault, 1), (b2n s.ring.aligned, 1), (0, 6), (s.dring, 12), (s.ring.loop, 12)])
  else if a = Reg.TRG_LOOP_CMD then some (w32 (b2n s.ring.task.isSome))
  else if a = Reg.TRG_RULE_CNT then some (s.regAt (instKey (s.phys a) (s.fld Reg.TRG_RULE_SEL 5 0)))
  else none

/-- STATE, PRODUCED and CONSUMED of an engine (R250). -/
def State.engSts (s : State) (e : Nat) : W32 :=
  match s.cd.jobs.find? (fun j => j.eng == e) with
  | none => 0
  | some j => word32 [(if j.st = 5 then 4 else j.st, 4), (8 * j.written, 13), (0, 5), (j.consumed, 10)]

/-- PRS registers that show state, of the active CD. -/
def State.viewPrs (s : State) (a : Nat) : Option W32 :=
  if a = Reg.PRS_ENG_STS then some (s.engSts (s.fld Reg.PRS_ENG_SEL 2 0)) else none

/-! ### Safety die -/

/-- A bit per element of a list, element 0 in bit 0. -/
def bitsOf (l : List Bool) : Nat := (List.range l.length).foldl (fun v i => v + b2n (nth false l i) * 2 ^ i) 0

/-- The bit of a cause in LID_CAUSE. -/
def causeBit (c : Nat) : Nat := if c ≥ 0x10 then 2 ^ (16 + (c - 0x10)) else 2 ^ (c - 1)

/-- LID_STS. -/
def State.lidSts (s : State) : W32 :=
  let l := s.lid
  word32 [(l.first, 8), (b2n l.rstIn, 1), (b2n l.agree, 1), (b2n s.hk.v24, 1), (b2n (s.hk.v12 && !l.progFail), 1),
    (b2n s.v24ok, 1), (b2n l.fbbOpen, 1), (b2n l.fbaOpen, 1), (b2n l.h.drive, 1), (b2n l.p.drive, 1),
    (bitsOf l.qclosed, 4), (0, 8), (l.state.code, 3)]

/-- LID_IN_STS. -/
def State.lidIn (s : State) : W32 :=
  let l := s.lid
  let has := fun (x : LidChan) (i : Nat) => decide (nth 0 x.cnt i > 0)
  let lat := fun (x : LidChan) (i : Nat) => decide (nth 0 x.disc i > 0)
  let both := fun (f : LidChan → Nat → Bool) => bitsOf ((List.range 4).map (fun i => f l.p i || f l.h i))
  word32 [(both has, 4), (both lat, 4), (bitsOf l.h.filt, 8), (bitsOf l.p.filt, 8)]

/-- LID_MON of the selected quadrant and side. -/
def State.lidMon (s : State) : W32 :=
  let c := if s.bit Reg.LID_MON_SEL 2 then s.lid.h else s.lid.p
  let q := nth Quad.zero c.quads (s.fld Reg.LID_MON_SEL 1 0)
  word32 [(q.i, 16), (q.v, 16)]

/-- LID registers that show state. -/
def State.viewLid (s : State) (a : Nat) : Option W32 :=
  let l := s.lid
  if a = Reg.LID_STS then some s.lidSts
  else if a = Reg.LID_CAUSE then some (w32 (((l.p.causes ++ l.h.causes).eraseDups.map causeBit).sum))
  else if a = Reg.LID_IN_STS then some s.lidIn
  else if a = Reg.LID_MON then some s.lidMon
  else if a = Reg.LID_ROM_ID then some Config.lidRomId
  else if a = Reg.LID_CRC_P then some l.p.crc
  else if a = Reg.LID_CRC_H then some l.h.crc
  else if Reg.LID_PAR ≤ a ∧ a < Reg.LID_PAR + 128 then some (w32 (leNat ((l.h.par.drop (a - Reg.LID_PAR)).take 4)))
  else none

/-! ### Error blocks -/

/-- The die of an ERR block address, the alias naming the active CD. -/
def State.errDie (s : State) (a : Nat) : Die :=
  match a / 0x100000 with
  | 0 => .hbd | 1 => .fed | 3 => .cda | 4 => .cdb | _ => s.activeDie

/-- ERR registers behind a selector. -/
def State.viewErr (s : State) (d : Die) (n : Nat) : Option W32 :=
  let r := fun (x : Nat) => s.regAt (errReg d x)
  let mem := bits (r Reg.ERR_MEM_SEL) 7 0
  if n = Reg.ERR_MEM_CORR_CNT ∨ n = Reg.ERR_MEM_UNCORR_CNT ∨ n = Reg.ERR_MEM_LAST then some (s.regAt (instKey (errReg d n) mem))
  else if n = Reg.ERR_SCRUB_CFG then
    some (putBits (r n) 31 16 (bits (s.regAt (instKey (errReg d n) mem)) 31 16))
  else if n = Reg.ERR_LOSS then
    some (putBits (r n) 31 8 (s.regAt (instKey (errReg d n) (bits (r n) 7 0))).toNat)
  else none

/-! ### A register -/

/-- Is an address that of an ERR block (R413). -/
def isErrAddr (a : Nat) : Bool := decide (a / 0x100000 ≤ 4) && a / 0x10000 % 16 == 8

/-- The state in which the alias names the CD that an address of nibble 3 or 4 names. -/
def State.asDie (s : State) (a : Nat) : State :=
  match a / 0x100000 with
  | 3 => { s with rd := { s.rd with activeB := false } }
  | 4 => { s with rd := { s.rd with activeB := true } }
  | _ => s

/-- Is a field's register of the STS type. -/
def isSts (n : Nat) : Bool := (regFields n).any (fun f => f.ty == .sts)

/-- The key that a register's stored word stands under: a selected lane's where it acts on one. -/
def State.keyOf (s : State) (a : Nat) : Nat :=
  if lnSelected.contains a then instKey a s.lnSel
  else if lkSelected.contains a then instKey a s.scSel
  else s.phys a

/-- What a register that holds no code-word data reads as, `n` its normal address. -/
def State.viewReg (s : State) (a : Nat) : W32 :=
  let n := normAddr a
  if isSts n then (s.stsOf a).word
  else
    let t := s.asDie a
    let v := match a / 0x10000 % 16, a / 0x100000 with
      | 8, _ => s.viewErr (s.errDie a) n
      | 0, 0 => s.viewHk a
      | 1, 0 => s.viewTb a
      | 2, 0 => s.viewLn a
      | 3, 0 => s.viewLk a
      | 4, 0 => s.viewRd a
      | 5, 0 => s.viewAge a
      | 6, 0 => s.viewAtt a
      | 7, 0 => s.viewMbx a
      | 0, 1 => s.viewFe a
      | 1, 1 => s.viewTdc a
      | 2, 1 => s.viewTdc a
      | 0, 5 => s.viewLid a
      | 0, _ => t.viewCol n
      | 1, _ => t.viewCol n
      | 2, _ => t.viewSlc n
      | 3, _ => t.viewTrg n
      | _, _ => t.viewPrs n
    v.getD (s.regAt (s.keyOf a))

/-! ### Table windows -/

/-- The 64-bit word of a window that the FED or the HBD serves, and where it is stored; `none` in reserved space (R403,
R417). -/
def wideEntry (a : Nat) : Option (Die × Nat × Nat) :=
  let w := a / 0x100000
  if w = 8 ∨ w = 12 then (tableWord a).map (fun x => (Die.fed, x.1, x.2)) else none

/-- A word of the queue map, the rule table or the region table of a CD. -/
def Cd.tableWord (c : Cd) (a : Nat) : W32 :=
  let o := a % 0x100000
  match a / 0x100000 with
  | 9 => Sparse.get 0 c.qmap (o / 4)
  | 10 => Sparse.get 0 c.rules (o / 4)
  | _ => Sparse.get 0 c.regions (o / 4)

/-- A read of a window word through the code that protects it (R337). -/
def State.windowRep (s : State) (d : Die) (mem idx : Nat) (data : State → W32) : Rep :=
  let r := s.memRead d mem idx
  if r.1 then ⟨Stat.ok, data r.2, r.2⟩ else .no Stat.uncorrectable r.2

/-- What a window address reads as. -/
def State.viewWindow (s : State) (a : Nat) : Rep :=
  let high := a % 8 == 4
  let off := a % 0x100000
  match a / 0x100000 with
  | 13 =>
    let p := s.nvdAddr off
    if nvdPlace p = .reserved then .done s
    else s.windowRep .hbd 0x04 (p / 8) (fun t => halfOf (t.nvd.word p) high)
  | 12 =>
    if off < 0x40 then ⟨Stat.ok, halfOf (Sparse.get 0 s.cal.hdr (off / 8)) high, s⟩
    else match wideEntry a with
      | some (d, m, i) =>
        s.windowRep d m i (fun t => halfOf (if i < 4096 then (t.calWord i).setWidth 64 else t.memData d m i) high)
      | none => .done s
  | 8 =>
    match wideEntry a with
    | some (d, m, i) => s.windowRep d m i (fun t => halfOf (t.memData d m i) high)
    | none => .done s
  | _ =>
    match tableWord a with
    | some (m, i) => s.windowRep s.activeDie m i (fun t => t.cd.tableWord a)
    | none => .done s

/-! ### A read -/

/-- The diagnostic registers of R413 and R414: block base and number. -/
def diagBlocks : List (Nat × Nat) :=
  [(0x010800, 51), (0x022800, 18), (0x050800, 28), (0x060800, 11), (0x100800, 65), (0x110800, 35), (0x120800, 37),
    (0x200800, 13), (0x210800, 53), (0x220800, 38), (0x230800, 78), (0x240800, 46), (0x250800, 16)]

/-- Is an address that of a diagnostic register. -/
def isDiag (a : Nat) : Bool :=
  diagBlocks.any (fun b => decide (b.1 ≤ normAddr a ∧ normAddr a < b.1 + 4 * b.2))

/-- Is an address in the HK block or in an ERR block, whose reads BOOT accepts (R50). -/
def readsHk (a : Nat) : Bool := decide (a < 0x10000) || isErrAddr a

/-- The read of an address by a request (R50, R402, R404, R414). In TEST a diagnostic register shows an open word. -/
def State.readAct (s : State) (a : Nat) : Rep :=
  if a = Reg.TDC_CD_DATA then s.cdDataRead
  else if Reg.MBX_DATA ≤ a ∧ a < Reg.MBX_DATA + 24 then s.mbxRead ((a - Reg.MBX_DATA) / 4)
  else if !s.allows (if readsHk a then .readHk else .readOther) then .no Stat.stateReject s
  else if 8 ≤ a / 0x100000 ∧ a / 0x100000 ≤ 13 then s.viewWindow a
  else if a / 0x100000 ≤ 5 ∧ (regRow (normAddr a)).isSome then
    if a = Reg.RD_HB_AGE then ⟨Stat.ok, (Config.free32 s.free), { s with free := s.free + 1 }⟩ else ⟨Stat.ok, s.viewReg a, s⟩
  else if s.hk.mode = .test ∧ isDiag a then ⟨Stat.ok, Config.free32 s.free, { s with free := s.free + 1 }⟩
  else .done s

end Sys2Proof.Machine
end

