-- ==== Sys2Proof/Machine/RegAccess.lean ====
section
/-! DEFINITION. A write to any address (R396 to R404, R411, R412, R418) and the slow-control requests that carry reads and
writes (R306 to R310), with the meanings of their commands. -/

namespace Sys2Proof.Machine

/-! ### Sticky status -/

/-- A write of an STS register (R341, R399, R401). -/
def State.stsWrite (s : State) (k : Nat) (data : W32) (be : BitVec 4) : Rep :=
  let e := s.stsAt k
  let w : BitVec 8 := data.extractLsb' 24 8
  let bad := !be.getLsbD 3 || decide (sdiffW 8 w.toNat e.seq.toNat > 0)
  s.guarded bad false .writeCfg false
    { s with sts := Sparse.put Sts.zero k (e.clear w (maskBE data be)) s.sts }

/-! ### Concentrators -/

/-- The ladder registers, whose adjusted values set SLC_EVT.CFG_CLAMP. -/
def ladderRegs : List Nat := [Reg.SLC_LADDER_UP, Reg.SLC_LADDER_DOWN, Reg.SLC_LADDER_CFG, Reg.SLC_THROTTLE]

/-- What a stored CD register sets off: values that are adjusted, and held values that act at once outside a run. -/
def State.cdStored (s : State) (n : Nat) (live : Bool) : State :=
  if appliedRegs.contains n then (if live then s.latchNow n else s)
  else if Reg.TRG_PRIM_C ≤ n ∧ n < Reg.TRG_PRIM_C + 16 then s.eventIf (primClamped (s.reg n)) Reg.TRG_EVT [0]
  else if ladderRegs.contains n then s.eventIf s.ladderClamped Reg.SLC_EVT [4]
  else s

/-- A CD register without commands of its own, by its alias address, in the CD that the alias names. -/
def State.cdPlain (s : State) (n : Nat) (live : Bool) (data : W32) (be : BitVec 4) : Rep :=
  let k := s.phys n
  if isSts n then s.stsWrite k data be
  else
    let r := s.plainWrite k data be (if n = Reg.SLC_THROTTLE then .throttleFlush else .writeCfg)
    if r.status = Stat.ok then .done (r.st.cdStored n live) else r

/-- The same in the active CD, commands included. -/
def State.cdActive (s : State) (n : Nat) (data : W32) (be : BitVec 4) : Rep :=
  if n = Reg.SLC_THROTTLE then s.throttleWrite data be
  else if n = Reg.Q_FLUSH then s.flushWrite data be
  else if n = Reg.TRG_LOOP_CMD then s.loopWrite data be
  else s.cdPlain n true data be

/-- A write of a CD register through nibble 2, 3 or 4 (R411, R412). The commands of a CD that is not active start nothing. -/
def State.cdWrite (s : State) (a : Nat) (data : W32) (be : BitVec 4) : Rep :=
  let n := normAddr a
  let t := s.asDie a
  if a / 0x100000 = 2 then (s.cdActive n data be).mirrored (fun u => u.cdPlain n false data be)
  else if t.rd.activeB = s.rd.activeB then s.cdActive n data be
  else
    let r := t.cdPlain n false data be
    { r with st := { r.st with rd := { r.st.rd with activeB := s.rd.activeB } } }

/-! ### Other registers -/

/-- A register of an ERR block. -/
def State.errWrite (s : State) (a : Nat) (data : W32) (be : BitVec 4) : Rep :=
  let d := s.errDie a
  let n := normAddr a
  let k := errReg d n
  let sel := if n = Reg.ERR_MEM_CORR_CNT ∨ n = Reg.ERR_MEM_UNCORR_CNT ∨ n = Reg.ERR_MEM_LAST
    then instKey k (bits (s.regAt (errReg d Reg.ERR_MEM_SEL)) 7 0) else k
  if isSts n then s.stsWrite k data be
  else if n = Reg.ERR_REPAIR then s.repairWrite d data be
  else if n = Reg.ERR_ECC_TEST then s.eccTestWrite d data be
  else s.plainWrite sel data be .writeCfg

/-- A WF register whose value is adjusted sets WF_EVT.CFG_CLAMP. -/
def State.wfWrite (s : State) (a : Nat) (data : W32) (be : BitVec 4) : Rep :=
  let r := s.plainWrite a data be .writeCfg
  let t := r.st
  let adjusted := (a == Reg.WF_CTRL && (t.fld Reg.WF_CTRL 14 8 != t.wfPost || t.fld Reg.WF_CTRL 6 4 != t.wfInterval)) ||
    (a == Reg.WF_HOLD && t.fld Reg.WF_HOLD 10 0 != t.wfBudget)
  if r.status = Stat.ok then .done (t.eventIf adjusted Reg.WF_EVT [4]) else r

/-- AGE_RO_SEL: a value above 39 is malformed. -/
def State.roSelWrite (s : State) (data : W32) (be : BitVec 4) : Rep :=
  let v := mergeBE (s.reg Reg.AGE_RO_SEL) data be
  s.guarded (decide (bits v 5 0 > 39)) (s.lockHit Reg.AGE_RO_SEL v) .writeCfg false (s.storeFields Reg.AGE_RO_SEL v)

/-- A write of a register of the HBD, the FED or the SFD, outside the ERR blocks. -/
def State.dieWrite (s : State) (lane a : Nat) (data : W32) (be : BitVec 4) : Rep :=
  if isSts a then s.stsWrite a data be
  else if a = Reg.HK_MODE_REQ then s.modeReqWrite data be
  else if a = Reg.HK_NVD_CMD then s.nvdCmdWrite data be
  else if a = Reg.HK_NVD_PAGE then s.plainWrite a data be .nvdSlot
  else if a = Reg.TB_INC_LO then s.tbIncWrite false data be
  else if a = Reg.TB_INC_HI then s.tbIncWrite true data be
  else if Reg.LN_CFG ≤ a ∧ a < Reg.LN_SEL ∧ a % 0x100 = 0 then s.laneCfgWrite ((a - Reg.LN_CFG) / 0x100) data be
  else if a = Reg.LN_PRBS_CFG then s.prbsWrite lane data be
  else if a = Reg.LN_PRBS_CLR then s.prbsClear (bitOf (mergeBE 0 data be) 0)
  else if a = Reg.RD_CMD then s.rdCmdWrite data be
  else if a = Reg.AGE_RO_SEL then s.roSelWrite data be
  else if a = Reg.ATT_CMD then s.attCmdWrite data be
  else if a = Reg.MBX_REQ then s.mbxReqWrite lane data be
  else if a = Reg.FE_GROUP_EN_0 then s.groupWrite false data be
  else if a = Reg.FE_GROUP_EN_1 then s.groupWrite true data be
  else if a = Reg.FE_CTRL then s.biasWrite data be
  else if a = Reg.FE_INJ_CTRL then s.injWrite data be
  else if a = Reg.FE_RATE_GATE then s.gateWrite data be
  else if a = Reg.TDC_CD_CMD then s.cdCmd (bits (mergeBE 0 data be) 3 0)
  else if a = Reg.TDC_CD_DATA then s.cdDataWrite data be
  else if a = Reg.TDC_SKW_CTRL then s.skwWrite data be
  else if a = Reg.WF_CTRL ∨ a = Reg.WF_HOLD then s.wfWrite a data be
  else if a = Reg.LID_CMD then s.lidCmd (mergeBE 0 data be)
  else if a = Reg.LID_QEN then s.qenWrite data be
  else s.plainWrite (s.keyOf a) data be .writeCfg

/-! ### Table windows -/

/-- Store a word of the queue map, the rule table or the region table: reserved bits stay zero (R10). -/
def Cd.putTable (c : Cd) (a : Nat) (v : W32) : Cd :=
  let i := a % 0x100000 / 4
  match a / 0x100000 with
  | 9 => { c with qmap := Sparse.put 0 i (v &&& qmapMask) c.qmap }
  | 10 => { c with rules := Sparse.put 0 i (v &&& ruleMask (i % 16)) c.rules }
  | _ => { c with regions := Sparse.put 0 i (v &&& regionMask i) c.regions }

/-- A write of a table that the CDs hold, in the CD that the alias names; an adjusted rule sets TRG_EVT.CFG_CLAMP (R155). -/
def State.tableWriteIn (s : State) (a : Nat) (data : W32) (be : BitVec 4) : Rep :=
  match tableWord a with
  | none => s.guarded false false .writeCfg false s
  | some (m, i) =>
    let eff := fun (t : State) =>
      let u := t.setCd (t.cd.putTable a (mergeBE (t.cd.tableWord a) data be))
      u.eventIf (a / 0x100000 == 10 && ruleClamped (a % 64 / 4) (u.cd.tableWord a)) Reg.TRG_EVT [0]
    s.guardedR false false .tableWrite false (s.merged s.activeDie m i eff)

/-- A write of the calibration view (R80, R418): the header is read-only, a commit makes the entries wait. -/
def State.calWrite (s : State) (a : Nat) (data : W32) (be : BitVec 4) : Rep :=
  let high := a % 8 == 4
  let wait := match s.nvd.busy with
    | some (.commit, _) => true
    | _ => false
  match tableWord a with
  | none => s.guarded false false .writeCfg false s
  | some (m, i) =>
    let eff := fun (t : State) =>
      let w := t.memData .fed m i
      t.setMemData .fed m i (setHalf w high (mergeBE (halfOf w high) data be))
    s.guardedR false false .tableWrite wait
      (if i < 4096 then (if high then s.merged .fed m i (fun t => t) else s.chanWrite i false data be)
       else s.merged .fed m i eff)

/-- A write of a table window address (R403, R417). -/
def State.windowWrite (s : State) (a : Nat) (data : W32) (be : BitVec 4) : Rep :=
  let off := a % 0x100000
  match a / 0x100000 with
  | 13 => s.nvdWrite off data be
  | 12 => s.calWrite a data be
  | 8 => if off < 0x8000 then s.chanWrite (off / 8) (off % 8 == 4) data be else s.guarded false false .writeCfg false s
  | _ => (s.tableWriteIn a data be).mirrored (fun u => u.tableWriteIn a data be)

/-! ### A request -/

/-- The write of an address by a request on a lane. Reserved space and diagnostic registers store nothing (R404, R414). -/
def State.writeAct (s : State) (lane a : Nat) (data : W32) (be : BitVec 4) : Rep :=
  let die := a / 0x100000
  if a % 4 ≠ 0 then .no Stat.badFormat s
  else if 8 ≤ die ∧ die ≤ 13 then s.windowWrite a data be
  else if die > 5 ∨ (regRow (normAddr a)).isNone then s.guarded false false .writeCfg false s
  else if isErrAddr a then
    let r := s.errWrite a data be
    if die = 2 then r.mirrored (fun t => t.errWrite a data be) else r
  else if 2 ≤ die ∧ die ≤ 4 then s.cdWrite a data be
  else s.dieWrite lane a data be

/-- A WRITE request at the sequence stage. -/
def State.writeRequest (s : State) (lane a : Nat) (data : W32) (be : BitVec 4) : State :=
  s.accessW lane a be (fun t => t.writeAct lane a data be)

/-- R399: a write to an STS register. -/
def execStsWrite (lane : Lane) (addr : BitVec 24) (data : W32) (be : BitVec 4) (s : State) : Outcm :=
  .next (s.writeRequest lane addr.toNat data be)

/-- R397: a write to a register. -/
def execRegisterWrite (lane : Lane) (addr : BitVec 24) (data : W32) (be : BitVec 4) (s : State) : Outcm :=
  .next (s.writeRequest lane addr.toNat data be)

/-- A READ request at the sequence stage: a POP may stall, the HK block and the HBD's ERR block return data even with
RESET_STUCK (R53, R210). -/
def State.readRequest (s : State) (lane a : Nat) : State :=
  if a = Reg.HK_PQ_POP_LO then s.popLoRequest lane
  else if a = Reg.HK_PQ_POP_HI then s.accessHk lane a (fun t => t.popHi lane)
  else if a < 0x10000 ∨ a / 0x10000 = 8 then s.accessHk lane a (fun t => t.readAct a)
  else s.access lane a (fun t => t.readAct a)

/-- A request with d = 0 is executed by its OP (R306, R308). -/
def State.runRequest (s : State) (lane : Nat) (req dat : W64) : State :=
  let op := bits req 58 57
  let a := bits req 39 16
  let be : BitVec 4 := dat.extractLsb' 56 4
  if op = 3 ∨ a % 4 ≠ 0 ∨ (op = 2 ∧ be = 0) ∨ (op ≠ 2 ∧ be ≠ 0) then s.access lane a (fun t => .no Stat.badFormat t)
  else if op = 0 then s.accessNop lane a
  else if op = 1 then s.readRequest lane a
  else s.writeRequest lane a (dat.extractLsb' 16 32) be

/-- A cached response goes out again (R307). -/
def State.resendCached (s : State) (lane : Nat) (r : Resp) : State :=
  if s.respUsed (s.respQueue lane) ≥ 32 then s.refuse lane r
  else (s.count Reg.LK_SC_DUP_CNT 1).respond lane r

/-- The sequence stage (R307). -/
def State.sequence (s : State) (lane : Nat) (req dat : W64) : State :=
  let l := s.lane lane
  let seq := bits req 55 40
  let a := bits req 39 16
  let d := sdiffW 16 seq l.e
  let t := s.countLane Reg.LK_LANE_RX_UNITS lane 2
  if bitOf req 59 then
    if bits req 58 57 ≠ 0 then t.refuse lane ⟨Stat.badFormat, seq, a, 0⟩
    else if s.respUsed (s.respQueue lane) ≥ 32 then (t.count Reg.LK_SC_NOSPACE_CNT 1).event Reg.LK_EVT [2]
    else (s.setLane lane { l with e := seq, synced := true, cache := [] }).runRequest lane req dat
  else if !l.synced then t.seqGap lane seq a
  else if d = 0 then s.runRequest lane req dat
  else if d > 0 then t.seqGap lane seq a
  else
    match (if d ≥ -32 then l.cache.find? (fun r => r.seq == seq) else none) with
    | some r => t.resendCached lane r
    | none => t.refuse lane ⟨Stat.stale, seq, a, 0⟩

/-- A pair whose second unit is missing, damaged or of another request (R306): counted once. -/
def State.pairFault (s : State) : State := (s.count Reg.LK_SC_CRC_CNT 1).event Reg.LK_EVT [0]

/-- A slow-control request as received (R293, R294, R306). DATA is zero in all but a WRITE. -/
def State.scRequest (s : State) (lane : Nat) (req dat : W64) : State :=
  if !s.pathOpen lane then s
  else if !unitCrcOk req then s.unitFault lane
  else if bitOf req 56 then s.frameFault lane false
  else if !unitCrcOk dat then s.unitFault lane
  else if bits dat 63 60 ≠ 0xB ∨ bits dat 55 48 ≠ bits req 47 40 then s.pairFault
  else if bits req 58 57 ≤ 1 ∧ bits dat 47 16 ≠ 0 then s.frameFault lane false
  else if !s.scRole lane then s.discard lane 2
  else (s.endStall lane).sequence lane req dat

/-- R308: a request; a NOP that reaches execution answers OK with DATA zero. -/
def execScNop (lane : Lane) (req dat : W64) (s : State) : Outcm :=
  if (Instr.scNop lane req dat).wf then .next (s.scRequest lane req dat)
  else .refused (.illFormed "SC_NOP")

/-- R307: a NOP with RESYNC sets E and SYNCED and clears the cache. -/
def execScResync (lane : Lane) (req dat : W64) (s : State) : Outcm :=
  if (Instr.scResync lane req dat).wf then .next (s.scRequest lane req dat)
  else .refused (.illFormed "SC_RESYNC")

end Sys2Proof.Machine
end

