-- ==== Sys2Proof/Machine/Dispatch.lean ====
section
/-! DEFINITION. The effect of a command on everything but the queue: one arm per row of the opcode table. -/

namespace Sys2Proof.Machine

def exec (i : Instr) (s : State) : Host.Outcome State Fault Refusal :=
  match i with
  | .powerOn rstN => Sys2Proof.Machine.execPowerOn rstN s
  | .powerLoss12V => Sys2Proof.Machine.execPowerLoss12V s
  | .supply24VApply => Sys2Proof.Machine.execSupply24VApply s
  | .supply24VLoss => Sys2Proof.Machine.execSupply24VLoss s
  | .supplyLowExpire => Sys2Proof.Machine.execSupplyLowExpire s
  | .rstNLow => Sys2Proof.Machine.execRstNLow s
  | .rstNRise lowMs => Sys2Proof.Machine.execRstNRise lowMs s
  | .resetStuck => Sys2Proof.Machine.execResetStuck s
  | .reqLoad lane => Sys2Proof.Machine.execReqLoad lane s
  | .reqSimmer lane => Sys2Proof.Machine.execReqSimmer lane s
  | .reqCalib lane => Sys2Proof.Machine.execReqCalib lane s
  | .reqRun lane => Sys2Proof.Machine.execReqRun lane s
  | .reqDrain lane now => Sys2Proof.Machine.execReqDrain lane now s
  | .reqSafe lane now => Sys2Proof.Machine.execReqSafe lane now s
  | .reqTest lane => Sys2Proof.Machine.execReqTest lane s
  | .safeExit lane => Sys2Proof.Machine.execSafeExit lane s
  | .loadSequence env => Sys2Proof.Machine.execLoadSequence env s
  | .loadComplete => Sys2Proof.Machine.execLoadComplete s
  | .lane0WaitExpire => Sys2Proof.Machine.execLane0WaitExpire s
  | .parkWindowExpire => Sys2Proof.Machine.execParkWindowExpire s
  | .modeTransitionComplete env => Sys2Proof.Machine.execModeTransitionComplete env s
  | .calibTaskComplete => Sys2Proof.Machine.execCalibTaskComplete s
  | .drainComplete => Sys2Proof.Machine.execDrainComplete s
  | .safeDrainEnd => Sys2Proof.Machine.execSafeDrainEnd s
  | .markSpillStart mseq slice now => Sys2Proof.Machine.execMarkSpillStart mseq slice now s
  | .markSpillEnd mseq slice now => Sys2Proof.Machine.execMarkSpillEnd mseq slice now s
  | .markSync mseq slice tick id now => Sys2Proof.Machine.execMarkSync mseq slice tick id now s
  | .markFlush mseq slice id now => Sys2Proof.Machine.execMarkFlush mseq slice id now s
  | .markMode mseq mode now => Sys2Proof.Machine.execMarkMode mseq mode now s
  | .slotInvalidate lane slot => Sys2Proof.Machine.execSlotInvalidate lane slot s
  | .slotVerify lane slot => Sys2Proof.Machine.execSlotVerify lane slot s
  | .slotPrefer lane slot => Sys2Proof.Machine.execSlotPrefer lane slot s
  | .calCommit lane => Sys2Proof.Machine.execCalCommit lane s
  | .nvdCommandDone => Sys2Proof.Machine.execNvdCommandDone s
  | .nvdWindowWrite lane off data be => Sys2Proof.Machine.execNvdWindowWrite lane off data be s
  | .channelTableWrite lane ch high data be => Sys2Proof.Machine.execChannelTableWrite lane ch high data be s
  | .blankingEnd ch => Sys2Proof.Machine.execBlankingEnd ch s
  | .groupEnableWrite lane high data be => Sys2Proof.Machine.execGroupEnableWrite lane high data be s
  | .rateGateWrite lane data be => Sys2Proof.Machine.execRateGateWrite lane data be s
  | .rateGateEnd => Sys2Proof.Machine.execRateGateEnd s
  | .injGo lane data be => Sys2Proof.Machine.execInjGo lane data be s
  | .injStop lane data be => Sys2Proof.Machine.execInjStop lane data be s
  | .injStrobe tick => Sys2Proof.Machine.execInjStrobe tick s
  | .leadingCrossing ch e => Sys2Proof.Machine.execLeadingCrossing ch e s
  | .highCrossing ch e => Sys2Proof.Machine.execHighCrossing ch e s
  | .trailingCrossing ch e => Sys2Proof.Machine.execTrailingCrossing ch e s
  | .totTimeout ch => Sys2Proof.Machine.execTotTimeout ch s
  | .hitEmit ch => Sys2Proof.Machine.execHitEmit ch s
  | .fillInternal lane => Sys2Proof.Machine.execFillInternal lane s
  | .fillLive lane => Sys2Proof.Machine.execFillLive lane s
  | .swap lane => Sys2Proof.Machine.execSwap lane s
  | .abort lane => Sys2Proof.Machine.execAbort lane s
  | .fillLaunch codes => Sys2Proof.Machine.execFillLaunch codes s
  | .fillConvert ch => Sys2Proof.Machine.execFillConvert ch s
  | .channelBankSwap ch => Sys2Proof.Machine.execChannelBankSwap ch s
  | .cdTableWrite lane data be => Sys2Proof.Machine.execCdTableWrite lane data be s
  | .cdTableReadAutoinc lane => Sys2Proof.Machine.execCdTableReadAutoinc lane s
  | .skewClear lane data be => Sys2Proof.Machine.execSkewClear lane data be s
  | .ringFreeze ch => Sys2Proof.Machine.execRingFreeze ch s
  | .keepWindowReceive fromB first last now => Sys2Proof.Machine.execKeepWindowReceive fromB first last now s
  | .releaseThroughReceive issuer x now => Sys2Proof.Machine.execReleaseThroughReceive issuer x now s
  | .holdBudgetExpire ch ring => Sys2Proof.Machine.execHoldBudgetExpire ch ring s
  | .adcConversionStart adc now => Sys2Proof.Machine.execAdcConversionStart adc now s
  | .adcConversionEnd adc raw => Sys2Proof.Machine.execAdcConversionEnd adc raw s
  | .waveDeadline ch ring => Sys2Proof.Machine.execWaveDeadline ch ring s
  | .waveUnitWrite g => Sys2Proof.Machine.execWaveUnitWrite g s
  | .groupFifoWrite g => Sys2Proof.Machine.execGroupFifoWrite g s
  | .gfifoLossWrite g => Sys2Proof.Machine.execGfifoLossWrite g s
  | .innerLinkBeat now => Sys2Proof.Machine.execInnerLinkBeat now s
  | .beatReceive ok x now => Sys2Proof.Machine.execBeatReceive ok x now s
  | .creditGrant => Sys2Proof.Machine.execCreditGrant s
  | .creditReceive gen g pages => Sys2Proof.Machine.execCreditReceive gen g pages s
  | .closedReceive gen n => Sys2Proof.Machine.execClosedReceive gen n s
  | .levelReceive gen n level step => Sys2Proof.Machine.execLevelReceive gen n level step s
  | .flush lane id now => Sys2Proof.Machine.execFlush lane id now s
  | .pqPopLo lane => Sys2Proof.Machine.execPqPopLo lane s
  | .pqPopHi lane => Sys2Proof.Machine.execPqPopHi lane s
  | .popStallExpire lane => Sys2Proof.Machine.execPopStallExpire lane s
  | .sliceOpen => Sys2Proof.Machine.execSliceOpen s
  | .sliceClose => Sys2Proof.Machine.execSliceClose s
  | .sliceDrainStart => Sys2Proof.Machine.execSliceDrainStart s
  | .headFrameStart => Sys2Proof.Machine.execHeadFrameStart s
  | .peerDeadline => Sys2Proof.Machine.execPeerDeadline s
  | .pressureSample awaiting => Sys2Proof.Machine.execPressureSample awaiting s
  | .throttle lane data be => Sys2Proof.Machine.execThrottle lane data be s
  | .primitiveArrival => Sys2Proof.Machine.execPrimitiveArrival s
  | .whiskTickEvaluate => Sys2Proof.Machine.execWhiskTickEvaluate s
  | .releaseThroughSend => Sys2Proof.Machine.execReleaseThroughSend s
  | .ringFrameOriginate now => Sys2Proof.Machine.execRingFrameOriginate now s
  | .ringFrameReceive frame skew now => Sys2Proof.Machine.execRingFrameReceive frame skew now s
  | .ringFrameForward => Sys2Proof.Machine.execRingFrameForward s
  | .ringFrameReturn frame skew now => Sys2Proof.Machine.execRingFrameReturn frame skew now s
  | .loopTask lane => Sys2Proof.Machine.execLoopTask lane s
  | .loopTaskDone => Sys2Proof.Machine.execLoopTaskDone s
  | .blockCode space => Sys2Proof.Machine.execBlockCode space s
  | .pressJobResume engine space => Sys2Proof.Machine.execPressJobResume engine space s
  | .blockIdleEnd arrived => Sys2Proof.Machine.execBlockIdleEnd arrived s
  | .blockVerify flips now => Sys2Proof.Machine.execBlockVerify flips now s
  | .blockRelease => Sys2Proof.Machine.execBlockRelease s
  | .peerBlockExpand src => Sys2Proof.Machine.execPeerBlockExpand src s
  | .ptpSync m twoStep t1 corr t2 => Sys2Proof.Machine.execPtpSync m twoStep t1 corr t2 s
  | .ptpFollowUp m t1 corr => Sys2Proof.Machine.execPtpFollowUp m t1 corr s
  | .followUpTimeout => Sys2Proof.Machine.execFollowUpTimeout s
  | .ptpDelayResp m reqPort t4 corr => Sys2Proof.Machine.execPtpDelayResp m reqPort t4 corr s
  | .ptpAnnounce m gmId ptpScale utcValid utc => Sys2Proof.Machine.execPtpAnnounce m gmId ptpScale utcValid utc s
  | .delayReqSend t3 => Sys2Proof.Machine.execDelayReqSend t3 s
  | .announceTimeout => Sys2Proof.Machine.execAnnounceTimeout s
  | .ptpStaleExpire => Sys2Proof.Machine.execPtpStaleExpire s
  | .slewDone => Sys2Proof.Machine.execSlewDone s
  | .pendingStep => Sys2Proof.Machine.execPendingStep s
  | .phaseJump delta => Sys2Proof.Machine.execPhaseJump delta s
  | .holdoverUpdate tempMilliK => Sys2Proof.Machine.execHoldoverUpdate tempMilliK s
  | .tbIncWrite lane high data be => Sys2Proof.Machine.execTbIncWrite lane high data be s
  | .blindBringup x => Sys2Proof.Machine.execBlindBringup x s
  | .losClear n r => Sys2Proof.Machine.execLosClear n r s
  | .los n => Sys2Proof.Machine.execLos n s
  | .lol n => Sys2Proof.Machine.execLol n s
  | .fomMeasure n eye => Sys2Proof.Machine.execFomMeasure n eye s
  | .adaptCycle n eye eyeMinus eyePlus => Sys2Proof.Machine.execAdaptCycle n eye eyeMinus eyePlus s
  | .ctleManualStep n => Sys2Proof.Machine.execCtleManualStep n s
  | .retrain lane n data be => Sys2Proof.Machine.execRetrain lane n data be s
  | .prbsPatternSet lane data be => Sys2Proof.Machine.execPrbsPatternSet lane data be s
  | .injOne lane data be => Sys2Proof.Machine.execInjOne lane data be s
  | .prbsClear lane => Sys2Proof.Machine.execPrbsClear lane s
  | .frameTransmit queued departs => Sys2Proof.Machine.execFrameTransmit queued departs s
  | .dataFrameReceive n bs => Sys2Proof.Machine.execDataFrameReceive n bs s
  | .slotIdleReceive n u => Sys2Proof.Machine.execSlotIdleReceive n u s
  | .peerAnnounceTimeout n => Sys2Proof.Machine.execPeerAnnounceTimeout n s
  | .scNop lane req dat => Sys2Proof.Machine.execScNop lane req dat s
  | .scResync lane req dat => Sys2Proof.Machine.execScResync lane req dat s
  | .scResponseSend lane => Sys2Proof.Machine.execScResponseSend lane s
  | .crReceive n u => Sys2Proof.Machine.execCrReceive n u s
  | .crRepeat => Sys2Proof.Machine.execCrRepeat s
  | .sackSend src n => Sys2Proof.Machine.execSackSend src n s
  | .sackRepeat => Sys2Proof.Machine.execSackRepeat s
  | .sackReceive n u => Sys2Proof.Machine.execSackReceive n u s
  | .ackTimeout => Sys2Proof.Machine.execAckTimeout s
  | .resendSend src now => Sys2Proof.Machine.execResendSend src now s
  | .resendReceive n u => Sys2Proof.Machine.execResendReceive n u s
  | .heartbeatTimeout => Sys2Proof.Machine.execHeartbeatTimeout s
  | .innerLinkUnlock => Sys2Proof.Machine.execInnerLinkUnlock s
  | .switch lane => Sys2Proof.Machine.execSwitch lane s
  | .replayWalkEnd => Sys2Proof.Machine.execReplayWalkEnd s
  | .whiskCatchupEnd tcu hold => Sys2Proof.Machine.execWhiskCatchupEnd tcu hold s
  | .peerRestartResend => Sys2Proof.Machine.execPeerRestartResend s
  | .checkpointTake => Sys2Proof.Machine.execCheckpointTake s
  | .checkpointAck dur => Sys2Proof.Machine.execCheckpointAck dur s
  | .checkpointSkip => Sys2Proof.Machine.execCheckpointSkip s
  | .authPoll b => Sys2Proof.Machine.execAuthPoll b s
  | .hbdBlockReceive => Sys2Proof.Machine.execHbdBlockReceive s
  | .rejoin lane => Sys2Proof.Machine.execRejoin lane s
  | .autoRejoin => Sys2Proof.Machine.execAutoRejoin s
  | .scrubRead die mem index lastOfPass found => Sys2Proof.Machine.execScrubRead die mem index lastOfPass found s
  | .voteRewrite die word lost => Sys2Proof.Machine.execVoteRewrite die word lost s
  | .errRepair lane die addr => Sys2Proof.Machine.execErrRepair lane die addr s
  | .writeRaw lane die data => Sys2Proof.Machine.execWriteRaw lane die data s
  | .readRaw lane die data => Sys2Proof.Machine.execReadRaw lane die data s
  | .voteFlip lane die data => Sys2Proof.Machine.execVoteFlip lane die data s
  | .stsWrite lane addr data be => Sys2Proof.Machine.execStsWrite lane addr data be s
  | .registerWrite lane addr data be => Sys2Proof.Machine.execRegisterWrite lane addr data be s
  | .safetyInputChange idx sideB healthy => Sys2Proof.Machine.execSafetyInputChange idx sideB healthy s
  | .inputFilterExpire c idx sideB => Sys2Proof.Machine.execInputFilterExpire c idx sideB s
  | .discrepancySample c => Sys2Proof.Machine.execDiscrepancySample c s
  | .biasMonitorSample c q v idx => Sys2Proof.Machine.execBiasMonitorSample c q v idx s
  | .crosslinkFrame rx => Sys2Proof.Machine.execCrosslinkFrame rx s
  | .crosslinkTimeout c => Sys2Proof.Machine.execCrosslinkTimeout c s
  | .programWatchdog => Sys2Proof.Machine.execProgramWatchdog s
  | .lcrcCompare => Sys2Proof.Machine.execLcrcCompare s
  | .driveReadbackFault c => Sys2Proof.Machine.execDriveReadbackFault c s
  | .feedbackChange b isOpen => Sys2Proof.Machine.execFeedbackChange b isOpen s
  | .feedbackTimeout b => Sys2Proof.Machine.execFeedbackTimeout b s
  | .lidRstClose => Sys2Proof.Machine.execLidRstClose s
  | .lidRstRelease hP hH => Sys2Proof.Machine.execLidRstRelease hP hH s
  | .resetHoldFault c => Sys2Proof.Machine.execResetHoldFault c s
  | .degrade lane => Sys2Proof.Machine.execDegrade lane s
  | .qenWrite lane data be => Sys2Proof.Machine.execQenWrite lane data be s
  | .plannerCycle r => Sys2Proof.Machine.execPlannerCycle r s
  | .ageingRecordAbandon => Sys2Proof.Machine.execAgeingRecordAbandon s
  | .deferredTrimStep => Sys2Proof.Machine.execDeferredTrimStep s
  | .attestationReportRequest lane => Sys2Proof.Machine.execAttestationReportRequest lane s
  | .signingDone glitch => Sys2Proof.Machine.execSigningDone glitch s
  | .time lane => Sys2Proof.Machine.execTime lane s
  | .bootCount lane => Sys2Proof.Machine.execBootCount lane s
  | .attReport lane part => Sys2Proof.Machine.execAttReport lane part s
  | .total lane sel => Sys2Proof.Machine.execTotal lane sel s
  | .mbxDataRead lane idx => Sys2Proof.Machine.execMbxDataRead lane idx s
  | .hkMonitorSample x => Sys2Proof.Machine.execHkMonitorSample x s
  | .tapReset => Sys2Proof.Machine.execTapReset s
  | .bypass x => Sys2Proof.Machine.execBypass x s
  | .idcode x => Sys2Proof.Machine.execIdcode x s
  | .samplePreload die scan => Sys2Proof.Machine.execSamplePreload die scan s
  | .extest x => Sys2Proof.Machine.execExtest x s
  | .extestPulse x => Sys2Proof.Machine.execExtestPulse x s
  | .extestTrain x => Sys2Proof.Machine.execExtestTrain x s
  | .clamp x => Sys2Proof.Machine.execClamp x s
  | .highz x => Sys2Proof.Machine.execHighz x s
  | .rstNHigh1ms => Sys2Proof.Machine.execRstNHigh1ms s
  | .prbsSync x => Sys2Proof.Machine.execPrbsSync x s
  | .prbsSyncLoss x => Sys2Proof.Machine.execPrbsSyncLoss x s
  | .rejoinMirroring ok => Sys2Proof.Machine.execRejoinMirroring ok s
  | .pgLoss die => Sys2Proof.Machine.execPgLoss die s

end Sys2Proof.Machine
end

