-- ==== Sys2Proof/Safety.lean ====
section
/-! DEFINITION. The terms that claims use: a well-kept state, when a slow-control request reaches execution, and what
response it gets. -/

namespace Sys2Proof.Machine

/-- The NVD's words are in canonical form: one entry a word, none zero. -/
def State.nvdCanonical (s : State) : Prop := Sparse.wf (fun _ => 0) s.nvd.words = true

/-- Without 12 V, or with RST_N low, the module is in BOOT and no transition runs (R36, R54), and a minimal link that stands
is the one of R53, which answers RESET_STUCK. -/
def State.heldDown (s : State) : Prop :=
  (s.hk.v12 = false ∨ s.hk.rstN = false) →
    s.hk.mode = .boot ∧ s.hk.target = none ∧ (s.hk.minimalLink = true → s.hk.stuck = true)

/-- The invariant that every step keeps. -/
def State.Inv (s : State) : Prop := s.nvdCanonical ∧ s.heldDown

/-- The state on which a request that reaches execution acts: its two units are counted (R293). -/
def State.got (s : State) (lane : Nat) : State := s.countLane Reg.LK_LANE_RX_UNITS lane 2

/-- Does a POP stall, behind which every later request waits (R210, R309). -/
def State.stalls (s : State) : Bool := s.lanes.any (fun e => e.2.popWait.isSome)

/-- A request to `addr` on `lane` reaches execution: the lane is UP on an open path and accepts slow control, the sequence
stage is SYNCED, no POP stalls (R210, R309), a response entry is free (R310), no RESET_STUCK is due (R53), and the access
crosses to its die. -/
def State.serves (s : State) (lane addr : Nat) : Bool :=
  s.pathOpen lane && s.scRole lane && (s.lane lane).synced && !s.stalls &&
    decide ((s.got lane).respUsed ((s.got lane).respQueue lane) < 32) && !s.hk.stuck && !s.noCross addr

/-- From `s` to `t` one response was queued for `lane`, with the lane's SEQ, and E advanced (R307). -/
def State.replied (s t : State) (lane addr status : Nat) (data : W32) : Prop :=
  t.resp = s.resp ++ [(lane, ⟨status, (s.lane lane).e % 65536, addr, data⟩)] ∧
    (t.lane lane).e = ((s.lane lane).e + 1) % 2 ^ 32

/-- A mode request of code `code`, served on `lane`, answers OK and starts the transition to `m` with cause COMMAND. -/
def requestStarts (c : Instr) (lane : Lane) (code : Nat) (m : Mode) (s : State) : Prop :=
  ∃ t, exec c s = .next t ∧ s.replied t lane Reg.HK_MODE_REQ Stat.ok 0 ∧ t.hk.target = some m ∧ t.hk.tcause = 2 ∧
    t.hk.mode = s.hk.mode ∧ t.fld Reg.HK_MODE_REQ 3 0 = code

/-- The first slot that LOAD tries, as L2 to L6 leave it. -/
def State.firstTry (s : State) : Try :=
  let p := s.loadL1.votePref
  (p.2.setFld Reg.HK_CFG_INFO 8 8 (b2n p.1)).trySlot p.1

/-- The preferred slot of the directory as LOAD finds it (R74). -/
def State.preferred (s : State) : Bool := s.loadL1.votePref.1

/-- The LID section that LOAD reads from the first slot. -/
def State.lidSection (s : State) : List Octet :=
  s.firstTry.st.nvd.sectionBytes (slotBase s.preferred) s.firstTry.ss tagLid

/-- A protected word that holds no error, no poison and no raw bits (R334, R340). -/
def State.clean (s : State) (d : Die) (mem idx : Nat) : Bool := (s.rawAt d mem idx).isNone && s.badKind d mem idx == 0

/-- A configuration write that nothing stands in the way of: served on `lane`, with a byte enabled, no field of the register
locked (R398), in a mode that takes it (R50). -/
def State.takes (s : State) (lane addr : Nat) (be : BitVec 4) : Bool :=
  s.serves lane addr && be != 0 && s.lockMask (s.phys addr) == 0 && s.allows .writeCfg

/-- No protected word is in error, and none of the critical state of MEM 0x21, 0x22 and 0x26 was met in error (R334, R343). -/
def State.sound (s : State) : Prop := s.err.bad = [] ∧ s.err.raw = [] ∧ s.err.crit = none

/-- Does the low discriminator of a channel reach the TDC at a tick: live, not blanked, the delay lines on, no internal fill
in the channel (R94, R102, R119). -/
def State.hears (s : State) (c t : Nat) : Bool := s.live c t && !s.fe.blank.contains c && s.linesOn && !s.filled c

/-- The raw time of an edge that is no overrun, by a bank of its channel (R108). -/
def State.rawTime (s : State) (c : Nat) (bank : Bool) (e : Edge) : Nat := 2048 * e.tick + s.tabAt c bank e.s % 2048

/-- An edge that is converted by a clean table word. -/
def State.converts (s : State) (c : Nat) (bank : Bool) (e : Edge) : Bool :=
  e.wf && !Edge.isOverrun e && s.clean .fed 0x12 (tabIdx c bank e.s)

/-- The counter at `a` has counted `n` more, saturating (R397). -/
def State.counts (s t : State) (a n : Nat) : Prop := t.reg a = BitVec.ofNat 32 (satAdd 0xFFFFFFFF (s.reg a).toNat n)

/-- The same of a counter of one of several registers behind a selector. -/
def State.countsAt (s t : State) (k n : Nat) : Prop :=
  t.regAt k = BitVec.ofNat 32 (satAdd 0xFFFFFFFF (s.regAt k).toNat n)

/-- An entry was written to privileged queue `q`; with the full flag set it is ignored (R209). -/
def State.posts (s t : State) (q : Nat) (w : W64) : Prop :=
  t.pqOf q = if (s.pqOf q).length < pqDepth q then s.pqOf q ++ [w] else s.pqOf q

/-- The event of bit `b` shows in the STS register at `a`. -/
def State.shows (t : State) (a b : Nat) : Prop := (t.stsOf a).set.getLsbD b = true

/-- The offset filter after a Sync sample `fwd`: the sample less TB_ASYM and the mean of the path-delay filter (R261). -/
def State.offsAfter (s : State) (fwd : Int) : List (Int × Nat) :=
  lastN s.avgLen (s.tb.offs ++ [((fwd - signedW 32 (s.reg Reg.TB_ASYM).toNat * 100) * ((2 * s.tb.delays.length : Nat) : Int) -
    s.tb.delays.foldl (· + ·) 0, 2 * s.tb.delays.length)])

/-- A Sync sample was taken and slewed, in LOCKED (R261, R262). -/
def State.sampled (s t : State) (seqId : Nat) (fwd : Int) : Prop :=
  let off := qmeanFine (s.offsAfter fwd)
  t.tb = { s.tb with lastSync := some seqId, stale := false, twoStep := none, fwd := some fwd, offs := s.offsAfter fwd,
                     off := some off, stepPending := false, slewing := if off = 0 then s.tb.slewing else some off } ∧
    t.reg Reg.TB_OFFSET = BitVec.ofNat 32 (patternW 32 off) ∧ s.counts t Reg.TB_SYNC_CNT 1 ∧
    t = { s with tb := t.tb, regs := t.regs }

/-- What leaves for a source: a unit on its lowest lane that is UP (R294). -/
def State.unitTo (s : State) (i : Nat) (u : W64) : List Out :=
  match (s.sourceLanes i).find? s.laneUp with
  | some n => [.unit n u]
  | none => []

/-- A unit that a lane takes from its HEAD or the DAQ: intact, on an UP lane of the accepting role, and in a LIMB of the
present generation (R293, R294, R298). -/
def State.takesUnit (s : State) (n : Nat) (u : W64) : Bool :=
  s.laneUp n && unitCrcOk u && s.takesAck n && (s.role != .limb || u.extractLsb' 52 8 == s.ulp.genRx)

/-- A slow-control pair that reaches the sequence stage: both units intact and of one request, no field set that R306
fixes at zero. -/
def State.intact (s : State) (lane : Nat) (req dat : W64) : Bool :=
  s.pathOpen lane && unitCrcOk req && !bitOf req 56 && unitCrcOk dat && bits dat 63 60 == 0xB &&
    bits dat 55 48 == bits req 47 40 && (decide (2 ≤ bits req 58 57) || bits dat 47 16 == 0) && s.scRole lane

/-- Such a pair that is a well-formed NOP. -/
def State.pairs (s : State) (lane : Nat) (req dat : W64) : Bool :=
  s.intact lane req dat && bits req 58 57 == 0 && bits req 39 16 % 4 == 0 && dat.extractLsb' 56 4 == (0 : BitVec 4)

/-- The registers of the HBD, the FED and the SFD whose writes are commands of their own or act on more than the word. -/
def commandRegs : List Nat :=
  [Reg.HK_MODE_REQ, Reg.HK_NVD_CMD, Reg.HK_NVD_PAGE, Reg.TB_INC_LO, Reg.TB_INC_HI, Reg.LN_PRBS_CFG, Reg.LN_PRBS_CLR, Reg.RD_CMD,
    Reg.AGE_RO_SEL, Reg.ATT_CMD, Reg.MBX_REQ, Reg.FE_GROUP_EN_0, Reg.FE_GROUP_EN_1, Reg.FE_INJ_CTRL, Reg.FE_RATE_GATE,
    Reg.TDC_CD_CMD, Reg.TDC_CD_DATA, Reg.TDC_SKW_CTRL, Reg.LID_CMD, Reg.LID_QEN] ++
  (List.range 32).map laneCfg

/-- A register outside the ERR blocks and the concentrators that a write only stores into. -/
def storesOnly (a : Nat) : Bool :=
  a % 4 == 0 && (a / 0x100000 == 0 || a / 0x100000 == 1 || a / 0x100000 == 5) && !isErrAddr a && (regRow a).isSome &&
    !isSts a && !commandRegs.contains a

/-- A switch-over with cause `c` has reached S3 of R321: the standby is named, GEN has advanced, every allowance is zero, and
the retention is walked where there is a data path to restart. -/
def State.switched (s t : State) (c : Nat) : Prop :=
  t.rd.activeB = !s.rd.activeB ∧ t.rd.gen = s.rd.gen + 1 ∧ t.fed.gen = s.rd.gen + 1 ∧ t.cd.gen = s.rd.gen + 1 ∧
    (∀ g, (t.group g).allow = 0) ∧
    t.rd.step = (if s.restarts then 4 else 0) ∧ t.fed.walk = (if s.restarts then some s.fed.ret else none) ∧
    t.cd.queues = [] ∧ t.rd.m = (s.other.ckpt.getD s.firstCkpt).m ∧
    t.reg Reg.RD_LAST_SLICE = BitVec.ofNat 32 (s.other.ckpt.getD s.firstCkpt).m ∧
    t.reg Reg.RD_LAST = word32 [(0, 16), ((s.rd.gen + 1).toNat, 8), (b2n s.rd.activeB, 1), (0, 3), (c, 4)] ∧
    s.counts t Reg.RD_SWITCH_CNT 1 ∧ s.counts t (Reg.RD_CAUSE_CNT + 4 * (c - 1)) 1 ∧ t.shows Reg.RD_EVT 0

/-- The Lid leaves RUN or DEGRADED for `goal` with `cause` latched: drives and switches off, the trip counted, and the module
on its way to SAFE (R352 to R354, R48). -/
def State.trips (s t : State) (cause : Nat) (goal : LidState) : Prop :=
  t.lid.state = goal ∧ cause ∈ t.lid.h.causes ∧ t.lid.p.drive = false ∧ t.lid.h.drive = false ∧
    t.lid.qclosed = [false, false, false, false] ∧ s.counts t Reg.LID_TRIP_CNT 1 ∧ t.shows Reg.LID_EVT 0 ∧
    (s.hk.mode ≠ .boot → s.hk.mode ≠ .load → s.hk.mode ≠ .safe → t.hk.target = some .safe)

/-- A fault cause latches: in OFF nothing more, elsewhere FAULT, and from RUN or DEGRADED by way of a trip (R353, R354). -/
def State.faults (s t : State) (cause : Nat) : Prop :=
  cause ∈ t.lid.h.causes ∧ (s.lid.state = .off → t.lid.state = .off) ∧ (s.lid.state ≠ .off → t.lid.state = .fault) ∧
    (s.lid.biasOn = true → s.trips t cause .fault)

/-- The conditions under which a release of LID_RST after `hP` and `hH` ms is accepted (R371, R372). -/
def State.mayReset (s : State) (hP hH : Nat) : Prop :=
  (100 ≤ hP ∧ hP ≤ 2000 ∧ 100 ≤ hH ∧ hH ≤ 2000) ∧ s.lid.agree = true ∧
    (0x17 ∉ s.lid.p.causes ∧ 0x17 ∉ s.lid.h.causes) ∧ s.lid.p.outBad = false ∧ s.lid.h.outBad = false ∧
    (0x15 ∈ s.lid.p.causes ∨ 0x15 ∈ s.lid.h.causes → s.lid.linkP = true ∧ s.lid.linkH = true) ∧ s.v24ok = true ∧
    s.lid.demanding 1 = false ∧ s.lid.demanding 2 = false ∧ s.lid.discrepant = false ∧
    (s.lid.p.drive = false → s.lid.fbaOpen = true) ∧ (s.lid.h.drive = false → s.lid.fbbOpen = true) ∧
    s.lid.state ≠ .run ∧ s.lid.p.levelsOk = true ∧ s.lid.h.levelsOk = true ∧ s.hk.mode ≠ .boot ∧ s.hk.mode ≠ .load ∧
    (∀ d, s.lid.demand = some d → d.1 ≠ s.lid.ms) ∧ s.hk.safeFromLoad = false ∧
    (s.lid.state = .degraded → s.hk.mode = .safe → s.lid.h.b 0x14 ≠ 1)

/-- A TAP instruction of a die with its code (R434). -/
def tapInstrs (x : TapCmd) : List (Instr × Nat) :=
  [(.bypass { x with scan := { x.scan with code := 0xFF } }, 0xFF), (.idcode x, 0x01), (.samplePreload x.die x.scan, 0x02),
    (.extest x, 0x03), (.extestPulse x, 0x04), (.extestTrain x, 0x05), (.clamp x, 0x06), (.highz x, 0x07)]

/-- A request on `lane` finds no response entry (R310). -/
def State.noEntry (s : State) (lane : Nat) : Bool :=
  decide (32 ≤ (s.got lane).respUsed ((s.got lane).respQueue lane))

/-- What such a request leaves: it is counted and marked, and nothing else. -/
def State.turnedAway (s : State) (lane : Nat) : State := ((s.got lane).count Reg.LK_SC_NOSPACE_CNT 1).event Reg.LK_EVT [2]

/-- The lane of a request that a command of a single register access carries. -/
def accessLane : Instr → Option Lane
  | .reqLoad l => some l | .reqSimmer l => some l | .reqCalib l => some l | .reqRun l => some l | .reqTest l => some l
  | .safeExit l => some l | .slotInvalidate l _ => some l | .slotVerify l _ => some l | .slotPrefer l _ => some l
  | .calCommit l => some l | .nvdWindowWrite l _ _ _ => some l | .channelTableWrite l _ _ _ _ => some l
  | .groupEnableWrite l _ _ _ => some l | .rateGateWrite l _ _ => some l | .injGo l _ _ => some l
  | .injStop l _ _ => some l | .fillInternal l => some l | .fillLive l => some l | .swap l => some l | .abort l => some l
  | .cdTableWrite l _ _ => some l | .cdTableReadAutoinc l => some l | .skewClear l _ _ => some l
  | .throttle l _ _ => some l | .loopTask l => some l | .tbIncWrite l _ _ _ => some l | .retrain l _ _ _ => some l
  | .prbsPatternSet l _ _ => some l | .injOne l _ _ => some l | .prbsClear l => some l | .switch l => some l
  | .rejoin l => some l | .errRepair l _ _ => some l | .writeRaw l _ _ => some l | .readRaw l _ _ => some l
  | .voteFlip l _ _ => some l | .stsWrite l _ _ _ => some l | .registerWrite l _ _ _ => some l | .degrade l => some l
  | .qenWrite l _ _ => some l | .attestationReportRequest l => some l | .time l => some l | .bootCount l => some l
  | .attReport l _ => some l | .total l _ => some l | .mbxDataRead l _ => some l | .pqPopHi l => some l
  | _ => none

/-- The mode requests with their HK_MODE_REQ codes. -/
def modeRequests (l : Lane) : List (Instr × Nat) :=
  [(.reqLoad l, 1), (.reqSimmer l, 2), (.reqCalib l, 3), (.reqRun l, 4), (.reqTest l, 7), (.safeExit l, 8)]

/-- The counters in which a refused request on a lane leaves its mark (R51, R293, R307). -/
def refusalCounters (lane : Nat) : List Nat :=
  [Reg.LK_SC_REQ_CNT, instKey Reg.LK_LANE_RX_UNITS lane, Reg.LK_SC_GAP_CNT, Reg.HK_LOCKED_CNT, Reg.HK_MODE_REJ_CNT]

/-- From `s` to `t` nothing has changed but registers, the requester's lane, its response, and the word of MEM 0x03 in which that
response lies. -/
def State.onlyAnswered (s t : State) : Prop :=
  t = { s with regs := t.regs, lanes := t.lanes, resp := t.resp, err := t.err } ∧
    t.err = { s.err with bad := t.err.bad, raw := t.err.raw } ∧
    ∀ d mem idx, ¬(d = .hbd ∧ mem = 0x03) → t.rawAt d mem idx = s.rawAt d mem idx ∧ t.badKind d mem idx = s.badKind d mem idx

/-- Of the errors of words only those of MEM 0x03 change, whose words entries and responses take and leave. -/
def State.errsKept (s t : State) : Prop :=
  t.err = { s.err with bad := t.err.bad, raw := t.err.raw, heads := t.err.heads } ∧
    ∀ d mem idx, ¬(d = .hbd ∧ mem = 0x03) → t.rawAt d mem idx = s.rawAt d mem idx ∧ t.badKind d mem idx = s.badKind d mem idx

/-- The commands that may write a word of the NVD: those of R56 and R60, LOAD and rejoining, which read and correct it, the ageing log, and the scrubber
and raw access that correct or replace a word. -/
def mayWriteNvd : Instr → Bool
  | .slotInvalidate _ _ | .slotVerify _ _ | .slotPrefer _ _ | .calCommit _ | .nvdCommandDone | .nvdWindowWrite _ _ _ _ => true
  | .loadSequence _ | .rejoinMirroring _ | .plannerCycle _ | .scrubRead _ _ _ _ _ | .writeRaw _ _ _ | .readRaw _ _ _ | .errRepair _ _ _ => true
  | .stsWrite _ _ _ _ | .registerWrite _ _ _ _ | .scNop _ _ _ | .scResync _ _ _ => true
  | _ => false

/-- The CFG and LOCK fields of the register under a key. -/
def cfgMask (k : Nat) : W32 := BitVec.ofNat 32 (fieldMask (fieldsOf k) (fun t => t == .cfg || t == .lock))

/-- DT = TN × 3.125 ns (R254). -/
def State.dtIsTn (s : State) : Prop :=
  (s.tb.sec * 1000000000 + s.tb.ns) * 2 ^ 32 + s.tb.frac = s.tb.tn * (25 * 2 ^ 29)

/-- The events of the time base, as against its one register write. -/
def timeBaseEvent : Instr → Bool
  | .ptpSync _ _ _ _ _ | .ptpFollowUp _ _ _ | .followUpTimeout | .ptpDelayResp _ _ _ _ | .ptpAnnounce _ _ _ _ _ => true
  | .delayReqSend _ | .announceTimeout | .ptpStaleExpire | .slewDone | .pendingStep | .phaseJump _ | .holdoverUpdate _ => true
  | _ => false

/-- The events of the lanes. -/
def laneEvent : Instr → Bool
  | .blindBringup _ | .losClear _ _ | .los _ | .lol _ | .fomMeasure _ _ | .adaptCycle _ _ _ _ | .ctleManualStep _ => true
  | .prbsSync _ | .prbsSyncLoss _ => true
  | _ => false

/-- The events of the Lid. -/
def lidEvent : Instr → Bool
  | .supplyLowExpire | .safetyInputChange _ _ _ | .inputFilterExpire _ _ _ | .discrepancySample _ => true
  | .biasMonitorSample _ _ _ _ | .crosslinkFrame _ | .crosslinkTimeout _ | .programWatchdog | .lcrcCompare => true
  | .driveReadbackFault _ | .feedbackChange _ _ | .feedbackTimeout _ | .lidRstClose | .lidRstRelease _ _ => true
  | .resetHoldFault _ => true
  | _ => false

end Sys2Proof.Machine
end

