-- ==== Sys2Proof/Certificates/Slice0/Obligations.lean ====
section
/-! DEFINITION. The statements for the provers: the rules of the spec and of the whole machine, in terms of the model. -/

open Sys2Proof Sys2Proof.Machine

/-- The model's choice (log entry 1): a step runs the oldest waiting command on the state that holds the rest of the
queue. -/
def Obligations.StepRunsTheFrontCommand : Prop :=
  ∀ (c : Instr) (rest : List Instr) (s : State), s.pending = c :: rest → step s = exec c { s with pending := rest }

/-- The model's choice (log entry 1): an idle step is one tick of ACLK where ACLK runs (R107, R254), and nothing
elsewhere. With it a word of an ageing record is written (R381; at which step is log entry 178), and the FLUSH markers of a
slice that ends are executed (R304), which MarkersActOnLaneZero states. -/
def Obligations.EmptyQueueLetsOneTickPass : Prop :=
  ∀ s : State, s.pending = [] →
    (s.hk.mode = .boot ∨ s.hk.mode = .load → step s = .next s) ∧
    (s.hk.mode ≠ .boot → s.hk.mode ≠ .load → ∃ t, step s = .next t ∧ t.tb.tn = (s.tb.tn + 1) % 2 ^ 64 ∧
      t.tb = { s.tb with tn := t.tb.tn, sec := t.tb.sec, ns := t.tb.ns, frac := t.tb.frac } ∧
      ((∀ f, f ∈ s.ulp.flushes → (s.advance 1).sliceEnded f.1 = false) →
        (s.age.writing = none ∨ s.nvd.busy ≠ none → t = { s with tb := t.tb }) ∧
        (∀ (w : W64) (rest : List W64), s.age.writing = some (w :: rest) → s.nvd.busy = none →
          t.nvd.words = Sparse.put 0 ((0x100000 + 256 * (s.age.rseq % 4096) + 8 * (31 - rest.length)) / 8) w s.nvd.words ∧
          t.age = { s.age with
            writing := if rest = [] then none else some rest,
            rseq := if rest = [] then (s.age.rseq + 1) % 2 ^ 32 else s.age.rseq } ∧
          (rest = [] → t.reg Reg.AGE_RSEQ = BitVec.ofNat 32 s.age.rseq) ∧
          t = { s with tb := t.tb, nvd := t.nvd, age := t.age, regs := t.regs, err := t.err })))

/-- R415: registers at their Reset column. That State.reset stands before 12 V is applied is the model's choice (log
entry 3), as is an NVD that reads zero (log entry 5). -/
def Obligations.ResetHoldsItsColumn : Prop :=
  (∀ a, State.reset.reg a = regReset (normAddr (State.reset.phys a)) ∨ 0x1000000 ≤ State.reset.phys a) ∧
  (∀ a, State.reset.stsOf a = Sts.zero) ∧ State.reset.pending = [] ∧ State.reset.hk.mode = .boot ∧
  State.reset.hk.target = none ∧ State.reset.hk.v12 = false ∧ State.reset.hk.v24 = false ∧ State.reset.lid.state = .off ∧
  State.reset.lid.p.drive = false ∧ State.reset.lid.h.drive = false ∧ State.reset.tb.state = .freerun ∧
  State.reset.nvd.words = [] ∧ State.reset.resp = [] ∧ State.reset.out = []

/-- The base case of the invariant (R52, R53; the canonical form of the NVD's words is the model's own). -/
def Obligations.InvHoldsAtReset : Prop := State.reset.Inv

/-- R36, R52 to R54: what holds while the module is held in reset; with it, the canonical form of the NVD (R56), over
every command and the idle step. -/
def Obligations.InvKeptByEveryStep : Prop := ∀ s t : State, s.Inv → step s = .next t → t.Inv

/-- The model's choice (log entry 1): commands arrive only from outside, and exec acts on everything but the queue. -/
def Obligations.CommandsLeaveTheQueue : Prop :=
  ∀ (c : Instr) (s t : State), exec c s = .next t → t.pending = s.pending

/-- R36: the module has the transitions of the table and no others; R45 ends RUN and DRAIN. -/
def Obligations.ModeChangesOnlyAsGiven : Prop :=
  ∀ (c : Instr) (s t : State), exec c s = .next t → t.hk.mode ≠ s.hk.mode →
    (t.hk.mode = .boot ∧ (c = .powerLoss12V ∨ c = .rstNLow ∨ ∃ r, c = .powerOn r)) ∨
    (∃ env, c = .modeTransitionComplete env ∧ s.hk.target = some t.hk.mode) ∨
    (c = .sliceOpen ∧ s.hk.mode = .run ∧ s.hk.target = some .drain ∧ t.hk.mode = .drain) ∨
    (c = .drainComplete ∧ s.hk.mode = .drain ∧ s.run.closedMark = true ∧ t.hk.mode = .simmer)

/-- R56, R60, R75, R80, R383: who writes the non-volatile memory. -/
def Obligations.NvdWordsChangeOnlyAsGiven : Prop :=
  ∀ (c : Instr) (s t : State), mayWriteNvd c = false → exec c s = .next t → t.nvd.words = s.nvd.words

/-- R36, R52, R368, R425: the pins and supplies that only the outside moves. -/
def Obligations.SuppliesAndRstNChangeOnlyAsGiven : Prop :=
  ∀ (c : Instr) (s t : State), exec c s = .next t →
    (t.hk.v12 ≠ s.hk.v12 → c = .powerLoss12V ∨ ∃ r, c = .powerOn r) ∧
    (t.hk.v24 ≠ s.hk.v24 → c = .supply24VApply ∨ c = .supply24VLoss) ∧
    (t.hk.rstN ≠ s.hk.rstN → c = .powerLoss12V ∨ c = .rstNLow ∨ (∃ ms, c = .rstNRise ms) ∨ ∃ r, c = .powerOn r)

/-- Every row of the table completes on every state; the refusal of operands outside the hardware's ranges is the
model's choice (log entry 9). -/
def Obligations.WellFormedCommandsComplete : Prop :=
  ∀ (c : Instr) (s : State), (c.wf = true → ∃ t, exec c s = .next t) ∧
    (c.wf = false → ∃ m, exec c s = .refused (.illFormed m))

/-- R6, whole: signed differences of wrapping quantities, at 32 bits and at their own width. -/
def Obligations.SignedDifferencesDecideOrder : Prop :=
  (∀ w a b : Nat, 0 < w → sdiffW w a b =
    (if ((a : Int) - b) % (2 ^ w : Nat) ≥ (2 ^ (w - 1) : Nat) then ((a : Int) - b) % (2 ^ w : Nat) - (2 ^ w : Nat)
     else ((a : Int) - b) % (2 ^ w : Nat))) ∧
  (∀ a b : Nat, sdiff a b = sdiffW 32 a b) ∧
  (∀ a b : W32, (sdiff a.toNat b.toNat = 0 ↔ a = b) ∧
    (0 < sdiff a.toNat b.toNat → sdiff b.toNat a.toNat < 0) ∧
    (sdiff a.toNat b.toNat < 0 → 0 < sdiff b.toNat a.toNat ∨ sdiff a.toNat b.toNat = -2 ^ 31))

/-- R341, whole: SEQ, the event of each bit, and the write that clears. -/
def Obligations.StickyBitsClearByTheirEvent : Prop :=
  (∀ e : Sts, bits e.word 31 24 = e.seq.toNat ∧ bits e.word 23 0 = e.set.toNat) ∧
  (∀ (e : Sts) (bs : List Nat), (e.event bs).seq = e.seq + 1 ∧
    (∀ b, b < 24 → ((e.event bs).set.getLsbD b = true ↔ e.set.getLsbD b = true ∨ b ∈ bs)) ∧
    (∀ b, b ∈ bs → Sparse.get 0 (e.event bs).ev b = e.seq + 1) ∧
    (∀ b, b ∉ bs → Sparse.get 0 (e.event bs).ev b = Sparse.get 0 e.ev b)) ∧
  (∀ (e : Sts) (w : BitVec 8) (mask : Nat), (e.clear w mask).seq = e.seq ∧ (e.clear w mask).ev = e.ev ∧
    ∀ b, b < 24 → ((e.clear w mask).set.getLsbD b = true ↔ e.set.getLsbD b = true ∧
      ¬(mask.testBit b = true ∧ 0 ≤ sdiffW 8 w.toNat (Sparse.get 0 e.ev b).toNat))) ∧
  (∀ (lane : Lane) (addr : BitVec 24) (data : W32) (be : BitVec 4) (s : State), isSts (normAddr addr.toNat) = true →
    (regRow (normAddr addr.toNat)).isSome = true → addr.toNat % 4 = 0 → addr.toNat / 0x100000 ≤ 5 →
    s.serves lane addr.toNat = true → s.allows .writeCfg = true → be.getLsbD 3 = true →
    (sdiffW 8 (data.extractLsb' 24 8).toNat (s.stsOf addr.toNat).seq.toNat ≤ 0 →
      ∃ t, exec (.stsWrite lane addr data be) s = .next t ∧ s.replied t lane addr.toNat Stat.ok 0 ∧
        t.stsOf addr.toNat = (s.stsOf addr.toNat).clear (data.extractLsb' 24 8) (maskBE data be)) ∧
    (0 < sdiffW 8 (data.extractLsb' 24 8).toNat (s.stsOf addr.toNat).seq.toNat →
      ∃ t, exec (.stsWrite lane addr data be) s = .next t ∧ s.replied t lane addr.toNat Stat.badValue 0 ∧
        t.sts = s.sts))

/-- R400 with R51: a register write that is answered with any status but OK changes no field and nothing else but what records
the refusal. A POP that stalls is answered before the write (log entry 115), and is no part of it. -/
def Obligations.RefusedWritesChangeNoField : Prop :=
  ∀ (lane : Lane) (addr : BitVec 24) (data : W32) (be : BitVec 4) (s t : State) (r : Resp), s.stalls = false →
    exec (.registerWrite lane addr data be) s = .next t → t.resp = s.resp ++ [(lane.val, r)] → r.status ≠ Stat.ok →
    (∀ k, k ∉ refusalCounters lane → t.regAt k = s.regAt k) ∧
    (∀ a, a ≠ Reg.HK_CFG_EVT → (∀ d, a ≠ errReg d Reg.ERR_EVT) → t.stsAt a = s.stsAt a) ∧
    (∀ n, t.lane n = { s.lane n with e := (t.lane n).e, cache := (t.lane n).cache }) ∧
    t.err = { s.err with bad := t.err.bad, raw := t.err.raw } ∧
    t = { s with regs := t.regs, sts := t.sts, lanes := t.lanes, resp := t.resp, err := t.err }

/-- R310: no entry, no execution; E is unchanged. That a RESYNC needs a free entry too is the model's choice (log entry 110).
No POP stalls: one that does ends first (log entry 115). -/
def Obligations.NoEntryNoExecution : Prop :=
  ∀ (lane : Lane) (s : State), s.pathOpen lane = true → s.scRole lane = true → s.stalls = false →
    s.noEntry lane = true →
    (∀ c : Instr, c.wf = true → accessLane c = some lane → (s.lane lane).synced = true →
      exec c s = .next (s.turnedAway lane)) ∧
    (∀ req dat : W64, (Instr.scNop lane req dat).wf = true → s.intact lane req dat = true →
      exec (.scNop lane req dat) s = .next (s.turnedAway lane) ∧
        exec (.scResync lane req dat) s = .next (s.turnedAway lane)) ∧
    (s.turnedAway lane).lanes = s.lanes ∧ (s.turnedAway lane).resp = s.resp

/-- R36 (12 V), R368 (24 V), R373 and R425 (what a supply that goes takes with it). That a reset whose millisecond has not ended
is rejected with the supply is the model's choice (log entry 188), and so is the open measure of LID_V24 (log entry 60). -/
def Obligations.SuppliesActAsGiven : Prop :=
  (∀ (r : Bool) (s : State), s.hk.v12 = false → ∃ t, exec (.powerOn r) s = .next t ∧
    t.hk = { Hk.reset with v12 := true, v24 := s.hk.v24, rstN := r } ∧ t.hk.mode = .boot ∧ t.hk.cause = 0 ∧
    t.lid.state = .off ∧ t.reg Reg.HK_XO_STS = 3 ∧
    t = { s with hk := t.hk, lid := t.lid, regs := t.regs, sts := t.sts, pq := t.pq, lanes := t.lanes, err := t.err } ∧
    (s.lid.state = .off → s.lid.acc = none → t = { s with hk := t.hk, regs := t.regs })) ∧
  (∀ s : State, s.hk.v12 = true → ∃ t, exec .powerLoss12V s = .next t ∧ t.hk = { Hk.reset with v24 := s.hk.v24 } ∧
    t.nvd.words = s.nvd.words ∧ t.tb = .reset ∧ t.lanes = [] ∧ t.cda = .reset ∧ t.cdb = .reset ∧ t.lid.p.drive = false ∧
    (s.hk.v24 = true → 0x15 ∈ t.lid.h.causes) ∧
    (s.hk.v24 = false → t.lid.state = .off ∧ t.lid.h.causes = [] ∧ t.regs = [] ∧ t.sts = [])) ∧
  (∀ s : State, s.hk.v24 = false → ∃ t, exec .supply24VApply s = .next t ∧ t.hk = { s.hk with v24 := true } ∧
    t.v24ok = true ∧ t.lid = { s.lid with linkP := false, linkH := false, ms := 0, demand := none } ∧
    t = { s with hk := t.hk, lid := t.lid, regs := t.regs, free := t.free }) ∧
  (∀ s : State, s.hk.v24 = true → s.hk.v12 = true → ∃ t, exec .supply24VLoss s = .next t ∧
    t.hk = { s.hk with v24 := false } ∧ t.v24ok = false ∧ t.lid.p.drive = false ∧ t.lid.h.drive = false ∧
    t.lid.qclosed = [false, false, false, false] ∧ t.lid.state = s.lid.state ∧ t.lid.h.causes = s.lid.h.causes ∧
    t.lid.h.st = .off ∧
    t = { s with hk := t.hk, lid := t.lid, regs := t.regs, sts := t.sts, pq := t.pq, lanes := t.lanes, err := t.err,
                 free := t.free } ∧
    (s.lid.acc = none → t = { s with hk := t.hk, lid := t.lid, regs := t.regs, free := t.free })) ∧
  (∀ s : State, s.hk.v24 = true → s.hk.v12 = false → ∃ t, exec .supply24VLoss s = .next t ∧
    t.hk = { s.hk with v24 := false } ∧ t.lid.state = .off ∧ t.lid.p.causes = [] ∧ t.lid.h.causes = [] ∧
    t = { s with hk := t.hk, lid := t.lid, regs := t.regs, sts := t.sts }) ∧
  (∀ s : State, s.hk.v12 = true → ∃ t, exec .supplyLowExpire s = .next t ∧ 0x18 ∈ t.lid.h.causes ∧
    t.lid.state = (if s.lid.state = .off then .off else .fault) ∧
    (s.lid.biasOn = true → t.lid.p.drive = false ∧ t.lid.h.drive = false))

/-- R52 to R54 and the BOOT rows of R36. The model's choices: PREV and CAUSE are set in BOOT too (log entry 70), BUSY of BOOT to
LOAD starts after the 1 ms (log entry 71), and a lane with a pattern set stands in PRBS (log entry 145). -/
def Obligations.ResetLineActsAsGiven : Prop :=
  (∀ s : State, s.hk.v12 = true → s.hk.rstN = true → ∃ t, exec .rstNLow s = .next t ∧ t.hk.mode = .boot ∧
    t.hk.target = none ∧ t.hk.rstN = false ∧ t.hk.cause = 1 ∧ t.hk.prev = s.hk.mode ∧ t.lid.state = .off ∧ t.lanes = [] ∧
    t.resp = [] ∧ t.nvd.words = s.nvd.words ∧ t.cal = .zero ∧ t.fld Reg.HK_RST_STS 23 0 = 0) ∧
  (∀ (ms : Nat) (s : State), s.hk.v12 = true → s.hk.rstN = false → ∃ t, exec (.rstNRise ms) s = .next t ∧
    t.hk = { s.hk with rstN := true, stuck := false, minimalLink := false } ∧
    t.fld Reg.HK_RST_STS 23 0 = min 0xFFFFFF ms ∧
    t = { s with hk := t.hk, regs := t.regs, lanes := t.lanes, resp := t.resp }) ∧
  (∀ s : State, s.hk.v12 = true → s.hk.rstN = false → s.hk.stuck = false → s.hk.mode = .boot →
    ∃ t, exec .resetStuck s = .next t ∧ t.hk = { s.hk with stuck := true, minimalLink := true, cause := 0xB } ∧
      (t.stsOf Reg.HK_MODE_EVT).set.getLsbD 2 = true ∧ t.fld Reg.HK_RST_STS 23 0 = 10000 ∧
      (t.lane 0).st = (if s.patOn 0 then 6 else 2) ∧
      ((s.lane 0).block = false → (s.lane 0).st ≠ 5 →
        t = { s with hk := t.hk, regs := t.regs, sts := t.sts, lanes := t.lanes })) ∧
  (∀ s : State, s.hk.v12 = true → s.hk.rstN = true → s.hk.mode = .boot → s.hk.minimalLink = false → s.hk.target = none →
    ∃ t, exec .rstNHigh1ms s = .next t ∧
      t = { s with hk := { s.hk with target := some .load, tcause := if s.hk.cause = 0 then 0 else 1 } })

/-- R36's REQ rows with R38, R45 (Sl), R48 and R49 (SAFE_EXIT). That TEST is accepted in SAFE before the drain has ended is the
model's choice (log entry 123). -/
def Obligations.ModeRequestsStartTransitions : Prop :=
  ∀ (lane : Lane) (now : Nat) (s : State), s.hk.target = none →
    (s.serves lane Reg.HK_MODE_REQ = true →
      (s.hk.mode = .boot ∨ s.hk.mode = .simmer ∨ s.hk.mode = .test ∨ s.hk.mode = .safe ∧ s.hk.safeDrained = true →
        requestStarts (.reqLoad lane) lane 1 .load s) ∧
      (s.hk.mode = .calib → requestStarts (.reqSimmer lane) lane 2 .simmer s) ∧
      (s.hk.mode = .simmer → requestStarts (.reqCalib lane) lane 3 .calib s) ∧
      (s.hk.mode = .simmer → (s.tb.state = .locked ∨ s.tb.state = .holdover) → s.bit Reg.HK_CFG_INFO 10 = true →
        (s.role = .limb ∨ ∃ n, s.simmerLane = some n ∧ s.laneUp n = true) →
        requestStarts (.reqRun lane) lane 4 .run s) ∧
      (s.hk.mode = .simmer ∨ s.hk.mode = .safe → requestStarts (.reqTest lane) lane 7 .test s) ∧
      (s.hk.mode = .safe → s.hk.safeDrained = true → s.lid.state ≠ .fault →
        requestStarts (.safeExit lane) lane 8
          (if (s.hk.cause = 6 ∨ s.hk.cause = 2) ∧ s.fatalSet = false ∧ s.hk.safeFromTest = false then .simmer else .load) s)) ∧
    ((s.advanceTo now).serves lane Reg.HK_MODE_REQ = true →
      (s.hk.mode = .run → ∃ t, exec (.reqDrain lane now) s = .next t ∧
        (s.advanceTo now).replied t lane Reg.HK_MODE_REQ Stat.ok 0 ∧ t.hk.target = some .drain ∧ t.hk.mode = .run ∧
        (s.run.active = true → s.run.closedMark = false →
          t.run = { s.run with sl := some (s.advanceTo now).chooseSl, endMode := 2, endCause := 2 })) ∧
      (s.hk.mode ≠ .boot → s.hk.mode ≠ .load → s.hk.mode ≠ .safe → ∃ t, exec (.reqSafe lane now) s = .next t ∧
        (s.advanceTo now).replied t lane Reg.HK_MODE_REQ Stat.ok 0 ∧ t.hk.target = some .safe ∧ t.hk.tcause = 2 ∧
        (s.run.active = true → s.run.closedMark = false →
          t.run = { s.run with sl := some (s.advanceTo now).chooseSl, endMode := 6, endCause := 2 })))

/-- R50's table with R38 (during a transition) and R51. That a request is judged by the mode first is the model's choice (log
entry 106), and so is the answer to TEST in SAFE before the drain has ended (log entry 123). -/
def Obligations.ModeRequestsAreAnsweredByMode : Prop :=
  (∀ m : Mode, (reqAnswer 1 m = .accept ↔ m ∈ [.boot, .simmer, .safe, .test]) ∧ (reqAnswer 2 m = .accept ↔ m = .calib) ∧
    (reqAnswer 3 m = .accept ↔ m = .simmer) ∧ (reqAnswer 4 m = .accept ↔ m = .simmer) ∧
    (reqAnswer 5 m = .accept ↔ m = .run) ∧ (reqAnswer 6 m = .accept ↔ m ∈ [.simmer, .calib, .run, .drain, .test]) ∧
    (reqAnswer 7 m = .accept ↔ m ∈ [.simmer, .safe]) ∧ (reqAnswer 8 m = .accept ↔ m = .safe) ∧
    (∀ code, code ≤ 7 → reqAnswer code m = .already → modeOfCode code = m)) ∧
  (∀ (lane : Lane) (c : Instr) (code : Nat) (s : State), (c, code) ∈ modeRequests lane →
    s.serves lane Reg.HK_MODE_REQ = true →
    (s.hk.target = none → reqAnswer code s.hk.mode = .reject → ∃ t, exec c s = .next t ∧
      s.replied t lane Reg.HK_MODE_REQ Stat.stateReject 0 ∧ s.counts t Reg.HK_MODE_REJ_CNT 1 ∧ t.hk = s.hk ∧
      s.onlyAnswered t) ∧
    (s.hk.target = none → reqAnswer code s.hk.mode = .already → ∃ t, exec c s = .next t ∧
      s.replied t lane Reg.HK_MODE_REQ Stat.ok 0 ∧ s.onlyAnswered t) ∧
    (s.hk.target = none → reqAnswer code s.hk.mode = .accept → s.reqWaits code = true → ∃ t, exec c s = .next t ∧
      s.replied t lane Reg.HK_MODE_REQ Stat.notReady 0 ∧
      s.onlyAnswered t) ∧
    (∀ m, s.hk.target = some m →
      (code ≠ 8 → modeOfCode code = m → ∃ t, exec c s = .next t ∧ s.replied t lane Reg.HK_MODE_REQ Stat.ok 0 ∧
        s.onlyAnswered t) ∧
      (code = 8 ∨ modeOfCode code ≠ m → ∃ t, exec c s = .next t ∧
        s.replied t lane Reg.HK_MODE_REQ Stat.stateReject 0 ∧ s.counts t Reg.HK_MODE_REJ_CNT 1 ∧
        s.onlyAnswered t)))

/-- R40 to R42 (LOAD and its results), R36 (the step after it), R276 (lane bring-up after LOAD). The model's choices: LOAD runs
whole by one command with its operand (log entry 84), L10 loads the operand's time (log entry 6), the privileged queues are
initialised at the end of the first LOAD (log entry 88), and a lane with a pattern set stands in PRBS (log entry 145). -/
def Obligations.LoadRunsToItsResult : Prop :=
  (∀ (env : LoadEnv) (s : State), s.hk.mode = .load → s.hk.target = none → s.hk.loadResult = .none →
    ∃ t, exec (.loadSequence env) s = .next t ∧ t.hk.mode = .load ∧ t.hk.target = none ∧ t.hk.loadResult ≠ .none ∧
      t.hk.firstLoadDone = true ∧
      (s.firstTry.fail = 0 → lidParOk s.lidSection = true → (env.l8first = true ∨ env.l8second = true) → env.passFed = true →
        env.passHbd = true → env.passCda = true → env.passCdb = true → env.linkA = true → env.linkB = true →
        t.hk.loadResult = .simmer ∧ t.hk.tcause = 5 ∧ t.tb.tn = env.tn % 2 ^ 64 ∧ t.nvd.locksOn = true ∧
        t.reg Reg.HK_LOAD_STEP = 10)) ∧
  (∀ s : State, s.hk.mode = .load → s.hk.target = none → s.hk.loadResult ≠ .none →
    ∃ t, exec .loadComplete s = .next t ∧ (t.lane 0).st = (if s.patOn 0 then 6 else 2) ∧
      (t.lane 0).bringUp = !s.patOn 0 ∧ t.hk.target = (match s.hk.loadResult with
        | .none => none
        | .simmer => some .simmer
        | .safe => some .safe
        | .boot => some .boot) ∧
      ((s.lane 0).block = false → (s.lane 0).st ≠ 5 → t = { s with hk := t.hk, lanes := t.lanes })) ∧
  (∀ s : State, s.hk.mode = .load → (s.hk.target = some .simmer ∨ s.hk.target = some .safe) → s.laneUp 0 = false →
    ∃ t, exec .lane0WaitExpire s = .next t ∧ t = { s with lanes := t.lanes } ∧ t.lane 0 = s.lane 0 ∧
      ∀ n, 0 < n → n < 32 → s.laneRole n ≠ 0 → (s.lane n).st = 0 → (t.lane n).st = (if s.patOn n then 6 else 2)) ∧
  (∀ s : State, s.hk.mode = .load → (s.hk.target = some .simmer ∨ s.hk.target = some .safe) →
    ∃ t, exec .parkWindowExpire s = .next t ∧ t.lane 0 = s.lane 0 ∧
      t = { s with lanes := t.lanes, regs := t.regs,
                   ulp := { s.ulp with held := t.ulp.held, peers := t.ulp.peers } } ∧
      ∀ n, 0 < n → n < 32 → s.laneRole n ≠ 0 → s.simmerLane ≠ some n → (t.lane n).st = 1 ∧
        t.bit (laneCfg n) 0 = false ∧ (t.lane n).stored = (s.lane n).stored)

/-- R36's last steps, R43 and R44 (the run), R45 (DRAIN), R48 (the drain of SAFE), R331 (a Lid trip in a switch-over). The
model's choices: FREERUN from LOAD's start with TN kept until L10 (log entry 73), the LIMB's frames that DRAIN_COMPLETE frees
(log entry 77), and a Lid trip that waits for the switch-over that it met (log entry 157). -/
def Obligations.TransitionsReachTheirMode : Prop :=
  (∀ (env : EntryEnv) (m : Mode) (s : State), s.hk.target = some m → m ≠ .drain → (m = .run → s.hk.heldSpillEnd = none) →
    (m = .safe → s.rd.step = 0 ∨ s.hk.tcause ≠ 6) →
    ∃ t, exec (.modeTransitionComplete env) s = .next t ∧ t.hk.mode = m ∧ t.hk.target = none ∧
      (m ≠ .run → t.hk.cause = s.hk.tcause) ∧
      (m = .load → t.tb.state = .freerun ∧ (s.tb.tn < 2 ^ 64 → t.tb.tn = s.tb.tn) ∧ t.lid.state = .off ∧ t.lanes = [] ∧
        t.rd.step = 0) ∧
      (m = .run → t.run.active = true ∧ t.run.closedMark = false ∧ t.wf.sampStart.isSome = true) ∧
      (m = .calib → t.cd.whisk.on = true ∧ t.wf.sampStart = some (t.tb.tn + 1)) ∧
      (m = .test → t.wf.sampStart = some (t.tb.tn + 1)) ∧
      (m = .boot → t.hk.minimalLink = true)) ∧
  (∀ (env : EntryEnv) (s : State), s.hk.target = some .safe → s.rd.step ≠ 0 → s.hk.tcause = 6 →
    exec (.modeTransitionComplete env) s = .next s) ∧
  (∀ s : State, s.hk.mode = .calib → s.hk.target = none → s.calibBusy = false →
    ∃ t, exec .calibTaskComplete s = .next t ∧ t = { s with hk := { s.hk with target := some .simmer, tcause := 5 } }) ∧
  (∀ s : State, s.hk.mode = .drain → s.run.closedMark = true → s.hk.target = none → s.ringsOpen = false →
    ∃ t, exec .drainComplete s = .next t ∧ t.hk.mode = .simmer ∧ t.hk.cause = 5 ∧ t.run.active = false ∧
      t.wf.sampStart = none ∧ t.cd.whisk.on = false ∧ t.lane 0 = s.lane 0 ∧ (s.role = .limb → t.ulp.held = [])) ∧
  (∀ s : State, (s.hk.mode = .safe ∨ s.hk.target = some .safe) → s.hk.safeDrained = false → s.run.closedMark = true →
    s.ringsOpen = false →
    ∃ t, exec .safeDrainEnd s = .next t ∧ t.hk = { s.hk with safeDrained := true } ∧ t.run = { s.run with active := false } ∧
      t.wf.sampStart = none ∧ t.cd.whisk.on = false ∧ t.lanes = s.lanes ∧ t.tb = s.tb ∧ t.lid = s.lid ∧
      t.regs = s.regs)

/-- R44 to R46 (spill markers), R226 (SYNC), R304 (FLUSH and MODE as markers; a FLUSH is executed at the end of its slice). The
model's choices: the spill markers outside what R44 to R46 order (log entry 81), and SPILL_START judged with the SLC_CFG that the
entry brings into force (log entry 13). -/
def Obligations.MarkersActOnLaneZero : Prop :=
  (∀ (mseq : BitVec 16) (now : Nat) (s0 s : State), s = s0.advanceTo now → s.pathOpen 0 = true → mseq ∉ s.ulp.marks →
    s.hk.stuck = false → s.hk.target = none →
    (∀ slice : W32, s.hk.mode = .simmer → s.bit Reg.HK_AUTO_SPILL 0 = true → -64 ≤ sdiff slice.toNat (s.latch [Reg.SLC_CFG]).curSlice →
      sdiff slice.toNat (s.latch [Reg.SLC_CFG]).curSlice ≤ 2 ^ 20 →
      ∃ t, exec (.markSpillStart mseq slice now) s0 = .next t ∧ t.hk.mode = .simmer ∧ t.hk.target = some .run ∧
        t.hk.tcause = 3 ∧ t.hk.spillSf = some slice.toNat ∧ t.hk.spillEntry = true ∧ mseq ∈ t.ulp.marks ∧
        t.reg Reg.LK_MARK_SLICE = slice ∧ t.resp = s0.resp) ∧
    (∀ slice : W32, s.hk.mode = .run → s.bit Reg.HK_AUTO_SPILL 0 = true → 0 ≤ sdiff slice.toNat s.run.named →
      0 ≤ sdiff slice.toNat s.run.sf → 0 < sdiff slice.toNat s.curSlice → sdiff slice.toNat s.curSlice ≤ 2 ^ 20 →
      ∃ t, exec (.markSpillEnd mseq slice now) s0 = .next t ∧ t.hk.mode = .run ∧ t.hk.target = some .drain ∧
        t.hk.tcause = 4 ∧ t.run = { s.run with sl := some slice.toNat, endMode := 2, endCause := 4 } ∧
        mseq ∈ t.ulp.marks ∧ t.resp = s0.resp) ∧
    (∀ (slice : W32) (tick : Nat) (id : BitVec 16), s.run.active = true → s.run.closedMark = false → s.run.sl = none →
      s.built slice.toNat = false → s.handed slice.toNat = false → 0 ≤ sdiff slice.toNat s.run.named →
      ∃ t, exec (.markSync mseq slice tick id now) s0 = .next t ∧
        t.cd = { s.cd with barriers := s.cd.barriers ++ [⟨1, 0, slice.toNat, slice.toNat, id.toNat, false⟩] } ∧
        (s.other.st = cdReady →
          t.other.barriers = s.other.barriers ++ [⟨1, 0, slice.toNat, slice.toNat, id.toNat, false⟩]) ∧ t.hk = s0.hk ∧
        t.resp = s0.resp) ∧
    (∀ (slice : W32) (id : BitVec 16), sdiff slice.toNat s.curSlice ≤ 2 ^ 20 →
      (∀ f, f ∈ s.ulp.flushes → s.sliceEnded f.1 = false) →
      ∃ t, exec (.markFlush mseq slice id now) s0 = .next t ∧ mseq ∈ t.ulp.marks ∧
        t.ulp.flushes = s.ulp.flushes ++
          [((if sdiff slice.toNat s.curSlice < 0 then s.curSlice else slice.toNat), id.toNat)] ∧
        t.cd = s.cd ∧ t.hk = s0.hk ∧ t.resp = s0.resp) ∧
    (s.hk.mode = .simmer → ∃ t, exec (.markMode mseq 3 now) s0 = .next t ∧ t.hk.mode = .simmer ∧
      t.hk.target = some .calib ∧ t.hk.tcause = 2 ∧ mseq ∈ t.ulp.marks ∧ t.resp = s0.resp)) ∧
  (∀ (n id : Nat) (s : State), s.pending = [] → s.hk.mode = .run → s.hk.target = none → s.run.sl = none →
    s.ulp.flushes = [(n, id)] → (s.advance 1).sliceEnded n = true → s.built n = false →
    ∃ t, step s = .next t ∧ t.ulp.flushes = [] ∧
      t.cd = { s.cd with barriers := s.cd.barriers ++ [⟨2, 0, n, n, id, false⟩] } ∧ t.resp = s.resp)

/-- R60, R74, R75, R80, R81. The byte layout of a directory copy in the PREFER clause is the model's choice (log entry 124). -/
def Obligations.NvdCommandsStartAndEnd : Prop :=
  (∀ (lane : Lane) (slot : Bool) (s : State), s.serves lane Reg.HK_NVD_CMD = true → s.lockMask Reg.HK_NVD_CMD = 0 →
    s.nvd.busy = none →
    (s.allows .nvdSlot = true → s.loadedSlot slot = false → ∃ t, exec (.slotInvalidate lane slot) s = .next t ∧
      s.replied t lane Reg.HK_NVD_CMD Stat.ok 0 ∧ t.nvd = { s.nvd with busy := some (.invalidate, slot) } ∧
      t.fld Reg.HK_NVD_CMD 3 0 = 1) ∧
    (s.allows .nvdSlot = true → s.loadedSlot slot = false → ∃ t, exec (.slotVerify lane slot) s = .next t ∧
      s.replied t lane Reg.HK_NVD_CMD Stat.ok 0 ∧ t.nvd = { s.nvd with busy := some (.verify, slot) } ∧
      t.fld Reg.HK_NVD_CMD 3 0 = 2) ∧
    (s.allows .nvdSlot = true → (if slot then s.nvd.verB else s.nvd.verA) = true →
      ∃ t, exec (.slotPrefer lane slot) s = .next t ∧ s.replied t lane Reg.HK_NVD_CMD Stat.ok 0 ∧
        t.nvd = { s.nvd with busy := some (.prefer, slot) } ∧ t.fld Reg.HK_NVD_CMD 3 0 = 3) ∧
    (s.allows .calSet = true → s.calibBusy = false → ∃ t, exec (.calCommit lane) s = .next t ∧
      s.replied t lane Reg.HK_NVD_CMD Stat.ok 0 ∧
      t.nvd = { s.nvd with busy := some (.commit, s.bit Reg.HK_NVD_CMD 8), snap := some s.cal } ∧
      t.fld Reg.HK_NVD_CMD 3 0 = 4)) ∧
  (∀ (b : Bool) (s : State), s.age.writing = none →
    (s.nvd.busy = some (.invalidate, b) → s.clean .hbd 0x04 (slotBase b / 8) = true →
      ∃ t, exec .nvdCommandDone s = .next t ∧ t.nvd.busy = none ∧
        t.nvd.words = Sparse.put 0 (slotBase b / 8) (putBits (s.nvd.word (slotBase b)) 31 0 0) s.nvd.words ∧
        (if b then t.nvd.verB else t.nvd.verA) = false ∧ t.fld Reg.HK_NVD_CMD 3 0 = 0 ∧ t.fld Reg.HK_NVD_STS 7 4 = 0 ∧
        t.fld Reg.HK_NVD_STS 12 8 = 31) ∧
    (s.nvd.busy = some (.verify, b) → ∃ t, exec .nvdCommandDone s = .next t ∧ t.nvd.busy = none ∧
      t.fld Reg.HK_NVD_CMD 3 0 = 0 ∧ t.fld Reg.HK_NVD_STS 7 4 ≤ 4 ∧
      (t.fld Reg.HK_NVD_STS 7 4 = 0 → (if b then t.nvd.verB else t.nvd.verA) = true)) ∧
    (s.nvd.busy = some (.prefer, b) → ∃ t, exec .nvdCommandDone s = .next t ∧ t.nvd.busy = none ∧
      (∀ i, i < 3 → t.nvd.word (0x1000 * i) = BitVec.ofNat 64 (b2n b + (crc32c (leBytes 4 (b2n b))).toNat * 2 ^ 32)) ∧
      (∀ j, j ≠ 0 → j ≠ 0x200 → j ≠ 0x400 → Sparse.get 0 t.nvd.words j = Sparse.get 0 s.nvd.words j) ∧
      t.fld Reg.HK_NVD_CMD 3 0 = 0 ∧ t.fld Reg.HK_NVD_STS 7 4 = 0) ∧
    (∀ c : Cal, s.nvd.busy = some (.commit, b) → s.nvd.snap = some c →
      ∃ t, exec .nvdCommandDone s = .next t ∧ t.nvd.busy = none ∧ t.nvd.snap = none ∧ t.nvd.torn = false ∧
        t.bit Reg.HK_CFG_INFO 10 = true ∧ t.fld Reg.HK_CFG_INFO 9 9 = 1 ∧ t.fld Reg.HK_NVD_CMD 3 0 = 0 ∧
        t.fld Reg.HK_NVD_STS 7 4 = 0)) ∧
  (∀ (lane : Lane) (off : BitVec 20) (data : W32) (be : BitVec 4) (s : State),
    s.serves lane (0xD00000 + off.toNat) = true → be ≠ 0 → off.toNat % 4 = 0 →
    (∀ b : Bool, nvdPlace (s.nvdAddr off.toNat) = .slot b → s.loadedSlot b = false → s.allows .nvdSlot = true →
      s.nvd.busy = none → s.clean .hbd 0x04 (s.nvdAddr off.toNat / 8) = true →
      ∃ t, exec (.nvdWindowWrite lane off data be) s = .next t ∧ s.replied t lane (0xD00000 + off.toNat) Stat.ok 0 ∧
        (let w := s.nvd.word (s.nvdAddr off.toNat)
         let high := s.nvdAddr off.toNat % 8 == 4
         t.nvd.words = Sparse.put 0 (s.nvdAddr off.toNat / 8) (setHalf w high (mergeBE (halfOf w high) data be))
           s.nvd.words) ∧
        (if b then t.nvd.verB else t.nvd.verA) = false) ∧
    (nvdPlace (s.nvdAddr off.toNat) = .held → ∃ t, exec (.nvdWindowWrite lane off data be) s = .next t ∧
      s.replied t lane (0xD00000 + off.toNat) Stat.locked 0 ∧ t.nvd = s.nvd) ∧
    (nvdPlace (s.nvdAddr off.toNat) = .reserved → s.allows .writeCfg = true → ∃ t, exec (.nvdWindowWrite lane off data be) s = .next t ∧
      s.replied t lane (0xD00000 + off.toNat) Stat.ok 0 ∧ t.nvd = s.nvd))

/-- R93, R95, R97, R99, R101. The model's choices: the snapshot carries the SEQ that the gate's end leaves (log entry 54,
DEDUCED); AMP, PHASE, PERIOD and COUNT are read at each strobe and DITHER at GO (log entry 127, DEDUCED); GO together with STOP,
and GO outside CALIB and TEST, as log entry 53 has them (DEDUCED). -/
def Obligations.FrontEndWritesAct : Prop :=
  ∀ (lane : Lane) (data : W32) (be : BitVec 4) (s : State),
    (∀ (ch : Chan) (high : Bool), s.serves lane (chanAddr ch high) = true → be ≠ 0 → s.allows .tableWrite = true →
      s.clean .fed 0x13 (chanIdx ch) = true → ∃ t, exec (.channelTableWrite lane ch high data be) s = .next t ∧
        s.replied t lane (chanAddr ch high) Stat.ok 0 ∧
        t.chanWord ch = setHalf (s.chanWord ch) high (mergeBE (halfOf (s.chanWord ch) high) data be) &&&
          0xDFFFFFFF00FFFFFF ∧
        (∀ c, c ≠ ch.val → t.chanWord c = s.chanWord c) ∧
        (((s.chanWord ch ^^^ t.chanWord ch) &&& analogBits) ≠ 0 → ch.val ∈ t.fe.blank) ∧
        (((s.chanWord ch ^^^ t.chanWord ch) &&& analogBits) = 0 → t.fe.blank = s.fe.blank)) ∧
    (∀ ch : Chan, ∃ t, exec (.blankingEnd ch) s = .next t ∧
      (∀ c, c ∈ t.fe.blank ↔ c ∈ s.fe.blank ∧ c ≠ ch.val) ∧ t = { s with fe := { s.fe with blank := t.fe.blank } }) ∧
    (∀ high : Bool, s.takes lane (if high then Reg.FE_GROUP_EN_1 else Reg.FE_GROUP_EN_0) be = true →
      ∃ t, exec (.groupEnableWrite lane high data be) s = .next t ∧
        s.replied t lane (if high then Reg.FE_GROUP_EN_1 else Reg.FE_GROUP_EN_0) Stat.ok 0 ∧
        t.reg (if high then Reg.FE_GROUP_EN_1 else Reg.FE_GROUP_EN_0) =
          mergeBE (s.reg (if high then Reg.FE_GROUP_EN_1 else Reg.FE_GROUP_EN_0)) data be ∧
        (s.hk.mode ≠ .run → s.hk.mode ≠ .drain → t.fe = { s.fe with groupEff := t.groupReg, groupPend := none }) ∧
        (s.hk.mode = .run ∨ s.hk.mode = .drain → t.fe = { s.fe with
          groupEff := s.groupsAt s.tb.tn, groupPend := some ((s.tb.tn / 2 ^ s.k + 1) * 2 ^ s.k, t.groupReg) })) ∧
    (s.takes lane Reg.FE_RATE_GATE be = true → ∃ t, exec (.rateGateWrite lane data be) s = .next t ∧
      s.replied t lane Reg.FE_RATE_GATE Stat.ok 0 ∧
      (let g := bits (mergeBE (s.reg Reg.FE_RATE_GATE) data be) 9 0
       t.fld Reg.FE_RATE_GATE 9 0 = g ∧
       (g = 0 → t.fe = { s.fe with gate := 0 }) ∧
       (g ≠ 0 → s.fe.gate = 0 → t.fe = { s.fe with gate := g, cnt := [] }) ∧
       (g ≠ 0 → s.fe.gate ≠ 0 → t.fe = s.fe))) ∧
    (s.fe.gate ≠ 0 → s.aclkRuns = true → ∃ t, exec .rateGateEnd s = .next t ∧
      t.fe = { s.fe with snap := s.fe.cnt, cnt := [], gateSeq := s.fe.gateSeq + 1, snapSeq := s.fe.gateSeq + 1,
                         gate := s.fld Reg.FE_RATE_GATE 9 0 } ∧
      t.regs = s.regs ∧ t.pq = s.pq ∧ t.out = s.out) ∧
    (s.takes lane Reg.FE_INJ_CTRL 0xF = true → s.hk.mode = .calib ∨ s.hk.mode = .test → bitOf data 1 = false →
      s.fe.inj.running = false → ∃ t, exec (.injGo lane data 0xF) s = .next t ∧
        s.replied t lane Reg.FE_INJ_CTRL Stat.ok 0 ∧ t.fe = { s.fe with inj := { s.fe.inj with
          running := true, sent := 0, dither := bitOf data 2, next := s.tb.tn + 16 } }) ∧
    (s.takes lane Reg.FE_INJ_CTRL 0xF = true → bitOf data 0 = false → ∃ t, exec (.injStop lane data 0xF) s = .next t ∧
      s.replied t lane Reg.FE_INJ_CTRL Stat.ok 0 ∧
      t.fe = { s.fe with inj := { s.fe.inj with running := false } }) ∧
    (∀ tick : Nat, s.fe.inj.running = true → ∃ t, exec (.injStrobe tick) s = .next t ∧
      t.fe.inj.sent = s.fe.inj.sent + 1 ∧ t.fe.inj.last = some (s.fe.inj.strobeTick tick) ∧
      t.fe.inj.next = s.fe.inj.strobeTick tick + s.injPeriod ∧
      (s.fe.inj.dither = false → s.fe.inj.strobeTick tick = s.fe.inj.next) ∧
      (t.fe.inj.running = true ↔ s.injCount = 0 ∨ s.fe.inj.sent + 1 < s.injCount) ∧
      (∃ l, t.out = s.out ++ l ∧ ∀ o, o ∈ l → ∃ c d, o = .inject c (s.fld Reg.FE_INJ_CTRL 25 16) d ∧
        (s.fe.inj.dither = false → d = 32 * s.fld Reg.FE_INJ_CTRL 13 8)) ∧
      t = { s with fe := t.fe, out := t.out, free := t.free, tb := (s.advanceTo (s.fe.inj.strobeTick tick)).tb })

/-- R107 to R114: edges, times, ToT and re-arm, and the record of a hit, in the native and in the compatibility mode. The model's
choices: a pulse whose channel is blanked or disabled while it is open (log entries 125, DESIGN CHOICE, and 126, DEDUCED); ticks
compared across a step of TN stand as they were taken (log entry 166, DESIGN CHOICE). -/
def Obligations.PulsesBecomeRecords : Prop :=
  ∀ (ch : Chan) (e : Edge) (s : State),
    (s.hears ch e.tick = true → s.compat = false → s.converts ch (s.banks ch).active e = true → (s.pulse ch).low = false →
      (s.pulse ch).timing = false → (s.pulse ch).rearm = none ∨ (∃ m, (s.pulse ch).rearm = some m ∧ m + 3 ≤ e.tick) →
      ∃ t, exec (.leadingCrossing ch e) s = .next t ∧
        (t.pulse ch).low = true ∧ (t.pulse ch).timing = true ∧
        (t.pulse ch).lead = s.rawTime ch (s.banks ch).active e ∧ (t.pulse ch).cal = s.calMark ch e.tick ∧
        (t.pulse ch).bank = (s.banks ch).active ∧
        (∀ c, c ≠ ch.val → t.pulse c = s.pulse c) ∧
        (s.fe.gate ≠ 0 → Sparse.get 0 s.fe.cnt ch.val < 0xFFFFFF →
          Sparse.get 0 t.fe.cnt ch.val = Sparse.get 0 s.fe.cnt ch.val + 1) ∧
        t.tdc.formed = s.tdc.formed ∧ t.fed = s.fed ∧ t.hk = s.hk) ∧
    (e.wf = true → s.hears ch e.tick = true → s.compat = false → (s.pulse ch).low = false →
      (s.pulse ch).timing = true ∨ (∃ m, (s.pulse ch).rearm = some m ∧ e.tick < m + 3) →
      ∃ t, exec (.leadingCrossing ch e) s = .next t ∧ t.pulse ch = { s.pulse ch with low := true } ∧
        t.reg Reg.TDC_DEAD_CNT = BitVec.ofNat 32 (satAdd 0xFFFFFFFF (s.reg Reg.TDC_DEAD_CNT).toNat 1) ∧
        t.tdc.formed = s.tdc.formed) ∧
    (s.hears ch e.tick = true → s.compat = true → s.converts ch (s.banks ch).active e = true → (s.pulse ch).low = false →
      (∀ x, (s.pulse ch).lastTick = some x → x < e.tick) → ∃ t, exec (.leadingCrossing ch e) s = .next t ∧
        (let p := s.pulse ch
         let raw := s.rawTime ch (s.banks ch).active e
         let cc := corrected raw (s.skewNow ch)
         let no := if p.hitSlice = s.sliceOf (cc / 2048) then p.hitNo else 0
         t.tdc.formed = s.tdc.formed ++ [⟨ch, raw, none, cc, 0, 0xFF, s.calMark ch e.tick,
           s.strobeOf (s.calMark ch e.tick), true, no % 256, p.disc, false⟩] ∧
         (t.pulse ch).hitSlice = s.sliceOf (cc / 2048) ∧ (t.pulse ch).hitNo = no + 1) ∧
        (t.pulse ch).low = true ∧ (t.pulse ch).lastTick = some e.tick ∧ (t.pulse ch).disc = 0 ∧
        ∀ c, c ≠ ch.val → t.pulse c = s.pulse c) ∧
    (∀ x, e.wf = true → s.hears ch e.tick = true → s.compat = true → (s.pulse ch).low = false →
      (s.pulse ch).lastTick = some x → e.tick ≤ x → ∃ t, exec (.leadingCrossing ch e) s = .next t ∧
        t.pulse ch = { s.pulse ch with low := true, disc := min 15 ((s.pulse ch).disc + 1) } ∧
        t.reg Reg.TDC_DEAD_CNT = BitVec.ofNat 32 (satAdd 0xFFFFFFFF (s.reg Reg.TDC_DEAD_CNT).toNat 1) ∧
        t.tdc.formed = s.tdc.formed) ∧
    (e.wf = true → s.fe.blank.contains ch.val = false → s.linesOn = true → s.filled ch = false → s.compat = false →
      s.converts ch (s.pulse ch).bank ((s.pulse ch).launch e).2 = true → (s.pulse ch).low = true →
      (s.pulse ch).timing = true → (s.pulse ch).high = none → ∃ t, exec (.highCrossing ch e) s = .next t ∧
        (t.pulse ch).high =
          some (nearPrev (s.pulse ch).latest (s.rawTime ch (s.pulse ch).bank ((s.pulse ch).launch e).2)) ∧
        (t.pulse ch).lead = (s.pulse ch).lead ∧ (∀ c, c ≠ ch.val → t.pulse c = s.pulse c) ∧
        (bitOf (s.chanWord ch) 54 = false → t.wf = s.wf) ∧
        (bitOf (s.chanWord ch) 54 = true → s.captures = true →
          t.wf.waiting.length = s.wf.waiting.length + 1)) ∧
    (e.wf = true → s.fe.blank.contains ch.val = false → s.filled ch = false →
      s.converts ch (s.pulse ch).bank ((s.pulse ch).launch e).2 = true → (s.pulse ch).low = true →
      (s.pulse ch).timing = true → ∃ t, exec (.trailingCrossing ch e) s = .next t ∧
        (let p := s.pulse ch
         let raw := nearPrev p.latest (s.rawTime ch p.bank (p.launch e).2)
         t.tdc.formed = s.tdc.formed ++ [⟨ch, p.lead, p.high, corrected p.lead p.skew, totOf p.lead raw,
           riseOf p.lead p.high, p.cal, p.strobe, false, 0, 0, p.lost⟩]) ∧
        (t.pulse ch).low = false ∧ (t.pulse ch).timing = false ∧ (t.pulse ch).rearm = some e.tick ∧
        (∀ c, c ≠ ch.val → t.pulse c = s.pulse c)) ∧
    ((s.pulse ch).timing = true → ∃ t, exec (.totTimeout ch) s = .next t ∧
      (let p := s.pulse ch
       t.tdc.formed = s.tdc.formed ++ (if s.filled ch then [] else
         [⟨ch, p.lead, p.high, corrected p.lead p.skew, 0xFFF, riseOf p.lead p.high, p.cal, p.strobe, false, 0, 0,
           p.lost⟩])) ∧
      (t.pulse ch).timing = false ∧ t = { s with tdc := t.tdc, tb := t.tb }) ∧
    (∀ (f : Formed) (rest : List Formed), takeFormed ch.val s.tdc.formed = some (f, rest) →
      (s.recording f.c = false → ∃ t, exec (.hitEmit ch) s = .next t ∧ t.tdc.formed = rest ∧ t.fed = s.fed) ∧
      (s.recording f.c = true → f.lost = false → (s.group (groupOf f.chan)).stage.length < 64 →
        ∃ t, exec (.hitEmit ch) s = .next t ∧ t.tdc.formed = rest ∧
          t.fed = (s.setGroup (groupOf f.chan) { s.group (groupOf f.chan) with
            stage := (s.group (groupOf f.chan)).stage ++
              [⟨s.hitWord f, .hit, f.chan, f.c, s.sliceOf (f.c / 2048), 0, false⟩] }).fed))

/-- R117 to R126. The model's choices: the channels of a fill are fixed when the command is written and go on being filled (log
entry 170, DESIGN CHOICE); BIN_SAT is judged before OVERRUN (log entry 55, DEDUCED); ABORT of a channel that holds all events
but is not converted gives ABORTED (log entry 172, DEDUCED); an overrun below the code 1,408 counts in N and SPAN and in
no bin (log entry 168, DESIGN CHOICE); the channels a FILL_LAUNCH does not list get free codes (log entry 163, DESIGN CHOICE);
ABORT and a SWAP, and a hard result, as log entry 56 has them (DEDUCED); the spare bits of an entry as log entry 130 has them
and an ENTRY of 1,408 or more as log entry 173 (DESIGN CHOICE); only the mode, not the target, is judged by R124's table (log
entry 174, DEDUCED). -/
def Obligations.FillsRunAsGiven : Prop :=
  (∀ (lane : Lane) (s : State), s.serves lane Reg.TDC_CD_CMD = true → s.allows .writeCfg = true →
    (s.hk.mode = .calib → s.tdc.fill = none → s.liveOf s.cdGroups ≠ [] → ∃ t, exec (.fillInternal lane) s = .next t ∧
      s.replied t lane Reg.TDC_CD_CMD Stat.ok 0 ∧
      t.tdc.fill = some ⟨true, false, s.liveOf s.cdGroups, s.liveOf s.cdGroups, s.cdGroups, s.lenWords Reg.TDC_LEN⟩ ∧
      t.tdc.hard = 0 ∧ ∀ c, c ∈ s.liveOf s.cdGroups → (t.banks c).n = 0 ∧ (t.banks c).active = (s.banks c).active ∧
        (t.banks c).st (!(s.banks c).active) = .filling) ∧
    (s.hk.mode = .calib ∨ s.hk.mode = .run ∨ s.hk.mode = .drain → s.tdc.fill = none → s.liveOf s.cdGroups ≠ [] →
      ∃ t, exec (.fillLive lane) s = .next t ∧ s.replied t lane Reg.TDC_CD_CMD Stat.ok 0 ∧
      t.tdc.fill = some ⟨false, false, s.liveOf s.cdGroups, s.liveOf s.cdGroups, s.cdGroups,
        s.lenWords Reg.TDC_LEN_ACT⟩ ∧
      t.tdc.hard = 0 ∧ ∀ c, c ∈ s.liveOf s.cdGroups → (t.banks c).n = 0 ∧ (t.banks c).active = (s.banks c).active ∧
        (t.banks c).st (!(s.banks c).active) = .filling) ∧
    (s.tdc.fill = none →
      (∃ c, c ∈ s.liveOf s.cdGroups ∧ (s.banks c).st (!(s.banks c).active) = .table) → ∃ t, exec (.swap lane) s = .next t ∧
        s.replied t lane Reg.TDC_CD_CMD Stat.ok 0 ∧
        (let go := (s.liveOf s.cdGroups).filter (fun c => (s.banks c).st (!(s.banks c).active) == .table)
         t.tdc.fill = some ⟨false, true, go, go, s.cdGroups, []⟩ ∧
         ∀ c, c ∈ go → (t.banks c).swapWait = true ∧ (t.banks c).active = (s.banks c).active)) ∧
    (∀ f : Fill, s.tdc.fill = some f → f.swap = false → ∃ t, exec (.abort lane) s = .next t ∧
      s.replied t lane Reg.TDC_CD_CMD Stat.ok 0 ∧ t.tdc.fill = none ∧
      ∀ c, c ∈ f.remain → (t.banks c).result = 6 ∧ (t.banks c).active = (s.banks c).active)) ∧
  (∀ (codes : List (Nat × Nat × Bool)) (f : Fill) (s : State), (Instr.fillLaunch codes).wf = true →
    s.tdc.fill = some f → f.internal = true → f.swap = false → f.remain.Nodup →
    ∃ t, exec (.fillLaunch codes) s = .next t ∧ t.tdc.fill = s.tdc.fill ∧ t.tdc.tab = s.tdc.tab ∧
      (∀ c, c ∉ f.remain → t.banks c = s.banks c) ∧
      (∀ c v full, c ∈ f.remain → codes.find? (fun x => x.1 == c) = some (c, v, full) → (s.banks c).n < fillN →
        (t.banks c).n = (s.banks c).n + 1 ∧ (t.banks c).top = max (s.banks c).top (v + 1) ∧
        (v < 1408 → full = false → Sparse.get 0 t.tdc.hist (tabKey c (!(s.banks c).active) v) =
          Sparse.get 0 s.tdc.hist (tabKey c (!(s.banks c).active) v) + 1) ∧
        (1408 ≤ v ∨ full = true → (t.banks c).ovr = true ∧ ∀ i, i < 1408 →
          Sparse.get 0 t.tdc.hist (tabKey c (!(s.banks c).active) i) =
            Sparse.get 0 s.tdc.hist (tabKey c (!(s.banks c).active) i)))) ∧
  (∀ (ch : Chan) (f : Fill) (s : State), s.tdc.fill = some f → ch.val ∈ f.remain →
    (f.swap = false → fillN ≤ (s.banks ch).n → s.fillResult ch ≠ 4 → s.fillResult ch ≠ 5 →
      ∃ t, exec (.fillConvert ch) s = .next t ∧ (t.banks ch).st (!(s.banks ch).active) = .table ∧
        (t.banks ch).result = s.fillResult ch ∧ (t.banks ch).span = (s.banks ch).top ∧
        (∀ i, i < 1408 → t.tabAt ch (!(s.banks ch).active) i =
          (2 * (((List.range (1407 - i)).map (fun j =>
            Sparse.get 0 s.tdc.hist (tabKey ch (!(s.banks ch).active) (1407 - j)))).sum) +
              Sparse.get 0 s.tdc.hist (tabKey ch (!(s.banks ch).active) i)) / 4096) ∧
        (setDel ch.val f.remain ≠ [] → t.tdc.fill = some { f with remain := setDel ch.val f.remain }) ∧
        (setDel ch.val f.remain = [] → t.tdc.fill = none)) ∧
    (f.swap = true → (s.pulse ch).timing = false → (∀ x, x ∈ s.tdc.formed → x.chan ≠ ch.val) →
      ∃ t, exec (.channelBankSwap ch) s = .next t ∧
        t.banks ch = { s.banks ch with active := !(s.banks ch).active, swapWait := false } ∧
        t = { s with tdc := { s.tdc with banks := t.tdc.banks, fill := t.tdc.fill } } ∧
        (setDel ch.val f.remain = [] → t.tdc.fill = none))) ∧
  (∀ (lane : Lane) (data : W32) (be : BitVec 4) (s : State),
    (s.takes lane Reg.TDC_CD_DATA be = true → s.cdSel.2.2 < 1408 → s.cdSel.2.1 ≠ (s.banks s.cdSel.1).active →
      (s.banks s.cdSel.1).st s.cdSel.2.1 = .table →
      s.clean .fed 0x12 (tabIdx s.cdSel.1 s.cdSel.2.1 s.cdSel.2.2) = true →
      ∃ t, exec (.cdTableWrite lane data be) s = .next t ∧ s.replied t lane Reg.TDC_CD_DATA Stat.ok 0 ∧
        t.tabAt s.cdSel.1 s.cdSel.2.1 s.cdSel.2.2 = bits (mergeBE (BitVec.ofNat 32 (s.tabAt s.cdSel.1 s.cdSel.2.1
          s.cdSel.2.2)) data be) 15 0 ∧
        (∀ c bank i, tabKey c bank i ≠ tabKey s.cdSel.1 s.cdSel.2.1 s.cdSel.2.2 → t.tabAt c bank i = s.tabAt c bank i)) ∧
    (s.serves lane Reg.TDC_CD_DATA = true → s.allows .readOther = true → s.cdSel.2.2 < 1408 →
      s.clean .fed 0x12 (tabIdx s.cdSel.1 s.cdSel.2.1 s.cdSel.2.2) = true →
      ∃ t, exec (.cdTableReadAutoinc lane) s = .next t ∧
        s.replied t lane Reg.TDC_CD_DATA Stat.ok (BitVec.ofNat 32 (s.cdEntry s.cdSel.1 s.cdSel.2.1 s.cdSel.2.2)) ∧
        t.fld Reg.TDC_CD_SEL 10 0 = (if s.bit Reg.TDC_CD_SEL 31 then (s.cdSel.2.2 + 1) % 2048 else s.cdSel.2.2) ∧
        t.tdc = s.tdc) ∧
    (s.takes lane Reg.TDC_SKW_CTRL 0xF = true → ∃ t, exec (.skewClear lane data 0xF) s = .next t ∧
      s.replied t lane Reg.TDC_SKW_CTRL Stat.ok 0 ∧ t.tdc = { s.tdc with skew := [] }))

/-- R129 to R139 and R189's WAVE unit. The model's choice: a ring that a release-through notice frees is FREE and counted at once,
and a keep of the same tick takes both back (log entry 135, DESIGN CHOICE). -/
def Obligations.WaveformsAreCapturedAndSent : Prop :=
  (∀ (ch : Chan) (p : Capture) (rest : List Capture) (s : State), takeCapture ch.val s.wf.waiting = some (p, rest) →
    s.wf.sampStart.isSome = true →
    (∀ i, s.bit Reg.WF_CTRL 0 = true →
      (s.ringsBy ch p.freeze).findIdx? (fun x => x.st == 1 && decide (x.start ≤ p.last)) = some i →
      ∃ t, exec (.ringFreeze ch) s = .next t ∧ t.wf.waiting = rest ∧
        (t.ringAt ch i).st = (if s.bit Reg.WF_CTRL 1 then 3 else 2) ∧
        (t.ringAt ch i).cap = some { p with budget := s.wfBudget, keepAll := s.bit Reg.WF_CTRL 1 } ∧
        (t.ringAt ch i).keptAt = p.freeze) ∧
    (s.bit Reg.WF_CTRL 0 = true →
      (s.ringsBy ch p.freeze).findIdx? (fun x => x.st == 1 && decide (x.start ≤ p.last)) = none →
      ∃ t, exec (.ringFreeze ch) s = .next t ∧ t.wf.waiting = rest ∧
        t.reg Reg.WF_NORING_CNT = BitVec.ofNat 32 (satAdd 0xFFFFFFFF (s.reg Reg.WF_NORING_CNT).toNat 1) ∧
        t.wf.units.length = s.wf.units.length + b2n (s.recording p.c)) ∧
    (s.bit Reg.WF_CTRL 0 = false → ∃ t, exec (.ringFreeze ch) s = .next t ∧
      t = { s with wf := { s.wf with waiting := rest }, tb := t.tb })) ∧
  (∀ (c r : Nat) (p : Capture) (s : State), s.wf.sampStart.isSome = true → s.heldRings = [(c, r, p)] →
    (s.ringAt c r).st = 2 → (s.ringAt c r).cap = some p → (s.ringAt c r).freeAt = 0 →
    (∀ (fromB : Bool) (first last now : Nat), (s.advanceTo now).heard fromB = true →
      (∀ e, e ∈ s.wf.noticed → e.1 ≠ now) → first ≤ p.tick → p.tick ≤ last → p.freeze < now → now ≤ p.freeze + p.budget →
      ∃ t, exec (.keepWindowReceive fromB first last now) s = .next t ∧ (t.ringAt c r).st = 3 ∧
        (t.ringAt c r).keptAt = now ∧ (t.ringAt c r).cap = some p) ∧
    (∀ x now : Nat, p.tick < x → p.freeze < now →
      ∃ t, exec (.releaseThroughReceive ⟨s.rd.activeB, s.fed.gen⟩ x now) s = .next t ∧
        t.wf.released = s.wf.released ++ [p] ∧ (t.ringAt c r).cap = none ∧
        t.reg Reg.WF_RELEASED_CNT = BitVec.ofNat 32 (satAdd 0xFFFFFFFF (s.reg Reg.WF_RELEASED_CNT).toNat 1) ∧
        (∀ first last : Nat, first ≤ p.tick → p.tick ≤ last → (∀ e, e ∈ s.wf.noticed → e.1 ≠ now) →
          now ≤ p.freeze + p.budget → ∃ u, exec (.keepWindowReceive s.rd.activeB first last now) t = .next u ∧ (u.ringAt c r).st = 3 ∧
            (u.ringAt c r).cap = some p))) ∧
  (∀ (ch : Chan) (ring : Fin 4) (p : Capture) (s : State), s.wf.sampStart.isSome = true →
    (s.ringAt ch ring).cap = some p → (s.ringAt ch ring).freeAt = 0 →
    ((s.ringAt ch ring).st = 2 → ∃ t, exec (.holdBudgetExpire ch ring) s = .next t ∧
      t.wf.released = s.wf.released ++ [p] ∧ (t.ringAt ch ring).cap = none ∧
      t.reg Reg.WF_RELEASED_CNT = BitVec.ofNat 32 (satAdd 0xFFFFFFFF (s.reg Reg.WF_RELEASED_CNT).toNat 1)) ∧
    ((s.ringAt ch ring).st = 3 → ∃ t, exec (.waveDeadline ch ring) s = .next t ∧
      t.ringAt ch ring = { s.ringAt ch ring with freeAt := t.tb.tn + 1 } ∧
      (nth RingCell.free (t.ringsBy ch (t.tb.tn + 1)) ring).cap = none ∧
      t.reg Reg.WF_DEADLINE_CNT = BitVec.ofNat 32 (satAdd 0xFFFFFFFF (s.reg Reg.WF_DEADLINE_CNT).toNat 1) ∧
      t.wf.units = s.wf.units ++ (if s.recording p.c then [s.waveUnit p 6 3 []] else []))) ∧
  (∀ (adc : Adc) (now : Nat) (e : Nat × RingCell) (s : State), s.wf.sampStart.isSome = true →
    Sparse.get none s.wf.adc adc.val = none → (∀ u, u ∈ s.wf.units → u.adc = adc.val → s.unitRoom u = true) →
    s.nextKept adc now = some e → ∃ t, exec (.adcConversionStart adc now) s = .next t ∧
      Sparse.get none t.wf.adc adc.val = some (e.1 / 4, e.1 % 4) ∧ (t.ringAt (e.1 / 4) (e.1 % 4)).st = 4 ∧
      t = { s with wf := t.wf, tb := t.tb }) ∧
  (∀ (adc : Adc) (raw : List Nat) (c r : Nat) (p : Capture) (s : State), (Instr.adcConversionEnd adc raw).wf = true →
    Sparse.get none s.wf.adc adc.val = some (c, r) → (s.ringAt c r).cap = some p → s.recording p.c = true →
    ∃ t, exec (.adcConversionEnd adc raw) s = .next t ∧ Sparse.get none t.wf.adc adc.val = none ∧
      (let start := (s.ringAt c r).start
       let red := s.redOf (s.sliceOf p.tick)
       let cells := raw.mapIdx (fun i v => if p.first + (i : Int) < (start : Int) then 0 else s.adcValue adc v)
       t.wf.units = s.wf.units ++ [s.waveUnit p red (b2n (decide (p.first < (start : Int))))
         (packWave red (reduceCells red cells))])) ∧
  (∀ (g : Group) (u : WaveUnit) (rest : List WaveUnit) (s : State), s.takeUnit g.val [] s.wf.units = some (u, rest) →
    ∃ t, exec (.waveUnitWrite g) s = .next t ∧ t.wf = { s.wf with units := rest } ∧
      t.group g = { s.group g with fifo := (s.group g).fifo ++ u.ents } ∧
      (∀ h, h ≠ g.val → t.group h = s.group h) ∧ t = { s with wf := t.wf, fed := t.fed })

/-- R189 to R197 and R207: from the group FIFO to the Pantry. The model's choice: a loss record of a full FIFO waits for room and may
take the reserved entry or any other (log entry 22, DEDUCED). -/
def Obligations.RecordsPassToThePantry : Prop :=
  (∀ (g : Group) (s : State),
    (∀ (e : Ent) (rest : List Ent), (s.group g).stage = e :: rest →
      ((s.group g).fifo.length < 511 → ∃ t, exec (.groupFifoWrite g) s = .next t ∧
        t.group g = { s.group g with stage := rest, fifo := (s.group g).fifo ++ [e] } ∧
        (∀ h, h ≠ g.val → t.group h = s.group h) ∧ t = { s with fed := t.fed }) ∧
      ((s.group g).fifo.length ≥ 511 → e.kind ≠ .loss → groupOf e.chan = g.val → ∃ t, exec (.groupFifoWrite g) s = .next t ∧
        (t.group g).stage = rest ∧ (t.group g).fifo = (s.group g).fifo ∧
        (t.group g).dropN = (s.group g).dropN + 1 ∧
        t.reg Reg.FE_GFIFO_DROP_CNT = BitVec.ofNat 32 (satAdd 0xFFFFFFFF (s.reg Reg.FE_GFIFO_DROP_CNT).toNat 1))) ∧
    ((s.group g).dropN ≠ 0 → (s.group g).fifo.length < 511 → ∃ t, exec (.gfifoLossWrite g) s = .next t ∧
      t.group g = { s.group g with dropN := 0, dropLo := 0, dropHi := 0,
                                   fifo := (s.group g).fifo ++ [⟨recLoss s.source (s.group g).dropLo (s.group g).dropHi (s.group g).dropN 5,
        .loss, (s.group g).dropLo, 0, s.curSlice, 0, false⟩] })) ∧
  (∀ (now g : Nat) (s : State), s.cclkRuns = true → s.fed.walk = none → s.nextGroup = some g →
    ∃ t, exec (.innerLinkBeat now) s = .next t ∧
      (let es := takeBeat 4 (s.group g).allow (s.group g).fifo
       t.fed.beats = s.fed.beats ++ [⟨g, s.fed.gen, es, []⟩] ∧ t.fed.rr = g ∧
       t.group g = { s.group g with fifo := (s.group g).fifo.drop es.length, allow := (s.group g).allow - es.length } ∧
       (s.fed.ret.length + es.length ≤ 524288 →
         t.fed.ret = s.fed.ret ++ es.map (fun e => ⟨e, g, now % 2 ^ 24⟩)))) ∧
  (∀ (x : BeatBits) (now : Nat) (b : Beat) (rest : List Beat) (s : State), s.fed.beats = b :: rest →
    cdActive ≤ s.cd.st →
    (b.gen ≠ s.cd.gen → s.err.crit = none → ∃ t, exec (.beatReceive true x now) s = .next t ∧
      t.fed = { s.fed with beats := rest } ∧
      t.cd = s.cd ∧ t.reg Reg.Q_STALE_CNT = BitVec.ofNat 32 (satAdd 0xFFFFFFFF (s.reg Reg.Q_STALE_CNT).toNat 1)) ∧
    (∀ e : Ent, b.gen = s.cd.gen → b.ents = [e] → b.ticks = [] → x.unc = 0 → s.sound → e.kind = .hit → e.unc = false →
      bits (s.chanWord e.chan) 53 52 = 0 → bits (s.chanWord e.chan) 51 48 = 0 →
      (s.cd.hotIn e.slice).contains e.chan = false → s.cd.quotaSup = [] → s.inRun e.c = true → s.acq ≠ 1 →
      s.cd.isClosed e.slice = false → s.bit Reg.COL_CTRL 1 = false →
      (let q := s.queueOf s.source e.chan e.slice (s.hitClass e.word)
       s.clean s.activeDie 0x23 (qmapIdx q) = true → bitOf (Sparse.get 0 s.cd.qmap q) 31 = true →
       ∃ t, exec (.beatReceive true x now) s = .next t ∧ t.fed = { s.fed with beats := rest } ∧
        (t.cd.queue q).ents = (s.cd.queue q).ents ++ [e] ∧ ∀ j, j ≠ q → t.cd.queue j = s.cd.queue j)))

/-- R204 to R207 (credit), R194 (CLOSED), R141 (LEVEL), R193. -/
def Obligations.CreditsReachTheirSenders : Prop :=
  (∀ (x : Nat) (s : State), cdActive ≤ s.cd.st → s.sound →
    (s.senders.filter (fun y => decide (y > s.cd.rr)) ++ s.senders.filter (fun y => decide (y ≤ s.cd.rr))).find?
      (fun y => decide (Sparse.get 0 s.cd.out y < s.credMax y)) = some x →
    (let g := min (s.cd.f - (s.cd.cOut + s.cd.a)) (min 15 (s.credMax x - Sparse.get 0 s.cd.out x))
     ∃ t, exec .creditGrant s = .next t ∧
      (g = 0 → t.cd = s.cd ∧ t.out = s.out ∧ (t.stsOf Reg.Q_EVT).set.getLsbD 1 = true) ∧
      (g ≠ 0 → t.cd.rr = x ∧ Sparse.get 0 t.cd.out x = Sparse.get 0 s.cd.out x + g ∧
        (x < 64 → t.out = s.out ++ [.credit s.cd.gen x g])))) ∧
  (∀ (gen : BitVec 8) (g : Group) (pages : Fin 16) (n : W32) (level : Fin 5) (step : Fin 7) (s : State),
    (gen = s.fed.gen →
      (∃ t, exec (.creditReceive gen g pages) s = .next t ∧
        t.group g = { s.group g with allow := (s.group g).allow + 32 * pages.val } ∧
        (∀ h, h ≠ g.val → t.group h = s.group h) ∧ t = { s with fed := t.fed }) ∧
      (∃ t, exec (.closedReceive gen n) s = .next t ∧ t.fed = s.fed.release n.toNat ∧ t.fed.ret = releaseCopies n.toNat s.fed.ret ∧
        t = { s with fed := t.fed, wf := t.wf }) ∧
      (∃ t, exec (.levelReceive gen n level step) s = .next t ∧ Sparse.get 0 t.wf.level n.toNat = level.val ∧
        t = { s with wf := { s.wf with level := t.wf.level } })) ∧
    (gen ≠ s.fed.gen → exec (.creditReceive gen g pages) s = .next s ∧ exec (.closedReceive gen n) s = .next s ∧
      exec (.levelReceive gen n level step) s = .next s))

/-- R210 (POP_LO, POP_HI, the stall) and R212 (FLUSH). The model's choices: a POP_HI acts on the requester's snapshot whatever
HK_PQ_SEL holds (log entry 105, DEDUCED); a request of any lane ends the stall of the POP before it (log entry 115, DEDUCED). -/
def Obligations.FlushAndQueueReadsAct : Prop :=
  (∀ (lane : Lane) (id : BitVec 16) (now : Nat) (s0 s : State), s = s0.advanceTo now → s.serves lane Reg.Q_FLUSH = true →
    s.lockMask (s.phys Reg.Q_FLUSH) = 0 → s.allows .throttleFlush = true → s.run.closedMark = false → s.run.sl = none →
    ((∀ b, b ∈ s.cd.flushing → b.after = s.curSlice) → s.built s.curSlice = false →
      ∃ t, exec (.flush lane id now) s0 = .next t ∧ s.replied t lane Reg.Q_FLUSH Stat.ok 0 ∧
        t.cd = { s.cd with barriers := s.cd.barriers ++ [⟨2, 0, s.curSlice, s.curSlice, id.toNat, true⟩] } ∧ t.hk = s0.hk) ∧
    (∀ b, b ∈ s.cd.flushing → b.after ≠ s.curSlice → ∃ t, exec (.flush lane id now) s0 = .next t ∧
      s.replied t lane Reg.Q_FLUSH Stat.notReady 0 ∧ t.cd = s.cd ∧ t.hk = s0.hk)) ∧
  (∀ (lane : Lane) (s : State),
    (s.serves lane Reg.HK_PQ_POP_LO = true →
      (∀ (w : W64) (l : List W64), 9 ≤ s.fld Reg.HK_PQ_SEL 3 0 → s.pqOf (s.fld Reg.HK_PQ_SEL 3 0) = w :: l →
        s.clean .hbd 0x03 (s.pqWord (s.fld Reg.HK_PQ_SEL 3 0) 0) = true → ∃ t, exec (.pqPopLo lane) s = .next t ∧
          s.replied t lane Reg.HK_PQ_POP_LO Stat.ok (w.extractLsb' 0 32) ∧
          (t.lane lane).snap = some (s.fld Reg.HK_PQ_SEL 3 0, w) ∧ t.pq = s.pq) ∧
      (9 ≤ s.fld Reg.HK_PQ_SEL 3 0 → s.pqOf (s.fld Reg.HK_PQ_SEL 3 0) = [] → ∃ t, exec (.pqPopLo lane) s = .next t ∧
        (t.lane lane).popWait = some (s.fld Reg.HK_PQ_SEL 3 0, none) ∧ t.resp = s.resp ∧ t.pq = s.pq)) ∧
    (∀ (q : Nat) (w : W64), s.serves lane Reg.HK_PQ_POP_HI = true → (s.lane lane).snap = some (q, w) → q < 16 →
      ∃ t, exec (.pqPopHi lane) s = .next t ∧ s.replied t lane Reg.HK_PQ_POP_HI Stat.ok (w.extractLsb' 32 32) ∧
        (t.lane lane).snap = none ∧ t.pq = dropHead q s.pq) ∧
    (s.hk.stuck = false →
      (∀ q, (s.lane lane).popWait = some (q, none) → ∃ t, exec (.popStallExpire lane) s = .next t ∧
        s.replied t lane Reg.HK_PQ_POP_LO Stat.empty 0 ∧ (t.lane lane).popWait = none ∧ (t.lane lane).snap = none ∧
        t.pq = s.pq) ∧
      (∀ q w, (s.lane lane).popWait = some (q, some w) → (s.lane lane).snap = some (q, w) → (s.pqOf q).head? = some w →
        s.clean .hbd 0x03 (s.pqWord q 0) = true → ∃ t, exec (.popStallExpire lane) s = .next t ∧
          s.replied t lane Reg.HK_PQ_POP_LO Stat.ok (w.extractLsb' 0 32) ∧ (t.lane lane).popWait = none ∧
          (t.lane lane).snap = some (q, w) ∧ t.pq = s.pq) ∧
      (∀ m q, (s.lane m).popWait = some (q, none) → s.endStalls = s.endStall m → s.pathOpen lane = true →
        s.scRole lane = true → ((s.endStall m).lane lane).synced = true → (s.endStall m).noEntry lane = false →
        ((s.endStall m).lane lane).snap = none →
        ∃ t, exec (.pqPopHi lane) s = .next t ∧ (t.lane m).popWait = none ∧ t.resp = s.resp ++
          [(m, ⟨Stat.empty, (s.lane m).e % 65536, Reg.HK_PQ_POP_LO, 0⟩),
           (lane.val, ⟨Stat.badValue, ((s.endStall m).lane lane).e % 65536, Reg.HK_PQ_POP_HI, 0⟩)])))

/-- R214 to R216, R223, R228 to R231, R329, and R45 for the end of the run. The model's choices: a frame is built whole by its
command (log entry 25, DESIGN CHOICE); the pressure of the output is judged on the operand (log entry 26, DESIGN CHOICE); the
first block that the HBD has received is one of slice m (log entry 186, DEDUCED). -/
def Obligations.SlicesOpenCloseAndDrain : Prop :=
  (∀ s : State, s.run.active = true →
    ((∀ l, s.run.sl = some l → sdiff s.run.nextOpen l ≤ 0) → s.run.sl ≠ none ∨ s.hk.mode = .run → s.run.opened = true →
      ∃ t, exec .sliceOpen s = .next t ∧ t.run = { s.run with nextOpen := (s.run.nextOpen + 1) % 2 ^ 32 } ∧
        t.cd.ladder = s.ladderStep s.cd.ladder s.cd.ladder.p ∧
        (∃ x, t.cd.opened = s.cd.opened ++ [x] ∧ x.n = s.run.nextOpen ∧ x.level = (s.applied t.cd.ladder).1 ∧
          x.step = (if s.role = .limb then 0 else (s.applied t.cd.ladder).2) ∧ x.restart = false ∧
          t.out = s.out ++ [.level s.cd.gen x.n x.level x.step])) ∧
    ((∀ l, s.run.sl = some l → sdiff s.run.nextOpen l ≤ 0) → s.run.sl ≠ none ∨ s.hk.mode = .run → s.run.opened = false →
      ∃ t, exec .sliceOpen s = .next t ∧ t.run.opened = true ∧ t.cd.presc = [] ∧ t.cd.whisk.on = true ∧
        (∃ x, t.cd.opened = [x] ∧ x.n = s.run.nextOpen)) ∧
    (∀ l, s.run.sl = some l → 0 < sdiff s.run.nextOpen l → s.hk.mode = .run → s.hk.target = some .drain →
      s.run.endMode = 2 → ∃ t, exec .sliceOpen s = .next t ∧ t.hk.mode = .drain ∧ t.hk.cause = s.run.endCause ∧
        t.hk.target = none ∧ t.run = s.run ∧
        ((∀ f, f ∈ s.ulp.flushes → (s.advanceTo (s.firstTick s.run.nextOpen)).sliceEnded f.1 = false) → t.cd = s.cd))) ∧
  (∀ (x : SliceSt) (rest : List SliceSt) (s : State), s.cd.opened = x :: rest → s.rd.step = 0 →
    ∃ t, exec .sliceClose s = .next t ∧ t.cd.opened = rest ∧ t.cd.closed = s.cd.closed ++ [x] ∧
      t.cd.lastClosed = some x.n ∧ t.out = s.out ∧
      ((∀ f, f ∈ s.ulp.flushes → (s.advanceTo (s.firstTick x.n + 2 ^ s.k + s.late)).sliceEnded f.1 = false) →
        t.cd = { s.cd with opened := rest, closed := s.cd.closed ++ [x], lastClosed := some x.n } ∧ t.regs = s.regs)) ∧
  (∀ (x : SliceSt) (rest : List SliceSt) (s : State), s.cd.closed = x :: rest → s.sound → cdActive ≤ s.cd.st →
    (s.shortOf x.n = false → s.role ≠ .head → ∃ t, exec .sliceDrainStart s = .next t ∧ t.cd.closed = rest ∧
      t.run = { s.run.retire x.n with lastEmitted := some x.n } ∧ s.cd.ladle.length < t.cd.ladle.length) ∧
    (s.shortOf x.n = false → s.role = .head → s.headReady x.n = true → ∃ t, exec .headFrameStart s = .next t ∧
      t.cd.closed = rest ∧ t.run = { s.run.retire x.n with lastEmitted := some x.n } ∧
      s.cd.ladle.length < t.cd.ladle.length) ∧
    (s.shortOf x.n = true → ∃ t, exec .sliceDrainStart s = .next t ∧ t.run.lastEmitted = some x.n ∧
      aloneGroup x.n (recGap x.n 11) ∈ t.cd.ladle)) ∧
  (∀ (x : SliceSt) (s : State), s.role = .head → s.cd.closed.find? (fun y => !s.cd.peerDue.contains y.n) = some x →
    s.rd.step = 0 ∨ s.openAtS2 x.n = false → ∃ t, exec .peerDeadline s = .next t ∧ t.cd = { s.cd with peerDue := s.cd.peerDue ++ [x.n] }) ∧
  (∀ (awaiting : Nat) (s : State), s.cclkRuns = true → ∃ t, exec (.pressureSample awaiting) s = .next t ∧
    t.cd.ladder.pantry = s.pantryNow ∧ t.cd.ladder.replay = s.replayNow ∧ t.cd.ladder.output = s.outputNow awaiting ∧
    s.cd.ladder.p ≤ t.cd.ladder.p ∧ t.cd.ladder.level = s.cd.ladder.level ∧ t.cd.ladder.step = s.cd.ladder.step ∧
    t.regs = s.regs) ∧
  (∀ (lane : Lane) (data : W32) (be : BitVec 4) (s : State), s.serves lane Reg.SLC_THROTTLE = true → be ≠ 0 →
    s.allows .throttleFlush = true → s.lockMask (s.phys Reg.SLC_THROTTLE) = 0 →
    ∃ t, exec (.throttle lane data be) s = .next t ∧ s.replied t lane Reg.SLC_THROTTLE Stat.ok 0 ∧
      t.fld Reg.SLC_THROTTLE 2 0 = bits (mergeBE (s.reg Reg.SLC_THROTTLE) data be) 2 0 ∧
      t.fld Reg.SLC_THROTTLE 6 4 = bits (mergeBE (s.reg Reg.SLC_THROTTLE) data be) 6 4 ∧ t.cd = s.cd)

/-- Properties of R230's ladder at an opening: where it stays, and when it rises and falls; the rule itself is
State.ladderStep. -/
def Obligations.LadderMovesAsGiven : Prop :=
  ∀ (l : Ladder) (p : Nat) (s : State), l.level ≤ 4 → l.step ≤ 6 →
    (s.ladderStep l p).level ≤ 4 ∧ (s.ladderStep l p).step ≤ 6 ∧ l.level ≤ (s.ladderStep l p).level + 1 ∧
    ((s.ladderStep l p).level < l.level → p < s.downThr l.level ∧ (l.level = 4 → l.step ≤ 1 ∧ (s.ladderStep l p).step = 0)) ∧
    (l.level < (s.ladderStep l p).level → s.upThr (s.ladderStep l p).level ≤ p ∧
      (s.ladderStep l p).level ≤ s.fld Reg.SLC_LADDER_CFG 6 4 ∧
      ∀ n, (s.ladderStep l p).level < n → n ≤ min 4 (s.fld Reg.SLC_LADDER_CFG 6 4) → p < s.upThr n) ∧
    (l.step < (s.ladderStep l p).step → (s.ladderStep l p).level = 4 ∧ (s.ladderStep l p).step = l.step + 1) ∧
    (∀ n, l.level < n → n ≤ min 4 (s.fld Reg.SLC_LADDER_CFG 6 4) → s.upThr n ≤ p → n ≤ (s.ladderStep l p).level) ∧
    (l.level < 4 → l.step = 0 → (s.ladderStep l p).level = 4 → (s.ladderStep l p).step = 1) ∧
    ((∀ n, l.level < n → n ≤ min 4 (s.fld Reg.SLC_LADDER_CFG 6 4) → p < s.upThr n) →
      (0 < l.level → p < s.downThr l.level →
        (l.level = 4 → 1 < l.step → (s.ladderStep l p).level = 4 ∧ (s.ladderStep l p).step =
          if max 1 (s.fld Reg.SLC_LADDER_CFG 31 24) ≤ l.since then l.step - 1 else l.step) ∧
        (l.level < 4 ∨ l.step ≤ 1 → (s.ladderStep l p).level = l.level - 1 ∧ (s.ladderStep l p).step =
          if l.level = 4 then 0 else l.step)) ∧
      (l.level = 4 → s.upThr 4 ≤ p → l.step < 6 → max 1 (s.fld Reg.SLC_LADDER_CFG 31 24) ≤ l.since →
        (s.ladderStep l p).level = 4 ∧ (s.ladderStep l p).step = l.step + 1)) ∧
    (∀ m n, 1 ≤ m → m ≤ n → n ≤ 4 → s.upThr m ≤ s.upThr n) ∧
    (∀ n, 1 ≤ n → n ≤ 4 → s.downThr n < s.upThr n ∨ s.downThr n = 0)

/-- R148 to R150, R163 (spacing of decisions), R165. The model's choices: a decision waits from its evaluation for its wall tick,
and what it can no longer cover is cut there (log entry 17, DEDUCED); with EN = 0 a tick passes without decisions (log entry 18,
DEDUCED). -/
def Obligations.PrimitivesAndTicksDriveTheWhisk : Prop :=
  (∀ (p : Prim) (rest : List Prim) (s : State), s.cd.toWhisk = p :: rest → s.cd.whisk.on = true →
    s.bit Reg.TRG_CTRL 0 = true → s.rd.step ≠ 4 → s.lastEval = none → s.cd.whisk.start ≤ p.c / 2048 →
    ∃ t, exec .primitiveArrival s = .next t ∧ t.cd.toWhisk = rest ∧
      t.cd.whisk.prims = s.cd.whisk.prims ++ [{ p with tag := s.cd.whisk.next }] ∧
      t.cd.whisk.decs = s.cd.whisk.decs ∧
      t.reg Reg.TRG_LATE_PRIM_CNT = (if p.c / 2048 < s.cd.whisk.next
        then BitVec.ofNat 32 (satAdd 0xFFFFFFFF (s.reg Reg.TRG_LATE_PRIM_CNT).toNat 1)
        else s.reg Reg.TRG_LATE_PRIM_CNT)) ∧
  (∀ s : State, s.cd.whisk.on = true → s.lastEval = none → s.sound → ∃ t, exec .whiskTickEvaluate s = .next t ∧
    t.cd.whisk.next = s.cd.whisk.next + 1 ∧ t.cd.whisk.on = true ∧
    (s.bit Reg.TRG_CTRL 0 = false → (∀ p ∈ s.cd.whisk.pend, s.cd.whisk.next < p.t + 3) →
      t.cd.whisk = { s.cd.whisk with next := s.cd.whisk.next + 1 } ∧ t.out = s.out) ∧
    t.cd.whisk.decs.length = s.cd.whisk.decs.length +
      (s.cd.whisk.pend.filter (fun p => decide (p.t + 3 ≤ s.cd.whisk.next))).length ∧
    (∀ d, s.cd.whisk.lastDec = some d → s.cd.whisk.next < d + 64 →
      t.cd.whisk.pend = s.cd.whisk.pend.filter (fun p => decide (s.cd.whisk.next < p.t + 3)))) ∧
  (∀ s : State, s.role ≠ .limb → s.cd.whisk.on = true → s.bit Reg.TRG_CTRL 0 = true →
    s.cd.whisk.start < s.cd.whisk.next → ∃ t, exec .releaseThroughSend s = .next t ∧
      t.out = s.out ++ [.release s.cd.gen ((s.cd.whisk.pend.map PendDec.t).foldl min s.cd.whisk.next - s.keepPre)] ∧
      t.cd.whisk = { s.cd.whisk with sentThrough := some (s.cd.whisk.next - 1) })

/-- R168 to R170, R172, R174 to R176. The model's choices: sixteen agreeing training frames in a row clear an alignment fault (log
entry 21, DEDUCED); which slots LOOP_FAIL judges (log entry 20, DEDUCED). -/
def Obligations.RingFramesCircleAndLoopsAreTimed : Prop :=
  (∀ (now : Nat) (s u : State), s.role = .head → s.aclkRuns = true → s.advanceTo now = u →
    (let x := u.tb.tn / 8
     let train := u.ringChecking || (!u.tokenMode && x % 64 == 0)
     ∃ t f, exec (.ringFrameOriginate now) s = .next t ∧ t.out = s.out ++ [.ring f] ∧
      t.ring.sent = s.ring.sent ++ [(x, slotOf f 0, train)] ∧
      (train = true → f = trainingFrame ∧ t.ring.task = s.ring.task) ∧
      (train = false → (∀ i, 1 ≤ i → i < 8 → slotOf f i = 0) ∧
        (u.tokenMode = false → slotOf f 0 = 0) ∧
        (u.tokenMode = true → s.ring.task = none → s.ring.pendKeep = [] →
          slotOf f 0 = BitVec.ofNat 16 (0x8000 + u.releaseX % 16384)) ∧
        (∀ d, u.tokenMode = true → s.ring.task = none → s.ring.pendKeep = [(s.rd.activeB, d)] →
          slotOf f 0 = BitVec.ofNat 16 (0x4000 + d % 16384) ∧ t.ring.pendKeep = []) ∧
        (∀ n rs, u.tokenMode = true → s.ring.task = some (n, rs) → n < 64 →
          slotOf f 0 = BitVec.ofNat 16 (0xC000 + 8 * x % 16384) ∧ t.ring.task = some (n + 1, rs))))) ∧
  (∀ (frame : BitVec 128) (skew : Bool) (now : Nat) (s : State), s.role = .limb → s.aclkRuns = true →
    ∃ t, exec (.ringFrameReceive frame skew now) s = .next t ∧
      t.ring.rx = some (frame, (s.advanceTo now).tb.tn) ∧
      (isTraining frame = true → pairsRight frame = true → skew = false → 15 ≤ s.ring.agree →
        t.ring.aligned = true ∧ t.ring.alignFault = false) ∧
      (s.ring.aligned = true → (s.advanceTo now).trainingIn frame = true →
        looksTraining frame = false ∨ pairsRight frame = false ∨ skew = true → 2 ≤ s.ring.disagree →
        t.ring.aligned = false ∧ t.ring.alignFault = true ∧ t.ring.agree = 0)) ∧
  (∀ (f : BitVec 128) (n : Nat) (s : State), s.ring.rx = some (f, n) → ∃ t, exec .ringFrameForward s = .next t ∧
    t.ring.rx = none ∧ t.out = s.out ++ [.ring (if s.trainingIn f then f else
      setSlot f s.source ((s.advanceTo (n + 4)).limbSlot f n))]) ∧
  (∀ (frame : BitVec 128) (skew : Bool) (now x : Nat) (tok : BitVec 16) (train : Bool) (rest : List (Nat × BitVec 16 × Bool))
    (s : State), s.role = .head → s.ring.sent = (x, tok, train) :: rest → ∃ t, exec (.ringFrameReturn frame skew now) s = .next t ∧
      t.ring.sent = rest ∧ t.ring.loop = (s.advanceTo now).tb.tn - 8 * x ∧
      (slotOf frame 0 ≠ tok →
        t.reg Reg.TRG_RING_ERR_CNT = BitVec.ofNat 32 (satAdd 0xFFFFFFFF (s.reg Reg.TRG_RING_ERR_CNT).toNat 1))) ∧
  (∀ (lane : Lane) (s : State), s.serves lane Reg.TRG_LOOP_CMD = true → s.allows .writeCfg = true → s.role = .head →
    s.hk.mode = .calib → s.hk.target = none → s.ring.task = none → ∃ t, exec (.loopTask lane) s = .next t ∧
      s.replied t lane Reg.TRG_LOOP_CMD Stat.ok 0 ∧ t.ring = { s.ring with task := some (0, []) }) ∧
  (∀ (n : Nat) (rs : List (Nat × Nat)) (s : State), s.ring.task = some (n, rs) → ∃ t, exec .loopTaskDone s = .next t ∧
    t.ring.task = none ∧
    (∀ i v, i < 8 → loopResult i rs = some v →
      Sparse.get 0 t.cal.hop i = rec64 [(1, 1), (0, 19), (v, 12)]) ∧
    (∀ i, i < 8 → loopResult i rs = none → bitOf (Sparse.get 0 t.cal.hop i) 31 = false) ∧
    ((∀ i, i ∈ 0 :: s.configured → loopResult i rs ≠ none) → t.ring.fault = false) ∧
    ((∃ i, i ∈ 0 :: s.configured ∧ loopResult i rs = none) → (t.stsOf Reg.TRG_EVT).set.getLsbD 4 = true))

/-- R236, R237, R247, R248, R250, R253 and R207. The model's choices: the output space that an engine is granted (log entry 138,
DESIGN CHOICE); BLOCK_VERIFY reads a copy in which its operand inverts bits of any word (log entry 37, DESIGN CHOICE). -/
def Obligations.PressCodesAndReleasesBlocks : Prop :=
  (∀ (space : Nat) (g : LGroup) (l : List LGroup) (s : State), nextBlock s.cd.ladle = g :: l →
    s.cd.pressRoom ((g :: l).map (fun x => x.words.length)).sum = true → 4 ≤ (s.grantSpace (space + 4)).1 →
    ∃ t j, exec (.blockCode space) s = .next t ∧ t.cd.jobs = s.cd.jobs ++ [j] ∧ j.eng = s.cd.nextEng ∧ j.slice = g.slice ∧
      j.groups = (g :: l).map LGroup.words ∧ j.space + 4 = (s.grantSpace (space + 4)).1 ∧ j.space ≤ space ∧ (j.st = 2 ∨ j.st = 3 ∨ j.st = 4) ∧
      (g.alone = true → j.raw = true) ∧ t.cd.ladle = s.cd.ladle.drop (l.length + 1) ∧
      t.cd.nextEng = (s.cd.nextEng + 1) % 8) ∧
  (∀ (engine : Fin 8) (space : Nat) (j : Job) (s : State), s.cd.jobs.find? (fun x => x.eng == engine.val) = some j →
    j.st = 2 → s.err.bad = [] → s.err.raw = [] → ∃ t j', exec (.pressJobResume engine space) s = .next t ∧
      t.cd.jobs = s.cd.jobs.map (fun x => if x.eng = engine.val then j' else x) ∧ j'.space = j.space + (s.grantSpace space).1 ∧
      j'.groups = j.groups ∧ (j'.st = 2 ∨ j'.st = 3 ∨ j'.st = 4)) ∧
  (∀ (arrived : Nat) (g : LGroup) (l : List LGroup) (s : State), s.cd.ladle = g :: l → g.alone = false →
    bits (s.eff Reg.PRS_CFG) 23 16 ≠ 0 → ∃ t, exec (.blockIdleEnd arrived) s = .next t ∧
      t.cd = { s.cd with ladle := cutAt arrived s.cd.ladle } ∧ t.regs = s.regs ∧
      t.cd.ladle.map LGroup.words = s.cd.ladle.map LGroup.words) ∧
  (∀ (flips : List (Nat × W64)) (now : Nat) (j : Job) (s : State), s.cd.jobs.find? (fun x => x.st == 3) = some j →
    s.err.bad = [] → s.err.raw = [] →
    (verifyBlock ((s.blockOf j).seen flips) j.words = none →
      ∃ t, exec (.blockVerify flips now) s = .next t ∧ t.cd = s.cd.setJob { j with st := 4 } ∧ t.regs = s.regs) ∧
    (∀ e, verifyBlock ((s.blockOf j).seen flips) j.words = some e →
      bits (s.eff Reg.PRS_CFG) 11 8 = 0 → ∃ t j', exec (.blockVerify flips now) s = .next t ∧
        t.cd.jobs = s.cd.jobs.map (fun x => if x.eng = j.eng then j' else x) ∧ j'.raw = true ∧ j'.verify = true ∧
        (j'.st = 2 ∨ j'.st = 4) ∧
        t.reg Reg.PRS_VFAIL_CNT = BitVec.ofNat 32 (satAdd 0xFFFFFFFF (s.reg Reg.PRS_VFAIL_CNT).toNat 1))) ∧
  (∀ (j : Job) (rest : List Job) (s : State), s.cd.jobs = j :: rest → j.st = 4 → s.err.bad = [] → s.err.raw = [] →
    ∃ t, exec .blockRelease s = .next t ∧
      t.cd = { s.cd with jobs := rest, released := s.cd.released ++ [s.blockOf j] } ∧
      t.reg Reg.PRS_BLK_CNT = BitVec.ofNat 32 (satAdd 0xFFFFFFFF (s.reg Reg.PRS_BLK_CNT).toNat 1) ∧
      t.reg Reg.PRS_IN_CNT = BitVec.ofNat 32 (satAdd 0xFFFFFFFF (s.reg Reg.PRS_IN_CNT).toNat j.nrec)) ∧
  (∀ (src : Fin 8) (lane : Nat) (b : Block) (rest : List (Nat × Block)) (s : State),
    (s.peer src).blocks = (lane, b) :: rest → s.role = .head → cdActive ≤ s.cd.st → s.sound →
    ∃ t, exec (.peerBlockExpand src) s = .next t ∧ (t.peer src).blocks = rest ∧
      (b.gen = s.cd.gen → Sparse.get 0 t.cd.rem (64 + src.val) = (Sparse.get 0 s.cd.rem (64 + src.val) + b.nrec) % 32) ∧
      (b.gen ≠ s.cd.gen → t.cd = s.cd ∧
        t.reg Reg.Q_STALE_CNT = BitVec.ofNat 32 (satAdd 0xFFFFFFFF (s.reg Reg.Q_STALE_CNT).toNat 1)))

/-- R258 to R262 and R267. The model's choices: sums are exact and rounded once (log entry 62, DEDUCED); a slew leaves the offset
filter as it is (log entry 63, DEDUCED); the bytes of a Delay_Req (log entry 152, PRESUMED). The units that leave in the
reserved slots a Delay_Req crosses follow it in what is sent (log entry 149, DESIGN CHOICE). -/
def Obligations.TimeBaseFollowsItsMessages : Prop :=
  (∀ (m : PtpMsg) (t1 corr : Int) (now : Nat) (fine : Fin 2048) (s : State), (s.advanceTo now).tsOpen = true →
    ((s.advanceTo now).ptpMaster m = true → -7 ≤ m.logInt → m.logInt ≤ 0 →
      laterSeq (s.advanceTo now).tb.lastSync m.seqId = true →
      (∃ t, exec (.ptpSync m true t1 corr ⟨now, fine⟩) s = .next t ∧
        t = { s.advanceTo now with
          tb := { (s.advanceTo now).tb with twoStep := some (m.seqId, (s.advanceTo now).arrival fine, corr) },
          regs := t.regs }) ∧
      ((s.advanceTo now).tb.state = .locked → (s.advanceTo now).tb.delays ≠ [] →
        (qmeanFine ((s.advanceTo now).offsAfter ((s.advanceTo now).arrival fine - t1 - corr))).natAbs ≤
          (s.advanceTo now).tbThr.2.1 →
        ∃ t, exec (.ptpSync m false t1 corr ⟨now, fine⟩) s = .next t ∧
          (s.advanceTo now).sampled t m.seqId ((s.advanceTo now).arrival fine - t1 - corr))) ∧
    ((s.advanceTo now).ptpMaster m = false → ∃ t, exec (.ptpSync m false t1 corr ⟨now, fine⟩) s = .next t ∧
      (s.advanceTo now).counts t Reg.TB_DISCARD_CNT 1 ∧ t = { s.advanceTo now with regs := t.regs })) ∧
  (∀ (m : PtpMsg) (t1 corr t2 : Int) (s : State), s.tsOpen = true →
    (s.ptpMaster m = true →
      (∀ c : Int, s.tb.twoStep = some (m.seqId, t2, c) → s.tb.state = .locked → s.tb.delays ≠ [] →
        (qmeanFine (s.offsAfter (t2 - t1 - (c + corr)))).natAbs ≤ s.tbThr.2.1 →
        ∃ t, exec (.ptpFollowUp m t1 corr) s = .next t ∧ s.sampled t m.seqId (t2 - t1 - (c + corr))) ∧
      (∀ (t3 f : Int), m.seqId = s.tb.dreqSeq → s.tb.t3 = some t3 → s.tb.fwd = some f →
        ∃ t, exec (.ptpDelayResp m s.ownPort t2 corr) s = .next t ∧
          t.tb = { s.tb with delays := lastN s.avgLen (s.tb.delays ++ [f + (t2 - t3 - corr)]) } ∧
          t.reg Reg.TB_PATH_DELAY = BitVec.ofNat 32 (patternW 32 (roundDiv (t.tb.delays.foldl (· + ·) 0)
            (2 * t.tb.delays.length * 100))) ∧
          s.counts t Reg.TB_DRESP_CNT 1 ∧ t = { s with tb := t.tb, regs := t.regs })) ∧
    (s.ptpMaster m = false → ∃ t, exec (.ptpFollowUp m t1 corr) s = .next t ∧ s.counts t Reg.TB_DISCARD_CNT 1 ∧
      t = { s with regs := t.regs })) ∧
  (∀ (m : PtpMsg) (gm : W64) (pt uv : Bool) (utc : BitVec 16) (s : State), s.tsOpen = true → s.ptpHeader m = true →
    (gm.toNat = s.gmId → pt = true → laterSeq s.tb.lastAnn m.seqId = true →
      ∃ t, exec (.ptpAnnounce m gm pt uv utc) s = .next t ∧
        t.tb = { s.tb with gmOk := true, master := some m.port, lastAnn := some m.seqId } ∧
        t.reg Reg.TB_UTC_OFFSET = word32 [(b2n uv, 16), (utc.toNat, 16)] ∧ t = { s with tb := t.tb, regs := t.regs }) ∧
    (gm.toNat ≠ s.gmId → ∃ t, exec (.ptpAnnounce m gm pt uv utc) s = .next t ∧ t.tb = s.tb ∧
      s.counts t Reg.TB_GM_MISMATCH_CNT 1 ∧ t.shows Reg.TB_EVT 2 ∧
      s.posts t 10 (rec64 [(3, 4), (s.tb.state.code, 2), (0, 2), (0, 8), (gm.toNat % 2 ^ 48, 48)]))) ∧
  (∀ (now : Nat) (fine : Fin 2048) (s : State), (s.advanceTo now).tsOpen = true → (s.advanceTo now).tb.state ≠ .freerun →
    ∃ t, exec (.delayReqSend ⟨now, fine⟩) s = .next t ∧
      t.tb = { (s.advanceTo now).tb with
        dreqSeq := ((s.advanceTo now).tb.dreqSeq + 1) % 65536, t3 := some ((s.advanceTo now).departure fine),
        dreqFirst := false } ∧
      (∃ ws l, t.out = (s.advanceTo now).out ++ .ts 0 (((s.advanceTo now).tb.dreqSeq + 1) % 65536)
        ((s.advanceTo now).departure fine / 65536).toNat 0 ws :: l ∧ ∀ o, o ∈ l → ∃ u, o = .unit 0 u) ∧
      t = { s.advanceTo now with
        tb := t.tb, out := t.out, regs := t.regs, sts := t.sts, lanes := t.lanes, resp := t.resp, pq := t.pq, err := t.err,
        free := t.free }) ∧
  (∀ s : State,
    exec .followUpTimeout s = .next { s with tb := { s.tb with twoStep := none } } ∧
    exec .announceTimeout s = .next { s with tb := { s.tb with gmOk := false } } ∧
    exec .ptpStaleExpire s = .next { s with tb := { s.tb with stale := true } } ∧
    (∀ x, s.tb.slewing = some x → ∃ t, exec .slewDone s = .next t ∧ t.tb = { s.tb with slewing := none } ∧
      s.posts t 10 (rec64 [(5, 4), (s.tb.state.code, 2), (0, 2), (0, 8), (s.tb.sec, 48)])))

/-- R254 to R256, R262, R264, R267. The model's choices: a phase jump empties the filter, stops a slew without SLEW_DONE and leaves
a pending step to the next offset (log entry 148, DEDUCED); only a step, no slew, empties the filter (log entry 63, DEDUCED); the
holdover correction starts from the XO's sensor (log entry 65, DEDUCED), read and averaged as log entries 64 and 181 say. -/
def Obligations.TimeBaseStepsAndHoldsOver : Prop :=
  (∀ (off : Int) (s : State), s.tb.stepPending = true → s.tb.off = some off → s.tb.srcXo = false →
    s.hk.mode = .simmer ∨ s.hk.mode = .test ∨ s.hk.mode = .safe ∧ s.hk.safeDrained = true →
    ∃ t, exec .pendingStep s = .next t ∧ t.tb.stepPending = false ∧ t.tb.offs = [] ∧ t.tb.off = none ∧ t.tb.twoStep = none ∧
      t.tb.tn = ((s.tb.tn : Int) - off / 2048).toNat % 2 ^ 64 ∧
      t.tb.sec * 8000000000 + t.tb.ns * 8 + t.tb.frac / 2 ^ 29 =
        ((s.tb.tn : Int) - off / 2048).toNat * 25 % (2 ^ 48 * 8000000000) ∧
      s.counts t Reg.TB_STEP_CNT 1 ∧ t.shows Reg.TB_EVT 1 ∧
      (s.tb.state = .holdover → t.tb.state = .acquire) ∧
      (s.tb.state = .acquire → s.posts t 10 (rec64 [(2, 4), (1, 2), (0, 2), (0, 8), (sat48 (-off), 48)]))) ∧
  (∀ (delta : Int) (s : State),
    (8 < delta.natAbs → ∃ t, exec (.phaseJump delta) s = .next t ∧
      t.tb = { s.tb with jumpAt := some s.tb.tn, offs := [], off := none, twoStep := none, inLock := 0, slewing := none } ∧ s.counts t Reg.TB_PHJ_CNT 1 ∧ t.shows Reg.TB_EVT 3 ∧
      s.posts t 10 (rec64 [(4, 4), (s.tb.state.code, 2), (0, 2), (0, 8), (sat48 delta, 48)])) ∧
    (delta.natAbs ≤ 8 → exec (.phaseJump delta) s = .next s)) ∧
  (∀ (tempMilliK : Int) (s : State), s.tb.state = .holdover → s.tb.srcXo = true →
    ∃ t, exec (.holdoverUpdate tempMilliK) s = .next t ∧ t = { s with regs := t.regs } ∧
      t.reg Reg.TB_FREQ_HOLD =
        (let fl := signedW 32 (s.regAt (instKey Reg.TB_FREQ_HOLD 0)).toNat
         let dy := s.xoY tempMilliK - s.tb.holdY
         BitVec.ofNat 32 (patternW 32 (roundDiv (fl * 10 ^ 15 - dy * 10 ^ 12 - fl * dy) (10 ^ 15))))) ∧
  (∀ (lane : Lane) (high : Bool) (data : W32) (be : BitVec 4) (s : State),
    s.takes lane (if high then Reg.TB_INC_HI else Reg.TB_INC_LO) be = true →
    (s.hk.mode = .test → ∃ t, exec (.tbIncWrite lane high data be) s = .next t ∧
      s.replied t lane (if high then Reg.TB_INC_HI else Reg.TB_INC_LO) Stat.ok 0 ∧ t.tb = s.tb ∧
      t.tbInc = (if high then (s.reg Reg.TB_INC_LO).toNat + 2 ^ 32 * bits (mergeBE (s.reg Reg.TB_INC_HI) data be) 7 0
        else (mergeBE (s.reg Reg.TB_INC_LO) data be).toNat + 2 ^ 32 * s.fld Reg.TB_INC_HI 7 0)) ∧
    (s.hk.mode ≠ .test → ∃ t, exec (.tbIncWrite lane high data be) s = .next t ∧
      s.replied t lane (if high then Reg.TB_INC_HI else Reg.TB_INC_LO) Stat.notReady 0 ∧ t.tbInc = s.tbInc ∧
      t.tb = s.tb))

/-- R254: the identity DT = TN × 3.125 ns; the wraps of TN and DT are left aside. TN that L10 loads is an operand (log entry 6,
DESIGN CHOICE). -/
def Obligations.DeviceTimeFollowsTheTick : Prop :=
  (∀ (n : Nat) (s : State), s.tbInc = 0x0320000000 → s.dtIsTn → s.tb.tn + n < 2 ^ 64 →
    (s.advance n).dtIsTn ∧ (s.advance n).tb.tn = s.tb.tn + n ∧ (s.advance n).tb.ns < 1000000000 ∧
      (s.advance n).tb.frac < 2 ^ 32) ∧
  (∀ (tn : Nat) (s : State), tn < 2 ^ 64 → (s.loadTime tn).dtIsTn ∧ (s.loadTime tn).tb.tn = tn ∧
    (s.loadTime tn).tb.ns < 1000000000 ∧ (s.loadTime tn).tb.frac < 2 ^ 32) ∧
  (∀ (off : Int) (s : State), s.tb.stepPending = true → s.tb.off = some off → s.tb.srcXo = false →
    s.hk.mode = .simmer → ((s.tb.tn : Int) - off / 2048).toNat < 2 ^ 64 → ∃ t, exec .pendingStep s = .next t ∧ t.dtIsTn)

/-- R273 to R277, R280 to R282, R288, and R297 for the frames of a lane that drops. The model's choices: which commands carry the
steps of a bring-up (log entry 67), where it waits for a signal (162), what follows a step that fails (143), the alignment that
the operand's blocks show (153) and RETRAIN on a lane with a pattern set (144, 145); all DEDUCED. -/
def Obligations.LanesComeUpAndDrop : Prop :=
  (∀ (n : Lane) (r : BringUp) (s : State), s.laneRole n ≠ 0 → s.lanesRun n = true →
    ((Instr.blindBringup ⟨n, r⟩).wf = true → (s.lane n).st ≠ 5 → (s.lane n).st ≠ 6 → (s.lane n).bringUp = false →
      (s.lane n).resume = false → s.patOn n = false → ∃ t, exec (.blindBringup ⟨n, r⟩) s = .next t ∧
        (t.lane n).st = 2 ∧ (t.lane n).block = false ∧ (t.lane n).bringUp = true ∧ (t.lane n).resume = false ∧
        (t.lane n).waitLos = ((s.lane n).los || (s.lane n).waitLos || decide ((s.lane n).st < 2)) ∧
        (t.lane n).ann = none ∧ (t.lane n).admitted = false ∧ (t.lane n).decided = false ∧
        ((s.lane n).block = false → (∀ j, j ≠ n.val → t.lane j = s.lane j) ∧ t = { s with lanes := t.lanes })) ∧
    ((Instr.losClear n r).wf = true → (s.lane n).st ≠ 2 → (s.lane n).st ≠ 3 → (s.lane n).st ≠ 4 →
      ∃ t, exec (.losClear n r) s = .next t ∧ t.lane n = { s.lane n with los := false, waitLos := false } ∧
        t = { s with lanes := t.lanes }) ∧
    (∀ c : Instr, c = .losClear n r ∨ c = .blindBringup ⟨n, r⟩ ∧ (s.lane n).waitLos = false ∧ 2 ≤ (s.lane n).step →
      c.wf = true → r.ok = true → r.upTo = 7 → (alignSlot r.line).isSome = true →
      (s.lane n).st = 2 ∨ (s.lane n).st = 3 ∨ (s.lane n).st = 4 →
      ((s.lane n).resume = true → (s.lane n).step ≤ 4 → (c = .losClear n r ∨ (s.lane n).step = 4) →
        ∀ rate ctle phase : Nat, (s.lane n).stored = some (rate, ctle, phase, r.slip) →
        ∃ t, exec c s = .next t ∧ (t.lane n).st = 5 ∧ (t.lane n).block = true ∧
          (t.lane n).rate = rate ∧ (t.lane n).ctle = ctle ∧ (t.lane n).phase = phase ∧ (t.lane n).slip = r.slip ∧
          t.bit (laneCfg n) 0 = false ∧ t.resp = s.resp) ∧
      ((s.lane n).resume = false → (s.lane n).bringUp = true → (s.lane n).step ≤ 2 →
        let w := sweep (s.laneCal n) s.fomThr.2.2 r.eyes r.again
        ∃ t, exec c s = .next t ∧ (t.lane n).st = 5 ∧ (t.lane n).block = true ∧ (t.lane n).lol = false ∧
        (t.lane n).rate = min (s.appliedRate n) r.rate ∧ (t.lane n).fbReq = false ∧ (t.lane n).ctle = w.1 ∧
        (t.lane n).fom = w.2.1 ∧ (t.lane n).phase = r.phase ∧ (t.lane n).slip = r.slip ∧
        (t.lane n).stored = some ((t.lane n).rate, w.1, r.phase, r.slip) ∧ t.bit (laneCfg n) 0 = false ∧
        (w.2.2 = true → (t.lane n).degraded = true ∧ t.shows (laneEvt n) 2) ∧
        ((t.lane n).rate < s.fld (laneCfg n) 29 28 → t.shows (laneEvt n) 5) ∧ t.resp = s.resp))) ∧
  (∀ (n : Lane) (s : State), 2 ≤ (s.lane n).st →
    ((s.lane n).los = false → ∃ t, exec (.los n) s = .next t ∧ (t.lane n).los = true ∧
      s.countsAt t (instKey Reg.LN_LOS_CNT n) 1 ∧ t.shows (laneEvt n) 0 ∧
      ((s.lane n).st = 5 → (t.lane n).st = 2 ∧ (t.lane n).resume = !(s.lane n).fbReq ∧
        (t.lane n).dropped = !(s.lane n).fbReq ∧
        (t.lane n).bringUp = (s.lane n).fbReq ∧ (t.lane n).stored = (s.lane n).stored ∧
        t.ulp.held = s.ulp.held.map (fun f => if f.lane = n.val ∧ f.st = 1 then { f with st := 0 } else f) ∧
        s.countsAt t (instKey Reg.LN_RETRAIN_CNT n) 1) ∧
      ((s.lane n).st < 5 → (s.lane n).dropped = false → (t.lane n).st = 2 ∧ (t.lane n).resume = false ∧
        (t.lane n).waitLos = true ∧ (t.lane n).bringUp = ((s.lane n).bringUp || (s.lane n).resume)) ∧
      ((s.lane n).st < 5 → (s.lane n).dropped = true → (t.lane n).st = (s.lane n).st ∧ (t.lane n).waitLos = true ∧
        (t.lane n).resume = (s.lane n).resume ∧ (t.lane n).bringUp = (s.lane n).bringUp) ∧
      (t.lane n).block = false) ∧
    ((s.lane n).lol = false → ∃ t, exec (.lol n) s = .next t ∧ (t.lane n).lol = true ∧
      s.countsAt t (instKey Reg.LN_LOL_CNT n) 1 ∧ t.shows (laneEvt n) 1 ∧
      ((s.lane n).st = 5 → (t.lane n).st = 2 ∧ (t.lane n).resume = !(s.lane n).fbReq ∧
        (t.lane n).dropped = !(s.lane n).fbReq ∧
        (t.lane n).bringUp = (s.lane n).fbReq ∧ (t.lane n).stored = (s.lane n).stored ∧
        t.ulp.held = s.ulp.held.map (fun f => if f.lane = n.val ∧ f.st = 1 then { f with st := 0 } else f) ∧
        s.countsAt t (instKey Reg.LN_RETRAIN_CNT n) 1) ∧
      ((s.lane n).st < 5 → (s.lane n).dropped = false → (t.lane n).st = 2 ∧ (t.lane n).resume = false ∧
        (t.lane n).bringUp = ((s.lane n).bringUp || (s.lane n).resume)) ∧
      ((s.lane n).st < 5 → (s.lane n).dropped = true → (t.lane n).st = (s.lane n).st ∧
        (t.lane n).resume = (s.lane n).resume ∧ (t.lane n).bringUp = (s.lane n).bringUp) ∧
      (t.lane n).block = false)) ∧
  (∀ (n : Lane) (i : Instr) (s t : State), i = .los n ∨ i = .lol n → exec i s = .next t →
    ∀ j, j ≠ n.val → t.lane j = { s.lane j with popWait := (t.lane j).popWait, snap := (t.lane j).snap }) ∧
  (∀ (lane n : Lane) (data : W32) (be : BitVec 4) (s : State), s.takes lane (laneCfg n) be = true →
    s.takesRetrain = true → be.getLsbD 0 = true → bitOf data 0 = true → bitOf data 2 = s.bit (laneCfg n) 2 → s.bit (laneCfg n) 0 = false → s.laneRole n ≠ 0 →
    (s.lane n).bringUp = false → (s.lane n).st ≠ 6 → s.patOn n = false →
    ∃ t, exec (.retrain lane n data be) s = .next t ∧
      s.replied t lane (laneCfg n) Stat.ok 0 ∧ t.bit (laneCfg n) 0 = true ∧ (t.lane n).st = 2 ∧
      (t.lane n).bringUp = true ∧ (t.lane n).resume = false)

/-- R279, R280, R282, R284 to R286, and R381 for the FoM that the ageing log means. The model's choices: a tie of the adaptation goes
to the code below (log entry 68, DEDUCED); received bits come with PRBS_SYNC and PRBS_SYNC_LOSS (69, DESIGN CHOICE); the patterns'
polynomials (141, PRESUMED); an error before SYNC seeds the checker anew (142, DEDUCED); block lock under a pattern (155). -/
def Obligations.EqualisersAdaptAndPrbsCounts : Prop :=
  (∀ (n : Lane) (e f fMinus fPlus : Eye) (s : State), (s.lane n).st = 5 → e.wf = true →
    (∃ t, exec (.fomMeasure n e) s = .next t ∧ (t.lane n).fom = fomOf e ∧
      (t.lane n).lowRun = (if fomOf e < s.fomThr.2.1 then (s.lane n).lowRun + 1 else 0) ∧
      (t.lane n).goodRun = (if s.fomThr.1 ≤ fomOf e then (s.lane n).goodRun + 1 else 0) ∧
      (10 ≤ (t.lane n).goodRun → (t.lane n).degraded = false) ∧
      (10 ≤ (t.lane n).lowRun → (s.lane n).degraded = false → (t.lane n).goodRun < 10 →
        (t.lane n).degraded = true ∧ t.shows (laneEvt n) 2) ∧
      (fomOf e < s.fomThr.2.2 → s.countsAt t (instKey Reg.LN_FAIL_CNT n) 1) ∧
      Sparse.get (0, 0) t.age.fomCycle n = ((Sparse.get (0, 0) s.age.fomCycle n).1 + fomOf e,
        (Sparse.get (0, 0) s.age.fomCycle n).2 + 1) ∧
      t = { s with lanes := t.lanes, regs := t.regs, sts := t.sts, age := { s.age with fomCycle := t.age.fomCycle } }) ∧
    ((f.wf && fMinus.wf && fPlus.wf) = true → s.bit (laneCfg n) 19 = true → (s.lane n).ctle ≤ 15 → bits (s.laneCal n) 23 20 ≤ (s.lane n).ctle + 3 →
      (s.lane n).ctle ≤ bits (s.laneCal n) 23 20 + 3 → ∃ t, exec (.adaptCycle n f fMinus fPlus) s = .next t ∧
        t.lane n = { s.lane n with ctle := (t.lane n).ctle } ∧ (t.lane n).ctle ≤ 15 ∧
        bits (s.laneCal n) 23 20 ≤ (t.lane n).ctle + 3 ∧ (t.lane n).ctle ≤ bits (s.laneCal n) 23 20 + 3 ∧
        ((s.lane n).ctle < (t.lane n).ctle → (t.lane n).ctle = (s.lane n).ctle + 1 ∧ fomOf f + 4 ≤ fomOf fPlus) ∧
        ((t.lane n).ctle < (s.lane n).ctle → (s.lane n).ctle = (t.lane n).ctle + 1 ∧ fomOf f + 4 ≤ fomOf fMinus) ∧
        t = { s with lanes := t.lanes, sts := t.sts }) ∧
    (s.bit (laneCfg n) 19 = false → ∃ t, exec (.ctleManualStep n) s = .next t ∧
      t.lane n = { s.lane n with ctle := (t.lane n).ctle } ∧
      (let m := s.fld (laneCfg n) 23 20
       (t.lane n).ctle = if (s.lane n).ctle < m then (s.lane n).ctle + 1 else if m < (s.lane n).ctle then
         (s.lane n).ctle - 1 else m) ∧ t = { s with lanes := t.lanes })) ∧
  (∀ (lane : Lane) (data : W32) (be : BitVec 4) (s : State), s.allows .testFn = true →
    (s.serves lane Reg.LN_PRBS_CFG = true → s.lockMask (instKey Reg.LN_PRBS_CFG s.lnSel) = 0 → be ≠ 0 →
      s.lnSel ≠ lane.val → s.laneRole s.lnSel ≠ 0 →
      (let v := mergeBE (s.regAt (instKey Reg.LN_PRBS_CFG s.lnSel)) data be
       bits v 18 16 ≤ 5 → bits v 14 12 ≤ 5 →
       (bitOf data 0 = false → ∃ t, exec (.prbsPatternSet lane data be) s = .next t ∧
         s.replied t lane Reg.LN_PRBS_CFG Stat.ok 0 ∧ t.out = s.out ∧
         bits (t.regAt (instKey Reg.LN_PRBS_CFG s.lnSel)) 18 16 = bits v 18 16 ∧
         bits (t.regAt (instKey Reg.LN_PRBS_CFG s.lnSel)) 14 12 = bits v 14 12 ∧
         (bits v 18 16 ≠ 0 ∨ bits v 14 12 ≠ 0 → (t.lane s.lnSel).st = 6 ∧ t.bit (laneCfg s.lnSel) 0 = false) ∧
         (bits v 18 16 ≠ 0 → bits v 18 16 ≠ bits (s.regAt (instKey Reg.LN_PRBS_CFG s.lnSel)) 18 16 →
           0 < (t.lane s.lnSel).prbs.tx ∧ (t.lane s.lnSel).prbs.tx < 2 ^ (patTaps (bits v 18 16)).1) ∧
         (bits v 18 16 = 0 → bits v 14 12 = 0 → (s.lane s.lnSel).st = 6 →
           (t.lane s.lnSel).st = 2 ∧ (t.lane s.lnSel).bringUp = true)) ∧
       (be.getLsbD 0 = true → bits (s.regAt (instKey Reg.LN_PRBS_CFG s.lnSel)) 18 16 ≠ 0 → bits v 18 16 ≠ 0 →
         ∃ t, exec (.injOne lane data be) s = .next t ∧ s.replied t lane Reg.LN_PRBS_CFG Stat.ok 0 ∧
           (t.lane s.lnSel).prbs.injOne = true ∧ t.out = s.out))) ∧
    (s.serves lane Reg.LN_PRBS_CLR = true → ∃ t, exec (.prbsClear lane) s = .next t ∧
      s.replied t lane Reg.LN_PRBS_CLR Stat.ok 0 ∧ t.regAt (instKey Reg.LN_PRBS_ERR s.lnSel) = 0 ∧
      t.regAt (instKey Reg.LN_PRBS_BITS s.lnSel) = 0 ∧ (t.lane s.lnSel).prbs.part = 0 ∧ t.out = s.out)) ∧
  (∀ (n : Lane) (c : Instr) (b : Bool) (s : State), c = .prbsSync ⟨n, [b]⟩ ∨ c = .prbsSyncLoss ⟨n, [b]⟩ → (s.lane n).st = 6 →
    let w := s.regAt (instKey Reg.LN_PRBS_CFG n)
    let p := (s.lane n).prbs
    ∃ t, exec c s = .next t ∧ t = { s with lanes := t.lanes, regs := t.regs, sts := t.sts, out := t.out } ∧
      t.lane n = { s.lane n with prbs := (t.lane n).prbs, prbsSync := (t.lane n).prbsSync } ∧
      (bits w 18 16 ≠ 0 → t.out = s.out ++ [.prbs n [(patNext (bits w 18 16) p.tx != patInverted (bits w 18 16) (bitOf w 8)) !=
          (p.injOne || decide (bits w 7 4 ≠ 0) && (p.txPos + 1) % 2 ^ (2 * bits w 7 4 + 4) == 0)]] ∧
        (t.lane n).prbs.tx = patShift (bits w 18 16) p.tx (patNext (bits w 18 16) p.tx)) ∧
      (1 ≤ bits w 14 12 → bits w 14 12 ≤ 5 →
        let bad := (b != patInverted (bits w 14 12) (bitOf w 8)) != patNext (bits w 14 12) p.ref
        (p.seeded < (patTaps (bits w 14 12)).1 → (t.lane n).prbs.seeded = p.seeded + 1 ∧
          (t.lane n).prbsSync = (s.lane n).prbsSync ∧ s.countsAt t (instKey Reg.LN_PRBS_ERR n) 0) ∧
        ((patTaps (bits w 14 12)).1 ≤ p.seeded → (s.lane n).prbsSync = false →
          (t.lane n).prbsSync = (!bad && decide (p.good + 1 = 64)) ∧ s.countsAt t (instKey Reg.LN_PRBS_ERR n) 0) ∧
        ((patTaps (bits w 14 12)).1 ≤ p.seeded → (s.lane n).prbsSync = true →
          s.countsAt t (instKey Reg.LN_PRBS_ERR n) (b2n bad) ∧
          s.countsAt t (instKey Reg.LN_PRBS_BITS n) ((p.part + 1) / 65536) ∧
          (t.lane n).prbsSync = decide ((lastN 256 (p.win ++ [bad])).count true < 32) ∧
          (32 ≤ (lastN 256 (p.win ++ [bad])).count true →
            s.countsAt t (instKey Reg.LN_PRBS_SYNC_CNT n) 1 ∧ t.shows (laneEvt n) 6)))) ∧
  (∀ (n : Lane) (c : Instr) (rx : List Bool) (s : State), c = .prbsSync ⟨n, rx⟩ ∨ c = .prbsSyncLoss ⟨n, rx⟩ → (s.lane n).st = 6 →
    ∃ t, exec c s = .next t ∧ t = { s with lanes := t.lanes, regs := t.regs, sts := t.sts, out := t.out } ∧
      t.lane n = { s.lane n with prbs := (t.lane n).prbs, prbsSync := (t.lane n).prbsSync } ∧
      ∀ j, j ≠ n.val → t.lane j = s.lane j)

/-- R289, R291 to R296, R300, R301 and R16. The model's choices: when a frame has left its lane (log entry 47, DEDUCED) and what a
LIMB is charged for it (48, DEDUCED); which reserved slots its frames fill (149, DESIGN CHOICE); frame blocks of no frame (154,
DEDUCED); when admission is judged (50, DEDUCED); a later different announcement counts once eight equal units give
it (182, DEDUCED). -/
def Obligations.FramesPassInOrder : Prop :=
  (∀ (queued : List (Nat × Nat)) (departs : List Nat) (s0 s : State) (lane : Nat) (b : Block) (bs : List Block),
    s = s0.settle queued → s.pickLane queued = some lane → (∀ f, f ∈ s.ulp.held → f.st ≠ 0 ∧ f.fseq ≠ s.ulp.fseq) →
    (∀ w, s.ulp.wait.head? = some w → w.unc = false) →
    s.nextBlocks s.ulp.wait.length 1024 s.ulp.allow s.ulp.wait = b :: bs →
    ∃ t, exec (.frameTransmit queued departs) s0 = .next t ∧
      (∃ l, t.out = s.out ++ .frame lane s.ulp.fseq (dataWords s.ulp.fseq (s.stamp lane departs (b :: bs))) :: l ∧
        l.length = ((s.lane lane).txSlot + (dataWords s.ulp.fseq (s.stamp lane departs (b :: bs))).length) / 31 ∧
        (∀ o, o ∈ l → ∃ u, o = .unit lane u) ∧
        ((s.lane lane).half = none → s.resp.find? (fun e => e.1 == lane) = none →
          ∀ o, o ∈ l → o = .unit lane (s.slotIdle lane))) ∧
      (t.lane lane).txSlot = ((s.lane lane).txSlot +
        (dataWords s.ulp.fseq (s.stamp lane departs (b :: bs))).length) % 31 ∧
      t.ulp.wait = s.ulp.wait.drop (bs.length + 1) ∧ t.ulp.fseq = (s.ulp.fseq + 1) % 2 ^ 32 ∧
      t.ulp.held = s.ulp.held ++ [⟨s.ulp.fseq, lane, s.stamp lane departs (b :: bs), 1, s.ulp.genRx⟩] ∧
      t.ulp.allow = s.ulp.allow - (if s.role = .limb then ((s.stamp lane departs (b :: bs)).map Block.nrec).sum else 0) ∧
      s.countsAt t (instKey Reg.LK_LANE_TX_FRAMES lane) 1) ∧
  (∀ (n : Lane) (f : DataFrame) (s : State), s.laneUp n = true → (s.lane n).rx.frame = [] → bits f.head 63 60 = 1 → bits f.head 38 32 = 0 →
    3 ≤ bits f.head 59 48 → bits f.head 59 48 ≤ 1024 → 1 ≤ bits f.head 47 39 → bits f.head 47 39 ≤ 341 →
    f.body.length = bits f.head 59 48 → bits f.tail 63 60 = 6 → bits f.tail 59 32 = 0 →
    (bits f.tail 31 0 ≠ (crcWords (f.head :: f.body)).toNat → ∃ t, exec (.dataFrameReceive n f.line) s = .next t ∧
      s.counts t Reg.LK_FRAME_CRC_CNT 1 ∧ t.shows Reg.LK_EVT 3 ∧
      (∀ i, t.peer i = { s.peer i with lacks := (t.peer i).lacks }) ∧
      (s.role = .head → s.laneRole n = 3 → (t.peer (s.fld (laneCfg n) 26 24)).lacks = true) ∧
      t.lane n = { s.lane n with rx := (t.lane n).rx } ∧ (t.lane n).rx.frame = [] ∧
      ∀ j, j ≠ n.val → t.lane j = s.lane j) ∧
    (∀ bs : List Block, bits f.tail 31 0 = (crcWords (f.head :: f.body)).toNat →
      cutBody f.body.length (bits f.head 47 39) f.body = some bs → s.role = .head → s.laneRole n = 3 →
      (s.lane n).admitted = true → (s.peer (s.fld (laneCfg n) 26 24)).next = bits f.head 31 0 →
      (s.peer (s.fld (laneCfg n) 26 24)).waiting = [] → ∃ t, exec (.dataFrameReceive n f.line) s = .next t ∧
        (t.peer (s.fld (laneCfg n) 26 24)).blocks =
          (s.peer (s.fld (laneCfg n) 26 24)).blocks ++ bs.map (fun b => (n.val, b)) ∧
        (t.peer (s.fld (laneCfg n) 26 24)).next = (bits f.head 31 0 + 1) % 2 ^ 32 ∧
        (t.peer (s.fld (laneCfg n) 26 24)).waiting = [] ∧
        (∀ i, i ≠ s.fld (laneCfg n) 26 24 → t.peer i = s.peer i) ∧
        s.countsAt t (instKey Reg.LK_LANE_RX_FRAMES n) 1)) ∧
  (∀ (n : Lane) (u : W64) (k : Nat) (s : State), s.laneUp n = true → unitCrcOk u = true → bits u 63 60 = 8 →
    bits u 23 16 = 0 → bitOf u 59 = true → s.role = .head → s.laneRole n = 3 → (s.lane n).ann = some (u, k) → 7 ≤ k →
    (s.lane n).decided = false →
    (bits u 58 56 = s.fld (laneCfg n) 26 24 → bits u 58 56 ≠ 0 →
      (s.peer (bits u 58 56)).serial = none ∨ (s.peer (bits u 58 56)).serial = some (u.extractLsb' 24 32) →
      ∃ t, exec (.slotIdleReceive n u) s = .next t ∧ (t.lane n).decided = true ∧ (t.lane n).admitted = true ∧
        (t.peer (bits u 58 56)).serial = some (u.extractLsb' 24 32)) ∧
    (bits u 58 56 ≠ s.fld (laneCfg n) 26 24 → ∃ t, exec (.slotIdleReceive n u) s = .next t ∧
      (t.lane n).decided = true ∧ (t.lane n).admitted = false ∧ t.shows Reg.RD_EVT 6 ∧ t.ulp = s.ulp)) ∧
  (∀ (n : Lane) (u : W64) (k : Nat) (s : State), s.laneUp n = true → unitCrcOk u = true → bits u 63 60 = 8 →
    bits u 23 16 = 0 → bitOf u 59 = true → s.role = .head → s.laneRole n = 3 → (s.lane n).ann = some (u, k) → 7 ≤ k →
    (s.lane n).decided = true → (s.lane n).admitted = true → bits u 58 56 ≠ s.fld (laneCfg n) 26 24 →
    ∃ t, exec (.slotIdleReceive n u) s = .next t ∧ (t.lane n).st = 2 ∧ (t.lane n).admitted = false ∧
      (t.lane n).decided = false ∧ (t.lane n).block = false ∧ (t.lane n).rx.frame = [] ∧
      ((s.lane n).rx.frame ≠ [] → (t.peer (s.fld (laneCfg n) 26 24)).lacks = true)) ∧
  (∀ (n : Lane) (s : State), s.role = .head → s.laneRole n = 3 → s.laneUp n = true → (s.lane n).decided = false →
    ∃ t, exec (.peerAnnounceTimeout n) s = .next t ∧
      t.lane n = { s.lane n with decided := true, admitted := false } ∧ t.shows Reg.RD_EVT 6 ∧
      t = { s with lanes := t.lanes, sts := t.sts })

/-- R298 to R302, R294, R346. The model's choice: the CR units of the CD that RD_AUTH named before carry the generation before (log
entry 184, DEDUCED). -/
def Obligations.ReverseStreamActs : Prop :=
  (∀ (n : Lane) (u : W64) (s : State), s.takesUnit n u = true →
    (s.role = .limb → bits u 63 60 = 0xC → bits u 27 16 = 0 → 0 < sdiffW 24 (bits u 51 28) s.ulp.cumRx →
      ∃ t, exec (.crReceive n u) s = .next t ∧ t.ulp = { s.ulp with
        cumRx := bits u 51 28, allow := s.ulp.allow + 32 * (sdiffW 24 (bits u 51 28) s.ulp.cumRx).toNat } ∧
        t = { s with ulp := t.ulp, regs := t.regs }) ∧
    (bits u 63 60 = 0xD → bits u 51 48 = 0 → ∃ t, exec (.sackReceive n u) s = .next t ∧
      t.ulp.held = s.ulp.held.filter (fun f => f.blocks.any (fun b => decide (sdiff b.slice (bits u 47 16) > 0))) ∧
      t.ulp.acked = bits u 47 16 ∧ t = { s with ulp := t.ulp, regs := t.regs }) ∧
    (bits u 63 60 = 0xE → bits u 51 48 = 0 → ∃ t, exec (.resendReceive n u) s = .next t ∧
      t.ulp = { s.ulp with
        held := s.ulp.held.map (fun f => if sdiff f.fseq (bits u 47 16) ≥ 0 then { f with st := 0 } else f),
        resendLast := bits u 47 16 } ∧ s.counts t Reg.LK_RESEND_CNT 1 ∧ t.shows Reg.LK_EVT 1)) ∧
  (∀ s : State, s.role = .head → (cdActive ≤ s.cd.st → ∃ t, exec .crRepeat s = .next t ∧
      t.out = s.out ++ (s.admitted.filter (fun i => Sparse.has s.cd.cum i)).flatMap (fun i =>
        s.unitTo i (crUnit s.cd.gen.toNat (Sparse.get 0 s.cd.cum i))) ++
        (if s.bothAct then (s.admitted.filter (fun i => Sparse.has s.other.cum i)).flatMap (fun i =>
          s.unitTo i (crUnit (s.rd.gen - 1).toNat (Sparse.get 0 s.other.cum i))) else []) ∧
      (∀ n, t.lane n = { s.lane n with txSlot := (t.lane n).txSlot }) ∧
      t = { s with out := t.out, regs := t.regs, lanes := t.lanes }) ∧
    (∃ t, exec .sackRepeat s = .next t ∧ t.out = s.out ++ s.admitted.flatMap (fun i => match (s.peer i).sack with
        | some k => s.unitTo i (sackUnit s.rd.gen.toNat k)
        | none => []) ∧ (∀ n, t.lane n = { s.lane n with txSlot := (t.lane n).txSlot }) ∧
      t = { s with out := t.out, regs := t.regs, lanes := t.lanes })) ∧
  (∀ (src : Fin 8) (n : W32) (now : Nat) (s : State), s.role = .head → src.val ∈ s.admitted →
    (∀ h : Nat, (s.peer src).whole n.toNat = true → s.cd.handed = some h → sdiff n.toNat h ≤ 0 →
      (∀ k, (s.peer src).sack = some k → 0 < sdiff n.toNat k) → ∃ t, exec (.sackSend src n) s = .next t ∧
        (t.peer src).sack = some n.toNat ∧ t.out = s.out ++ s.unitTo src (sackUnit s.rd.gen.toNat n.toNat)) ∧
    (s.bit Reg.LK_CFG 0 = true → (s.peer src).lacks = true ∨ (s.peer src).waiting ≠ [] → (∀ x, (s.peer src).lastResend = some x → x + 3200 ≤ (s.advanceTo now).tb.tn) →
      ∃ t, exec (.resendSend src now) s = .next t ∧ (t.peer src).asked = true ∧ (t.peer src).lacks = false ∧
        (t.peer src).lastResend = some (s.advanceTo now).tb.tn ∧ t.ulp.resendLast = (s.peer src).next ∧
        t.out = s.out ++ s.unitTo src (resendUnit s.rd.gen.toNat (s.peer src).next) ∧ t.shows Reg.LK_EVT 1)) ∧
  (∀ s : State, s.role = .limb → s.ulp.held ≠ [] → ∃ t, exec .ackTimeout s = .next t ∧
    t.ulp = { s.ulp with ackFault := true } ∧ s.counts t Reg.LK_ACK_TMO_CNT 1 ∧ t.shows Reg.LK_EVT 6)

/-- R324, R325 (overlap and divergence), R318, R346, and R30 for what stood alone behind a frame already. The model's choices: the
BIDX of the restart slice's blocks (log entry 32, DEDUCED); the slices of which the HBD keeps CRCs (log entry 183, DEDUCED). -/
def Obligations.BlocksReachTheReplayBuffer : Prop :=
  ∀ (b : Block) (rest : List Block) (s : State), s.cd.released = b :: rest → s.rd.cut ≠ some b.slice →
    (s.rd.again = 0 ∨ b.slice ≠ s.rd.m ∨ b.alone = false →
      s.rd.overlap = false ∨ b.slice ≠ s.rd.m ∨ s.rd.bm ≤ b.bidx →
      s.role ≠ .limb ∨ s.ulp.ackFault = false → ∃ t, exec .hbdBlockReceive s = .next t ∧
      t.ulp.wait = s.ulp.wait ++ [b] ∧ t.ulp.held = s.ulp.held ∧ t.cd.released = rest ∧
      (b.slice, b.bidx, b.crc) ∈ t.rd.crcs ∧ (b.endsSlice = true → t.cd.handed = some b.slice) ∧
      (b.endsSlice = false → t.cd.handed = s.cd.handed)) ∧
    (0 < s.rd.again → b.slice = s.rd.m → b.alone = true → ∃ t, exec .hbdBlockReceive s = .next t ∧ t.ulp = s.ulp ∧
      t.cd.released = rest ∧ t.rd = { s.rd with again := s.rd.again - 1 } ∧ s.counts t Reg.RD_DUP_BLK_CNT 1) ∧
    (∀ x : Nat × Nat × W32, s.rd.again = 0 ∨ b.alone = false → s.rd.overlap = true → b.slice = s.rd.m → b.bidx < s.rd.bm →
      s.rd.crcs.find? (fun y => y.1 == b.slice && y.2.1 == b.bidx) = some x →
      (x.2.2 = b.crc → ∃ t, exec .hbdBlockReceive s = .next t ∧ t.ulp = s.ulp ∧ t.cd.released = rest ∧
        s.counts t Reg.RD_DUP_BLK_CNT 1 ∧ t.rd = s.rd) ∧
      (x.2.2 ≠ b.crc → ∃ t, exec .hbdBlockReceive s = .next t ∧ t.cd.released = rest ∧
        (b.endsSlice = false → t.rd.cut = some b.slice) ∧
        (b.endsSlice = true → t.rd.cut = none ∧ t.rd.overlap = false) ∧
        s.counts t Reg.RD_DIVERGE_CNT 1 ∧ t.shows Reg.RD_EVT 2 ∧
        t.ulp.wait = (if s.rd.bmLast then s.ulp.wait else s.ulp.wait ++ [s.closingBlock b.slice s.rd.bm
          (((s.rd.hdrs.find? (fun h => h.1 == b.slice)).map (fun h => bits h.2 23 16)).getD 0) 11])))

/-- R294 and R306 to R310. The model's choices: a failing pair counts once (log entry 45, DEDUCED); DATA in a NOP is a fault (109,
DEDUCED); a RESYNC needs a response entry (110, DEDUCED); a request ends the stall of a POP before it (115, DEDUCED); a reserved slot
that a frame crosses may have carried a response's first unit (149, DESIGN CHOICE). -/
def Obligations.RequestsAreSequencedAndAnswered : Prop :=
  (∀ (lane : Lane) (req dat : W64) (s : State), (Instr.scNop lane req dat).wf = true → s.pairs lane req dat = true →
    (bitOf req 59 = false → s.serves lane 0 = true → bits req 55 40 = (s.lane lane).e % 65536 →
      ∃ t, exec (.scNop lane req dat) s = .next t ∧ s.replied t lane (bits req 39 16) Stat.ok 0 ∧ s.onlyAnswered t) ∧
    ((s.lane lane).popWait ≠ none →
      exec (.scNop lane req dat) s = exec (.scNop lane req dat) (s.endStall lane) ∧
      exec (.scResync lane req dat) s = exec (.scResync lane req dat) (s.endStall lane)) ∧
    (bitOf req 59 = true → s.stalls = false → s.respUsed (s.respQueue lane) < 32 → s.hk.stuck = false →
      ∃ t, exec (.scResync lane req dat) s = .next t ∧
        (t.lane lane).e = bits req 55 40 + 1 ∧ (t.lane lane).synced = true ∧
        (t.lane lane).cache = [⟨Stat.ok, bits req 55 40, bits req 39 16, 0⟩] ∧
        t.resp = s.resp ++ [(lane.val, ⟨Stat.ok, bits req 55 40, bits req 39 16, 0⟩)] ∧
        s.onlyAnswered t)) ∧
  (∀ (lane : Lane) (r : Resp) (s : State), s.resp.find? (fun e => e.1 == lane.val) = some (lane.val, r) →
    s.pathOpen lane = true →
    ((s.lane lane).half = none → s.clean .hbd 0x03 (s.pqWord (s.respQueue lane) (s.respPos lane)) = true →
      ∃ t, exec (.scResponseSend lane) s = .next t ∧
        t.out = s.out ++ [.unit lane (respUnits r).1, .unit lane (respUnits r).2] ∧ t.resp = dropResp lane s.resp ∧
        s.countsAt t (instKey Reg.LK_LANE_TX_UNITS lane) 2 ∧ (t.lane lane).e = (s.lane lane).e ∧
        (t.lane lane).half = none ∧ (t.lane lane).txSlot = 0) ∧
    (∀ u, (s.lane lane).half = some u → ∃ t, exec (.scResponseSend lane) s = .next t ∧
      t.out = s.out ++ [.unit lane u] ∧ t.resp = dropResp lane s.resp ∧
      s.countsAt t (instKey Reg.LK_LANE_TX_UNITS lane) 1 ∧ (t.lane lane).e = (s.lane lane).e ∧
      (t.lane lane).half = none ∧ (t.lane lane).txSlot = 0))

/-- R397, R398, R401 and R10. -/
def Obligations.RegisterWritesStore : Prop :=
  ∀ (lane : Lane) (addr : BitVec 24) (data : W32) (be : BitVec 4) (s : State),
    s.takes lane addr.toNat be = true → storesOnly addr.toNat = true →
      s.keyOf addr.toNat ≠ Reg.LK_SC_REQ_CNT → s.keyOf addr.toNat ≠ instKey Reg.LK_LANE_RX_UNITS lane →
      (let a := addr.toNat
       let m : W32 := BitVec.ofNat 32 (storeMask a)
       let v := mergeBE (s.regAt (s.keyOf a)) data be
       ∃ t, exec (.registerWrite lane addr data be) s = .next t ∧ s.replied t lane a Stat.ok 0 ∧
         t.regAt (s.keyOf a) = (s.regAt (s.keyOf a) &&& ~~~m) ||| (v &&& m) ∧
         ∀ x, x ≠ s.keyOf a → x ≠ Reg.LK_SC_REQ_CNT → x ≠ instKey Reg.LK_LANE_RX_UNITS lane → t.regAt x = s.regAt x)

/-- R61 puts HK_NVD_PAGE into the class of R50's table row for image slot writes. -/
def Obligations.SlotPageWritesFollowTheSlotClass : Prop :=
  ∀ (lane : Lane) (data : W32) (be : BitVec 4) (s : State), s.serves lane Reg.HK_NVD_PAGE = true → be ≠ 0 →
    s.lockMask Reg.HK_NVD_PAGE = 0 →
    (s.allows .nvdSlot = true → ∃ t, exec (.registerWrite lane (BitVec.ofNat 24 Reg.HK_NVD_PAGE) data be) s = .next t ∧
      s.replied t lane Reg.HK_NVD_PAGE Stat.ok 0 ∧
      t.fld Reg.HK_NVD_PAGE 5 0 = bits (mergeBE (s.reg Reg.HK_NVD_PAGE) data be) 5 0 ∧ t.nvd = s.nvd) ∧
    (s.allows .nvdSlot = false → ∃ t, exec (.registerWrite lane (BitVec.ofNat 24 Reg.HK_NVD_PAGE) data be) s = .next t ∧
      s.replied t lane Reg.HK_NVD_PAGE Stat.stateReject 0 ∧ t.reg Reg.HK_NVD_PAGE = s.reg Reg.HK_NVD_PAGE ∧
      t.nvd = s.nvd)

/-- R314, R320 to R323, R326, R327, R329, R331. The model's choices: a standby without a checkpoint restarts from the start of the run
(log entry 28, DEDUCED), shows RESTARTING until WHISK_CATCHUP_END (29, DEDUCED), and causes 1 to 4 count as failures of the old die
(30, DEDUCED); causes of one cycle are those of the tick in which RD_AUTH changed (156, DEDUCED). -/
def Obligations.SwitchOverRestartsTheStandby : Prop :=
  (∀ s : State, cdActive ≤ s.cd.st → s.rd.step = 0 → s.justSwitched = false →
    (s.other.st = cdReady → s.bit Reg.RD_CFG 0 = true →
      (∃ t, exec .heartbeatTimeout s = .next t ∧ s.switched t 1 ∧ t.other.st = cdOut) ∧
      (∃ t, exec .innerLinkUnlock s = .next t ∧ s.switched t 4)) ∧
    (s.other.st ≠ cdReady → ∃ t, exec .heartbeatTimeout s = .next t ∧ t.cd.st = cdOut ∧
      t.rd.activeB = s.rd.activeB ∧ (t.stsAt (errReg .hbd Reg.ERR_FATAL)).set.getLsbD 0 = true ∧
      (s.hk.mode = .run → t.hk.target = some .safe))) ∧
  (∀ (lane : Lane) (s : State), s.serves lane Reg.RD_CMD = true → s.allows .writeCfg = true →
    (s.other.st = cdReady → s.rd.step = 0 → s.justSwitched = false → ∃ t, exec (.switch lane) s = .next t ∧ s.replied t lane Reg.RD_CMD Stat.ok 0 ∧
      s.switched t 5)) ∧
  (∀ (tcu hold : Nat) (s : State),
    (s.rd.step = 4 → s.fed.walk = some [] → s.fed.beats = [] → s.fed.retShort = false →
      ∃ t, exec .replayWalkEnd s = .next t ∧
        t = { s with fed := { s.fed with walk := none }, rd := { s.rd with step := 5 } }) ∧
    (s.rd.step = 4 → s.fed.walk = some [] → s.fed.beats = [] → s.fed.retShort = true → s.run.active = true →
      0 ≤ sdiff s.fed.retLost s.rd.m → s.rd.bm = 0 → ∃ t, exec .replayWalkEnd s = .next t ∧
        t.fed = { s.fed with walk := none } ∧ t.rd = { s.rd with step := 5, short := some s.fed.retLost } ∧
        t.shows Reg.RD_EVT 4 ∧ t.cd = s.cd ∧ t.ulp = s.ulp) ∧
    (s.rd.step = 5 → ∃ t, exec (.whiskCatchupEnd tcu hold) s = .next t ∧
      t.rd = { s.rd with step := 0, s5End := s.tb.tn } ∧
      t.cd = { s.cd with st := cdActive } ∧ t.reg Reg.RD_TCU = BitVec.ofNat 32 (min 0xFFFFFF tcu) ∧
      t.fld Reg.RD_LAST 31 16 = min 0xFFFF hold ∧ (400 < hold → t.shows Reg.SLC_EVT 5))) ∧
  (∀ (b : Bool) (s : State), b ≠ s.rd.activeB → cdActive ≤ s.other.st → ∃ t, exec (.authPoll b) s = .next t ∧
    t.other = { s.other with st := cdOut } ∧ t.cd = s.cd ∧ s.counts t Reg.RD_YIELD_CNT 1 ∧ t.shows Reg.RD_EVT 5) ∧
  (∀ s : State, s.role = .head → ∃ t, exec .peerRestartResend s = .next t ∧
    (let due := s.admitted.filter (fun i => (s.peer i).restart && Sparse.has s.cd.cum i)
     let ptr := fun (i : Nat) => Sparse.get (s.peer i).next ((s.cd.ckpt.map Ckpt.peers).getD []) i
     t.out = s.out ++ due.flatMap (fun i => s.unitTo i (resendUnit s.rd.gen.toNat (ptr i))) ∧
       (∀ i, i ∈ due → t.peer i = { s.peer i with restart := false, next := ptr i, waiting := [], passed := [] }) ∧
       (∀ i, i ∉ due → t.peer i = s.peer i)))

/-- R77 and R330, J5 included. -/
def Obligations.RejoinBringsAStandbyBack : Prop :=
  (∀ (lane : Lane) (s : State), s.serves lane Reg.RD_CMD = true → s.allows .writeCfg = true →
    (s.mayRejoin = true → ∃ t, exec (.rejoin lane) s = .next t ∧ s.replied t lane Reg.RD_CMD Stat.ok 0 ∧
      t.other = { Cd.reset with st := cdLoading, gen := s.rd.gen } ∧ t.rd.rejoin = some (!s.rd.activeB, 1) ∧
      t.cd = s.cd)) ∧
  (∀ s : State, s.bit Reg.RD_CFG 1 = true → s.mayRejoin = true → s.aclkRuns = true → ∃ t, exec .autoRejoin s = .next t ∧
    t.other = { Cd.reset with st := cdLoading, gen := s.rd.gen } ∧ t.rd.rejoin = some (!s.rd.activeB, 1) ∧
    t.cd = s.cd) ∧
  (∀ (n : Nat) (s : State), s.rd.rejoin = some (!s.rd.activeB, n) → n < 5 →
    ((s.readSlot (s.bit Reg.HK_CFG_INFO 6)).fail = 0 →
      ∃ t, exec (.rejoinMirroring true) s = .next t ∧ t.rd.rejoin = some (!s.rd.activeB, 5) ∧ t.cd = s.cd ∧
      t.other = { s.other with st := cdMirroring, qmap := s.cd.qmap, rules := s.cd.rules, regions := s.cd.regions }) ∧
    ((s.readSlot (s.bit Reg.HK_CFG_INFO 6)).fail ≠ 0 →
      ∃ t, exec (.rejoinMirroring true) s = .next t ∧ t.rd.rejoin = none ∧ t.other.st = cdOut ∧ t.cd = s.cd ∧
      s.counts t Reg.RD_REJOIN_FAIL_CNT 1 ∧ t.shows Reg.RD_EVT 3) ∧
    (∃ t, exec (.rejoinMirroring false) s = .next t ∧ t.rd.rejoin = none ∧ t.other.st = cdOut ∧ t.cd = s.cd ∧
      s.counts t Reg.RD_REJOIN_FAIL_CNT 1 ∧ t.shows Reg.RD_EVT 3)) ∧
  (∀ (n : Nat) (s : State), s.rd.rejoin = some (!s.rd.activeB, n) → 5 ≤ n →
    exec (.rejoinMirroring true) s = .next s ∧
    (∃ t, exec (.rejoinMirroring false) s = .next t ∧ t.rd.rejoin = none ∧ t.other.st = cdOut ∧ t.cd = s.cd ∧
      s.counts t Reg.RD_REJOIN_FAIL_CNT 1 ∧ t.shows Reg.RD_EVT 3))

/-- R315 to R319, R330. The model's choice: the size of a checkpoint (log entry 31, DESIGN CHOICE). -/
def Obligations.CheckpointsAreMirrored : Prop :=
  (∀ (m l : Nat) (s : State), s.cd.lastClosed = some l →
    m = (let n := (s.cd.handed.map (fun h => (h + 1) % 2 ^ 32)).getD s.run.sf
         if sdiff n l < 0 then n else l) →
    s.cd.handed.isSome = true ∨ m = s.run.sf → s.rd.taken ≠ some m → s.run.active = true →
    s.rd.step = 0 → s.rd.flight = none → s.other.st = cdReady ∨ s.other.st = cdMirroring →
    ∃ t c, exec .checkpointTake s = .next t ∧ t.rd = { s.rd with flight := some c, taken := some m } ∧ c.m = m ∧
      c.em = s.cd.whisk.next - 1 ∧ c.ladder = s.cd.ladder ∧ c.nextOpen = s.run.nextOpen ∧ c.rateSup = s.cd.rateSup ∧
      c.presc = s.cd.prescAt m ∧ t = { s with rd := t.rd, free := t.free }) ∧
  (∀ (dur : Nat) (c : Ckpt) (s : State), s.rd.flight = some c →
    (∃ t, exec (.checkpointAck dur) s = .next t ∧ t.other.ckpt = some c ∧ t.rd.flight = none ∧
      t.other.barriers = s.other.barriers.filter (fun b => decide (sdiff b.after c.m ≥ 0)) ∧
      t.out = s.out ++ [.closed s.cd.gen ((c.m + 2 ^ 32 - 1) % 2 ^ 32)] ∧ t.reg Reg.RD_CKPT = BitVec.ofNat 32 c.m ∧
      t.fld Reg.RD_CKPT_TIME 15 0 = min 0xFFFF dur ∧ s.counts t Reg.RD_MIRROR_CNT 1 ∧
      (s.other.st = cdMirroring → t.other.st = cdReady ∧ t.rd.rejoin = none ∧ s.counts t Reg.RD_REJOIN_CNT 1) ∧
      (s.other.st ≠ cdMirroring → t.other.st = s.other.st)) ∧
    (∃ t, exec .checkpointSkip s = .next t ∧ t.rd = { s.rd with flight := none } ∧ s.counts t Reg.RD_SKIP_CNT 1 ∧
      t.shows Reg.RD_EVT 1 ∧ t.cda = s.cda ∧ t.cdb = s.cdb ∧ t.out = s.out))

/-- R333 to R335, R338 to R340. The model's choices: a word of no stated number takes the numbers of log entries 24 and 94; a lost vote
of the safety die is a channel's by its number (51, DESIGN CHOICE); ERR_REPAIR with GO = 0 or a free address (91); raw words of
records (92, 93) and of the identity region (190). The words of MEM 0x03 that a response or an entry takes are written anew. -/
def Obligations.ErrorsAreScrubbedVotedAndRepaired : Prop :=
  (∀ (die : Die) (mem : BitVec 8) (idx : Nat) (s : State), die.hasErr = true → mem.toNat ∈ scrubbed die →
    bitOf (s.regAt (errReg die Reg.ERR_SCRUB_CFG)) 0 = true → s.aclkRuns = true → s.clean die mem.toNat idx = true →
    exec (.scrubRead die mem idx false 0) s = .next s ∧
    (s.wordKind die mem.toNat idx = 0 → ∃ t, exec (.scrubRead die mem idx false 1) s = .next t ∧
      t.clean die mem.toNat idx = true ∧
      s.countsAt t (instKey (errReg die Reg.ERR_MEM_CORR_CNT) mem.toNat) 1 ∧
      (t.stsAt (errReg die Reg.ERR_EVT)).set.getLsbD 0 = true ∧ t.memData die mem.toNat idx = s.memData die mem.toNat idx) ∧
    (s.wordKind die mem.toNat idx = 0 → ∃ t, exec (.scrubRead die mem idx false 2) s = .next t ∧
      (s.recHeld die mem.toNat idx = false → die ≠ .hbd ∨ mem.toNat ≠ 0x03 → t.badKind die mem.toNat idx = 3) ∧
      s.countsAt t (instKey (errReg die Reg.ERR_MEM_UNCORR_CNT) mem.toNat) 1 ∧
      (t.stsAt (errReg die Reg.ERR_EVT)).set.getLsbD 4 = true ∧ t.cda.st = s.cda.st ∧ t.cdb.st = s.cdb.st ∧ t.rd = s.rd) ∧
    (∃ t, exec (.scrubRead die mem idx true 0) s = .next t ∧
      bits (t.regAt (instKey (errReg die Reg.ERR_SCRUB_CFG) mem.toNat)) 31 16 =
        (bits (s.regAt (instKey (errReg die Reg.ERR_SCRUB_CFG) mem.toNat)) 31 16 + 1) % 65536 ∧
      t = { s with regs := t.regs })) ∧
  (∀ (die : Die) (word : BitVec 8) (s : State),
    (die.hasErr = false → ∃ t, exec (.voteRewrite die word false) s = .next t ∧
      t = { s with err := { s.err with
        votes := s.err.votes.filter (fun v => !(v.die == die && v.word == word.toNat)) } }) ∧
    (die = .sfd → s.chanOn (voteChan word.toNat) = true → ∃ t, exec (.voteRewrite die word true) s = .next t ∧
      s.faults t 0x17 ∧ t.lid.agree = false) ∧
    (die = .cda ∧ s.rd.activeB = true ∨ die = .cdb ∧ s.rd.activeB = false →
      ∃ t, exec (.voteRewrite die word true) s = .next t ∧ t.other.st = cdOut ∧ t.cd = s.cd) ∧
    (die.hasErr = true → ∃ t, exec (.voteRewrite die word false) s = .next t ∧
      t.err = { s.err with votes := s.err.votes.filter (fun v => !(v.die == die && v.word == word.toNat)) } ∧
      s.countsAt t (errReg die Reg.ERR_VOTE_CNT) 1 ∧ (t.stsAt (errReg die Reg.ERR_EVT)).set.getLsbD 2 = true ∧
      t = { s with err := t.err, regs := t.regs, sts := t.sts }) ∧
    (die = .hbd ∨ die = .fed → ∃ t, exec (.voteRewrite die word true) s = .next t ∧
      (t.stsAt (errReg die Reg.ERR_FATAL)).set.getLsbD 2 = true ∧
      (s.hk.mode ≠ .boot → s.hk.mode ≠ .load → s.hk.mode ≠ .safe → t.hk.target = some .safe))) ∧
  (∀ (lane : Lane) (die : Die) (addr : BitVec 24) (m i : Nat) (s : State), die.hasErr = true →
    s.serves lane (errReg die Reg.ERR_REPAIR) = true → s.lockMask (errReg die Reg.ERR_REPAIR) = 0 →
    s.allows .tableWrite = true → repairs die addr.toNat = true → tableWord addr.toNat = some (m, i) →
    ∃ t, exec (.errRepair lane die addr) s = .next t ∧ s.replied t lane (errReg die Reg.ERR_REPAIR) Stat.ok 0 ∧
      t.clean die m i = true ∧ t.memData die m i = 0) ∧
  (∀ (lane : Lane) (die : Die) (data : W32) (s : State), die.hasErr = true →
    s.serves lane (errReg die Reg.ERR_ECC_TEST) = true → s.lockMask (errReg die Reg.ERR_ECC_TEST) = 0 →
    s.allows .testFn = true →
    (bits data 15 8 ∈ memsOf die →
      (∃ t, exec (.writeRaw lane die data) s = .next t ∧ s.replied t lane (errReg die Reg.ERR_ECC_TEST) Stat.ok 0 ∧
        (identityWord (bits data 15 8) (s.taddr die) = false → die ≠ .hbd ∨ bits data 15 8 ≠ 0x03 →
          t.rawAt die (bits data 15 8) (s.taddr die) = some ⟨die, bits data 15 8, s.taddr die,
            (s.regAt (errReg die Reg.ERR_ECC_TDATA_HI)).append (s.regAt (errReg die Reg.ERR_ECC_TDATA_LO)),
            data.extractLsb' 16 8, s.codeAt die (bits data 15 8) (s.taddr die)⟩)) ∧
      (∀ r : RawWord, s.rawAt die (bits data 15 8) (s.taddr die) = some r →
        ∃ t, exec (.readRaw lane die data) s = .next t ∧ s.replied t lane (errReg die Reg.ERR_ECC_TEST) Stat.ok 0 ∧
          t.regAt (errReg die Reg.ERR_ECC_TDATA_LO) = r.data.extractLsb' 0 32 ∧
          t.regAt (errReg die Reg.ERR_ECC_TDATA_HI) = r.data.extractLsb' 32 32 ∧
          bits (t.regAt (errReg die Reg.ERR_ECC_TEST)) 23 16 = r.check.toNat ∧ s.onlyAnswered t)) ∧
    (s.taddr die / 32 % 4 ≠ 3 → ∃ t, exec (.voteFlip lane die data) s = .next t ∧
      s.replied t lane (errReg die Reg.ERR_ECC_TEST) Stat.ok 0 ∧
      ⟨die, s.taddr die / 256 % 256, s.taddr die / 32 % 4, BitVec.ofNat 32 (2 ^ (s.taddr die % 32))⟩ ∈ t.err.votes))

/-- R352 to R354, R357 to R363. The model's choices: a demand latches in every state but OFF (log entry 58, DEDUCED), an unpowered
channel does nothing, and the millisecond count stands with channel H's sample (61, DESIGN CHOICE). -/
def Obligations.LidInputsAndMonitorsAct : Prop :=
  (∀ (i : Fin 4) (sideB healthy : Bool) (s : State), ∃ t, exec (.safetyInputChange i sideB healthy) s = .next t ∧
    t.lid = { s.lid with p := { s.lid.p with raw := s.lid.p.raw.set (2 * i.val + b2n sideB) healthy },
                         h := { s.lid.h with raw := s.lid.h.raw.set (2 * i.val + b2n sideB) healthy } } ∧
    t = { s with lid := t.lid }) ∧
  (∀ (c : LidCh) (i : Fin 4) (sideB : Bool) (s : State), (s.lid.chan c).siMode i ≠ 0 → s.chanOn c = true →
    nth false (s.lid.chan c).filt (2 * i.val + b2n sideB) ≠ nth false (s.lid.chan c).raw (2 * i.val + b2n sideB) →
    (nth false (s.lid.chan c).raw (2 * i.val + b2n sideB) = true → ∃ t, exec (.inputFilterExpire c i sideB) s = .next t ∧
      t.lid = s.lid.setChan c { s.lid.chan c with
        filt := (s.lid.chan c).filt.set (2 * i.val + b2n sideB) true } ∧ t = { s with lid := t.lid }) ∧
    (nth false (s.lid.chan c).raw (2 * i.val + b2n sideB) = false →
      ((s.lid.chan c).siMode i = 1 → s.lid.biasOn = true → ∃ t, exec (.inputFilterExpire c i sideB) s = .next t ∧
        s.trips t 0x01 .stop) ∧
      ((s.lid.chan c).siMode i = 2 → s.lid.state = .run → ∃ t, exec (.inputFilterExpire c i sideB) s = .next t ∧
        t.lid.state = .degraded ∧ 0x02 ∈ t.lid.h.causes ∧ t.lid.p.drive = s.lid.p.drive ∧
        t.lid.qclosed = s.lid.qclosed ∧ t.shows Reg.LID_EVT 2 ∧ t.hk = s.hk))) ∧
  (∀ (c : LidCh) (s : State), s.chanOn c = true →
    (let used := (List.range 4).filter (fun i => (s.lid.chan c).siMode i != 0)
     let y := used.foldl LidChan.discStep (s.lid.chan c)
     (c = .p ∨ s.lid.acc = none →
       ((∀ i, i ∈ used → nth 0 y.cnt i < y.h 0x10) → ∃ t, exec (.discrepancySample c) s = .next t ∧
         t.lid = { s.lid.setChan c y with ms := s.lid.ms + lidChCode c } ∧ t = { s with lid := t.lid }) ∧
       ((∃ i, i ∈ used ∧ y.h 0x10 ≤ nth 0 y.cnt i) → ∃ t, exec (.discrepancySample c) s = .next t ∧ s.faults t 0x10)))) ∧
  (∀ (c : LidCh) (q : Fin 4) (v i : Nat) (s : State), v < 65536 → i < 65536 →
    (s.chanOn c = false → exec (.biasMonitorSample c q v i) s = .next s) ∧
    (s.chanOn c = true → s.lid.state = .off →
     let x := s.lid.chan c
     let y := (nth Quad.zero x.quads q).sample x q v i (nth false s.lid.qclosed q) false
     ∃ t, exec (.biasMonitorSample c q v i) s = .next t ∧ t.lid = s.lid.setChan c { x with quads := x.quads.set q y } ∧
       t = { s with lid := t.lid }) ∧
    (s.chanOn c = true → s.lid.state ≠ .off →
     let x := s.lid.chan c
     let deg := s.lid.state == .degraded
     let y := (nth Quad.zero x.quads q).sample x q v i (nth false s.lid.qclosed q) deg
     (y.runVH < x.b 0x15 → y.runVL < x.b 0x15 → y.runI < x.b 0x15 → y.ramp x q = false →
       (deg = true → v ≤ y.ref + x.qp q 8) → ∃ t, exec (.biasMonitorSample c q v i) s = .next t ∧
         t.lid = s.lid.setChan c { x with quads := x.quads.set q y } ∧ t = { s with lid := t.lid }) ∧
     (x.b 0x15 ≤ y.runVH → s.lid.biasOn = true → ∃ t, exec (.biasMonitorSample c q v i) s = .next t ∧
       s.trips t 0x03 .stop)))

/-- R356, R364 to R367, R369 with R353. The model's choices: demands latch in every state but OFF (log entry 58, DEDUCED), and what
stands for an OUTPUT, CHANNEL or PARAM cause that is present (59, DEDUCED). -/
def Obligations.LidChannelsWatchEachOther : Prop :=
  (∀ (rx : LidCh) (s : State), s.hk.v12 = true → s.hk.v24 = true →
    (let l := match rx with
        | .p => { s.lid with linkP := true }
        | .h => { s.lid with linkH := true, progFail := false, h := { s.lid.h with st := s.lid.p.st } }
     (s.lid.agree = false → ∃ t, exec (.crosslinkFrame rx) s = .next t ∧ t = { s with lid := l }) ∧
     (s.lid.agree = true →
       ((∀ n, n < 4 → (nth Quad.zero ((l.compare rx).chan rx).quads n).diffs < 10) →
         ∃ t, exec (.crosslinkFrame rx) s = .next t ∧ t = { s with lid := l.compare rx }) ∧
       ((∃ n, n < 4 ∧ 10 ≤ (nth Quad.zero ((l.compare rx).chan rx).quads n).diffs) →
         ∃ t, exec (.crosslinkFrame rx) s = .next t ∧ s.faults t 0x14)))) ∧
  (∀ (c : LidCh) (s : State), s.chanOn c = true →
    (c = .p ∨ s.lid.linkH = true → ∃ t, exec (.crosslinkTimeout c) s = .next t ∧ s.faults t 0x15 ∧
      (if c = .p then t.lid.linkP else t.lid.linkH) = false) ∧
    (c = .h → s.lid.linkH = false → exec (.crosslinkTimeout c) s = .next s) ∧
    (∃ t, exec (.driveReadbackFault c) s = .next t ∧ s.faults t 0x16)) ∧
  (∀ s : State, s.hk.v24 = true → ∃ t, exec .programWatchdog s = .next t ∧ s.faults t 0x15 ∧ t.lid.progFail = true) ∧
  (∀ s : State,
    (s.lid.p.crc = s.lid.h.crc → exec .lcrcCompare s = .next s) ∧
    (s.lid.p.crc ≠ s.lid.h.crc → s.hk.v12 = true → s.hk.v24 = true → ∃ t, exec .lcrcCompare s = .next t ∧ s.faults t 0x17 ∧ t.lid.agree = false)) ∧
  (∀ (b isOpen : Bool) (s : State), ∃ t, exec (.feedbackChange b isOpen) s = .next t ∧
    t.lid.fbaOpen = (if b then s.lid.fbaOpen else isOpen) ∧ t.lid.fbbOpen = (if b then isOpen else s.lid.fbbOpen) ∧
    t.lid.state = s.lid.state ∧ t.lid.h.causes = s.lid.h.causes ∧
    (∀ q, q < 4 → (nth false t.lid.qclosed q = true ↔ nth false s.lid.qclosed q = true ∨
      s.lid.state = .run ∧ s.bit Reg.LID_QEN q = true ∧ t.lid.fbaOpen = false ∧ t.lid.fbbOpen = false ∧
        s.hk.v24 = true)) ∧ t = { s with lid := t.lid }) ∧
  (∀ (b : Bool) (cause : Nat) (s : State), s.lid.fbFault b = some cause → (s.lid.chan (if b then .h else .p)).par ≠ [] →
    s.chanOn (if b then .h else .p) = true → ∃ t, exec (.feedbackTimeout b) s = .next t ∧ s.faults t cause)

/-- R371, R372, R374, R354 (DEGRADE), R365 (LID_QEN). The model's choices: an accepted release takes effect at channel H's next
millisecond, in which any cause rejects it (log entry 188, DEDUCED), the cause that a rejected reset shows (60), the causes that must be
absent (59, DEDUCED) and one that falls in the same millisecond (161, DEDUCED). -/
def Obligations.LidResetsAndRegistersAct : Prop :=
  (∀ s : State, ∃ t, exec .lidRstClose s = .next t ∧ t.lid = { s.lid with
    rstIn := true, heldOver := false, p := { s.lid.p with hold := 0 }, h := { s.lid.h with hold := 0 } } ∧
    t = { s with lid := t.lid }) ∧
  (∀ (hP hH : Nat) (s : State), s.lid.rstIn = true → s.lid.heldOver = false →
    (s.mayReset hP hH → ∃ t, exec (.lidRstRelease hP hH) s = .next t ∧ t = { s with lid := { s.lid with
      p := { s.lid.p with hold := hP }, h := { s.lid.h with hold := hH }, rstIn := false, acc := some hH } }) ∧
    (hP < 100 ∨ hH < 100 ∨ 2000 < hP ∨ 2000 < hH → hP ≤ 5000 → hH ≤ 5000 → ∃ t, exec (.lidRstRelease hP hH) s = .next t ∧
      t.lid.state = s.lid.state ∧ t.lid.h.causes = s.lid.h.causes ∧ t.lid.p.drive = s.lid.p.drive ∧
      t.lid.h.drive = s.lid.h.drive ∧ s.counts t Reg.LID_RST_REJ_CNT 1 ∧ t.shows Reg.LID_EVT 4 ∧
      t.reg Reg.LID_RST_LAST = word32 [(0, 16), (min hH 65535, 16)] ∧ t.hk = s.hk)) ∧
  (∀ (h : Nat) (s : State), s.chanOn .h = true → s.lid.acc = some h →
    (let used := (List.range 4).filter (fun i => s.lid.h.siMode i != 0)
     let y := used.foldl LidChan.discStep s.lid.h
     (∀ i, i ∈ used → nth 0 y.cnt i < y.h 0x10) → ∃ t, exec (.discrepancySample .h) s = .next t ∧ t.lid.state = .run ∧
      t.lid.acc = none ∧ t.lid.p.causes = [] ∧ t.lid.h.causes = [] ∧ t.lid.p.drive = true ∧ t.lid.h.drive = true ∧
      s.counts t Reg.LID_RST_ACC_CNT 1 ∧ t.shows Reg.LID_EVT 3 ∧
      t.reg Reg.LID_RST_LAST = word32 [(1, 16), (min h 65535, 16)] ∧ t.hk = s.hk)) ∧
  (∀ (c : LidCh) (s : State), s.lid.rstIn = true → s.chanOn c = true → ∃ t, exec (.resetHoldFault c) s = .next t ∧
    s.faults t 0x19 ∧ t.lid.heldOver = true) ∧
  (∀ (lane : Lane) (data : W32) (be : BitVec 4) (s : State),
    (s.takes lane Reg.LID_CMD 0xF = true → ∃ t, exec (.degrade lane) s = .next t ∧
      s.replied t lane Reg.LID_CMD Stat.ok 0 ∧
      (s.lid.state = .run → t.lid.state = .degraded ∧ t.shows Reg.LID_EVT 2 ∧ t.lid.qclosed = s.lid.qclosed ∧
        t.lid.p.quads = s.lid.p.quads.map (fun q => { q with ref := q.v, armed := false, runVL := 0 }) ∧
        t.lid.h.quads = s.lid.h.quads.map (fun q => { q with ref := q.v, armed := false, runVL := 0 })) ∧
      (s.lid.state ≠ .run → t.lid = s.lid)) ∧
    (s.takes lane Reg.LID_QEN be = true → ∃ t, exec (.qenWrite lane data be) s = .next t ∧
      s.replied t lane Reg.LID_QEN Stat.ok 0 ∧
      t.fld Reg.LID_QEN 3 0 = bits (mergeBE (s.reg Reg.LID_QEN) data be) 3 0 ∧
      ∀ q, q < 4 → (nth false t.lid.qclosed q = true ↔ bitOf (mergeBE (s.reg Reg.LID_QEN) data be) q = true ∧
        (nth false s.lid.qclosed q = true ∨
          s.lid.state = .run ∧ s.lid.fbaOpen = false ∧ s.lid.fbbOpen = false ∧ s.hk.v24 = true))))

/-- R371 and R372 (LID_RST), R353 (RESET_FAULT), R354 (DEGRADE), R365 (LID_QEN): each command's own effect; a reset is accepted at
channel H's next millisecond (log entry 188, DEDUCED). -/
def Obligations.LidResetAndRegisterCommandsComplete : Prop :=
  (∀ s : State, ∃ t, exec .lidRstClose s = .next t ∧ t.lid.rstIn = true ∧ t.lid.p.hold = 0 ∧ t.lid.h.hold = 0 ∧
    t.lid.state = s.lid.state) ∧
  (∀ (hP hH : Nat) (s : State), s.lid.rstIn = true → s.lid.heldOver = false → s.mayReset hP hH →
    s.chanOn .h = true →
    (let used := (List.range 4).filter (fun i => s.lid.h.siMode i != 0)
     let y := used.foldl LidChan.discStep { s.lid.h with hold := hH }
     ∀ i, i ∈ used → nth 0 y.cnt i < y.h 0x10) →
    ∃ t u, exec (.lidRstRelease hP hH) s = .next t ∧ t.lid.state = s.lid.state ∧ t.lid.rstIn = false ∧
      exec (.discrepancySample .h) t = .next u ∧ u.lid.state = .run ∧ u.lid.p.causes = [] ∧
      u.lid.h.causes = [] ∧ u.lid.p.drive = true ∧ u.lid.h.drive = true) ∧
  (∀ (c : LidCh) (s : State), s.lid.rstIn = true → s.chanOn c = true → s.lid.state ≠ .off → ∃ t, exec (.resetHoldFault c) s = .next t ∧
    t.lid.state = .fault ∧ 0x19 ∈ t.lid.h.causes ∧ t.lid.heldOver = true) ∧
  (∀ (lane : Lane) (s : State), s.takes lane Reg.LID_CMD 0xF = true → s.lid.state = .run →
    ∃ t, exec (.degrade lane) s = .next t ∧ t.lid.state = .degraded ∧ s.replied t lane Reg.LID_CMD Stat.ok 0) ∧
  (∀ (lane : Lane) (data : W32) (be : BitVec 4) (s : State), s.takes lane Reg.LID_QEN be = true →
    ∃ t, exec (.qenWrite lane data be) s = .next t ∧ s.replied t lane Reg.LID_QEN Stat.ok 0 ∧
      t.fld Reg.LID_QEN 3 0 = bits (mergeBE (s.reg Reg.LID_QEN) data be) 3 0)

/-- R379 to R381, R383, R385, R387. The model's choices: the byte and the rounding of f_n (log entries 95 and 160), a level reported in
every cycle that exceeds it (96, DEDUCED), the order in a cycle (97, DEDUCED), words written by the ticks that follow (178), the mean of
FoM (179) and the XO offset (180, DEDUCED; open where no lock-tracking word was taken). -/
def Obligations.PlannerCyclesAreLogged : Prop :=
  (∀ (r : AgeReadings) (s : State), (Instr.plannerCycle r).wf = true → s.aclkRuns = true → s.age.writing = none →
    s.age.cycles ≠ 0 → (s.age.cycles + 1) % 360 ≠ 0 → s.age.lenBack = [] → ∃ t, exec (.plannerCycle r) s = .next t ∧
      t.age.cycles = s.age.cycles + 1 ∧ t.age.fn = normFn r ∧ t.age.rseq = s.age.rseq ∧ t.age.vtrim = s.age.vtrim ∧
      t.age.writing = some (recordWords ((s.xoMeas.2.readMonitors r s.xoMeas.1).recordBytes r s.xoMeas.1 s.tb.sec)) ∧
      t.age.fomCycle = [] ∧ ((∃ d, d ∈ r.dose ∧ 1600000 ≤ d) → t.shows Reg.AGE_EVT 5) ∧
      ((∃ x, x ∈ r.temp.take 5 ∧ 1360 < x) → t.shows Reg.AGE_EVT 6) ∧
      t = { s with age := t.age, sts := t.sts, free := t.free }) ∧
  (∀ s : State,
    (s.age.writing = none → exec .ageingRecordAbandon s = .next s) ∧
    (∀ ws, s.age.writing = some ws → ∃ t, exec .ageingRecordAbandon s = .next t ∧
      t.age = { s.age with writing := none, rseq := (s.age.rseq + 1) % 2 ^ 32 } ∧ s.counts t Reg.AGE_SKIP_CNT 1 ∧
      t.shows Reg.AGE_EVT 2 ∧ t.nvd = s.nvd)) ∧
  (∀ (die : Nat) (up : Int) (rest : List (Nat × Int)) (s : State), s.age.trimWait = (die, up) :: rest →
    (s.trimNow = false → exec .deferredTrimStep s = .next s) ∧
    (s.trimNow = true → ∃ t, exec .deferredTrimStep s = .next t ∧
      t.age = { s.age with
        trimWait := rest, vtrim := s.age.vtrim.set die (min 12 ((nth 0 s.age.vtrim die : Int) + up).toNat) } ∧
      s.counts t Reg.AGE_ACT_CNT 1 ∧ t.shows Reg.AGE_EVT 0 ∧ (die = 0 → t.bit Reg.AGE_MARGIN 8 = true)))

/-- R391 to R394, R407, R408. The model's choices: the salt and the key are open values (log entry 101), a report whose check fails
keeps its RID (80, DEDUCED), and all lanes share the mailbox (100, DEDUCED). -/
def Obligations.ReportsAndMailboxAnswer : Prop :=
  (∀ (lane : Lane) (s : State), s.serves lane Reg.ATT_CMD = true → s.allows .attest = true → s.att.busy = none →
    s.att.bootOk = true → ∃ t, exec (.attestationReportRequest lane) s = .next t ∧
      s.replied t lane Reg.ATT_CMD Stat.ok 0 ∧ t.att = { s.att with busy := some s.reportBody }) ∧
  (∀ (body : List Octet) (s : State), s.att.busy = some body →
    (∀ glitch, (signBody body s.free glitch).length = 512 ∧
      (signatureOk body (signBody body s.free glitch) = true → ∃ t, exec (.signingDone glitch) s = .next t ∧
        t.att = { s.att with busy := none, buf := body ++ signBody body s.free glitch,
                             bufRid := leNat ((body.drop 0x0C).take 2), rid := leNat ((body.drop 0x0C).take 2) } ∧
        s.counts t Reg.ATT_REQ_CNT 1 ∧ s.posts t 15 (attEntry 1 body)) ∧
      (signatureOk body (signBody body s.free glitch) = false → ∃ t, exec (.signingDone glitch) s = .next t ∧
        t.att = { s.att with busy := none } ∧
        s.counts t Reg.ATT_FAIL_CNT 1 ∧ t.shows Reg.ATT_EVT 0 ∧ s.posts t 15 (attEntry 3 body)))) ∧
  (∀ (lane : Lane) (s : State), s.serves lane Reg.MBX_REQ = true → s.allows .readOther = true →
    (∀ (c : Instr) (item arg : Nat) (ws : List W32),
      (c, item, arg, ws) ∈ [(Instr.time lane, 1, 0, s.timeWords), (.bootCount lane, 2, 0, lowHigh s.att.bootCount)] ∨
        (∃ part : BitVec 16, part.toNat ≤ 52 ∧ s.att.buf ≠ [] ∧ c = .attReport lane part ∧ item = 3 ∧ arg = part.toNat ∧
          ws = (List.range 4).map (fun i => BitVec.ofNat 32 (leNat ((s.att.buf.drop (16 * arg + 4 * i)).take 4)))) ∨
        (∃ sel : BitVec 16, sel.toNat ≤ 3 ∧ c = .total lane sel ∧ item = 4 ∧ arg = sel.toNat ∧
          ws = lowHigh (nth 0 s.ulp.totals arg)) →
      ∃ t, exec c s = .next t ∧ s.replied t lane Reg.MBX_REQ Stat.ok 0 ∧
        t.mbx = { words := ws, valid := true, rqn := s.mbx.rqn + 1, item := item, lane := lane, nw := ws.length,
                  req := mbxWord item arg }))

/-- R409, whole. -/
def Obligations.MailboxSnapshotsAreTakenAndRead : Prop :=
  (∀ (lane : Lane) (i : Fin 6) (s : State), s.serves lane (Reg.MBX_DATA + 4 * i.val) = true → s.allows .readOther = true →
    (s.mbx.valid = true → ∃ t, exec (.mbxDataRead lane i) s = .next t ∧
      s.replied t lane (Reg.MBX_DATA + 4 * i.val) Stat.ok (if i.val < s.mbx.nw then nth 0 s.mbx.words i else 0) ∧
      t.mbx = { s.mbx with valid := decide (i.val + 1 ≠ s.mbx.nw) }) ∧
    (s.mbx.valid = false → ∃ t, exec (.mbxDataRead lane i) s = .next t ∧
      s.replied t lane (Reg.MBX_DATA + 4 * i.val) Stat.notReady 0 ∧ t.mbx = s.mbx)) ∧
  (∀ (lane other : Lane) (sel : BitVec 16) (s : State), s.serves lane Reg.MBX_REQ = true → s.allows .readOther = true →
    s.mbx.lane = other.val →
    (∃ t, exec (.time lane) s = .next t ∧ t.mbx.valid = true ∧ t.mbx.words = s.timeWords ∧ t.mbx.lane = lane.val) ∧
    (3 < sel.toNat → ∃ t, exec (.total lane sel) s = .next t ∧ s.replied t lane Reg.MBX_REQ Stat.badValue 0 ∧
      t.mbx = s.mbx)) ∧
  (∀ (env : EntryEnv) (s t : State), s.hk.target = some .load → exec (.modeTransitionComplete env) s = .next t →
    t.mbx.valid = false) ∧
  (∀ s t : State, s.hk.v12 = true → s.hk.rstN = true → exec .rstNLow s = .next t → t.mbx.valid = false) ∧
  (∀ (lane : Lane) (addr : BitVec 24) (data : W32) (be : BitVec 4) (s t : State),
    addr.toNat = Reg.MBX_STS ∨ (∃ i, i < 6 ∧ addr.toNat = Reg.MBX_DATA + 4 * i) →
    exec (.registerWrite lane addr data be) s = .next t → t.mbx = s.mbx)

/-- R416, R387, R433 to R437. The model's choices: a command of the TAP is one scan of the instruction registers and one of the data
registers (log entry 191), and what boundary scan does to the lanes (103, DEDUCED); AON counters advance with the sample (12). -/
def Obligations.HousekeepingAndTestAccess : Prop :=
  (∀ (x : HkSample) (s : State), (Instr.hkMonitorSample x).wf = true → s.hk.v12 = true → s.hk.mode ≠ .boot →
    ∃ t, exec (.hkMonitorSample x) s = .next t ∧
      (∀ j, j < 6 → t.reg (Reg.HK_TEMP + 4 * j) = BitVec.ofNat 32 (patternW 16 (x.temps[j]?.getD 0))) ∧
      (∀ j, j < 4 → t.reg (Reg.HK_VMON + 4 * j) = BitVec.ofNat 32 (nth 0 x.vmon j % 65536)) ∧
      t.reg Reg.HK_VIN = BitVec.ofNat 32 x.vin ∧ t.reg Reg.HK_IIN = BitVec.ofNat 32 x.iin ∧
      t.reg Reg.HK_PIN = BitVec.ofNat 32 x.pin ∧
      (t.bit Reg.HK_PWR_STS 8 = true ↔ 10800 ≤ x.vin ∧ x.vin ≤ 13200) ∧ s.counts t Reg.HK_MODE_TIME 10 ∧
      (s.hk.vinLow = 2 → x.vin < 10800 → t.shows Reg.HK_PWR_EVT 1) ∧
      ((∃ v, v ∈ x.temps.take 5 ∧ 1360 < v) → t.shows Reg.AGE_EVT 6) ∧
      t.tb.track = (if s.tb.srcXo = true then s.tb.track else lastN 10000 (s.tb.track ++ [x.track])) ∧
      t.tb.temps = lastN 100 (s.tb.temps ++ [x.temps[5]?.getD (-32768)]) ∧
      t = { s with regs := t.regs, sts := t.sts, tb := { s.tb with track := t.tb.track, temps := t.tb.temps }, hk := { s.hk with
        vinLow := t.hk.vinLow, vinHigh := t.hk.vinHigh, tempArmed := t.hk.tempArmed } }) ∧
  (∀ (die : Die) (s : State), die.hasErr = true → s.hk.v12 = true → s.hk.mode ≠ .boot → s.hk.mode ≠ .load →
    ∃ t, exec (.pgLoss die) s = .next t ∧ t.bit Reg.HK_PWR_STS (pgBit die) = false ∧ t.shows Reg.HK_PWR_EVT 0 ∧
      t = { s with regs := t.regs, sts := t.sts }) ∧
  (∀ s : State, s.tapAnswers = true →
    (∃ t, exec .tapReset s = .next t ∧ t.tap = { s.tap with ir := [], driving := [] } ∧
      (s.tap.driving = [] → t = { s with tap := t.tap })) ∧
    (∀ (x : TapScan) (ch : Chan), (s.cells .fed x).length = 4096 ∧ (s.cells .fed x)[ch.val]? = some (s.pulse ch.val).low) ∧
    (∀ x : TapCmd, ¬(1 ≤ x.scan.code.toNat ∧ x.scan.code.toNat ≤ 7) → ∃ t, exec (.bypass x) s = .next t ∧
      Sparse.get 1 t.tap.ir (tapIdx x.die) = x.scan.code.toNat ∧ t.tapCode x.die = 0xFF) ∧
    (∀ (x : TapCmd) (c : Instr) (code : Nat), (c, code) ∈ tapInstrs x → ∃ t, exec c s = .next t ∧
      Sparse.get 1 t.tap.ir (tapIdx x.die) = code ∧
      (∀ j, j ≠ tapIdx x.die → Sparse.get 1 t.tap.ir j = Sparse.get 1 s.tap.ir j) ∧
      (s.tapDrives x.die code = true → t.tap.driving = (if s.tap.driving = [] then [3] else s.tap.driving)) ∧
      (s.tapDrives x.die code = false → t.tap.driving = (if x.die = .hbd then [] else s.tap.driving) ∧
        (code = 2 → (tapIdx x.die, t.cells x.die x.scan) ∈ t.tap.captured ∧
          t.cellsOf x.die = (List.range (t.cells x.die x.scan).length).map (nth false x.scan.tdi)) ∧
        (s.tap.driving = [] → t = { s with tap := t.tap, out := s.out ++
          [Out.tdo ((List.range 40).map (fun i => i % 8 == 0)), Out.tdo (chainDies.flatMap (fun e => t.drOf e x.scan))] })) ∧
      (s.tapDrives x.die code = true →
        (code = 3 → t.out.getLast? = some (Out.pins (((List.range 32).map (fun n => 2 * n) ++
          (List.range 4).map (fun j => 128 + 2 * j)).map (fun i =>
            if nth false x.scan.tdi (i + 1) = true then some (nth false x.scan.tdi i) else none)))) ∧
        (code = 4 → t.out.getLast? = some (Out.acTest x.die 1)) ∧
        (code = 5 → x.scan.idle ≠ 0 → t.out.getLast? = some (Out.acTest x.die x.scan.idle)))))

/-- The frame of R256, R258 to R264 and R267. A Delay_Req crosses reserved slots of lane 0, whose units leave in them; R289 and R294
give them the slots, log entry 149 (DESIGN CHOICE) the order among commands. -/
def Obligations.TimeBaseEventsKeepTheRest : Prop :=
  ∀ (c : Instr) (s t : State), timeBaseEvent c = true → exec c s = .next t →
    t = { s with tb := t.tb, regs := t.regs, sts := t.sts, pq := t.pq, out := t.out, lanes := t.lanes, free := t.free,
                 resp := t.resp, err := t.err } ∧ s.errsKept t ∧
    (∀ n, t.lane n = { s.lane n with popWait := (t.lane n).popWait, snap := (t.lane n).snap, txSlot := (t.lane n).txSlot,
                                     half := (t.lane n).half, cache := (t.lane n).cache }) ∧
    (∀ n, n ≠ 0 → (t.lane n).txSlot = (s.lane n).txSlot ∧ (t.lane n).half = (s.lane n).half ∧
      (t.lane n).cache = (s.lane n).cache ∧ t.resp.filter (fun e => e.1 == n) = s.resp.filter (fun e => e.1 == n)) ∧
    (∀ k, k % 0x1000000 / 0x10000 ≠ 1 → k % 0x1000000 / 0x10000 ≠ 8 → k % 0x1000000 ≠ Reg.LK_LANE_RX_FRAMES →
      k % 0x1000000 ≠ Reg.LK_LANE_TX_FRAMES → k % 0x1000000 ≠ Reg.LK_LANE_TX_UNITS → t.regAt k = s.regAt k) ∧
    (t.out ≠ s.out → (∃ t3, c = .delayReqSend t3) ∨ s.tb.state ≠ .acquire ∧ t.tb.state = .acquire)

/-- The frame of R273 to R285. -/
def Obligations.LaneEventsKeepTheRest : Prop :=
  ∀ (c : Instr) (s t : State), laneEvent c = true → exec c s = .next t →
    t = { s with lanes := t.lanes, regs := t.regs, sts := t.sts, tb := t.tb, pq := t.pq, free := t.free, out := t.out,
                 resp := t.resp, err := t.err, age := { s.age with fomCycle := t.age.fomCycle },
                 ulp := { s.ulp with held := t.ulp.held, peers := t.ulp.peers } } ∧ s.errsKept t ∧
    (∀ k, k % 0x1000000 / 0x10000 ≠ 1 → k % 0x1000000 / 0x10000 ≠ 2 → k % 0x1000000 / 0x10000 ≠ 8 →
      k % 0x1000000 ≠ Reg.LK_LANE_TX_FRAMES → k % 0x1000000 ≠ Reg.LK_LANE_TX_UNITS → t.regAt k = s.regAt k) ∧
    (∀ i, t.peer i = { s.peer i with lacks := (t.peer i).lacks }) ∧
    (∀ n, (t.lane n).e = (s.lane n).e ∧ (t.lane n).synced = (s.lane n).synced) ∧
    (∀ n, n ≠ 0 → (t.lane n).cache = (s.lane n).cache ∧ t.resp.filter (fun e => e.1 == n) = s.resp.filter (fun e => e.1 == n))

/-- The frame of R352 to R372: what a Lid event leaves alone, a trip's way to SAFE (R48) apart. -/
def Obligations.LidEventsKeepTheRest : Prop :=
  ∀ (c : Instr) (s t : State), lidEvent c = true → exec c s = .next t →
    t = { s with lid := t.lid, regs := t.regs, sts := t.sts, pq := t.pq, hk := t.hk, run := t.run, free := t.free,
                 lanes := t.lanes, err := t.err,
                 cda := { s.cda with
                   barriers := t.cda.barriers, ladle := t.cda.ladle, jobs := t.cda.jobs, released := t.cda.released },
                 cdb := { s.cdb with
                   barriers := t.cdb.barriers, ladle := t.cdb.ladle, jobs := t.cdb.jobs, released := t.cdb.released } } ∧
    s.errsKept t ∧
    (∀ n, t.lane n = { s.lane n with popWait := (t.lane n).popWait, snap := (t.lane n).snap }) ∧
    t.hk.mode = s.hk.mode ∧
    (∀ k, k % 0x1000000 / 0x100000 ≠ 5 → k ≠ Reg.HK_MODE_REQ → k ≠ Reg.LK_MARK_IGN_CNT → t.regAt k = s.regAt k)
end

