-- ==== Sys2Proof/Laws/Sparse.lean ====
section
/-! SUPPORT. The laws of the sparse tables: what a key reads as after a write, and that a write keeps the canonical form. -/

namespace Sys2Proof.Sparse

variable {α : Type}

/-- A key filtered out reads as unlisted, every other key as before. -/
theorem get_filter_ne (d : α) (m : Sparse α) (i j : Nat) :
    get d (m.filter (fun p => p.1 != i)) j = if j = i then d else get d m j := by
  induction m with
  | nil => simp [get]
  | cons p m ih =>
    obtain ⟨k, v⟩ := p
    by_cases hk : k = i
    · subst hk
      by_cases hj : j = k <;> simp_all [get]
    · by_cases hj : j = k
      · subst hj; simp [get, hk]
      · simp_all [get]

/-- A removed key reads as unlisted, every other key as before. -/
theorem get_del (d : α) (m : Sparse α) (i j : Nat) : get d (del i m) j = if j = i then d else get d m j :=
  get_filter_ne d m i j

/-- A listed key reads its value, every other key as before. -/
theorem get_ins (d x : α) (m : Sparse α) (i j : Nat) : get d (ins i x m) j = if j = i then x else get d m j := by
  induction m with
  | nil => simp [ins, get]
  | cons p m ih =>
    obtain ⟨k, v⟩ := p
    unfold ins
    split
    · next h => subst h; by_cases hj : j = i <;> simp [get, hj]
    · split
      · by_cases hj : j = i <;> simp [get, hj]
      · next h _ =>
        by_cases hj : j = k
        · subst hj; simp [get, Ne.symm h]
        · simp [get, hj, ih]

/-- A key reads what was written to it, every other key as before. -/
@[simp] theorem get_put [DecidableEq α] (d x : α) (m : Sparse α) (i j : Nat) :
    get d (put d i x m) j = if j = i then x else get d m j := by
  unfold put
  split
  · next h => subst h; exact get_del x m i j
  · exact get_ins d x m i j

/-- A key that is not written reads as before, whatever it reads as unlisted. -/
theorem get_put_ne [DecidableEq α] (d e x : α) (m : Sparse α) (i j : Nat) (h : j ≠ i) :
    get e (put d i x m) j = get e m j := by
  unfold put
  split
  · rw [get_del, if_neg h]
  · rw [get_ins, if_neg h]

/-- The written key reads the written value. -/
theorem get_put_self [DecidableEq α] (d x : α) (m : Sparse α) (i : Nat) : get d (put d i x m) i = x := by simp

/-- Every entry of a table from which a key was removed was listed before. -/
theorem mem_del {m : Sparse α} {i : Nat} {p : Nat × α} (h : p ∈ del i m) : p ∈ m := List.mem_of_mem_filter h

/-- Every entry after a listing is the listed one or was there before. -/
theorem mem_ins {m : Sparse α} {i : Nat} {x : α} {p : Nat × α} (h : p ∈ ins i x m) : p = (i, x) ∨ p ∈ m := by
  induction m with
  | nil => simpa [ins] using h
  | cons q m ih =>
    obtain ⟨k, v⟩ := q
    unfold ins at h
    split at h
    · simp at h; tauto
    · split at h
      · simp at h; simp; tauto
      · simp at h ⊢; tauto

/-- The canonical form, one entry and the rest. -/
theorem wf_cons [DecidableEq α] (d : Nat → α) (k : Nat) (v : α) (m : Sparse α) :
    wf d ((k, v) :: m) = true ↔ v ≠ d k ∧ (∀ p ∈ m, k < p.1) ∧ wf d m = true := by
  simp [wf, and_assoc]

/-- Leaving entries out keeps the canonical form. -/
theorem wf_filter [DecidableEq α] (d : Nat → α) (q : Nat × α → Bool) (m : Sparse α) (h : wf d m = true) :
    wf d (m.filter q) = true := by
  induction m with
  | nil => exact h
  | cons p m ih =>
    obtain ⟨k, v⟩ := p
    rw [wf_cons] at h
    by_cases hq : q (k, v)
    · rw [List.filter_cons_of_pos hq, wf_cons]
      exact ⟨h.1, fun p hp => h.2.1 p (List.mem_of_mem_filter hp), ih h.2.2⟩
    · rw [List.filter_cons_of_neg hq]
      exact ih h.2.2

/-- A write keeps the canonical form. -/
theorem wf_put [DecidableEq α] (d : Nat → α) (i : Nat) (x : α) (m : Sparse α) (h : wf d m = true) :
    wf d (put (d i) i x m) = true := by
  unfold put
  split
  · exact wf_filter d _ m h
  · next hx =>
    induction m with
    | nil => simp [ins, wf, hx]
    | cons p m ih =>
      obtain ⟨k, v⟩ := p
      rw [wf_cons] at h
      unfold ins
      split
      · next hk => subst hk; rw [wf_cons]; exact ⟨hx, h.2.1, h.2.2⟩
      · split
        · next hlt =>
          rw [wf_cons, wf_cons]
          refine ⟨hx, ?_, h⟩
          intro p hp
          rcases List.mem_cons.1 hp with rfl | hp
          · exact hlt
          · exact lt_trans hlt (h.2.1 p hp)
        · next hne hlt =>
          rw [wf_cons]
          refine ⟨h.1, ?_, ih h.2.2⟩
          intro p hp
          rcases mem_ins hp with rfl | hp
          · simp only; omega
          · exact h.2.1 p hp

end Sys2Proof.Sparse
end

