-- ==== Sys2Proof/Laws/State.lean ====
section
/-! SUPPORT. What each small operation leaves of the state, one lemma a field, and what registers, sticky bits, lanes,
groups, channels and concentrators read as after a write. -/

namespace Sys2Proof.Machine


/-! ### setRegAt -/

@[simp] theorem State.setRegAt_pending (s : State) (k : Nat) (v : W32) : (s.setRegAt k v).pending = s.pending := rfl
@[simp] theorem State.setRegAt_sts (s : State) (k : Nat) (v : W32) : (s.setRegAt k v).sts = s.sts := rfl
@[simp] theorem State.setRegAt_hk (s : State) (k : Nat) (v : W32) : (s.setRegAt k v).hk = s.hk := rfl
@[simp] theorem State.setRegAt_run (s : State) (k : Nat) (v : W32) : (s.setRegAt k v).run = s.run := rfl
@[simp] theorem State.setRegAt_nvd (s : State) (k : Nat) (v : W32) : (s.setRegAt k v).nvd = s.nvd := rfl
@[simp] theorem State.setRegAt_cal (s : State) (k : Nat) (v : W32) : (s.setRegAt k v).cal = s.cal := rfl
@[simp] theorem State.setRegAt_fe (s : State) (k : Nat) (v : W32) : (s.setRegAt k v).fe = s.fe := rfl
@[simp] theorem State.setRegAt_tdc (s : State) (k : Nat) (v : W32) : (s.setRegAt k v).tdc = s.tdc := rfl
@[simp] theorem State.setRegAt_wf (s : State) (k : Nat) (v : W32) : (s.setRegAt k v).wf = s.wf := rfl
@[simp] theorem State.setRegAt_fed (s : State) (k : Nat) (v : W32) : (s.setRegAt k v).fed = s.fed := rfl
@[simp] theorem State.setRegAt_cda (s : State) (k : Nat) (v : W32) : (s.setRegAt k v).cda = s.cda := rfl
@[simp] theorem State.setRegAt_cdb (s : State) (k : Nat) (v : W32) : (s.setRegAt k v).cdb = s.cdb := rfl
@[simp] theorem State.setRegAt_ring (s : State) (k : Nat) (v : W32) : (s.setRegAt k v).ring = s.ring := rfl
@[simp] theorem State.setRegAt_tb (s : State) (k : Nat) (v : W32) : (s.setRegAt k v).tb = s.tb := rfl
@[simp] theorem State.setRegAt_lanes (s : State) (k : Nat) (v : W32) : (s.setRegAt k v).lanes = s.lanes := rfl
@[simp] theorem State.setRegAt_ulp (s : State) (k : Nat) (v : W32) : (s.setRegAt k v).ulp = s.ulp := rfl
@[simp] theorem State.setRegAt_resp (s : State) (k : Nat) (v : W32) : (s.setRegAt k v).resp = s.resp := rfl
@[simp] theorem State.setRegAt_pq (s : State) (k : Nat) (v : W32) : (s.setRegAt k v).pq = s.pq := rfl
@[simp] theorem State.setRegAt_rd (s : State) (k : Nat) (v : W32) : (s.setRegAt k v).rd = s.rd := rfl
@[simp] theorem State.setRegAt_err (s : State) (k : Nat) (v : W32) : (s.setRegAt k v).err = s.err := rfl
@[simp] theorem State.setRegAt_lid (s : State) (k : Nat) (v : W32) : (s.setRegAt k v).lid = s.lid := rfl
@[simp] theorem State.setRegAt_age (s : State) (k : Nat) (v : W32) : (s.setRegAt k v).age = s.age := rfl
@[simp] theorem State.setRegAt_att (s : State) (k : Nat) (v : W32) : (s.setRegAt k v).att = s.att := rfl
@[simp] theorem State.setRegAt_mbx (s : State) (k : Nat) (v : W32) : (s.setRegAt k v).mbx = s.mbx := rfl
@[simp] theorem State.setRegAt_tap (s : State) (k : Nat) (v : W32) : (s.setRegAt k v).tap = s.tap := rfl
@[simp] theorem State.setRegAt_out (s : State) (k : Nat) (v : W32) : (s.setRegAt k v).out = s.out := rfl
@[simp] theorem State.setRegAt_free (s : State) (k : Nat) (v : W32) : (s.setRegAt k v).free = s.free := rfl

/-! ### setReg -/

@[simp] theorem State.setReg_pending (s : State) (a : Nat) (v : W32) : (s.setReg a v).pending = s.pending := rfl
@[simp] theorem State.setReg_sts (s : State) (a : Nat) (v : W32) : (s.setReg a v).sts = s.sts := rfl
@[simp] theorem State.setReg_hk (s : State) (a : Nat) (v : W32) : (s.setReg a v).hk = s.hk := rfl
@[simp] theorem State.setReg_run (s : State) (a : Nat) (v : W32) : (s.setReg a v).run = s.run := rfl
@[simp] theorem State.setReg_nvd (s : State) (a : Nat) (v : W32) : (s.setReg a v).nvd = s.nvd := rfl
@[simp] theorem State.setReg_cal (s : State) (a : Nat) (v : W32) : (s.setReg a v).cal = s.cal := rfl
@[simp] theorem State.setReg_fe (s : State) (a : Nat) (v : W32) : (s.setReg a v).fe = s.fe := rfl
@[simp] theorem State.setReg_tdc (s : State) (a : Nat) (v : W32) : (s.setReg a v).tdc = s.tdc := rfl
@[simp] theorem State.setReg_wf (s : State) (a : Nat) (v : W32) : (s.setReg a v).wf = s.wf := rfl
@[simp] theorem State.setReg_fed (s : State) (a : Nat) (v : W32) : (s.setReg a v).fed = s.fed := rfl
@[simp] theorem State.setReg_cda (s : State) (a : Nat) (v : W32) : (s.setReg a v).cda = s.cda := rfl
@[simp] theorem State.setReg_cdb (s : State) (a : Nat) (v : W32) : (s.setReg a v).cdb = s.cdb := rfl
@[simp] theorem State.setReg_ring (s : State) (a : Nat) (v : W32) : (s.setReg a v).ring = s.ring := rfl
@[simp] theorem State.setReg_tb (s : State) (a : Nat) (v : W32) : (s.setReg a v).tb = s.tb := rfl
@[simp] theorem State.setReg_lanes (s : State) (a : Nat) (v : W32) : (s.setReg a v).lanes = s.lanes := rfl
@[simp] theorem State.setReg_ulp (s : State) (a : Nat) (v : W32) : (s.setReg a v).ulp = s.ulp := rfl
@[simp] theorem State.setReg_resp (s : State) (a : Nat) (v : W32) : (s.setReg a v).resp = s.resp := rfl
@[simp] theorem State.setReg_pq (s : State) (a : Nat) (v : W32) : (s.setReg a v).pq = s.pq := rfl
@[simp] theorem State.setReg_rd (s : State) (a : Nat) (v : W32) : (s.setReg a v).rd = s.rd := rfl
@[simp] theorem State.setReg_err (s : State) (a : Nat) (v : W32) : (s.setReg a v).err = s.err := rfl
@[simp] theorem State.setReg_lid (s : State) (a : Nat) (v : W32) : (s.setReg a v).lid = s.lid := rfl
@[simp] theorem State.setReg_age (s : State) (a : Nat) (v : W32) : (s.setReg a v).age = s.age := rfl
@[simp] theorem State.setReg_att (s : State) (a : Nat) (v : W32) : (s.setReg a v).att = s.att := rfl
@[simp] theorem State.setReg_mbx (s : State) (a : Nat) (v : W32) : (s.setReg a v).mbx = s.mbx := rfl
@[simp] theorem State.setReg_tap (s : State) (a : Nat) (v : W32) : (s.setReg a v).tap = s.tap := rfl
@[simp] theorem State.setReg_out (s : State) (a : Nat) (v : W32) : (s.setReg a v).out = s.out := rfl
@[simp] theorem State.setReg_free (s : State) (a : Nat) (v : W32) : (s.setReg a v).free = s.free := rfl

/-! ### setFld -/

@[simp] theorem State.setFld_pending (s : State) (a hi lo v : Nat) : (s.setFld a hi lo v).pending = s.pending := rfl
@[simp] theorem State.setFld_sts (s : State) (a hi lo v : Nat) : (s.setFld a hi lo v).sts = s.sts := rfl
@[simp] theorem State.setFld_hk (s : State) (a hi lo v : Nat) : (s.setFld a hi lo v).hk = s.hk := rfl
@[simp] theorem State.setFld_run (s : State) (a hi lo v : Nat) : (s.setFld a hi lo v).run = s.run := rfl
@[simp] theorem State.setFld_nvd (s : State) (a hi lo v : Nat) : (s.setFld a hi lo v).nvd = s.nvd := rfl
@[simp] theorem State.setFld_cal (s : State) (a hi lo v : Nat) : (s.setFld a hi lo v).cal = s.cal := rfl
@[simp] theorem State.setFld_fe (s : State) (a hi lo v : Nat) : (s.setFld a hi lo v).fe = s.fe := rfl
@[simp] theorem State.setFld_tdc (s : State) (a hi lo v : Nat) : (s.setFld a hi lo v).tdc = s.tdc := rfl
@[simp] theorem State.setFld_wf (s : State) (a hi lo v : Nat) : (s.setFld a hi lo v).wf = s.wf := rfl
@[simp] theorem State.setFld_fed (s : State) (a hi lo v : Nat) : (s.setFld a hi lo v).fed = s.fed := rfl
@[simp] theorem State.setFld_cda (s : State) (a hi lo v : Nat) : (s.setFld a hi lo v).cda = s.cda := rfl
@[simp] theorem State.setFld_cdb (s : State) (a hi lo v : Nat) : (s.setFld a hi lo v).cdb = s.cdb := rfl
@[simp] theorem State.setFld_ring (s : State) (a hi lo v : Nat) : (s.setFld a hi lo v).ring = s.ring := rfl
@[simp] theorem State.setFld_tb (s : State) (a hi lo v : Nat) : (s.setFld a hi lo v).tb = s.tb := rfl
@[simp] theorem State.setFld_lanes (s : State) (a hi lo v : Nat) : (s.setFld a hi lo v).lanes = s.lanes := rfl
@[simp] theorem State.setFld_ulp (s : State) (a hi lo v : Nat) : (s.setFld a hi lo v).ulp = s.ulp := rfl
@[simp] theorem State.setFld_resp (s : State) (a hi lo v : Nat) : (s.setFld a hi lo v).resp = s.resp := rfl
@[simp] theorem State.setFld_pq (s : State) (a hi lo v : Nat) : (s.setFld a hi lo v).pq = s.pq := rfl
@[simp] theorem State.setFld_rd (s : State) (a hi lo v : Nat) : (s.setFld a hi lo v).rd = s.rd := rfl
@[simp] theorem State.setFld_err (s : State) (a hi lo v : Nat) : (s.setFld a hi lo v).err = s.err := rfl
@[simp] theorem State.setFld_lid (s : State) (a hi lo v : Nat) : (s.setFld a hi lo v).lid = s.lid := rfl
@[simp] theorem State.setFld_age (s : State) (a hi lo v : Nat) : (s.setFld a hi lo v).age = s.age := rfl
@[simp] theorem State.setFld_att (s : State) (a hi lo v : Nat) : (s.setFld a hi lo v).att = s.att := rfl
@[simp] theorem State.setFld_mbx (s : State) (a hi lo v : Nat) : (s.setFld a hi lo v).mbx = s.mbx := rfl
@[simp] theorem State.setFld_tap (s : State) (a hi lo v : Nat) : (s.setFld a hi lo v).tap = s.tap := rfl
@[simp] theorem State.setFld_out (s : State) (a hi lo v : Nat) : (s.setFld a hi lo v).out = s.out := rfl
@[simp] theorem State.setFld_free (s : State) (a hi lo v : Nat) : (s.setFld a hi lo v).free = s.free := rfl

/-! ### setBit -/

@[simp] theorem State.setBit_pending (s : State) (a i : Nat) (b : Bool) : (s.setBit a i b).pending = s.pending := rfl
@[simp] theorem State.setBit_sts (s : State) (a i : Nat) (b : Bool) : (s.setBit a i b).sts = s.sts := rfl
@[simp] theorem State.setBit_hk (s : State) (a i : Nat) (b : Bool) : (s.setBit a i b).hk = s.hk := rfl
@[simp] theorem State.setBit_run (s : State) (a i : Nat) (b : Bool) : (s.setBit a i b).run = s.run := rfl
@[simp] theorem State.setBit_nvd (s : State) (a i : Nat) (b : Bool) : (s.setBit a i b).nvd = s.nvd := rfl
@[simp] theorem State.setBit_cal (s : State) (a i : Nat) (b : Bool) : (s.setBit a i b).cal = s.cal := rfl
@[simp] theorem State.setBit_fe (s : State) (a i : Nat) (b : Bool) : (s.setBit a i b).fe = s.fe := rfl
@[simp] theorem State.setBit_tdc (s : State) (a i : Nat) (b : Bool) : (s.setBit a i b).tdc = s.tdc := rfl
@[simp] theorem State.setBit_wf (s : State) (a i : Nat) (b : Bool) : (s.setBit a i b).wf = s.wf := rfl
@[simp] theorem State.setBit_fed (s : State) (a i : Nat) (b : Bool) : (s.setBit a i b).fed = s.fed := rfl
@[simp] theorem State.setBit_cda (s : State) (a i : Nat) (b : Bool) : (s.setBit a i b).cda = s.cda := rfl
@[simp] theorem State.setBit_cdb (s : State) (a i : Nat) (b : Bool) : (s.setBit a i b).cdb = s.cdb := rfl
@[simp] theorem State.setBit_ring (s : State) (a i : Nat) (b : Bool) : (s.setBit a i b).ring = s.ring := rfl
@[simp] theorem State.setBit_tb (s : State) (a i : Nat) (b : Bool) : (s.setBit a i b).tb = s.tb := rfl
@[simp] theorem State.setBit_lanes (s : State) (a i : Nat) (b : Bool) : (s.setBit a i b).lanes = s.lanes := rfl
@[simp] theorem State.setBit_ulp (s : State) (a i : Nat) (b : Bool) : (s.setBit a i b).ulp = s.ulp := rfl
@[simp] theorem State.setBit_resp (s : State) (a i : Nat) (b : Bool) : (s.setBit a i b).resp = s.resp := rfl
@[simp] theorem State.setBit_pq (s : State) (a i : Nat) (b : Bool) : (s.setBit a i b).pq = s.pq := rfl
@[simp] theorem State.setBit_rd (s : State) (a i : Nat) (b : Bool) : (s.setBit a i b).rd = s.rd := rfl
@[simp] theorem State.setBit_err (s : State) (a i : Nat) (b : Bool) : (s.setBit a i b).err = s.err := rfl
@[simp] theorem State.setBit_lid (s : State) (a i : Nat) (b : Bool) : (s.setBit a i b).lid = s.lid := rfl
@[simp] theorem State.setBit_age (s : State) (a i : Nat) (b : Bool) : (s.setBit a i b).age = s.age := rfl
@[simp] theorem State.setBit_att (s : State) (a i : Nat) (b : Bool) : (s.setBit a i b).att = s.att := rfl
@[simp] theorem State.setBit_mbx (s : State) (a i : Nat) (b : Bool) : (s.setBit a i b).mbx = s.mbx := rfl
@[simp] theorem State.setBit_tap (s : State) (a i : Nat) (b : Bool) : (s.setBit a i b).tap = s.tap := rfl
@[simp] theorem State.setBit_out (s : State) (a i : Nat) (b : Bool) : (s.setBit a i b).out = s.out := rfl
@[simp] theorem State.setBit_free (s : State) (a i : Nat) (b : Bool) : (s.setBit a i b).free = s.free := rfl

/-! ### countAt -/

@[simp] theorem State.countAt_pending (s : State) (k top n : Nat) : (s.countAt k top n).pending = s.pending := rfl
@[simp] theorem State.countAt_sts (s : State) (k top n : Nat) : (s.countAt k top n).sts = s.sts := rfl
@[simp] theorem State.countAt_hk (s : State) (k top n : Nat) : (s.countAt k top n).hk = s.hk := rfl
@[simp] theorem State.countAt_run (s : State) (k top n : Nat) : (s.countAt k top n).run = s.run := rfl
@[simp] theorem State.countAt_nvd (s : State) (k top n : Nat) : (s.countAt k top n).nvd = s.nvd := rfl
@[simp] theorem State.countAt_cal (s : State) (k top n : Nat) : (s.countAt k top n).cal = s.cal := rfl
@[simp] theorem State.countAt_fe (s : State) (k top n : Nat) : (s.countAt k top n).fe = s.fe := rfl
@[simp] theorem State.countAt_tdc (s : State) (k top n : Nat) : (s.countAt k top n).tdc = s.tdc := rfl
@[simp] theorem State.countAt_wf (s : State) (k top n : Nat) : (s.countAt k top n).wf = s.wf := rfl
@[simp] theorem State.countAt_fed (s : State) (k top n : Nat) : (s.countAt k top n).fed = s.fed := rfl
@[simp] theorem State.countAt_cda (s : State) (k top n : Nat) : (s.countAt k top n).cda = s.cda := rfl
@[simp] theorem State.countAt_cdb (s : State) (k top n : Nat) : (s.countAt k top n).cdb = s.cdb := rfl
@[simp] theorem State.countAt_ring (s : State) (k top n : Nat) : (s.countAt k top n).ring = s.ring := rfl
@[simp] theorem State.countAt_tb (s : State) (k top n : Nat) : (s.countAt k top n).tb = s.tb := rfl
@[simp] theorem State.countAt_lanes (s : State) (k top n : Nat) : (s.countAt k top n).lanes = s.lanes := rfl
@[simp] theorem State.countAt_ulp (s : State) (k top n : Nat) : (s.countAt k top n).ulp = s.ulp := rfl
@[simp] theorem State.countAt_resp (s : State) (k top n : Nat) : (s.countAt k top n).resp = s.resp := rfl
@[simp] theorem State.countAt_pq (s : State) (k top n : Nat) : (s.countAt k top n).pq = s.pq := rfl
@[simp] theorem State.countAt_rd (s : State) (k top n : Nat) : (s.countAt k top n).rd = s.rd := rfl
@[simp] theorem State.countAt_err (s : State) (k top n : Nat) : (s.countAt k top n).err = s.err := rfl
@[simp] theorem State.countAt_lid (s : State) (k top n : Nat) : (s.countAt k top n).lid = s.lid := rfl
@[simp] theorem State.countAt_age (s : State) (k top n : Nat) : (s.countAt k top n).age = s.age := rfl
@[simp] theorem State.countAt_att (s : State) (k top n : Nat) : (s.countAt k top n).att = s.att := rfl
@[simp] theorem State.countAt_mbx (s : State) (k top n : Nat) : (s.countAt k top n).mbx = s.mbx := rfl
@[simp] theorem State.countAt_tap (s : State) (k top n : Nat) : (s.countAt k top n).tap = s.tap := rfl
@[simp] theorem State.countAt_out (s : State) (k top n : Nat) : (s.countAt k top n).out = s.out := rfl
@[simp] theorem State.countAt_free (s : State) (k top n : Nat) : (s.countAt k top n).free = s.free := rfl

/-! ### count -/

@[simp] theorem State.count_pending (s : State) (a n : Nat) : (s.count a n).pending = s.pending := rfl
@[simp] theorem State.count_sts (s : State) (a n : Nat) : (s.count a n).sts = s.sts := rfl
@[simp] theorem State.count_hk (s : State) (a n : Nat) : (s.count a n).hk = s.hk := rfl
@[simp] theorem State.count_run (s : State) (a n : Nat) : (s.count a n).run = s.run := rfl
@[simp] theorem State.count_nvd (s : State) (a n : Nat) : (s.count a n).nvd = s.nvd := rfl
@[simp] theorem State.count_cal (s : State) (a n : Nat) : (s.count a n).cal = s.cal := rfl
@[simp] theorem State.count_fe (s : State) (a n : Nat) : (s.count a n).fe = s.fe := rfl
@[simp] theorem State.count_tdc (s : State) (a n : Nat) : (s.count a n).tdc = s.tdc := rfl
@[simp] theorem State.count_wf (s : State) (a n : Nat) : (s.count a n).wf = s.wf := rfl
@[simp] theorem State.count_fed (s : State) (a n : Nat) : (s.count a n).fed = s.fed := rfl
@[simp] theorem State.count_cda (s : State) (a n : Nat) : (s.count a n).cda = s.cda := rfl
@[simp] theorem State.count_cdb (s : State) (a n : Nat) : (s.count a n).cdb = s.cdb := rfl
@[simp] theorem State.count_ring (s : State) (a n : Nat) : (s.count a n).ring = s.ring := rfl
@[simp] theorem State.count_tb (s : State) (a n : Nat) : (s.count a n).tb = s.tb := rfl
@[simp] theorem State.count_lanes (s : State) (a n : Nat) : (s.count a n).lanes = s.lanes := rfl
@[simp] theorem State.count_ulp (s : State) (a n : Nat) : (s.count a n).ulp = s.ulp := rfl
@[simp] theorem State.count_resp (s : State) (a n : Nat) : (s.count a n).resp = s.resp := rfl
@[simp] theorem State.count_pq (s : State) (a n : Nat) : (s.count a n).pq = s.pq := rfl
@[simp] theorem State.count_rd (s : State) (a n : Nat) : (s.count a n).rd = s.rd := rfl
@[simp] theorem State.count_err (s : State) (a n : Nat) : (s.count a n).err = s.err := rfl
@[simp] theorem State.count_lid (s : State) (a n : Nat) : (s.count a n).lid = s.lid := rfl
@[simp] theorem State.count_age (s : State) (a n : Nat) : (s.count a n).age = s.age := rfl
@[simp] theorem State.count_att (s : State) (a n : Nat) : (s.count a n).att = s.att := rfl
@[simp] theorem State.count_mbx (s : State) (a n : Nat) : (s.count a n).mbx = s.mbx := rfl
@[simp] theorem State.count_tap (s : State) (a n : Nat) : (s.count a n).tap = s.tap := rfl
@[simp] theorem State.count_out (s : State) (a n : Nat) : (s.count a n).out = s.out := rfl
@[simp] theorem State.count_free (s : State) (a n : Nat) : (s.count a n).free = s.free := rfl

/-! ### count16 -/

@[simp] theorem State.count16_pending (s : State) (a n : Nat) : (s.count16 a n).pending = s.pending := rfl
@[simp] theorem State.count16_sts (s : State) (a n : Nat) : (s.count16 a n).sts = s.sts := rfl
@[simp] theorem State.count16_hk (s : State) (a n : Nat) : (s.count16 a n).hk = s.hk := rfl
@[simp] theorem State.count16_run (s : State) (a n : Nat) : (s.count16 a n).run = s.run := rfl
@[simp] theorem State.count16_nvd (s : State) (a n : Nat) : (s.count16 a n).nvd = s.nvd := rfl
@[simp] theorem State.count16_cal (s : State) (a n : Nat) : (s.count16 a n).cal = s.cal := rfl
@[simp] theorem State.count16_fe (s : State) (a n : Nat) : (s.count16 a n).fe = s.fe := rfl
@[simp] theorem State.count16_tdc (s : State) (a n : Nat) : (s.count16 a n).tdc = s.tdc := rfl
@[simp] theorem State.count16_wf (s : State) (a n : Nat) : (s.count16 a n).wf = s.wf := rfl
@[simp] theorem State.count16_fed (s : State) (a n : Nat) : (s.count16 a n).fed = s.fed := rfl
@[simp] theorem State.count16_cda (s : State) (a n : Nat) : (s.count16 a n).cda = s.cda := rfl
@[simp] theorem State.count16_cdb (s : State) (a n : Nat) : (s.count16 a n).cdb = s.cdb := rfl
@[simp] theorem State.count16_ring (s : State) (a n : Nat) : (s.count16 a n).ring = s.ring := rfl
@[simp] theorem State.count16_tb (s : State) (a n : Nat) : (s.count16 a n).tb = s.tb := rfl
@[simp] theorem State.count16_lanes (s : State) (a n : Nat) : (s.count16 a n).lanes = s.lanes := rfl
@[simp] theorem State.count16_ulp (s : State) (a n : Nat) : (s.count16 a n).ulp = s.ulp := rfl
@[simp] theorem State.count16_resp (s : State) (a n : Nat) : (s.count16 a n).resp = s.resp := rfl
@[simp] theorem State.count16_pq (s : State) (a n : Nat) : (s.count16 a n).pq = s.pq := rfl
@[simp] theorem State.count16_rd (s : State) (a n : Nat) : (s.count16 a n).rd = s.rd := rfl
@[simp] theorem State.count16_err (s : State) (a n : Nat) : (s.count16 a n).err = s.err := rfl
@[simp] theorem State.count16_lid (s : State) (a n : Nat) : (s.count16 a n).lid = s.lid := rfl
@[simp] theorem State.count16_age (s : State) (a n : Nat) : (s.count16 a n).age = s.age := rfl
@[simp] theorem State.count16_att (s : State) (a n : Nat) : (s.count16 a n).att = s.att := rfl
@[simp] theorem State.count16_mbx (s : State) (a n : Nat) : (s.count16 a n).mbx = s.mbx := rfl
@[simp] theorem State.count16_tap (s : State) (a n : Nat) : (s.count16 a n).tap = s.tap := rfl
@[simp] theorem State.count16_out (s : State) (a n : Nat) : (s.count16 a n).out = s.out := rfl
@[simp] theorem State.count16_free (s : State) (a n : Nat) : (s.count16 a n).free = s.free := rfl

/-! ### countLane -/

@[simp] theorem State.countLane_pending (s : State) (a n k : Nat) : (s.countLane a n k).pending = s.pending := s.countAt_pending (instKey a n) 0xFFFFFFFF k
@[simp] theorem State.countLane_sts (s : State) (a n k : Nat) : (s.countLane a n k).sts = s.sts := s.countAt_sts (instKey a n) 0xFFFFFFFF k
@[simp] theorem State.countLane_hk (s : State) (a n k : Nat) : (s.countLane a n k).hk = s.hk := s.countAt_hk (instKey a n) 0xFFFFFFFF k
@[simp] theorem State.countLane_run (s : State) (a n k : Nat) : (s.countLane a n k).run = s.run := s.countAt_run (instKey a n) 0xFFFFFFFF k
@[simp] theorem State.countLane_nvd (s : State) (a n k : Nat) : (s.countLane a n k).nvd = s.nvd := s.countAt_nvd (instKey a n) 0xFFFFFFFF k
@[simp] theorem State.countLane_cal (s : State) (a n k : Nat) : (s.countLane a n k).cal = s.cal := s.countAt_cal (instKey a n) 0xFFFFFFFF k
@[simp] theorem State.countLane_fe (s : State) (a n k : Nat) : (s.countLane a n k).fe = s.fe := s.countAt_fe (instKey a n) 0xFFFFFFFF k
@[simp] theorem State.countLane_tdc (s : State) (a n k : Nat) : (s.countLane a n k).tdc = s.tdc := s.countAt_tdc (instKey a n) 0xFFFFFFFF k
@[simp] theorem State.countLane_wf (s : State) (a n k : Nat) : (s.countLane a n k).wf = s.wf := s.countAt_wf (instKey a n) 0xFFFFFFFF k
@[simp] theorem State.countLane_fed (s : State) (a n k : Nat) : (s.countLane a n k).fed = s.fed := s.countAt_fed (instKey a n) 0xFFFFFFFF k
@[simp] theorem State.countLane_cda (s : State) (a n k : Nat) : (s.countLane a n k).cda = s.cda := s.countAt_cda (instKey a n) 0xFFFFFFFF k
@[simp] theorem State.countLane_cdb (s : State) (a n k : Nat) : (s.countLane a n k).cdb = s.cdb := s.countAt_cdb (instKey a n) 0xFFFFFFFF k
@[simp] theorem State.countLane_ring (s : State) (a n k : Nat) : (s.countLane a n k).ring = s.ring := s.countAt_ring (instKey a n) 0xFFFFFFFF k
@[simp] theorem State.countLane_tb (s : State) (a n k : Nat) : (s.countLane a n k).tb = s.tb := s.countAt_tb (instKey a n) 0xFFFFFFFF k
@[simp] theorem State.countLane_lanes (s : State) (a n k : Nat) : (s.countLane a n k).lanes = s.lanes := s.countAt_lanes (instKey a n) 0xFFFFFFFF k
@[simp] theorem State.countLane_ulp (s : State) (a n k : Nat) : (s.countLane a n k).ulp = s.ulp := s.countAt_ulp (instKey a n) 0xFFFFFFFF k
@[simp] theorem State.countLane_resp (s : State) (a n k : Nat) : (s.countLane a n k).resp = s.resp := s.countAt_resp (instKey a n) 0xFFFFFFFF k
@[simp] theorem State.countLane_pq (s : State) (a n k : Nat) : (s.countLane a n k).pq = s.pq := s.countAt_pq (instKey a n) 0xFFFFFFFF k
@[simp] theorem State.countLane_rd (s : State) (a n k : Nat) : (s.countLane a n k).rd = s.rd := s.countAt_rd (instKey a n) 0xFFFFFFFF k
@[simp] theorem State.countLane_err (s : State) (a n k : Nat) : (s.countLane a n k).err = s.err := s.countAt_err (instKey a n) 0xFFFFFFFF k
@[simp] theorem State.countLane_lid (s : State) (a n k : Nat) : (s.countLane a n k).lid = s.lid := s.countAt_lid (instKey a n) 0xFFFFFFFF k
@[simp] theorem State.countLane_age (s : State) (a n k : Nat) : (s.countLane a n k).age = s.age := s.countAt_age (instKey a n) 0xFFFFFFFF k
@[simp] theorem State.countLane_att (s : State) (a n k : Nat) : (s.countLane a n k).att = s.att := s.countAt_att (instKey a n) 0xFFFFFFFF k
@[simp] theorem State.countLane_mbx (s : State) (a n k : Nat) : (s.countLane a n k).mbx = s.mbx := s.countAt_mbx (instKey a n) 0xFFFFFFFF k
@[simp] theorem State.countLane_tap (s : State) (a n k : Nat) : (s.countLane a n k).tap = s.tap := s.countAt_tap (instKey a n) 0xFFFFFFFF k
@[simp] theorem State.countLane_out (s : State) (a n k : Nat) : (s.countLane a n k).out = s.out := s.countAt_out (instKey a n) 0xFFFFFFFF k
@[simp] theorem State.countLane_free (s : State) (a n k : Nat) : (s.countLane a n k).free = s.free := s.countAt_free (instKey a n) 0xFFFFFFFF k

/-! ### setEff -/

@[simp] theorem State.setEff_pending (s : State) (a : Nat) (v : W32) : (s.setEff a v).pending = s.pending := s.setRegAt_pending (effKey a) v
@[simp] theorem State.setEff_sts (s : State) (a : Nat) (v : W32) : (s.setEff a v).sts = s.sts := s.setRegAt_sts (effKey a) v
@[simp] theorem State.setEff_hk (s : State) (a : Nat) (v : W32) : (s.setEff a v).hk = s.hk := s.setRegAt_hk (effKey a) v
@[simp] theorem State.setEff_run (s : State) (a : Nat) (v : W32) : (s.setEff a v).run = s.run := s.setRegAt_run (effKey a) v
@[simp] theorem State.setEff_nvd (s : State) (a : Nat) (v : W32) : (s.setEff a v).nvd = s.nvd := s.setRegAt_nvd (effKey a) v
@[simp] theorem State.setEff_cal (s : State) (a : Nat) (v : W32) : (s.setEff a v).cal = s.cal := s.setRegAt_cal (effKey a) v
@[simp] theorem State.setEff_fe (s : State) (a : Nat) (v : W32) : (s.setEff a v).fe = s.fe := s.setRegAt_fe (effKey a) v
@[simp] theorem State.setEff_tdc (s : State) (a : Nat) (v : W32) : (s.setEff a v).tdc = s.tdc := s.setRegAt_tdc (effKey a) v
@[simp] theorem State.setEff_wf (s : State) (a : Nat) (v : W32) : (s.setEff a v).wf = s.wf := s.setRegAt_wf (effKey a) v
@[simp] theorem State.setEff_fed (s : State) (a : Nat) (v : W32) : (s.setEff a v).fed = s.fed := s.setRegAt_fed (effKey a) v
@[simp] theorem State.setEff_cda (s : State) (a : Nat) (v : W32) : (s.setEff a v).cda = s.cda := s.setRegAt_cda (effKey a) v
@[simp] theorem State.setEff_cdb (s : State) (a : Nat) (v : W32) : (s.setEff a v).cdb = s.cdb := s.setRegAt_cdb (effKey a) v
@[simp] theorem State.setEff_ring (s : State) (a : Nat) (v : W32) : (s.setEff a v).ring = s.ring := s.setRegAt_ring (effKey a) v
@[simp] theorem State.setEff_tb (s : State) (a : Nat) (v : W32) : (s.setEff a v).tb = s.tb := s.setRegAt_tb (effKey a) v
@[simp] theorem State.setEff_lanes (s : State) (a : Nat) (v : W32) : (s.setEff a v).lanes = s.lanes := s.setRegAt_lanes (effKey a) v
@[simp] theorem State.setEff_ulp (s : State) (a : Nat) (v : W32) : (s.setEff a v).ulp = s.ulp := s.setRegAt_ulp (effKey a) v
@[simp] theorem State.setEff_resp (s : State) (a : Nat) (v : W32) : (s.setEff a v).resp = s.resp := s.setRegAt_resp (effKey a) v
@[simp] theorem State.setEff_pq (s : State) (a : Nat) (v : W32) : (s.setEff a v).pq = s.pq := s.setRegAt_pq (effKey a) v
@[simp] theorem State.setEff_rd (s : State) (a : Nat) (v : W32) : (s.setEff a v).rd = s.rd := s.setRegAt_rd (effKey a) v
@[simp] theorem State.setEff_err (s : State) (a : Nat) (v : W32) : (s.setEff a v).err = s.err := s.setRegAt_err (effKey a) v
@[simp] theorem State.setEff_lid (s : State) (a : Nat) (v : W32) : (s.setEff a v).lid = s.lid := s.setRegAt_lid (effKey a) v
@[simp] theorem State.setEff_age (s : State) (a : Nat) (v : W32) : (s.setEff a v).age = s.age := s.setRegAt_age (effKey a) v
@[simp] theorem State.setEff_att (s : State) (a : Nat) (v : W32) : (s.setEff a v).att = s.att := s.setRegAt_att (effKey a) v
@[simp] theorem State.setEff_mbx (s : State) (a : Nat) (v : W32) : (s.setEff a v).mbx = s.mbx := s.setRegAt_mbx (effKey a) v
@[simp] theorem State.setEff_tap (s : State) (a : Nat) (v : W32) : (s.setEff a v).tap = s.tap := s.setRegAt_tap (effKey a) v
@[simp] theorem State.setEff_out (s : State) (a : Nat) (v : W32) : (s.setEff a v).out = s.out := s.setRegAt_out (effKey a) v
@[simp] theorem State.setEff_free (s : State) (a : Nat) (v : W32) : (s.setEff a v).free = s.free := s.setRegAt_free (effKey a) v

/-! ### storeFields -/

@[simp] theorem State.storeFields_pending (s : State) (k : Nat) (v : W32) : (s.storeFields k v).pending = s.pending := rfl
@[simp] theorem State.storeFields_sts (s : State) (k : Nat) (v : W32) : (s.storeFields k v).sts = s.sts := rfl
@[simp] theorem State.storeFields_hk (s : State) (k : Nat) (v : W32) : (s.storeFields k v).hk = s.hk := rfl
@[simp] theorem State.storeFields_run (s : State) (k : Nat) (v : W32) : (s.storeFields k v).run = s.run := rfl
@[simp] theorem State.storeFields_nvd (s : State) (k : Nat) (v : W32) : (s.storeFields k v).nvd = s.nvd := rfl
@[simp] theorem State.storeFields_cal (s : State) (k : Nat) (v : W32) : (s.storeFields k v).cal = s.cal := rfl
@[simp] theorem State.storeFields_fe (s : State) (k : Nat) (v : W32) : (s.storeFields k v).fe = s.fe := rfl
@[simp] theorem State.storeFields_tdc (s : State) (k : Nat) (v : W32) : (s.storeFields k v).tdc = s.tdc := rfl
@[simp] theorem State.storeFields_wf (s : State) (k : Nat) (v : W32) : (s.storeFields k v).wf = s.wf := rfl
@[simp] theorem State.storeFields_fed (s : State) (k : Nat) (v : W32) : (s.storeFields k v).fed = s.fed := rfl
@[simp] theorem State.storeFields_cda (s : State) (k : Nat) (v : W32) : (s.storeFields k v).cda = s.cda := rfl
@[simp] theorem State.storeFields_cdb (s : State) (k : Nat) (v : W32) : (s.storeFields k v).cdb = s.cdb := rfl
@[simp] theorem State.storeFields_ring (s : State) (k : Nat) (v : W32) : (s.storeFields k v).ring = s.ring := rfl
@[simp] theorem State.storeFields_tb (s : State) (k : Nat) (v : W32) : (s.storeFields k v).tb = s.tb := rfl
@[simp] theorem State.storeFields_lanes (s : State) (k : Nat) (v : W32) : (s.storeFields k v).lanes = s.lanes := rfl
@[simp] theorem State.storeFields_ulp (s : State) (k : Nat) (v : W32) : (s.storeFields k v).ulp = s.ulp := rfl
@[simp] theorem State.storeFields_resp (s : State) (k : Nat) (v : W32) : (s.storeFields k v).resp = s.resp := rfl
@[simp] theorem State.storeFields_pq (s : State) (k : Nat) (v : W32) : (s.storeFields k v).pq = s.pq := rfl
@[simp] theorem State.storeFields_rd (s : State) (k : Nat) (v : W32) : (s.storeFields k v).rd = s.rd := rfl
@[simp] theorem State.storeFields_err (s : State) (k : Nat) (v : W32) : (s.storeFields k v).err = s.err := rfl
@[simp] theorem State.storeFields_lid (s : State) (k : Nat) (v : W32) : (s.storeFields k v).lid = s.lid := rfl
@[simp] theorem State.storeFields_age (s : State) (k : Nat) (v : W32) : (s.storeFields k v).age = s.age := rfl
@[simp] theorem State.storeFields_att (s : State) (k : Nat) (v : W32) : (s.storeFields k v).att = s.att := rfl
@[simp] theorem State.storeFields_mbx (s : State) (k : Nat) (v : W32) : (s.storeFields k v).mbx = s.mbx := rfl
@[simp] theorem State.storeFields_tap (s : State) (k : Nat) (v : W32) : (s.storeFields k v).tap = s.tap := rfl
@[simp] theorem State.storeFields_out (s : State) (k : Nat) (v : W32) : (s.storeFields k v).out = s.out := rfl
@[simp] theorem State.storeFields_free (s : State) (k : Nat) (v : W32) : (s.storeFields k v).free = s.free := rfl

/-! ### resetRegs -/

@[simp] theorem State.resetRegs_pending (s : State) (p : Nat → Bool) : (s.resetRegs p).pending = s.pending := rfl
@[simp] theorem State.resetRegs_hk (s : State) (p : Nat → Bool) : (s.resetRegs p).hk = s.hk := rfl
@[simp] theorem State.resetRegs_run (s : State) (p : Nat → Bool) : (s.resetRegs p).run = s.run := rfl
@[simp] theorem State.resetRegs_nvd (s : State) (p : Nat → Bool) : (s.resetRegs p).nvd = s.nvd := rfl
@[simp] theorem State.resetRegs_cal (s : State) (p : Nat → Bool) : (s.resetRegs p).cal = s.cal := rfl
@[simp] theorem State.resetRegs_fe (s : State) (p : Nat → Bool) : (s.resetRegs p).fe = s.fe := rfl
@[simp] theorem State.resetRegs_tdc (s : State) (p : Nat → Bool) : (s.resetRegs p).tdc = s.tdc := rfl
@[simp] theorem State.resetRegs_wf (s : State) (p : Nat → Bool) : (s.resetRegs p).wf = s.wf := rfl
@[simp] theorem State.resetRegs_fed (s : State) (p : Nat → Bool) : (s.resetRegs p).fed = s.fed := rfl
@[simp] theorem State.resetRegs_cda (s : State) (p : Nat → Bool) : (s.resetRegs p).cda = s.cda := rfl
@[simp] theorem State.resetRegs_cdb (s : State) (p : Nat → Bool) : (s.resetRegs p).cdb = s.cdb := rfl
@[simp] theorem State.resetRegs_ring (s : State) (p : Nat → Bool) : (s.resetRegs p).ring = s.ring := rfl
@[simp] theorem State.resetRegs_tb (s : State) (p : Nat → Bool) : (s.resetRegs p).tb = s.tb := rfl
@[simp] theorem State.resetRegs_lanes (s : State) (p : Nat → Bool) : (s.resetRegs p).lanes = s.lanes := rfl
@[simp] theorem State.resetRegs_ulp (s : State) (p : Nat → Bool) : (s.resetRegs p).ulp = s.ulp := rfl
@[simp] theorem State.resetRegs_resp (s : State) (p : Nat → Bool) : (s.resetRegs p).resp = s.resp := rfl
@[simp] theorem State.resetRegs_pq (s : State) (p : Nat → Bool) : (s.resetRegs p).pq = s.pq := rfl
@[simp] theorem State.resetRegs_rd (s : State) (p : Nat → Bool) : (s.resetRegs p).rd = s.rd := rfl
@[simp] theorem State.resetRegs_err (s : State) (p : Nat → Bool) : (s.resetRegs p).err = s.err := rfl
@[simp] theorem State.resetRegs_lid (s : State) (p : Nat → Bool) : (s.resetRegs p).lid = s.lid := rfl
@[simp] theorem State.resetRegs_age (s : State) (p : Nat → Bool) : (s.resetRegs p).age = s.age := rfl
@[simp] theorem State.resetRegs_att (s : State) (p : Nat → Bool) : (s.resetRegs p).att = s.att := rfl
@[simp] theorem State.resetRegs_mbx (s : State) (p : Nat → Bool) : (s.resetRegs p).mbx = s.mbx := rfl
@[simp] theorem State.resetRegs_tap (s : State) (p : Nat → Bool) : (s.resetRegs p).tap = s.tap := rfl
@[simp] theorem State.resetRegs_out (s : State) (p : Nat → Bool) : (s.resetRegs p).out = s.out := rfl
@[simp] theorem State.resetRegs_free (s : State) (p : Nat → Bool) : (s.resetRegs p).free = s.free := rfl

/-! ### eventAt -/

@[simp] theorem State.eventAt_pending (s : State) (k : Nat) (bs : List Nat) : (s.eventAt k bs).pending = s.pending := rfl
@[simp] theorem State.eventAt_regs (s : State) (k : Nat) (bs : List Nat) : (s.eventAt k bs).regs = s.regs := rfl
@[simp] theorem State.eventAt_hk (s : State) (k : Nat) (bs : List Nat) : (s.eventAt k bs).hk = s.hk := rfl
@[simp] theorem State.eventAt_run (s : State) (k : Nat) (bs : List Nat) : (s.eventAt k bs).run = s.run := rfl
@[simp] theorem State.eventAt_nvd (s : State) (k : Nat) (bs : List Nat) : (s.eventAt k bs).nvd = s.nvd := rfl
@[simp] theorem State.eventAt_cal (s : State) (k : Nat) (bs : List Nat) : (s.eventAt k bs).cal = s.cal := rfl
@[simp] theorem State.eventAt_fe (s : State) (k : Nat) (bs : List Nat) : (s.eventAt k bs).fe = s.fe := rfl
@[simp] theorem State.eventAt_tdc (s : State) (k : Nat) (bs : List Nat) : (s.eventAt k bs).tdc = s.tdc := rfl
@[simp] theorem State.eventAt_wf (s : State) (k : Nat) (bs : List Nat) : (s.eventAt k bs).wf = s.wf := rfl
@[simp] theorem State.eventAt_fed (s : State) (k : Nat) (bs : List Nat) : (s.eventAt k bs).fed = s.fed := rfl
@[simp] theorem State.eventAt_cda (s : State) (k : Nat) (bs : List Nat) : (s.eventAt k bs).cda = s.cda := rfl
@[simp] theorem State.eventAt_cdb (s : State) (k : Nat) (bs : List Nat) : (s.eventAt k bs).cdb = s.cdb := rfl
@[simp] theorem State.eventAt_ring (s : State) (k : Nat) (bs : List Nat) : (s.eventAt k bs).ring = s.ring := rfl
@[simp] theorem State.eventAt_tb (s : State) (k : Nat) (bs : List Nat) : (s.eventAt k bs).tb = s.tb := rfl
@[simp] theorem State.eventAt_lanes (s : State) (k : Nat) (bs : List Nat) : (s.eventAt k bs).lanes = s.lanes := rfl
@[simp] theorem State.eventAt_ulp (s : State) (k : Nat) (bs : List Nat) : (s.eventAt k bs).ulp = s.ulp := rfl
@[simp] theorem State.eventAt_resp (s : State) (k : Nat) (bs : List Nat) : (s.eventAt k bs).resp = s.resp := rfl
@[simp] theorem State.eventAt_pq (s : State) (k : Nat) (bs : List Nat) : (s.eventAt k bs).pq = s.pq := rfl
@[simp] theorem State.eventAt_rd (s : State) (k : Nat) (bs : List Nat) : (s.eventAt k bs).rd = s.rd := rfl
@[simp] theorem State.eventAt_err (s : State) (k : Nat) (bs : List Nat) : (s.eventAt k bs).err = s.err := rfl
@[simp] theorem State.eventAt_lid (s : State) (k : Nat) (bs : List Nat) : (s.eventAt k bs).lid = s.lid := rfl
@[simp] theorem State.eventAt_age (s : State) (k : Nat) (bs : List Nat) : (s.eventAt k bs).age = s.age := rfl
@[simp] theorem State.eventAt_att (s : State) (k : Nat) (bs : List Nat) : (s.eventAt k bs).att = s.att := rfl
@[simp] theorem State.eventAt_mbx (s : State) (k : Nat) (bs : List Nat) : (s.eventAt k bs).mbx = s.mbx := rfl
@[simp] theorem State.eventAt_tap (s : State) (k : Nat) (bs : List Nat) : (s.eventAt k bs).tap = s.tap := rfl
@[simp] theorem State.eventAt_out (s : State) (k : Nat) (bs : List Nat) : (s.eventAt k bs).out = s.out := rfl
@[simp] theorem State.eventAt_free (s : State) (k : Nat) (bs : List Nat) : (s.eventAt k bs).free = s.free := rfl

/-! ### event -/

@[simp] theorem State.event_pending (s : State) (a : Nat) (bs : List Nat) : (s.event a bs).pending = s.pending := rfl
@[simp] theorem State.event_regs (s : State) (a : Nat) (bs : List Nat) : (s.event a bs).regs = s.regs := rfl
@[simp] theorem State.event_hk (s : State) (a : Nat) (bs : List Nat) : (s.event a bs).hk = s.hk := rfl
@[simp] theorem State.event_run (s : State) (a : Nat) (bs : List Nat) : (s.event a bs).run = s.run := rfl
@[simp] theorem State.event_nvd (s : State) (a : Nat) (bs : List Nat) : (s.event a bs).nvd = s.nvd := rfl
@[simp] theorem State.event_cal (s : State) (a : Nat) (bs : List Nat) : (s.event a bs).cal = s.cal := rfl
@[simp] theorem State.event_fe (s : State) (a : Nat) (bs : List Nat) : (s.event a bs).fe = s.fe := rfl
@[simp] theorem State.event_tdc (s : State) (a : Nat) (bs : List Nat) : (s.event a bs).tdc = s.tdc := rfl
@[simp] theorem State.event_wf (s : State) (a : Nat) (bs : List Nat) : (s.event a bs).wf = s.wf := rfl
@[simp] theorem State.event_fed (s : State) (a : Nat) (bs : List Nat) : (s.event a bs).fed = s.fed := rfl
@[simp] theorem State.event_cda (s : State) (a : Nat) (bs : List Nat) : (s.event a bs).cda = s.cda := rfl
@[simp] theorem State.event_cdb (s : State) (a : Nat) (bs : List Nat) : (s.event a bs).cdb = s.cdb := rfl
@[simp] theorem State.event_ring (s : State) (a : Nat) (bs : List Nat) : (s.event a bs).ring = s.ring := rfl
@[simp] theorem State.event_tb (s : State) (a : Nat) (bs : List Nat) : (s.event a bs).tb = s.tb := rfl
@[simp] theorem State.event_lanes (s : State) (a : Nat) (bs : List Nat) : (s.event a bs).lanes = s.lanes := rfl
@[simp] theorem State.event_ulp (s : State) (a : Nat) (bs : List Nat) : (s.event a bs).ulp = s.ulp := rfl
@[simp] theorem State.event_resp (s : State) (a : Nat) (bs : List Nat) : (s.event a bs).resp = s.resp := rfl
@[simp] theorem State.event_pq (s : State) (a : Nat) (bs : List Nat) : (s.event a bs).pq = s.pq := rfl
@[simp] theorem State.event_rd (s : State) (a : Nat) (bs : List Nat) : (s.event a bs).rd = s.rd := rfl
@[simp] theorem State.event_err (s : State) (a : Nat) (bs : List Nat) : (s.event a bs).err = s.err := rfl
@[simp] theorem State.event_lid (s : State) (a : Nat) (bs : List Nat) : (s.event a bs).lid = s.lid := rfl
@[simp] theorem State.event_age (s : State) (a : Nat) (bs : List Nat) : (s.event a bs).age = s.age := rfl
@[simp] theorem State.event_att (s : State) (a : Nat) (bs : List Nat) : (s.event a bs).att = s.att := rfl
@[simp] theorem State.event_mbx (s : State) (a : Nat) (bs : List Nat) : (s.event a bs).mbx = s.mbx := rfl
@[simp] theorem State.event_tap (s : State) (a : Nat) (bs : List Nat) : (s.event a bs).tap = s.tap := rfl
@[simp] theorem State.event_out (s : State) (a : Nat) (bs : List Nat) : (s.event a bs).out = s.out := rfl
@[simp] theorem State.event_free (s : State) (a : Nat) (bs : List Nat) : (s.event a bs).free = s.free := rfl

/-! ### eventIf -/

@[simp] theorem State.eventIf_pending (s : State) (c : Bool) (a : Nat) (bs : List Nat) : (s.eventIf c a bs).pending = s.pending := by unfold State.eventIf; split <;> rfl
@[simp] theorem State.eventIf_regs (s : State) (c : Bool) (a : Nat) (bs : List Nat) : (s.eventIf c a bs).regs = s.regs := by unfold State.eventIf; split <;> rfl
@[simp] theorem State.eventIf_hk (s : State) (c : Bool) (a : Nat) (bs : List Nat) : (s.eventIf c a bs).hk = s.hk := by unfold State.eventIf; split <;> rfl
@[simp] theorem State.eventIf_run (s : State) (c : Bool) (a : Nat) (bs : List Nat) : (s.eventIf c a bs).run = s.run := by unfold State.eventIf; split <;> rfl
@[simp] theorem State.eventIf_nvd (s : State) (c : Bool) (a : Nat) (bs : List Nat) : (s.eventIf c a bs).nvd = s.nvd := by unfold State.eventIf; split <;> rfl
@[simp] theorem State.eventIf_cal (s : State) (c : Bool) (a : Nat) (bs : List Nat) : (s.eventIf c a bs).cal = s.cal := by unfold State.eventIf; split <;> rfl
@[simp] theorem State.eventIf_fe (s : State) (c : Bool) (a : Nat) (bs : List Nat) : (s.eventIf c a bs).fe = s.fe := by unfold State.eventIf; split <;> rfl
@[simp] theorem State.eventIf_tdc (s : State) (c : Bool) (a : Nat) (bs : List Nat) : (s.eventIf c a bs).tdc = s.tdc := by unfold State.eventIf; split <;> rfl
@[simp] theorem State.eventIf_wf (s : State) (c : Bool) (a : Nat) (bs : List Nat) : (s.eventIf c a bs).wf = s.wf := by unfold State.eventIf; split <;> rfl
@[simp] theorem State.eventIf_fed (s : State) (c : Bool) (a : Nat) (bs : List Nat) : (s.eventIf c a bs).fed = s.fed := by unfold State.eventIf; split <;> rfl
@[simp] theorem State.eventIf_cda (s : State) (c : Bool) (a : Nat) (bs : List Nat) : (s.eventIf c a bs).cda = s.cda := by unfold State.eventIf; split <;> rfl
@[simp] theorem State.eventIf_cdb (s : State) (c : Bool) (a : Nat) (bs : List Nat) : (s.eventIf c a bs).cdb = s.cdb := by unfold State.eventIf; split <;> rfl
@[simp] theorem State.eventIf_ring (s : State) (c : Bool) (a : Nat) (bs : List Nat) : (s.eventIf c a bs).ring = s.ring := by unfold State.eventIf; split <;> rfl
@[simp] theorem State.eventIf_tb (s : State) (c : Bool) (a : Nat) (bs : List Nat) : (s.eventIf c a bs).tb = s.tb := by unfold State.eventIf; split <;> rfl
@[simp] theorem State.eventIf_lanes (s : State) (c : Bool) (a : Nat) (bs : List Nat) : (s.eventIf c a bs).lanes = s.lanes := by unfold State.eventIf; split <;> rfl
@[simp] theorem State.eventIf_ulp (s : State) (c : Bool) (a : Nat) (bs : List Nat) : (s.eventIf c a bs).ulp = s.ulp := by unfold State.eventIf; split <;> rfl
@[simp] theorem State.eventIf_resp (s : State) (c : Bool) (a : Nat) (bs : List Nat) : (s.eventIf c a bs).resp = s.resp := by unfold State.eventIf; split <;> rfl
@[simp] theorem State.eventIf_pq (s : State) (c : Bool) (a : Nat) (bs : List Nat) : (s.eventIf c a bs).pq = s.pq := by unfold State.eventIf; split <;> rfl
@[simp] theorem State.eventIf_rd (s : State) (c : Bool) (a : Nat) (bs : List Nat) : (s.eventIf c a bs).rd = s.rd := by unfold State.eventIf; split <;> rfl
@[simp] theorem State.eventIf_err (s : State) (c : Bool) (a : Nat) (bs : List Nat) : (s.eventIf c a bs).err = s.err := by unfold State.eventIf; split <;> rfl
@[simp] theorem State.eventIf_lid (s : State) (c : Bool) (a : Nat) (bs : List Nat) : (s.eventIf c a bs).lid = s.lid := by unfold State.eventIf; split <;> rfl
@[simp] theorem State.eventIf_age (s : State) (c : Bool) (a : Nat) (bs : List Nat) : (s.eventIf c a bs).age = s.age := by unfold State.eventIf; split <;> rfl
@[simp] theorem State.eventIf_att (s : State) (c : Bool) (a : Nat) (bs : List Nat) : (s.eventIf c a bs).att = s.att := by unfold State.eventIf; split <;> rfl
@[simp] theorem State.eventIf_mbx (s : State) (c : Bool) (a : Nat) (bs : List Nat) : (s.eventIf c a bs).mbx = s.mbx := by unfold State.eventIf; split <;> rfl
@[simp] theorem State.eventIf_tap (s : State) (c : Bool) (a : Nat) (bs : List Nat) : (s.eventIf c a bs).tap = s.tap := by unfold State.eventIf; split <;> rfl
@[simp] theorem State.eventIf_out (s : State) (c : Bool) (a : Nat) (bs : List Nat) : (s.eventIf c a bs).out = s.out := by unfold State.eventIf; split <;> rfl
@[simp] theorem State.eventIf_free (s : State) (c : Bool) (a : Nat) (bs : List Nat) : (s.eventIf c a bs).free = s.free := by unfold State.eventIf; split <;> rfl

/-! ### setLane -/

@[simp] theorem State.setLane_pending (s : State) (n : Nat) (l : LaneSt) : (s.setLane n l).pending = s.pending := rfl
@[simp] theorem State.setLane_regs (s : State) (n : Nat) (l : LaneSt) : (s.setLane n l).regs = s.regs := rfl
@[simp] theorem State.setLane_sts (s : State) (n : Nat) (l : LaneSt) : (s.setLane n l).sts = s.sts := rfl
@[simp] theorem State.setLane_hk (s : State) (n : Nat) (l : LaneSt) : (s.setLane n l).hk = s.hk := rfl
@[simp] theorem State.setLane_run (s : State) (n : Nat) (l : LaneSt) : (s.setLane n l).run = s.run := rfl
@[simp] theorem State.setLane_nvd (s : State) (n : Nat) (l : LaneSt) : (s.setLane n l).nvd = s.nvd := rfl
@[simp] theorem State.setLane_cal (s : State) (n : Nat) (l : LaneSt) : (s.setLane n l).cal = s.cal := rfl
@[simp] theorem State.setLane_fe (s : State) (n : Nat) (l : LaneSt) : (s.setLane n l).fe = s.fe := rfl
@[simp] theorem State.setLane_tdc (s : State) (n : Nat) (l : LaneSt) : (s.setLane n l).tdc = s.tdc := rfl
@[simp] theorem State.setLane_wf (s : State) (n : Nat) (l : LaneSt) : (s.setLane n l).wf = s.wf := rfl
@[simp] theorem State.setLane_fed (s : State) (n : Nat) (l : LaneSt) : (s.setLane n l).fed = s.fed := rfl
@[simp] theorem State.setLane_cda (s : State) (n : Nat) (l : LaneSt) : (s.setLane n l).cda = s.cda := rfl
@[simp] theorem State.setLane_cdb (s : State) (n : Nat) (l : LaneSt) : (s.setLane n l).cdb = s.cdb := rfl
@[simp] theorem State.setLane_ring (s : State) (n : Nat) (l : LaneSt) : (s.setLane n l).ring = s.ring := rfl
@[simp] theorem State.setLane_tb (s : State) (n : Nat) (l : LaneSt) : (s.setLane n l).tb = s.tb := rfl
@[simp] theorem State.setLane_ulp (s : State) (n : Nat) (l : LaneSt) : (s.setLane n l).ulp = s.ulp := rfl
@[simp] theorem State.setLane_resp (s : State) (n : Nat) (l : LaneSt) : (s.setLane n l).resp = s.resp := rfl
@[simp] theorem State.setLane_pq (s : State) (n : Nat) (l : LaneSt) : (s.setLane n l).pq = s.pq := rfl
@[simp] theorem State.setLane_rd (s : State) (n : Nat) (l : LaneSt) : (s.setLane n l).rd = s.rd := rfl
@[simp] theorem State.setLane_err (s : State) (n : Nat) (l : LaneSt) : (s.setLane n l).err = s.err := rfl
@[simp] theorem State.setLane_lid (s : State) (n : Nat) (l : LaneSt) : (s.setLane n l).lid = s.lid := rfl
@[simp] theorem State.setLane_age (s : State) (n : Nat) (l : LaneSt) : (s.setLane n l).age = s.age := rfl
@[simp] theorem State.setLane_att (s : State) (n : Nat) (l : LaneSt) : (s.setLane n l).att = s.att := rfl
@[simp] theorem State.setLane_mbx (s : State) (n : Nat) (l : LaneSt) : (s.setLane n l).mbx = s.mbx := rfl
@[simp] theorem State.setLane_tap (s : State) (n : Nat) (l : LaneSt) : (s.setLane n l).tap = s.tap := rfl
@[simp] theorem State.setLane_out (s : State) (n : Nat) (l : LaneSt) : (s.setLane n l).out = s.out := rfl
@[simp] theorem State.setLane_free (s : State) (n : Nat) (l : LaneSt) : (s.setLane n l).free = s.free := rfl

/-! ### setGroup -/

@[simp] theorem State.setGroup_pending (s : State) (g : Nat) (x : GroupSt) : (s.setGroup g x).pending = s.pending := rfl
@[simp] theorem State.setGroup_regs (s : State) (g : Nat) (x : GroupSt) : (s.setGroup g x).regs = s.regs := rfl
@[simp] theorem State.setGroup_sts (s : State) (g : Nat) (x : GroupSt) : (s.setGroup g x).sts = s.sts := rfl
@[simp] theorem State.setGroup_hk (s : State) (g : Nat) (x : GroupSt) : (s.setGroup g x).hk = s.hk := rfl
@[simp] theorem State.setGroup_run (s : State) (g : Nat) (x : GroupSt) : (s.setGroup g x).run = s.run := rfl
@[simp] theorem State.setGroup_nvd (s : State) (g : Nat) (x : GroupSt) : (s.setGroup g x).nvd = s.nvd := rfl
@[simp] theorem State.setGroup_cal (s : State) (g : Nat) (x : GroupSt) : (s.setGroup g x).cal = s.cal := rfl
@[simp] theorem State.setGroup_fe (s : State) (g : Nat) (x : GroupSt) : (s.setGroup g x).fe = s.fe := rfl
@[simp] theorem State.setGroup_tdc (s : State) (g : Nat) (x : GroupSt) : (s.setGroup g x).tdc = s.tdc := rfl
@[simp] theorem State.setGroup_wf (s : State) (g : Nat) (x : GroupSt) : (s.setGroup g x).wf = s.wf := rfl
@[simp] theorem State.setGroup_cda (s : State) (g : Nat) (x : GroupSt) : (s.setGroup g x).cda = s.cda := rfl
@[simp] theorem State.setGroup_cdb (s : State) (g : Nat) (x : GroupSt) : (s.setGroup g x).cdb = s.cdb := rfl
@[simp] theorem State.setGroup_ring (s : State) (g : Nat) (x : GroupSt) : (s.setGroup g x).ring = s.ring := rfl
@[simp] theorem State.setGroup_tb (s : State) (g : Nat) (x : GroupSt) : (s.setGroup g x).tb = s.tb := rfl
@[simp] theorem State.setGroup_lanes (s : State) (g : Nat) (x : GroupSt) : (s.setGroup g x).lanes = s.lanes := rfl
@[simp] theorem State.setGroup_ulp (s : State) (g : Nat) (x : GroupSt) : (s.setGroup g x).ulp = s.ulp := rfl
@[simp] theorem State.setGroup_resp (s : State) (g : Nat) (x : GroupSt) : (s.setGroup g x).resp = s.resp := rfl
@[simp] theorem State.setGroup_pq (s : State) (g : Nat) (x : GroupSt) : (s.setGroup g x).pq = s.pq := rfl
@[simp] theorem State.setGroup_rd (s : State) (g : Nat) (x : GroupSt) : (s.setGroup g x).rd = s.rd := rfl
@[simp] theorem State.setGroup_err (s : State) (g : Nat) (x : GroupSt) : (s.setGroup g x).err = s.err := rfl
@[simp] theorem State.setGroup_lid (s : State) (g : Nat) (x : GroupSt) : (s.setGroup g x).lid = s.lid := rfl
@[simp] theorem State.setGroup_age (s : State) (g : Nat) (x : GroupSt) : (s.setGroup g x).age = s.age := rfl
@[simp] theorem State.setGroup_att (s : State) (g : Nat) (x : GroupSt) : (s.setGroup g x).att = s.att := rfl
@[simp] theorem State.setGroup_mbx (s : State) (g : Nat) (x : GroupSt) : (s.setGroup g x).mbx = s.mbx := rfl
@[simp] theorem State.setGroup_tap (s : State) (g : Nat) (x : GroupSt) : (s.setGroup g x).tap = s.tap := rfl
@[simp] theorem State.setGroup_out (s : State) (g : Nat) (x : GroupSt) : (s.setGroup g x).out = s.out := rfl
@[simp] theorem State.setGroup_free (s : State) (g : Nat) (x : GroupSt) : (s.setGroup g x).free = s.free := rfl

/-! ### setPulse -/

@[simp] theorem State.setPulse_pending (s : State) (c : Nat) (p : Pulse) : (s.setPulse c p).pending = s.pending := rfl
@[simp] theorem State.setPulse_regs (s : State) (c : Nat) (p : Pulse) : (s.setPulse c p).regs = s.regs := rfl
@[simp] theorem State.setPulse_sts (s : State) (c : Nat) (p : Pulse) : (s.setPulse c p).sts = s.sts := rfl
@[simp] theorem State.setPulse_hk (s : State) (c : Nat) (p : Pulse) : (s.setPulse c p).hk = s.hk := rfl
@[simp] theorem State.setPulse_run (s : State) (c : Nat) (p : Pulse) : (s.setPulse c p).run = s.run := rfl
@[simp] theorem State.setPulse_nvd (s : State) (c : Nat) (p : Pulse) : (s.setPulse c p).nvd = s.nvd := rfl
@[simp] theorem State.setPulse_cal (s : State) (c : Nat) (p : Pulse) : (s.setPulse c p).cal = s.cal := rfl
@[simp] theorem State.setPulse_fe (s : State) (c : Nat) (p : Pulse) : (s.setPulse c p).fe = s.fe := rfl
@[simp] theorem State.setPulse_wf (s : State) (c : Nat) (p : Pulse) : (s.setPulse c p).wf = s.wf := rfl
@[simp] theorem State.setPulse_fed (s : State) (c : Nat) (p : Pulse) : (s.setPulse c p).fed = s.fed := rfl
@[simp] theorem State.setPulse_cda (s : State) (c : Nat) (p : Pulse) : (s.setPulse c p).cda = s.cda := rfl
@[simp] theorem State.setPulse_cdb (s : State) (c : Nat) (p : Pulse) : (s.setPulse c p).cdb = s.cdb := rfl
@[simp] theorem State.setPulse_ring (s : State) (c : Nat) (p : Pulse) : (s.setPulse c p).ring = s.ring := rfl
@[simp] theorem State.setPulse_tb (s : State) (c : Nat) (p : Pulse) : (s.setPulse c p).tb = s.tb := rfl
@[simp] theorem State.setPulse_lanes (s : State) (c : Nat) (p : Pulse) : (s.setPulse c p).lanes = s.lanes := rfl
@[simp] theorem State.setPulse_ulp (s : State) (c : Nat) (p : Pulse) : (s.setPulse c p).ulp = s.ulp := rfl
@[simp] theorem State.setPulse_resp (s : State) (c : Nat) (p : Pulse) : (s.setPulse c p).resp = s.resp := rfl
@[simp] theorem State.setPulse_pq (s : State) (c : Nat) (p : Pulse) : (s.setPulse c p).pq = s.pq := rfl
@[simp] theorem State.setPulse_rd (s : State) (c : Nat) (p : Pulse) : (s.setPulse c p).rd = s.rd := rfl
@[simp] theorem State.setPulse_err (s : State) (c : Nat) (p : Pulse) : (s.setPulse c p).err = s.err := rfl
@[simp] theorem State.setPulse_lid (s : State) (c : Nat) (p : Pulse) : (s.setPulse c p).lid = s.lid := rfl
@[simp] theorem State.setPulse_age (s : State) (c : Nat) (p : Pulse) : (s.setPulse c p).age = s.age := rfl
@[simp] theorem State.setPulse_att (s : State) (c : Nat) (p : Pulse) : (s.setPulse c p).att = s.att := rfl
@[simp] theorem State.setPulse_mbx (s : State) (c : Nat) (p : Pulse) : (s.setPulse c p).mbx = s.mbx := rfl
@[simp] theorem State.setPulse_tap (s : State) (c : Nat) (p : Pulse) : (s.setPulse c p).tap = s.tap := rfl
@[simp] theorem State.setPulse_out (s : State) (c : Nat) (p : Pulse) : (s.setPulse c p).out = s.out := rfl
@[simp] theorem State.setPulse_free (s : State) (c : Nat) (p : Pulse) : (s.setPulse c p).free = s.free := rfl

/-! ### setCd -/

@[simp] theorem State.setCd_pending (s : State) (c : Cd) : (s.setCd c).pending = s.pending := by unfold State.setCd; split <;> rfl
@[simp] theorem State.setCd_regs (s : State) (c : Cd) : (s.setCd c).regs = s.regs := by unfold State.setCd; split <;> rfl
@[simp] theorem State.setCd_sts (s : State) (c : Cd) : (s.setCd c).sts = s.sts := by unfold State.setCd; split <;> rfl
@[simp] theorem State.setCd_hk (s : State) (c : Cd) : (s.setCd c).hk = s.hk := by unfold State.setCd; split <;> rfl
@[simp] theorem State.setCd_run (s : State) (c : Cd) : (s.setCd c).run = s.run := by unfold State.setCd; split <;> rfl
@[simp] theorem State.setCd_nvd (s : State) (c : Cd) : (s.setCd c).nvd = s.nvd := by unfold State.setCd; split <;> rfl
@[simp] theorem State.setCd_cal (s : State) (c : Cd) : (s.setCd c).cal = s.cal := by unfold State.setCd; split <;> rfl
@[simp] theorem State.setCd_fe (s : State) (c : Cd) : (s.setCd c).fe = s.fe := by unfold State.setCd; split <;> rfl
@[simp] theorem State.setCd_tdc (s : State) (c : Cd) : (s.setCd c).tdc = s.tdc := by unfold State.setCd; split <;> rfl
@[simp] theorem State.setCd_wf (s : State) (c : Cd) : (s.setCd c).wf = s.wf := by unfold State.setCd; split <;> rfl
@[simp] theorem State.setCd_fed (s : State) (c : Cd) : (s.setCd c).fed = s.fed := by unfold State.setCd; split <;> rfl
@[simp] theorem State.setCd_ring (s : State) (c : Cd) : (s.setCd c).ring = s.ring := by unfold State.setCd; split <;> rfl
@[simp] theorem State.setCd_tb (s : State) (c : Cd) : (s.setCd c).tb = s.tb := by unfold State.setCd; split <;> rfl
@[simp] theorem State.setCd_lanes (s : State) (c : Cd) : (s.setCd c).lanes = s.lanes := by unfold State.setCd; split <;> rfl
@[simp] theorem State.setCd_ulp (s : State) (c : Cd) : (s.setCd c).ulp = s.ulp := by unfold State.setCd; split <;> rfl
@[simp] theorem State.setCd_resp (s : State) (c : Cd) : (s.setCd c).resp = s.resp := by unfold State.setCd; split <;> rfl
@[simp] theorem State.setCd_pq (s : State) (c : Cd) : (s.setCd c).pq = s.pq := by unfold State.setCd; split <;> rfl
@[simp] theorem State.setCd_rd (s : State) (c : Cd) : (s.setCd c).rd = s.rd := by unfold State.setCd; split <;> rfl
@[simp] theorem State.setCd_err (s : State) (c : Cd) : (s.setCd c).err = s.err := by unfold State.setCd; split <;> rfl
@[simp] theorem State.setCd_lid (s : State) (c : Cd) : (s.setCd c).lid = s.lid := by unfold State.setCd; split <;> rfl
@[simp] theorem State.setCd_age (s : State) (c : Cd) : (s.setCd c).age = s.age := by unfold State.setCd; split <;> rfl
@[simp] theorem State.setCd_att (s : State) (c : Cd) : (s.setCd c).att = s.att := by unfold State.setCd; split <;> rfl
@[simp] theorem State.setCd_mbx (s : State) (c : Cd) : (s.setCd c).mbx = s.mbx := by unfold State.setCd; split <;> rfl
@[simp] theorem State.setCd_tap (s : State) (c : Cd) : (s.setCd c).tap = s.tap := by unfold State.setCd; split <;> rfl
@[simp] theorem State.setCd_out (s : State) (c : Cd) : (s.setCd c).out = s.out := by unfold State.setCd; split <;> rfl
@[simp] theorem State.setCd_free (s : State) (c : Cd) : (s.setCd c).free = s.free := by unfold State.setCd; split <;> rfl

/-! ### setOther -/

@[simp] theorem State.setOther_pending (s : State) (c : Cd) : (s.setOther c).pending = s.pending := by unfold State.setOther; split <;> rfl
@[simp] theorem State.setOther_regs (s : State) (c : Cd) : (s.setOther c).regs = s.regs := by unfold State.setOther; split <;> rfl
@[simp] theorem State.setOther_sts (s : State) (c : Cd) : (s.setOther c).sts = s.sts := by unfold State.setOther; split <;> rfl
@[simp] theorem State.setOther_hk (s : State) (c : Cd) : (s.setOther c).hk = s.hk := by unfold State.setOther; split <;> rfl
@[simp] theorem State.setOther_run (s : State) (c : Cd) : (s.setOther c).run = s.run := by unfold State.setOther; split <;> rfl
@[simp] theorem State.setOther_nvd (s : State) (c : Cd) : (s.setOther c).nvd = s.nvd := by unfold State.setOther; split <;> rfl
@[simp] theorem State.setOther_cal (s : State) (c : Cd) : (s.setOther c).cal = s.cal := by unfold State.setOther; split <;> rfl
@[simp] theorem State.setOther_fe (s : State) (c : Cd) : (s.setOther c).fe = s.fe := by unfold State.setOther; split <;> rfl
@[simp] theorem State.setOther_tdc (s : State) (c : Cd) : (s.setOther c).tdc = s.tdc := by unfold State.setOther; split <;> rfl
@[simp] theorem State.setOther_wf (s : State) (c : Cd) : (s.setOther c).wf = s.wf := by unfold State.setOther; split <;> rfl
@[simp] theorem State.setOther_fed (s : State) (c : Cd) : (s.setOther c).fed = s.fed := by unfold State.setOther; split <;> rfl
@[simp] theorem State.setOther_ring (s : State) (c : Cd) : (s.setOther c).ring = s.ring := by unfold State.setOther; split <;> rfl
@[simp] theorem State.setOther_tb (s : State) (c : Cd) : (s.setOther c).tb = s.tb := by unfold State.setOther; split <;> rfl
@[simp] theorem State.setOther_lanes (s : State) (c : Cd) : (s.setOther c).lanes = s.lanes := by unfold State.setOther; split <;> rfl
@[simp] theorem State.setOther_ulp (s : State) (c : Cd) : (s.setOther c).ulp = s.ulp := by unfold State.setOther; split <;> rfl
@[simp] theorem State.setOther_resp (s : State) (c : Cd) : (s.setOther c).resp = s.resp := by unfold State.setOther; split <;> rfl
@[simp] theorem State.setOther_pq (s : State) (c : Cd) : (s.setOther c).pq = s.pq := by unfold State.setOther; split <;> rfl
@[simp] theorem State.setOther_rd (s : State) (c : Cd) : (s.setOther c).rd = s.rd := by unfold State.setOther; split <;> rfl
@[simp] theorem State.setOther_err (s : State) (c : Cd) : (s.setOther c).err = s.err := by unfold State.setOther; split <;> rfl
@[simp] theorem State.setOther_lid (s : State) (c : Cd) : (s.setOther c).lid = s.lid := by unfold State.setOther; split <;> rfl
@[simp] theorem State.setOther_age (s : State) (c : Cd) : (s.setOther c).age = s.age := by unfold State.setOther; split <;> rfl
@[simp] theorem State.setOther_att (s : State) (c : Cd) : (s.setOther c).att = s.att := by unfold State.setOther; split <;> rfl
@[simp] theorem State.setOther_mbx (s : State) (c : Cd) : (s.setOther c).mbx = s.mbx := by unfold State.setOther; split <;> rfl
@[simp] theorem State.setOther_tap (s : State) (c : Cd) : (s.setOther c).tap = s.tap := by unfold State.setOther; split <;> rfl
@[simp] theorem State.setOther_out (s : State) (c : Cd) : (s.setOther c).out = s.out := by unfold State.setOther; split <;> rfl
@[simp] theorem State.setOther_free (s : State) (c : Cd) : (s.setOther c).free = s.free := by unfold State.setOther; split <;> rfl

/-! ### respond -/

@[simp] theorem State.respond_pending (s : State) (n : Nat) (r : Resp) : (s.respond n r).pending = s.pending := rfl
@[simp] theorem State.respond_regs (s : State) (n : Nat) (r : Resp) : (s.respond n r).regs = s.regs := rfl
@[simp] theorem State.respond_sts (s : State) (n : Nat) (r : Resp) : (s.respond n r).sts = s.sts := rfl
@[simp] theorem State.respond_hk (s : State) (n : Nat) (r : Resp) : (s.respond n r).hk = s.hk := rfl
@[simp] theorem State.respond_run (s : State) (n : Nat) (r : Resp) : (s.respond n r).run = s.run := rfl
@[simp] theorem State.respond_nvd (s : State) (n : Nat) (r : Resp) : (s.respond n r).nvd = s.nvd := rfl
@[simp] theorem State.respond_cal (s : State) (n : Nat) (r : Resp) : (s.respond n r).cal = s.cal := rfl
@[simp] theorem State.respond_fe (s : State) (n : Nat) (r : Resp) : (s.respond n r).fe = s.fe := rfl
@[simp] theorem State.respond_tdc (s : State) (n : Nat) (r : Resp) : (s.respond n r).tdc = s.tdc := rfl
@[simp] theorem State.respond_wf (s : State) (n : Nat) (r : Resp) : (s.respond n r).wf = s.wf := rfl
@[simp] theorem State.respond_fed (s : State) (n : Nat) (r : Resp) : (s.respond n r).fed = s.fed := rfl
@[simp] theorem State.respond_cda (s : State) (n : Nat) (r : Resp) : (s.respond n r).cda = s.cda := rfl
@[simp] theorem State.respond_cdb (s : State) (n : Nat) (r : Resp) : (s.respond n r).cdb = s.cdb := rfl
@[simp] theorem State.respond_ring (s : State) (n : Nat) (r : Resp) : (s.respond n r).ring = s.ring := rfl
@[simp] theorem State.respond_tb (s : State) (n : Nat) (r : Resp) : (s.respond n r).tb = s.tb := rfl
@[simp] theorem State.respond_lanes (s : State) (n : Nat) (r : Resp) : (s.respond n r).lanes = s.lanes := rfl
@[simp] theorem State.respond_ulp (s : State) (n : Nat) (r : Resp) : (s.respond n r).ulp = s.ulp := rfl
@[simp] theorem State.respond_pq (s : State) (n : Nat) (r : Resp) : (s.respond n r).pq = s.pq := rfl
@[simp] theorem State.respond_rd (s : State) (n : Nat) (r : Resp) : (s.respond n r).rd = s.rd := rfl
@[simp] theorem State.respond_lid (s : State) (n : Nat) (r : Resp) : (s.respond n r).lid = s.lid := rfl
@[simp] theorem State.respond_age (s : State) (n : Nat) (r : Resp) : (s.respond n r).age = s.age := rfl
@[simp] theorem State.respond_att (s : State) (n : Nat) (r : Resp) : (s.respond n r).att = s.att := rfl
@[simp] theorem State.respond_mbx (s : State) (n : Nat) (r : Resp) : (s.respond n r).mbx = s.mbx := rfl
@[simp] theorem State.respond_tap (s : State) (n : Nat) (r : Resp) : (s.respond n r).tap = s.tap := rfl
@[simp] theorem State.respond_out (s : State) (n : Nat) (r : Resp) : (s.respond n r).out = s.out := rfl
@[simp] theorem State.respond_free (s : State) (n : Nat) (r : Resp) : (s.respond n r).free = s.free := rfl

/-! ### modeGo -/

@[simp] theorem State.modeGo_pending (s : State) (m : Mode) (c : Nat) : (s.modeGo m c).pending = s.pending := rfl
@[simp] theorem State.modeGo_regs (s : State) (m : Mode) (c : Nat) : (s.modeGo m c).regs = s.regs := rfl
@[simp] theorem State.modeGo_sts (s : State) (m : Mode) (c : Nat) : (s.modeGo m c).sts = s.sts := rfl
@[simp] theorem State.modeGo_run (s : State) (m : Mode) (c : Nat) : (s.modeGo m c).run = s.run := rfl
@[simp] theorem State.modeGo_nvd (s : State) (m : Mode) (c : Nat) : (s.modeGo m c).nvd = s.nvd := rfl
@[simp] theorem State.modeGo_cal (s : State) (m : Mode) (c : Nat) : (s.modeGo m c).cal = s.cal := rfl
@[simp] theorem State.modeGo_fe (s : State) (m : Mode) (c : Nat) : (s.modeGo m c).fe = s.fe := rfl
@[simp] theorem State.modeGo_tdc (s : State) (m : Mode) (c : Nat) : (s.modeGo m c).tdc = s.tdc := rfl
@[simp] theorem State.modeGo_wf (s : State) (m : Mode) (c : Nat) : (s.modeGo m c).wf = s.wf := rfl
@[simp] theorem State.modeGo_fed (s : State) (m : Mode) (c : Nat) : (s.modeGo m c).fed = s.fed := rfl
@[simp] theorem State.modeGo_cda (s : State) (m : Mode) (c : Nat) : (s.modeGo m c).cda = s.cda := rfl
@[simp] theorem State.modeGo_cdb (s : State) (m : Mode) (c : Nat) : (s.modeGo m c).cdb = s.cdb := rfl
@[simp] theorem State.modeGo_ring (s : State) (m : Mode) (c : Nat) : (s.modeGo m c).ring = s.ring := rfl
@[simp] theorem State.modeGo_tb (s : State) (m : Mode) (c : Nat) : (s.modeGo m c).tb = s.tb := rfl
@[simp] theorem State.modeGo_lanes (s : State) (m : Mode) (c : Nat) : (s.modeGo m c).lanes = s.lanes := rfl
@[simp] theorem State.modeGo_ulp (s : State) (m : Mode) (c : Nat) : (s.modeGo m c).ulp = s.ulp := rfl
@[simp] theorem State.modeGo_resp (s : State) (m : Mode) (c : Nat) : (s.modeGo m c).resp = s.resp := rfl
@[simp] theorem State.modeGo_pq (s : State) (m : Mode) (c : Nat) : (s.modeGo m c).pq = s.pq := rfl
@[simp] theorem State.modeGo_rd (s : State) (m : Mode) (c : Nat) : (s.modeGo m c).rd = s.rd := rfl
@[simp] theorem State.modeGo_err (s : State) (m : Mode) (c : Nat) : (s.modeGo m c).err = s.err := rfl
@[simp] theorem State.modeGo_lid (s : State) (m : Mode) (c : Nat) : (s.modeGo m c).lid = s.lid := rfl
@[simp] theorem State.modeGo_age (s : State) (m : Mode) (c : Nat) : (s.modeGo m c).age = s.age := rfl
@[simp] theorem State.modeGo_att (s : State) (m : Mode) (c : Nat) : (s.modeGo m c).att = s.att := rfl
@[simp] theorem State.modeGo_mbx (s : State) (m : Mode) (c : Nat) : (s.modeGo m c).mbx = s.mbx := rfl
@[simp] theorem State.modeGo_tap (s : State) (m : Mode) (c : Nat) : (s.modeGo m c).tap = s.tap := rfl
@[simp] theorem State.modeGo_out (s : State) (m : Mode) (c : Nat) : (s.modeGo m c).out = s.out := rfl
@[simp] theorem State.modeGo_free (s : State) (m : Mode) (c : Nat) : (s.modeGo m c).free = s.free := rfl

/-! ### advance -/

@[simp] theorem State.advance_pending (s : State) (n : Nat) : (s.advance n).pending = s.pending := rfl
@[simp] theorem State.advance_regs (s : State) (n : Nat) : (s.advance n).regs = s.regs := rfl
@[simp] theorem State.advance_sts (s : State) (n : Nat) : (s.advance n).sts = s.sts := rfl
@[simp] theorem State.advance_hk (s : State) (n : Nat) : (s.advance n).hk = s.hk := rfl
@[simp] theorem State.advance_run (s : State) (n : Nat) : (s.advance n).run = s.run := rfl
@[simp] theorem State.advance_nvd (s : State) (n : Nat) : (s.advance n).nvd = s.nvd := rfl
@[simp] theorem State.advance_cal (s : State) (n : Nat) : (s.advance n).cal = s.cal := rfl
@[simp] theorem State.advance_fe (s : State) (n : Nat) : (s.advance n).fe = s.fe := rfl
@[simp] theorem State.advance_tdc (s : State) (n : Nat) : (s.advance n).tdc = s.tdc := rfl
@[simp] theorem State.advance_wf (s : State) (n : Nat) : (s.advance n).wf = s.wf := rfl
@[simp] theorem State.advance_fed (s : State) (n : Nat) : (s.advance n).fed = s.fed := rfl
@[simp] theorem State.advance_cda (s : State) (n : Nat) : (s.advance n).cda = s.cda := rfl
@[simp] theorem State.advance_cdb (s : State) (n : Nat) : (s.advance n).cdb = s.cdb := rfl
@[simp] theorem State.advance_ring (s : State) (n : Nat) : (s.advance n).ring = s.ring := rfl
@[simp] theorem State.advance_lanes (s : State) (n : Nat) : (s.advance n).lanes = s.lanes := rfl
@[simp] theorem State.advance_ulp (s : State) (n : Nat) : (s.advance n).ulp = s.ulp := rfl
@[simp] theorem State.advance_resp (s : State) (n : Nat) : (s.advance n).resp = s.resp := rfl
@[simp] theorem State.advance_pq (s : State) (n : Nat) : (s.advance n).pq = s.pq := rfl
@[simp] theorem State.advance_rd (s : State) (n : Nat) : (s.advance n).rd = s.rd := rfl
@[simp] theorem State.advance_err (s : State) (n : Nat) : (s.advance n).err = s.err := rfl
@[simp] theorem State.advance_lid (s : State) (n : Nat) : (s.advance n).lid = s.lid := rfl
@[simp] theorem State.advance_age (s : State) (n : Nat) : (s.advance n).age = s.age := rfl
@[simp] theorem State.advance_att (s : State) (n : Nat) : (s.advance n).att = s.att := rfl
@[simp] theorem State.advance_mbx (s : State) (n : Nat) : (s.advance n).mbx = s.mbx := rfl
@[simp] theorem State.advance_tap (s : State) (n : Nat) : (s.advance n).tap = s.tap := rfl
@[simp] theorem State.advance_out (s : State) (n : Nat) : (s.advance n).out = s.out := rfl
@[simp] theorem State.advance_free (s : State) (n : Nat) : (s.advance n).free = s.free := rfl

/-! ### advanceTo -/

@[simp] theorem State.advanceTo_pending (s : State) (n : Nat) : (s.advanceTo n).pending = s.pending := by unfold State.advanceTo; split <;> rfl
@[simp] theorem State.advanceTo_regs (s : State) (n : Nat) : (s.advanceTo n).regs = s.regs := by unfold State.advanceTo; split <;> rfl
@[simp] theorem State.advanceTo_sts (s : State) (n : Nat) : (s.advanceTo n).sts = s.sts := by unfold State.advanceTo; split <;> rfl
@[simp] theorem State.advanceTo_hk (s : State) (n : Nat) : (s.advanceTo n).hk = s.hk := by unfold State.advanceTo; split <;> rfl
@[simp] theorem State.advanceTo_run (s : State) (n : Nat) : (s.advanceTo n).run = s.run := by unfold State.advanceTo; split <;> rfl
@[simp] theorem State.advanceTo_nvd (s : State) (n : Nat) : (s.advanceTo n).nvd = s.nvd := by unfold State.advanceTo; split <;> rfl
@[simp] theorem State.advanceTo_cal (s : State) (n : Nat) : (s.advanceTo n).cal = s.cal := by unfold State.advanceTo; split <;> rfl
@[simp] theorem State.advanceTo_fe (s : State) (n : Nat) : (s.advanceTo n).fe = s.fe := by unfold State.advanceTo; split <;> rfl
@[simp] theorem State.advanceTo_tdc (s : State) (n : Nat) : (s.advanceTo n).tdc = s.tdc := by unfold State.advanceTo; split <;> rfl
@[simp] theorem State.advanceTo_wf (s : State) (n : Nat) : (s.advanceTo n).wf = s.wf := by unfold State.advanceTo; split <;> rfl
@[simp] theorem State.advanceTo_fed (s : State) (n : Nat) : (s.advanceTo n).fed = s.fed := by unfold State.advanceTo; split <;> rfl
@[simp] theorem State.advanceTo_cda (s : State) (n : Nat) : (s.advanceTo n).cda = s.cda := by unfold State.advanceTo; split <;> rfl
@[simp] theorem State.advanceTo_cdb (s : State) (n : Nat) : (s.advanceTo n).cdb = s.cdb := by unfold State.advanceTo; split <;> rfl
@[simp] theorem State.advanceTo_ring (s : State) (n : Nat) : (s.advanceTo n).ring = s.ring := by unfold State.advanceTo; split <;> rfl
@[simp] theorem State.advanceTo_lanes (s : State) (n : Nat) : (s.advanceTo n).lanes = s.lanes := by unfold State.advanceTo; split <;> rfl
@[simp] theorem State.advanceTo_ulp (s : State) (n : Nat) : (s.advanceTo n).ulp = s.ulp := by unfold State.advanceTo; split <;> rfl
@[simp] theorem State.advanceTo_resp (s : State) (n : Nat) : (s.advanceTo n).resp = s.resp := by unfold State.advanceTo; split <;> rfl
@[simp] theorem State.advanceTo_pq (s : State) (n : Nat) : (s.advanceTo n).pq = s.pq := by unfold State.advanceTo; split <;> rfl
@[simp] theorem State.advanceTo_rd (s : State) (n : Nat) : (s.advanceTo n).rd = s.rd := by unfold State.advanceTo; split <;> rfl
@[simp] theorem State.advanceTo_err (s : State) (n : Nat) : (s.advanceTo n).err = s.err := by unfold State.advanceTo; split <;> rfl
@[simp] theorem State.advanceTo_lid (s : State) (n : Nat) : (s.advanceTo n).lid = s.lid := by unfold State.advanceTo; split <;> rfl
@[simp] theorem State.advanceTo_age (s : State) (n : Nat) : (s.advanceTo n).age = s.age := by unfold State.advanceTo; split <;> rfl
@[simp] theorem State.advanceTo_att (s : State) (n : Nat) : (s.advanceTo n).att = s.att := by unfold State.advanceTo; split <;> rfl
@[simp] theorem State.advanceTo_mbx (s : State) (n : Nat) : (s.advanceTo n).mbx = s.mbx := by unfold State.advanceTo; split <;> rfl
@[simp] theorem State.advanceTo_tap (s : State) (n : Nat) : (s.advanceTo n).tap = s.tap := by unfold State.advanceTo; split <;> rfl
@[simp] theorem State.advanceTo_out (s : State) (n : Nat) : (s.advanceTo n).out = s.out := by unfold State.advanceTo; split <;> rfl
@[simp] theorem State.advanceTo_free (s : State) (n : Nat) : (s.advanceTo n).free = s.free := by unfold State.advanceTo; split <;> rfl

/-! ### draw -/

@[simp] theorem State.draw_pending (s : State) : (s.draw.2).pending = s.pending := rfl
@[simp] theorem State.draw_regs (s : State) : (s.draw.2).regs = s.regs := rfl
@[simp] theorem State.draw_sts (s : State) : (s.draw.2).sts = s.sts := rfl
@[simp] theorem State.draw_hk (s : State) : (s.draw.2).hk = s.hk := rfl
@[simp] theorem State.draw_run (s : State) : (s.draw.2).run = s.run := rfl
@[simp] theorem State.draw_nvd (s : State) : (s.draw.2).nvd = s.nvd := rfl
@[simp] theorem State.draw_cal (s : State) : (s.draw.2).cal = s.cal := rfl
@[simp] theorem State.draw_fe (s : State) : (s.draw.2).fe = s.fe := rfl
@[simp] theorem State.draw_tdc (s : State) : (s.draw.2).tdc = s.tdc := rfl
@[simp] theorem State.draw_wf (s : State) : (s.draw.2).wf = s.wf := rfl
@[simp] theorem State.draw_fed (s : State) : (s.draw.2).fed = s.fed := rfl
@[simp] theorem State.draw_cda (s : State) : (s.draw.2).cda = s.cda := rfl
@[simp] theorem State.draw_cdb (s : State) : (s.draw.2).cdb = s.cdb := rfl
@[simp] theorem State.draw_ring (s : State) : (s.draw.2).ring = s.ring := rfl
@[simp] theorem State.draw_tb (s : State) : (s.draw.2).tb = s.tb := rfl
@[simp] theorem State.draw_lanes (s : State) : (s.draw.2).lanes = s.lanes := rfl
@[simp] theorem State.draw_ulp (s : State) : (s.draw.2).ulp = s.ulp := rfl
@[simp] theorem State.draw_resp (s : State) : (s.draw.2).resp = s.resp := rfl
@[simp] theorem State.draw_pq (s : State) : (s.draw.2).pq = s.pq := rfl
@[simp] theorem State.draw_rd (s : State) : (s.draw.2).rd = s.rd := rfl
@[simp] theorem State.draw_err (s : State) : (s.draw.2).err = s.err := rfl
@[simp] theorem State.draw_lid (s : State) : (s.draw.2).lid = s.lid := rfl
@[simp] theorem State.draw_age (s : State) : (s.draw.2).age = s.age := rfl
@[simp] theorem State.draw_att (s : State) : (s.draw.2).att = s.att := rfl
@[simp] theorem State.draw_mbx (s : State) : (s.draw.2).mbx = s.mbx := rfl
@[simp] theorem State.draw_tap (s : State) : (s.draw.2).tap = s.tap := rfl
@[simp] theorem State.draw_out (s : State) : (s.draw.2).out = s.out := rfl

/-! ### memClean -/

@[simp] theorem State.memClean_pending (s : State) (d : Die) (m i : Nat) : (s.memClean d m i).pending = s.pending := rfl
@[simp] theorem State.memClean_regs (s : State) (d : Die) (m i : Nat) : (s.memClean d m i).regs = s.regs := rfl
@[simp] theorem State.memClean_sts (s : State) (d : Die) (m i : Nat) : (s.memClean d m i).sts = s.sts := rfl
@[simp] theorem State.memClean_hk (s : State) (d : Die) (m i : Nat) : (s.memClean d m i).hk = s.hk := rfl
@[simp] theorem State.memClean_run (s : State) (d : Die) (m i : Nat) : (s.memClean d m i).run = s.run := rfl
@[simp] theorem State.memClean_nvd (s : State) (d : Die) (m i : Nat) : (s.memClean d m i).nvd = s.nvd := rfl
@[simp] theorem State.memClean_cal (s : State) (d : Die) (m i : Nat) : (s.memClean d m i).cal = s.cal := rfl
@[simp] theorem State.memClean_fe (s : State) (d : Die) (m i : Nat) : (s.memClean d m i).fe = s.fe := rfl
@[simp] theorem State.memClean_tdc (s : State) (d : Die) (m i : Nat) : (s.memClean d m i).tdc = s.tdc := rfl
@[simp] theorem State.memClean_wf (s : State) (d : Die) (m i : Nat) : (s.memClean d m i).wf = s.wf := rfl
@[simp] theorem State.memClean_fed (s : State) (d : Die) (m i : Nat) : (s.memClean d m i).fed = s.fed := rfl
@[simp] theorem State.memClean_cda (s : State) (d : Die) (m i : Nat) : (s.memClean d m i).cda = s.cda := rfl
@[simp] theorem State.memClean_cdb (s : State) (d : Die) (m i : Nat) : (s.memClean d m i).cdb = s.cdb := rfl
@[simp] theorem State.memClean_ring (s : State) (d : Die) (m i : Nat) : (s.memClean d m i).ring = s.ring := rfl
@[simp] theorem State.memClean_tb (s : State) (d : Die) (m i : Nat) : (s.memClean d m i).tb = s.tb := rfl
@[simp] theorem State.memClean_lanes (s : State) (d : Die) (m i : Nat) : (s.memClean d m i).lanes = s.lanes := rfl
@[simp] theorem State.memClean_ulp (s : State) (d : Die) (m i : Nat) : (s.memClean d m i).ulp = s.ulp := rfl
@[simp] theorem State.memClean_resp (s : State) (d : Die) (m i : Nat) : (s.memClean d m i).resp = s.resp := rfl
@[simp] theorem State.memClean_pq (s : State) (d : Die) (m i : Nat) : (s.memClean d m i).pq = s.pq := rfl
@[simp] theorem State.memClean_rd (s : State) (d : Die) (m i : Nat) : (s.memClean d m i).rd = s.rd := rfl
@[simp] theorem State.memClean_lid (s : State) (d : Die) (m i : Nat) : (s.memClean d m i).lid = s.lid := rfl
@[simp] theorem State.memClean_age (s : State) (d : Die) (m i : Nat) : (s.memClean d m i).age = s.age := rfl
@[simp] theorem State.memClean_att (s : State) (d : Die) (m i : Nat) : (s.memClean d m i).att = s.att := rfl
@[simp] theorem State.memClean_mbx (s : State) (d : Die) (m i : Nat) : (s.memClean d m i).mbx = s.mbx := rfl
@[simp] theorem State.memClean_tap (s : State) (d : Die) (m i : Nat) : (s.memClean d m i).tap = s.tap := rfl
@[simp] theorem State.memClean_out (s : State) (d : Die) (m i : Nat) : (s.memClean d m i).out = s.out := rfl
@[simp] theorem State.memClean_free (s : State) (d : Die) (m i : Nat) : (s.memClean d m i).free = s.free := rfl

/-! ### pqPush -/

@[simp] theorem State.pqPush_pending (s : State) (i : Nat) (w : W64) : (s.pqPush i w).pending = s.pending := by unfold State.pqPush; split <;> rfl
@[simp] theorem State.pqPush_regs (s : State) (i : Nat) (w : W64) : (s.pqPush i w).regs = s.regs := by unfold State.pqPush; split <;> rfl
@[simp] theorem State.pqPush_hk (s : State) (i : Nat) (w : W64) : (s.pqPush i w).hk = s.hk := by unfold State.pqPush; split <;> rfl
@[simp] theorem State.pqPush_run (s : State) (i : Nat) (w : W64) : (s.pqPush i w).run = s.run := by unfold State.pqPush; split <;> rfl
@[simp] theorem State.pqPush_nvd (s : State) (i : Nat) (w : W64) : (s.pqPush i w).nvd = s.nvd := by unfold State.pqPush; split <;> rfl
@[simp] theorem State.pqPush_cal (s : State) (i : Nat) (w : W64) : (s.pqPush i w).cal = s.cal := by unfold State.pqPush; split <;> rfl
@[simp] theorem State.pqPush_fe (s : State) (i : Nat) (w : W64) : (s.pqPush i w).fe = s.fe := by unfold State.pqPush; split <;> rfl
@[simp] theorem State.pqPush_tdc (s : State) (i : Nat) (w : W64) : (s.pqPush i w).tdc = s.tdc := by unfold State.pqPush; split <;> rfl
@[simp] theorem State.pqPush_wf (s : State) (i : Nat) (w : W64) : (s.pqPush i w).wf = s.wf := by unfold State.pqPush; split <;> rfl
@[simp] theorem State.pqPush_fed (s : State) (i : Nat) (w : W64) : (s.pqPush i w).fed = s.fed := by unfold State.pqPush; split <;> rfl
@[simp] theorem State.pqPush_cda (s : State) (i : Nat) (w : W64) : (s.pqPush i w).cda = s.cda := by unfold State.pqPush; split <;> rfl
@[simp] theorem State.pqPush_cdb (s : State) (i : Nat) (w : W64) : (s.pqPush i w).cdb = s.cdb := by unfold State.pqPush; split <;> rfl
@[simp] theorem State.pqPush_ring (s : State) (i : Nat) (w : W64) : (s.pqPush i w).ring = s.ring := by unfold State.pqPush; split <;> rfl
@[simp] theorem State.pqPush_tb (s : State) (i : Nat) (w : W64) : (s.pqPush i w).tb = s.tb := by unfold State.pqPush; split <;> rfl
@[simp] theorem State.pqPush_ulp (s : State) (i : Nat) (w : W64) : (s.pqPush i w).ulp = s.ulp := by unfold State.pqPush; split <;> rfl
@[simp] theorem State.pqPush_resp (s : State) (i : Nat) (w : W64) : (s.pqPush i w).resp = s.resp := by unfold State.pqPush; split <;> rfl
@[simp] theorem State.pqPush_rd (s : State) (i : Nat) (w : W64) : (s.pqPush i w).rd = s.rd := by unfold State.pqPush; split <;> rfl
@[simp] theorem State.pqPush_lid (s : State) (i : Nat) (w : W64) : (s.pqPush i w).lid = s.lid := by unfold State.pqPush; split <;> rfl
@[simp] theorem State.pqPush_age (s : State) (i : Nat) (w : W64) : (s.pqPush i w).age = s.age := by unfold State.pqPush; split <;> rfl
@[simp] theorem State.pqPush_att (s : State) (i : Nat) (w : W64) : (s.pqPush i w).att = s.att := by unfold State.pqPush; split <;> rfl
@[simp] theorem State.pqPush_mbx (s : State) (i : Nat) (w : W64) : (s.pqPush i w).mbx = s.mbx := by unfold State.pqPush; split <;> rfl
@[simp] theorem State.pqPush_tap (s : State) (i : Nat) (w : W64) : (s.pqPush i w).tap = s.tap := by unfold State.pqPush; split <;> rfl
@[simp] theorem State.pqPush_out (s : State) (i : Nat) (w : W64) : (s.pqPush i w).out = s.out := by unfold State.pqPush; split <;> rfl
@[simp] theorem State.pqPush_free (s : State) (i : Nat) (w : W64) : (s.pqPush i w).free = s.free := by unfold State.pqPush; split <;> rfl

/-! ### errEntry -/

@[simp] theorem State.errEntry_pending (s : State) (d : Die) (a b c e : Nat) : (s.errEntry d a b c e).pending = s.pending := by unfold State.errEntry; simp
@[simp] theorem State.errEntry_regs (s : State) (d : Die) (a b c e : Nat) : (s.errEntry d a b c e).regs = s.regs := by unfold State.errEntry; simp
@[simp] theorem State.errEntry_hk (s : State) (d : Die) (a b c e : Nat) : (s.errEntry d a b c e).hk = s.hk := by unfold State.errEntry; simp
@[simp] theorem State.errEntry_run (s : State) (d : Die) (a b c e : Nat) : (s.errEntry d a b c e).run = s.run := by unfold State.errEntry; simp
@[simp] theorem State.errEntry_nvd (s : State) (d : Die) (a b c e : Nat) : (s.errEntry d a b c e).nvd = s.nvd := by unfold State.errEntry; simp
@[simp] theorem State.errEntry_cal (s : State) (d : Die) (a b c e : Nat) : (s.errEntry d a b c e).cal = s.cal := by unfold State.errEntry; simp
@[simp] theorem State.errEntry_fe (s : State) (d : Die) (a b c e : Nat) : (s.errEntry d a b c e).fe = s.fe := by unfold State.errEntry; simp
@[simp] theorem State.errEntry_tdc (s : State) (d : Die) (a b c e : Nat) : (s.errEntry d a b c e).tdc = s.tdc := by unfold State.errEntry; simp
@[simp] theorem State.errEntry_wf (s : State) (d : Die) (a b c e : Nat) : (s.errEntry d a b c e).wf = s.wf := by unfold State.errEntry; simp
@[simp] theorem State.errEntry_fed (s : State) (d : Die) (a b c e : Nat) : (s.errEntry d a b c e).fed = s.fed := by unfold State.errEntry; simp
@[simp] theorem State.errEntry_cda (s : State) (d : Die) (a b c e : Nat) : (s.errEntry d a b c e).cda = s.cda := by unfold State.errEntry; simp
@[simp] theorem State.errEntry_cdb (s : State) (d : Die) (a b c e : Nat) : (s.errEntry d a b c e).cdb = s.cdb := by unfold State.errEntry; simp
@[simp] theorem State.errEntry_ring (s : State) (d : Die) (a b c e : Nat) : (s.errEntry d a b c e).ring = s.ring := by unfold State.errEntry; simp
@[simp] theorem State.errEntry_tb (s : State) (d : Die) (a b c e : Nat) : (s.errEntry d a b c e).tb = s.tb := by unfold State.errEntry; simp
@[simp] theorem State.errEntry_ulp (s : State) (d : Die) (a b c e : Nat) : (s.errEntry d a b c e).ulp = s.ulp := by unfold State.errEntry; simp
@[simp] theorem State.errEntry_resp (s : State) (d : Die) (a b c e : Nat) : (s.errEntry d a b c e).resp = s.resp := by unfold State.errEntry; simp
@[simp] theorem State.errEntry_rd (s : State) (d : Die) (a b c e : Nat) : (s.errEntry d a b c e).rd = s.rd := by unfold State.errEntry; simp
@[simp] theorem State.errEntry_lid (s : State) (d : Die) (a b c e : Nat) : (s.errEntry d a b c e).lid = s.lid := by unfold State.errEntry; simp
@[simp] theorem State.errEntry_age (s : State) (d : Die) (a b c e : Nat) : (s.errEntry d a b c e).age = s.age := by unfold State.errEntry; simp
@[simp] theorem State.errEntry_att (s : State) (d : Die) (a b c e : Nat) : (s.errEntry d a b c e).att = s.att := by unfold State.errEntry; simp
@[simp] theorem State.errEntry_mbx (s : State) (d : Die) (a b c e : Nat) : (s.errEntry d a b c e).mbx = s.mbx := by unfold State.errEntry; simp
@[simp] theorem State.errEntry_tap (s : State) (d : Die) (a b c e : Nat) : (s.errEntry d a b c e).tap = s.tap := by unfold State.errEntry; simp
@[simp] theorem State.errEntry_out (s : State) (d : Die) (a b c e : Nat) : (s.errEntry d a b c e).out = s.out := by unfold State.errEntry; simp
@[simp] theorem State.errEntry_free (s : State) (d : Die) (a b c e : Nat) : (s.errEntry d a b c e).free = s.free := by unfold State.errEntry; simp

/-! ### lossCount -/

@[simp] theorem State.lossCount_pending (s : State) (d : Die) (c : Nat) : (s.lossCount d c).pending = s.pending := (State.eventAt_pending _ _ _).trans (State.countAt_pending _ _ _ _)
@[simp] theorem State.lossCount_hk (s : State) (d : Die) (c : Nat) : (s.lossCount d c).hk = s.hk := (State.eventAt_hk _ _ _).trans (State.countAt_hk _ _ _ _)
@[simp] theorem State.lossCount_run (s : State) (d : Die) (c : Nat) : (s.lossCount d c).run = s.run := (State.eventAt_run _ _ _).trans (State.countAt_run _ _ _ _)
@[simp] theorem State.lossCount_nvd (s : State) (d : Die) (c : Nat) : (s.lossCount d c).nvd = s.nvd := (State.eventAt_nvd _ _ _).trans (State.countAt_nvd _ _ _ _)
@[simp] theorem State.lossCount_cal (s : State) (d : Die) (c : Nat) : (s.lossCount d c).cal = s.cal := (State.eventAt_cal _ _ _).trans (State.countAt_cal _ _ _ _)
@[simp] theorem State.lossCount_fe (s : State) (d : Die) (c : Nat) : (s.lossCount d c).fe = s.fe := (State.eventAt_fe _ _ _).trans (State.countAt_fe _ _ _ _)
@[simp] theorem State.lossCount_tdc (s : State) (d : Die) (c : Nat) : (s.lossCount d c).tdc = s.tdc := (State.eventAt_tdc _ _ _).trans (State.countAt_tdc _ _ _ _)
@[simp] theorem State.lossCount_wf (s : State) (d : Die) (c : Nat) : (s.lossCount d c).wf = s.wf := (State.eventAt_wf _ _ _).trans (State.countAt_wf _ _ _ _)
@[simp] theorem State.lossCount_fed (s : State) (d : Die) (c : Nat) : (s.lossCount d c).fed = s.fed := (State.eventAt_fed _ _ _).trans (State.countAt_fed _ _ _ _)
@[simp] theorem State.lossCount_cda (s : State) (d : Die) (c : Nat) : (s.lossCount d c).cda = s.cda := (State.eventAt_cda _ _ _).trans (State.countAt_cda _ _ _ _)
@[simp] theorem State.lossCount_cdb (s : State) (d : Die) (c : Nat) : (s.lossCount d c).cdb = s.cdb := (State.eventAt_cdb _ _ _).trans (State.countAt_cdb _ _ _ _)
@[simp] theorem State.lossCount_ring (s : State) (d : Die) (c : Nat) : (s.lossCount d c).ring = s.ring := (State.eventAt_ring _ _ _).trans (State.countAt_ring _ _ _ _)
@[simp] theorem State.lossCount_tb (s : State) (d : Die) (c : Nat) : (s.lossCount d c).tb = s.tb := (State.eventAt_tb _ _ _).trans (State.countAt_tb _ _ _ _)
@[simp] theorem State.lossCount_lanes (s : State) (d : Die) (c : Nat) : (s.lossCount d c).lanes = s.lanes := (State.eventAt_lanes _ _ _).trans (State.countAt_lanes _ _ _ _)
@[simp] theorem State.lossCount_ulp (s : State) (d : Die) (c : Nat) : (s.lossCount d c).ulp = s.ulp := (State.eventAt_ulp _ _ _).trans (State.countAt_ulp _ _ _ _)
@[simp] theorem State.lossCount_resp (s : State) (d : Die) (c : Nat) : (s.lossCount d c).resp = s.resp := (State.eventAt_resp _ _ _).trans (State.countAt_resp _ _ _ _)
@[simp] theorem State.lossCount_pq (s : State) (d : Die) (c : Nat) : (s.lossCount d c).pq = s.pq := (State.eventAt_pq _ _ _).trans (State.countAt_pq _ _ _ _)
@[simp] theorem State.lossCount_rd (s : State) (d : Die) (c : Nat) : (s.lossCount d c).rd = s.rd := (State.eventAt_rd _ _ _).trans (State.countAt_rd _ _ _ _)
@[simp] theorem State.lossCount_err (s : State) (d : Die) (c : Nat) : (s.lossCount d c).err = s.err := (State.eventAt_err _ _ _).trans (State.countAt_err _ _ _ _)
@[simp] theorem State.lossCount_lid (s : State) (d : Die) (c : Nat) : (s.lossCount d c).lid = s.lid := (State.eventAt_lid _ _ _).trans (State.countAt_lid _ _ _ _)
@[simp] theorem State.lossCount_age (s : State) (d : Die) (c : Nat) : (s.lossCount d c).age = s.age := (State.eventAt_age _ _ _).trans (State.countAt_age _ _ _ _)
@[simp] theorem State.lossCount_att (s : State) (d : Die) (c : Nat) : (s.lossCount d c).att = s.att := (State.eventAt_att _ _ _).trans (State.countAt_att _ _ _ _)
@[simp] theorem State.lossCount_mbx (s : State) (d : Die) (c : Nat) : (s.lossCount d c).mbx = s.mbx := (State.eventAt_mbx _ _ _).trans (State.countAt_mbx _ _ _ _)
@[simp] theorem State.lossCount_tap (s : State) (d : Die) (c : Nat) : (s.lossCount d c).tap = s.tap := (State.eventAt_tap _ _ _).trans (State.countAt_tap _ _ _ _)
@[simp] theorem State.lossCount_out (s : State) (d : Die) (c : Nat) : (s.lossCount d c).out = s.out := (State.eventAt_out _ _ _).trans (State.countAt_out _ _ _ _)
@[simp] theorem State.lossCount_free (s : State) (d : Die) (c : Nat) : (s.lossCount d c).free = s.free := (State.eventAt_free _ _ _).trans (State.countAt_free _ _ _ _)

/-! ### lossEntry -/

@[simp] theorem State.lossEntry_pending (s : State) (d : Die) (a c : Nat) : (s.lossEntry d a c).pending = s.pending := by unfold State.lossEntry; split <;> simp
@[simp] theorem State.lossEntry_regs (s : State) (d : Die) (a c : Nat) : (s.lossEntry d a c).regs = s.regs := by unfold State.lossEntry; split <;> simp
@[simp] theorem State.lossEntry_hk (s : State) (d : Die) (a c : Nat) : (s.lossEntry d a c).hk = s.hk := by unfold State.lossEntry; split <;> simp
@[simp] theorem State.lossEntry_run (s : State) (d : Die) (a c : Nat) : (s.lossEntry d a c).run = s.run := by unfold State.lossEntry; split <;> simp
@[simp] theorem State.lossEntry_nvd (s : State) (d : Die) (a c : Nat) : (s.lossEntry d a c).nvd = s.nvd := by unfold State.lossEntry; split <;> simp
@[simp] theorem State.lossEntry_cal (s : State) (d : Die) (a c : Nat) : (s.lossEntry d a c).cal = s.cal := by unfold State.lossEntry; split <;> simp
@[simp] theorem State.lossEntry_fe (s : State) (d : Die) (a c : Nat) : (s.lossEntry d a c).fe = s.fe := by unfold State.lossEntry; split <;> simp
@[simp] theorem State.lossEntry_tdc (s : State) (d : Die) (a c : Nat) : (s.lossEntry d a c).tdc = s.tdc := by unfold State.lossEntry; split <;> simp
@[simp] theorem State.lossEntry_wf (s : State) (d : Die) (a c : Nat) : (s.lossEntry d a c).wf = s.wf := by unfold State.lossEntry; split <;> simp
@[simp] theorem State.lossEntry_fed (s : State) (d : Die) (a c : Nat) : (s.lossEntry d a c).fed = s.fed := by unfold State.lossEntry; split <;> simp
@[simp] theorem State.lossEntry_cda (s : State) (d : Die) (a c : Nat) : (s.lossEntry d a c).cda = s.cda := by unfold State.lossEntry; split <;> simp
@[simp] theorem State.lossEntry_cdb (s : State) (d : Die) (a c : Nat) : (s.lossEntry d a c).cdb = s.cdb := by unfold State.lossEntry; split <;> simp
@[simp] theorem State.lossEntry_ring (s : State) (d : Die) (a c : Nat) : (s.lossEntry d a c).ring = s.ring := by unfold State.lossEntry; split <;> simp
@[simp] theorem State.lossEntry_tb (s : State) (d : Die) (a c : Nat) : (s.lossEntry d a c).tb = s.tb := by unfold State.lossEntry; split <;> simp
@[simp] theorem State.lossEntry_ulp (s : State) (d : Die) (a c : Nat) : (s.lossEntry d a c).ulp = s.ulp := by unfold State.lossEntry; split <;> simp
@[simp] theorem State.lossEntry_resp (s : State) (d : Die) (a c : Nat) : (s.lossEntry d a c).resp = s.resp := by unfold State.lossEntry; split <;> simp
@[simp] theorem State.lossEntry_rd (s : State) (d : Die) (a c : Nat) : (s.lossEntry d a c).rd = s.rd := by unfold State.lossEntry; split <;> simp
@[simp] theorem State.lossEntry_lid (s : State) (d : Die) (a c : Nat) : (s.lossEntry d a c).lid = s.lid := by unfold State.lossEntry; split <;> simp
@[simp] theorem State.lossEntry_age (s : State) (d : Die) (a c : Nat) : (s.lossEntry d a c).age = s.age := by unfold State.lossEntry; split <;> simp
@[simp] theorem State.lossEntry_att (s : State) (d : Die) (a c : Nat) : (s.lossEntry d a c).att = s.att := by unfold State.lossEntry; split <;> simp
@[simp] theorem State.lossEntry_mbx (s : State) (d : Die) (a c : Nat) : (s.lossEntry d a c).mbx = s.mbx := by unfold State.lossEntry; split <;> simp
@[simp] theorem State.lossEntry_tap (s : State) (d : Die) (a c : Nat) : (s.lossEntry d a c).tap = s.tap := by unfold State.lossEntry; split <;> simp
@[simp] theorem State.lossEntry_out (s : State) (d : Die) (a c : Nat) : (s.lossEntry d a c).out = s.out := by unfold State.lossEntry; split <;> simp

/-! ### errLossC -/

@[simp] theorem State.errLossC_pending (s : State) (d : Die) (a c : Nat) : (s.errLossC d a c).pending = s.pending := by unfold State.errLossC; simp
@[simp] theorem State.errLossC_hk (s : State) (d : Die) (a c : Nat) : (s.errLossC d a c).hk = s.hk := by unfold State.errLossC; simp
@[simp] theorem State.errLossC_run (s : State) (d : Die) (a c : Nat) : (s.errLossC d a c).run = s.run := by unfold State.errLossC; simp
@[simp] theorem State.errLossC_nvd (s : State) (d : Die) (a c : Nat) : (s.errLossC d a c).nvd = s.nvd := by unfold State.errLossC; simp
@[simp] theorem State.errLossC_cal (s : State) (d : Die) (a c : Nat) : (s.errLossC d a c).cal = s.cal := by unfold State.errLossC; simp
@[simp] theorem State.errLossC_fe (s : State) (d : Die) (a c : Nat) : (s.errLossC d a c).fe = s.fe := by unfold State.errLossC; simp
@[simp] theorem State.errLossC_tdc (s : State) (d : Die) (a c : Nat) : (s.errLossC d a c).tdc = s.tdc := by unfold State.errLossC; simp
@[simp] theorem State.errLossC_wf (s : State) (d : Die) (a c : Nat) : (s.errLossC d a c).wf = s.wf := by unfold State.errLossC; simp
@[simp] theorem State.errLossC_fed (s : State) (d : Die) (a c : Nat) : (s.errLossC d a c).fed = s.fed := by unfold State.errLossC; simp
@[simp] theorem State.errLossC_cda (s : State) (d : Die) (a c : Nat) : (s.errLossC d a c).cda = s.cda := by unfold State.errLossC; simp
@[simp] theorem State.errLossC_cdb (s : State) (d : Die) (a c : Nat) : (s.errLossC d a c).cdb = s.cdb := by unfold State.errLossC; simp
@[simp] theorem State.errLossC_ring (s : State) (d : Die) (a c : Nat) : (s.errLossC d a c).ring = s.ring := by unfold State.errLossC; simp
@[simp] theorem State.errLossC_tb (s : State) (d : Die) (a c : Nat) : (s.errLossC d a c).tb = s.tb := by unfold State.errLossC; simp
@[simp] theorem State.errLossC_ulp (s : State) (d : Die) (a c : Nat) : (s.errLossC d a c).ulp = s.ulp := by unfold State.errLossC; simp
@[simp] theorem State.errLossC_resp (s : State) (d : Die) (a c : Nat) : (s.errLossC d a c).resp = s.resp := by unfold State.errLossC; simp
@[simp] theorem State.errLossC_rd (s : State) (d : Die) (a c : Nat) : (s.errLossC d a c).rd = s.rd := by unfold State.errLossC; simp
@[simp] theorem State.errLossC_lid (s : State) (d : Die) (a c : Nat) : (s.errLossC d a c).lid = s.lid := by unfold State.errLossC; simp
@[simp] theorem State.errLossC_age (s : State) (d : Die) (a c : Nat) : (s.errLossC d a c).age = s.age := by unfold State.errLossC; simp
@[simp] theorem State.errLossC_att (s : State) (d : Die) (a c : Nat) : (s.errLossC d a c).att = s.att := by unfold State.errLossC; simp
@[simp] theorem State.errLossC_mbx (s : State) (d : Die) (a c : Nat) : (s.errLossC d a c).mbx = s.mbx := by unfold State.errLossC; simp
@[simp] theorem State.errLossC_tap (s : State) (d : Die) (a c : Nat) : (s.errLossC d a c).tap = s.tap := by unfold State.errLossC; simp
@[simp] theorem State.errLossC_out (s : State) (d : Die) (a c : Nat) : (s.errLossC d a c).out = s.out := by unfold State.errLossC; simp

/-! ### errLoss -/

@[simp] theorem State.errLoss_pending (s : State) (d : Die) (c : Nat) : (s.errLoss d c).pending = s.pending := by unfold State.errLoss; simp
@[simp] theorem State.errLoss_hk (s : State) (d : Die) (c : Nat) : (s.errLoss d c).hk = s.hk := by unfold State.errLoss; simp
@[simp] theorem State.errLoss_run (s : State) (d : Die) (c : Nat) : (s.errLoss d c).run = s.run := by unfold State.errLoss; simp
@[simp] theorem State.errLoss_nvd (s : State) (d : Die) (c : Nat) : (s.errLoss d c).nvd = s.nvd := by unfold State.errLoss; simp
@[simp] theorem State.errLoss_cal (s : State) (d : Die) (c : Nat) : (s.errLoss d c).cal = s.cal := by unfold State.errLoss; simp
@[simp] theorem State.errLoss_fe (s : State) (d : Die) (c : Nat) : (s.errLoss d c).fe = s.fe := by unfold State.errLoss; simp
@[simp] theorem State.errLoss_tdc (s : State) (d : Die) (c : Nat) : (s.errLoss d c).tdc = s.tdc := by unfold State.errLoss; simp
@[simp] theorem State.errLoss_wf (s : State) (d : Die) (c : Nat) : (s.errLoss d c).wf = s.wf := by unfold State.errLoss; simp
@[simp] theorem State.errLoss_fed (s : State) (d : Die) (c : Nat) : (s.errLoss d c).fed = s.fed := by unfold State.errLoss; simp
@[simp] theorem State.errLoss_cda (s : State) (d : Die) (c : Nat) : (s.errLoss d c).cda = s.cda := by unfold State.errLoss; simp
@[simp] theorem State.errLoss_cdb (s : State) (d : Die) (c : Nat) : (s.errLoss d c).cdb = s.cdb := by unfold State.errLoss; simp
@[simp] theorem State.errLoss_ring (s : State) (d : Die) (c : Nat) : (s.errLoss d c).ring = s.ring := by unfold State.errLoss; simp
@[simp] theorem State.errLoss_tb (s : State) (d : Die) (c : Nat) : (s.errLoss d c).tb = s.tb := by unfold State.errLoss; simp
@[simp] theorem State.errLoss_ulp (s : State) (d : Die) (c : Nat) : (s.errLoss d c).ulp = s.ulp := by unfold State.errLoss; simp
@[simp] theorem State.errLoss_resp (s : State) (d : Die) (c : Nat) : (s.errLoss d c).resp = s.resp := by unfold State.errLoss; simp
@[simp] theorem State.errLoss_rd (s : State) (d : Die) (c : Nat) : (s.errLoss d c).rd = s.rd := by unfold State.errLoss; simp
@[simp] theorem State.errLoss_lid (s : State) (d : Die) (c : Nat) : (s.errLoss d c).lid = s.lid := by unfold State.errLoss; simp
@[simp] theorem State.errLoss_age (s : State) (d : Die) (c : Nat) : (s.errLoss d c).age = s.age := by unfold State.errLoss; simp
@[simp] theorem State.errLoss_att (s : State) (d : Die) (c : Nat) : (s.errLoss d c).att = s.att := by unfold State.errLoss; simp
@[simp] theorem State.errLoss_mbx (s : State) (d : Die) (c : Nat) : (s.errLoss d c).mbx = s.mbx := by unfold State.errLoss; simp
@[simp] theorem State.errLoss_tap (s : State) (d : Die) (c : Nat) : (s.errLoss d c).tap = s.tap := by unfold State.errLoss; simp
@[simp] theorem State.errLoss_out (s : State) (d : Die) (c : Nat) : (s.errLoss d c).out = s.out := by unfold State.errLoss; simp

/-! ### finish -/

@[simp] theorem State.finish_pending (s : State) (n a st : Nat) (v : W32) : (s.finish n a st v).pending = s.pending := by
  unfold State.finish; dsimp only; rw [State.count_pending, State.respond_pending, State.setLane_pending]
@[simp] theorem State.finish_sts (s : State) (n a st : Nat) (v : W32) : (s.finish n a st v).sts = s.sts := by
  unfold State.finish; dsimp only; rw [State.count_sts, State.respond_sts, State.setLane_sts]
@[simp] theorem State.finish_hk (s : State) (n a st : Nat) (v : W32) : (s.finish n a st v).hk = s.hk := by
  unfold State.finish; dsimp only; rw [State.count_hk, State.respond_hk, State.setLane_hk]
@[simp] theorem State.finish_run (s : State) (n a st : Nat) (v : W32) : (s.finish n a st v).run = s.run := by
  unfold State.finish; dsimp only; rw [State.count_run, State.respond_run, State.setLane_run]
@[simp] theorem State.finish_nvd (s : State) (n a st : Nat) (v : W32) : (s.finish n a st v).nvd = s.nvd := by
  unfold State.finish; dsimp only; rw [State.count_nvd, State.respond_nvd, State.setLane_nvd]
@[simp] theorem State.finish_cal (s : State) (n a st : Nat) (v : W32) : (s.finish n a st v).cal = s.cal := by
  unfold State.finish; dsimp only; rw [State.count_cal, State.respond_cal, State.setLane_cal]
@[simp] theorem State.finish_fe (s : State) (n a st : Nat) (v : W32) : (s.finish n a st v).fe = s.fe := by
  unfold State.finish; dsimp only; rw [State.count_fe, State.respond_fe, State.setLane_fe]
@[simp] theorem State.finish_tdc (s : State) (n a st : Nat) (v : W32) : (s.finish n a st v).tdc = s.tdc := by
  unfold State.finish; dsimp only; rw [State.count_tdc, State.respond_tdc, State.setLane_tdc]
@[simp] theorem State.finish_wf (s : State) (n a st : Nat) (v : W32) : (s.finish n a st v).wf = s.wf := by
  unfold State.finish; dsimp only; rw [State.count_wf, State.respond_wf, State.setLane_wf]
@[simp] theorem State.finish_fed (s : State) (n a st : Nat) (v : W32) : (s.finish n a st v).fed = s.fed := by
  unfold State.finish; dsimp only; rw [State.count_fed, State.respond_fed, State.setLane_fed]
@[simp] theorem State.finish_cda (s : State) (n a st : Nat) (v : W32) : (s.finish n a st v).cda = s.cda := by
  unfold State.finish; dsimp only; rw [State.count_cda, State.respond_cda, State.setLane_cda]
@[simp] theorem State.finish_cdb (s : State) (n a st : Nat) (v : W32) : (s.finish n a st v).cdb = s.cdb := by
  unfold State.finish; dsimp only; rw [State.count_cdb, State.respond_cdb, State.setLane_cdb]
@[simp] theorem State.finish_ring (s : State) (n a st : Nat) (v : W32) : (s.finish n a st v).ring = s.ring := by
  unfold State.finish; dsimp only; rw [State.count_ring, State.respond_ring, State.setLane_ring]
@[simp] theorem State.finish_tb (s : State) (n a st : Nat) (v : W32) : (s.finish n a st v).tb = s.tb := by
  unfold State.finish; dsimp only; rw [State.count_tb, State.respond_tb, State.setLane_tb]
@[simp] theorem State.finish_ulp (s : State) (n a st : Nat) (v : W32) : (s.finish n a st v).ulp = s.ulp := by
  unfold State.finish; dsimp only; rw [State.count_ulp, State.respond_ulp, State.setLane_ulp]
@[simp] theorem State.finish_pq (s : State) (n a st : Nat) (v : W32) : (s.finish n a st v).pq = s.pq := by
  unfold State.finish; dsimp only; rw [State.count_pq, State.respond_pq, State.setLane_pq]
@[simp] theorem State.finish_rd (s : State) (n a st : Nat) (v : W32) : (s.finish n a st v).rd = s.rd := by
  unfold State.finish; dsimp only; rw [State.count_rd, State.respond_rd, State.setLane_rd]
@[simp] theorem State.finish_lid (s : State) (n a st : Nat) (v : W32) : (s.finish n a st v).lid = s.lid := by
  unfold State.finish; dsimp only; rw [State.count_lid, State.respond_lid, State.setLane_lid]
@[simp] theorem State.finish_age (s : State) (n a st : Nat) (v : W32) : (s.finish n a st v).age = s.age := by
  unfold State.finish; dsimp only; rw [State.count_age, State.respond_age, State.setLane_age]
@[simp] theorem State.finish_att (s : State) (n a st : Nat) (v : W32) : (s.finish n a st v).att = s.att := by
  unfold State.finish; dsimp only; rw [State.count_att, State.respond_att, State.setLane_att]
@[simp] theorem State.finish_mbx (s : State) (n a st : Nat) (v : W32) : (s.finish n a st v).mbx = s.mbx := by
  unfold State.finish; dsimp only; rw [State.count_mbx, State.respond_mbx, State.setLane_mbx]
@[simp] theorem State.finish_tap (s : State) (n a st : Nat) (v : W32) : (s.finish n a st v).tap = s.tap := by
  unfold State.finish; dsimp only; rw [State.count_tap, State.respond_tap, State.setLane_tap]
@[simp] theorem State.finish_out (s : State) (n a st : Nat) (v : W32) : (s.finish n a st v).out = s.out := by
  unfold State.finish; dsimp only; rw [State.count_out, State.respond_out, State.setLane_out]
@[simp] theorem State.finish_free (s : State) (n a st : Nat) (v : W32) : (s.finish n a st v).free = s.free := by
  unfold State.finish; dsimp only; rw [State.count_free, State.respond_free, State.setLane_free]

/-! ### modeDone -/

@[simp] theorem State.modeDone_pending (s : State) (m : Mode) (c : Nat) : (s.modeDone m c).pending = s.pending := by unfold State.modeDone; dsimp only; split <;> rfl
@[simp] theorem State.modeDone_sts (s : State) (m : Mode) (c : Nat) : (s.modeDone m c).sts = s.sts := by unfold State.modeDone; dsimp only; split <;> rfl
@[simp] theorem State.modeDone_run (s : State) (m : Mode) (c : Nat) : (s.modeDone m c).run = s.run := by unfold State.modeDone; dsimp only; split <;> rfl
@[simp] theorem State.modeDone_nvd (s : State) (m : Mode) (c : Nat) : (s.modeDone m c).nvd = s.nvd := by unfold State.modeDone; dsimp only; split <;> rfl
@[simp] theorem State.modeDone_cal (s : State) (m : Mode) (c : Nat) : (s.modeDone m c).cal = s.cal := by unfold State.modeDone; dsimp only; split <;> rfl
@[simp] theorem State.modeDone_fe (s : State) (m : Mode) (c : Nat) : (s.modeDone m c).fe = s.fe := by unfold State.modeDone; dsimp only; split <;> rfl
@[simp] theorem State.modeDone_tdc (s : State) (m : Mode) (c : Nat) : (s.modeDone m c).tdc = s.tdc := by unfold State.modeDone; dsimp only; split <;> rfl
@[simp] theorem State.modeDone_wf (s : State) (m : Mode) (c : Nat) : (s.modeDone m c).wf = s.wf := by unfold State.modeDone; dsimp only; split <;> rfl
@[simp] theorem State.modeDone_fed (s : State) (m : Mode) (c : Nat) : (s.modeDone m c).fed = s.fed := by unfold State.modeDone; dsimp only; split <;> rfl
@[simp] theorem State.modeDone_cda (s : State) (m : Mode) (c : Nat) : (s.modeDone m c).cda = s.cda := by unfold State.modeDone; dsimp only; split <;> rfl
@[simp] theorem State.modeDone_cdb (s : State) (m : Mode) (c : Nat) : (s.modeDone m c).cdb = s.cdb := by unfold State.modeDone; dsimp only; split <;> rfl
@[simp] theorem State.modeDone_ring (s : State) (m : Mode) (c : Nat) : (s.modeDone m c).ring = s.ring := by unfold State.modeDone; dsimp only; split <;> rfl
@[simp] theorem State.modeDone_tb (s : State) (m : Mode) (c : Nat) : (s.modeDone m c).tb = s.tb := by unfold State.modeDone; dsimp only; split <;> rfl
@[simp] theorem State.modeDone_lanes (s : State) (m : Mode) (c : Nat) : (s.modeDone m c).lanes = s.lanes := by unfold State.modeDone; dsimp only; split <;> rfl
@[simp] theorem State.modeDone_ulp (s : State) (m : Mode) (c : Nat) : (s.modeDone m c).ulp = s.ulp := by unfold State.modeDone; dsimp only; split <;> rfl
@[simp] theorem State.modeDone_resp (s : State) (m : Mode) (c : Nat) : (s.modeDone m c).resp = s.resp := by unfold State.modeDone; dsimp only; split <;> rfl
@[simp] theorem State.modeDone_pq (s : State) (m : Mode) (c : Nat) : (s.modeDone m c).pq = s.pq := by unfold State.modeDone; dsimp only; split <;> rfl
@[simp] theorem State.modeDone_rd (s : State) (m : Mode) (c : Nat) : (s.modeDone m c).rd = s.rd := by unfold State.modeDone; dsimp only; split <;> rfl
@[simp] theorem State.modeDone_err (s : State) (m : Mode) (c : Nat) : (s.modeDone m c).err = s.err := by unfold State.modeDone; dsimp only; split <;> rfl
@[simp] theorem State.modeDone_lid (s : State) (m : Mode) (c : Nat) : (s.modeDone m c).lid = s.lid := by unfold State.modeDone; dsimp only; split <;> rfl
@[simp] theorem State.modeDone_age (s : State) (m : Mode) (c : Nat) : (s.modeDone m c).age = s.age := by unfold State.modeDone; dsimp only; split <;> rfl
@[simp] theorem State.modeDone_att (s : State) (m : Mode) (c : Nat) : (s.modeDone m c).att = s.att := by unfold State.modeDone; dsimp only; split <;> rfl
@[simp] theorem State.modeDone_mbx (s : State) (m : Mode) (c : Nat) : (s.modeDone m c).mbx = s.mbx := by unfold State.modeDone; dsimp only; split <;> rfl
@[simp] theorem State.modeDone_tap (s : State) (m : Mode) (c : Nat) : (s.modeDone m c).tap = s.tap := by unfold State.modeDone; dsimp only; split <;> rfl
@[simp] theorem State.modeDone_out (s : State) (m : Mode) (c : Nat) : (s.modeDone m c).out = s.out := by unfold State.modeDone; dsimp only; split <;> rfl
@[simp] theorem State.modeDone_free (s : State) (m : Mode) (c : Nat) : (s.modeDone m c).free = s.free := by unfold State.modeDone; dsimp only; split <;> rfl

/-! ### Reads after writes -/

/-- A stored register word reads as written, the others as before. -/
@[simp] theorem State.regAt_setRegAt (s : State) (k j : Nat) (v : W32) :
    (s.setRegAt k v).regAt j = if j = k then v else s.regAt j := by
  unfold State.regAt State.setRegAt
  by_cases h : j = k
  · subst h; simp
  · rw [if_neg h]; exact Sparse.get_put_ne _ _ _ _ _ _ h

/-- An event in one STS register leaves the others as they were. -/
@[simp] theorem State.stsAt_eventAt (s : State) (k j : Nat) (bs : List Nat) :
    (s.eventAt k bs).stsAt j = if j = k then (s.stsAt k).event bs else s.stsAt j := by
  exact Sparse.get_put Sts.zero _ s.sts k j

/-- Which address a register has does not depend on what registers hold. -/
@[simp] theorem State.phys_setRegAt (s : State) (k : Nat) (v : W32) (a : Nat) : (s.setRegAt k v).phys a = s.phys a := rfl
@[simp] theorem State.phys_eventAt (s : State) (k : Nat) (bs : List Nat) (a : Nat) : (s.eventAt k bs).phys a = s.phys a := rfl
@[simp] theorem State.regAt_eventAt (s : State) (k j : Nat) (bs : List Nat) : (s.eventAt k bs).regAt j = s.regAt j := rfl
@[simp] theorem State.stsAt_setRegAt (s : State) (k j : Nat) (v : W32) : (s.setRegAt k v).stsAt j = s.stsAt j := rfl

/-- A lane reads as written, the others as before. -/
@[simp] theorem State.lane_setLane (s : State) (n m : Nat) (l : LaneSt) :
    (s.setLane n l).lane m = if m = n then l else s.lane m := by
  unfold State.lane State.setLane
  simp

/-- A group reads as written, the others as before. -/
@[simp] theorem State.group_setGroup (s : State) (g h : Nat) (x : GroupSt) :
    (s.setGroup g x).group h = if h = g then x else s.group h := by
  unfold State.group State.setGroup
  simp

/-- A channel's pulse reads as written, the others as before. -/
@[simp] theorem State.pulse_setPulse (s : State) (c d : Nat) (p : Pulse) :
    (s.setPulse c p).pulse d = if d = c then p else s.pulse d := by
  unfold State.pulse State.setPulse
  simp

/-- The active CD reads as written. -/
@[simp] theorem State.cd_setCd (s : State) (c : Cd) : (s.setCd c).cd = c := by
  unfold State.cd State.setCd
  cases h : s.rd.activeB <;> simp [h]

/-- Writing the active CD leaves the other one. -/
@[simp] theorem State.other_setCd (s : State) (c : Cd) : (s.setCd c).other = s.other := by
  unfold State.other State.setCd
  cases h : s.rd.activeB <;> simp [h]

/-- The other CD reads as written. -/
@[simp] theorem State.other_setOther (s : State) (c : Cd) : (s.setOther c).other = c := by
  unfold State.other State.setOther
  cases h : s.rd.activeB <;> simp [h]

/-- Writing the other CD leaves the active one. -/
@[simp] theorem State.cd_setOther (s : State) (c : Cd) : (s.setOther c).cd = s.cd := by
  unfold State.cd State.setOther
  cases h : s.rd.activeB <;> simp [h]

/-- An event sets its bit. -/
theorem Sts.event_sets (e : Sts) (b : Nat) (h : b < 24) : (e.event [b]).set.getLsbD b = true := by
  unfold Sts.event
  rw [List.foldl_cons, List.foldl_nil, BitVec.getLsbD_or, BitVec.getLsbD_ofNat, Nat.testBit_two_pow_self]
  simp [h]

/-- The time reaches `now` where it has not passed it. -/
theorem State.advanceTo_tn (s : State) (now : Nat) (h : s.tb.tn < now) (hw : now < 2 ^ 64) :
    (s.advanceTo now).tb.tn = now := by
  unfold State.advanceTo State.advance
  simp only [h, if_true]
  omega

end Sys2Proof.Machine
end

