-- ==== Sys2Proof/Laws/Access.lean ====
section
/-! SUPPORT. Stored registers under a write to another key, and one slow-control request from the sequence stage to its
response. -/

namespace Sys2Proof.Machine

/-! ### Keys -/

theorem State.regAt_setRegAt_ne (s : State) {k k' : Nat} (h : k' ≠ k) (v : W32) :
    (s.setRegAt k v).regAt k' = s.regAt k' := by
  rw [State.regAt_setRegAt, if_neg h]

theorem State.regAt_countAt_ne (s : State) {k k' : Nat} (h : k' ≠ k) (top n : Nat) :
    (s.countAt k top n).regAt k' = s.regAt k' := s.regAt_setRegAt_ne h _

theorem State.regAt_countAt (s : State) (k top n : Nat) :
    (s.countAt k top n).regAt k = BitVec.ofNat 32 (satAdd top (s.regAt k).toNat n) := by
  unfold State.countAt
  rw [State.regAt_setRegAt, if_pos rfl]

@[simp] theorem State.phys_countAt (s : State) (k top n a : Nat) : (s.countAt k top n).phys a = s.phys a := by
  unfold State.phys
  rw [State.countAt_rd]

@[simp] theorem State.phys_setLane (s : State) (n : Nat) (l : LaneSt) (a : Nat) : (s.setLane n l).phys a = s.phys a := by
  unfold State.phys
  rw [State.setLane_rd]

theorem State.phys_lt (s : State) {a : Nat} (h : a < 0x1000000) : s.phys a < 0x1000000 := by
  unfold State.phys
  split
  · have : a % 0x100000 < 0x100000 := Nat.mod_lt _ (by decide)
    split <;> omega
  · exact h

theorem instKey_ge (a i : Nat) : 0x1000000 ≤ instKey a i := by unfold instKey; omega

@[simp] theorem State.regAt_setLane (s : State) (n k : Nat) (l : LaneSt) : (s.setLane n l).regAt k = s.regAt k := by
  unfold State.regAt
  rw [State.setLane_regs]

/-! ### The state a request acts on -/

@[simp] theorem State.phys_got (s : State) (lane a : Nat) : (s.got lane).phys a = s.phys a := s.phys_countAt _ _ _ _

theorem State.regAt_got (s : State) (lane : Nat) {k : Nat} (h : k < 0x1000000) : (s.got lane).regAt k = s.regAt k :=
  s.regAt_countAt_ne (Nat.ne_of_lt (Nat.lt_of_lt_of_le h (instKey_ge _ _))) _ _

theorem State.reg_got (s : State) (lane : Nat) {a : Nat} (h : a < 0x1000000) : (s.got lane).reg a = s.reg a := by
  unfold State.reg
  rw [State.phys_got]
  exact s.regAt_got lane (s.phys_lt h)

theorem State.bit_got (s : State) (lane i : Nat) {a : Nat} (h : a < 0x1000000) : (s.got lane).bit a i = s.bit a i := by
  unfold State.bit
  rw [s.reg_got lane h]

theorem State.fld_got (s : State) (lane hi lo : Nat) {a : Nat} (h : a < 0x1000000) :
    (s.got lane).fld a hi lo = s.fld a hi lo := by
  unfold State.fld
  rw [s.reg_got lane h]

theorem State.laneRole_got (s : State) (lane : Nat) {n : Nat} (h : n < 32) : (s.got lane).laneRole n = s.laneRole n := by
  have hc : laneCfg n < 0x1000000 := by
    show Reg.LN_CFG + 0x100 * n < _
    have : Reg.LN_CFG < 0x100000 := by decide
    omega
  unfold State.laneRole
  rw [s.fld_got lane _ _ hc]

theorem State.respQueue_got (s : State) (lane : Nat) {n : Nat} (h : n < 32) :
    (s.got lane).respQueue n = s.respQueue n := by
  have hl : (List.range n).filter (fun j => (s.got lane).laneRole j == 2) = (List.range n).filter (fun j => s.laneRole j == 2) :=
    List.filter_congr (fun j hj => by rw [s.laneRole_got lane (Nat.lt_trans (List.mem_range.1 hj) h)])
  unfold State.respQueue
  rw [s.laneRole_got lane h, hl]

/-! ### Requests -/

theorem State.serves_iff (s : State) (lane addr : Nat) : s.serves lane addr = true ↔
    s.pathOpen lane = true ∧ s.scRole lane = true ∧ (s.lane lane).synced = true ∧ s.stalls = false ∧
      (s.got lane).respUsed ((s.got lane).respQueue lane) < 32 ∧ s.hk.stuck = false ∧ s.noCross addr = false := by
  unfold State.serves
  simp only [Bool.and_eq_true, decide_eq_true_eq, Bool.not_eq_true', and_assoc]

@[simp] theorem State.lane_got (s : State) (lane n : Nat) : (s.got lane).lane n = s.lane n := by
  unfold State.lane State.got
  rw [State.countLane_lanes]

@[simp] theorem State.hk_got (s : State) (lane : Nat) : (s.got lane).hk = s.hk := State.countLane_hk _ _ _ _

@[simp] theorem State.resp_got (s : State) (lane : Nat) : (s.got lane).resp = s.resp := State.countLane_resp _ _ _ _

theorem State.noCross_got (s : State) (lane addr : Nat) : (s.got lane).noCross addr = s.noCross addr := by
  have hr : (s.got lane).regAt Reg.HK_PWR_STS = s.regAt Reg.HK_PWR_STS := s.regAt_got lane (by decide)
  unfold State.noCross State.notCrossed State.noAnswer
  rw [hr]
  unfold State.got
  rw [State.countLane_rd, State.countLane_cda, State.countLane_cdb, State.countLane_hk]

/-- No POP that stalls: the sequence stage ends none (R210). -/
theorem State.endStalls_none {s : State} (h : s.stalls = false) : s.endStalls = s := by
  have hf : s.lanes.find? (fun e => e.2.popWait.isSome) = none := by
    rw [List.find?_eq_none]
    intro e he hp
    have := (List.any_eq_false.1 h) e he
    exact this hp
  unfold State.endStalls
  rw [hf]

/-- What stands at the sequence stage of a lane that serves it is run. -/
theorem State.atStage_serves {s : State} {lane addr : Nat} (h : s.serves lane addr = true) (a : Nat) (go : State → State) :
    s.atStage lane a go = go (s.got lane) := by
  obtain ⟨h1, h2, h3, hp, h4, -, -⟩ := (s.serves_iff lane addr).1 h
  unfold State.atStage
  rw [h1, h2, State.endStalls_none hp]
  dsimp only
  have e : s.countLane Reg.LK_LANE_RX_UNITS lane 2 = s.got lane := rfl
  rw [e, State.lane_got, h3, if_neg (by decide), if_neg (by decide), if_neg (by decide), if_neg (Nat.not_le.2 h4)]

/-- A request that is served acts on the state that has counted it, and its answer is queued (R306 to R308). -/
theorem State.access_serves {s : State} {lane addr : Nat} (h : s.serves lane addr = true) (act : State → Rep) :
    s.access lane addr act = ((act (s.got lane)).st).finish lane addr (act (s.got lane)).status
      (if (act (s.got lane)).status = Stat.ok then (act (s.got lane)).data else 0) := by
  obtain ⟨-, -, -, -, -, h5, h6⟩ := (s.serves_iff lane addr).1 h
  unfold State.access
  rw [State.atStage_serves h, State.hk_got, h5, if_neg (by decide)]
  unfold State.execute
  rw [State.noCross_got, h6]
  dsimp only
  rw [if_neg (by simp)]

/-- The same for a write request with a byte enabled. -/
theorem State.accessW_serves {s : State} {lane addr : Nat} (h : s.serves lane addr = true) {be : BitVec 4} (hb : be ≠ 0)
    (act : State → Rep) :
    s.accessW lane addr be act = ((act (s.got lane)).st).finish lane addr (act (s.got lane)).status
      (if (act (s.got lane)).status = Stat.ok then (act (s.got lane)).data else 0) := by
  unfold State.accessW
  rw [State.access_serves h, if_neg hb]

/-- The same for a read that RESET_STUCK would let through. -/
theorem State.accessHk_serves {s : State} {lane addr : Nat} (h : s.serves lane addr = true) (act : State → Rep) :
    s.accessHk lane addr act = ((act (s.got lane)).st).finish lane addr (act (s.got lane)).status
      (if (act (s.got lane)).status = Stat.ok then (act (s.got lane)).data else 0) := by
  obtain ⟨-, -, -, -, -, h5, h6⟩ := (s.serves_iff lane addr).1 h
  unfold State.accessHk
  rw [State.atStage_serves h, State.hk_got, h5, if_neg (by decide)]
  unfold State.execute
  rw [State.noCross_got, h6]
  dsimp only
  rw [if_neg (by simp)]

/-- The answer of a request: one response with the lane's SEQ, and E advanced (R307). -/
theorem State.replied_finish {s u : State} {lane : Nat} (hr : u.resp = s.resp) (hl : (u.lane lane).e = (s.lane lane).e)
    (addr status : Nat) (data : W32) : s.replied (u.finish lane addr status data) lane addr status data := by
  unfold State.replied State.finish
  dsimp only
  refine ⟨?_, ?_⟩
  · show ((State.respond _ _ _).count _ _).resp = _
    unfold State.count
    rw [State.countAt_resp]
    unfold State.respond
    show _ ++ _ = _
    rw [State.setLane_resp, hr, hl]
  · unfold State.count State.lane
    rw [State.countAt_lanes]
    show (Sparse.get LaneSt.off (State.setLane _ _ _).lanes lane).e = _
    have := State.lane_setLane u lane lane
    unfold State.lane at this
    rw [this, if_pos rfl]
    unfold State.lane at hl
    exact congrArg (fun n => (n + 1) % 2 ^ 32) hl

/-- A register other than LK_SC_REQ_CNT stands through the answer. -/
theorem State.regAt_finish (s : State) (lane addr status : Nat) (data : W32) {k : Nat} (h : k ≠ Reg.LK_SC_REQ_CNT) :
    (s.finish lane addr status data).regAt k = s.regAt k := by
  unfold State.finish State.count
  dsimp only
  have hp : ∀ t : State, t.phys Reg.LK_SC_REQ_CNT = Reg.LK_SC_REQ_CNT := fun t => by unfold State.phys; rw [if_neg (by decide)]
  rw [hp, State.regAt_countAt_ne _ h]
  unfold State.regAt
  rw [State.respond_regs, State.setLane_regs]

end Sys2Proof.Machine
end

