-- ==== Sys2Proof/Laws/Core.lean ====
section
/-! SUPPORT. The core of a state, its parts, and how they pass through folds and branches. -/

namespace Sys2Proof.Machine

/-- What most commands leave as it is: the queue, the NVD's words, the mode (with its target in BOOT), the supplies, the pins
and the minimal link. -/
def State.core (s : State) :
    List Instr × Sparse W64 × Mode × Option Mode × Bool × Bool × Bool × Bool × Bool :=
  (s.pending, s.nvd.words, s.hk.mode, (if s.hk.mode = .boot then s.hk.target else none), s.hk.v12, s.hk.v24, s.hk.rstN,
    s.hk.stuck, s.hk.minimalLink)

@[simp] theorem core_mk (pending : List Instr) (regs : Sparse W32) (sts : Sparse Sts) (hk : Hk) (run : Run) (nvd : Nvd)
    (cal : Cal) (fe : Fe) (tdc : Tdc) (wf : Wf) (fed : Fed) (cda cdb : Cd) (ring : Ring) (tb : Tb) (lanes : Sparse LaneSt)
    (ulp : Ulp) (resp : List (Nat × Resp)) (pq : List (Nat × W64)) (rd : Rd) (err : Err) (lid : Lid) (age : Age)
    (att : Att) (mbx : Mbx) (tap : Tap) (out : List Out) (free : Nat) :
    (State.mk pending regs sts hk run nvd cal fe tdc wf fed cda cdb ring tb lanes ulp resp pq rd err lid age att mbx tap out
      free).core = (pending, nvd.words, hk.mode, (if hk.mode = .boot then hk.target else none), hk.v12, hk.v24, hk.rstN,
        hk.stuck, hk.minimalLink) := rfl

@[simp] theorem core_eta (s : State) :
    (s.pending, s.nvd.words, s.hk.mode, (if s.hk.mode = .boot then s.hk.target else none), s.hk.v12, s.hk.v24, s.hk.rstN,
      s.hk.stuck, s.hk.minimalLink) = s.core := rfl

@[simp] theorem foldl_core {α : Type} (f : State → α → State) (h : ∀ t x, (f t x).core = t.core) (l : List α) (s : State) :
    (l.foldl f s).core = s.core := by
  induction l generalizing s with
  | nil => rfl
  | cons x l ih => rw [List.foldl_cons, ih, h]

@[simp] theorem foldl_core_snd {α β : Type} (f : β × State → α → β × State) (h : ∀ a x, (f a x).2.core = a.2.core)
    (l : List α) (a : β × State) : (l.foldl f a).2.core = a.2.core := by
  induction l generalizing a with
  | nil => rfl
  | cons x l ih => rw [List.foldl_cons, ih, h]

@[simp] theorem foldl_core_thd {α β γ : Type} (f : β × γ × State → α → β × γ × State)
    (h : ∀ a x, (f a x).2.2.core = a.2.2.core) (l : List α) (a : β × γ × State) :
    (l.foldl f a).2.2.core = a.2.2.core := by
  induction l generalizing a with
  | nil => rfl
  | cons x l ih => rw [List.foldl_cons, ih, h]

@[simp] theorem ite_core (c : Prop) [Decidable c] (a b : State) :
    (if c then a else b).core = if c then a.core else b.core := by
  split <;> rfl

@[simp] theorem ite_st (c : Prop) [Decidable c] (a b : Rep) : (if c then a else b).st = if c then a.st else b.st := by
  split <;> rfl

@[simp] theorem ite_snd (c : Prop) [Decidable c] {α : Type} (a b : α × State) :
    (if c then a else b).2 = if c then a.2 else b.2 := by
  split <;> rfl

/-- The core without the NVD's words. -/
def State.rest (s : State) : List Instr × Mode × Option Mode × Bool × Bool × Bool × Bool × Bool :=
  (s.pending, s.hk.mode, (if s.hk.mode = .boot then s.hk.target else none), s.hk.v12, s.hk.v24, s.hk.rstN,
    s.hk.stuck, s.hk.minimalLink)

/-- The queue, the mode, the supplies and RST_N. -/
def State.bare (s : State) : List Instr × Mode × Bool × Bool × Bool :=
  (s.pending, s.hk.mode, s.hk.v12, s.hk.v24, s.hk.rstN)

/-- The queue, the supplies and RST_N. -/
def State.pins (s : State) : List Instr × Bool × Bool × Bool := (s.pending, s.hk.v12, s.hk.v24, s.hk.rstN)

theorem bare_of_rest {s t : State} (h : t.rest = s.rest) : t.bare = s.bare :=
  congrArg (fun c : List Instr × Mode × Option Mode × Bool × Bool × Bool × Bool × Bool =>
    (c.1, c.2.1, c.2.2.2.1, c.2.2.2.2.1, c.2.2.2.2.2.1)) h

theorem pins_of_bare {s t : State} (h : t.bare = s.bare) : t.pins = s.pins :=
  congrArg (fun c : List Instr × Mode × Bool × Bool × Bool => (c.1, c.2.2)) h

/-- The NVD's words are in canonical form. -/
def State.nvdWf (s : State) : Bool := Sparse.wf (fun _ => 0#64) s.nvd.words

theorem rest_of {s t : State} (h : t.core = s.core) : t.rest = s.rest :=
  congrArg (fun c : List Instr × Sparse W64 × Mode × Option Mode × Bool × Bool × Bool × Bool × Bool => (c.1, c.2.2)) h

theorem bare_of {s t : State} (h : t.core = s.core) : t.bare = s.bare := bare_of_rest (rest_of h)

theorem pins_of {s t : State} (h : t.core = s.core) : t.pins = s.pins := pins_of_bare (bare_of h)

theorem nvdWf_of {s t : State} (h : t.core = s.core) : t.nvdWf = s.nvdWf :=
  congrArg (fun c : List Instr × Sparse W64 × Mode × Option Mode × Bool × Bool × Bool × Bool × Bool => Sparse.wf (fun _ => 0#64) c.2.1) h

@[simp] theorem rest_mk (pending : List Instr) (regs : Sparse W32) (sts : Sparse Sts) (hk : Hk) (run : Run) (nvd : Nvd)
    (cal : Cal) (fe : Fe) (tdc : Tdc) (wf : Wf) (fed : Fed) (cda cdb : Cd) (ring : Ring) (tb : Tb) (lanes : Sparse LaneSt)
    (ulp : Ulp) (resp : List (Nat × Resp)) (pq : List (Nat × W64)) (rd : Rd) (err : Err) (lid : Lid) (age : Age)
    (att : Att) (mbx : Mbx) (tap : Tap) (out : List Out) (free : Nat) :
    (State.mk pending regs sts hk run nvd cal fe tdc wf fed cda cdb ring tb lanes ulp resp pq rd err lid age att mbx tap out
      free).rest = (pending, hk.mode, (if hk.mode = .boot then hk.target else none), hk.v12, hk.v24, hk.rstN,
        hk.stuck, hk.minimalLink) := rfl

@[simp] theorem rest_eta (s : State) :
    (s.pending, s.hk.mode, (if s.hk.mode = .boot then s.hk.target else none), s.hk.v12, s.hk.v24, s.hk.rstN,
      s.hk.stuck, s.hk.minimalLink) = s.rest := rfl

@[simp] theorem foldl_rest {α : Type} (f : State → α → State) (h : ∀ t x, (f t x).rest = t.rest) (l : List α) (s : State) :
    (l.foldl f s).rest = s.rest := by
  induction l generalizing s with
  | nil => rfl
  | cons x l ih => rw [List.foldl_cons, ih, h]

@[simp] theorem foldl_rest_snd {α β : Type} (f : β × State → α → β × State) (h : ∀ a x, (f a x).2.rest = a.2.rest)
    (l : List α) (a : β × State) : (l.foldl f a).2.rest = a.2.rest := by
  induction l generalizing a with
  | nil => rfl
  | cons x l ih => rw [List.foldl_cons, ih, h]

@[simp] theorem foldl_rest_thd {α β γ : Type} (f : β × γ × State → α → β × γ × State)
    (h : ∀ a x, (f a x).2.2.rest = a.2.2.rest) (l : List α) (a : β × γ × State) :
    (l.foldl f a).2.2.rest = a.2.2.rest := by
  induction l generalizing a with
  | nil => rfl
  | cons x l ih => rw [List.foldl_cons, ih, h]

@[simp] theorem ite_rest (c : Prop) [Decidable c] (a b : State) :
    (if c then a else b).rest = if c then a.rest else b.rest := by
  split <;> rfl

@[simp] theorem bare_mk (pending : List Instr) (regs : Sparse W32) (sts : Sparse Sts) (hk : Hk) (run : Run) (nvd : Nvd)
    (cal : Cal) (fe : Fe) (tdc : Tdc) (wf : Wf) (fed : Fed) (cda cdb : Cd) (ring : Ring) (tb : Tb) (lanes : Sparse LaneSt)
    (ulp : Ulp) (resp : List (Nat × Resp)) (pq : List (Nat × W64)) (rd : Rd) (err : Err) (lid : Lid) (age : Age)
    (att : Att) (mbx : Mbx) (tap : Tap) (out : List Out) (free : Nat) :
    (State.mk pending regs sts hk run nvd cal fe tdc wf fed cda cdb ring tb lanes ulp resp pq rd err lid age att mbx tap out
      free).bare = (pending, hk.mode, hk.v12, hk.v24, hk.rstN) := rfl

@[simp] theorem bare_eta (s : State) :
    (s.pending, s.hk.mode, s.hk.v12, s.hk.v24, s.hk.rstN) = s.bare := rfl

@[simp] theorem foldl_bare {α : Type} (f : State → α → State) (h : ∀ t x, (f t x).bare = t.bare) (l : List α) (s : State) :
    (l.foldl f s).bare = s.bare := by
  induction l generalizing s with
  | nil => rfl
  | cons x l ih => rw [List.foldl_cons, ih, h]

@[simp] theorem foldl_bare_snd {α β : Type} (f : β × State → α → β × State) (h : ∀ a x, (f a x).2.bare = a.2.bare)
    (l : List α) (a : β × State) : (l.foldl f a).2.bare = a.2.bare := by
  induction l generalizing a with
  | nil => rfl
  | cons x l ih => rw [List.foldl_cons, ih, h]

@[simp] theorem foldl_bare_thd {α β γ : Type} (f : β × γ × State → α → β × γ × State)
    (h : ∀ a x, (f a x).2.2.bare = a.2.2.bare) (l : List α) (a : β × γ × State) :
    (l.foldl f a).2.2.bare = a.2.2.bare := by
  induction l generalizing a with
  | nil => rfl
  | cons x l ih => rw [List.foldl_cons, ih, h]

@[simp] theorem ite_bare (c : Prop) [Decidable c] (a b : State) :
    (if c then a else b).bare = if c then a.bare else b.bare := by
  split <;> rfl

@[simp] theorem pins_mk (pending : List Instr) (regs : Sparse W32) (sts : Sparse Sts) (hk : Hk) (run : Run) (nvd : Nvd)
    (cal : Cal) (fe : Fe) (tdc : Tdc) (wf : Wf) (fed : Fed) (cda cdb : Cd) (ring : Ring) (tb : Tb) (lanes : Sparse LaneSt)
    (ulp : Ulp) (resp : List (Nat × Resp)) (pq : List (Nat × W64)) (rd : Rd) (err : Err) (lid : Lid) (age : Age)
    (att : Att) (mbx : Mbx) (tap : Tap) (out : List Out) (free : Nat) :
    (State.mk pending regs sts hk run nvd cal fe tdc wf fed cda cdb ring tb lanes ulp resp pq rd err lid age att mbx tap out
      free).pins = (pending, hk.v12, hk.v24, hk.rstN) := rfl

@[simp] theorem pins_eta (s : State) :
    (s.pending, s.hk.v12, s.hk.v24, s.hk.rstN) = s.pins := rfl

@[simp] theorem foldl_pins {α : Type} (f : State → α → State) (h : ∀ t x, (f t x).pins = t.pins) (l : List α) (s : State) :
    (l.foldl f s).pins = s.pins := by
  induction l generalizing s with
  | nil => rfl
  | cons x l ih => rw [List.foldl_cons, ih, h]

@[simp] theorem foldl_pins_snd {α β : Type} (f : β × State → α → β × State) (h : ∀ a x, (f a x).2.pins = a.2.pins)
    (l : List α) (a : β × State) : (l.foldl f a).2.pins = a.2.pins := by
  induction l generalizing a with
  | nil => rfl
  | cons x l ih => rw [List.foldl_cons, ih, h]

@[simp] theorem foldl_pins_thd {α β γ : Type} (f : β × γ × State → α → β × γ × State)
    (h : ∀ a x, (f a x).2.2.pins = a.2.2.pins) (l : List α) (a : β × γ × State) :
    (l.foldl f a).2.2.pins = a.2.2.pins := by
  induction l generalizing a with
  | nil => rfl
  | cons x l ih => rw [List.foldl_cons, ih, h]

@[simp] theorem ite_pins (c : Prop) [Decidable c] (a b : State) :
    (if c then a else b).pins = if c then a.pins else b.pins := by
  split <;> rfl

@[simp] theorem nvdWf_mk (pending : List Instr) (regs : Sparse W32) (sts : Sparse Sts) (hk : Hk) (run : Run) (nvd : Nvd)
    (cal : Cal) (fe : Fe) (tdc : Tdc) (wf : Wf) (fed : Fed) (cda cdb : Cd) (ring : Ring) (tb : Tb) (lanes : Sparse LaneSt)
    (ulp : Ulp) (resp : List (Nat × Resp)) (pq : List (Nat × W64)) (rd : Rd) (err : Err) (lid : Lid) (age : Age)
    (att : Att) (mbx : Mbx) (tap : Tap) (out : List Out) (free : Nat) :
    (State.mk pending regs sts hk run nvd cal fe tdc wf fed cda cdb ring tb lanes ulp resp pq rd err lid age att mbx tap out
      free).nvdWf = Sparse.wf (fun _ => 0#64) nvd.words := rfl

@[simp] theorem nvdWf_eta (s : State) : Sparse.wf (fun _ => 0#64) s.nvd.words = s.nvdWf := rfl

@[simp] theorem ite_nvdWf (c : Prop) [Decidable c] (a b : State) : (if c then a else b).nvdWf
    = if c then a.nvdWf else b.nvdWf := by
  split <;> rfl

theorem foldl_nvdWf {α : Type} (f : State → α → State) (h : ∀ t x, t.nvdWf = true → (f t x).nvdWf = true) (l : List α)
    (s : State)
    (hs : s.nvdWf = true) : (l.foldl f s).nvdWf = true := by
  induction l generalizing s with
  | nil => exact hs
  | cons x l ih => exact ih _ (h _ _ hs)

theorem foldl_wok_snd {α β : Type} (f : β × State → α → β × State) (h : ∀ a x, a.2.nvdWf = true → (f a x).2.nvdWf = true)
    (l : List α) (a : β × State) (ha : a.2.nvdWf = true) : (l.foldl f a).2.nvdWf = true := by
  induction l generalizing a with
  | nil => exact ha
  | cons x l ih => exact ih _ (h _ _ ha)

theorem foldl_wok_thd {α β γ : Type} (f : β × γ × State → α → β × γ × State)
    (h : ∀ a x, a.2.2.nvdWf = true → (f a x).2.2.nvdWf = true) (l : List α) (a : β × γ × State) (ha : a.2.2.nvdWf = true) :
    (l.foldl f a).2.2.nvdWf = true := by
  induction l generalizing a with
  | nil => exact ha
  | cons x l ih => exact ih _ (h _ _ ha)

end Sys2Proof.Machine
end

