-- ==== Sys2Proof/Laws/CoreOps.lean ====
section
/-! SUPPORT. The shared operations leave the core. -/

namespace Sys2Proof.Machine

@[simp] theorem State.setRegAt_core (s : State) (k : Nat) (v : W32) : (State.setRegAt s k v).core = s.core := by
  unfold State.setRegAt; simp

@[simp] theorem State.setReg_core (s : State) (a : Nat) (v : W32) : (State.setReg s a v).core = s.core := by
  unfold State.setReg; simp

@[simp] theorem State.setFld_core (s : State) (a : Nat) (hi : Nat) (lo : Nat) (v : Nat) : (State.setFld s a hi lo v).core
    = s.core := by
  unfold State.setFld; simp

@[simp] theorem State.setBit_core (s : State) (a : Nat) (i : Nat) (b : Bool) : (State.setBit s a i b).core = s.core := by
  unfold State.setBit; simp

@[simp] theorem State.countAt_core (s : State) (k : Nat) (top : Nat) (n : Nat) : (State.countAt s k top n).core = s.core
    := by
  unfold State.countAt; simp

@[simp] theorem State.count_core (s : State) (a : Nat) (n : Nat) : (State.count s a n).core = s.core := by
  unfold State.count; simp

@[simp] theorem State.count16_core (s : State) (a : Nat) (n : Nat) : (State.count16 s a n).core = s.core := by
  unfold State.count16; simp

@[simp] theorem State.resetRegs_core (s : State) (p : Nat → Bool) : (State.resetRegs s p).core = s.core := by
  unfold State.resetRegs; simp

@[simp] theorem State.eventAt_core (s : State) (k : Nat) (bs : List Nat) : (State.eventAt s k bs).core = s.core := by
  unfold State.eventAt; simp

@[simp] theorem State.event_core (s : State) (a : Nat) (bs : List Nat) : (State.event s a bs).core = s.core := by
  unfold State.event; simp

@[simp] theorem State.eventIf_core (s : State) (c : Bool) (a : Nat) (bs : List Nat) : (State.eventIf s c a bs).core
    = s.core := by
  unfold State.eventIf; simp

@[simp] theorem State.storeFields_core (s : State) (k : Nat) (v : W32) : (State.storeFields s k v).core = s.core := by
  unfold State.storeFields; simp

@[simp] theorem State.advance_core (s : State) (n : Nat) : (State.advance s n).core = s.core := by
  unfold State.advance; simp

@[simp] theorem State.advanceTo_core (s : State) (now : Nat) : (State.advanceTo s now).core = s.core := by
  unfold State.advanceTo; simp

@[simp] theorem State.loadTime_core (s : State) (tn : Nat) : (State.loadTime s tn).core = s.core := by
  unfold State.loadTime; simp

@[simp] theorem State.setEff_core (s : State) (a : Nat) (v : W32) : (State.setEff s a v).core = s.core := by
  unfold State.setEff; simp

@[simp] theorem State.draw_core (s : State) : (State.draw s).2.core = s.core := by
  unfold State.draw; simp

@[simp] theorem State.setCd_core (s : State) (c : Cd) : (State.setCd s c).core = s.core := by
  unfold State.setCd; simp

@[simp] theorem State.setOther_core (s : State) (c : Cd) : (State.setOther s c).core = s.core := by
  unfold State.setOther; simp

@[simp] theorem State.setLane_core (s : State) (n : Nat) (l : LaneSt) : (State.setLane s n l).core = s.core := by
  unfold State.setLane; simp

@[simp] theorem State.countLane_core (s : State) (a : Nat) (n : Nat) (k : Nat) : (State.countLane s a n k).core = s.core
    := by
  unfold State.countLane; simp

@[simp] theorem State.setGroup_core (s : State) (g : Nat) (x : GroupSt) : (State.setGroup s g x).core = s.core := by
  unfold State.setGroup; simp

@[simp] theorem State.setPulse_core (s : State) (c : Nat) (p : Pulse) : (State.setPulse s c p).core = s.core := by
  unfold State.setPulse; simp

@[simp] theorem State.memClean_core (s : State) (d : Die) (mem : Nat) (idx : Nat) : (State.memClean s d mem idx).core
    = s.core := by
  unfold State.memClean; simp

@[simp] theorem State.pqTaken_core (s : State) (q : Nat) (pos : Nat) : (State.pqTaken s q pos).core = s.core := by
  unfold State.pqTaken; dsimp only; split <;> simp

@[simp] theorem State.markRan_core (s : State) (d : Die) : (State.markRan s d).core = s.core := by
  unfold State.markRan; simp

@[simp] theorem State.pqPush_core (s : State) (i : Nat) (w : W64) : (State.pqPush s i w).core = s.core := by
  unfold State.pqPush; simp

@[simp] theorem State.errEntry_core (s : State) (d : Die) (cls : Nat) (mem : Nat) (idx : Nat) (cause : Nat) :
    (State.errEntry s d cls mem idx cause).core = s.core := by
  unfold State.errEntry; simp

@[simp] theorem State.lossCount_core (s : State) (d : Die) (cause : Nat) : (State.lossCount s d cause).core = s.core := by
  unfold State.lossCount; simp

@[simp] theorem State.lossEntry_core (s : State) (d : Die) (cls : Nat) (cause : Nat) :
    (State.lossEntry s d cls cause).core = s.core := by
  unfold State.lossEntry; split <;> simp

@[simp] theorem State.errLossC_core (s : State) (d : Die) (cls : Nat) (cause : Nat) :
    (State.errLossC s d cls cause).core = s.core := by
  unfold State.errLossC; simp

@[simp] theorem State.errLoss_core (s : State) (d : Die) (cause : Nat) : (State.errLoss s d cause).core = s.core := by
  unfold State.errLoss; simp

@[simp] theorem State.lossEntries_core (s : State) (d : Die) (cause : Nat) (n : Nat) :
    (State.lossEntries s d cause n).core = s.core := by
  induction n generalizing s with
  | zero => rfl
  | succ n ih => unfold State.lossEntries; rw [ih]; simp

@[simp] theorem State.errLosses_core (s : State) (d : Die) (cause : Nat) (n : Nat) :
    (State.errLosses s d cause n).core = s.core := by
  unfold State.errLosses; split <;> simp

@[simp] theorem State.lossOldestC_core (s : State) (cls : Nat) (src : Nat) (lo : Nat) (hi : Nat) (count : Nat)
    (cause : Nat) : (State.lossOldestC s cls src lo hi count cause).core = s.core := by
  unfold State.lossOldestC; simp

@[simp] theorem State.lossOldest_core (s : State) (src : Nat) (lo : Nat) (hi : Nat) (count : Nat) (cause : Nat) :
    (State.lossOldest s src lo hi count cause).core = s.core := by
  unfold State.lossOldest; simp

@[simp] theorem State.lossInC_core (s : State) (cls : Nat) (n : Nat) (src : Nat) (lo : Nat) (hi : Nat) (count : Nat)
    (cause : Nat) : (State.lossInC s cls n src lo hi count cause).core = s.core := by
  unfold State.lossInC; simp

@[simp] theorem State.lossIn_core (s : State) (n : Nat) (src : Nat) (lo : Nat) (hi : Nat) (count : Nat) (cause : Nat) :
    (State.lossIn s n src lo hi count cause).core = s.core := by
  unfold State.lossIn; simp

@[simp] theorem State.lateRecord_core (s : State) (src : Nat) (ch : Nat) (hits : Nat) :
    (State.lateRecord s src ch hits).core = s.core := by
  unfold State.lateRecord; dsimp only
  repeat' (first | (simp; done) | split)

@[simp] theorem State.modeGo_core (s : State) (m : Mode) (cause : Nat) (h : s.hk.mode ≠ .boot) :
    (State.modeGo s m cause).core = s.core := by
  unfold State.modeGo; simp [State.core, h]

@[simp] theorem State.dropSyncs_core (s : State) (sl : Nat) : (State.dropSyncs s sl).core = s.core := by
  unfold State.dropSyncs; simp

@[simp] theorem State.endRun_core (s : State) (endMode : Nat) (cause : Nat) : (State.endRun s endMode cause).core = s.core
    := by
  unfold State.endRun; simp

@[simp] theorem State.enterSafe_core (s : State) (cause : Nat) : (State.enterSafe s cause).core = s.core := by
  have h1 := State.endRun_core s 6 cause
  have hm1 : (s.endRun 6 cause).hk.mode = s.hk.mode := congrArg (fun c => c.2.2.1) h1
  unfold State.enterSafe
  cases hm : s.hk.mode <;> dsimp only
  case safe =>
    split
    · rfl
    · rw [State.setFld_core]; simp [State.core, hm]
  all_goals split
  all_goals first
    | rfl
    | (rw [← h1]; simp [State.core, hm1, hm])

@[simp] theorem State.fatalAt_core (s : State) (d : Die) (bit mem idx : Nat) : (State.fatalAt s d bit mem idx).core = s.core := by
  unfold State.fatalAt; simp

@[simp] theorem State.fatal_core (s : State) (d : Die) (bit : Nat) : (State.fatal s d bit).core = s.core := by
  unfold State.fatal; simp

@[simp] theorem Rep.st_core (self : Rep) : (Rep.st self).core = self.st.core := by
  unfold Rep.st; simp

@[simp] theorem State.respond_core (s : State) (lane : Nat) (r : Resp) : (State.respond s lane r).core = s.core := by
  unfold State.respond; simp

@[simp] theorem State.refuse_core (s : State) (lane : Nat) (r : Resp) : (State.refuse s lane r).core = s.core := by
  unfold State.refuse; simp

@[simp] theorem State.finish_core (s : State) (lane : Nat) (addr : Nat) (status : Nat) (data : W32) :
    (State.finish s lane addr status data).core = s.core := by
  unfold State.finish; simp

@[simp] theorem State.execute_core (s : State) (lane : Nat) (addr : Nat) (act : State → Rep) (h_act : ∀ t, (act t).st.core
    = t.core) : (State.execute s lane addr act).core = s.core := by
  unfold State.execute; dsimp only; repeat' split
  all_goals simp_all [apply_ite]

@[simp] theorem State.discard_core (s : State) (lane : Nat) (n : Nat) : (State.discard s lane n).core = s.core := by
  unfold State.discard; simp

@[simp] theorem State.seqGap_core (s : State) (lane : Nat) (seq : Nat) (addr : Nat) : (State.seqGap s lane seq addr).core
    = s.core := by
  unfold State.seqGap; simp

@[simp] theorem Rep.done_core (s : State) : (Rep.done s).st.core = s.core := by
  unfold Rep.done; simp

@[simp] theorem Rep.no_core (status : Nat) (s : State) : (Rep.no status s).st.core = s.core := by
  unfold Rep.no; simp

@[simp] theorem State.setCdOf_core (s : State) (d : Die) (c : Cd) : (State.setCdOf s d c).core = s.core := by
  unfold State.setCdOf; split <;> simp

@[simp] theorem State.setTab_core (s : State) (c : Nat) (bank : Bool) (i : Nat) (v : Nat) :
    (State.setTab s c bank i v).core = s.core := by
  unfold State.setTab; simp

@[simp] theorem State.setMemData_core (s : State) (d : Die) (mem : Nat) (idx : Nat) (v : W64) (hm : mem ≠ 4) :
    (State.setMemData s d mem idx v).core = s.core := by
  unfold State.setMemData; dsimp only; split
  · split <;> simp
  · exact absurd rfl hm
  · rw [foldl_core]; intro t x; rfl
  · repeat' split
    all_goals simp
  · simp
  · split <;> simp
  · rfl

@[simp] theorem State.damage_core (s : State) (d : Die) (mem : Nat) (idx : Nat) : (State.damage s d mem idx).core = s.core
    := by
  unfold State.damage; dsimp only
  repeat' (first | (simp; done) | split)

@[simp] theorem State.poison_core (s : State) (d : Die) (mem : Nat) (idx : Nat) : (State.poison s d mem idx).core = s.core
    := by
  unfold State.poison; simp

@[simp] theorem State.countCorr_core (s : State) (d : Die) (mem : Nat) : (State.countCorr s d mem).core = s.core := by
  unfold State.countCorr; simp

@[simp] theorem State.countUncorr_core (s : State) (d : Die) (mem : Nat) (idx : Nat) (cause : Nat) (evt : List Nat) :
    (State.countUncorr s d mem idx cause evt).core = s.core := by
  unfold State.countUncorr; simp

@[simp] theorem State.uncorrLoss_core (s : State) (d : Die) (mem : Nat) (idx : Nat) (cause : Nat) :
    (State.uncorrLoss s d mem idx cause).core = s.core := by
  unfold State.uncorrLoss; simp

@[simp] theorem State.putCode_core (s : State) (d : Die) (mem : Nat) (idx : Nat) (v : W64) (hm : mem ≠ 4) :
    (State.putCode s d mem idx v).core = s.core := by
  unfold State.putCode; dsimp only; split <;> simp [hm]

@[simp] theorem State.takeRaw_core (s : State) (d : Die) (mem : Nat) (idx : Nat) (hm : mem ≠ 4) :
    (State.takeRaw s d mem idx).core = s.core := by
  unfold State.takeRaw; split <;> simp [hm]

@[simp] theorem State.correct_core (s : State) (d : Die) (mem : Nat) (idx : Nat) (hm : mem ≠ 4) :
    (State.correct s d mem idx).core = s.core := by
  unfold State.correct; simp [hm]

@[simp] theorem State.memReadC_core (s : State) (d : Die) (mem : Nat) (idx : Nat) (cause : Nat) (hm : mem ≠ 4) :
    (State.memReadC s d mem idx cause).2.core = s.core := by
  unfold State.memReadC; repeat' split
  all_goals simp [hm]

@[simp] theorem State.memRead_core (s : State) (d : Die) (mem : Nat) (idx : Nat) (hm : mem ≠ 4) :
    (State.memRead s d mem idx).2.core = s.core := by
  unfold State.memRead; simp [hm]

@[simp] theorem State.readRange_core (s : State) (d : Die) (mem : Nat) (lo : Nat) (n cause : Nat) (hm : mem ≠ 4) :
    (State.readRange s d mem lo n cause).2.core = s.core := by
  unfold State.readRange; dsimp only; rw [foldl_core_snd]; intro a x; simp [hm]

@[simp] theorem State.readCrit_core (s : State) (mem : Nat) (lo : Nat) (n : Nat) (hm : mem ≠ 4) :
    (State.readCrit s mem lo n).core = s.core := by
  unfold State.readCrit; dsimp only; split <;> simp [hm]

@[simp] theorem State.memLoss_core (s : State) (d : Die) (mem : Nat) (idx : Nat) (cause : Nat) (fresh : Bool) :
    (State.memLoss s d mem idx cause fresh).core = s.core := by
  unfold State.memLoss; simp

@[simp] theorem State.popEntry_core (s : State) (q : Nat) : (State.popEntry s q).core = s.core := by
  unfold State.popEntry; simp

@[simp] theorem State.popLo_core (s : State) (lane : Nat) (q : Nat) : (State.popLo s lane q).st.core = s.core
    := by
  unfold State.popLo; dsimp only; split <;> simp

@[simp] theorem State.endStall_core (s : State) (n : Nat) : (State.endStall s n).core = s.core := by
  unfold State.endStall
  split
  · rfl
  · dsimp only
    rw [State.finish_core]
    split
    · split <;> simp
    · simp

@[simp] theorem State.endStalls_core (s : State) : (State.endStalls s).core = s.core := by
  unfold State.endStalls; split <;> simp

@[simp] theorem State.atStage_core (s : State) (lane : Nat) (addr : Nat) (go : State → State) (h_go : ∀ t, (go t).core
    = t.core) : (State.atStage s lane addr go).core = s.core := by
  unfold State.atStage; dsimp only; repeat' split
  all_goals simp [h_go]

@[simp] theorem State.access_core (s : State) (lane : Nat) (addr : Nat) (act : State → Rep) (h_act : ∀ t, (act t).st.core
    = t.core) : (State.access s lane addr act).core = s.core := by
  unfold State.access; exact State.atStage_core _ _ _ _ (fun t => by split <;> simp [h_act])

@[simp] theorem State.accessHk_core (s : State) (lane : Nat) (addr : Nat) (act : State → Rep)
    (h_act : ∀ t, (act t).st.core = t.core) : (State.accessHk s lane addr act).core = s.core := by
  unfold State.accessHk; exact State.atStage_core _ _ _ _ (fun t => by split <;> simp [h_act])

@[simp] theorem State.accessW_core (s : State) (lane : Nat) (addr : Nat) (be : BitVec 4) (act : State → Rep)
    (h_act : ∀ t, (act t).st.core = t.core) : (State.accessW s lane addr be act).core = s.core := by
  unfold State.accessW; exact State.access_core _ _ _ _ (fun t => by split <;> simp [h_act])

@[simp] theorem Rep.lockedBy_core (s : State) : (Rep.lockedBy s).st.core = s.core := by
  unfold Rep.lockedBy; simp

@[simp] theorem State.guarded_core (s : State) (bad : Bool) (lock : Bool) (cls : Cls) (wait : Bool) (eff : State)
    (h : eff.core = s.core) : (State.guarded s bad lock cls wait eff).st.core = s.core := by
  unfold State.guarded; repeat' split
  all_goals simp [h]

@[simp] theorem State.plainWrite_core (s : State) (k : Nat) (data : W32) (be : BitVec 4) (cls : Cls) :
    (State.plainWrite s k data be cls).st.core = s.core := by
  unfold State.plainWrite; simp

@[simp] theorem State.flipCd_core (s : State) : (State.flipCd s).core = s.core := by
  unfold State.flipCd; simp

@[simp] theorem Rep.mirrored_core (r : Rep) (again : State → Rep) (h : ∀ t, (again t).st.core = t.core)
    : (Rep.mirrored r again).st.core = r.st.core := by
  unfold Rep.mirrored; dsimp only; repeat' split
  all_goals simp [h]

@[simp] theorem State.lidEntry_core (s : State) (ty : Nat) (st : LidState) (c : LidCh) (cause : Nat) (idx : Nat) (value : Nat) :
    (State.lidEntry s ty st c cause idx value).core = s.core := by
  unfold State.lidEntry; simp

@[simp] theorem State.lidSet_core (s : State) (t : LidState) : (State.lidSet s t).core = s.core := by
  unfold State.lidSet; simp

@[simp] theorem State.lidGo_core (s : State) (c : LidCh) (t : LidState) (evt : List Nat) : (State.lidGo s c t evt).core
    = s.core := by
  unfold State.lidGo; simp

@[simp] theorem State.lidLatch_core (s : State) (st : LidState) (c : LidCh) (cause : Nat) (idx : Nat) (value : Nat) :
    (State.lidLatch s st c cause idx value).core = s.core := by
  unfold State.lidLatch; simp

@[simp] theorem State.lidRefuse_core (s : State) (cause : Nat) (idx : Nat) (h : Nat) :
    (State.lidRefuse s cause idx h).core = s.core := by
  unfold State.lidRefuse; simp

@[simp] theorem State.lidCancel_core (s : State) (cause : Nat) (idx : Nat) : (State.lidCancel s cause idx).core = s.core := by
  unfold State.lidCancel; split <;> simp

@[simp] theorem State.lidDemand_core (s : State) (cause : Nat) (idx : Nat) : (State.lidDemand s cause idx).core = s.core := by
  unfold State.lidDemand; dsimp only; split <;> simp

@[simp] theorem State.lidCause_core (s : State) (c : LidCh) (cause : Nat) (idx : Nat) (value : Nat) :
    (State.lidCause s c cause idx value).core = s.core := by
  unfold State.lidCause; simp

@[simp] theorem State.lidDegrade_core (s : State) (c : LidCh) : (State.lidDegrade s c).core = s.core := by
  unfold State.lidDegrade; simp

@[simp] theorem State.lidOff_core (s : State) : (State.lidOff s).core = s.core := by
  unfold State.lidOff; simp

@[simp] theorem State.lidSwitches_core (s : State) : (State.lidSwitches s).core = s.core := by
  unfold State.lidSwitches; simp

@[simp] theorem State.setV24_core (s : State) (ok : Bool) : (State.setV24 s ok).core = s.core := by
  unfold State.setV24; simp

theorem execSupplyLowExpire_core (s : State) : ∀ t, execSupplyLowExpire s = .next t → t.core = s.core := by
  rintro t ⟨⟩; simp

theorem execSafetyInputChange_core (i : Fin 4) (sideB : Bool) (healthy : Bool) (s : State)
    : ∀ t, execSafetyInputChange i sideB healthy s = .next t → t.core = s.core := by
  rintro t ⟨⟩; simp

@[simp] theorem State.inputDemand_core (s : State) (c : LidCh) (i : Nat) : (State.inputDemand s c i).core = s.core := by
  unfold State.inputDemand; split <;> simp

theorem execInputFilterExpire_core (c : LidCh) (i : Fin 4) (sideB : Bool) (s : State)
    : ∀ t, execInputFilterExpire c i sideB s = .next t → t.core = s.core := by
  rintro t ⟨⟩; simp

@[simp] theorem State.lidReject_core (s : State) (why : Option (Nat × Nat)) (h : Nat) : (State.lidReject s why h).core = s.core
    := by
  unfold State.lidReject; dsimp only
  repeat' (first | (simp; done) | split)

@[simp] theorem State.lidAccept_core (s : State) (h : Nat) : (State.lidAccept s h).core = s.core := by
  unfold State.lidAccept; simp

@[simp] theorem State.lidSettle_core (s : State) : (State.lidSettle s).core = s.core := by
  unfold State.lidSettle; split <;> simp

theorem execDiscrepancySample_core (c : LidCh) (s : State) : ∀ t, execDiscrepancySample c s = .next t → t.core = s.core
    := by
  rintro t ⟨⟩; simp

theorem execBiasMonitorSample_core (c : LidCh) (q : Fin 4) (v : Nat) (i : Nat) (s : State)
    : ∀ t, execBiasMonitorSample c q v i s = .next t → t.core = s.core := by
  intro t h; unfold execBiasMonitorSample at h; split at h
  · cases h; split
    · rfl
    split
    · rfl
    · rw [foldl_core]
      · rfl
      · intro t x; simp
  · cases h

theorem execCrosslinkFrame_core (rx : LidCh) (s : State) : ∀ t, execCrosslinkFrame rx s = .next t → t.core = s.core := by
  rintro t ⟨⟩; simp

theorem execCrosslinkTimeout_core (c : LidCh) (s : State) : ∀ t, execCrosslinkTimeout c s = .next t → t.core = s.core := by
  rintro t ⟨⟩; simp

theorem execProgramWatchdog_core (s : State) : ∀ t, execProgramWatchdog s = .next t → t.core = s.core := by
  rintro t ⟨⟩; simp

theorem execLcrcCompare_core (s : State) : ∀ t, execLcrcCompare s = .next t → t.core = s.core := by
  rintro t ⟨⟩; simp

theorem execDriveReadbackFault_core (c : LidCh) (s : State) : ∀ t, execDriveReadbackFault c s = .next t → t.core = s.core
    := by
  rintro t ⟨⟩; simp

theorem execFeedbackChange_core (b : Bool) (isOpen : Bool) (s : State) : ∀ t, execFeedbackChange b isOpen s
    = .next t → t.core = s.core := by
  rintro t ⟨⟩; simp

theorem execFeedbackTimeout_core (b : Bool) (s : State) : ∀ t, execFeedbackTimeout b s = .next t → t.core = s.core := by
  rintro t ⟨⟩; repeat' split
  all_goals simp

theorem execLidRstClose_core (s : State) : ∀ t, execLidRstClose s = .next t → t.core = s.core := by
  rintro t ⟨⟩; simp

theorem execLidRstRelease_core (hP : Nat) (hH : Nat) (s : State) : ∀ t, execLidRstRelease hP hH s = .next t → t.core
    = s.core := by
  rintro t ⟨⟩; dsimp only
  repeat' (first | (simp; done) | split)

theorem execResetHoldFault_core (c : LidCh) (s : State) : ∀ t, execResetHoldFault c s = .next t → t.core = s.core := by
  rintro t ⟨⟩; simp

@[simp] theorem State.lidCmd_core (s : State) (data : W32) : (State.lidCmd s data).st.core = s.core := by
  unfold State.lidCmd; simp

theorem execDegrade_core (lane : Lane) (s : State) : ∀ t, execDegrade lane s = .next t → t.core = s.core := by
  rintro t ⟨⟩; simp

@[simp] theorem State.qenWrite_core (s : State) (data : W32) (be : BitVec 4) : (State.qenWrite s data be).st.core = s.core
    := by
  unfold State.qenWrite; simp

theorem execQenWrite_core (lane : Lane) (data : W32) (be : BitVec 4) (s : State) : ∀ t, execQenWrite lane data be s
    = .next t → t.core = s.core := by
  rintro t ⟨⟩; simp

@[simp] theorem State.cleanRange_core (s : State) (d : Die) (mem : Nat) (lo : Nat) (n : Nat) :
    (State.cleanRange s d mem lo n).core = s.core := by
  unfold State.cleanRange; simp

@[simp] theorem State.memMerge_core (s : State) (d : Die) (mem : Nat) (idx : Nat) (hm : mem ≠ 4) :
    (State.memMerge s d mem idx).2.core = s.core := by
  unfold State.memMerge; repeat' split
  all_goals simp [hm]

@[simp] theorem State.merged_core (s : State) (d : Die) (mem : Nat) (idx : Nat) (eff : State → State)
    (h_eff : ∀ t, (eff t).core = t.core) (hm : mem ≠ 4) : (State.merged s d mem idx eff).st.core = s.core := by
  unfold State.merged; dsimp only; split <;> simp [hm, h_eff]

@[simp] theorem State.accessNop_core (s : State) (lane : Nat) (addr : Nat) : (State.accessNop s lane addr).core = s.core := by
  unfold State.accessNop; simp

@[simp] theorem State.readResp_core (s : State) (n : Nat) (r : Resp) : (State.readResp s n r).2.core = s.core := by
  unfold State.readResp; simp

@[simp] theorem State.dropFirst_core (s : State) (n : Nat) : (State.dropFirst s n).core = s.core := by
  unfold State.dropFirst; simp

@[simp] theorem State.sendIdles_core (s : State) (n : Nat) (k : Nat) : (State.sendIdles s n k).core = s.core := by
  unfold State.sendIdles; simp

@[simp] theorem State.unitOut_core (s : State) (n : Nat) (u : W64) : (State.unitOut s n u).core = s.core := by
  unfold State.unitOut; simp

@[simp] theorem State.slotUnit_core (s : State) (n : Nat) : (State.slotUnit s n).core = s.core := by
  unfold State.slotUnit; dsimp only; repeat' split
  all_goals simp

@[simp] theorem State.slotUnits_core (n : Nat) (k : Nat) (s : State) : (State.slotUnits n k s).core = s.core := by
  induction k generalizing s with
  | zero => rfl
  | succ k ih => unfold State.slotUnits; rw [ih]; simp

@[simp] theorem State.passSlots_core (s : State) (n : Nat) (k : Nat) : (State.passSlots s n k).core = s.core := by
  unfold State.passSlots; simp

@[simp] theorem State.sendInSlot_core (s : State) (n : Nat) (u : W64) : (State.sendInSlot s n u).core = s.core := by
  unfold State.sendInSlot; simp

@[simp] theorem State.guardedR_core (s : State) (bad : Bool) (lock : Bool) (cls : Cls) (wait : Bool) (eff : Rep)
    (h : eff.st.core = s.core) : (State.guardedR s bad lock cls wait eff).st.core = s.core := by
  unfold State.guardedR; repeat' split
  all_goals simp [h]

end Sys2Proof.Machine
end

