-- ==== Sys2Proof/Laws/CoreCapture.lean ====
section
/-! SUPPORT. Capture, conversion, time base and lanes leave the core. -/

namespace Sys2Proof.Machine

@[simp] theorem State.settles_core (s : State) : (State.settles s).core = s.core := by
  unfold State.settles; try dsimp only
  repeat' (first | (simp; done) | split)

@[simp] theorem State.fullBias_core (s : State) : (State.fullBias s).core = s.core := by
  unfold State.fullBias; try dsimp only
  repeat' (first | (simp; done) | split)

@[simp] theorem State.biasWrite_core (s : State) (data : W32) (be : BitVec 4) : (State.biasWrite s data be).st.core =
    s.core := by
  unfold State.biasWrite; try dsimp only
  repeat' (first | (simp; done) | split)

@[simp] theorem State.chanWrite_core (s : State) (c : Nat) (high : Bool) (data : W32) (be : BitVec 4) :
    (State.chanWrite s c high data be).st.core = s.core := by
  unfold State.chanWrite; simp

theorem execChannelTableWrite_core (lane : Lane) (ch : Chan) (high : Bool) (data : W32) (be : BitVec 4) (s : State)
    : ∀ t, execChannelTableWrite lane ch high data be s = .next t → t.core = s.core := by
  rintro t ⟨⟩; simp

theorem execBlankingEnd_core (ch : Chan) (s : State) : ∀ t, execBlankingEnd ch s = .next t → t.core = s.core := by
  rintro t ⟨⟩; simp

@[simp] theorem State.groupWrite_core (s : State) (high : Bool) (data : W32) (be : BitVec 4) :
    (State.groupWrite s high data be).st.core = s.core := by
  unfold State.groupWrite; dsimp only
  refine State.guarded_core _ _ _ _ _ _ ?_
  repeat' (first | (simp; done) | split)

theorem execGroupEnableWrite_core (lane : Lane) (high : Bool) (data : W32) (be : BitVec 4) (s : State)
    : ∀ t, execGroupEnableWrite lane high data be s = .next t → t.core = s.core := by
  rintro t ⟨⟩; simp

@[simp] theorem State.rateCount_core (s : State) (c : Nat) : (State.rateCount s c).core = s.core := by
  unfold State.rateCount; simp

@[simp] theorem State.gateWrite_core (s : State) (data : W32) (be : BitVec 4) : (State.gateWrite s data be).st.core
    = s.core := by
  unfold State.gateWrite; dsimp only
  refine State.guarded_core _ _ _ _ _ _ ?_
  repeat' (first | (simp; done) | split)

theorem execRateGateWrite_core (lane : Lane) (data : W32) (be : BitVec 4) (s : State)
    : ∀ t, execRateGateWrite lane data be s = .next t → t.core = s.core := by
  rintro t ⟨⟩; simp

@[simp] theorem State.hotUpdate_core (s : State) (cnt : Sparse Nat) : (State.hotUpdate s cnt).core = s.core := by
  unfold State.hotUpdate; simp

theorem execRateGateEnd_core (s : State) : ∀ t, execRateGateEnd s = .next t → t.core = s.core := by
  rintro t ⟨⟩; simp

@[simp] theorem State.injAbort_core (s : State) : (State.injAbort s).core = s.core := by
  unfold State.injAbort; simp

@[simp] theorem State.injWrite_core (s : State) (data : W32) (be : BitVec 4) : (State.injWrite s data be).st.core = s.core
    := by
  unfold State.injWrite; dsimp only
  refine State.guarded_core _ _ _ _ _ _ ?_
  repeat' (first | (simp; done) | split)

theorem execInjGo_core (lane : Lane) (data : W32) (be : BitVec 4) (s : State) : ∀ t, execInjGo lane data be s
    = .next t → t.core = s.core := by
  rintro t ⟨⟩; simp

theorem execInjStop_core (lane : Lane) (data : W32) (be : BitVec 4) (s : State) : ∀ t, execInjStop lane data be s
    = .next t → t.core = s.core := by
  rintro t ⟨⟩; simp

@[simp] theorem State.injDelay_core (s : State) : (State.injDelay s).2.core = s.core := by
  unfold State.injDelay; try dsimp only
  repeat' (first | (simp; done) | split)

theorem execInjStrobe_core (tick : Nat) (s : State) : ∀ t, execInjStrobe tick s = .next t → t.core = s.core := by
  rintro t ⟨⟩; simp

@[simp] theorem State.overrun_core (s : State) : (State.overrun s).core = s.core := by
  unfold State.overrun; simp

@[simp] theorem State.convert_core (s : State) (c : Nat) (bank : Bool) (e : Edge) : (State.convert s c bank e).2.core
    = s.core := by
  unfold State.convert; simp

@[simp] theorem State.setBanks_core (s : State) (c : Nat) (b : Banks) : (State.setBanks s c b).core = s.core := by
  unfold State.setBanks; simp

@[simp] theorem State.clearHist_core (s : State) (c : Nat) (bank : Bool) : (State.clearHist s c bank).core = s.core := by
  unfold State.clearHist; simp

@[simp] theorem State.clearTab_core (s : State) (c : Nat) (bank : Bool) : (State.clearTab s c bank).core = s.core := by
  unfold State.clearTab; simp

@[simp] theorem State.startFill_core (s : State) (len : Nat) (c : Nat) : (State.startFill s len c).core = s.core := by
  unfold State.startFill; simp

@[simp] theorem State.fillEvent_core (s : State) (c : Nat) (code : Nat) (ovr : Bool) : (State.fillEvent s c code ovr).core
    = s.core := by
  unfold State.fillEvent; simp

@[simp] theorem State.form_core (s : State) (c : Nat) (p : Pulse) (tot : Nat) : (State.form s c p tot).core = s.core := by
  unfold State.form; simp

@[simp] theorem State.captureDue_core (s : State) (c : Nat) (p : Pulse) (high : Nat) : (State.captureDue s c p high).core
    = s.core := by
  unfold State.captureDue; simp

@[simp] theorem State.deadCrossing_core (s : State) : (State.deadCrossing s).core = s.core := by
  unfold State.deadCrossing; simp

@[simp] theorem State.leadNative_core (s : State) (c : Nat) (p : Pulse) (e : Edge) : (State.leadNative s c p e).core
    = s.core := by
  unfold State.leadNative; simp

@[simp] theorem State.leadCompat_core (s : State) (c : Nat) (p : Pulse) (e : Edge) : (State.leadCompat s c p e).core
    = s.core := by
  unfold State.leadCompat; dsimp only
  repeat' (first | (simp; done) | split)

theorem execLeadingCrossing_core (ch : Chan) (e : Edge) (s : State) : ∀ t, execLeadingCrossing ch e s = .next t → t.core
    = s.core := by
  intro t h; unfold execLeadingCrossing at h; split at h
  · cases h; dsimp only
    repeat' (first | (simp; done) | split)
  · cases h

theorem execHighCrossing_core (ch : Chan) (e : Edge) (s : State) : ∀ t, execHighCrossing ch e s = .next t → t.core
    = s.core := by
  intro t h; unfold execHighCrossing at h; split at h
  · cases h; dsimp only
    repeat' (first | (simp; done) | split)
  · cases h

theorem execTrailingCrossing_core (ch : Chan) (e : Edge) (s : State) : ∀ t, execTrailingCrossing ch e s = .next t → t.core
    = s.core := by
  intro t h; unfold execTrailingCrossing at h; split at h
  · cases h; dsimp only
    repeat' (first | (simp; done) | split)
  · cases h

theorem execTotTimeout_core (ch : Chan) (s : State) : ∀ t, execTotTimeout ch s = .next t → t.core = s.core := by
  rintro t ⟨⟩; simp

@[simp] theorem State.gfifoDrop_core (s : State) (c : Nat) : (State.gfifoDrop s c).core = s.core := by
  unfold State.gfifoDrop; simp

@[simp] theorem State.stageIn_core (s : State) (c : Nat) (e : Ent) : (State.stageIn s c e).core = s.core := by
  unfold State.stageIn; simp

@[simp] theorem State.skewAdd_core (s : State) (f : Formed) : (State.skewAdd s f).core = s.core := by
  unfold State.skewAdd; dsimp only
  repeat' (first | (simp; done) | split)

theorem execHitEmit_core (ch : Chan) (s : State) : ∀ t, execHitEmit ch s = .next t → t.core = s.core := by
  rintro t ⟨⟩; dsimp only
  repeat' (first | (simp; done) | split)

@[simp] theorem State.exhaust_core (s : State) (margin : Nat) (item : Nat) (on : Bool) :
    (State.exhaust s margin item on).core = s.core := by
  unfold State.exhaust; simp

@[simp] theorem State.plannerMove_core (s : State) (fill : Bool) : (State.plannerMove s fill).core = s.core := by
  unfold State.plannerMove; simp

@[simp] theorem State.planLen_core (s : State) (g : Nat) (len : Nat) : (State.planLen s g len).core = s.core := by
  unfold State.planLen; simp

@[simp] theorem State.margin1_core (s : State) (now : Bool) (g : Nat) (a : Nat) : (State.margin1 s now g a).core = s.core
    := by
  unfold State.margin1; dsimp only
  repeat' (first | (simp; done) | split)

@[simp] theorem State.planFill_core (s : State) (f : Fill) (chans : List Nat) (ended : Bool) :
    (State.planFill s f chans ended).core = s.core := by
  unfold State.planFill; simp

@[simp] theorem State.endInternal_core (s : State) (f : Fill) : (State.endInternal s f).core = s.core := by
  unfold State.endInternal; dsimp only; rw [State.planFill_core, core_mk]; simp only [core_eta]; rw [foldl_core, foldl_core]
  · intro t c; split
    · simp
    · split <;> simp
  · intro t c; simp

@[simp] theorem State.hardResult_core (s : State) (c : Nat) (result : Nat) : (State.hardResult s c result).core = s.core
    := by
  unfold State.hardResult; simp

@[simp] theorem State.abortFill_core (s : State) : (State.abortFill s).core = s.core := by
  unfold State.abortFill; dsimp only
  repeat' (first | (simp; done) | split)

@[simp] theorem State.cdCmd_core (s : State) (op : Nat) : (State.cdCmd s op).st.core = s.core := by
  have hf (l : List Nat) (len : List W32) (t : State) :
      (l.foldl (fun t c => t.startFill (lenOf len (groupOf c)) c) t).core = t.core :=
    foldl_core _ (fun t c => by simp) _ _
  have hg (l : List Nat) (t : State) :
      (l.foldl (fun t c => t.setBanks c { t.banks c with swapWait := true }) t).core = t.core :=
    foldl_core _ (fun t c => by simp) _ _
  unfold State.cdCmd
  dsimp only
  simp only [ite_st, ite_core, Rep.done, Rep.no]
  repeat' refine ite_eq_left_iff.2 (fun _ => ?_)
  split <;> simp only [ite_core, State.endInternal_core, hf, hg, core_mk, core_eta, ite_self, State.eventIf_core, State.abortFill_core]

theorem execFillInternal_core (lane : Lane) (s : State) : ∀ t, execFillInternal lane s = .next t → t.core = s.core := by
  rintro t ⟨⟩; simp

theorem execFillLive_core (lane : Lane) (s : State) : ∀ t, execFillLive lane s = .next t → t.core = s.core := by
  rintro t ⟨⟩; simp

theorem execSwap_core (lane : Lane) (s : State) : ∀ t, execSwap lane s = .next t → t.core = s.core := by
  rintro t ⟨⟩; simp

theorem execAbort_core (lane : Lane) (s : State) : ∀ t, execAbort lane s = .next t → t.core = s.core := by
  rintro t ⟨⟩; simp

@[simp] theorem State.launchCode_core (s : State) (codes : List (Nat × Nat × Bool)) (c : Nat) : (State.launchCode s
    codes c).2.core = s.core := by
  unfold State.launchCode; try dsimp only
  repeat' (first | (simp; done) | split)

@[simp] theorem State.launchIn_core (s : State) (codes : List (Nat × Nat × Bool)) (c : Nat) : (State.launchIn s codes
    c).core = s.core := by
  unfold State.launchIn; try dsimp only
  repeat' (first | (simp; done) | split)

theorem execFillLaunch_core (codes : List (Nat × Nat × Bool)) (s : State) : ∀ t, execFillLaunch codes s = .next t →
    t.core = s.core := by
  intro t h; unfold execFillLaunch at h; split at h
  · cases h
    repeat' (first | (simp; done) | split)
  · cases h

@[simp] theorem State.convertHist_core (s : State) (c : Nat) (bank : Bool) : (State.convertHist s c bank).core = s.core
    := by
  unfold State.convertHist; simp

theorem execFillConvert_core (ch : Chan) (s : State) : ∀ t, execFillConvert ch s = .next t → t.core = s.core := by
  rintro t ⟨⟩; dsimp only
  repeat' (first | (simp; done) | split)

theorem execChannelBankSwap_core (ch : Chan) (s : State) : ∀ t, execChannelBankSwap ch s = .next t → t.core = s.core := by
  rintro t ⟨⟩; dsimp only
  repeat' (first | (simp; done) | split)

@[simp] theorem State.cdInc_core (s : State) : (State.cdInc s).core = s.core := by
  unfold State.cdInc; simp

@[simp] theorem State.cdStore_core (t : State) (v : Nat) : (State.cdStore t v).core = t.core := by
  unfold State.cdStore; try dsimp only
  repeat' (first | (simp; done) | split)

@[simp] theorem State.cdDataWrite_core (s : State) (data : W32) (be : BitVec 4) : (State.cdDataWrite s data be).st.core
    = s.core := by
  unfold State.cdDataWrite
  dsimp only
  refine State.guardedR_core _ _ _ _ _ _ (State.merged_core _ _ _ _ _ (fun t => ?_) (by decide))
  simp

theorem execCdTableWrite_core (lane : Lane) (data : W32) (be : BitVec 4) (s : State)
    : ∀ t, execCdTableWrite lane data be s = .next t → t.core = s.core := by
  rintro t ⟨⟩; simp

@[simp] theorem State.cdDataRead_core (s : State) : (State.cdDataRead s).st.core = s.core := by
  unfold State.cdDataRead; simp

theorem execCdTableReadAutoinc_core (lane : Lane) (s : State) : ∀ t, execCdTableReadAutoinc lane s = .next t → t.core
    = s.core := by
  rintro t ⟨⟩; simp

@[simp] theorem State.skwWrite_core (s : State) (data : W32) (be : BitVec 4) : (State.skwWrite s data be).st.core = s.core
    := by
  unfold State.skwWrite; simp

theorem execSkewClear_core (lane : Lane) (data : W32) (be : BitVec 4) (s : State) : ∀ t, execSkewClear lane data be s
    = .next t → t.core = s.core := by
  rintro t ⟨⟩; simp

@[simp] theorem State.setRings_core (s : State) (c tick next : Nat) (rs : List RingCell) : (State.setRings s c tick
    next rs).core = s.core := by
  unfold State.setRings; simp

@[simp] theorem State.freeRing_core (s : State) (c : Nat) (r : Nat) (tick : Nat) : (State.freeRing s c r tick).core
    = s.core := by
  unfold State.freeRing; simp

@[simp] theorem State.startSamplers_core (s : State) : (State.startSamplers s).core = s.core := by
  unfold State.startSamplers; simp

@[simp] theorem State.stopSamplers_core (s : State) : (State.stopSamplers s).core = s.core := by
  unfold State.stopSamplers; simp

@[simp] theorem State.unitIn_core (s : State) (p : Capture) (u : WaveUnit) : (State.unitIn s p u).core = s.core := by
  unfold State.unitIn; simp

theorem execRingFreeze_core (ch : Chan) (s : State) : ∀ t, execRingFreeze ch s = .next t → t.core = s.core := by
  rintro t ⟨⟩; dsimp only
  repeat' (first | (simp; done) | split)

@[simp] theorem State.release_core (s : State) (c : Nat) (r : Nat) (tick : Nat) : (State.release s c r tick).core = s.core
    := by
  unfold State.release; dsimp only
  repeat' (first | (simp; done) | split)

@[simp] theorem State.keepRing_core (s : State) (c r now : Nat) (x : RingCell) : (State.keepRing s c r now x).core =
    s.core := by
  unfold State.keepRing; try dsimp only
  repeat' (first | (simp; done) | split)

@[simp] theorem State.unrelease_core (s : State) (now key : Nat) (x : RingCell) : (State.unrelease s now key x).core =
    s.core := by
  unfold State.unrelease; try dsimp only
  repeat' (first | (simp; done) | split)

@[simp] theorem State.keepWindow_core (s : State) (first : Nat) (last : Nat) (now : Nat) :
    (State.keepWindow s first last now).core = s.core := by
  unfold State.keepWindow; simp

theorem execKeepWindowReceive_core (fromB : Bool) (first : Nat) (last : Nat) (now : Nat) (s : State)
    : ∀ t, execKeepWindowReceive fromB first last now s = .next t → t.core = s.core := by
  rintro t ⟨⟩; simp

@[simp] theorem State.releaseThrough_core (s : State) (x : Nat) (now : Nat) : (State.releaseThrough s x now).core = s.core
    := by
  unfold State.releaseThrough; simp

theorem execReleaseThroughReceive_core (issuer : Issuer) (x now : Nat) (s : State) : ∀ t,
    execReleaseThroughReceive issuer x now s = .next t → t.core = s.core := by
  rintro t ⟨⟩; simp

theorem execHoldBudgetExpire_core (ch : Chan) (ring : Fin 4) (s : State) : ∀ t, execHoldBudgetExpire ch ring s
    = .next t → t.core = s.core := by
  rintro t ⟨⟩; repeat' split
  all_goals simp

theorem execAdcConversionStart_core (adc : Adc) (now : Nat) (s : State) : ∀ t, execAdcConversionStart adc now s
    = .next t → t.core = s.core := by
  rintro t ⟨⟩; dsimp only
  repeat' (first | (simp; done) | split)

theorem execAdcConversionEnd_core (adc : Adc) (raw : List Nat) (s : State) : ∀ t, execAdcConversionEnd adc raw s
    = .next t → t.core = s.core := by
  intro t h; unfold execAdcConversionEnd at h; split at h
  · cases h; dsimp only
    repeat' (first | (simp; done) | split)
  · cases h

@[simp] theorem State.freeAfter_core (s : State) (c : Nat) (r : Nat) : (State.freeAfter s c r).core = s.core := by
  unfold State.freeAfter; simp

theorem execWaveDeadline_core (ch : Chan) (ring : Fin 4) (s : State) : ∀ t, execWaveDeadline ch ring s = .next t → t.core
    = s.core := by
  rintro t ⟨⟩; dsimp only
  repeat' (first | (simp; done) | split)

theorem execWaveUnitWrite_core (g : Group) (s : State) : ∀ t, execWaveUnitWrite g s = .next t → t.core = s.core := by
  rintro t ⟨⟩; dsimp only
  repeat' (first | (simp; done) | split)

@[simp] theorem State.tsEntry_core (s : State) (ty : Nat) (cause : Nat) (detail : Nat) :
    (State.tsEntry s ty cause detail).core = s.core := by
  unfold State.tsEntry; simp

@[simp] theorem State.sendDreq_core (s : State) (t3 : Int) : (State.sendDreq s t3).core = s.core := by
  unfold State.sendDreq; try dsimp only
  repeat' (first | (simp; done) | split)

@[simp] theorem State.firstDreq_core (s : State) : (State.firstDreq s).core = s.core := by
  unfold State.firstDreq; try dsimp only
  repeat' (first | (simp; done) | split)

@[simp] theorem State.tbGo_core (s : State) (t : TbState) (cause : Nat) : (State.tbGo s t cause).core = s.core := by
  unfold State.tbGo; simp

@[simp] theorem State.learned_core (s : State) : (State.learned s).2.core = s.core := by
  unfold State.learned; try dsimp only
  repeat' (first | (simp; done) | split)

@[simp] theorem State.xoTemp_core (s : State) : (State.xoTemp s).2.core = s.core := by
  unfold State.xoTemp; dsimp only; split <;> simp

@[simp] theorem State.toXo_core (s : State) : (State.toXo s).core = s.core := by
  unfold State.toXo; try dsimp only
  repeat' (first | (simp; done) | split)

@[simp] theorem State.enterHoldover_core (s : State) (cause : Nat) : (State.enterHoldover s cause).core = s.core := by
  unfold State.enterHoldover; simp

@[simp] theorem State.tbLaneLost_core (s : State) (cause : Nat) : (State.tbLaneLost s cause).core = s.core := by
  unfold State.tbLaneLost; dsimp only
  repeat' (first | (simp; done) | split)

@[simp] theorem State.tbLaneLock_core (s : State) : (State.tbLaneLock s).core = s.core := by
  unfold State.tbLaneLock; simp

@[simp] theorem State.timeStep_core (s : State) (off : Int) : (State.timeStep s off).core = s.core := by
  unfold State.timeStep; simp

@[simp] theorem State.slew_core (s : State) (off : Int) : (State.slew s off).core = s.core := by
  unfold State.slew; simp

@[simp] theorem State.holdStep_core (s : State) : (State.holdStep s).core = s.core := by
  unfold State.holdStep; simp

@[simp] theorem State.stepFromHoldover_core (s : State) (off : Int) : (State.stepFromHoldover s off).core = s.core :=
    by
  unfold State.stepFromHoldover; try dsimp only
  repeat' (first | (simp; done) | split)

@[simp] theorem State.towardsLock_core (s : State) : (State.towardsLock s).core = s.core := by
  unfold State.towardsLock; simp

@[simp] theorem State.servo_core (s : State) (off : Int) : (State.servo s off).core = s.core := by
  unfold State.servo; dsimp only
  repeat' (first | (simp; done) | split)

@[simp] theorem State.syncSample_core (s : State) (seqId : Nat) (fwd : Int) : (State.syncSample s seqId fwd).core = s.core
    := by
  unfold State.syncSample; simp

@[simp] theorem State.ptpDiscard_core (s : State) : (State.ptpDiscard s).core = s.core := by
  unfold State.ptpDiscard; simp

@[simp] theorem State.takeTs_core (s : State) (go : State → State) (h : ∀ t, (go t).core = t.core) :
    (State.takeTs s go).core = s.core := by
  unfold State.takeTs; try dsimp only
  split <;> simp [h]

theorem execPtpSync_core (m : PtpMsg) (twoStep : Bool) (t1 corr : Int) (t2 : Instant) (s : State) : ∀
    t, execPtpSync m twoStep t1 corr t2 s = .next t → t.core = s.core := by
  rintro t ⟨⟩
  refine (State.takeTs_core _ _ (fun t => ?_)).trans (State.advanceTo_core _ _)
  repeat' (first | (simp; done) | split)

theorem execPtpFollowUp_core (m : PtpMsg) (t1 : Int) (corr : Int) (s : State) : ∀ t, execPtpFollowUp m t1 corr s
    = .next t → t.core = s.core := by
  rintro t ⟨⟩
  refine (State.takeTs_core _ _ (fun t => ?_))
  repeat' (first | (simp; done) | split)

theorem execFollowUpTimeout_core (s : State) : ∀ t, execFollowUpTimeout s = .next t → t.core = s.core := by
  rintro t ⟨⟩; simp

theorem execPtpDelayResp_core (m : PtpMsg) (reqPort : Nat) (t4 : Int) (corr : Int) (s : State)
    : ∀ t, execPtpDelayResp m reqPort t4 corr s = .next t → t.core = s.core := by
  rintro t ⟨⟩
  refine (State.takeTs_core _ _ (fun t => ?_))
  repeat' (first | (simp; done) | split)

theorem execPtpAnnounce_core (m : PtpMsg) (gmId : W64) (ptpScale : Bool) (utcValid : Bool) (utc : BitVec 16) (s : State)
    : ∀ t, execPtpAnnounce m gmId ptpScale utcValid utc s = .next t → t.core = s.core := by
  rintro t ⟨⟩
  refine (State.takeTs_core _ _ (fun t => ?_))
  repeat' (first | (simp; done) | split)

theorem execDelayReqSend_core (t3 : Instant) (s : State) : ∀ t, execDelayReqSend t3 s = .next t →
    t.core = s.core := by
  rintro t ⟨⟩; simp

theorem execAnnounceTimeout_core (s : State) : ∀ t, execAnnounceTimeout s = .next t → t.core = s.core := by
  rintro t ⟨⟩; simp

theorem execPtpStaleExpire_core (s : State) : ∀ t, execPtpStaleExpire s = .next t → t.core = s.core := by
  rintro t ⟨⟩; simp

theorem execSlewDone_core (s : State) : ∀ t, execSlewDone s = .next t → t.core = s.core := by
  rintro t ⟨⟩; dsimp only
  repeat' (first | (simp; done) | split)

theorem execPendingStep_core (s : State) : ∀ t, execPendingStep s = .next t → t.core = s.core := by
  rintro t ⟨⟩; try dsimp only
  repeat' (first | (simp; done) | split)

theorem execPhaseJump_core (delta : Int) (s : State) : ∀ t, execPhaseJump delta s = .next t → t.core = s.core := by
  rintro t ⟨⟩; simp

theorem execHoldoverUpdate_core (tempMilliK : Int) (s : State) : ∀ t, execHoldoverUpdate tempMilliK s = .next t → t.core
    = s.core := by
  rintro t ⟨⟩; simp

@[simp] theorem State.tbIncWrite_core (s : State) (high : Bool) (data : W32) (be : BitVec 4) :
    (State.tbIncWrite s high data be).st.core = s.core := by
  unfold State.tbIncWrite; simp

theorem execTbIncWrite_core (lane : Lane) (high : Bool) (data : W32) (be : BitVec 4) (s : State)
    : ∀ t, execTbIncWrite lane high data be s = .next t → t.core = s.core := by
  rintro t ⟨⟩; simp

@[simp] theorem State.unblock_core (s : State) (n cause : Nat) : (State.unblock s n cause).core = s.core := by
  unfold State.unblock; try dsimp only
  repeat' (first | (simp; done) | split)

@[simp] theorem State.lacksFrame_core (s : State) (n : Nat) : (State.lacksFrame s n).core = s.core := by
  unfold State.lacksFrame; try dsimp only
  repeat' (first | (simp; done) | split)

@[simp] theorem State.framesCut_core (s : State) (n : Nat) : (State.framesCut s n).core = s.core := by
  unfold State.framesCut; dsimp only; repeat' split
  all_goals simp

@[simp] theorem State.startBringUp_core (s : State) (n : Nat) : (State.startBringUp s n).core = s.core := by
  unfold State.startBringUp; simp

@[simp] theorem State.startOthers_core (s : State) : (State.startOthers s).core = s.core := by
  unfold State.startOthers; simp

@[simp] theorem State.laneReachesUp_core (s : State) (n : Nat) (l : LaneSt) : (State.laneReachesUp s n l).core = s.core
    := by
  unfold State.laneReachesUp; simp

@[simp] theorem State.laneDrop_core (s : State) (n : Nat) : (State.laneDrop s n).core = s.core := by
  unfold State.laneDrop; simp

@[simp] theorem State.laneLost_core (s : State) (n cause : Nat) : (State.laneLost s n cause).core = s.core := by
  unfold State.laneLost; try dsimp only
  repeat' (first | (simp; done) | split)

@[simp] theorem State.bringUpFails_core (s : State) (n : Nat) : (State.bringUpFails s n).core = s.core := by
  unfold State.bringUpFails; try dsimp only
  repeat' (first | (simp; done) | split)

@[simp] theorem State.bringUpStep_core (s : State) (n : Nat) (r : BringUp) (k : Nat) : (State.bringUpStep s n r
    k).core = s.core := by
  unfold State.bringUpStep; try dsimp only
  repeat' (first | (simp; done) | split)

@[simp] theorem State.bringUpTo_core (s : State) (n : Nat) (r : BringUp) : (State.bringUpTo s n r).core = s.core := by
  unfold State.bringUpTo; try dsimp only
  repeat' (first | (simp; done) | split)

@[simp] theorem State.park_core (s : State) (n : Nat) : (State.park s n).core = s.core := by
  unfold State.park; simp

@[simp] theorem State.unpark_core (s : State) (n : Nat) : (State.unpark s n).core = s.core := by
  unfold State.unpark; simp

@[simp] theorem State.unparkAll_core (s : State) : (State.unparkAll s).core = s.core := by
  unfold State.unparkAll; simp

@[simp] theorem State.parkExtra_core (s : State) : (State.parkExtra s).core = s.core := by
  unfold State.parkExtra; simp

@[simp] theorem State.lanesDown_core (s : State) (all : Bool) : (State.lanesDown s all).core = s.core := by
  unfold State.lanesDown; simp

@[simp] theorem State.tapTakes_core (s : State) : (State.tapTakes s).core = s.core := by
  unfold State.tapTakes; simp

@[simp] theorem State.drivePins_core (s : State) : (State.drivePins s).core = s.core := by
  unfold State.drivePins; simp

@[simp] theorem State.tapEnters_core (s : State) : (State.tapEnters s).core = s.core := by
  unfold State.tapEnters; simp

@[simp] theorem State.tapReleases_core (s : State) : (State.tapReleases s).core = s.core := by
  unfold State.tapReleases; simp

theorem execBlindBringup_core (x : LaneRun) (s : State) : ∀ t, execBlindBringup x s = .next t → t.core =
    s.core := by
  intro t h; unfold execBlindBringup at h; split at h
  · cases h; try dsimp only
    repeat' (first | (simp; done) | split)
  · cases h

theorem execLosClear_core (n : Lane) (r : BringUp) (s : State) : ∀ t, execLosClear n r s = .next t → t.core = s.core := by
  intro t h; unfold execLosClear at h; split at h
  · cases h; dsimp only
    repeat' (first | (simp; done) | split)
  · cases h

theorem execLos_core (n : Lane) (s : State) : ∀ t, execLos n s = .next t → t.core = s.core := by
  rintro t ⟨⟩; simp

@[simp] theorem State.loseLock_core (s : State) (n : Nat) : (State.loseLock s n).core = s.core := by
  unfold State.loseLock; try dsimp only
  repeat' (first | (simp; done) | split)

theorem execLol_core (n : Lane) (s : State) : ∀ t, execLol n s = .next t → t.core = s.core := by
  rintro t ⟨⟩; simp

@[simp] theorem State.judgeFom_core (s : State) (n fom : Nat) : (State.judgeFom s n fom).core = s.core := by
  unfold State.judgeFom; try dsimp only
  repeat' (first | (simp; done) | split)

theorem execFomMeasure_core (n : Lane) (eye : Eye) (s : State) : ∀ t, execFomMeasure n eye s = .next t → t.core =
    s.core := by
  intro t h; unfold execFomMeasure at h; split at h
  · cases h; try dsimp only
    repeat' (first | (simp; done) | split)
  · cases h

@[simp] theorem State.adapt_core (s : State) (n f fMinus fPlus : Nat) : (State.adapt s n f fMinus fPlus).core = s.core
    := by
  unfold State.adapt; try dsimp only
  repeat' (first | (simp; done) | split)

theorem execAdaptCycle_core (n : Lane) (eye eyeMinus eyePlus : Eye) (s : State) : ∀ t, execAdaptCycle n eye eyeMinus
    eyePlus s = .next t → t.core = s.core := by
  intro t h; unfold execAdaptCycle at h; split at h
  · cases h; try dsimp only
    repeat' (first | (simp; done) | split)
  · cases h

theorem execCtleManualStep_core (n : Lane) (s : State) : ∀ t, execCtleManualStep n s = .next t → t.core = s.core := by
  rintro t ⟨⟩; simp

@[simp] theorem State.laneCfgWrite_core (s : State) (n : Nat) (data : W32) (be : BitVec 4) :
    (State.laneCfgWrite s n data be).st.core = s.core := by
  unfold State.laneCfgWrite; simp

theorem execRetrain_core (lane : Lane) (n : Lane) (data : W32) (be : BitVec 4) (s : State)
    : ∀ t, execRetrain lane n data be s = .next t → t.core = s.core := by
  rintro t ⟨⟩; simp

@[simp] theorem State.prbsStretch_core (s : State) (n : Nat) (bs : List Bool) : (State.prbsStretch s n bs).core =
    s.core := by
  show (State.eventIf _ _ _ _).core = s.core
  simp

@[simp] theorem State.prbsLane_core (s : State) (n : Nat) (old v : W32) (inj : Bool) : (State.prbsLane s n old v
    inj).core = s.core := by
  unfold State.prbsLane; try dsimp only
  repeat' (first | (simp; done) | split)

@[simp] theorem State.prbsWrite_core (s : State) (req : Nat) (data : W32) (be : BitVec 4) :
    (State.prbsWrite s req data be).st.core = s.core := by
  unfold State.prbsWrite; simp

theorem execPrbsPatternSet_core (lane : Lane) (data : W32) (be : BitVec 4) (s : State)
    : ∀ t, execPrbsPatternSet lane data be s = .next t → t.core = s.core := by
  rintro t ⟨⟩; simp

theorem execInjOne_core (lane : Lane) (data : W32) (be : BitVec 4) (s : State) : ∀ t, execInjOne lane data be s
    = .next t → t.core = s.core := by
  rintro t ⟨⟩; simp

@[simp] theorem State.prbsClear_core (s : State) (go : Bool) : (State.prbsClear s go).st.core = s.core := by
  unfold State.prbsClear; simp

theorem execPrbsClear_core (lane : Lane) (s : State) : ∀ t, execPrbsClear lane s = .next t → t.core = s.core := by
  rintro t ⟨⟩; simp

theorem execPrbsSync_core (x : LaneBits) (s : State) : ∀ t, execPrbsSync x s = .next t → t.core =
    s.core := by
  rintro t ⟨⟩; simp

theorem execPrbsSyncLoss_core (x : LaneBits) (s : State) : ∀ t, execPrbsSyncLoss x s = .next t →
    t.core = s.core := by
  rintro t ⟨⟩; simp

@[simp] theorem State.setPeer_core (s : State) (i : Nat) (p : Peer) : (State.setPeer s i p).core = s.core := by
  unfold State.setPeer; simp

@[simp] theorem State.sendUnit_core (s : State) (i : Nat) (u : W64) : (State.sendUnit s i u).core = s.core := by
  unfold State.sendUnit; split <;> simp

@[simp] theorem State.latch_core (s : State) (rs : List Nat) : (State.latch s rs).core = s.core := by
  unfold State.latch; try dsimp only
  repeat' (first | (simp; done) | split)

@[simp] theorem State.latchNow_core (s : State) (a : Nat) : (State.latchNow s a).core = s.core := by
  unfold State.latchNow; simp

end Sys2Proof.Machine
end

