-- ==== Sys2Proof/Laws/CoreData.lean ====
section
/-! SUPPORT. The hit path, the Whisk and the slices leave the core. -/

namespace Sys2Proof.Machine

theorem execGroupFifoWrite_core (g : Group) (s : State) : ∀ t, execGroupFifoWrite g s = .next t → t.core = s.core := by
  rintro t ⟨⟩; repeat' split
  all_goals simp

theorem execGfifoLossWrite_core (g : Group) (s : State) : ∀ t, execGfifoLossWrite g s = .next t → t.core = s.core := by
  rintro t ⟨⟩; simp

@[simp] theorem State.retain_core (s : State) (now : Nat) (g : Nat) (e : Ent) : (State.retain s now g e).core = s.core := by
  unfold State.retain; dsimp only
  repeat' (first | (simp; done) | split)

@[simp] theorem State.readCopy_core (s : State) (word : Nat) (c : RetCopy) : (State.readCopy s word c).2.core = s.core := by
  unfold State.readCopy; split <;> simp

@[simp] theorem State.readCopies_core (w : Nat) (l : List RetCopy) (s : State) :
    (State.readCopies w l s).2.core = s.core := by
  induction l generalizing w s with
  | nil => rfl
  | cons c t ih => unfold State.readCopies; dsimp only; rw [ih]; simp

@[simp] theorem State.walkBeat_core (s : State) (w : List RetCopy) : (State.walkBeat s w).core = s.core := by
  unfold State.walkBeat; dsimp only
  repeat' (first | (simp; done) | split)

theorem execInnerLinkBeat_core (now : Nat) (s : State) : ∀ t, execInnerLinkBeat now s = .next t → t.core = s.core := by
  rintro t ⟨⟩; dsimp only
  repeat' (first | (simp; done) | split)

@[simp] theorem State.grantOut_core (s : State) (snd : Nat) (g : Nat) : (State.grantOut s snd g).core = s.core := by
  unfold State.grantOut; simp

@[simp] theorem State.grantNext_core (s : State) : (State.grantNext s).core = s.core := by
  unfold State.grantNext; dsimp only
  repeat' (first | (simp; done) | split)

theorem execCreditReceive_core (gen : BitVec 8) (g : Group) (pages : Fin 16) (s : State)
    : ∀ t, execCreditReceive gen g pages s = .next t → t.core = s.core := by
  rintro t ⟨⟩; simp

theorem execClosedReceive_core (gen : BitVec 8) (n : W32) (s : State) : ∀ t, execClosedReceive gen n s = .next t → t.core
    = s.core := by
  rintro t ⟨⟩; simp

theorem execLevelReceive_core (gen : BitVec 8) (n : W32) (level : Fin 5) (_step : Fin 7) (s : State)
    : ∀ t, execLevelReceive gen n level _step s = .next t → t.core = s.core := by
  rintro t ⟨⟩; simp

@[simp] theorem State.lossSum_core (s : State) (cls n src ch count cause : Nat) : (State.lossSum s cls n src ch count
    cause).core = s.core := by
  unfold State.lossSum; simp

@[simp] theorem State.note_core (s : State) (e : Ent) (out : Nat) : (State.note s e out).core = s.core := by
  unfold State.note; simp

@[simp] theorem State.enqueue_core (s : State) (q : Nat) (es : List Ent) : (State.enqueue s q es).core = s.core := by
  unfold State.enqueue; simp

@[simp] theorem State.mapLoss_core (s : State) (q n src ch hits : Nat) : (State.mapLoss s q n src ch hits).core = s.core := by
  unfold State.mapLoss; simp

@[simp] theorem State.stageQueue_core (s : State) (src : Nat) (cls : Nat) (es : List Ent) :
    (State.stageQueue s src cls es).2.core = s.core := by
  unfold State.stageQueue; dsimp only
  repeat' (first | (simp; done) | split)

@[simp] theorem State.prescale_core (s : State) (e : Ent) : (State.prescale s e).2.core = s.core := by
  unfold State.prescale; simp

@[simp] theorem State.ownHit_core (s : State) (e : Ent) : (State.ownHit s e).core = s.core := by
  unfold State.ownHit; simp

@[simp] theorem State.ownWave_core (s : State) (es : List Ent) : (State.ownWave s es).core = s.core := by
  unfold State.ownWave; dsimp only
  repeat' (first | (simp; done) | split)

@[simp] theorem State.ownLoss_core (s : State) (w : W64) : (State.ownLoss s w).core = s.core := by
  unfold State.ownLoss; simp

@[simp] theorem State.ingest_core (s : State) (g : Nat) (e : Ent) : (State.ingest s g e).core = s.core := by
  unfold State.ingest; dsimp only
  repeat' (first | (simp; done) | split)

@[simp] theorem State.oldOutcome_core (s : State) (e : Ent) : (State.oldOutcome s e).2.core = s.core := by
  unfold State.oldOutcome
  extract_lets w val
  split
  · rfl
  · split
    · exact State.draw_core s
    · rfl

@[simp] theorem State.passCopy_core (s : State) (tick : Nat) (e : Ent) : (State.passCopy s tick e).core = s.core := by
  unfold State.passCopy; dsimp only
  repeat' (first | (simp; done) | split)

@[simp] theorem State.countBeat_core (s : State) (corr : BitVec 4) (n : Nat) : (State.countBeat s corr n).core = s.core := by
  unfold State.countBeat; simp

@[simp] theorem State.ingestCopy_core (s : State) (g : Nat) (tick : Nat) (e : Ent) : (State.ingestCopy s g tick e).core
    = s.core := by
  unfold State.ingestCopy; simp

@[simp] theorem State.takeBeat_core (s : State) (ok : Bool) (x : BeatBits) : (State.takeBeat s ok x).core = s.core := by
  unfold State.takeBeat; dsimp only
  split
  · rfl
  · simp only [ite_core]
    rw [foldl_core]
    · simp
    · intro t p
      split <;> simp

@[simp] theorem State.insertBarrier_core (s : State) (b : Barrier) : (State.insertBarrier s b).core = s.core := by
  unfold State.insertBarrier; try dsimp only
  repeat' (first | (simp; done) | split)

@[simp] theorem State.recordBarrier_core (s : State) (b : Barrier) : (State.recordBarrier s b).core = s.core := by
  unfold State.recordBarrier; split <;> simp

@[simp] theorem State.standBarrier_core (s : State) (b : Barrier) : (State.standBarrier s b).core = s.core := by
  unfold State.standBarrier; try dsimp only
  repeat' (first | (simp; done) | split)

@[simp] theorem State.markLost_core (s : State) : (State.markLost s).core = s.core := by
  unfold State.markLost; simp

@[simp] theorem State.flushAt_core (s : State) (n : Nat) (id : Nat) : (State.flushAt s n id).core = s.core := by
  unfold State.flushAt; dsimp only; split <;> simp

@[simp] theorem State.runFlushes_core (s : State) : (State.runFlushes s).core = s.core := by
  unfold State.runFlushes; dsimp only; rw [foldl_core]
  · simp
  · intro t f; simp

@[simp] theorem State.flushNow_core (s : State) (id : Nat) : (State.flushNow s id).core = s.core := by
  unfold State.flushNow; simp

@[simp] theorem State.flushWrite_core (s : State) (data : W32) (be : BitVec 4) : (State.flushWrite s data be).st.core
    = s.core := by
  unfold State.flushWrite; simp

@[simp] theorem State.flushAlias_core (s : State) (data : W32) (be : BitVec 4) : (State.flushAlias s data be).st.core
    = s.core := by
  unfold State.flushAlias; simp

theorem execFlush_core (lane : Lane) (id : BitVec 16) (now : Nat) (s : State) : ∀ t, execFlush lane id now s
    = .next t → t.core = s.core := by
  rintro t ⟨⟩; simp

@[simp] theorem State.popLoRequest_core (s : State) (n : Nat) : (State.popLoRequest s n).core = s.core := by
  unfold State.popLoRequest; dsimp only
  simp only [ite_core]
  rw [State.atStage_core _ _ _ _ (fun t => by simp), State.accessHk_core _ _ _ _ (fun t => by split <;> simp)]
  simp

theorem execPqPopLo_core (lane : Lane) (s : State) : ∀ t, execPqPopLo lane s = .next t → t.core = s.core := by
  rintro t ⟨⟩; simp

@[simp] theorem State.popHi_core (s : State) (n : Nat) : (State.popHi s n).st.core = s.core := by
  unfold State.popHi; dsimp only
  repeat' (first | (simp; done) | split)

theorem execPqPopHi_core (lane : Lane) (s : State) : ∀ t, execPqPopHi lane s = .next t → t.core = s.core := by
  rintro t ⟨⟩; simp

theorem execPopStallExpire_core (lane : Lane) (s : State) : ∀ t, execPopStallExpire lane s = .next t → t.core = s.core := by
  rintro t ⟨⟩; simp

@[simp] theorem State.setWhisk_core (s : State) (w : Whisk) : (State.setWhisk s w).core = s.core := by
  unfold State.setWhisk; simp

@[simp] theorem State.gates_core (s : State) (r : Nat) (t : Nat) : (State.gates s r t).2.core = s.core := by
  unfold State.gates; simp

@[simp] theorem State.holdOff_core (s : State) (passing : List Nat) (t : Nat) : (State.holdOff s passing t).core = s.core
    := by
  unfold State.holdOff; simp

@[simp] theorem State.keepOut_core (s : State) (t : Nat) : (State.keepOut s t).core = s.core := by
  unfold State.keepOut; simp

@[simp] theorem State.passRules_core (s : State) (passing : List Nat) (t : Nat) : (State.passRules s passing t).core =
    s.core := by
  unfold State.passRules; try dsimp only
  repeat' (first | (simp; done) | split)

@[simp] theorem State.makeDecision_core (s : State) (p : PendDec) : (State.makeDecision s p).core = s.core := by
  unfold State.makeDecision; dsimp only
  repeat' (first | (simp; done) | split)

@[simp] theorem State.makeDue_core (s : State) (e : Nat) : (State.makeDue s e).core = s.core := by
  unfold State.makeDue; try dsimp only
  repeat' (first | (simp; done) | split)

@[simp] theorem State.whiskStart_core (s : State) (t : Nat) : (State.whiskStart s t).core = s.core := by
  unfold State.whiskStart; simp

@[simp] theorem State.readTables_core (s : State) : (State.readTables s).core = s.core := by
  unfold State.readTables; simp

@[simp] theorem State.summaryRise_core (s : State) (j : Nat) (t : Nat) : (State.summaryRise s j t).core = s.core := by
  unfold State.summaryRise; simp

@[simp] theorem State.evalTick_core (s : State) (t : Nat) : (State.evalTick s t).core = s.core := by
  unfold State.evalTick; simp

@[simp] theorem State.evalWait_core (s : State) (t : Nat) : (State.evalWait s t).core = s.core := by
  unfold State.evalWait; try dsimp only
  repeat' (first | (simp; done) | split)

@[simp] theorem State.whiskNext_core (s : State) : (State.whiskNext s).core = s.core := by
  unfold State.whiskNext; simp

theorem execPrimitiveArrival_core (s : State) : ∀ t, execPrimitiveArrival s = .next t → t.core = s.core := by
  rintro t ⟨⟩; dsimp only
  repeat' (first | (simp; done) | split)

theorem execReleaseThroughSend_core (s : State) : ∀ t, execReleaseThroughSend s = .next t → t.core = s.core := by
  rintro t ⟨⟩; simp

@[simp] theorem State.ringFails_core (s : State) (align : Bool) : (State.ringFails s align).core = s.core := by
  unfold State.ringFails; simp

@[simp] theorem State.trainSeen_core (s : State) (ok : Bool) : (State.trainSeen s ok).core = s.core := by
  unfold State.trainSeen; simp

@[simp] theorem State.patternSeen_core (s : State) (train : Bool) (f : BitVec 128) (skew : Bool) :
    (State.patternSeen s train f skew).core = s.core := by
  unfold State.patternSeen; try dsimp only
  repeat' (first | (simp; done) | split)

@[simp] theorem State.checkBegins_core (s : State) : (State.checkBegins s).core = s.core := by
  unfold State.checkBegins; split <;> rfl

@[simp] theorem State.ringCheckFrame_core (s : State) (ok : Bool) : (State.ringCheckFrame s ok).core = s.core := by
  unfold State.ringCheckFrame; simp

@[simp] theorem State.offerToken_core (s : State) : (State.offerToken s).2.core = s.core := by
  unfold State.offerToken; try dsimp only
  repeat' (first | (simp; done) | split)

@[simp] theorem State.headToken_core (s : State) (t : Nat) : (State.headToken s t).2.core = s.core := by
  unfold State.headToken; dsimp only
  repeat' (first | (simp; done) | split)

theorem execRingFrameOriginate_core (now : Nat) (s : State) : ∀ t, execRingFrameOriginate now s = .next t → t.core
    = s.core := by
  rintro t ⟨⟩; simp

@[simp] theorem State.limbKeep_core (s : State) (t : Nat) : (State.limbKeep s t).core = s.core := by
  unfold State.limbKeep; simp

@[simp] theorem State.limbToken_core (s : State) (tok : BitVec 16) : (State.limbToken s tok).core = s.core := by
  unfold State.limbToken; simp

theorem execRingFrameReceive_core (frame : BitVec 128) (skew : Bool) (now : Nat) (s : State)
    : ∀ t, execRingFrameReceive frame skew now s = .next t → t.core = s.core := by
  rintro t ⟨⟩; simp

theorem execRingFrameForward_core (s : State) : ∀ t, execRingFrameForward s = .next t → t.core = s.core := by
  rintro t ⟨⟩; dsimp only
  repeat' (first | (simp; done) | split)

@[simp] theorem State.busToken_core (s : State) (x : Nat) (slot : Nat) (tok : BitVec 16) :
    (State.busToken s x slot tok).core = s.core := by
  unfold State.busToken; simp

@[simp] theorem State.loopResults_core (s : State) (f : BitVec 128) (x : Nat) : (State.loopResults s f x).core = s.core
    := by
  unfold State.loopResults; dsimp only
  repeat' (first | (simp; done) | split)

theorem execRingFrameReturn_core (frame : BitVec 128) (skew : Bool) (now : Nat) (s : State)
    : ∀ t, execRingFrameReturn frame skew now s = .next t → t.core = s.core := by
  rintro t ⟨⟩; dsimp only
  repeat' (first | (simp; done) | split)

@[simp] theorem State.loopWrite_core (s : State) (data : W32) (be : BitVec 4) : (State.loopWrite s data be).st.core
    = s.core := by
  unfold State.loopWrite; simp

theorem execLoopTask_core (lane : Lane) (s : State) : ∀ t, execLoopTask lane s = .next t → t.core = s.core := by
  rintro t ⟨⟩; simp

theorem execLoopTaskDone_core (s : State) : ∀ t, execLoopTaskDone s = .next t → t.core = s.core := by
  rintro t ⟨⟩; dsimp only
  repeat' (first | (simp; done) | split)

theorem execPressureSample_core (awaiting : Nat) (s : State) : ∀ t, execPressureSample awaiting s = .next t → t.core
    = s.core := by
  rintro t ⟨⟩; simp

@[simp] theorem State.throttleWrite_core (s : State) (data : W32) (be : BitVec 4) :
    (State.throttleWrite s data be).st.core = s.core := by
  unfold State.throttleWrite; simp

@[simp] theorem State.throttleAlias_core (s : State) (data : W32) (be : BitVec 4) :
    (State.throttleAlias s data be).st.core = s.core := by
  unfold State.throttleAlias; simp

theorem execThrottle_core (lane : Lane) (data : W32) (be : BitVec 4) (s : State) : ∀ t, execThrottle lane data be s
    = .next t → t.core = s.core := by
  rintro t ⟨⟩; simp

@[simp] theorem State.runFirst_core (s : State) : (State.runFirst s).core = s.core := by
  unfold State.runFirst; dsimp only
  rw [State.whiskStart_core, core_mk, core_eta, State.latch_core, State.setFld_core, State.setCd_core]

@[simp] theorem State.groupBoundary_core (s : State) : (State.groupBoundary s).core = s.core := by
  unfold State.groupBoundary; dsimp only
  repeat' (first | (simp; done) | split)

@[simp] theorem State.openSlice_core (s : State) (n : Nat) : (State.openSlice s n).core = s.core := by
  unfold State.openSlice; simp

theorem execSliceClose_core (s : State) : ∀ t, execSliceClose s = .next t → t.core = s.core := by
  rintro t ⟨⟩; dsimp only
  repeat' (first | (simp; done) | split)

theorem execPeerDeadline_core (s : State) : ∀ t, execPeerDeadline s = .next t → t.core = s.core := by
  rintro t ⟨⟩; dsimp only
  repeat' (first | (simp; done) | split)

@[simp] theorem State.pantryLoss_core (s : State) (n : Nat) (src : Nat) (ch : Nat) (count : Nat) :
    (State.pantryLoss s n src ch count).core = s.core := by
  unfold State.pantryLoss; dsimp only; rw [State.uncorrLoss_core, State.setCd_core, State.draw_core]

@[simp] theorem State.recordSection_core (s : State) (n : Nat) (level : Nat) : (State.recordSection s n level).2.core
    = s.core := by
  unfold State.recordSection; dsimp only
  rw [foldl_core_snd]
  intro a x
  repeat' (first | (simp; done) | split)

@[simp] theorem State.frameLosses_core (s : State) (n : Nat) : (State.frameLosses s n).core = s.core := by
  unfold State.frameLosses; dsimp only
  rw [State.setCd_core, foldl_core, foldl_core, foldl_core]
  · intro t c; simp
  · intro t i; split <;> simp
  · intro t i; repeat' (first | (simp; done) | split)

@[simp] theorem State.retirePeers_core (s : State) (n : Nat) : (State.retirePeers s n).core = s.core := by
  unfold State.retirePeers; dsimp only; rw [core_mk, core_eta]

@[simp] theorem State.afterSlice_core (s : State) (n : Nat) : (State.afterSlice s n).core = s.core := by
  unfold State.afterSlice; dsimp only; rw [core_mk, core_eta, State.setCd_core, State.retirePeers_core]

@[simp] theorem State.readDrained_core (s : State) (n : Nat) : (State.readDrained s n).core = s.core := by
  unfold State.readDrained; simp

@[simp] theorem State.buildFrame_core (s : State) : (State.buildFrame s).core = s.core := by
  unfold State.buildFrame; split
  · rfl
  · dsimp only
    rw [State.afterSlice_core, State.count_core, State.count_core, State.setCd_core, State.frameLosses_core,
      State.recordSection_core, State.readDrained_core]

@[simp] theorem State.gapSlice_core (s : State) (n : Nat) (cause : Nat) : (State.gapSlice s n cause).core = s.core := by
  unfold State.gapSlice; dsimp only; rw [State.afterSlice_core, State.errLoss_core, State.setCd_core]

@[simp] theorem State.drainNext_core (s : State) : (State.drainNext s).core = s.core := by
  unfold State.drainNext; repeat' split
  all_goals simp

@[simp] theorem State.startHeadFrame_core (s : State) : (State.startHeadFrame s).core = s.core := by
  unfold State.startHeadFrame; repeat' split
  all_goals simp

end Sys2Proof.Machine
end

