-- ==== Sys2Proof/Laws/CoreLink.lean ====
section
/-! SUPPORT. Redundancy, the Press and the link leave the core. -/

namespace Sys2Proof.Machine

@[simp] theorem State.failCd_core (s : State) (b : Bool) : (State.failCd s b).core = s.core := by
  unfold State.failCd; simp

@[simp] theorem State.countFail_core (s : State) : (State.countFail s).core = s.core := by
  unfold State.countFail; simp

@[simp] theorem State.dropLater_core (s : State) (m : Nat) : (State.dropLater s m).core = s.core := by
  unfold State.dropLater; dsimp only; rw [core_mk, core_eta]

@[simp] theorem State.deadCd_core (s : State) : (State.deadCd s).core = s.core := by
  unfold State.deadCd; simp

@[simp] theorem State.switchOver_core (s : State) (cause : Nat) : (State.switchOver s cause).core = s.core := by
  unfold State.switchOver; simp

@[simp] theorem State.sameCycle_core (s : State) (cause : Nat) : (State.sameCycle s cause).core = s.core := by
  unfold State.sameCycle; try dsimp only
  repeat' (first | (simp; done) | split)

@[simp] theorem State.swCause_core (s : State) (cause : Nat) : (State.swCause s cause).core = s.core := by
  unfold State.swCause; simp

@[simp] theorem State.rejoinFails_core (s : State) (b : Bool) : (State.rejoinFails s b).core = s.core := by
  unfold State.rejoinFails; try dsimp only
  repeat' (first | (simp; done) | split)

@[simp] theorem State.cdCause_core (s : State) (d : Die) (cause : Nat) : (State.cdCause s d cause).core = s.core := by
  unfold State.cdCause; simp

@[simp] theorem State.settleCrit_core (s : State) : (State.settleCrit s).core = s.core := by
  unfold State.settleCrit; split <;> simp

theorem execBeatReceive_core (ok : Bool) (x : BeatBits) (now : Nat) (s : State) : ∀ t, execBeatReceive ok x now s
    = .next t → t.core = s.core := by
  rintro t ⟨⟩; simp

theorem execCreditGrant_core (s : State) : ∀ t, execCreditGrant s = .next t → t.core = s.core := by
  rintro t ⟨⟩; simp

theorem execWhiskTickEvaluate_core (s : State) : ∀ t, execWhiskTickEvaluate s = .next t → t.core = s.core := by
  rintro t ⟨⟩; simp

theorem execSliceDrainStart_core (s : State) : ∀ t, execSliceDrainStart s = .next t → t.core = s.core := by
  rintro t ⟨⟩; simp

theorem execHeadFrameStart_core (s : State) : ∀ t, execHeadFrameStart s = .next t → t.core = s.core := by
  rintro t ⟨⟩; simp

theorem execHeartbeatTimeout_core (s : State) : ∀ t, execHeartbeatTimeout s = .next t → t.core = s.core := by
  rintro t ⟨⟩; simp

theorem execInnerLinkUnlock_core (s : State) : ∀ t, execInnerLinkUnlock s = .next t → t.core = s.core := by
  rintro t ⟨⟩; simp

@[simp] theorem State.startRejoin_core (s : State) : (State.startRejoin s).core = s.core := by
  unfold State.startRejoin; simp

@[simp] theorem State.rdCmdWrite_core (s : State) (data : W32) (be : BitVec 4) : (State.rdCmdWrite s data be).st.core
    = s.core := by
  unfold State.rdCmdWrite; simp

theorem execSwitch_core (lane : Lane) (s : State) : ∀ t, execSwitch lane s = .next t → t.core = s.core := by
  rintro t ⟨⟩; simp

theorem execRejoin_core (lane : Lane) (s : State) : ∀ t, execRejoin lane s = .next t → t.core = s.core := by
  rintro t ⟨⟩; simp

theorem execAutoRejoin_core (s : State) : ∀ t, execAutoRejoin s = .next t → t.core = s.core := by
  rintro t ⟨⟩; simp

@[simp] theorem State.copyCfg_core (s : State) (k k' : Nat) : (State.copyCfg s k k').core = s.core := by
  unfold State.copyCfg; simp

@[simp] theorem State.mirrorAll_core (s : State) : (State.mirrorAll s).core = s.core := by
  unfold State.mirrorAll; simp

theorem execAuthPoll_core (b : Bool) (s : State) : ∀ t, execAuthPoll b s = .next t → t.core = s.core := by
  rintro t ⟨⟩; simp

@[simp] theorem State.cutFirst_core (s : State) : (State.cutFirst s).core = s.core := by
  unfold State.cutFirst; simp

@[simp] theorem State.endFirst_core (s : State) : (State.endFirst s).core = s.core := by
  unfold State.endFirst; simp

@[simp] theorem State.restartShort_core (s : State) : (State.restartShort s).core = s.core := by
  unfold State.restartShort; dsimp only
  repeat' (first | (simp; done) | split)

theorem execReplayWalkEnd_core (s : State) : ∀ t, execReplayWalkEnd s = .next t → t.core = s.core := by
  rintro t ⟨⟩; simp

theorem execWhiskCatchupEnd_core (tcu : Nat) (hold : Nat) (s : State) : ∀ t, execWhiskCatchupEnd tcu hold s
    = .next t → t.core = s.core := by
  rintro t ⟨⟩; simp

theorem execPeerRestartResend_core (s : State) : ∀ t, execPeerRestartResend s = .next t → t.core = s.core := by
  rintro t ⟨⟩; simp

theorem execCheckpointTake_core (s : State) : ∀ t, execCheckpointTake s = .next t → t.core = s.core := by
  rintro t ⟨⟩; dsimp only
  repeat' (first | (simp; done) | split)

theorem execCheckpointAck_core (dur : Nat) (s : State) : ∀ t, execCheckpointAck dur s = .next t → t.core = s.core := by
  rintro t ⟨⟩
  split
  · rfl
  · rw [State.count_core, State.count_core, State.setReg_core, State.setReg_core, State.setReg_core]
    simp only [core_mk, core_eta]
    rw [State.setCd_core, State.setOther_core]

theorem execCheckpointSkip_core (s : State) : ∀ t, execCheckpointSkip s = .next t → t.core = s.core := by
  rintro t ⟨⟩; dsimp only
  repeat' (first | (simp; done) | split)

@[simp] theorem State.handOver_core (s : State) (b : Block) : (State.handOver s b).core = s.core := by
  unfold State.handOver; simp

@[simp] theorem State.makeRoom_core (x0 : Nat) (x1 : Nat) (x2 : State) : (State.makeRoom x0 x1 x2).core = x2.core := by
  induction x0 generalizing x2 with
  | zero => rfl
  | succ f ih =>
    unfold State.makeRoom
    split
    · rfl
    · split
      · rfl
      · rw [ih]; simp

@[simp] theorem State.grantSpace_core (s : State) (want : Nat) : (State.grantSpace s want).2.core = s.core := by
  unfold State.grantSpace; try dsimp only
  repeat' (first | (simp; done) | split)

@[simp] theorem State.buffer_core (s : State) (b : Block) : (State.buffer s b).core = s.core := by
  unfold State.buffer; simp

@[simp] theorem State.passBlock_core (s : State) (b : Block) : (State.passBlock s b).core = s.core := by
  unfold State.passBlock; simp

theorem execHbdBlockReceive_core (s : State) : ∀ t, execHbdBlockReceive s = .next t → t.core = s.core := by
  rintro t ⟨⟩; dsimp only
  repeat' (first | (simp; done) | split)

@[simp] theorem State.stall_core (s : State) : (State.stall s).core = s.core := by
  unfold State.stall; simp

theorem execBlockCode_core (space : Nat) (s : State) : ∀ t, execBlockCode space s = .next t → t.core = s.core := by
  rintro t ⟨⟩; dsimp only
  repeat' (first | (simp; done) | split)

@[simp] theorem State.readInput_core (s : State) (j : Job) : (State.readInput s j).2.core = s.core := by
  unfold State.readInput; simp

theorem execPressJobResume_core (engine : Fin 8) (space : Nat) (s : State) : ∀ t, execPressJobResume engine space s
    = .next t → t.core = s.core := by
  rintro t ⟨⟩; dsimp only
  repeat' (first | (simp; done) | split)

theorem execBlockIdleEnd_core (arrived : Nat) (s : State) : ∀ t, execBlockIdleEnd arrived s = .next t → t.core = s.core
    := by
  rintro t ⟨⟩; dsimp only
  repeat' (first | (simp; done) | split)

@[simp] theorem State.capture_core (s : State) (e : XpdErr) (peer : Bool) (b : Block) (unit : Nat) (lane : Nat) :
    (State.capture s e peer b unit lane).core = s.core := by
  unfold State.capture; simp

@[simp] theorem State.verifyFail_core (s : State) (j : Job) (b : Block) (e : XpdErr) : (State.verifyFail s j b e).core
    = s.core := by
  unfold State.verifyFail; simp

theorem execBlockVerify_core (flips : List (Nat × W64)) (now : Nat) (s : State) : ∀ t, execBlockVerify flips now s
    = .next t → t.core = s.core := by
  rintro t ⟨⟩; dsimp only
  repeat' (first | (simp; done) | split)

@[simp] theorem State.aloneLost_core (s : State) (b : Block) (held : Option Nat) : (State.aloneLost s b held).core = s.core := by
  unfold State.aloneLost; try dsimp only
  repeat' (first | (simp; done) | split)

theorem execBlockRelease_core (s : State) : ∀ t, execBlockRelease s = .next t → t.core = s.core := by
  rintro t ⟨⟩; dsimp only
  repeat' (first | (simp; done) | split)

@[simp] theorem State.peerLoss_core (s : State) (n : Nat) (src : Nat) (lo : Nat) (hi : Nat) (count : Nat) (cause : Nat) :
    (State.peerLoss s n src lo hi count cause).core = s.core := by
  unfold State.peerLoss; simp

@[simp] theorem State.closeBad_core (s : State) (src : Nat) (hi : Nat) : (State.closeBad s src hi).core = s.core := by
  unfold State.closeBad; dsimp only
  repeat' (first | (simp; done) | split)

@[simp] theorem State.peerDone_core (s : State) (src : Nat) (n : Nat) : (State.peerDone s src n).core = s.core := by
  unfold State.peerDone; simp

@[simp] theorem State.peerFault_core (s : State) (src : Nat) (lane : Nat) (b : Block) (e : XpdErr) :
    (State.peerFault s src lane b e).core = s.core := by
  unfold State.peerFault; dsimp only
  repeat' (first | (simp; done) | split)

@[simp] theorem State.peerUnit_core (s : State) (src : Nat) (n : Nat) (es : List Ent) : (State.peerUnit s src n es).core
    = s.core := by
  unfold State.peerUnit; dsimp only
  repeat' (first | (simp; done) | split)

@[simp] theorem State.peerLateBlock_core (s : State) (src : Nat) (hits : Nat) (first last : Bool) :
    (State.peerLateBlock s src hits first last).core = s.core := by
  unfold State.peerLateBlock; dsimp only
  repeat' (first | (simp; done) | split)

@[simp] theorem State.peerAlone_core (s : State) (src : Nat) (w : W64) : (State.peerAlone s src w).core = s.core := by
  unfold State.peerAlone; dsimp only
  repeat' (first | (simp; done) | split)

@[simp] theorem State.peerRecords_core (s : State) (src : Nat) (b : Block) (ws : List W64) :
    (State.peerRecords s src b ws).core = s.core := by
  unfold State.peerRecords; dsimp only
  repeat' (first | (simp; done) | split)

@[simp] theorem State.expandNext_core (s : State) (i : Nat) : (State.expandNext s i).core = s.core := by
  unfold State.expandNext; dsimp only
  repeat' (first | (simp; done) | split)

theorem execPeerBlockExpand_core (src : Fin 8) (s : State) : ∀ t, execPeerBlockExpand src s = .next t → t.core = s.core
    := by
  rintro t ⟨⟩; simp

@[simp] theorem State.settle_core (s : State) (queued : List (Nat × Nat)) : (State.settle s queued).core = s.core := by
  unfold State.settle; simp

@[simp] theorem State.cutWaiting_core (s : State) : (State.cutWaiting s).core = s.core := by
  unfold State.cutWaiting; dsimp only
  repeat' (first | (simp; done) | split)

@[simp] theorem State.total_core (s : State) (i : Nat) (n : Nat) : (State.total s i n).core = s.core := by
  unfold State.total; simp

@[simp] theorem State.sendFrame_core (s : State) (lane : Nat) (f : Frame) (again : Bool) (departs : List Nat) :
    (State.sendFrame s lane f again departs).core = s.core := by
  unfold State.sendFrame; simp

theorem execFrameTransmit_core (queued : List (Nat × Nat)) (departs : List Nat) (s : State)
    : ∀ t, execFrameTransmit queued departs s = .next t → t.core = s.core := by
  rintro t ⟨⟩; dsimp only
  repeat' (first | (simp; done) | split)

@[simp] theorem State.frameFault_core (s : State) (lane : Nat) (crc : Bool) : (State.frameFault s lane crc).core = s.core
    := by
  unfold State.frameFault; simp

@[simp] theorem State.replayShort_core (s : State) (src : Nat) : (State.replayShort s src).core = s.core := by
  unfold State.replayShort; simp

@[simp] theorem State.peerFrame_core (s : State) (src : Nat) (fseq : Nat) (bs : List (Nat × Block)) :
    (State.peerFrame s src fseq bs).core = s.core := by
  unfold State.peerFrame; simp

@[simp] theorem State.dataWhole_core (s : State) (n : Nat) (head : W64) (body : List W64) : (State.dataWhole s n head
    body).core = s.core := by
  unfold State.dataWhole; try dsimp only
  repeat' (first | (simp; done) | split)

@[simp] theorem State.unitFault_core (s : State) (lane : Nat) : (State.unitFault s lane).core = s.core := by
  unfold State.unitFault; simp

@[simp] theorem State.unit_core (s : State) (lane : Nat) (u : W64) (bad : Bool) (accepted : Bool) (go : State → State)
    (h_go : ∀ t, (go t).core = t.core) : (State.unit s lane u bad accepted go).core = s.core := by
  unfold State.unit
  repeat' split
  all_goals simp [h_go]

@[simp] theorem State.headGen_core (s : State) (u : W64) (go : State → State) (h_go : ∀ t, (go t).core = t.core) :
    (State.headGen s u go).core = s.core := by
  unfold State.headGen; dsimp only; repeat' split
  all_goals simp_all [apply_ite]

@[simp] theorem State.refusePeer_core (s : State) (n : Nat) : (State.refusePeer s n).core = s.core := by
  unfold State.refusePeer; simp

@[simp] theorem State.admitPeer_core (s : State) (n : Nat) (src : Nat) (serial : W32) : (State.admitPeer s n src
    serial).core = s.core := by
  unfold State.admitPeer; try dsimp only
  repeat' (first | (simp; done) | split)

theorem execSlotIdleReceive_core (n : Lane) (u : W64) (s : State) : ∀ t, execSlotIdleReceive n u s = .next t → t.core
    = s.core := by
  rintro t ⟨⟩; simp

theorem execPeerAnnounceTimeout_core (n : Lane) (s : State) : ∀ t, execPeerAnnounceTimeout n s = .next t → t.core = s.core
    := by
  rintro t ⟨⟩; simp

theorem execCrReceive_core (n : Lane) (u : W64) (s : State) : ∀ t, execCrReceive n u s = .next t → t.core = s.core := by
  rintro t ⟨⟩; simp

@[simp] theorem State.repeatCr_core (s : State) (c : Cd) (gen : BitVec 8) : (State.repeatCr s c gen).core = s.core := by
  unfold State.repeatCr; rw [foldl_core]; intro t i; simp

theorem execCrRepeat_core (s : State) : ∀ t, execCrRepeat s = .next t → t.core = s.core := by
  rintro t ⟨⟩; simp

theorem execSackSend_core (src : Fin 8) (n : W32) (s : State) : ∀ t, execSackSend src n s = .next t → t.core = s.core := by
  rintro t ⟨⟩; simp

theorem execSackRepeat_core (s : State) : ∀ t, execSackRepeat s = .next t → t.core = s.core := by
  rintro t ⟨⟩
  split
  · rfl
  · rw [foldl_core]
    intro t i
    split <;> simp

theorem execSackReceive_core (n : Lane) (u : W64) (s : State) : ∀ t, execSackReceive n u s = .next t → t.core = s.core := by
  rintro t ⟨⟩
  refine State.unit_core _ _ _ _ _ _ (fun t => ?_)
  rw [State.headGen_core _ _ _ (fun v => by simp)]

theorem execAckTimeout_core (s : State) : ∀ t, execAckTimeout s = .next t → t.core = s.core := by
  rintro t ⟨⟩; simp

theorem execResendSend_core (src : Fin 8) (now : Nat) (s : State) : ∀ t, execResendSend src now s = .next t → t.core
    = s.core := by
  rintro t ⟨⟩; simp

theorem execResendReceive_core (n : Lane) (u : W64) (s : State) : ∀ t, execResendReceive n u s = .next t → t.core = s.core
    := by
  rintro t ⟨⟩; simp

theorem execScResponseSend_core (lane : Lane) (s : State) : ∀ t, execScResponseSend lane s = .next t → t.core = s.core := by
  rintro t ⟨⟩; dsimp only
  repeat' (first | (simp; done) | split)

end Sys2Proof.Machine
end

