-- ==== Sys2Proof/Laws/CoreParts.lean ====
section
/-! SUPPORT. What leaves the core leaves each part of it; the operations that take an effect, and the memories of which the NVD is one. -/

namespace Sys2Proof.Machine

@[simp] theorem State.setRegAt_rest (s : State) (k : Nat) (v : W32) : ((State.setRegAt s k v)).rest = s.rest :=
    rest_of (State.setRegAt_core s k v)
@[simp] theorem State.setRegAt_nvdWf (s : State) (k : Nat) (v : W32) : ((State.setRegAt s k v)).nvdWf = s.nvdWf :=
    nvdWf_of (State.setRegAt_core s k v)
@[simp] theorem State.setRegAt_bare (s : State) (k : Nat) (v : W32) : ((State.setRegAt s k v)).bare = s.bare :=
    bare_of (State.setRegAt_core s k v)
@[simp] theorem State.setRegAt_pins (s : State) (k : Nat) (v : W32) : ((State.setRegAt s k v)).pins = s.pins :=
    pins_of (State.setRegAt_core s k v)
@[simp] theorem State.setReg_rest (s : State) (a : Nat) (v : W32) : ((State.setReg s a v)).rest = s.rest := rest_of
    (State.setReg_core s a v)
@[simp] theorem State.setReg_nvdWf (s : State) (a : Nat) (v : W32) : ((State.setReg s a v)).nvdWf = s.nvdWf :=
    nvdWf_of (State.setReg_core s a v)
@[simp] theorem State.setReg_bare (s : State) (a : Nat) (v : W32) : ((State.setReg s a v)).bare = s.bare := bare_of
    (State.setReg_core s a v)
@[simp] theorem State.setReg_pins (s : State) (a : Nat) (v : W32) : ((State.setReg s a v)).pins = s.pins := pins_of
    (State.setReg_core s a v)
@[simp] theorem State.setFld_rest (s : State) (a : Nat) (hi : Nat) (lo : Nat) (v : Nat) : ((State.setFld s a hi lo
    v)).rest = s.rest := rest_of (State.setFld_core s a hi lo v)
@[simp] theorem State.setFld_nvdWf (s : State) (a : Nat) (hi : Nat) (lo : Nat) (v : Nat) : ((State.setFld s a hi lo
    v)).nvdWf = s.nvdWf := nvdWf_of (State.setFld_core s a hi lo v)
@[simp] theorem State.setFld_bare (s : State) (a : Nat) (hi : Nat) (lo : Nat) (v : Nat) : ((State.setFld s a hi lo
    v)).bare = s.bare := bare_of (State.setFld_core s a hi lo v)
@[simp] theorem State.setFld_pins (s : State) (a : Nat) (hi : Nat) (lo : Nat) (v : Nat) : ((State.setFld s a hi lo
    v)).pins = s.pins := pins_of (State.setFld_core s a hi lo v)
@[simp] theorem State.setBit_rest (s : State) (a : Nat) (i : Nat) (b : Bool) : ((State.setBit s a i b)).rest = s.rest
    := rest_of (State.setBit_core s a i b)
@[simp] theorem State.setBit_nvdWf (s : State) (a : Nat) (i : Nat) (b : Bool) : ((State.setBit s a i b)).nvdWf =
    s.nvdWf := nvdWf_of (State.setBit_core s a i b)
@[simp] theorem State.setBit_bare (s : State) (a : Nat) (i : Nat) (b : Bool) : ((State.setBit s a i b)).bare = s.bare
    := bare_of (State.setBit_core s a i b)
@[simp] theorem State.setBit_pins (s : State) (a : Nat) (i : Nat) (b : Bool) : ((State.setBit s a i b)).pins = s.pins
    := pins_of (State.setBit_core s a i b)
@[simp] theorem State.countAt_rest (s : State) (k : Nat) (top : Nat) (n : Nat) : ((State.countAt s k top n)).rest =
    s.rest := rest_of (State.countAt_core s k top n)
@[simp] theorem State.countAt_nvdWf (s : State) (k : Nat) (top : Nat) (n : Nat) : ((State.countAt s k top n)).nvdWf =
    s.nvdWf := nvdWf_of (State.countAt_core s k top n)
@[simp] theorem State.countAt_bare (s : State) (k : Nat) (top : Nat) (n : Nat) : ((State.countAt s k top n)).bare =
    s.bare := bare_of (State.countAt_core s k top n)
@[simp] theorem State.countAt_pins (s : State) (k : Nat) (top : Nat) (n : Nat) : ((State.countAt s k top n)).pins =
    s.pins := pins_of (State.countAt_core s k top n)
@[simp] theorem State.count_rest (s : State) (a : Nat) (n : Nat) : ((State.count s a n)).rest = s.rest := rest_of
    (State.count_core s a n)
@[simp] theorem State.count_nvdWf (s : State) (a : Nat) (n : Nat) : ((State.count s a n)).nvdWf = s.nvdWf := nvdWf_of
    (State.count_core s a n)
@[simp] theorem State.count_bare (s : State) (a : Nat) (n : Nat) : ((State.count s a n)).bare = s.bare := bare_of
    (State.count_core s a n)
@[simp] theorem State.count_pins (s : State) (a : Nat) (n : Nat) : ((State.count s a n)).pins = s.pins := pins_of
    (State.count_core s a n)
@[simp] theorem State.count16_rest (s : State) (a : Nat) (n : Nat) : ((State.count16 s a n)).rest = s.rest := rest_of
    (State.count16_core s a n)
@[simp] theorem State.count16_nvdWf (s : State) (a : Nat) (n : Nat) : ((State.count16 s a n)).nvdWf = s.nvdWf :=
    nvdWf_of (State.count16_core s a n)
@[simp] theorem State.count16_bare (s : State) (a : Nat) (n : Nat) : ((State.count16 s a n)).bare = s.bare := bare_of
    (State.count16_core s a n)
@[simp] theorem State.count16_pins (s : State) (a : Nat) (n : Nat) : ((State.count16 s a n)).pins = s.pins := pins_of
    (State.count16_core s a n)
@[simp] theorem State.resetRegs_rest (s : State) (p : Nat → Bool) : ((State.resetRegs s p)).rest = s.rest := rest_of
    (State.resetRegs_core s p)
@[simp] theorem State.resetRegs_nvdWf (s : State) (p : Nat → Bool) : ((State.resetRegs s p)).nvdWf = s.nvdWf :=
    nvdWf_of (State.resetRegs_core s p)
@[simp] theorem State.resetRegs_bare (s : State) (p : Nat → Bool) : ((State.resetRegs s p)).bare = s.bare := bare_of
    (State.resetRegs_core s p)
@[simp] theorem State.resetRegs_pins (s : State) (p : Nat → Bool) : ((State.resetRegs s p)).pins = s.pins := pins_of
    (State.resetRegs_core s p)
@[simp] theorem State.eventAt_rest (s : State) (k : Nat) (bs : List Nat) : ((State.eventAt s k bs)).rest = s.rest :=
    rest_of (State.eventAt_core s k bs)
@[simp] theorem State.eventAt_nvdWf (s : State) (k : Nat) (bs : List Nat) : ((State.eventAt s k bs)).nvdWf = s.nvdWf
    := nvdWf_of (State.eventAt_core s k bs)
@[simp] theorem State.eventAt_bare (s : State) (k : Nat) (bs : List Nat) : ((State.eventAt s k bs)).bare = s.bare :=
    bare_of (State.eventAt_core s k bs)
@[simp] theorem State.eventAt_pins (s : State) (k : Nat) (bs : List Nat) : ((State.eventAt s k bs)).pins = s.pins :=
    pins_of (State.eventAt_core s k bs)
@[simp] theorem State.event_rest (s : State) (a : Nat) (bs : List Nat) : ((State.event s a bs)).rest = s.rest :=
    rest_of (State.event_core s a bs)
@[simp] theorem State.event_nvdWf (s : State) (a : Nat) (bs : List Nat) : ((State.event s a bs)).nvdWf = s.nvdWf :=
    nvdWf_of (State.event_core s a bs)
@[simp] theorem State.event_bare (s : State) (a : Nat) (bs : List Nat) : ((State.event s a bs)).bare = s.bare :=
    bare_of (State.event_core s a bs)
@[simp] theorem State.event_pins (s : State) (a : Nat) (bs : List Nat) : ((State.event s a bs)).pins = s.pins :=
    pins_of (State.event_core s a bs)
@[simp] theorem State.eventIf_rest (s : State) (c : Bool) (a : Nat) (bs : List Nat) : ((State.eventIf s c a bs)).rest
    = s.rest := rest_of (State.eventIf_core s c a bs)
@[simp] theorem State.eventIf_nvdWf (s : State) (c : Bool) (a : Nat) (bs : List Nat) : ((State.eventIf s c a
    bs)).nvdWf = s.nvdWf := nvdWf_of (State.eventIf_core s c a bs)
@[simp] theorem State.eventIf_bare (s : State) (c : Bool) (a : Nat) (bs : List Nat) : ((State.eventIf s c a bs)).bare
    = s.bare := bare_of (State.eventIf_core s c a bs)
@[simp] theorem State.eventIf_pins (s : State) (c : Bool) (a : Nat) (bs : List Nat) : ((State.eventIf s c a bs)).pins
    = s.pins := pins_of (State.eventIf_core s c a bs)
@[simp] theorem State.storeFields_rest (s : State) (k : Nat) (v : W32) : ((State.storeFields s k v)).rest = s.rest :=
    rest_of (State.storeFields_core s k v)
@[simp] theorem State.storeFields_nvdWf (s : State) (k : Nat) (v : W32) : ((State.storeFields s k v)).nvdWf = s.nvdWf
    := nvdWf_of (State.storeFields_core s k v)
@[simp] theorem State.storeFields_bare (s : State) (k : Nat) (v : W32) : ((State.storeFields s k v)).bare = s.bare :=
    bare_of (State.storeFields_core s k v)
@[simp] theorem State.storeFields_pins (s : State) (k : Nat) (v : W32) : ((State.storeFields s k v)).pins = s.pins :=
    pins_of (State.storeFields_core s k v)
@[simp] theorem State.advance_rest (s : State) (n : Nat) : ((State.advance s n)).rest = s.rest := rest_of
    (State.advance_core s n)
@[simp] theorem State.advance_nvdWf (s : State) (n : Nat) : ((State.advance s n)).nvdWf = s.nvdWf := nvdWf_of
    (State.advance_core s n)
@[simp] theorem State.advance_bare (s : State) (n : Nat) : ((State.advance s n)).bare = s.bare := bare_of
    (State.advance_core s n)
@[simp] theorem State.advance_pins (s : State) (n : Nat) : ((State.advance s n)).pins = s.pins := pins_of
    (State.advance_core s n)
@[simp] theorem State.advanceTo_rest (s : State) (now : Nat) : ((State.advanceTo s now)).rest = s.rest := rest_of
    (State.advanceTo_core s now)
@[simp] theorem State.advanceTo_nvdWf (s : State) (now : Nat) : ((State.advanceTo s now)).nvdWf = s.nvdWf := nvdWf_of
    (State.advanceTo_core s now)
@[simp] theorem State.advanceTo_bare (s : State) (now : Nat) : ((State.advanceTo s now)).bare = s.bare := bare_of
    (State.advanceTo_core s now)
@[simp] theorem State.advanceTo_pins (s : State) (now : Nat) : ((State.advanceTo s now)).pins = s.pins := pins_of
    (State.advanceTo_core s now)
@[simp] theorem State.loadTime_rest (s : State) (tn : Nat) : ((State.loadTime s tn)).rest = s.rest := rest_of
    (State.loadTime_core s tn)
@[simp] theorem State.loadTime_nvdWf (s : State) (tn : Nat) : ((State.loadTime s tn)).nvdWf = s.nvdWf := nvdWf_of
    (State.loadTime_core s tn)
@[simp] theorem State.loadTime_bare (s : State) (tn : Nat) : ((State.loadTime s tn)).bare = s.bare := bare_of
    (State.loadTime_core s tn)
@[simp] theorem State.loadTime_pins (s : State) (tn : Nat) : ((State.loadTime s tn)).pins = s.pins := pins_of
    (State.loadTime_core s tn)
@[simp] theorem State.setEff_rest (s : State) (a : Nat) (v : W32) : ((State.setEff s a v)).rest = s.rest := rest_of
    (State.setEff_core s a v)
@[simp] theorem State.setEff_nvdWf (s : State) (a : Nat) (v : W32) : ((State.setEff s a v)).nvdWf = s.nvdWf :=
    nvdWf_of (State.setEff_core s a v)
@[simp] theorem State.setEff_bare (s : State) (a : Nat) (v : W32) : ((State.setEff s a v)).bare = s.bare := bare_of
    (State.setEff_core s a v)
@[simp] theorem State.setEff_pins (s : State) (a : Nat) (v : W32) : ((State.setEff s a v)).pins = s.pins := pins_of
    (State.setEff_core s a v)
@[simp] theorem State.draw_rest (s : State) : ((State.draw s).2).rest = s.rest := rest_of (State.draw_core s)
@[simp] theorem State.draw_nvdWf (s : State) : ((State.draw s).2).nvdWf = s.nvdWf := nvdWf_of (State.draw_core s)
@[simp] theorem State.draw_bare (s : State) : ((State.draw s).2).bare = s.bare := bare_of (State.draw_core s)
@[simp] theorem State.draw_pins (s : State) : ((State.draw s).2).pins = s.pins := pins_of (State.draw_core s)
@[simp] theorem State.setCd_rest (s : State) (c : Cd) : ((State.setCd s c)).rest = s.rest := rest_of (State.setCd_core
    s c)
@[simp] theorem State.setCd_nvdWf (s : State) (c : Cd) : ((State.setCd s c)).nvdWf = s.nvdWf := nvdWf_of
    (State.setCd_core s c)
@[simp] theorem State.setCd_bare (s : State) (c : Cd) : ((State.setCd s c)).bare = s.bare := bare_of (State.setCd_core
    s c)
@[simp] theorem State.setCd_pins (s : State) (c : Cd) : ((State.setCd s c)).pins = s.pins := pins_of (State.setCd_core
    s c)
@[simp] theorem State.setOther_rest (s : State) (c : Cd) : ((State.setOther s c)).rest = s.rest := rest_of
    (State.setOther_core s c)
@[simp] theorem State.setOther_nvdWf (s : State) (c : Cd) : ((State.setOther s c)).nvdWf = s.nvdWf := nvdWf_of
    (State.setOther_core s c)
@[simp] theorem State.setOther_bare (s : State) (c : Cd) : ((State.setOther s c)).bare = s.bare := bare_of
    (State.setOther_core s c)
@[simp] theorem State.setOther_pins (s : State) (c : Cd) : ((State.setOther s c)).pins = s.pins := pins_of
    (State.setOther_core s c)
@[simp] theorem State.setLane_rest (s : State) (n : Nat) (l : LaneSt) : ((State.setLane s n l)).rest = s.rest :=
    rest_of (State.setLane_core s n l)
@[simp] theorem State.setLane_nvdWf (s : State) (n : Nat) (l : LaneSt) : ((State.setLane s n l)).nvdWf = s.nvdWf :=
    nvdWf_of (State.setLane_core s n l)
@[simp] theorem State.setLane_bare (s : State) (n : Nat) (l : LaneSt) : ((State.setLane s n l)).bare = s.bare :=
    bare_of (State.setLane_core s n l)
@[simp] theorem State.setLane_pins (s : State) (n : Nat) (l : LaneSt) : ((State.setLane s n l)).pins = s.pins :=
    pins_of (State.setLane_core s n l)
@[simp] theorem State.countLane_rest (s : State) (a : Nat) (n : Nat) (k : Nat) : ((State.countLane s a n k)).rest =
    s.rest := rest_of (State.countLane_core s a n k)
@[simp] theorem State.countLane_nvdWf (s : State) (a : Nat) (n : Nat) (k : Nat) : ((State.countLane s a n k)).nvdWf =
    s.nvdWf := nvdWf_of (State.countLane_core s a n k)
@[simp] theorem State.countLane_bare (s : State) (a : Nat) (n : Nat) (k : Nat) : ((State.countLane s a n k)).bare =
    s.bare := bare_of (State.countLane_core s a n k)
@[simp] theorem State.countLane_pins (s : State) (a : Nat) (n : Nat) (k : Nat) : ((State.countLane s a n k)).pins =
    s.pins := pins_of (State.countLane_core s a n k)
@[simp] theorem State.setGroup_rest (s : State) (g : Nat) (x : GroupSt) : ((State.setGroup s g x)).rest = s.rest :=
    rest_of (State.setGroup_core s g x)
@[simp] theorem State.setGroup_nvdWf (s : State) (g : Nat) (x : GroupSt) : ((State.setGroup s g x)).nvdWf = s.nvdWf :=
    nvdWf_of (State.setGroup_core s g x)
@[simp] theorem State.setGroup_bare (s : State) (g : Nat) (x : GroupSt) : ((State.setGroup s g x)).bare = s.bare :=
    bare_of (State.setGroup_core s g x)
@[simp] theorem State.setGroup_pins (s : State) (g : Nat) (x : GroupSt) : ((State.setGroup s g x)).pins = s.pins :=
    pins_of (State.setGroup_core s g x)
@[simp] theorem State.setPulse_rest (s : State) (c : Nat) (p : Pulse) : ((State.setPulse s c p)).rest = s.rest :=
    rest_of (State.setPulse_core s c p)
@[simp] theorem State.setPulse_nvdWf (s : State) (c : Nat) (p : Pulse) : ((State.setPulse s c p)).nvdWf = s.nvdWf :=
    nvdWf_of (State.setPulse_core s c p)
@[simp] theorem State.setPulse_bare (s : State) (c : Nat) (p : Pulse) : ((State.setPulse s c p)).bare = s.bare :=
    bare_of (State.setPulse_core s c p)
@[simp] theorem State.setPulse_pins (s : State) (c : Nat) (p : Pulse) : ((State.setPulse s c p)).pins = s.pins :=
    pins_of (State.setPulse_core s c p)
@[simp] theorem State.memClean_rest (s : State) (d : Die) (mem : Nat) (idx : Nat) : ((State.memClean s d mem
    idx)).rest = s.rest := rest_of (State.memClean_core s d mem idx)
@[simp] theorem State.memClean_nvdWf (s : State) (d : Die) (mem : Nat) (idx : Nat) : ((State.memClean s d mem
    idx)).nvdWf = s.nvdWf := nvdWf_of (State.memClean_core s d mem idx)
@[simp] theorem State.memClean_bare (s : State) (d : Die) (mem : Nat) (idx : Nat) : ((State.memClean s d mem
    idx)).bare = s.bare := bare_of (State.memClean_core s d mem idx)
@[simp] theorem State.memClean_pins (s : State) (d : Die) (mem : Nat) (idx : Nat) : ((State.memClean s d mem
    idx)).pins = s.pins := pins_of (State.memClean_core s d mem idx)
@[simp] theorem State.pqTaken_rest (s : State) (q : Nat) (pos : Nat) : ((State.pqTaken s q pos)).rest = s.rest :=
    rest_of (State.pqTaken_core s q pos)
@[simp] theorem State.pqTaken_nvdWf (s : State) (q : Nat) (pos : Nat) : ((State.pqTaken s q pos)).nvdWf = s.nvdWf :=
    nvdWf_of (State.pqTaken_core s q pos)
@[simp] theorem State.pqTaken_bare (s : State) (q : Nat) (pos : Nat) : ((State.pqTaken s q pos)).bare = s.bare :=
    bare_of (State.pqTaken_core s q pos)
@[simp] theorem State.pqTaken_pins (s : State) (q : Nat) (pos : Nat) : ((State.pqTaken s q pos)).pins = s.pins :=
    pins_of (State.pqTaken_core s q pos)
@[simp] theorem State.markRan_rest (s : State) (d : Die) : ((State.markRan s d)).rest = s.rest := rest_of
    (State.markRan_core s d)
@[simp] theorem State.markRan_nvdWf (s : State) (d : Die) : ((State.markRan s d)).nvdWf = s.nvdWf := nvdWf_of
    (State.markRan_core s d)
@[simp] theorem State.markRan_bare (s : State) (d : Die) : ((State.markRan s d)).bare = s.bare := bare_of
    (State.markRan_core s d)
@[simp] theorem State.markRan_pins (s : State) (d : Die) : ((State.markRan s d)).pins = s.pins := pins_of
    (State.markRan_core s d)
@[simp] theorem State.pqPush_rest (s : State) (i : Nat) (w : W64) : ((State.pqPush s i w)).rest = s.rest := rest_of
    (State.pqPush_core s i w)
@[simp] theorem State.pqPush_nvdWf (s : State) (i : Nat) (w : W64) : ((State.pqPush s i w)).nvdWf = s.nvdWf :=
    nvdWf_of (State.pqPush_core s i w)
@[simp] theorem State.pqPush_bare (s : State) (i : Nat) (w : W64) : ((State.pqPush s i w)).bare = s.bare := bare_of
    (State.pqPush_core s i w)
@[simp] theorem State.pqPush_pins (s : State) (i : Nat) (w : W64) : ((State.pqPush s i w)).pins = s.pins := pins_of
    (State.pqPush_core s i w)
@[simp] theorem State.errEntry_rest (s : State) (d : Die) (cls : Nat) (mem : Nat) (idx : Nat) (cause : Nat) :
    ((State.errEntry s d cls mem idx cause)).rest = s.rest := rest_of (State.errEntry_core s d cls mem idx cause)
@[simp] theorem State.errEntry_nvdWf (s : State) (d : Die) (cls : Nat) (mem : Nat) (idx : Nat) (cause : Nat) :
    ((State.errEntry s d cls mem idx cause)).nvdWf = s.nvdWf := nvdWf_of (State.errEntry_core s d cls mem idx cause)
@[simp] theorem State.errEntry_bare (s : State) (d : Die) (cls : Nat) (mem : Nat) (idx : Nat) (cause : Nat) :
    ((State.errEntry s d cls mem idx cause)).bare = s.bare := bare_of (State.errEntry_core s d cls mem idx cause)
@[simp] theorem State.errEntry_pins (s : State) (d : Die) (cls : Nat) (mem : Nat) (idx : Nat) (cause : Nat) :
    ((State.errEntry s d cls mem idx cause)).pins = s.pins := pins_of (State.errEntry_core s d cls mem idx cause)
@[simp] theorem State.lossCount_rest (s : State) (d : Die) (cause : Nat) : ((State.lossCount s d cause)).rest = s.rest
    := rest_of (State.lossCount_core s d cause)
@[simp] theorem State.lossCount_nvdWf (s : State) (d : Die) (cause : Nat) : ((State.lossCount s d cause)).nvdWf =
    s.nvdWf := nvdWf_of (State.lossCount_core s d cause)
@[simp] theorem State.lossCount_bare (s : State) (d : Die) (cause : Nat) : ((State.lossCount s d cause)).bare = s.bare
    := bare_of (State.lossCount_core s d cause)
@[simp] theorem State.lossCount_pins (s : State) (d : Die) (cause : Nat) : ((State.lossCount s d cause)).pins = s.pins
    := pins_of (State.lossCount_core s d cause)
@[simp] theorem State.lossEntry_rest (s : State) (d : Die) (cls : Nat) (cause : Nat) : ((State.lossEntry s d cls
    cause)).rest = s.rest := rest_of (State.lossEntry_core s d cls cause)
@[simp] theorem State.lossEntry_nvdWf (s : State) (d : Die) (cls : Nat) (cause : Nat) : ((State.lossEntry s d cls
    cause)).nvdWf = s.nvdWf := nvdWf_of (State.lossEntry_core s d cls cause)
@[simp] theorem State.lossEntry_bare (s : State) (d : Die) (cls : Nat) (cause : Nat) : ((State.lossEntry s d cls
    cause)).bare = s.bare := bare_of (State.lossEntry_core s d cls cause)
@[simp] theorem State.lossEntry_pins (s : State) (d : Die) (cls : Nat) (cause : Nat) : ((State.lossEntry s d cls
    cause)).pins = s.pins := pins_of (State.lossEntry_core s d cls cause)
@[simp] theorem State.errLossC_rest (s : State) (d : Die) (cls : Nat) (cause : Nat) : ((State.errLossC s d cls
    cause)).rest = s.rest := rest_of (State.errLossC_core s d cls cause)
@[simp] theorem State.errLossC_nvdWf (s : State) (d : Die) (cls : Nat) (cause : Nat) : ((State.errLossC s d cls
    cause)).nvdWf = s.nvdWf := nvdWf_of (State.errLossC_core s d cls cause)
@[simp] theorem State.errLossC_bare (s : State) (d : Die) (cls : Nat) (cause : Nat) : ((State.errLossC s d cls
    cause)).bare = s.bare := bare_of (State.errLossC_core s d cls cause)
@[simp] theorem State.errLossC_pins (s : State) (d : Die) (cls : Nat) (cause : Nat) : ((State.errLossC s d cls
    cause)).pins = s.pins := pins_of (State.errLossC_core s d cls cause)
@[simp] theorem State.errLoss_rest (s : State) (d : Die) (cause : Nat) : ((State.errLoss s d cause)).rest = s.rest :=
    rest_of (State.errLoss_core s d cause)
@[simp] theorem State.errLoss_nvdWf (s : State) (d : Die) (cause : Nat) : ((State.errLoss s d cause)).nvdWf = s.nvdWf
    := nvdWf_of (State.errLoss_core s d cause)
@[simp] theorem State.errLoss_bare (s : State) (d : Die) (cause : Nat) : ((State.errLoss s d cause)).bare = s.bare :=
    bare_of (State.errLoss_core s d cause)
@[simp] theorem State.errLoss_pins (s : State) (d : Die) (cause : Nat) : ((State.errLoss s d cause)).pins = s.pins :=
    pins_of (State.errLoss_core s d cause)
@[simp] theorem State.lossEntries_rest (s : State) (d : Die) (cause : Nat) (n : Nat) : ((State.lossEntries s d cause
    n)).rest = s.rest := rest_of (State.lossEntries_core s d cause n)
@[simp] theorem State.lossEntries_nvdWf (s : State) (d : Die) (cause : Nat) (n : Nat) : ((State.lossEntries s d cause
    n)).nvdWf = s.nvdWf := nvdWf_of (State.lossEntries_core s d cause n)
@[simp] theorem State.lossEntries_bare (s : State) (d : Die) (cause : Nat) (n : Nat) : ((State.lossEntries s d cause
    n)).bare = s.bare := bare_of (State.lossEntries_core s d cause n)
@[simp] theorem State.lossEntries_pins (s : State) (d : Die) (cause : Nat) (n : Nat) : ((State.lossEntries s d cause
    n)).pins = s.pins := pins_of (State.lossEntries_core s d cause n)
@[simp] theorem State.errLosses_rest (s : State) (d : Die) (cause : Nat) (n : Nat) : ((State.errLosses s d cause
    n)).rest = s.rest := rest_of (State.errLosses_core s d cause n)
@[simp] theorem State.errLosses_nvdWf (s : State) (d : Die) (cause : Nat) (n : Nat) : ((State.errLosses s d cause
    n)).nvdWf = s.nvdWf := nvdWf_of (State.errLosses_core s d cause n)
@[simp] theorem State.errLosses_bare (s : State) (d : Die) (cause : Nat) (n : Nat) : ((State.errLosses s d cause
    n)).bare = s.bare := bare_of (State.errLosses_core s d cause n)
@[simp] theorem State.errLosses_pins (s : State) (d : Die) (cause : Nat) (n : Nat) : ((State.errLosses s d cause
    n)).pins = s.pins := pins_of (State.errLosses_core s d cause n)
@[simp] theorem State.lossOldestC_rest (s : State) (cls : Nat) (src : Nat) (lo : Nat) (hi : Nat) (count : Nat) (cause
    : Nat) : ((State.lossOldestC s cls src lo hi count cause)).rest = s.rest := rest_of (State.lossOldestC_core s cls
    src lo hi count cause)
@[simp] theorem State.lossOldestC_nvdWf (s : State) (cls : Nat) (src : Nat) (lo : Nat) (hi : Nat) (count : Nat) (cause
    : Nat) : ((State.lossOldestC s cls src lo hi count cause)).nvdWf = s.nvdWf := nvdWf_of (State.lossOldestC_core s
    cls src lo hi count cause)
@[simp] theorem State.lossOldestC_bare (s : State) (cls : Nat) (src : Nat) (lo : Nat) (hi : Nat) (count : Nat) (cause
    : Nat) : ((State.lossOldestC s cls src lo hi count cause)).bare = s.bare := bare_of (State.lossOldestC_core s cls
    src lo hi count cause)
@[simp] theorem State.lossOldestC_pins (s : State) (cls : Nat) (src : Nat) (lo : Nat) (hi : Nat) (count : Nat) (cause
    : Nat) : ((State.lossOldestC s cls src lo hi count cause)).pins = s.pins := pins_of (State.lossOldestC_core s cls
    src lo hi count cause)
@[simp] theorem State.lossOldest_rest (s : State) (src : Nat) (lo : Nat) (hi : Nat) (count : Nat) (cause : Nat) :
    ((State.lossOldest s src lo hi count cause)).rest = s.rest := rest_of (State.lossOldest_core s src lo hi count
    cause)
@[simp] theorem State.lossOldest_nvdWf (s : State) (src : Nat) (lo : Nat) (hi : Nat) (count : Nat) (cause : Nat) :
    ((State.lossOldest s src lo hi count cause)).nvdWf = s.nvdWf := nvdWf_of (State.lossOldest_core s src lo hi count
    cause)
@[simp] theorem State.lossOldest_bare (s : State) (src : Nat) (lo : Nat) (hi : Nat) (count : Nat) (cause : Nat) :
    ((State.lossOldest s src lo hi count cause)).bare = s.bare := bare_of (State.lossOldest_core s src lo hi count
    cause)
@[simp] theorem State.lossOldest_pins (s : State) (src : Nat) (lo : Nat) (hi : Nat) (count : Nat) (cause : Nat) :
    ((State.lossOldest s src lo hi count cause)).pins = s.pins := pins_of (State.lossOldest_core s src lo hi count
    cause)
@[simp] theorem State.lossInC_rest (s : State) (cls : Nat) (n : Nat) (src : Nat) (lo : Nat) (hi : Nat) (count : Nat)
    (cause : Nat) : ((State.lossInC s cls n src lo hi count cause)).rest = s.rest := rest_of (State.lossInC_core s cls
    n src lo hi count cause)
@[simp] theorem State.lossInC_nvdWf (s : State) (cls : Nat) (n : Nat) (src : Nat) (lo : Nat) (hi : Nat) (count : Nat)
    (cause : Nat) : ((State.lossInC s cls n src lo hi count cause)).nvdWf = s.nvdWf := nvdWf_of (State.lossInC_core s
    cls n src lo hi count cause)
@[simp] theorem State.lossInC_bare (s : State) (cls : Nat) (n : Nat) (src : Nat) (lo : Nat) (hi : Nat) (count : Nat)
    (cause : Nat) : ((State.lossInC s cls n src lo hi count cause)).bare = s.bare := bare_of (State.lossInC_core s cls
    n src lo hi count cause)
@[simp] theorem State.lossInC_pins (s : State) (cls : Nat) (n : Nat) (src : Nat) (lo : Nat) (hi : Nat) (count : Nat)
    (cause : Nat) : ((State.lossInC s cls n src lo hi count cause)).pins = s.pins := pins_of (State.lossInC_core s cls
    n src lo hi count cause)
@[simp] theorem State.lossIn_rest (s : State) (n : Nat) (src : Nat) (lo : Nat) (hi : Nat) (count : Nat) (cause : Nat)
    : ((State.lossIn s n src lo hi count cause)).rest = s.rest := rest_of (State.lossIn_core s n src lo hi count
    cause)
@[simp] theorem State.lossIn_nvdWf (s : State) (n : Nat) (src : Nat) (lo : Nat) (hi : Nat) (count : Nat) (cause : Nat)
    : ((State.lossIn s n src lo hi count cause)).nvdWf = s.nvdWf := nvdWf_of (State.lossIn_core s n src lo hi count
    cause)
@[simp] theorem State.lossIn_bare (s : State) (n : Nat) (src : Nat) (lo : Nat) (hi : Nat) (count : Nat) (cause : Nat)
    : ((State.lossIn s n src lo hi count cause)).bare = s.bare := bare_of (State.lossIn_core s n src lo hi count
    cause)
@[simp] theorem State.lossIn_pins (s : State) (n : Nat) (src : Nat) (lo : Nat) (hi : Nat) (count : Nat) (cause : Nat)
    : ((State.lossIn s n src lo hi count cause)).pins = s.pins := pins_of (State.lossIn_core s n src lo hi count
    cause)
@[simp] theorem State.lateRecord_rest (s : State) (src : Nat) (ch : Nat) (hits : Nat) : ((State.lateRecord s src ch
    hits)).rest = s.rest := rest_of (State.lateRecord_core s src ch hits)
@[simp] theorem State.lateRecord_nvdWf (s : State) (src : Nat) (ch : Nat) (hits : Nat) : ((State.lateRecord s src ch
    hits)).nvdWf = s.nvdWf := nvdWf_of (State.lateRecord_core s src ch hits)
@[simp] theorem State.lateRecord_bare (s : State) (src : Nat) (ch : Nat) (hits : Nat) : ((State.lateRecord s src ch
    hits)).bare = s.bare := bare_of (State.lateRecord_core s src ch hits)
@[simp] theorem State.lateRecord_pins (s : State) (src : Nat) (ch : Nat) (hits : Nat) : ((State.lateRecord s src ch
    hits)).pins = s.pins := pins_of (State.lateRecord_core s src ch hits)
@[simp] theorem State.dropSyncs_rest (s : State) (sl : Nat) : ((State.dropSyncs s sl)).rest = s.rest := rest_of
    (State.dropSyncs_core s sl)
@[simp] theorem State.dropSyncs_nvdWf (s : State) (sl : Nat) : ((State.dropSyncs s sl)).nvdWf = s.nvdWf := nvdWf_of
    (State.dropSyncs_core s sl)
@[simp] theorem State.dropSyncs_bare (s : State) (sl : Nat) : ((State.dropSyncs s sl)).bare = s.bare := bare_of
    (State.dropSyncs_core s sl)
@[simp] theorem State.dropSyncs_pins (s : State) (sl : Nat) : ((State.dropSyncs s sl)).pins = s.pins := pins_of
    (State.dropSyncs_core s sl)
@[simp] theorem State.endRun_rest (s : State) (endMode : Nat) (cause : Nat) : ((State.endRun s endMode cause)).rest =
    s.rest := rest_of (State.endRun_core s endMode cause)
@[simp] theorem State.endRun_nvdWf (s : State) (endMode : Nat) (cause : Nat) : ((State.endRun s endMode cause)).nvdWf
    = s.nvdWf := nvdWf_of (State.endRun_core s endMode cause)
@[simp] theorem State.endRun_bare (s : State) (endMode : Nat) (cause : Nat) : ((State.endRun s endMode cause)).bare =
    s.bare := bare_of (State.endRun_core s endMode cause)
@[simp] theorem State.endRun_pins (s : State) (endMode : Nat) (cause : Nat) : ((State.endRun s endMode cause)).pins =
    s.pins := pins_of (State.endRun_core s endMode cause)
@[simp] theorem State.enterSafe_rest (s : State) (cause : Nat) : ((State.enterSafe s cause)).rest = s.rest := rest_of
    (State.enterSafe_core s cause)
@[simp] theorem State.enterSafe_nvdWf (s : State) (cause : Nat) : ((State.enterSafe s cause)).nvdWf = s.nvdWf :=
    nvdWf_of (State.enterSafe_core s cause)
@[simp] theorem State.enterSafe_bare (s : State) (cause : Nat) : ((State.enterSafe s cause)).bare = s.bare := bare_of
    (State.enterSafe_core s cause)
@[simp] theorem State.enterSafe_pins (s : State) (cause : Nat) : ((State.enterSafe s cause)).pins = s.pins := pins_of
    (State.enterSafe_core s cause)
@[simp] theorem State.fatalAt_rest (s : State) (d : Die) (bit mem idx : Nat) : ((State.fatalAt s d bit mem idx)).rest
    = s.rest := rest_of (State.fatalAt_core s d bit mem idx)
@[simp] theorem State.fatalAt_nvdWf (s : State) (d : Die) (bit mem idx : Nat) : ((State.fatalAt s d bit mem
    idx)).nvdWf = s.nvdWf := nvdWf_of (State.fatalAt_core s d bit mem idx)
@[simp] theorem State.fatalAt_bare (s : State) (d : Die) (bit mem idx : Nat) : ((State.fatalAt s d bit mem idx)).bare
    = s.bare := bare_of (State.fatalAt_core s d bit mem idx)
@[simp] theorem State.fatalAt_pins (s : State) (d : Die) (bit mem idx : Nat) : ((State.fatalAt s d bit mem idx)).pins
    = s.pins := pins_of (State.fatalAt_core s d bit mem idx)
@[simp] theorem State.fatal_rest (s : State) (d : Die) (bit : Nat) : ((State.fatal s d bit)).rest = s.rest := rest_of
    (State.fatal_core s d bit)
@[simp] theorem State.fatal_nvdWf (s : State) (d : Die) (bit : Nat) : ((State.fatal s d bit)).nvdWf = s.nvdWf :=
    nvdWf_of (State.fatal_core s d bit)
@[simp] theorem State.fatal_bare (s : State) (d : Die) (bit : Nat) : ((State.fatal s d bit)).bare = s.bare := bare_of
    (State.fatal_core s d bit)
@[simp] theorem State.fatal_pins (s : State) (d : Die) (bit : Nat) : ((State.fatal s d bit)).pins = s.pins := pins_of
    (State.fatal_core s d bit)
@[simp] theorem Rep.st_rest (self : Rep) : ((Rep.st self)).rest = self.st.rest := rest_of (Rep.st_core self)
@[simp] theorem Rep.st_nvdWf (self : Rep) : ((Rep.st self)).nvdWf = self.st.nvdWf := nvdWf_of (Rep.st_core self)
@[simp] theorem Rep.st_bare (self : Rep) : ((Rep.st self)).bare = self.st.bare := bare_of (Rep.st_core self)
@[simp] theorem Rep.st_pins (self : Rep) : ((Rep.st self)).pins = self.st.pins := pins_of (Rep.st_core self)
@[simp] theorem State.respond_rest (s : State) (lane : Nat) (r : Resp) : ((State.respond s lane r)).rest = s.rest :=
    rest_of (State.respond_core s lane r)
@[simp] theorem State.respond_nvdWf (s : State) (lane : Nat) (r : Resp) : ((State.respond s lane r)).nvdWf = s.nvdWf
    := nvdWf_of (State.respond_core s lane r)
@[simp] theorem State.respond_bare (s : State) (lane : Nat) (r : Resp) : ((State.respond s lane r)).bare = s.bare :=
    bare_of (State.respond_core s lane r)
@[simp] theorem State.respond_pins (s : State) (lane : Nat) (r : Resp) : ((State.respond s lane r)).pins = s.pins :=
    pins_of (State.respond_core s lane r)
@[simp] theorem State.refuse_rest (s : State) (lane : Nat) (r : Resp) : ((State.refuse s lane r)).rest = s.rest :=
    rest_of (State.refuse_core s lane r)
@[simp] theorem State.refuse_nvdWf (s : State) (lane : Nat) (r : Resp) : ((State.refuse s lane r)).nvdWf = s.nvdWf :=
    nvdWf_of (State.refuse_core s lane r)
@[simp] theorem State.refuse_bare (s : State) (lane : Nat) (r : Resp) : ((State.refuse s lane r)).bare = s.bare :=
    bare_of (State.refuse_core s lane r)
@[simp] theorem State.refuse_pins (s : State) (lane : Nat) (r : Resp) : ((State.refuse s lane r)).pins = s.pins :=
    pins_of (State.refuse_core s lane r)
@[simp] theorem State.finish_rest (s : State) (lane : Nat) (addr : Nat) (status : Nat) (data : W32) : ((State.finish s
    lane addr status data)).rest = s.rest := rest_of (State.finish_core s lane addr status data)
@[simp] theorem State.finish_nvdWf (s : State) (lane : Nat) (addr : Nat) (status : Nat) (data : W32) : ((State.finish
    s lane addr status data)).nvdWf = s.nvdWf := nvdWf_of (State.finish_core s lane addr status data)
@[simp] theorem State.finish_bare (s : State) (lane : Nat) (addr : Nat) (status : Nat) (data : W32) : ((State.finish s
    lane addr status data)).bare = s.bare := bare_of (State.finish_core s lane addr status data)
@[simp] theorem State.finish_pins (s : State) (lane : Nat) (addr : Nat) (status : Nat) (data : W32) : ((State.finish s
    lane addr status data)).pins = s.pins := pins_of (State.finish_core s lane addr status data)
@[simp] theorem State.discard_rest (s : State) (lane : Nat) (n : Nat) : ((State.discard s lane n)).rest = s.rest :=
    rest_of (State.discard_core s lane n)
@[simp] theorem State.discard_nvdWf (s : State) (lane : Nat) (n : Nat) : ((State.discard s lane n)).nvdWf = s.nvdWf :=
    nvdWf_of (State.discard_core s lane n)
@[simp] theorem State.discard_bare (s : State) (lane : Nat) (n : Nat) : ((State.discard s lane n)).bare = s.bare :=
    bare_of (State.discard_core s lane n)
@[simp] theorem State.discard_pins (s : State) (lane : Nat) (n : Nat) : ((State.discard s lane n)).pins = s.pins :=
    pins_of (State.discard_core s lane n)
@[simp] theorem State.seqGap_rest (s : State) (lane : Nat) (seq : Nat) (addr : Nat) : ((State.seqGap s lane seq
    addr)).rest = s.rest := rest_of (State.seqGap_core s lane seq addr)
@[simp] theorem State.seqGap_nvdWf (s : State) (lane : Nat) (seq : Nat) (addr : Nat) : ((State.seqGap s lane seq
    addr)).nvdWf = s.nvdWf := nvdWf_of (State.seqGap_core s lane seq addr)
@[simp] theorem State.seqGap_bare (s : State) (lane : Nat) (seq : Nat) (addr : Nat) : ((State.seqGap s lane seq
    addr)).bare = s.bare := bare_of (State.seqGap_core s lane seq addr)
@[simp] theorem State.seqGap_pins (s : State) (lane : Nat) (seq : Nat) (addr : Nat) : ((State.seqGap s lane seq
    addr)).pins = s.pins := pins_of (State.seqGap_core s lane seq addr)
@[simp] theorem Rep.done_rest (s : State) : ((Rep.done s).st).rest = s.rest := rest_of (Rep.done_core s)
@[simp] theorem Rep.done_nvdWf (s : State) : ((Rep.done s).st).nvdWf = s.nvdWf := nvdWf_of (Rep.done_core s)
@[simp] theorem Rep.done_bare (s : State) : ((Rep.done s).st).bare = s.bare := bare_of (Rep.done_core s)
@[simp] theorem Rep.done_pins (s : State) : ((Rep.done s).st).pins = s.pins := pins_of (Rep.done_core s)
@[simp] theorem Rep.no_rest (status : Nat) (s : State) : ((Rep.no status s).st).rest = s.rest := rest_of (Rep.no_core
    status s)
@[simp] theorem Rep.no_nvdWf (status : Nat) (s : State) : ((Rep.no status s).st).nvdWf = s.nvdWf := nvdWf_of
    (Rep.no_core status s)
@[simp] theorem Rep.no_bare (status : Nat) (s : State) : ((Rep.no status s).st).bare = s.bare := bare_of (Rep.no_core
    status s)
@[simp] theorem Rep.no_pins (status : Nat) (s : State) : ((Rep.no status s).st).pins = s.pins := pins_of (Rep.no_core
    status s)
@[simp] theorem State.setCdOf_rest (s : State) (d : Die) (c : Cd) : ((State.setCdOf s d c)).rest = s.rest := rest_of
    (State.setCdOf_core s d c)
@[simp] theorem State.setCdOf_nvdWf (s : State) (d : Die) (c : Cd) : ((State.setCdOf s d c)).nvdWf = s.nvdWf :=
    nvdWf_of (State.setCdOf_core s d c)
@[simp] theorem State.setCdOf_bare (s : State) (d : Die) (c : Cd) : ((State.setCdOf s d c)).bare = s.bare := bare_of
    (State.setCdOf_core s d c)
@[simp] theorem State.setCdOf_pins (s : State) (d : Die) (c : Cd) : ((State.setCdOf s d c)).pins = s.pins := pins_of
    (State.setCdOf_core s d c)
@[simp] theorem State.setTab_rest (s : State) (c : Nat) (bank : Bool) (i : Nat) (v : Nat) : ((State.setTab s c bank i
    v)).rest = s.rest := rest_of (State.setTab_core s c bank i v)
@[simp] theorem State.setTab_nvdWf (s : State) (c : Nat) (bank : Bool) (i : Nat) (v : Nat) : ((State.setTab s c bank i
    v)).nvdWf = s.nvdWf := nvdWf_of (State.setTab_core s c bank i v)
@[simp] theorem State.setTab_bare (s : State) (c : Nat) (bank : Bool) (i : Nat) (v : Nat) : ((State.setTab s c bank i
    v)).bare = s.bare := bare_of (State.setTab_core s c bank i v)
@[simp] theorem State.setTab_pins (s : State) (c : Nat) (bank : Bool) (i : Nat) (v : Nat) : ((State.setTab s c bank i
    v)).pins = s.pins := pins_of (State.setTab_core s c bank i v)
@[simp] theorem State.damage_rest (s : State) (d : Die) (mem : Nat) (idx : Nat) : ((State.damage s d mem idx)).rest =
    s.rest := rest_of (State.damage_core s d mem idx)
@[simp] theorem State.damage_nvdWf (s : State) (d : Die) (mem : Nat) (idx : Nat) : ((State.damage s d mem idx)).nvdWf
    = s.nvdWf := nvdWf_of (State.damage_core s d mem idx)
@[simp] theorem State.damage_bare (s : State) (d : Die) (mem : Nat) (idx : Nat) : ((State.damage s d mem idx)).bare =
    s.bare := bare_of (State.damage_core s d mem idx)
@[simp] theorem State.damage_pins (s : State) (d : Die) (mem : Nat) (idx : Nat) : ((State.damage s d mem idx)).pins =
    s.pins := pins_of (State.damage_core s d mem idx)
@[simp] theorem State.poison_rest (s : State) (d : Die) (mem : Nat) (idx : Nat) : ((State.poison s d mem idx)).rest =
    s.rest := rest_of (State.poison_core s d mem idx)
@[simp] theorem State.poison_nvdWf (s : State) (d : Die) (mem : Nat) (idx : Nat) : ((State.poison s d mem idx)).nvdWf
    = s.nvdWf := nvdWf_of (State.poison_core s d mem idx)
@[simp] theorem State.poison_bare (s : State) (d : Die) (mem : Nat) (idx : Nat) : ((State.poison s d mem idx)).bare =
    s.bare := bare_of (State.poison_core s d mem idx)
@[simp] theorem State.poison_pins (s : State) (d : Die) (mem : Nat) (idx : Nat) : ((State.poison s d mem idx)).pins =
    s.pins := pins_of (State.poison_core s d mem idx)
@[simp] theorem State.countCorr_rest (s : State) (d : Die) (mem : Nat) : ((State.countCorr s d mem)).rest = s.rest :=
    rest_of (State.countCorr_core s d mem)
@[simp] theorem State.countCorr_nvdWf (s : State) (d : Die) (mem : Nat) : ((State.countCorr s d mem)).nvdWf = s.nvdWf
    := nvdWf_of (State.countCorr_core s d mem)
@[simp] theorem State.countCorr_bare (s : State) (d : Die) (mem : Nat) : ((State.countCorr s d mem)).bare = s.bare :=
    bare_of (State.countCorr_core s d mem)
@[simp] theorem State.countCorr_pins (s : State) (d : Die) (mem : Nat) : ((State.countCorr s d mem)).pins = s.pins :=
    pins_of (State.countCorr_core s d mem)
@[simp] theorem State.countUncorr_rest (s : State) (d : Die) (mem : Nat) (idx : Nat) (cause : Nat) (evt : List Nat) :
    ((State.countUncorr s d mem idx cause evt)).rest = s.rest := rest_of (State.countUncorr_core s d mem idx cause
    evt)
@[simp] theorem State.countUncorr_nvdWf (s : State) (d : Die) (mem : Nat) (idx : Nat) (cause : Nat) (evt : List Nat) :
    ((State.countUncorr s d mem idx cause evt)).nvdWf = s.nvdWf := nvdWf_of (State.countUncorr_core s d mem idx cause
    evt)
@[simp] theorem State.countUncorr_bare (s : State) (d : Die) (mem : Nat) (idx : Nat) (cause : Nat) (evt : List Nat) :
    ((State.countUncorr s d mem idx cause evt)).bare = s.bare := bare_of (State.countUncorr_core s d mem idx cause
    evt)
@[simp] theorem State.countUncorr_pins (s : State) (d : Die) (mem : Nat) (idx : Nat) (cause : Nat) (evt : List Nat) :
    ((State.countUncorr s d mem idx cause evt)).pins = s.pins := pins_of (State.countUncorr_core s d mem idx cause
    evt)
@[simp] theorem State.uncorrLoss_rest (s : State) (d : Die) (mem : Nat) (idx : Nat) (cause : Nat) : ((State.uncorrLoss
    s d mem idx cause)).rest = s.rest := rest_of (State.uncorrLoss_core s d mem idx cause)
@[simp] theorem State.uncorrLoss_nvdWf (s : State) (d : Die) (mem : Nat) (idx : Nat) (cause : Nat) :
    ((State.uncorrLoss s d mem idx cause)).nvdWf = s.nvdWf := nvdWf_of (State.uncorrLoss_core s d mem idx cause)
@[simp] theorem State.uncorrLoss_bare (s : State) (d : Die) (mem : Nat) (idx : Nat) (cause : Nat) : ((State.uncorrLoss
    s d mem idx cause)).bare = s.bare := bare_of (State.uncorrLoss_core s d mem idx cause)
@[simp] theorem State.uncorrLoss_pins (s : State) (d : Die) (mem : Nat) (idx : Nat) (cause : Nat) : ((State.uncorrLoss
    s d mem idx cause)).pins = s.pins := pins_of (State.uncorrLoss_core s d mem idx cause)
@[simp] theorem State.readCrit_rest (s : State) (mem : Nat) (lo : Nat) (n : Nat) (hm : mem ≠ 4) : ((State.readCrit s
    mem lo n)).rest = s.rest := rest_of (State.readCrit_core s mem lo n hm)
@[simp] theorem State.readCrit_nvdWf (s : State) (mem : Nat) (lo : Nat) (n : Nat) (hm : mem ≠ 4) : ((State.readCrit s
    mem lo n)).nvdWf = s.nvdWf := nvdWf_of (State.readCrit_core s mem lo n hm)
@[simp] theorem State.readCrit_bare (s : State) (mem : Nat) (lo : Nat) (n : Nat) (hm : mem ≠ 4) : ((State.readCrit s
    mem lo n)).bare = s.bare := bare_of (State.readCrit_core s mem lo n hm)
@[simp] theorem State.readCrit_pins (s : State) (mem : Nat) (lo : Nat) (n : Nat) (hm : mem ≠ 4) : ((State.readCrit s
    mem lo n)).pins = s.pins := pins_of (State.readCrit_core s mem lo n hm)
@[simp] theorem State.memLoss_rest (s : State) (d : Die) (mem : Nat) (idx : Nat) (cause : Nat) (fresh : Bool) :
    ((State.memLoss s d mem idx cause fresh)).rest = s.rest := rest_of (State.memLoss_core s d mem idx cause fresh)
@[simp] theorem State.memLoss_nvdWf (s : State) (d : Die) (mem : Nat) (idx : Nat) (cause : Nat) (fresh : Bool) :
    ((State.memLoss s d mem idx cause fresh)).nvdWf = s.nvdWf := nvdWf_of (State.memLoss_core s d mem idx cause fresh)
@[simp] theorem State.memLoss_bare (s : State) (d : Die) (mem : Nat) (idx : Nat) (cause : Nat) (fresh : Bool) :
    ((State.memLoss s d mem idx cause fresh)).bare = s.bare := bare_of (State.memLoss_core s d mem idx cause fresh)
@[simp] theorem State.memLoss_pins (s : State) (d : Die) (mem : Nat) (idx : Nat) (cause : Nat) (fresh : Bool) :
    ((State.memLoss s d mem idx cause fresh)).pins = s.pins := pins_of (State.memLoss_core s d mem idx cause fresh)
@[simp] theorem State.popEntry_rest (s : State) (q : Nat) : ((State.popEntry s q)).rest = s.rest := rest_of
    (State.popEntry_core s q)
@[simp] theorem State.popEntry_nvdWf (s : State) (q : Nat) : ((State.popEntry s q)).nvdWf = s.nvdWf := nvdWf_of
    (State.popEntry_core s q)
@[simp] theorem State.popEntry_bare (s : State) (q : Nat) : ((State.popEntry s q)).bare = s.bare := bare_of
    (State.popEntry_core s q)
@[simp] theorem State.popEntry_pins (s : State) (q : Nat) : ((State.popEntry s q)).pins = s.pins := pins_of
    (State.popEntry_core s q)
@[simp] theorem State.popLo_rest (s : State) (lane : Nat) (q : Nat) : ((State.popLo s lane q).st).rest = s.rest :=
    rest_of (State.popLo_core s lane q)
@[simp] theorem State.popLo_nvdWf (s : State) (lane : Nat) (q : Nat) : ((State.popLo s lane q).st).nvdWf = s.nvdWf :=
    nvdWf_of (State.popLo_core s lane q)
@[simp] theorem State.popLo_bare (s : State) (lane : Nat) (q : Nat) : ((State.popLo s lane q).st).bare = s.bare :=
    bare_of (State.popLo_core s lane q)
@[simp] theorem State.popLo_pins (s : State) (lane : Nat) (q : Nat) : ((State.popLo s lane q).st).pins = s.pins :=
    pins_of (State.popLo_core s lane q)
@[simp] theorem State.endStall_rest (s : State) (n : Nat) : ((State.endStall s n)).rest = s.rest := rest_of
    (State.endStall_core s n)
@[simp] theorem State.endStall_nvdWf (s : State) (n : Nat) : ((State.endStall s n)).nvdWf = s.nvdWf := nvdWf_of
    (State.endStall_core s n)
@[simp] theorem State.endStall_bare (s : State) (n : Nat) : ((State.endStall s n)).bare = s.bare := bare_of
    (State.endStall_core s n)
@[simp] theorem State.endStall_pins (s : State) (n : Nat) : ((State.endStall s n)).pins = s.pins := pins_of
    (State.endStall_core s n)
@[simp] theorem State.endStalls_rest (s : State) : ((State.endStalls s)).rest = s.rest := rest_of
    (State.endStalls_core s)
@[simp] theorem State.endStalls_nvdWf (s : State) : ((State.endStalls s)).nvdWf = s.nvdWf := nvdWf_of
    (State.endStalls_core s)
@[simp] theorem State.endStalls_bare (s : State) : ((State.endStalls s)).bare = s.bare := bare_of
    (State.endStalls_core s)
@[simp] theorem State.endStalls_pins (s : State) : ((State.endStalls s)).pins = s.pins := pins_of
    (State.endStalls_core s)
@[simp] theorem Rep.lockedBy_rest (s : State) : ((Rep.lockedBy s).st).rest = s.rest := rest_of (Rep.lockedBy_core s)
@[simp] theorem Rep.lockedBy_nvdWf (s : State) : ((Rep.lockedBy s).st).nvdWf = s.nvdWf := nvdWf_of (Rep.lockedBy_core
    s)
@[simp] theorem Rep.lockedBy_bare (s : State) : ((Rep.lockedBy s).st).bare = s.bare := bare_of (Rep.lockedBy_core s)
@[simp] theorem Rep.lockedBy_pins (s : State) : ((Rep.lockedBy s).st).pins = s.pins := pins_of (Rep.lockedBy_core s)
@[simp] theorem State.plainWrite_rest (s : State) (k : Nat) (data : W32) (be : BitVec 4) (cls : Cls) :
    ((State.plainWrite s k data be cls).st).rest = s.rest := rest_of (State.plainWrite_core s k data be cls)
@[simp] theorem State.plainWrite_nvdWf (s : State) (k : Nat) (data : W32) (be : BitVec 4) (cls : Cls) :
    ((State.plainWrite s k data be cls).st).nvdWf = s.nvdWf := nvdWf_of (State.plainWrite_core s k data be cls)
@[simp] theorem State.plainWrite_bare (s : State) (k : Nat) (data : W32) (be : BitVec 4) (cls : Cls) :
    ((State.plainWrite s k data be cls).st).bare = s.bare := bare_of (State.plainWrite_core s k data be cls)
@[simp] theorem State.plainWrite_pins (s : State) (k : Nat) (data : W32) (be : BitVec 4) (cls : Cls) :
    ((State.plainWrite s k data be cls).st).pins = s.pins := pins_of (State.plainWrite_core s k data be cls)
@[simp] theorem State.flipCd_rest (s : State) : ((State.flipCd s)).rest = s.rest := rest_of (State.flipCd_core s)
@[simp] theorem State.flipCd_nvdWf (s : State) : ((State.flipCd s)).nvdWf = s.nvdWf := nvdWf_of (State.flipCd_core s)
@[simp] theorem State.flipCd_bare (s : State) : ((State.flipCd s)).bare = s.bare := bare_of (State.flipCd_core s)
@[simp] theorem State.flipCd_pins (s : State) : ((State.flipCd s)).pins = s.pins := pins_of (State.flipCd_core s)
@[simp] theorem State.lidEntry_rest (s : State) (ty : Nat) (st : LidState) (c : LidCh) (cause : Nat) (idx : Nat)
    (value : Nat) : ((State.lidEntry s ty st c cause idx value)).rest = s.rest := rest_of (State.lidEntry_core s ty st
    c cause idx value)
@[simp] theorem State.lidEntry_nvdWf (s : State) (ty : Nat) (st : LidState) (c : LidCh) (cause : Nat) (idx : Nat)
    (value : Nat) : ((State.lidEntry s ty st c cause idx value)).nvdWf = s.nvdWf := nvdWf_of (State.lidEntry_core s ty
    st c cause idx value)
@[simp] theorem State.lidEntry_bare (s : State) (ty : Nat) (st : LidState) (c : LidCh) (cause : Nat) (idx : Nat)
    (value : Nat) : ((State.lidEntry s ty st c cause idx value)).bare = s.bare := bare_of (State.lidEntry_core s ty st
    c cause idx value)
@[simp] theorem State.lidEntry_pins (s : State) (ty : Nat) (st : LidState) (c : LidCh) (cause : Nat) (idx : Nat)
    (value : Nat) : ((State.lidEntry s ty st c cause idx value)).pins = s.pins := pins_of (State.lidEntry_core s ty st
    c cause idx value)
@[simp] theorem State.lidSet_rest (s : State) (t : LidState) : ((State.lidSet s t)).rest = s.rest := rest_of
    (State.lidSet_core s t)
@[simp] theorem State.lidSet_nvdWf (s : State) (t : LidState) : ((State.lidSet s t)).nvdWf = s.nvdWf := nvdWf_of
    (State.lidSet_core s t)
@[simp] theorem State.lidSet_bare (s : State) (t : LidState) : ((State.lidSet s t)).bare = s.bare := bare_of
    (State.lidSet_core s t)
@[simp] theorem State.lidSet_pins (s : State) (t : LidState) : ((State.lidSet s t)).pins = s.pins := pins_of
    (State.lidSet_core s t)
@[simp] theorem State.lidGo_rest (s : State) (c : LidCh) (t : LidState) (evt : List Nat) : ((State.lidGo s c t
    evt)).rest = s.rest := rest_of (State.lidGo_core s c t evt)
@[simp] theorem State.lidGo_nvdWf (s : State) (c : LidCh) (t : LidState) (evt : List Nat) : ((State.lidGo s c t
    evt)).nvdWf = s.nvdWf := nvdWf_of (State.lidGo_core s c t evt)
@[simp] theorem State.lidGo_bare (s : State) (c : LidCh) (t : LidState) (evt : List Nat) : ((State.lidGo s c t
    evt)).bare = s.bare := bare_of (State.lidGo_core s c t evt)
@[simp] theorem State.lidGo_pins (s : State) (c : LidCh) (t : LidState) (evt : List Nat) : ((State.lidGo s c t
    evt)).pins = s.pins := pins_of (State.lidGo_core s c t evt)
@[simp] theorem State.lidLatch_rest (s : State) (st : LidState) (c : LidCh) (cause : Nat) (idx : Nat) (value : Nat) :
    ((State.lidLatch s st c cause idx value)).rest = s.rest := rest_of (State.lidLatch_core s st c cause idx value)
@[simp] theorem State.lidLatch_nvdWf (s : State) (st : LidState) (c : LidCh) (cause : Nat) (idx : Nat) (value : Nat) :
    ((State.lidLatch s st c cause idx value)).nvdWf = s.nvdWf := nvdWf_of (State.lidLatch_core s st c cause idx value)
@[simp] theorem State.lidLatch_bare (s : State) (st : LidState) (c : LidCh) (cause : Nat) (idx : Nat) (value : Nat) :
    ((State.lidLatch s st c cause idx value)).bare = s.bare := bare_of (State.lidLatch_core s st c cause idx value)
@[simp] theorem State.lidLatch_pins (s : State) (st : LidState) (c : LidCh) (cause : Nat) (idx : Nat) (value : Nat) :
    ((State.lidLatch s st c cause idx value)).pins = s.pins := pins_of (State.lidLatch_core s st c cause idx value)
@[simp] theorem State.lidRefuse_rest (s : State) (cause : Nat) (idx : Nat) (h : Nat) : ((State.lidRefuse s cause idx
    h)).rest = s.rest := rest_of (State.lidRefuse_core s cause idx h)
@[simp] theorem State.lidRefuse_nvdWf (s : State) (cause : Nat) (idx : Nat) (h : Nat) : ((State.lidRefuse s cause idx
    h)).nvdWf = s.nvdWf := nvdWf_of (State.lidRefuse_core s cause idx h)
@[simp] theorem State.lidRefuse_bare (s : State) (cause : Nat) (idx : Nat) (h : Nat) : ((State.lidRefuse s cause idx
    h)).bare = s.bare := bare_of (State.lidRefuse_core s cause idx h)
@[simp] theorem State.lidRefuse_pins (s : State) (cause : Nat) (idx : Nat) (h : Nat) : ((State.lidRefuse s cause idx
    h)).pins = s.pins := pins_of (State.lidRefuse_core s cause idx h)
@[simp] theorem State.lidCancel_rest (s : State) (cause : Nat) (idx : Nat) : ((State.lidCancel s cause idx)).rest =
    s.rest := rest_of (State.lidCancel_core s cause idx)
@[simp] theorem State.lidCancel_nvdWf (s : State) (cause : Nat) (idx : Nat) : ((State.lidCancel s cause idx)).nvdWf =
    s.nvdWf := nvdWf_of (State.lidCancel_core s cause idx)
@[simp] theorem State.lidCancel_bare (s : State) (cause : Nat) (idx : Nat) : ((State.lidCancel s cause idx)).bare =
    s.bare := bare_of (State.lidCancel_core s cause idx)
@[simp] theorem State.lidCancel_pins (s : State) (cause : Nat) (idx : Nat) : ((State.lidCancel s cause idx)).pins =
    s.pins := pins_of (State.lidCancel_core s cause idx)
@[simp] theorem State.lidDemand_rest (s : State) (cause : Nat) (idx : Nat) : ((State.lidDemand s cause idx)).rest =
    s.rest := rest_of (State.lidDemand_core s cause idx)
@[simp] theorem State.lidDemand_nvdWf (s : State) (cause : Nat) (idx : Nat) : ((State.lidDemand s cause idx)).nvdWf =
    s.nvdWf := nvdWf_of (State.lidDemand_core s cause idx)
@[simp] theorem State.lidDemand_bare (s : State) (cause : Nat) (idx : Nat) : ((State.lidDemand s cause idx)).bare =
    s.bare := bare_of (State.lidDemand_core s cause idx)
@[simp] theorem State.lidDemand_pins (s : State) (cause : Nat) (idx : Nat) : ((State.lidDemand s cause idx)).pins =
    s.pins := pins_of (State.lidDemand_core s cause idx)
@[simp] theorem State.lidCause_rest (s : State) (c : LidCh) (cause : Nat) (idx : Nat) (value : Nat) : ((State.lidCause
    s c cause idx value)).rest = s.rest := rest_of (State.lidCause_core s c cause idx value)
@[simp] theorem State.lidCause_nvdWf (s : State) (c : LidCh) (cause : Nat) (idx : Nat) (value : Nat) :
    ((State.lidCause s c cause idx value)).nvdWf = s.nvdWf := nvdWf_of (State.lidCause_core s c cause idx value)
@[simp] theorem State.lidCause_bare (s : State) (c : LidCh) (cause : Nat) (idx : Nat) (value : Nat) : ((State.lidCause
    s c cause idx value)).bare = s.bare := bare_of (State.lidCause_core s c cause idx value)
@[simp] theorem State.lidCause_pins (s : State) (c : LidCh) (cause : Nat) (idx : Nat) (value : Nat) : ((State.lidCause
    s c cause idx value)).pins = s.pins := pins_of (State.lidCause_core s c cause idx value)
@[simp] theorem State.lidDegrade_rest (s : State) (c : LidCh) : ((State.lidDegrade s c)).rest = s.rest := rest_of
    (State.lidDegrade_core s c)
@[simp] theorem State.lidDegrade_nvdWf (s : State) (c : LidCh) : ((State.lidDegrade s c)).nvdWf = s.nvdWf := nvdWf_of
    (State.lidDegrade_core s c)
@[simp] theorem State.lidDegrade_bare (s : State) (c : LidCh) : ((State.lidDegrade s c)).bare = s.bare := bare_of
    (State.lidDegrade_core s c)
@[simp] theorem State.lidDegrade_pins (s : State) (c : LidCh) : ((State.lidDegrade s c)).pins = s.pins := pins_of
    (State.lidDegrade_core s c)
@[simp] theorem State.lidOff_rest (s : State) : ((State.lidOff s)).rest = s.rest := rest_of (State.lidOff_core s)
@[simp] theorem State.lidOff_nvdWf (s : State) : ((State.lidOff s)).nvdWf = s.nvdWf := nvdWf_of (State.lidOff_core s)
@[simp] theorem State.lidOff_bare (s : State) : ((State.lidOff s)).bare = s.bare := bare_of (State.lidOff_core s)
@[simp] theorem State.lidOff_pins (s : State) : ((State.lidOff s)).pins = s.pins := pins_of (State.lidOff_core s)
@[simp] theorem State.lidSwitches_rest (s : State) : ((State.lidSwitches s)).rest = s.rest := rest_of
    (State.lidSwitches_core s)
@[simp] theorem State.lidSwitches_nvdWf (s : State) : ((State.lidSwitches s)).nvdWf = s.nvdWf := nvdWf_of
    (State.lidSwitches_core s)
@[simp] theorem State.lidSwitches_bare (s : State) : ((State.lidSwitches s)).bare = s.bare := bare_of
    (State.lidSwitches_core s)
@[simp] theorem State.lidSwitches_pins (s : State) : ((State.lidSwitches s)).pins = s.pins := pins_of
    (State.lidSwitches_core s)
@[simp] theorem State.setV24_rest (s : State) (ok : Bool) : ((State.setV24 s ok)).rest = s.rest := rest_of
    (State.setV24_core s ok)
@[simp] theorem State.setV24_nvdWf (s : State) (ok : Bool) : ((State.setV24 s ok)).nvdWf = s.nvdWf := nvdWf_of
    (State.setV24_core s ok)
@[simp] theorem State.setV24_bare (s : State) (ok : Bool) : ((State.setV24 s ok)).bare = s.bare := bare_of
    (State.setV24_core s ok)
@[simp] theorem State.setV24_pins (s : State) (ok : Bool) : ((State.setV24 s ok)).pins = s.pins := pins_of
    (State.setV24_core s ok)
@[simp] theorem State.inputDemand_rest (s : State) (c : LidCh) (i : Nat) : ((State.inputDemand s c i)).rest = s.rest
    := rest_of (State.inputDemand_core s c i)
@[simp] theorem State.inputDemand_nvdWf (s : State) (c : LidCh) (i : Nat) : ((State.inputDemand s c i)).nvdWf =
    s.nvdWf := nvdWf_of (State.inputDemand_core s c i)
@[simp] theorem State.inputDemand_bare (s : State) (c : LidCh) (i : Nat) : ((State.inputDemand s c i)).bare = s.bare
    := bare_of (State.inputDemand_core s c i)
@[simp] theorem State.inputDemand_pins (s : State) (c : LidCh) (i : Nat) : ((State.inputDemand s c i)).pins = s.pins
    := pins_of (State.inputDemand_core s c i)
@[simp] theorem State.lidReject_rest (s : State) (why : Option (Nat × Nat)) (h : Nat) : ((State.lidReject s why
    h)).rest = s.rest := rest_of (State.lidReject_core s why h)
@[simp] theorem State.lidReject_nvdWf (s : State) (why : Option (Nat × Nat)) (h : Nat) : ((State.lidReject s why
    h)).nvdWf = s.nvdWf := nvdWf_of (State.lidReject_core s why h)
@[simp] theorem State.lidReject_bare (s : State) (why : Option (Nat × Nat)) (h : Nat) : ((State.lidReject s why
    h)).bare = s.bare := bare_of (State.lidReject_core s why h)
@[simp] theorem State.lidReject_pins (s : State) (why : Option (Nat × Nat)) (h : Nat) : ((State.lidReject s why
    h)).pins = s.pins := pins_of (State.lidReject_core s why h)
@[simp] theorem State.lidAccept_rest (s : State) (h : Nat) : ((State.lidAccept s h)).rest = s.rest := rest_of
    (State.lidAccept_core s h)
@[simp] theorem State.lidAccept_nvdWf (s : State) (h : Nat) : ((State.lidAccept s h)).nvdWf = s.nvdWf := nvdWf_of
    (State.lidAccept_core s h)
@[simp] theorem State.lidAccept_bare (s : State) (h : Nat) : ((State.lidAccept s h)).bare = s.bare := bare_of
    (State.lidAccept_core s h)
@[simp] theorem State.lidAccept_pins (s : State) (h : Nat) : ((State.lidAccept s h)).pins = s.pins := pins_of
    (State.lidAccept_core s h)
@[simp] theorem State.lidSettle_rest (s : State) : ((State.lidSettle s)).rest = s.rest := rest_of
    (State.lidSettle_core s)
@[simp] theorem State.lidSettle_nvdWf (s : State) : ((State.lidSettle s)).nvdWf = s.nvdWf := nvdWf_of
    (State.lidSettle_core s)
@[simp] theorem State.lidSettle_bare (s : State) : ((State.lidSettle s)).bare = s.bare := bare_of
    (State.lidSettle_core s)
@[simp] theorem State.lidSettle_pins (s : State) : ((State.lidSettle s)).pins = s.pins := pins_of
    (State.lidSettle_core s)
@[simp] theorem State.lidCmd_rest (s : State) (data : W32) : ((State.lidCmd s data).st).rest = s.rest := rest_of
    (State.lidCmd_core s data)
@[simp] theorem State.lidCmd_nvdWf (s : State) (data : W32) : ((State.lidCmd s data).st).nvdWf = s.nvdWf := nvdWf_of
    (State.lidCmd_core s data)
@[simp] theorem State.lidCmd_bare (s : State) (data : W32) : ((State.lidCmd s data).st).bare = s.bare := bare_of
    (State.lidCmd_core s data)
@[simp] theorem State.lidCmd_pins (s : State) (data : W32) : ((State.lidCmd s data).st).pins = s.pins := pins_of
    (State.lidCmd_core s data)
@[simp] theorem State.qenWrite_rest (s : State) (data : W32) (be : BitVec 4) : ((State.qenWrite s data be).st).rest =
    s.rest := rest_of (State.qenWrite_core s data be)
@[simp] theorem State.qenWrite_nvdWf (s : State) (data : W32) (be : BitVec 4) : ((State.qenWrite s data be).st).nvdWf
    = s.nvdWf := nvdWf_of (State.qenWrite_core s data be)
@[simp] theorem State.qenWrite_bare (s : State) (data : W32) (be : BitVec 4) : ((State.qenWrite s data be).st).bare =
    s.bare := bare_of (State.qenWrite_core s data be)
@[simp] theorem State.qenWrite_pins (s : State) (data : W32) (be : BitVec 4) : ((State.qenWrite s data be).st).pins =
    s.pins := pins_of (State.qenWrite_core s data be)
@[simp] theorem State.cleanRange_rest (s : State) (d : Die) (mem : Nat) (lo : Nat) (n : Nat) : ((State.cleanRange s d
    mem lo n)).rest = s.rest := rest_of (State.cleanRange_core s d mem lo n)
@[simp] theorem State.cleanRange_nvdWf (s : State) (d : Die) (mem : Nat) (lo : Nat) (n : Nat) : ((State.cleanRange s d
    mem lo n)).nvdWf = s.nvdWf := nvdWf_of (State.cleanRange_core s d mem lo n)
@[simp] theorem State.cleanRange_bare (s : State) (d : Die) (mem : Nat) (lo : Nat) (n : Nat) : ((State.cleanRange s d
    mem lo n)).bare = s.bare := bare_of (State.cleanRange_core s d mem lo n)
@[simp] theorem State.cleanRange_pins (s : State) (d : Die) (mem : Nat) (lo : Nat) (n : Nat) : ((State.cleanRange s d
    mem lo n)).pins = s.pins := pins_of (State.cleanRange_core s d mem lo n)
@[simp] theorem State.accessNop_rest (s : State) (lane : Nat) (addr : Nat) : ((State.accessNop s lane addr)).rest =
    s.rest := rest_of (State.accessNop_core s lane addr)
@[simp] theorem State.accessNop_nvdWf (s : State) (lane : Nat) (addr : Nat) : ((State.accessNop s lane addr)).nvdWf =
    s.nvdWf := nvdWf_of (State.accessNop_core s lane addr)
@[simp] theorem State.accessNop_bare (s : State) (lane : Nat) (addr : Nat) : ((State.accessNop s lane addr)).bare =
    s.bare := bare_of (State.accessNop_core s lane addr)
@[simp] theorem State.accessNop_pins (s : State) (lane : Nat) (addr : Nat) : ((State.accessNop s lane addr)).pins =
    s.pins := pins_of (State.accessNop_core s lane addr)
@[simp] theorem State.readResp_rest (s : State) (n : Nat) (r : Resp) : ((State.readResp s n r).2).rest = s.rest :=
    rest_of (State.readResp_core s n r)
@[simp] theorem State.readResp_nvdWf (s : State) (n : Nat) (r : Resp) : ((State.readResp s n r).2).nvdWf = s.nvdWf :=
    nvdWf_of (State.readResp_core s n r)
@[simp] theorem State.readResp_bare (s : State) (n : Nat) (r : Resp) : ((State.readResp s n r).2).bare = s.bare :=
    bare_of (State.readResp_core s n r)
@[simp] theorem State.readResp_pins (s : State) (n : Nat) (r : Resp) : ((State.readResp s n r).2).pins = s.pins :=
    pins_of (State.readResp_core s n r)
@[simp] theorem State.dropFirst_rest (s : State) (n : Nat) : ((State.dropFirst s n)).rest = s.rest := rest_of
    (State.dropFirst_core s n)
@[simp] theorem State.dropFirst_nvdWf (s : State) (n : Nat) : ((State.dropFirst s n)).nvdWf = s.nvdWf := nvdWf_of
    (State.dropFirst_core s n)
@[simp] theorem State.dropFirst_bare (s : State) (n : Nat) : ((State.dropFirst s n)).bare = s.bare := bare_of
    (State.dropFirst_core s n)
@[simp] theorem State.dropFirst_pins (s : State) (n : Nat) : ((State.dropFirst s n)).pins = s.pins := pins_of
    (State.dropFirst_core s n)
@[simp] theorem State.sendIdles_rest (s : State) (n : Nat) (k : Nat) : ((State.sendIdles s n k)).rest = s.rest :=
    rest_of (State.sendIdles_core s n k)
@[simp] theorem State.sendIdles_nvdWf (s : State) (n : Nat) (k : Nat) : ((State.sendIdles s n k)).nvdWf = s.nvdWf :=
    nvdWf_of (State.sendIdles_core s n k)
@[simp] theorem State.sendIdles_bare (s : State) (n : Nat) (k : Nat) : ((State.sendIdles s n k)).bare = s.bare :=
    bare_of (State.sendIdles_core s n k)
@[simp] theorem State.sendIdles_pins (s : State) (n : Nat) (k : Nat) : ((State.sendIdles s n k)).pins = s.pins :=
    pins_of (State.sendIdles_core s n k)
@[simp] theorem State.unitOut_rest (s : State) (n : Nat) (u : W64) : ((State.unitOut s n u)).rest = s.rest := rest_of
    (State.unitOut_core s n u)
@[simp] theorem State.unitOut_nvdWf (s : State) (n : Nat) (u : W64) : ((State.unitOut s n u)).nvdWf = s.nvdWf :=
    nvdWf_of (State.unitOut_core s n u)
@[simp] theorem State.unitOut_bare (s : State) (n : Nat) (u : W64) : ((State.unitOut s n u)).bare = s.bare := bare_of
    (State.unitOut_core s n u)
@[simp] theorem State.unitOut_pins (s : State) (n : Nat) (u : W64) : ((State.unitOut s n u)).pins = s.pins := pins_of
    (State.unitOut_core s n u)
@[simp] theorem State.slotUnit_rest (s : State) (n : Nat) : ((State.slotUnit s n)).rest = s.rest := rest_of
    (State.slotUnit_core s n)
@[simp] theorem State.slotUnit_nvdWf (s : State) (n : Nat) : ((State.slotUnit s n)).nvdWf = s.nvdWf := nvdWf_of
    (State.slotUnit_core s n)
@[simp] theorem State.slotUnit_bare (s : State) (n : Nat) : ((State.slotUnit s n)).bare = s.bare := bare_of
    (State.slotUnit_core s n)
@[simp] theorem State.slotUnit_pins (s : State) (n : Nat) : ((State.slotUnit s n)).pins = s.pins := pins_of
    (State.slotUnit_core s n)
@[simp] theorem State.slotUnits_rest (n : Nat) (k : Nat) (s : State) : ((State.slotUnits n k s)).rest = s.rest :=
    rest_of (State.slotUnits_core n k s)
@[simp] theorem State.slotUnits_nvdWf (n : Nat) (k : Nat) (s : State) : ((State.slotUnits n k s)).nvdWf = s.nvdWf :=
    nvdWf_of (State.slotUnits_core n k s)
@[simp] theorem State.slotUnits_bare (n : Nat) (k : Nat) (s : State) : ((State.slotUnits n k s)).bare = s.bare :=
    bare_of (State.slotUnits_core n k s)
@[simp] theorem State.slotUnits_pins (n : Nat) (k : Nat) (s : State) : ((State.slotUnits n k s)).pins = s.pins :=
    pins_of (State.slotUnits_core n k s)
@[simp] theorem State.passSlots_rest (s : State) (n : Nat) (k : Nat) : ((State.passSlots s n k)).rest = s.rest :=
    rest_of (State.passSlots_core s n k)
@[simp] theorem State.passSlots_nvdWf (s : State) (n : Nat) (k : Nat) : ((State.passSlots s n k)).nvdWf = s.nvdWf :=
    nvdWf_of (State.passSlots_core s n k)
@[simp] theorem State.passSlots_bare (s : State) (n : Nat) (k : Nat) : ((State.passSlots s n k)).bare = s.bare :=
    bare_of (State.passSlots_core s n k)
@[simp] theorem State.passSlots_pins (s : State) (n : Nat) (k : Nat) : ((State.passSlots s n k)).pins = s.pins :=
    pins_of (State.passSlots_core s n k)
@[simp] theorem State.sendInSlot_rest (s : State) (n : Nat) (u : W64) : ((State.sendInSlot s n u)).rest = s.rest :=
    rest_of (State.sendInSlot_core s n u)
@[simp] theorem State.sendInSlot_nvdWf (s : State) (n : Nat) (u : W64) : ((State.sendInSlot s n u)).nvdWf = s.nvdWf :=
    nvdWf_of (State.sendInSlot_core s n u)
@[simp] theorem State.sendInSlot_bare (s : State) (n : Nat) (u : W64) : ((State.sendInSlot s n u)).bare = s.bare :=
    bare_of (State.sendInSlot_core s n u)
@[simp] theorem State.sendInSlot_pins (s : State) (n : Nat) (u : W64) : ((State.sendInSlot s n u)).pins = s.pins :=
    pins_of (State.sendInSlot_core s n u)
@[simp] theorem State.settles_rest (s : State) : ((State.settles s)).rest = s.rest := rest_of (State.settles_core s)
@[simp] theorem State.settles_nvdWf (s : State) : ((State.settles s)).nvdWf = s.nvdWf := nvdWf_of (State.settles_core
    s)
@[simp] theorem State.settles_bare (s : State) : ((State.settles s)).bare = s.bare := bare_of (State.settles_core s)
@[simp] theorem State.settles_pins (s : State) : ((State.settles s)).pins = s.pins := pins_of (State.settles_core s)
@[simp] theorem State.fullBias_rest (s : State) : ((State.fullBias s)).rest = s.rest := rest_of (State.fullBias_core
    s)
@[simp] theorem State.fullBias_nvdWf (s : State) : ((State.fullBias s)).nvdWf = s.nvdWf := nvdWf_of
    (State.fullBias_core s)
@[simp] theorem State.fullBias_bare (s : State) : ((State.fullBias s)).bare = s.bare := bare_of (State.fullBias_core
    s)
@[simp] theorem State.fullBias_pins (s : State) : ((State.fullBias s)).pins = s.pins := pins_of (State.fullBias_core
    s)
@[simp] theorem State.biasWrite_rest (s : State) (data : W32) (be : BitVec 4) : ((State.biasWrite s data be).st).rest
    = s.rest := rest_of (State.biasWrite_core s data be)
@[simp] theorem State.biasWrite_nvdWf (s : State) (data : W32) (be : BitVec 4) : ((State.biasWrite s data
    be).st).nvdWf = s.nvdWf := nvdWf_of (State.biasWrite_core s data be)
@[simp] theorem State.biasWrite_bare (s : State) (data : W32) (be : BitVec 4) : ((State.biasWrite s data be).st).bare
    = s.bare := bare_of (State.biasWrite_core s data be)
@[simp] theorem State.biasWrite_pins (s : State) (data : W32) (be : BitVec 4) : ((State.biasWrite s data be).st).pins
    = s.pins := pins_of (State.biasWrite_core s data be)
@[simp] theorem State.chanWrite_rest (s : State) (c : Nat) (high : Bool) (data : W32) (be : BitVec 4) :
    ((State.chanWrite s c high data be).st).rest = s.rest := rest_of (State.chanWrite_core s c high data be)
@[simp] theorem State.chanWrite_nvdWf (s : State) (c : Nat) (high : Bool) (data : W32) (be : BitVec 4) :
    ((State.chanWrite s c high data be).st).nvdWf = s.nvdWf := nvdWf_of (State.chanWrite_core s c high data be)
@[simp] theorem State.chanWrite_bare (s : State) (c : Nat) (high : Bool) (data : W32) (be : BitVec 4) :
    ((State.chanWrite s c high data be).st).bare = s.bare := bare_of (State.chanWrite_core s c high data be)
@[simp] theorem State.chanWrite_pins (s : State) (c : Nat) (high : Bool) (data : W32) (be : BitVec 4) :
    ((State.chanWrite s c high data be).st).pins = s.pins := pins_of (State.chanWrite_core s c high data be)
@[simp] theorem State.groupWrite_rest (s : State) (high : Bool) (data : W32) (be : BitVec 4) : ((State.groupWrite s
    high data be).st).rest = s.rest := rest_of (State.groupWrite_core s high data be)
@[simp] theorem State.groupWrite_nvdWf (s : State) (high : Bool) (data : W32) (be : BitVec 4) : ((State.groupWrite s
    high data be).st).nvdWf = s.nvdWf := nvdWf_of (State.groupWrite_core s high data be)
@[simp] theorem State.groupWrite_bare (s : State) (high : Bool) (data : W32) (be : BitVec 4) : ((State.groupWrite s
    high data be).st).bare = s.bare := bare_of (State.groupWrite_core s high data be)
@[simp] theorem State.groupWrite_pins (s : State) (high : Bool) (data : W32) (be : BitVec 4) : ((State.groupWrite s
    high data be).st).pins = s.pins := pins_of (State.groupWrite_core s high data be)
@[simp] theorem State.rateCount_rest (s : State) (c : Nat) : ((State.rateCount s c)).rest = s.rest := rest_of
    (State.rateCount_core s c)
@[simp] theorem State.rateCount_nvdWf (s : State) (c : Nat) : ((State.rateCount s c)).nvdWf = s.nvdWf := nvdWf_of
    (State.rateCount_core s c)
@[simp] theorem State.rateCount_bare (s : State) (c : Nat) : ((State.rateCount s c)).bare = s.bare := bare_of
    (State.rateCount_core s c)
@[simp] theorem State.rateCount_pins (s : State) (c : Nat) : ((State.rateCount s c)).pins = s.pins := pins_of
    (State.rateCount_core s c)
@[simp] theorem State.gateWrite_rest (s : State) (data : W32) (be : BitVec 4) : ((State.gateWrite s data be).st).rest
    = s.rest := rest_of (State.gateWrite_core s data be)
@[simp] theorem State.gateWrite_nvdWf (s : State) (data : W32) (be : BitVec 4) : ((State.gateWrite s data
    be).st).nvdWf = s.nvdWf := nvdWf_of (State.gateWrite_core s data be)
@[simp] theorem State.gateWrite_bare (s : State) (data : W32) (be : BitVec 4) : ((State.gateWrite s data be).st).bare
    = s.bare := bare_of (State.gateWrite_core s data be)
@[simp] theorem State.gateWrite_pins (s : State) (data : W32) (be : BitVec 4) : ((State.gateWrite s data be).st).pins
    = s.pins := pins_of (State.gateWrite_core s data be)
@[simp] theorem State.hotUpdate_rest (s : State) (cnt : Sparse Nat) : ((State.hotUpdate s cnt)).rest = s.rest :=
    rest_of (State.hotUpdate_core s cnt)
@[simp] theorem State.hotUpdate_nvdWf (s : State) (cnt : Sparse Nat) : ((State.hotUpdate s cnt)).nvdWf = s.nvdWf :=
    nvdWf_of (State.hotUpdate_core s cnt)
@[simp] theorem State.hotUpdate_bare (s : State) (cnt : Sparse Nat) : ((State.hotUpdate s cnt)).bare = s.bare :=
    bare_of (State.hotUpdate_core s cnt)
@[simp] theorem State.hotUpdate_pins (s : State) (cnt : Sparse Nat) : ((State.hotUpdate s cnt)).pins = s.pins :=
    pins_of (State.hotUpdate_core s cnt)
@[simp] theorem State.injAbort_rest (s : State) : ((State.injAbort s)).rest = s.rest := rest_of (State.injAbort_core
    s)
@[simp] theorem State.injAbort_nvdWf (s : State) : ((State.injAbort s)).nvdWf = s.nvdWf := nvdWf_of
    (State.injAbort_core s)
@[simp] theorem State.injAbort_bare (s : State) : ((State.injAbort s)).bare = s.bare := bare_of (State.injAbort_core
    s)
@[simp] theorem State.injAbort_pins (s : State) : ((State.injAbort s)).pins = s.pins := pins_of (State.injAbort_core
    s)
@[simp] theorem State.injWrite_rest (s : State) (data : W32) (be : BitVec 4) : ((State.injWrite s data be).st).rest =
    s.rest := rest_of (State.injWrite_core s data be)
@[simp] theorem State.injWrite_nvdWf (s : State) (data : W32) (be : BitVec 4) : ((State.injWrite s data be).st).nvdWf
    = s.nvdWf := nvdWf_of (State.injWrite_core s data be)
@[simp] theorem State.injWrite_bare (s : State) (data : W32) (be : BitVec 4) : ((State.injWrite s data be).st).bare =
    s.bare := bare_of (State.injWrite_core s data be)
@[simp] theorem State.injWrite_pins (s : State) (data : W32) (be : BitVec 4) : ((State.injWrite s data be).st).pins =
    s.pins := pins_of (State.injWrite_core s data be)
@[simp] theorem State.injDelay_rest (s : State) : ((State.injDelay s).2).rest = s.rest := rest_of (State.injDelay_core
    s)
@[simp] theorem State.injDelay_nvdWf (s : State) : ((State.injDelay s).2).nvdWf = s.nvdWf := nvdWf_of
    (State.injDelay_core s)
@[simp] theorem State.injDelay_bare (s : State) : ((State.injDelay s).2).bare = s.bare := bare_of (State.injDelay_core
    s)
@[simp] theorem State.injDelay_pins (s : State) : ((State.injDelay s).2).pins = s.pins := pins_of (State.injDelay_core
    s)
@[simp] theorem State.overrun_rest (s : State) : ((State.overrun s)).rest = s.rest := rest_of (State.overrun_core s)
@[simp] theorem State.overrun_nvdWf (s : State) : ((State.overrun s)).nvdWf = s.nvdWf := nvdWf_of (State.overrun_core
    s)
@[simp] theorem State.overrun_bare (s : State) : ((State.overrun s)).bare = s.bare := bare_of (State.overrun_core s)
@[simp] theorem State.overrun_pins (s : State) : ((State.overrun s)).pins = s.pins := pins_of (State.overrun_core s)
@[simp] theorem State.convert_rest (s : State) (c : Nat) (bank : Bool) (e : Edge) : ((State.convert s c bank
    e).2).rest = s.rest := rest_of (State.convert_core s c bank e)
@[simp] theorem State.convert_nvdWf (s : State) (c : Nat) (bank : Bool) (e : Edge) : ((State.convert s c bank
    e).2).nvdWf = s.nvdWf := nvdWf_of (State.convert_core s c bank e)
@[simp] theorem State.convert_bare (s : State) (c : Nat) (bank : Bool) (e : Edge) : ((State.convert s c bank
    e).2).bare = s.bare := bare_of (State.convert_core s c bank e)
@[simp] theorem State.convert_pins (s : State) (c : Nat) (bank : Bool) (e : Edge) : ((State.convert s c bank
    e).2).pins = s.pins := pins_of (State.convert_core s c bank e)
@[simp] theorem State.setBanks_rest (s : State) (c : Nat) (b : Banks) : ((State.setBanks s c b)).rest = s.rest :=
    rest_of (State.setBanks_core s c b)
@[simp] theorem State.setBanks_nvdWf (s : State) (c : Nat) (b : Banks) : ((State.setBanks s c b)).nvdWf = s.nvdWf :=
    nvdWf_of (State.setBanks_core s c b)
@[simp] theorem State.setBanks_bare (s : State) (c : Nat) (b : Banks) : ((State.setBanks s c b)).bare = s.bare :=
    bare_of (State.setBanks_core s c b)
@[simp] theorem State.setBanks_pins (s : State) (c : Nat) (b : Banks) : ((State.setBanks s c b)).pins = s.pins :=
    pins_of (State.setBanks_core s c b)
@[simp] theorem State.clearHist_rest (s : State) (c : Nat) (bank : Bool) : ((State.clearHist s c bank)).rest = s.rest
    := rest_of (State.clearHist_core s c bank)
@[simp] theorem State.clearHist_nvdWf (s : State) (c : Nat) (bank : Bool) : ((State.clearHist s c bank)).nvdWf =
    s.nvdWf := nvdWf_of (State.clearHist_core s c bank)
@[simp] theorem State.clearHist_bare (s : State) (c : Nat) (bank : Bool) : ((State.clearHist s c bank)).bare = s.bare
    := bare_of (State.clearHist_core s c bank)
@[simp] theorem State.clearHist_pins (s : State) (c : Nat) (bank : Bool) : ((State.clearHist s c bank)).pins = s.pins
    := pins_of (State.clearHist_core s c bank)
@[simp] theorem State.clearTab_rest (s : State) (c : Nat) (bank : Bool) : ((State.clearTab s c bank)).rest = s.rest :=
    rest_of (State.clearTab_core s c bank)
@[simp] theorem State.clearTab_nvdWf (s : State) (c : Nat) (bank : Bool) : ((State.clearTab s c bank)).nvdWf = s.nvdWf
    := nvdWf_of (State.clearTab_core s c bank)
@[simp] theorem State.clearTab_bare (s : State) (c : Nat) (bank : Bool) : ((State.clearTab s c bank)).bare = s.bare :=
    bare_of (State.clearTab_core s c bank)
@[simp] theorem State.clearTab_pins (s : State) (c : Nat) (bank : Bool) : ((State.clearTab s c bank)).pins = s.pins :=
    pins_of (State.clearTab_core s c bank)
@[simp] theorem State.startFill_rest (s : State) (len : Nat) (c : Nat) : ((State.startFill s len c)).rest = s.rest :=
    rest_of (State.startFill_core s len c)
@[simp] theorem State.startFill_nvdWf (s : State) (len : Nat) (c : Nat) : ((State.startFill s len c)).nvdWf = s.nvdWf
    := nvdWf_of (State.startFill_core s len c)
@[simp] theorem State.startFill_bare (s : State) (len : Nat) (c : Nat) : ((State.startFill s len c)).bare = s.bare :=
    bare_of (State.startFill_core s len c)
@[simp] theorem State.startFill_pins (s : State) (len : Nat) (c : Nat) : ((State.startFill s len c)).pins = s.pins :=
    pins_of (State.startFill_core s len c)
@[simp] theorem State.fillEvent_rest (s : State) (c : Nat) (code : Nat) (ovr : Bool) : ((State.fillEvent s c code
    ovr)).rest = s.rest := rest_of (State.fillEvent_core s c code ovr)
@[simp] theorem State.fillEvent_nvdWf (s : State) (c : Nat) (code : Nat) (ovr : Bool) : ((State.fillEvent s c code
    ovr)).nvdWf = s.nvdWf := nvdWf_of (State.fillEvent_core s c code ovr)
@[simp] theorem State.fillEvent_bare (s : State) (c : Nat) (code : Nat) (ovr : Bool) : ((State.fillEvent s c code
    ovr)).bare = s.bare := bare_of (State.fillEvent_core s c code ovr)
@[simp] theorem State.fillEvent_pins (s : State) (c : Nat) (code : Nat) (ovr : Bool) : ((State.fillEvent s c code
    ovr)).pins = s.pins := pins_of (State.fillEvent_core s c code ovr)
@[simp] theorem State.form_rest (s : State) (c : Nat) (p : Pulse) (tot : Nat) : ((State.form s c p tot)).rest = s.rest
    := rest_of (State.form_core s c p tot)
@[simp] theorem State.form_nvdWf (s : State) (c : Nat) (p : Pulse) (tot : Nat) : ((State.form s c p tot)).nvdWf =
    s.nvdWf := nvdWf_of (State.form_core s c p tot)
@[simp] theorem State.form_bare (s : State) (c : Nat) (p : Pulse) (tot : Nat) : ((State.form s c p tot)).bare = s.bare
    := bare_of (State.form_core s c p tot)
@[simp] theorem State.form_pins (s : State) (c : Nat) (p : Pulse) (tot : Nat) : ((State.form s c p tot)).pins = s.pins
    := pins_of (State.form_core s c p tot)
@[simp] theorem State.captureDue_rest (s : State) (c : Nat) (p : Pulse) (high : Nat) : ((State.captureDue s c p
    high)).rest = s.rest := rest_of (State.captureDue_core s c p high)
@[simp] theorem State.captureDue_nvdWf (s : State) (c : Nat) (p : Pulse) (high : Nat) : ((State.captureDue s c p
    high)).nvdWf = s.nvdWf := nvdWf_of (State.captureDue_core s c p high)
@[simp] theorem State.captureDue_bare (s : State) (c : Nat) (p : Pulse) (high : Nat) : ((State.captureDue s c p
    high)).bare = s.bare := bare_of (State.captureDue_core s c p high)
@[simp] theorem State.captureDue_pins (s : State) (c : Nat) (p : Pulse) (high : Nat) : ((State.captureDue s c p
    high)).pins = s.pins := pins_of (State.captureDue_core s c p high)
@[simp] theorem State.deadCrossing_rest (s : State) : ((State.deadCrossing s)).rest = s.rest := rest_of
    (State.deadCrossing_core s)
@[simp] theorem State.deadCrossing_nvdWf (s : State) : ((State.deadCrossing s)).nvdWf = s.nvdWf := nvdWf_of
    (State.deadCrossing_core s)
@[simp] theorem State.deadCrossing_bare (s : State) : ((State.deadCrossing s)).bare = s.bare := bare_of
    (State.deadCrossing_core s)
@[simp] theorem State.deadCrossing_pins (s : State) : ((State.deadCrossing s)).pins = s.pins := pins_of
    (State.deadCrossing_core s)
@[simp] theorem State.leadNative_rest (s : State) (c : Nat) (p : Pulse) (e : Edge) : ((State.leadNative s c p e)).rest
    = s.rest := rest_of (State.leadNative_core s c p e)
@[simp] theorem State.leadNative_nvdWf (s : State) (c : Nat) (p : Pulse) (e : Edge) : ((State.leadNative s c p
    e)).nvdWf = s.nvdWf := nvdWf_of (State.leadNative_core s c p e)
@[simp] theorem State.leadNative_bare (s : State) (c : Nat) (p : Pulse) (e : Edge) : ((State.leadNative s c p e)).bare
    = s.bare := bare_of (State.leadNative_core s c p e)
@[simp] theorem State.leadNative_pins (s : State) (c : Nat) (p : Pulse) (e : Edge) : ((State.leadNative s c p e)).pins
    = s.pins := pins_of (State.leadNative_core s c p e)
@[simp] theorem State.leadCompat_rest (s : State) (c : Nat) (p : Pulse) (e : Edge) : ((State.leadCompat s c p e)).rest
    = s.rest := rest_of (State.leadCompat_core s c p e)
@[simp] theorem State.leadCompat_nvdWf (s : State) (c : Nat) (p : Pulse) (e : Edge) : ((State.leadCompat s c p
    e)).nvdWf = s.nvdWf := nvdWf_of (State.leadCompat_core s c p e)
@[simp] theorem State.leadCompat_bare (s : State) (c : Nat) (p : Pulse) (e : Edge) : ((State.leadCompat s c p e)).bare
    = s.bare := bare_of (State.leadCompat_core s c p e)
@[simp] theorem State.leadCompat_pins (s : State) (c : Nat) (p : Pulse) (e : Edge) : ((State.leadCompat s c p e)).pins
    = s.pins := pins_of (State.leadCompat_core s c p e)
@[simp] theorem State.gfifoDrop_rest (s : State) (c : Nat) : ((State.gfifoDrop s c)).rest = s.rest := rest_of
    (State.gfifoDrop_core s c)
@[simp] theorem State.gfifoDrop_nvdWf (s : State) (c : Nat) : ((State.gfifoDrop s c)).nvdWf = s.nvdWf := nvdWf_of
    (State.gfifoDrop_core s c)
@[simp] theorem State.gfifoDrop_bare (s : State) (c : Nat) : ((State.gfifoDrop s c)).bare = s.bare := bare_of
    (State.gfifoDrop_core s c)
@[simp] theorem State.gfifoDrop_pins (s : State) (c : Nat) : ((State.gfifoDrop s c)).pins = s.pins := pins_of
    (State.gfifoDrop_core s c)
@[simp] theorem State.stageIn_rest (s : State) (c : Nat) (e : Ent) : ((State.stageIn s c e)).rest = s.rest := rest_of
    (State.stageIn_core s c e)
@[simp] theorem State.stageIn_nvdWf (s : State) (c : Nat) (e : Ent) : ((State.stageIn s c e)).nvdWf = s.nvdWf :=
    nvdWf_of (State.stageIn_core s c e)
@[simp] theorem State.stageIn_bare (s : State) (c : Nat) (e : Ent) : ((State.stageIn s c e)).bare = s.bare := bare_of
    (State.stageIn_core s c e)
@[simp] theorem State.stageIn_pins (s : State) (c : Nat) (e : Ent) : ((State.stageIn s c e)).pins = s.pins := pins_of
    (State.stageIn_core s c e)
@[simp] theorem State.skewAdd_rest (s : State) (f : Formed) : ((State.skewAdd s f)).rest = s.rest := rest_of
    (State.skewAdd_core s f)
@[simp] theorem State.skewAdd_nvdWf (s : State) (f : Formed) : ((State.skewAdd s f)).nvdWf = s.nvdWf := nvdWf_of
    (State.skewAdd_core s f)
@[simp] theorem State.skewAdd_bare (s : State) (f : Formed) : ((State.skewAdd s f)).bare = s.bare := bare_of
    (State.skewAdd_core s f)
@[simp] theorem State.skewAdd_pins (s : State) (f : Formed) : ((State.skewAdd s f)).pins = s.pins := pins_of
    (State.skewAdd_core s f)
@[simp] theorem State.exhaust_rest (s : State) (margin : Nat) (item : Nat) (on : Bool) : ((State.exhaust s margin item
    on)).rest = s.rest := rest_of (State.exhaust_core s margin item on)
@[simp] theorem State.exhaust_nvdWf (s : State) (margin : Nat) (item : Nat) (on : Bool) : ((State.exhaust s margin
    item on)).nvdWf = s.nvdWf := nvdWf_of (State.exhaust_core s margin item on)
@[simp] theorem State.exhaust_bare (s : State) (margin : Nat) (item : Nat) (on : Bool) : ((State.exhaust s margin item
    on)).bare = s.bare := bare_of (State.exhaust_core s margin item on)
@[simp] theorem State.exhaust_pins (s : State) (margin : Nat) (item : Nat) (on : Bool) : ((State.exhaust s margin item
    on)).pins = s.pins := pins_of (State.exhaust_core s margin item on)
@[simp] theorem State.plannerMove_rest (s : State) (fill : Bool) : ((State.plannerMove s fill)).rest = s.rest :=
    rest_of (State.plannerMove_core s fill)
@[simp] theorem State.plannerMove_nvdWf (s : State) (fill : Bool) : ((State.plannerMove s fill)).nvdWf = s.nvdWf :=
    nvdWf_of (State.plannerMove_core s fill)
@[simp] theorem State.plannerMove_bare (s : State) (fill : Bool) : ((State.plannerMove s fill)).bare = s.bare :=
    bare_of (State.plannerMove_core s fill)
@[simp] theorem State.plannerMove_pins (s : State) (fill : Bool) : ((State.plannerMove s fill)).pins = s.pins :=
    pins_of (State.plannerMove_core s fill)
@[simp] theorem State.planLen_rest (s : State) (g : Nat) (len : Nat) : ((State.planLen s g len)).rest = s.rest :=
    rest_of (State.planLen_core s g len)
@[simp] theorem State.planLen_nvdWf (s : State) (g : Nat) (len : Nat) : ((State.planLen s g len)).nvdWf = s.nvdWf :=
    nvdWf_of (State.planLen_core s g len)
@[simp] theorem State.planLen_bare (s : State) (g : Nat) (len : Nat) : ((State.planLen s g len)).bare = s.bare :=
    bare_of (State.planLen_core s g len)
@[simp] theorem State.planLen_pins (s : State) (g : Nat) (len : Nat) : ((State.planLen s g len)).pins = s.pins :=
    pins_of (State.planLen_core s g len)
@[simp] theorem State.margin1_rest (s : State) (now : Bool) (g : Nat) (a : Nat) : ((State.margin1 s now g a)).rest =
    s.rest := rest_of (State.margin1_core s now g a)
@[simp] theorem State.margin1_nvdWf (s : State) (now : Bool) (g : Nat) (a : Nat) : ((State.margin1 s now g a)).nvdWf =
    s.nvdWf := nvdWf_of (State.margin1_core s now g a)
@[simp] theorem State.margin1_bare (s : State) (now : Bool) (g : Nat) (a : Nat) : ((State.margin1 s now g a)).bare =
    s.bare := bare_of (State.margin1_core s now g a)
@[simp] theorem State.margin1_pins (s : State) (now : Bool) (g : Nat) (a : Nat) : ((State.margin1 s now g a)).pins =
    s.pins := pins_of (State.margin1_core s now g a)
@[simp] theorem State.planFill_rest (s : State) (f : Fill) (chans : List Nat) (ended : Bool) : ((State.planFill s f
    chans ended)).rest = s.rest := rest_of (State.planFill_core s f chans ended)
@[simp] theorem State.planFill_nvdWf (s : State) (f : Fill) (chans : List Nat) (ended : Bool) : ((State.planFill s f
    chans ended)).nvdWf = s.nvdWf := nvdWf_of (State.planFill_core s f chans ended)
@[simp] theorem State.planFill_bare (s : State) (f : Fill) (chans : List Nat) (ended : Bool) : ((State.planFill s f
    chans ended)).bare = s.bare := bare_of (State.planFill_core s f chans ended)
@[simp] theorem State.planFill_pins (s : State) (f : Fill) (chans : List Nat) (ended : Bool) : ((State.planFill s f
    chans ended)).pins = s.pins := pins_of (State.planFill_core s f chans ended)
@[simp] theorem State.endInternal_rest (s : State) (f : Fill) : ((State.endInternal s f)).rest = s.rest := rest_of
    (State.endInternal_core s f)
@[simp] theorem State.endInternal_nvdWf (s : State) (f : Fill) : ((State.endInternal s f)).nvdWf = s.nvdWf := nvdWf_of
    (State.endInternal_core s f)
@[simp] theorem State.endInternal_bare (s : State) (f : Fill) : ((State.endInternal s f)).bare = s.bare := bare_of
    (State.endInternal_core s f)
@[simp] theorem State.endInternal_pins (s : State) (f : Fill) : ((State.endInternal s f)).pins = s.pins := pins_of
    (State.endInternal_core s f)
@[simp] theorem State.hardResult_rest (s : State) (c : Nat) (result : Nat) : ((State.hardResult s c result)).rest =
    s.rest := rest_of (State.hardResult_core s c result)
@[simp] theorem State.hardResult_nvdWf (s : State) (c : Nat) (result : Nat) : ((State.hardResult s c result)).nvdWf =
    s.nvdWf := nvdWf_of (State.hardResult_core s c result)
@[simp] theorem State.hardResult_bare (s : State) (c : Nat) (result : Nat) : ((State.hardResult s c result)).bare =
    s.bare := bare_of (State.hardResult_core s c result)
@[simp] theorem State.hardResult_pins (s : State) (c : Nat) (result : Nat) : ((State.hardResult s c result)).pins =
    s.pins := pins_of (State.hardResult_core s c result)
@[simp] theorem State.abortFill_rest (s : State) : ((State.abortFill s)).rest = s.rest := rest_of
    (State.abortFill_core s)
@[simp] theorem State.abortFill_nvdWf (s : State) : ((State.abortFill s)).nvdWf = s.nvdWf := nvdWf_of
    (State.abortFill_core s)
@[simp] theorem State.abortFill_bare (s : State) : ((State.abortFill s)).bare = s.bare := bare_of
    (State.abortFill_core s)
@[simp] theorem State.abortFill_pins (s : State) : ((State.abortFill s)).pins = s.pins := pins_of
    (State.abortFill_core s)
@[simp] theorem State.cdCmd_rest (s : State) (op : Nat) : ((State.cdCmd s op).st).rest = s.rest := rest_of
    (State.cdCmd_core s op)
@[simp] theorem State.cdCmd_nvdWf (s : State) (op : Nat) : ((State.cdCmd s op).st).nvdWf = s.nvdWf := nvdWf_of
    (State.cdCmd_core s op)
@[simp] theorem State.cdCmd_bare (s : State) (op : Nat) : ((State.cdCmd s op).st).bare = s.bare := bare_of
    (State.cdCmd_core s op)
@[simp] theorem State.cdCmd_pins (s : State) (op : Nat) : ((State.cdCmd s op).st).pins = s.pins := pins_of
    (State.cdCmd_core s op)
@[simp] theorem State.launchCode_rest (s : State) (codes : List (Nat × Nat × Bool)) (c : Nat) : ((State.launchCode s
    codes c).2).rest = s.rest := rest_of (State.launchCode_core s codes c)
@[simp] theorem State.launchCode_nvdWf (s : State) (codes : List (Nat × Nat × Bool)) (c : Nat) : ((State.launchCode s
    codes c).2).nvdWf = s.nvdWf := nvdWf_of (State.launchCode_core s codes c)
@[simp] theorem State.launchCode_bare (s : State) (codes : List (Nat × Nat × Bool)) (c : Nat) : ((State.launchCode s
    codes c).2).bare = s.bare := bare_of (State.launchCode_core s codes c)
@[simp] theorem State.launchCode_pins (s : State) (codes : List (Nat × Nat × Bool)) (c : Nat) : ((State.launchCode s
    codes c).2).pins = s.pins := pins_of (State.launchCode_core s codes c)
@[simp] theorem State.launchIn_rest (s : State) (codes : List (Nat × Nat × Bool)) (c : Nat) : ((State.launchIn s codes
    c)).rest = s.rest := rest_of (State.launchIn_core s codes c)
@[simp] theorem State.launchIn_nvdWf (s : State) (codes : List (Nat × Nat × Bool)) (c : Nat) : ((State.launchIn s
    codes c)).nvdWf = s.nvdWf := nvdWf_of (State.launchIn_core s codes c)
@[simp] theorem State.launchIn_bare (s : State) (codes : List (Nat × Nat × Bool)) (c : Nat) : ((State.launchIn s codes
    c)).bare = s.bare := bare_of (State.launchIn_core s codes c)
@[simp] theorem State.launchIn_pins (s : State) (codes : List (Nat × Nat × Bool)) (c : Nat) : ((State.launchIn s codes
    c)).pins = s.pins := pins_of (State.launchIn_core s codes c)
@[simp] theorem State.convertHist_rest (s : State) (c : Nat) (bank : Bool) : ((State.convertHist s c bank)).rest =
    s.rest := rest_of (State.convertHist_core s c bank)
@[simp] theorem State.convertHist_nvdWf (s : State) (c : Nat) (bank : Bool) : ((State.convertHist s c bank)).nvdWf =
    s.nvdWf := nvdWf_of (State.convertHist_core s c bank)
@[simp] theorem State.convertHist_bare (s : State) (c : Nat) (bank : Bool) : ((State.convertHist s c bank)).bare =
    s.bare := bare_of (State.convertHist_core s c bank)
@[simp] theorem State.convertHist_pins (s : State) (c : Nat) (bank : Bool) : ((State.convertHist s c bank)).pins =
    s.pins := pins_of (State.convertHist_core s c bank)
@[simp] theorem State.cdInc_rest (s : State) : ((State.cdInc s)).rest = s.rest := rest_of (State.cdInc_core s)
@[simp] theorem State.cdInc_nvdWf (s : State) : ((State.cdInc s)).nvdWf = s.nvdWf := nvdWf_of (State.cdInc_core s)
@[simp] theorem State.cdInc_bare (s : State) : ((State.cdInc s)).bare = s.bare := bare_of (State.cdInc_core s)
@[simp] theorem State.cdInc_pins (s : State) : ((State.cdInc s)).pins = s.pins := pins_of (State.cdInc_core s)
@[simp] theorem State.cdStore_rest (t : State) (v : Nat) : ((State.cdStore t v)).rest = t.rest := rest_of
    (State.cdStore_core t v)
@[simp] theorem State.cdStore_nvdWf (t : State) (v : Nat) : ((State.cdStore t v)).nvdWf = t.nvdWf := nvdWf_of
    (State.cdStore_core t v)
@[simp] theorem State.cdStore_bare (t : State) (v : Nat) : ((State.cdStore t v)).bare = t.bare := bare_of
    (State.cdStore_core t v)
@[simp] theorem State.cdStore_pins (t : State) (v : Nat) : ((State.cdStore t v)).pins = t.pins := pins_of
    (State.cdStore_core t v)
@[simp] theorem State.cdDataWrite_rest (s : State) (data : W32) (be : BitVec 4) : ((State.cdDataWrite s data
    be).st).rest = s.rest := rest_of (State.cdDataWrite_core s data be)
@[simp] theorem State.cdDataWrite_nvdWf (s : State) (data : W32) (be : BitVec 4) : ((State.cdDataWrite s data
    be).st).nvdWf = s.nvdWf := nvdWf_of (State.cdDataWrite_core s data be)
@[simp] theorem State.cdDataWrite_bare (s : State) (data : W32) (be : BitVec 4) : ((State.cdDataWrite s data
    be).st).bare = s.bare := bare_of (State.cdDataWrite_core s data be)
@[simp] theorem State.cdDataWrite_pins (s : State) (data : W32) (be : BitVec 4) : ((State.cdDataWrite s data
    be).st).pins = s.pins := pins_of (State.cdDataWrite_core s data be)
@[simp] theorem State.cdDataRead_rest (s : State) : ((State.cdDataRead s).st).rest = s.rest := rest_of
    (State.cdDataRead_core s)
@[simp] theorem State.cdDataRead_nvdWf (s : State) : ((State.cdDataRead s).st).nvdWf = s.nvdWf := nvdWf_of
    (State.cdDataRead_core s)
@[simp] theorem State.cdDataRead_bare (s : State) : ((State.cdDataRead s).st).bare = s.bare := bare_of
    (State.cdDataRead_core s)
@[simp] theorem State.cdDataRead_pins (s : State) : ((State.cdDataRead s).st).pins = s.pins := pins_of
    (State.cdDataRead_core s)
@[simp] theorem State.skwWrite_rest (s : State) (data : W32) (be : BitVec 4) : ((State.skwWrite s data be).st).rest =
    s.rest := rest_of (State.skwWrite_core s data be)
@[simp] theorem State.skwWrite_nvdWf (s : State) (data : W32) (be : BitVec 4) : ((State.skwWrite s data be).st).nvdWf
    = s.nvdWf := nvdWf_of (State.skwWrite_core s data be)
@[simp] theorem State.skwWrite_bare (s : State) (data : W32) (be : BitVec 4) : ((State.skwWrite s data be).st).bare =
    s.bare := bare_of (State.skwWrite_core s data be)
@[simp] theorem State.skwWrite_pins (s : State) (data : W32) (be : BitVec 4) : ((State.skwWrite s data be).st).pins =
    s.pins := pins_of (State.skwWrite_core s data be)
@[simp] theorem State.setRings_rest (s : State) (c tick next : Nat) (rs : List RingCell) : ((State.setRings s c tick
    next rs)).rest = s.rest := rest_of (State.setRings_core s c tick next rs)
@[simp] theorem State.setRings_nvdWf (s : State) (c tick next : Nat) (rs : List RingCell) : ((State.setRings s c tick
    next rs)).nvdWf = s.nvdWf := nvdWf_of (State.setRings_core s c tick next rs)
@[simp] theorem State.setRings_bare (s : State) (c tick next : Nat) (rs : List RingCell) : ((State.setRings s c tick
    next rs)).bare = s.bare := bare_of (State.setRings_core s c tick next rs)
@[simp] theorem State.setRings_pins (s : State) (c tick next : Nat) (rs : List RingCell) : ((State.setRings s c tick
    next rs)).pins = s.pins := pins_of (State.setRings_core s c tick next rs)
@[simp] theorem State.freeRing_rest (s : State) (c : Nat) (r : Nat) (tick : Nat) : ((State.freeRing s c r tick)).rest
    = s.rest := rest_of (State.freeRing_core s c r tick)
@[simp] theorem State.freeRing_nvdWf (s : State) (c : Nat) (r : Nat) (tick : Nat) : ((State.freeRing s c r
    tick)).nvdWf = s.nvdWf := nvdWf_of (State.freeRing_core s c r tick)
@[simp] theorem State.freeRing_bare (s : State) (c : Nat) (r : Nat) (tick : Nat) : ((State.freeRing s c r tick)).bare
    = s.bare := bare_of (State.freeRing_core s c r tick)
@[simp] theorem State.freeRing_pins (s : State) (c : Nat) (r : Nat) (tick : Nat) : ((State.freeRing s c r tick)).pins
    = s.pins := pins_of (State.freeRing_core s c r tick)
@[simp] theorem State.startSamplers_rest (s : State) : ((State.startSamplers s)).rest = s.rest := rest_of
    (State.startSamplers_core s)
@[simp] theorem State.startSamplers_nvdWf (s : State) : ((State.startSamplers s)).nvdWf = s.nvdWf := nvdWf_of
    (State.startSamplers_core s)
@[simp] theorem State.startSamplers_bare (s : State) : ((State.startSamplers s)).bare = s.bare := bare_of
    (State.startSamplers_core s)
@[simp] theorem State.startSamplers_pins (s : State) : ((State.startSamplers s)).pins = s.pins := pins_of
    (State.startSamplers_core s)
@[simp] theorem State.stopSamplers_rest (s : State) : ((State.stopSamplers s)).rest = s.rest := rest_of
    (State.stopSamplers_core s)
@[simp] theorem State.stopSamplers_nvdWf (s : State) : ((State.stopSamplers s)).nvdWf = s.nvdWf := nvdWf_of
    (State.stopSamplers_core s)
@[simp] theorem State.stopSamplers_bare (s : State) : ((State.stopSamplers s)).bare = s.bare := bare_of
    (State.stopSamplers_core s)
@[simp] theorem State.stopSamplers_pins (s : State) : ((State.stopSamplers s)).pins = s.pins := pins_of
    (State.stopSamplers_core s)
@[simp] theorem State.unitIn_rest (s : State) (p : Capture) (u : WaveUnit) : ((State.unitIn s p u)).rest = s.rest :=
    rest_of (State.unitIn_core s p u)
@[simp] theorem State.unitIn_nvdWf (s : State) (p : Capture) (u : WaveUnit) : ((State.unitIn s p u)).nvdWf = s.nvdWf
    := nvdWf_of (State.unitIn_core s p u)
@[simp] theorem State.unitIn_bare (s : State) (p : Capture) (u : WaveUnit) : ((State.unitIn s p u)).bare = s.bare :=
    bare_of (State.unitIn_core s p u)
@[simp] theorem State.unitIn_pins (s : State) (p : Capture) (u : WaveUnit) : ((State.unitIn s p u)).pins = s.pins :=
    pins_of (State.unitIn_core s p u)
@[simp] theorem State.release_rest (s : State) (c : Nat) (r : Nat) (tick : Nat) : ((State.release s c r tick)).rest =
    s.rest := rest_of (State.release_core s c r tick)
@[simp] theorem State.release_nvdWf (s : State) (c : Nat) (r : Nat) (tick : Nat) : ((State.release s c r tick)).nvdWf
    = s.nvdWf := nvdWf_of (State.release_core s c r tick)
@[simp] theorem State.release_bare (s : State) (c : Nat) (r : Nat) (tick : Nat) : ((State.release s c r tick)).bare =
    s.bare := bare_of (State.release_core s c r tick)
@[simp] theorem State.release_pins (s : State) (c : Nat) (r : Nat) (tick : Nat) : ((State.release s c r tick)).pins =
    s.pins := pins_of (State.release_core s c r tick)
@[simp] theorem State.keepRing_rest (s : State) (c r now : Nat) (x : RingCell) : ((State.keepRing s c r now x)).rest =
    s.rest := rest_of (State.keepRing_core s c r now x)
@[simp] theorem State.keepRing_nvdWf (s : State) (c r now : Nat) (x : RingCell) : ((State.keepRing s c r now x)).nvdWf
    = s.nvdWf := nvdWf_of (State.keepRing_core s c r now x)
@[simp] theorem State.keepRing_bare (s : State) (c r now : Nat) (x : RingCell) : ((State.keepRing s c r now x)).bare =
    s.bare := bare_of (State.keepRing_core s c r now x)
@[simp] theorem State.keepRing_pins (s : State) (c r now : Nat) (x : RingCell) : ((State.keepRing s c r now x)).pins =
    s.pins := pins_of (State.keepRing_core s c r now x)
@[simp] theorem State.unrelease_rest (s : State) (now key : Nat) (x : RingCell) : ((State.unrelease s now key x)).rest
    = s.rest := rest_of (State.unrelease_core s now key x)
@[simp] theorem State.unrelease_nvdWf (s : State) (now key : Nat) (x : RingCell) : ((State.unrelease s now key
    x)).nvdWf = s.nvdWf := nvdWf_of (State.unrelease_core s now key x)
@[simp] theorem State.unrelease_bare (s : State) (now key : Nat) (x : RingCell) : ((State.unrelease s now key x)).bare
    = s.bare := bare_of (State.unrelease_core s now key x)
@[simp] theorem State.unrelease_pins (s : State) (now key : Nat) (x : RingCell) : ((State.unrelease s now key x)).pins
    = s.pins := pins_of (State.unrelease_core s now key x)
@[simp] theorem State.keepWindow_rest (s : State) (first : Nat) (last : Nat) (now : Nat) : ((State.keepWindow s first
    last now)).rest = s.rest := rest_of (State.keepWindow_core s first last now)
@[simp] theorem State.keepWindow_nvdWf (s : State) (first : Nat) (last : Nat) (now : Nat) : ((State.keepWindow s first
    last now)).nvdWf = s.nvdWf := nvdWf_of (State.keepWindow_core s first last now)
@[simp] theorem State.keepWindow_bare (s : State) (first : Nat) (last : Nat) (now : Nat) : ((State.keepWindow s first
    last now)).bare = s.bare := bare_of (State.keepWindow_core s first last now)
@[simp] theorem State.keepWindow_pins (s : State) (first : Nat) (last : Nat) (now : Nat) : ((State.keepWindow s first
    last now)).pins = s.pins := pins_of (State.keepWindow_core s first last now)
@[simp] theorem State.releaseThrough_rest (s : State) (x : Nat) (now : Nat) : ((State.releaseThrough s x now)).rest =
    s.rest := rest_of (State.releaseThrough_core s x now)
@[simp] theorem State.releaseThrough_nvdWf (s : State) (x : Nat) (now : Nat) : ((State.releaseThrough s x now)).nvdWf
    = s.nvdWf := nvdWf_of (State.releaseThrough_core s x now)
@[simp] theorem State.releaseThrough_bare (s : State) (x : Nat) (now : Nat) : ((State.releaseThrough s x now)).bare =
    s.bare := bare_of (State.releaseThrough_core s x now)
@[simp] theorem State.releaseThrough_pins (s : State) (x : Nat) (now : Nat) : ((State.releaseThrough s x now)).pins =
    s.pins := pins_of (State.releaseThrough_core s x now)
@[simp] theorem State.freeAfter_rest (s : State) (c : Nat) (r : Nat) : ((State.freeAfter s c r)).rest = s.rest :=
    rest_of (State.freeAfter_core s c r)
@[simp] theorem State.freeAfter_nvdWf (s : State) (c : Nat) (r : Nat) : ((State.freeAfter s c r)).nvdWf = s.nvdWf :=
    nvdWf_of (State.freeAfter_core s c r)
@[simp] theorem State.freeAfter_bare (s : State) (c : Nat) (r : Nat) : ((State.freeAfter s c r)).bare = s.bare :=
    bare_of (State.freeAfter_core s c r)
@[simp] theorem State.freeAfter_pins (s : State) (c : Nat) (r : Nat) : ((State.freeAfter s c r)).pins = s.pins :=
    pins_of (State.freeAfter_core s c r)
@[simp] theorem State.tsEntry_rest (s : State) (ty : Nat) (cause : Nat) (detail : Nat) : ((State.tsEntry s ty cause
    detail)).rest = s.rest := rest_of (State.tsEntry_core s ty cause detail)
@[simp] theorem State.tsEntry_nvdWf (s : State) (ty : Nat) (cause : Nat) (detail : Nat) : ((State.tsEntry s ty cause
    detail)).nvdWf = s.nvdWf := nvdWf_of (State.tsEntry_core s ty cause detail)
@[simp] theorem State.tsEntry_bare (s : State) (ty : Nat) (cause : Nat) (detail : Nat) : ((State.tsEntry s ty cause
    detail)).bare = s.bare := bare_of (State.tsEntry_core s ty cause detail)
@[simp] theorem State.tsEntry_pins (s : State) (ty : Nat) (cause : Nat) (detail : Nat) : ((State.tsEntry s ty cause
    detail)).pins = s.pins := pins_of (State.tsEntry_core s ty cause detail)
@[simp] theorem State.sendDreq_rest (s : State) (t3 : Int) : ((State.sendDreq s t3)).rest = s.rest := rest_of
    (State.sendDreq_core s t3)
@[simp] theorem State.sendDreq_nvdWf (s : State) (t3 : Int) : ((State.sendDreq s t3)).nvdWf = s.nvdWf := nvdWf_of
    (State.sendDreq_core s t3)
@[simp] theorem State.sendDreq_bare (s : State) (t3 : Int) : ((State.sendDreq s t3)).bare = s.bare := bare_of
    (State.sendDreq_core s t3)
@[simp] theorem State.sendDreq_pins (s : State) (t3 : Int) : ((State.sendDreq s t3)).pins = s.pins := pins_of
    (State.sendDreq_core s t3)
@[simp] theorem State.firstDreq_rest (s : State) : ((State.firstDreq s)).rest = s.rest := rest_of
    (State.firstDreq_core s)
@[simp] theorem State.firstDreq_nvdWf (s : State) : ((State.firstDreq s)).nvdWf = s.nvdWf := nvdWf_of
    (State.firstDreq_core s)
@[simp] theorem State.firstDreq_bare (s : State) : ((State.firstDreq s)).bare = s.bare := bare_of
    (State.firstDreq_core s)
@[simp] theorem State.firstDreq_pins (s : State) : ((State.firstDreq s)).pins = s.pins := pins_of
    (State.firstDreq_core s)
@[simp] theorem State.tbGo_rest (s : State) (t : TbState) (cause : Nat) : ((State.tbGo s t cause)).rest = s.rest :=
    rest_of (State.tbGo_core s t cause)
@[simp] theorem State.tbGo_nvdWf (s : State) (t : TbState) (cause : Nat) : ((State.tbGo s t cause)).nvdWf = s.nvdWf :=
    nvdWf_of (State.tbGo_core s t cause)
@[simp] theorem State.tbGo_bare (s : State) (t : TbState) (cause : Nat) : ((State.tbGo s t cause)).bare = s.bare :=
    bare_of (State.tbGo_core s t cause)
@[simp] theorem State.tbGo_pins (s : State) (t : TbState) (cause : Nat) : ((State.tbGo s t cause)).pins = s.pins :=
    pins_of (State.tbGo_core s t cause)
@[simp] theorem State.learned_rest (s : State) : ((State.learned s).2).rest = s.rest := rest_of (State.learned_core s)
@[simp] theorem State.learned_nvdWf (s : State) : ((State.learned s).2).nvdWf = s.nvdWf := nvdWf_of
    (State.learned_core s)
@[simp] theorem State.learned_bare (s : State) : ((State.learned s).2).bare = s.bare := bare_of (State.learned_core s)
@[simp] theorem State.learned_pins (s : State) : ((State.learned s).2).pins = s.pins := pins_of (State.learned_core s)
@[simp] theorem State.xoTemp_rest (s : State) : ((State.xoTemp s).2).rest = s.rest := rest_of (State.xoTemp_core s)
@[simp] theorem State.xoTemp_nvdWf (s : State) : ((State.xoTemp s).2).nvdWf = s.nvdWf := nvdWf_of (State.xoTemp_core
    s)
@[simp] theorem State.xoTemp_bare (s : State) : ((State.xoTemp s).2).bare = s.bare := bare_of (State.xoTemp_core s)
@[simp] theorem State.xoTemp_pins (s : State) : ((State.xoTemp s).2).pins = s.pins := pins_of (State.xoTemp_core s)
@[simp] theorem State.toXo_rest (s : State) : ((State.toXo s)).rest = s.rest := rest_of (State.toXo_core s)
@[simp] theorem State.toXo_nvdWf (s : State) : ((State.toXo s)).nvdWf = s.nvdWf := nvdWf_of (State.toXo_core s)
@[simp] theorem State.toXo_bare (s : State) : ((State.toXo s)).bare = s.bare := bare_of (State.toXo_core s)
@[simp] theorem State.toXo_pins (s : State) : ((State.toXo s)).pins = s.pins := pins_of (State.toXo_core s)
@[simp] theorem State.enterHoldover_rest (s : State) (cause : Nat) : ((State.enterHoldover s cause)).rest = s.rest :=
    rest_of (State.enterHoldover_core s cause)
@[simp] theorem State.enterHoldover_nvdWf (s : State) (cause : Nat) : ((State.enterHoldover s cause)).nvdWf = s.nvdWf
    := nvdWf_of (State.enterHoldover_core s cause)
@[simp] theorem State.enterHoldover_bare (s : State) (cause : Nat) : ((State.enterHoldover s cause)).bare = s.bare :=
    bare_of (State.enterHoldover_core s cause)
@[simp] theorem State.enterHoldover_pins (s : State) (cause : Nat) : ((State.enterHoldover s cause)).pins = s.pins :=
    pins_of (State.enterHoldover_core s cause)
@[simp] theorem State.tbLaneLost_rest (s : State) (cause : Nat) : ((State.tbLaneLost s cause)).rest = s.rest :=
    rest_of (State.tbLaneLost_core s cause)
@[simp] theorem State.tbLaneLost_nvdWf (s : State) (cause : Nat) : ((State.tbLaneLost s cause)).nvdWf = s.nvdWf :=
    nvdWf_of (State.tbLaneLost_core s cause)
@[simp] theorem State.tbLaneLost_bare (s : State) (cause : Nat) : ((State.tbLaneLost s cause)).bare = s.bare :=
    bare_of (State.tbLaneLost_core s cause)
@[simp] theorem State.tbLaneLost_pins (s : State) (cause : Nat) : ((State.tbLaneLost s cause)).pins = s.pins :=
    pins_of (State.tbLaneLost_core s cause)
@[simp] theorem State.tbLaneLock_rest (s : State) : ((State.tbLaneLock s)).rest = s.rest := rest_of
    (State.tbLaneLock_core s)
@[simp] theorem State.tbLaneLock_nvdWf (s : State) : ((State.tbLaneLock s)).nvdWf = s.nvdWf := nvdWf_of
    (State.tbLaneLock_core s)
@[simp] theorem State.tbLaneLock_bare (s : State) : ((State.tbLaneLock s)).bare = s.bare := bare_of
    (State.tbLaneLock_core s)
@[simp] theorem State.tbLaneLock_pins (s : State) : ((State.tbLaneLock s)).pins = s.pins := pins_of
    (State.tbLaneLock_core s)
@[simp] theorem State.timeStep_rest (s : State) (off : Int) : ((State.timeStep s off)).rest = s.rest := rest_of
    (State.timeStep_core s off)
@[simp] theorem State.timeStep_nvdWf (s : State) (off : Int) : ((State.timeStep s off)).nvdWf = s.nvdWf := nvdWf_of
    (State.timeStep_core s off)
@[simp] theorem State.timeStep_bare (s : State) (off : Int) : ((State.timeStep s off)).bare = s.bare := bare_of
    (State.timeStep_core s off)
@[simp] theorem State.timeStep_pins (s : State) (off : Int) : ((State.timeStep s off)).pins = s.pins := pins_of
    (State.timeStep_core s off)
@[simp] theorem State.slew_rest (s : State) (off : Int) : ((State.slew s off)).rest = s.rest := rest_of
    (State.slew_core s off)
@[simp] theorem State.slew_nvdWf (s : State) (off : Int) : ((State.slew s off)).nvdWf = s.nvdWf := nvdWf_of
    (State.slew_core s off)
@[simp] theorem State.slew_bare (s : State) (off : Int) : ((State.slew s off)).bare = s.bare := bare_of
    (State.slew_core s off)
@[simp] theorem State.slew_pins (s : State) (off : Int) : ((State.slew s off)).pins = s.pins := pins_of
    (State.slew_core s off)
@[simp] theorem State.holdStep_rest (s : State) : ((State.holdStep s)).rest = s.rest := rest_of (State.holdStep_core
    s)
@[simp] theorem State.holdStep_nvdWf (s : State) : ((State.holdStep s)).nvdWf = s.nvdWf := nvdWf_of
    (State.holdStep_core s)
@[simp] theorem State.holdStep_bare (s : State) : ((State.holdStep s)).bare = s.bare := bare_of (State.holdStep_core
    s)
@[simp] theorem State.holdStep_pins (s : State) : ((State.holdStep s)).pins = s.pins := pins_of (State.holdStep_core
    s)
@[simp] theorem State.stepFromHoldover_rest (s : State) (off : Int) : ((State.stepFromHoldover s off)).rest = s.rest
    := rest_of (State.stepFromHoldover_core s off)
@[simp] theorem State.stepFromHoldover_nvdWf (s : State) (off : Int) : ((State.stepFromHoldover s off)).nvdWf =
    s.nvdWf := nvdWf_of (State.stepFromHoldover_core s off)
@[simp] theorem State.stepFromHoldover_bare (s : State) (off : Int) : ((State.stepFromHoldover s off)).bare = s.bare
    := bare_of (State.stepFromHoldover_core s off)
@[simp] theorem State.stepFromHoldover_pins (s : State) (off : Int) : ((State.stepFromHoldover s off)).pins = s.pins
    := pins_of (State.stepFromHoldover_core s off)
@[simp] theorem State.towardsLock_rest (s : State) : ((State.towardsLock s)).rest = s.rest := rest_of
    (State.towardsLock_core s)
@[simp] theorem State.towardsLock_nvdWf (s : State) : ((State.towardsLock s)).nvdWf = s.nvdWf := nvdWf_of
    (State.towardsLock_core s)
@[simp] theorem State.towardsLock_bare (s : State) : ((State.towardsLock s)).bare = s.bare := bare_of
    (State.towardsLock_core s)
@[simp] theorem State.towardsLock_pins (s : State) : ((State.towardsLock s)).pins = s.pins := pins_of
    (State.towardsLock_core s)
@[simp] theorem State.servo_rest (s : State) (off : Int) : ((State.servo s off)).rest = s.rest := rest_of
    (State.servo_core s off)
@[simp] theorem State.servo_nvdWf (s : State) (off : Int) : ((State.servo s off)).nvdWf = s.nvdWf := nvdWf_of
    (State.servo_core s off)
@[simp] theorem State.servo_bare (s : State) (off : Int) : ((State.servo s off)).bare = s.bare := bare_of
    (State.servo_core s off)
@[simp] theorem State.servo_pins (s : State) (off : Int) : ((State.servo s off)).pins = s.pins := pins_of
    (State.servo_core s off)
@[simp] theorem State.syncSample_rest (s : State) (seqId : Nat) (fwd : Int) : ((State.syncSample s seqId fwd)).rest =
    s.rest := rest_of (State.syncSample_core s seqId fwd)
@[simp] theorem State.syncSample_nvdWf (s : State) (seqId : Nat) (fwd : Int) : ((State.syncSample s seqId fwd)).nvdWf
    = s.nvdWf := nvdWf_of (State.syncSample_core s seqId fwd)
@[simp] theorem State.syncSample_bare (s : State) (seqId : Nat) (fwd : Int) : ((State.syncSample s seqId fwd)).bare =
    s.bare := bare_of (State.syncSample_core s seqId fwd)
@[simp] theorem State.syncSample_pins (s : State) (seqId : Nat) (fwd : Int) : ((State.syncSample s seqId fwd)).pins =
    s.pins := pins_of (State.syncSample_core s seqId fwd)
@[simp] theorem State.ptpDiscard_rest (s : State) : ((State.ptpDiscard s)).rest = s.rest := rest_of
    (State.ptpDiscard_core s)
@[simp] theorem State.ptpDiscard_nvdWf (s : State) : ((State.ptpDiscard s)).nvdWf = s.nvdWf := nvdWf_of
    (State.ptpDiscard_core s)
@[simp] theorem State.ptpDiscard_bare (s : State) : ((State.ptpDiscard s)).bare = s.bare := bare_of
    (State.ptpDiscard_core s)
@[simp] theorem State.ptpDiscard_pins (s : State) : ((State.ptpDiscard s)).pins = s.pins := pins_of
    (State.ptpDiscard_core s)
@[simp] theorem State.takeTs_rest (s : State) (go : State → State) (h : ∀ t, (go t).core = t.core) : ((State.takeTs s
    go)).rest = s.rest := rest_of (State.takeTs_core s go h)
@[simp] theorem State.takeTs_nvdWf (s : State) (go : State → State) (h : ∀ t, (go t).core = t.core) : ((State.takeTs s
    go)).nvdWf = s.nvdWf := nvdWf_of (State.takeTs_core s go h)
@[simp] theorem State.takeTs_bare (s : State) (go : State → State) (h : ∀ t, (go t).core = t.core) : ((State.takeTs s
    go)).bare = s.bare := bare_of (State.takeTs_core s go h)
@[simp] theorem State.takeTs_pins (s : State) (go : State → State) (h : ∀ t, (go t).core = t.core) : ((State.takeTs s
    go)).pins = s.pins := pins_of (State.takeTs_core s go h)
@[simp] theorem State.tbIncWrite_rest (s : State) (high : Bool) (data : W32) (be : BitVec 4) : ((State.tbIncWrite s
    high data be).st).rest = s.rest := rest_of (State.tbIncWrite_core s high data be)
@[simp] theorem State.tbIncWrite_nvdWf (s : State) (high : Bool) (data : W32) (be : BitVec 4) : ((State.tbIncWrite s
    high data be).st).nvdWf = s.nvdWf := nvdWf_of (State.tbIncWrite_core s high data be)
@[simp] theorem State.tbIncWrite_bare (s : State) (high : Bool) (data : W32) (be : BitVec 4) : ((State.tbIncWrite s
    high data be).st).bare = s.bare := bare_of (State.tbIncWrite_core s high data be)
@[simp] theorem State.tbIncWrite_pins (s : State) (high : Bool) (data : W32) (be : BitVec 4) : ((State.tbIncWrite s
    high data be).st).pins = s.pins := pins_of (State.tbIncWrite_core s high data be)
@[simp] theorem State.unblock_rest (s : State) (n cause : Nat) : ((State.unblock s n cause)).rest = s.rest := rest_of
    (State.unblock_core s n cause)
@[simp] theorem State.unblock_nvdWf (s : State) (n cause : Nat) : ((State.unblock s n cause)).nvdWf = s.nvdWf :=
    nvdWf_of (State.unblock_core s n cause)
@[simp] theorem State.unblock_bare (s : State) (n cause : Nat) : ((State.unblock s n cause)).bare = s.bare := bare_of
    (State.unblock_core s n cause)
@[simp] theorem State.unblock_pins (s : State) (n cause : Nat) : ((State.unblock s n cause)).pins = s.pins := pins_of
    (State.unblock_core s n cause)
@[simp] theorem State.lacksFrame_rest (s : State) (n : Nat) : ((State.lacksFrame s n)).rest = s.rest := rest_of
    (State.lacksFrame_core s n)
@[simp] theorem State.lacksFrame_nvdWf (s : State) (n : Nat) : ((State.lacksFrame s n)).nvdWf = s.nvdWf := nvdWf_of
    (State.lacksFrame_core s n)
@[simp] theorem State.lacksFrame_bare (s : State) (n : Nat) : ((State.lacksFrame s n)).bare = s.bare := bare_of
    (State.lacksFrame_core s n)
@[simp] theorem State.lacksFrame_pins (s : State) (n : Nat) : ((State.lacksFrame s n)).pins = s.pins := pins_of
    (State.lacksFrame_core s n)
@[simp] theorem State.framesCut_rest (s : State) (n : Nat) : ((State.framesCut s n)).rest = s.rest := rest_of
    (State.framesCut_core s n)
@[simp] theorem State.framesCut_nvdWf (s : State) (n : Nat) : ((State.framesCut s n)).nvdWf = s.nvdWf := nvdWf_of
    (State.framesCut_core s n)
@[simp] theorem State.framesCut_bare (s : State) (n : Nat) : ((State.framesCut s n)).bare = s.bare := bare_of
    (State.framesCut_core s n)
@[simp] theorem State.framesCut_pins (s : State) (n : Nat) : ((State.framesCut s n)).pins = s.pins := pins_of
    (State.framesCut_core s n)
@[simp] theorem State.startBringUp_rest (s : State) (n : Nat) : ((State.startBringUp s n)).rest = s.rest := rest_of
    (State.startBringUp_core s n)
@[simp] theorem State.startBringUp_nvdWf (s : State) (n : Nat) : ((State.startBringUp s n)).nvdWf = s.nvdWf :=
    nvdWf_of (State.startBringUp_core s n)
@[simp] theorem State.startBringUp_bare (s : State) (n : Nat) : ((State.startBringUp s n)).bare = s.bare := bare_of
    (State.startBringUp_core s n)
@[simp] theorem State.startBringUp_pins (s : State) (n : Nat) : ((State.startBringUp s n)).pins = s.pins := pins_of
    (State.startBringUp_core s n)
@[simp] theorem State.startOthers_rest (s : State) : ((State.startOthers s)).rest = s.rest := rest_of
    (State.startOthers_core s)
@[simp] theorem State.startOthers_nvdWf (s : State) : ((State.startOthers s)).nvdWf = s.nvdWf := nvdWf_of
    (State.startOthers_core s)
@[simp] theorem State.startOthers_bare (s : State) : ((State.startOthers s)).bare = s.bare := bare_of
    (State.startOthers_core s)
@[simp] theorem State.startOthers_pins (s : State) : ((State.startOthers s)).pins = s.pins := pins_of
    (State.startOthers_core s)
@[simp] theorem State.laneReachesUp_rest (s : State) (n : Nat) (l : LaneSt) : ((State.laneReachesUp s n l)).rest =
    s.rest := rest_of (State.laneReachesUp_core s n l)
@[simp] theorem State.laneReachesUp_nvdWf (s : State) (n : Nat) (l : LaneSt) : ((State.laneReachesUp s n l)).nvdWf =
    s.nvdWf := nvdWf_of (State.laneReachesUp_core s n l)
@[simp] theorem State.laneReachesUp_bare (s : State) (n : Nat) (l : LaneSt) : ((State.laneReachesUp s n l)).bare =
    s.bare := bare_of (State.laneReachesUp_core s n l)
@[simp] theorem State.laneReachesUp_pins (s : State) (n : Nat) (l : LaneSt) : ((State.laneReachesUp s n l)).pins =
    s.pins := pins_of (State.laneReachesUp_core s n l)
@[simp] theorem State.laneDrop_rest (s : State) (n : Nat) : ((State.laneDrop s n)).rest = s.rest := rest_of
    (State.laneDrop_core s n)
@[simp] theorem State.laneDrop_nvdWf (s : State) (n : Nat) : ((State.laneDrop s n)).nvdWf = s.nvdWf := nvdWf_of
    (State.laneDrop_core s n)
@[simp] theorem State.laneDrop_bare (s : State) (n : Nat) : ((State.laneDrop s n)).bare = s.bare := bare_of
    (State.laneDrop_core s n)
@[simp] theorem State.laneDrop_pins (s : State) (n : Nat) : ((State.laneDrop s n)).pins = s.pins := pins_of
    (State.laneDrop_core s n)
@[simp] theorem State.laneLost_rest (s : State) (n cause : Nat) : ((State.laneLost s n cause)).rest = s.rest :=
    rest_of (State.laneLost_core s n cause)
@[simp] theorem State.laneLost_nvdWf (s : State) (n cause : Nat) : ((State.laneLost s n cause)).nvdWf = s.nvdWf :=
    nvdWf_of (State.laneLost_core s n cause)
@[simp] theorem State.laneLost_bare (s : State) (n cause : Nat) : ((State.laneLost s n cause)).bare = s.bare :=
    bare_of (State.laneLost_core s n cause)
@[simp] theorem State.laneLost_pins (s : State) (n cause : Nat) : ((State.laneLost s n cause)).pins = s.pins :=
    pins_of (State.laneLost_core s n cause)
@[simp] theorem State.bringUpFails_rest (s : State) (n : Nat) : ((State.bringUpFails s n)).rest = s.rest := rest_of
    (State.bringUpFails_core s n)
@[simp] theorem State.bringUpFails_nvdWf (s : State) (n : Nat) : ((State.bringUpFails s n)).nvdWf = s.nvdWf :=
    nvdWf_of (State.bringUpFails_core s n)
@[simp] theorem State.bringUpFails_bare (s : State) (n : Nat) : ((State.bringUpFails s n)).bare = s.bare := bare_of
    (State.bringUpFails_core s n)
@[simp] theorem State.bringUpFails_pins (s : State) (n : Nat) : ((State.bringUpFails s n)).pins = s.pins := pins_of
    (State.bringUpFails_core s n)
@[simp] theorem State.bringUpStep_rest (s : State) (n : Nat) (r : BringUp) (k : Nat) : ((State.bringUpStep s n r
    k)).rest = s.rest := rest_of (State.bringUpStep_core s n r k)
@[simp] theorem State.bringUpStep_nvdWf (s : State) (n : Nat) (r : BringUp) (k : Nat) : ((State.bringUpStep s n r
    k)).nvdWf = s.nvdWf := nvdWf_of (State.bringUpStep_core s n r k)
@[simp] theorem State.bringUpStep_bare (s : State) (n : Nat) (r : BringUp) (k : Nat) : ((State.bringUpStep s n r
    k)).bare = s.bare := bare_of (State.bringUpStep_core s n r k)
@[simp] theorem State.bringUpStep_pins (s : State) (n : Nat) (r : BringUp) (k : Nat) : ((State.bringUpStep s n r
    k)).pins = s.pins := pins_of (State.bringUpStep_core s n r k)
@[simp] theorem State.bringUpTo_rest (s : State) (n : Nat) (r : BringUp) : ((State.bringUpTo s n r)).rest = s.rest :=
    rest_of (State.bringUpTo_core s n r)
@[simp] theorem State.bringUpTo_nvdWf (s : State) (n : Nat) (r : BringUp) : ((State.bringUpTo s n r)).nvdWf = s.nvdWf
    := nvdWf_of (State.bringUpTo_core s n r)
@[simp] theorem State.bringUpTo_bare (s : State) (n : Nat) (r : BringUp) : ((State.bringUpTo s n r)).bare = s.bare :=
    bare_of (State.bringUpTo_core s n r)
@[simp] theorem State.bringUpTo_pins (s : State) (n : Nat) (r : BringUp) : ((State.bringUpTo s n r)).pins = s.pins :=
    pins_of (State.bringUpTo_core s n r)
@[simp] theorem State.park_rest (s : State) (n : Nat) : ((State.park s n)).rest = s.rest := rest_of (State.park_core s
    n)
@[simp] theorem State.park_nvdWf (s : State) (n : Nat) : ((State.park s n)).nvdWf = s.nvdWf := nvdWf_of
    (State.park_core s n)
@[simp] theorem State.park_bare (s : State) (n : Nat) : ((State.park s n)).bare = s.bare := bare_of (State.park_core s
    n)
@[simp] theorem State.park_pins (s : State) (n : Nat) : ((State.park s n)).pins = s.pins := pins_of (State.park_core s
    n)
@[simp] theorem State.unpark_rest (s : State) (n : Nat) : ((State.unpark s n)).rest = s.rest := rest_of
    (State.unpark_core s n)
@[simp] theorem State.unpark_nvdWf (s : State) (n : Nat) : ((State.unpark s n)).nvdWf = s.nvdWf := nvdWf_of
    (State.unpark_core s n)
@[simp] theorem State.unpark_bare (s : State) (n : Nat) : ((State.unpark s n)).bare = s.bare := bare_of
    (State.unpark_core s n)
@[simp] theorem State.unpark_pins (s : State) (n : Nat) : ((State.unpark s n)).pins = s.pins := pins_of
    (State.unpark_core s n)
@[simp] theorem State.unparkAll_rest (s : State) : ((State.unparkAll s)).rest = s.rest := rest_of
    (State.unparkAll_core s)
@[simp] theorem State.unparkAll_nvdWf (s : State) : ((State.unparkAll s)).nvdWf = s.nvdWf := nvdWf_of
    (State.unparkAll_core s)
@[simp] theorem State.unparkAll_bare (s : State) : ((State.unparkAll s)).bare = s.bare := bare_of
    (State.unparkAll_core s)
@[simp] theorem State.unparkAll_pins (s : State) : ((State.unparkAll s)).pins = s.pins := pins_of
    (State.unparkAll_core s)
@[simp] theorem State.parkExtra_rest (s : State) : ((State.parkExtra s)).rest = s.rest := rest_of
    (State.parkExtra_core s)
@[simp] theorem State.parkExtra_nvdWf (s : State) : ((State.parkExtra s)).nvdWf = s.nvdWf := nvdWf_of
    (State.parkExtra_core s)
@[simp] theorem State.parkExtra_bare (s : State) : ((State.parkExtra s)).bare = s.bare := bare_of
    (State.parkExtra_core s)
@[simp] theorem State.parkExtra_pins (s : State) : ((State.parkExtra s)).pins = s.pins := pins_of
    (State.parkExtra_core s)
@[simp] theorem State.lanesDown_rest (s : State) (all : Bool) : ((State.lanesDown s all)).rest = s.rest := rest_of
    (State.lanesDown_core s all)
@[simp] theorem State.lanesDown_nvdWf (s : State) (all : Bool) : ((State.lanesDown s all)).nvdWf = s.nvdWf := nvdWf_of
    (State.lanesDown_core s all)
@[simp] theorem State.lanesDown_bare (s : State) (all : Bool) : ((State.lanesDown s all)).bare = s.bare := bare_of
    (State.lanesDown_core s all)
@[simp] theorem State.lanesDown_pins (s : State) (all : Bool) : ((State.lanesDown s all)).pins = s.pins := pins_of
    (State.lanesDown_core s all)
@[simp] theorem State.tapTakes_rest (s : State) : ((State.tapTakes s)).rest = s.rest := rest_of (State.tapTakes_core
    s)
@[simp] theorem State.tapTakes_nvdWf (s : State) : ((State.tapTakes s)).nvdWf = s.nvdWf := nvdWf_of
    (State.tapTakes_core s)
@[simp] theorem State.tapTakes_bare (s : State) : ((State.tapTakes s)).bare = s.bare := bare_of (State.tapTakes_core
    s)
@[simp] theorem State.tapTakes_pins (s : State) : ((State.tapTakes s)).pins = s.pins := pins_of (State.tapTakes_core
    s)
@[simp] theorem State.drivePins_rest (s : State) : ((State.drivePins s)).rest = s.rest := rest_of
    (State.drivePins_core s)
@[simp] theorem State.drivePins_nvdWf (s : State) : ((State.drivePins s)).nvdWf = s.nvdWf := nvdWf_of
    (State.drivePins_core s)
@[simp] theorem State.drivePins_bare (s : State) : ((State.drivePins s)).bare = s.bare := bare_of
    (State.drivePins_core s)
@[simp] theorem State.drivePins_pins (s : State) : ((State.drivePins s)).pins = s.pins := pins_of
    (State.drivePins_core s)
@[simp] theorem State.tapEnters_rest (s : State) : ((State.tapEnters s)).rest = s.rest := rest_of
    (State.tapEnters_core s)
@[simp] theorem State.tapEnters_nvdWf (s : State) : ((State.tapEnters s)).nvdWf = s.nvdWf := nvdWf_of
    (State.tapEnters_core s)
@[simp] theorem State.tapEnters_bare (s : State) : ((State.tapEnters s)).bare = s.bare := bare_of
    (State.tapEnters_core s)
@[simp] theorem State.tapEnters_pins (s : State) : ((State.tapEnters s)).pins = s.pins := pins_of
    (State.tapEnters_core s)
@[simp] theorem State.tapReleases_rest (s : State) : ((State.tapReleases s)).rest = s.rest := rest_of
    (State.tapReleases_core s)
@[simp] theorem State.tapReleases_nvdWf (s : State) : ((State.tapReleases s)).nvdWf = s.nvdWf := nvdWf_of
    (State.tapReleases_core s)
@[simp] theorem State.tapReleases_bare (s : State) : ((State.tapReleases s)).bare = s.bare := bare_of
    (State.tapReleases_core s)
@[simp] theorem State.tapReleases_pins (s : State) : ((State.tapReleases s)).pins = s.pins := pins_of
    (State.tapReleases_core s)
@[simp] theorem State.loseLock_rest (s : State) (n : Nat) : ((State.loseLock s n)).rest = s.rest := rest_of
    (State.loseLock_core s n)
@[simp] theorem State.loseLock_nvdWf (s : State) (n : Nat) : ((State.loseLock s n)).nvdWf = s.nvdWf := nvdWf_of
    (State.loseLock_core s n)
@[simp] theorem State.loseLock_bare (s : State) (n : Nat) : ((State.loseLock s n)).bare = s.bare := bare_of
    (State.loseLock_core s n)
@[simp] theorem State.loseLock_pins (s : State) (n : Nat) : ((State.loseLock s n)).pins = s.pins := pins_of
    (State.loseLock_core s n)
@[simp] theorem State.judgeFom_rest (s : State) (n fom : Nat) : ((State.judgeFom s n fom)).rest = s.rest := rest_of
    (State.judgeFom_core s n fom)
@[simp] theorem State.judgeFom_nvdWf (s : State) (n fom : Nat) : ((State.judgeFom s n fom)).nvdWf = s.nvdWf :=
    nvdWf_of (State.judgeFom_core s n fom)
@[simp] theorem State.judgeFom_bare (s : State) (n fom : Nat) : ((State.judgeFom s n fom)).bare = s.bare := bare_of
    (State.judgeFom_core s n fom)
@[simp] theorem State.judgeFom_pins (s : State) (n fom : Nat) : ((State.judgeFom s n fom)).pins = s.pins := pins_of
    (State.judgeFom_core s n fom)
@[simp] theorem State.adapt_rest (s : State) (n f fMinus fPlus : Nat) : ((State.adapt s n f fMinus fPlus)).rest =
    s.rest := rest_of (State.adapt_core s n f fMinus fPlus)
@[simp] theorem State.adapt_nvdWf (s : State) (n f fMinus fPlus : Nat) : ((State.adapt s n f fMinus fPlus)).nvdWf =
    s.nvdWf := nvdWf_of (State.adapt_core s n f fMinus fPlus)
@[simp] theorem State.adapt_bare (s : State) (n f fMinus fPlus : Nat) : ((State.adapt s n f fMinus fPlus)).bare =
    s.bare := bare_of (State.adapt_core s n f fMinus fPlus)
@[simp] theorem State.adapt_pins (s : State) (n f fMinus fPlus : Nat) : ((State.adapt s n f fMinus fPlus)).pins =
    s.pins := pins_of (State.adapt_core s n f fMinus fPlus)
@[simp] theorem State.laneCfgWrite_rest (s : State) (n : Nat) (data : W32) (be : BitVec 4) : ((State.laneCfgWrite s n
    data be).st).rest = s.rest := rest_of (State.laneCfgWrite_core s n data be)
@[simp] theorem State.laneCfgWrite_nvdWf (s : State) (n : Nat) (data : W32) (be : BitVec 4) : ((State.laneCfgWrite s n
    data be).st).nvdWf = s.nvdWf := nvdWf_of (State.laneCfgWrite_core s n data be)
@[simp] theorem State.laneCfgWrite_bare (s : State) (n : Nat) (data : W32) (be : BitVec 4) : ((State.laneCfgWrite s n
    data be).st).bare = s.bare := bare_of (State.laneCfgWrite_core s n data be)
@[simp] theorem State.laneCfgWrite_pins (s : State) (n : Nat) (data : W32) (be : BitVec 4) : ((State.laneCfgWrite s n
    data be).st).pins = s.pins := pins_of (State.laneCfgWrite_core s n data be)
@[simp] theorem State.prbsStretch_rest (s : State) (n : Nat) (bs : List Bool) : ((State.prbsStretch s n bs)).rest =
    s.rest := rest_of (State.prbsStretch_core s n bs)
@[simp] theorem State.prbsStretch_nvdWf (s : State) (n : Nat) (bs : List Bool) : ((State.prbsStretch s n bs)).nvdWf =
    s.nvdWf := nvdWf_of (State.prbsStretch_core s n bs)
@[simp] theorem State.prbsStretch_bare (s : State) (n : Nat) (bs : List Bool) : ((State.prbsStretch s n bs)).bare =
    s.bare := bare_of (State.prbsStretch_core s n bs)
@[simp] theorem State.prbsStretch_pins (s : State) (n : Nat) (bs : List Bool) : ((State.prbsStretch s n bs)).pins =
    s.pins := pins_of (State.prbsStretch_core s n bs)
@[simp] theorem State.prbsLane_rest (s : State) (n : Nat) (old v : W32) (inj : Bool) : ((State.prbsLane s n old v
    inj)).rest = s.rest := rest_of (State.prbsLane_core s n old v inj)
@[simp] theorem State.prbsLane_nvdWf (s : State) (n : Nat) (old v : W32) (inj : Bool) : ((State.prbsLane s n old v
    inj)).nvdWf = s.nvdWf := nvdWf_of (State.prbsLane_core s n old v inj)
@[simp] theorem State.prbsLane_bare (s : State) (n : Nat) (old v : W32) (inj : Bool) : ((State.prbsLane s n old v
    inj)).bare = s.bare := bare_of (State.prbsLane_core s n old v inj)
@[simp] theorem State.prbsLane_pins (s : State) (n : Nat) (old v : W32) (inj : Bool) : ((State.prbsLane s n old v
    inj)).pins = s.pins := pins_of (State.prbsLane_core s n old v inj)
@[simp] theorem State.prbsWrite_rest (s : State) (req : Nat) (data : W32) (be : BitVec 4) : ((State.prbsWrite s req
    data be).st).rest = s.rest := rest_of (State.prbsWrite_core s req data be)
@[simp] theorem State.prbsWrite_nvdWf (s : State) (req : Nat) (data : W32) (be : BitVec 4) : ((State.prbsWrite s req
    data be).st).nvdWf = s.nvdWf := nvdWf_of (State.prbsWrite_core s req data be)
@[simp] theorem State.prbsWrite_bare (s : State) (req : Nat) (data : W32) (be : BitVec 4) : ((State.prbsWrite s req
    data be).st).bare = s.bare := bare_of (State.prbsWrite_core s req data be)
@[simp] theorem State.prbsWrite_pins (s : State) (req : Nat) (data : W32) (be : BitVec 4) : ((State.prbsWrite s req
    data be).st).pins = s.pins := pins_of (State.prbsWrite_core s req data be)
@[simp] theorem State.prbsClear_rest (s : State) (go : Bool) : ((State.prbsClear s go).st).rest = s.rest := rest_of
    (State.prbsClear_core s go)
@[simp] theorem State.prbsClear_nvdWf (s : State) (go : Bool) : ((State.prbsClear s go).st).nvdWf = s.nvdWf :=
    nvdWf_of (State.prbsClear_core s go)
@[simp] theorem State.prbsClear_bare (s : State) (go : Bool) : ((State.prbsClear s go).st).bare = s.bare := bare_of
    (State.prbsClear_core s go)
@[simp] theorem State.prbsClear_pins (s : State) (go : Bool) : ((State.prbsClear s go).st).pins = s.pins := pins_of
    (State.prbsClear_core s go)
@[simp] theorem State.setPeer_rest (s : State) (i : Nat) (p : Peer) : ((State.setPeer s i p)).rest = s.rest := rest_of
    (State.setPeer_core s i p)
@[simp] theorem State.setPeer_nvdWf (s : State) (i : Nat) (p : Peer) : ((State.setPeer s i p)).nvdWf = s.nvdWf :=
    nvdWf_of (State.setPeer_core s i p)
@[simp] theorem State.setPeer_bare (s : State) (i : Nat) (p : Peer) : ((State.setPeer s i p)).bare = s.bare := bare_of
    (State.setPeer_core s i p)
@[simp] theorem State.setPeer_pins (s : State) (i : Nat) (p : Peer) : ((State.setPeer s i p)).pins = s.pins := pins_of
    (State.setPeer_core s i p)
@[simp] theorem State.sendUnit_rest (s : State) (i : Nat) (u : W64) : ((State.sendUnit s i u)).rest = s.rest :=
    rest_of (State.sendUnit_core s i u)
@[simp] theorem State.sendUnit_nvdWf (s : State) (i : Nat) (u : W64) : ((State.sendUnit s i u)).nvdWf = s.nvdWf :=
    nvdWf_of (State.sendUnit_core s i u)
@[simp] theorem State.sendUnit_bare (s : State) (i : Nat) (u : W64) : ((State.sendUnit s i u)).bare = s.bare :=
    bare_of (State.sendUnit_core s i u)
@[simp] theorem State.sendUnit_pins (s : State) (i : Nat) (u : W64) : ((State.sendUnit s i u)).pins = s.pins :=
    pins_of (State.sendUnit_core s i u)
@[simp] theorem State.latch_rest (s : State) (rs : List Nat) : ((State.latch s rs)).rest = s.rest := rest_of
    (State.latch_core s rs)
@[simp] theorem State.latch_nvdWf (s : State) (rs : List Nat) : ((State.latch s rs)).nvdWf = s.nvdWf := nvdWf_of
    (State.latch_core s rs)
@[simp] theorem State.latch_bare (s : State) (rs : List Nat) : ((State.latch s rs)).bare = s.bare := bare_of
    (State.latch_core s rs)
@[simp] theorem State.latch_pins (s : State) (rs : List Nat) : ((State.latch s rs)).pins = s.pins := pins_of
    (State.latch_core s rs)
@[simp] theorem State.latchNow_rest (s : State) (a : Nat) : ((State.latchNow s a)).rest = s.rest := rest_of
    (State.latchNow_core s a)
@[simp] theorem State.latchNow_nvdWf (s : State) (a : Nat) : ((State.latchNow s a)).nvdWf = s.nvdWf := nvdWf_of
    (State.latchNow_core s a)
@[simp] theorem State.latchNow_bare (s : State) (a : Nat) : ((State.latchNow s a)).bare = s.bare := bare_of
    (State.latchNow_core s a)
@[simp] theorem State.latchNow_pins (s : State) (a : Nat) : ((State.latchNow s a)).pins = s.pins := pins_of
    (State.latchNow_core s a)
@[simp] theorem State.retain_rest (s : State) (now : Nat) (g : Nat) (e : Ent) : ((State.retain s now g e)).rest =
    s.rest := rest_of (State.retain_core s now g e)
@[simp] theorem State.retain_nvdWf (s : State) (now : Nat) (g : Nat) (e : Ent) : ((State.retain s now g e)).nvdWf =
    s.nvdWf := nvdWf_of (State.retain_core s now g e)
@[simp] theorem State.retain_bare (s : State) (now : Nat) (g : Nat) (e : Ent) : ((State.retain s now g e)).bare =
    s.bare := bare_of (State.retain_core s now g e)
@[simp] theorem State.retain_pins (s : State) (now : Nat) (g : Nat) (e : Ent) : ((State.retain s now g e)).pins =
    s.pins := pins_of (State.retain_core s now g e)
@[simp] theorem State.readCopy_rest (s : State) (word : Nat) (c : RetCopy) : ((State.readCopy s word c).2).rest =
    s.rest := rest_of (State.readCopy_core s word c)
@[simp] theorem State.readCopy_nvdWf (s : State) (word : Nat) (c : RetCopy) : ((State.readCopy s word c).2).nvdWf =
    s.nvdWf := nvdWf_of (State.readCopy_core s word c)
@[simp] theorem State.readCopy_bare (s : State) (word : Nat) (c : RetCopy) : ((State.readCopy s word c).2).bare =
    s.bare := bare_of (State.readCopy_core s word c)
@[simp] theorem State.readCopy_pins (s : State) (word : Nat) (c : RetCopy) : ((State.readCopy s word c).2).pins =
    s.pins := pins_of (State.readCopy_core s word c)
@[simp] theorem State.readCopies_rest (w : Nat) (l : List RetCopy) (s : State) : ((State.readCopies w l s).2).rest =
    s.rest := rest_of (State.readCopies_core w l s)
@[simp] theorem State.readCopies_nvdWf (w : Nat) (l : List RetCopy) (s : State) : ((State.readCopies w l s).2).nvdWf =
    s.nvdWf := nvdWf_of (State.readCopies_core w l s)
@[simp] theorem State.readCopies_bare (w : Nat) (l : List RetCopy) (s : State) : ((State.readCopies w l s).2).bare =
    s.bare := bare_of (State.readCopies_core w l s)
@[simp] theorem State.readCopies_pins (w : Nat) (l : List RetCopy) (s : State) : ((State.readCopies w l s).2).pins =
    s.pins := pins_of (State.readCopies_core w l s)
@[simp] theorem State.walkBeat_rest (s : State) (w : List RetCopy) : ((State.walkBeat s w)).rest = s.rest := rest_of
    (State.walkBeat_core s w)
@[simp] theorem State.walkBeat_nvdWf (s : State) (w : List RetCopy) : ((State.walkBeat s w)).nvdWf = s.nvdWf :=
    nvdWf_of (State.walkBeat_core s w)
@[simp] theorem State.walkBeat_bare (s : State) (w : List RetCopy) : ((State.walkBeat s w)).bare = s.bare := bare_of
    (State.walkBeat_core s w)
@[simp] theorem State.walkBeat_pins (s : State) (w : List RetCopy) : ((State.walkBeat s w)).pins = s.pins := pins_of
    (State.walkBeat_core s w)
@[simp] theorem State.grantOut_rest (s : State) (snd : Nat) (g : Nat) : ((State.grantOut s snd g)).rest = s.rest :=
    rest_of (State.grantOut_core s snd g)
@[simp] theorem State.grantOut_nvdWf (s : State) (snd : Nat) (g : Nat) : ((State.grantOut s snd g)).nvdWf = s.nvdWf :=
    nvdWf_of (State.grantOut_core s snd g)
@[simp] theorem State.grantOut_bare (s : State) (snd : Nat) (g : Nat) : ((State.grantOut s snd g)).bare = s.bare :=
    bare_of (State.grantOut_core s snd g)
@[simp] theorem State.grantOut_pins (s : State) (snd : Nat) (g : Nat) : ((State.grantOut s snd g)).pins = s.pins :=
    pins_of (State.grantOut_core s snd g)
@[simp] theorem State.grantNext_rest (s : State) : ((State.grantNext s)).rest = s.rest := rest_of
    (State.grantNext_core s)
@[simp] theorem State.grantNext_nvdWf (s : State) : ((State.grantNext s)).nvdWf = s.nvdWf := nvdWf_of
    (State.grantNext_core s)
@[simp] theorem State.grantNext_bare (s : State) : ((State.grantNext s)).bare = s.bare := bare_of
    (State.grantNext_core s)
@[simp] theorem State.grantNext_pins (s : State) : ((State.grantNext s)).pins = s.pins := pins_of
    (State.grantNext_core s)
@[simp] theorem State.lossSum_rest (s : State) (cls n src ch count cause : Nat) : ((State.lossSum s cls n src ch count
    cause)).rest = s.rest := rest_of (State.lossSum_core s cls n src ch count cause)
@[simp] theorem State.lossSum_nvdWf (s : State) (cls n src ch count cause : Nat) : ((State.lossSum s cls n src ch
    count cause)).nvdWf = s.nvdWf := nvdWf_of (State.lossSum_core s cls n src ch count cause)
@[simp] theorem State.lossSum_bare (s : State) (cls n src ch count cause : Nat) : ((State.lossSum s cls n src ch count
    cause)).bare = s.bare := bare_of (State.lossSum_core s cls n src ch count cause)
@[simp] theorem State.lossSum_pins (s : State) (cls n src ch count cause : Nat) : ((State.lossSum s cls n src ch count
    cause)).pins = s.pins := pins_of (State.lossSum_core s cls n src ch count cause)
@[simp] theorem State.note_rest (s : State) (e : Ent) (out : Nat) : ((State.note s e out)).rest = s.rest := rest_of
    (State.note_core s e out)
@[simp] theorem State.note_nvdWf (s : State) (e : Ent) (out : Nat) : ((State.note s e out)).nvdWf = s.nvdWf :=
    nvdWf_of (State.note_core s e out)
@[simp] theorem State.note_bare (s : State) (e : Ent) (out : Nat) : ((State.note s e out)).bare = s.bare := bare_of
    (State.note_core s e out)
@[simp] theorem State.note_pins (s : State) (e : Ent) (out : Nat) : ((State.note s e out)).pins = s.pins := pins_of
    (State.note_core s e out)
@[simp] theorem State.enqueue_rest (s : State) (q : Nat) (es : List Ent) : ((State.enqueue s q es)).rest = s.rest :=
    rest_of (State.enqueue_core s q es)
@[simp] theorem State.enqueue_nvdWf (s : State) (q : Nat) (es : List Ent) : ((State.enqueue s q es)).nvdWf = s.nvdWf
    := nvdWf_of (State.enqueue_core s q es)
@[simp] theorem State.enqueue_bare (s : State) (q : Nat) (es : List Ent) : ((State.enqueue s q es)).bare = s.bare :=
    bare_of (State.enqueue_core s q es)
@[simp] theorem State.enqueue_pins (s : State) (q : Nat) (es : List Ent) : ((State.enqueue s q es)).pins = s.pins :=
    pins_of (State.enqueue_core s q es)
@[simp] theorem State.mapLoss_rest (s : State) (q n src ch hits : Nat) : ((State.mapLoss s q n src ch hits)).rest =
    s.rest := rest_of (State.mapLoss_core s q n src ch hits)
@[simp] theorem State.mapLoss_nvdWf (s : State) (q n src ch hits : Nat) : ((State.mapLoss s q n src ch hits)).nvdWf =
    s.nvdWf := nvdWf_of (State.mapLoss_core s q n src ch hits)
@[simp] theorem State.mapLoss_bare (s : State) (q n src ch hits : Nat) : ((State.mapLoss s q n src ch hits)).bare =
    s.bare := bare_of (State.mapLoss_core s q n src ch hits)
@[simp] theorem State.mapLoss_pins (s : State) (q n src ch hits : Nat) : ((State.mapLoss s q n src ch hits)).pins =
    s.pins := pins_of (State.mapLoss_core s q n src ch hits)
@[simp] theorem State.stageQueue_rest (s : State) (src : Nat) (cls : Nat) (es : List Ent) : ((State.stageQueue s src
    cls es).2).rest = s.rest := rest_of (State.stageQueue_core s src cls es)
@[simp] theorem State.stageQueue_nvdWf (s : State) (src : Nat) (cls : Nat) (es : List Ent) : ((State.stageQueue s src
    cls es).2).nvdWf = s.nvdWf := nvdWf_of (State.stageQueue_core s src cls es)
@[simp] theorem State.stageQueue_bare (s : State) (src : Nat) (cls : Nat) (es : List Ent) : ((State.stageQueue s src
    cls es).2).bare = s.bare := bare_of (State.stageQueue_core s src cls es)
@[simp] theorem State.stageQueue_pins (s : State) (src : Nat) (cls : Nat) (es : List Ent) : ((State.stageQueue s src
    cls es).2).pins = s.pins := pins_of (State.stageQueue_core s src cls es)
@[simp] theorem State.prescale_rest (s : State) (e : Ent) : ((State.prescale s e).2).rest = s.rest := rest_of
    (State.prescale_core s e)
@[simp] theorem State.prescale_nvdWf (s : State) (e : Ent) : ((State.prescale s e).2).nvdWf = s.nvdWf := nvdWf_of
    (State.prescale_core s e)
@[simp] theorem State.prescale_bare (s : State) (e : Ent) : ((State.prescale s e).2).bare = s.bare := bare_of
    (State.prescale_core s e)
@[simp] theorem State.prescale_pins (s : State) (e : Ent) : ((State.prescale s e).2).pins = s.pins := pins_of
    (State.prescale_core s e)
@[simp] theorem State.ownHit_rest (s : State) (e : Ent) : ((State.ownHit s e)).rest = s.rest := rest_of
    (State.ownHit_core s e)
@[simp] theorem State.ownHit_nvdWf (s : State) (e : Ent) : ((State.ownHit s e)).nvdWf = s.nvdWf := nvdWf_of
    (State.ownHit_core s e)
@[simp] theorem State.ownHit_bare (s : State) (e : Ent) : ((State.ownHit s e)).bare = s.bare := bare_of
    (State.ownHit_core s e)
@[simp] theorem State.ownHit_pins (s : State) (e : Ent) : ((State.ownHit s e)).pins = s.pins := pins_of
    (State.ownHit_core s e)
@[simp] theorem State.ownWave_rest (s : State) (es : List Ent) : ((State.ownWave s es)).rest = s.rest := rest_of
    (State.ownWave_core s es)
@[simp] theorem State.ownWave_nvdWf (s : State) (es : List Ent) : ((State.ownWave s es)).nvdWf = s.nvdWf := nvdWf_of
    (State.ownWave_core s es)
@[simp] theorem State.ownWave_bare (s : State) (es : List Ent) : ((State.ownWave s es)).bare = s.bare := bare_of
    (State.ownWave_core s es)
@[simp] theorem State.ownWave_pins (s : State) (es : List Ent) : ((State.ownWave s es)).pins = s.pins := pins_of
    (State.ownWave_core s es)
@[simp] theorem State.ownLoss_rest (s : State) (w : W64) : ((State.ownLoss s w)).rest = s.rest := rest_of
    (State.ownLoss_core s w)
@[simp] theorem State.ownLoss_nvdWf (s : State) (w : W64) : ((State.ownLoss s w)).nvdWf = s.nvdWf := nvdWf_of
    (State.ownLoss_core s w)
@[simp] theorem State.ownLoss_bare (s : State) (w : W64) : ((State.ownLoss s w)).bare = s.bare := bare_of
    (State.ownLoss_core s w)
@[simp] theorem State.ownLoss_pins (s : State) (w : W64) : ((State.ownLoss s w)).pins = s.pins := pins_of
    (State.ownLoss_core s w)
@[simp] theorem State.ingest_rest (s : State) (g : Nat) (e : Ent) : ((State.ingest s g e)).rest = s.rest := rest_of
    (State.ingest_core s g e)
@[simp] theorem State.ingest_nvdWf (s : State) (g : Nat) (e : Ent) : ((State.ingest s g e)).nvdWf = s.nvdWf :=
    nvdWf_of (State.ingest_core s g e)
@[simp] theorem State.ingest_bare (s : State) (g : Nat) (e : Ent) : ((State.ingest s g e)).bare = s.bare := bare_of
    (State.ingest_core s g e)
@[simp] theorem State.ingest_pins (s : State) (g : Nat) (e : Ent) : ((State.ingest s g e)).pins = s.pins := pins_of
    (State.ingest_core s g e)
@[simp] theorem State.oldOutcome_rest (s : State) (e : Ent) : ((State.oldOutcome s e).2).rest = s.rest := rest_of
    (State.oldOutcome_core s e)
@[simp] theorem State.oldOutcome_nvdWf (s : State) (e : Ent) : ((State.oldOutcome s e).2).nvdWf = s.nvdWf := nvdWf_of
    (State.oldOutcome_core s e)
@[simp] theorem State.oldOutcome_bare (s : State) (e : Ent) : ((State.oldOutcome s e).2).bare = s.bare := bare_of
    (State.oldOutcome_core s e)
@[simp] theorem State.oldOutcome_pins (s : State) (e : Ent) : ((State.oldOutcome s e).2).pins = s.pins := pins_of
    (State.oldOutcome_core s e)
@[simp] theorem State.passCopy_rest (s : State) (tick : Nat) (e : Ent) : ((State.passCopy s tick e)).rest = s.rest :=
    rest_of (State.passCopy_core s tick e)
@[simp] theorem State.passCopy_nvdWf (s : State) (tick : Nat) (e : Ent) : ((State.passCopy s tick e)).nvdWf = s.nvdWf
    := nvdWf_of (State.passCopy_core s tick e)
@[simp] theorem State.passCopy_bare (s : State) (tick : Nat) (e : Ent) : ((State.passCopy s tick e)).bare = s.bare :=
    bare_of (State.passCopy_core s tick e)
@[simp] theorem State.passCopy_pins (s : State) (tick : Nat) (e : Ent) : ((State.passCopy s tick e)).pins = s.pins :=
    pins_of (State.passCopy_core s tick e)
@[simp] theorem State.countBeat_rest (s : State) (corr : BitVec 4) (n : Nat) : ((State.countBeat s corr n)).rest =
    s.rest := rest_of (State.countBeat_core s corr n)
@[simp] theorem State.countBeat_nvdWf (s : State) (corr : BitVec 4) (n : Nat) : ((State.countBeat s corr n)).nvdWf =
    s.nvdWf := nvdWf_of (State.countBeat_core s corr n)
@[simp] theorem State.countBeat_bare (s : State) (corr : BitVec 4) (n : Nat) : ((State.countBeat s corr n)).bare =
    s.bare := bare_of (State.countBeat_core s corr n)
@[simp] theorem State.countBeat_pins (s : State) (corr : BitVec 4) (n : Nat) : ((State.countBeat s corr n)).pins =
    s.pins := pins_of (State.countBeat_core s corr n)
@[simp] theorem State.ingestCopy_rest (s : State) (g : Nat) (tick : Nat) (e : Ent) : ((State.ingestCopy s g tick
    e)).rest = s.rest := rest_of (State.ingestCopy_core s g tick e)
@[simp] theorem State.ingestCopy_nvdWf (s : State) (g : Nat) (tick : Nat) (e : Ent) : ((State.ingestCopy s g tick
    e)).nvdWf = s.nvdWf := nvdWf_of (State.ingestCopy_core s g tick e)
@[simp] theorem State.ingestCopy_bare (s : State) (g : Nat) (tick : Nat) (e : Ent) : ((State.ingestCopy s g tick
    e)).bare = s.bare := bare_of (State.ingestCopy_core s g tick e)
@[simp] theorem State.ingestCopy_pins (s : State) (g : Nat) (tick : Nat) (e : Ent) : ((State.ingestCopy s g tick
    e)).pins = s.pins := pins_of (State.ingestCopy_core s g tick e)
@[simp] theorem State.takeBeat_rest (s : State) (ok : Bool) (x : BeatBits) : ((State.takeBeat s ok x)).rest = s.rest
    := rest_of (State.takeBeat_core s ok x)
@[simp] theorem State.takeBeat_nvdWf (s : State) (ok : Bool) (x : BeatBits) : ((State.takeBeat s ok x)).nvdWf =
    s.nvdWf := nvdWf_of (State.takeBeat_core s ok x)
@[simp] theorem State.takeBeat_bare (s : State) (ok : Bool) (x : BeatBits) : ((State.takeBeat s ok x)).bare = s.bare
    := bare_of (State.takeBeat_core s ok x)
@[simp] theorem State.takeBeat_pins (s : State) (ok : Bool) (x : BeatBits) : ((State.takeBeat s ok x)).pins = s.pins
    := pins_of (State.takeBeat_core s ok x)
@[simp] theorem State.insertBarrier_rest (s : State) (b : Barrier) : ((State.insertBarrier s b)).rest = s.rest :=
    rest_of (State.insertBarrier_core s b)
@[simp] theorem State.insertBarrier_nvdWf (s : State) (b : Barrier) : ((State.insertBarrier s b)).nvdWf = s.nvdWf :=
    nvdWf_of (State.insertBarrier_core s b)
@[simp] theorem State.insertBarrier_bare (s : State) (b : Barrier) : ((State.insertBarrier s b)).bare = s.bare :=
    bare_of (State.insertBarrier_core s b)
@[simp] theorem State.insertBarrier_pins (s : State) (b : Barrier) : ((State.insertBarrier s b)).pins = s.pins :=
    pins_of (State.insertBarrier_core s b)
@[simp] theorem State.recordBarrier_rest (s : State) (b : Barrier) : ((State.recordBarrier s b)).rest = s.rest :=
    rest_of (State.recordBarrier_core s b)
@[simp] theorem State.recordBarrier_nvdWf (s : State) (b : Barrier) : ((State.recordBarrier s b)).nvdWf = s.nvdWf :=
    nvdWf_of (State.recordBarrier_core s b)
@[simp] theorem State.recordBarrier_bare (s : State) (b : Barrier) : ((State.recordBarrier s b)).bare = s.bare :=
    bare_of (State.recordBarrier_core s b)
@[simp] theorem State.recordBarrier_pins (s : State) (b : Barrier) : ((State.recordBarrier s b)).pins = s.pins :=
    pins_of (State.recordBarrier_core s b)
@[simp] theorem State.standBarrier_rest (s : State) (b : Barrier) : ((State.standBarrier s b)).rest = s.rest :=
    rest_of (State.standBarrier_core s b)
@[simp] theorem State.standBarrier_nvdWf (s : State) (b : Barrier) : ((State.standBarrier s b)).nvdWf = s.nvdWf :=
    nvdWf_of (State.standBarrier_core s b)
@[simp] theorem State.standBarrier_bare (s : State) (b : Barrier) : ((State.standBarrier s b)).bare = s.bare :=
    bare_of (State.standBarrier_core s b)
@[simp] theorem State.standBarrier_pins (s : State) (b : Barrier) : ((State.standBarrier s b)).pins = s.pins :=
    pins_of (State.standBarrier_core s b)
@[simp] theorem State.markLost_rest (s : State) : ((State.markLost s)).rest = s.rest := rest_of (State.markLost_core
    s)
@[simp] theorem State.markLost_nvdWf (s : State) : ((State.markLost s)).nvdWf = s.nvdWf := nvdWf_of
    (State.markLost_core s)
@[simp] theorem State.markLost_bare (s : State) : ((State.markLost s)).bare = s.bare := bare_of (State.markLost_core
    s)
@[simp] theorem State.markLost_pins (s : State) : ((State.markLost s)).pins = s.pins := pins_of (State.markLost_core
    s)
@[simp] theorem State.flushAt_rest (s : State) (n : Nat) (id : Nat) : ((State.flushAt s n id)).rest = s.rest :=
    rest_of (State.flushAt_core s n id)
@[simp] theorem State.flushAt_nvdWf (s : State) (n : Nat) (id : Nat) : ((State.flushAt s n id)).nvdWf = s.nvdWf :=
    nvdWf_of (State.flushAt_core s n id)
@[simp] theorem State.flushAt_bare (s : State) (n : Nat) (id : Nat) : ((State.flushAt s n id)).bare = s.bare :=
    bare_of (State.flushAt_core s n id)
@[simp] theorem State.flushAt_pins (s : State) (n : Nat) (id : Nat) : ((State.flushAt s n id)).pins = s.pins :=
    pins_of (State.flushAt_core s n id)
@[simp] theorem State.runFlushes_rest (s : State) : ((State.runFlushes s)).rest = s.rest := rest_of
    (State.runFlushes_core s)
@[simp] theorem State.runFlushes_nvdWf (s : State) : ((State.runFlushes s)).nvdWf = s.nvdWf := nvdWf_of
    (State.runFlushes_core s)
@[simp] theorem State.runFlushes_bare (s : State) : ((State.runFlushes s)).bare = s.bare := bare_of
    (State.runFlushes_core s)
@[simp] theorem State.runFlushes_pins (s : State) : ((State.runFlushes s)).pins = s.pins := pins_of
    (State.runFlushes_core s)
@[simp] theorem State.flushNow_rest (s : State) (id : Nat) : ((State.flushNow s id)).rest = s.rest := rest_of
    (State.flushNow_core s id)
@[simp] theorem State.flushNow_nvdWf (s : State) (id : Nat) : ((State.flushNow s id)).nvdWf = s.nvdWf := nvdWf_of
    (State.flushNow_core s id)
@[simp] theorem State.flushNow_bare (s : State) (id : Nat) : ((State.flushNow s id)).bare = s.bare := bare_of
    (State.flushNow_core s id)
@[simp] theorem State.flushNow_pins (s : State) (id : Nat) : ((State.flushNow s id)).pins = s.pins := pins_of
    (State.flushNow_core s id)
@[simp] theorem State.flushWrite_rest (s : State) (data : W32) (be : BitVec 4) : ((State.flushWrite s data
    be).st).rest = s.rest := rest_of (State.flushWrite_core s data be)
@[simp] theorem State.flushWrite_nvdWf (s : State) (data : W32) (be : BitVec 4) : ((State.flushWrite s data
    be).st).nvdWf = s.nvdWf := nvdWf_of (State.flushWrite_core s data be)
@[simp] theorem State.flushWrite_bare (s : State) (data : W32) (be : BitVec 4) : ((State.flushWrite s data
    be).st).bare = s.bare := bare_of (State.flushWrite_core s data be)
@[simp] theorem State.flushWrite_pins (s : State) (data : W32) (be : BitVec 4) : ((State.flushWrite s data
    be).st).pins = s.pins := pins_of (State.flushWrite_core s data be)
@[simp] theorem State.flushAlias_rest (s : State) (data : W32) (be : BitVec 4) : ((State.flushAlias s data
    be).st).rest = s.rest := rest_of (State.flushAlias_core s data be)
@[simp] theorem State.flushAlias_nvdWf (s : State) (data : W32) (be : BitVec 4) : ((State.flushAlias s data
    be).st).nvdWf = s.nvdWf := nvdWf_of (State.flushAlias_core s data be)
@[simp] theorem State.flushAlias_bare (s : State) (data : W32) (be : BitVec 4) : ((State.flushAlias s data
    be).st).bare = s.bare := bare_of (State.flushAlias_core s data be)
@[simp] theorem State.flushAlias_pins (s : State) (data : W32) (be : BitVec 4) : ((State.flushAlias s data
    be).st).pins = s.pins := pins_of (State.flushAlias_core s data be)
@[simp] theorem State.popLoRequest_rest (s : State) (n : Nat) : ((State.popLoRequest s n)).rest = s.rest := rest_of
    (State.popLoRequest_core s n)
@[simp] theorem State.popLoRequest_nvdWf (s : State) (n : Nat) : ((State.popLoRequest s n)).nvdWf = s.nvdWf :=
    nvdWf_of (State.popLoRequest_core s n)
@[simp] theorem State.popLoRequest_bare (s : State) (n : Nat) : ((State.popLoRequest s n)).bare = s.bare := bare_of
    (State.popLoRequest_core s n)
@[simp] theorem State.popLoRequest_pins (s : State) (n : Nat) : ((State.popLoRequest s n)).pins = s.pins := pins_of
    (State.popLoRequest_core s n)
@[simp] theorem State.popHi_rest (s : State) (n : Nat) : ((State.popHi s n).st).rest = s.rest := rest_of
    (State.popHi_core s n)
@[simp] theorem State.popHi_nvdWf (s : State) (n : Nat) : ((State.popHi s n).st).nvdWf = s.nvdWf := nvdWf_of
    (State.popHi_core s n)
@[simp] theorem State.popHi_bare (s : State) (n : Nat) : ((State.popHi s n).st).bare = s.bare := bare_of
    (State.popHi_core s n)
@[simp] theorem State.popHi_pins (s : State) (n : Nat) : ((State.popHi s n).st).pins = s.pins := pins_of
    (State.popHi_core s n)
@[simp] theorem State.setWhisk_rest (s : State) (w : Whisk) : ((State.setWhisk s w)).rest = s.rest := rest_of
    (State.setWhisk_core s w)
@[simp] theorem State.setWhisk_nvdWf (s : State) (w : Whisk) : ((State.setWhisk s w)).nvdWf = s.nvdWf := nvdWf_of
    (State.setWhisk_core s w)
@[simp] theorem State.setWhisk_bare (s : State) (w : Whisk) : ((State.setWhisk s w)).bare = s.bare := bare_of
    (State.setWhisk_core s w)
@[simp] theorem State.setWhisk_pins (s : State) (w : Whisk) : ((State.setWhisk s w)).pins = s.pins := pins_of
    (State.setWhisk_core s w)
@[simp] theorem State.gates_rest (s : State) (r : Nat) (t : Nat) : ((State.gates s r t).2).rest = s.rest := rest_of
    (State.gates_core s r t)
@[simp] theorem State.gates_nvdWf (s : State) (r : Nat) (t : Nat) : ((State.gates s r t).2).nvdWf = s.nvdWf :=
    nvdWf_of (State.gates_core s r t)
@[simp] theorem State.gates_bare (s : State) (r : Nat) (t : Nat) : ((State.gates s r t).2).bare = s.bare := bare_of
    (State.gates_core s r t)
@[simp] theorem State.gates_pins (s : State) (r : Nat) (t : Nat) : ((State.gates s r t).2).pins = s.pins := pins_of
    (State.gates_core s r t)
@[simp] theorem State.holdOff_rest (s : State) (passing : List Nat) (t : Nat) : ((State.holdOff s passing t)).rest =
    s.rest := rest_of (State.holdOff_core s passing t)
@[simp] theorem State.holdOff_nvdWf (s : State) (passing : List Nat) (t : Nat) : ((State.holdOff s passing t)).nvdWf =
    s.nvdWf := nvdWf_of (State.holdOff_core s passing t)
@[simp] theorem State.holdOff_bare (s : State) (passing : List Nat) (t : Nat) : ((State.holdOff s passing t)).bare =
    s.bare := bare_of (State.holdOff_core s passing t)
@[simp] theorem State.holdOff_pins (s : State) (passing : List Nat) (t : Nat) : ((State.holdOff s passing t)).pins =
    s.pins := pins_of (State.holdOff_core s passing t)
@[simp] theorem State.keepOut_rest (s : State) (t : Nat) : ((State.keepOut s t)).rest = s.rest := rest_of
    (State.keepOut_core s t)
@[simp] theorem State.keepOut_nvdWf (s : State) (t : Nat) : ((State.keepOut s t)).nvdWf = s.nvdWf := nvdWf_of
    (State.keepOut_core s t)
@[simp] theorem State.keepOut_bare (s : State) (t : Nat) : ((State.keepOut s t)).bare = s.bare := bare_of
    (State.keepOut_core s t)
@[simp] theorem State.keepOut_pins (s : State) (t : Nat) : ((State.keepOut s t)).pins = s.pins := pins_of
    (State.keepOut_core s t)
@[simp] theorem State.passRules_rest (s : State) (passing : List Nat) (t : Nat) : ((State.passRules s passing t)).rest
    = s.rest := rest_of (State.passRules_core s passing t)
@[simp] theorem State.passRules_nvdWf (s : State) (passing : List Nat) (t : Nat) : ((State.passRules s passing
    t)).nvdWf = s.nvdWf := nvdWf_of (State.passRules_core s passing t)
@[simp] theorem State.passRules_bare (s : State) (passing : List Nat) (t : Nat) : ((State.passRules s passing t)).bare
    = s.bare := bare_of (State.passRules_core s passing t)
@[simp] theorem State.passRules_pins (s : State) (passing : List Nat) (t : Nat) : ((State.passRules s passing t)).pins
    = s.pins := pins_of (State.passRules_core s passing t)
@[simp] theorem State.makeDecision_rest (s : State) (p : PendDec) : ((State.makeDecision s p)).rest = s.rest :=
    rest_of (State.makeDecision_core s p)
@[simp] theorem State.makeDecision_nvdWf (s : State) (p : PendDec) : ((State.makeDecision s p)).nvdWf = s.nvdWf :=
    nvdWf_of (State.makeDecision_core s p)
@[simp] theorem State.makeDecision_bare (s : State) (p : PendDec) : ((State.makeDecision s p)).bare = s.bare :=
    bare_of (State.makeDecision_core s p)
@[simp] theorem State.makeDecision_pins (s : State) (p : PendDec) : ((State.makeDecision s p)).pins = s.pins :=
    pins_of (State.makeDecision_core s p)
@[simp] theorem State.makeDue_rest (s : State) (e : Nat) : ((State.makeDue s e)).rest = s.rest := rest_of
    (State.makeDue_core s e)
@[simp] theorem State.makeDue_nvdWf (s : State) (e : Nat) : ((State.makeDue s e)).nvdWf = s.nvdWf := nvdWf_of
    (State.makeDue_core s e)
@[simp] theorem State.makeDue_bare (s : State) (e : Nat) : ((State.makeDue s e)).bare = s.bare := bare_of
    (State.makeDue_core s e)
@[simp] theorem State.makeDue_pins (s : State) (e : Nat) : ((State.makeDue s e)).pins = s.pins := pins_of
    (State.makeDue_core s e)
@[simp] theorem State.whiskStart_rest (s : State) (t : Nat) : ((State.whiskStart s t)).rest = s.rest := rest_of
    (State.whiskStart_core s t)
@[simp] theorem State.whiskStart_nvdWf (s : State) (t : Nat) : ((State.whiskStart s t)).nvdWf = s.nvdWf := nvdWf_of
    (State.whiskStart_core s t)
@[simp] theorem State.whiskStart_bare (s : State) (t : Nat) : ((State.whiskStart s t)).bare = s.bare := bare_of
    (State.whiskStart_core s t)
@[simp] theorem State.whiskStart_pins (s : State) (t : Nat) : ((State.whiskStart s t)).pins = s.pins := pins_of
    (State.whiskStart_core s t)
@[simp] theorem State.readTables_rest (s : State) : ((State.readTables s)).rest = s.rest := rest_of
    (State.readTables_core s)
@[simp] theorem State.readTables_nvdWf (s : State) : ((State.readTables s)).nvdWf = s.nvdWf := nvdWf_of
    (State.readTables_core s)
@[simp] theorem State.readTables_bare (s : State) : ((State.readTables s)).bare = s.bare := bare_of
    (State.readTables_core s)
@[simp] theorem State.readTables_pins (s : State) : ((State.readTables s)).pins = s.pins := pins_of
    (State.readTables_core s)
@[simp] theorem State.summaryRise_rest (s : State) (j : Nat) (t : Nat) : ((State.summaryRise s j t)).rest = s.rest :=
    rest_of (State.summaryRise_core s j t)
@[simp] theorem State.summaryRise_nvdWf (s : State) (j : Nat) (t : Nat) : ((State.summaryRise s j t)).nvdWf = s.nvdWf
    := nvdWf_of (State.summaryRise_core s j t)
@[simp] theorem State.summaryRise_bare (s : State) (j : Nat) (t : Nat) : ((State.summaryRise s j t)).bare = s.bare :=
    bare_of (State.summaryRise_core s j t)
@[simp] theorem State.summaryRise_pins (s : State) (j : Nat) (t : Nat) : ((State.summaryRise s j t)).pins = s.pins :=
    pins_of (State.summaryRise_core s j t)
@[simp] theorem State.evalTick_rest (s : State) (t : Nat) : ((State.evalTick s t)).rest = s.rest := rest_of
    (State.evalTick_core s t)
@[simp] theorem State.evalTick_nvdWf (s : State) (t : Nat) : ((State.evalTick s t)).nvdWf = s.nvdWf := nvdWf_of
    (State.evalTick_core s t)
@[simp] theorem State.evalTick_bare (s : State) (t : Nat) : ((State.evalTick s t)).bare = s.bare := bare_of
    (State.evalTick_core s t)
@[simp] theorem State.evalTick_pins (s : State) (t : Nat) : ((State.evalTick s t)).pins = s.pins := pins_of
    (State.evalTick_core s t)
@[simp] theorem State.evalWait_rest (s : State) (t : Nat) : ((State.evalWait s t)).rest = s.rest := rest_of
    (State.evalWait_core s t)
@[simp] theorem State.evalWait_nvdWf (s : State) (t : Nat) : ((State.evalWait s t)).nvdWf = s.nvdWf := nvdWf_of
    (State.evalWait_core s t)
@[simp] theorem State.evalWait_bare (s : State) (t : Nat) : ((State.evalWait s t)).bare = s.bare := bare_of
    (State.evalWait_core s t)
@[simp] theorem State.evalWait_pins (s : State) (t : Nat) : ((State.evalWait s t)).pins = s.pins := pins_of
    (State.evalWait_core s t)
@[simp] theorem State.whiskNext_rest (s : State) : ((State.whiskNext s)).rest = s.rest := rest_of
    (State.whiskNext_core s)
@[simp] theorem State.whiskNext_nvdWf (s : State) : ((State.whiskNext s)).nvdWf = s.nvdWf := nvdWf_of
    (State.whiskNext_core s)
@[simp] theorem State.whiskNext_bare (s : State) : ((State.whiskNext s)).bare = s.bare := bare_of
    (State.whiskNext_core s)
@[simp] theorem State.whiskNext_pins (s : State) : ((State.whiskNext s)).pins = s.pins := pins_of
    (State.whiskNext_core s)
@[simp] theorem State.ringFails_rest (s : State) (align : Bool) : ((State.ringFails s align)).rest = s.rest := rest_of
    (State.ringFails_core s align)
@[simp] theorem State.ringFails_nvdWf (s : State) (align : Bool) : ((State.ringFails s align)).nvdWf = s.nvdWf :=
    nvdWf_of (State.ringFails_core s align)
@[simp] theorem State.ringFails_bare (s : State) (align : Bool) : ((State.ringFails s align)).bare = s.bare := bare_of
    (State.ringFails_core s align)
@[simp] theorem State.ringFails_pins (s : State) (align : Bool) : ((State.ringFails s align)).pins = s.pins := pins_of
    (State.ringFails_core s align)
@[simp] theorem State.trainSeen_rest (s : State) (ok : Bool) : ((State.trainSeen s ok)).rest = s.rest := rest_of
    (State.trainSeen_core s ok)
@[simp] theorem State.trainSeen_nvdWf (s : State) (ok : Bool) : ((State.trainSeen s ok)).nvdWf = s.nvdWf := nvdWf_of
    (State.trainSeen_core s ok)
@[simp] theorem State.trainSeen_bare (s : State) (ok : Bool) : ((State.trainSeen s ok)).bare = s.bare := bare_of
    (State.trainSeen_core s ok)
@[simp] theorem State.trainSeen_pins (s : State) (ok : Bool) : ((State.trainSeen s ok)).pins = s.pins := pins_of
    (State.trainSeen_core s ok)
@[simp] theorem State.patternSeen_rest (s : State) (train : Bool) (f : BitVec 128) (skew : Bool) : ((State.patternSeen
    s train f skew)).rest = s.rest := rest_of (State.patternSeen_core s train f skew)
@[simp] theorem State.patternSeen_nvdWf (s : State) (train : Bool) (f : BitVec 128) (skew : Bool) :
    ((State.patternSeen s train f skew)).nvdWf = s.nvdWf := nvdWf_of (State.patternSeen_core s train f skew)
@[simp] theorem State.patternSeen_bare (s : State) (train : Bool) (f : BitVec 128) (skew : Bool) : ((State.patternSeen
    s train f skew)).bare = s.bare := bare_of (State.patternSeen_core s train f skew)
@[simp] theorem State.patternSeen_pins (s : State) (train : Bool) (f : BitVec 128) (skew : Bool) : ((State.patternSeen
    s train f skew)).pins = s.pins := pins_of (State.patternSeen_core s train f skew)
@[simp] theorem State.checkBegins_rest (s : State) : ((State.checkBegins s)).rest = s.rest := rest_of
    (State.checkBegins_core s)
@[simp] theorem State.checkBegins_nvdWf (s : State) : ((State.checkBegins s)).nvdWf = s.nvdWf := nvdWf_of
    (State.checkBegins_core s)
@[simp] theorem State.checkBegins_bare (s : State) : ((State.checkBegins s)).bare = s.bare := bare_of
    (State.checkBegins_core s)
@[simp] theorem State.checkBegins_pins (s : State) : ((State.checkBegins s)).pins = s.pins := pins_of
    (State.checkBegins_core s)
@[simp] theorem State.ringCheckFrame_rest (s : State) (ok : Bool) : ((State.ringCheckFrame s ok)).rest = s.rest :=
    rest_of (State.ringCheckFrame_core s ok)
@[simp] theorem State.ringCheckFrame_nvdWf (s : State) (ok : Bool) : ((State.ringCheckFrame s ok)).nvdWf = s.nvdWf :=
    nvdWf_of (State.ringCheckFrame_core s ok)
@[simp] theorem State.ringCheckFrame_bare (s : State) (ok : Bool) : ((State.ringCheckFrame s ok)).bare = s.bare :=
    bare_of (State.ringCheckFrame_core s ok)
@[simp] theorem State.ringCheckFrame_pins (s : State) (ok : Bool) : ((State.ringCheckFrame s ok)).pins = s.pins :=
    pins_of (State.ringCheckFrame_core s ok)
@[simp] theorem State.offerToken_rest (s : State) : ((State.offerToken s).2).rest = s.rest := rest_of
    (State.offerToken_core s)
@[simp] theorem State.offerToken_nvdWf (s : State) : ((State.offerToken s).2).nvdWf = s.nvdWf := nvdWf_of
    (State.offerToken_core s)
@[simp] theorem State.offerToken_bare (s : State) : ((State.offerToken s).2).bare = s.bare := bare_of
    (State.offerToken_core s)
@[simp] theorem State.offerToken_pins (s : State) : ((State.offerToken s).2).pins = s.pins := pins_of
    (State.offerToken_core s)
@[simp] theorem State.headToken_rest (s : State) (t : Nat) : ((State.headToken s t).2).rest = s.rest := rest_of
    (State.headToken_core s t)
@[simp] theorem State.headToken_nvdWf (s : State) (t : Nat) : ((State.headToken s t).2).nvdWf = s.nvdWf := nvdWf_of
    (State.headToken_core s t)
@[simp] theorem State.headToken_bare (s : State) (t : Nat) : ((State.headToken s t).2).bare = s.bare := bare_of
    (State.headToken_core s t)
@[simp] theorem State.headToken_pins (s : State) (t : Nat) : ((State.headToken s t).2).pins = s.pins := pins_of
    (State.headToken_core s t)
@[simp] theorem State.limbKeep_rest (s : State) (t : Nat) : ((State.limbKeep s t)).rest = s.rest := rest_of
    (State.limbKeep_core s t)
@[simp] theorem State.limbKeep_nvdWf (s : State) (t : Nat) : ((State.limbKeep s t)).nvdWf = s.nvdWf := nvdWf_of
    (State.limbKeep_core s t)
@[simp] theorem State.limbKeep_bare (s : State) (t : Nat) : ((State.limbKeep s t)).bare = s.bare := bare_of
    (State.limbKeep_core s t)
@[simp] theorem State.limbKeep_pins (s : State) (t : Nat) : ((State.limbKeep s t)).pins = s.pins := pins_of
    (State.limbKeep_core s t)
@[simp] theorem State.limbToken_rest (s : State) (tok : BitVec 16) : ((State.limbToken s tok)).rest = s.rest :=
    rest_of (State.limbToken_core s tok)
@[simp] theorem State.limbToken_nvdWf (s : State) (tok : BitVec 16) : ((State.limbToken s tok)).nvdWf = s.nvdWf :=
    nvdWf_of (State.limbToken_core s tok)
@[simp] theorem State.limbToken_bare (s : State) (tok : BitVec 16) : ((State.limbToken s tok)).bare = s.bare :=
    bare_of (State.limbToken_core s tok)
@[simp] theorem State.limbToken_pins (s : State) (tok : BitVec 16) : ((State.limbToken s tok)).pins = s.pins :=
    pins_of (State.limbToken_core s tok)
@[simp] theorem State.busToken_rest (s : State) (x : Nat) (slot : Nat) (tok : BitVec 16) : ((State.busToken s x slot
    tok)).rest = s.rest := rest_of (State.busToken_core s x slot tok)
@[simp] theorem State.busToken_nvdWf (s : State) (x : Nat) (slot : Nat) (tok : BitVec 16) : ((State.busToken s x slot
    tok)).nvdWf = s.nvdWf := nvdWf_of (State.busToken_core s x slot tok)
@[simp] theorem State.busToken_bare (s : State) (x : Nat) (slot : Nat) (tok : BitVec 16) : ((State.busToken s x slot
    tok)).bare = s.bare := bare_of (State.busToken_core s x slot tok)
@[simp] theorem State.busToken_pins (s : State) (x : Nat) (slot : Nat) (tok : BitVec 16) : ((State.busToken s x slot
    tok)).pins = s.pins := pins_of (State.busToken_core s x slot tok)
@[simp] theorem State.loopResults_rest (s : State) (f : BitVec 128) (x : Nat) : ((State.loopResults s f x)).rest =
    s.rest := rest_of (State.loopResults_core s f x)
@[simp] theorem State.loopResults_nvdWf (s : State) (f : BitVec 128) (x : Nat) : ((State.loopResults s f x)).nvdWf =
    s.nvdWf := nvdWf_of (State.loopResults_core s f x)
@[simp] theorem State.loopResults_bare (s : State) (f : BitVec 128) (x : Nat) : ((State.loopResults s f x)).bare =
    s.bare := bare_of (State.loopResults_core s f x)
@[simp] theorem State.loopResults_pins (s : State) (f : BitVec 128) (x : Nat) : ((State.loopResults s f x)).pins =
    s.pins := pins_of (State.loopResults_core s f x)
@[simp] theorem State.loopWrite_rest (s : State) (data : W32) (be : BitVec 4) : ((State.loopWrite s data be).st).rest
    = s.rest := rest_of (State.loopWrite_core s data be)
@[simp] theorem State.loopWrite_nvdWf (s : State) (data : W32) (be : BitVec 4) : ((State.loopWrite s data
    be).st).nvdWf = s.nvdWf := nvdWf_of (State.loopWrite_core s data be)
@[simp] theorem State.loopWrite_bare (s : State) (data : W32) (be : BitVec 4) : ((State.loopWrite s data be).st).bare
    = s.bare := bare_of (State.loopWrite_core s data be)
@[simp] theorem State.loopWrite_pins (s : State) (data : W32) (be : BitVec 4) : ((State.loopWrite s data be).st).pins
    = s.pins := pins_of (State.loopWrite_core s data be)
@[simp] theorem State.throttleWrite_rest (s : State) (data : W32) (be : BitVec 4) : ((State.throttleWrite s data
    be).st).rest = s.rest := rest_of (State.throttleWrite_core s data be)
@[simp] theorem State.throttleWrite_nvdWf (s : State) (data : W32) (be : BitVec 4) : ((State.throttleWrite s data
    be).st).nvdWf = s.nvdWf := nvdWf_of (State.throttleWrite_core s data be)
@[simp] theorem State.throttleWrite_bare (s : State) (data : W32) (be : BitVec 4) : ((State.throttleWrite s data
    be).st).bare = s.bare := bare_of (State.throttleWrite_core s data be)
@[simp] theorem State.throttleWrite_pins (s : State) (data : W32) (be : BitVec 4) : ((State.throttleWrite s data
    be).st).pins = s.pins := pins_of (State.throttleWrite_core s data be)
@[simp] theorem State.throttleAlias_rest (s : State) (data : W32) (be : BitVec 4) : ((State.throttleAlias s data
    be).st).rest = s.rest := rest_of (State.throttleAlias_core s data be)
@[simp] theorem State.throttleAlias_nvdWf (s : State) (data : W32) (be : BitVec 4) : ((State.throttleAlias s data
    be).st).nvdWf = s.nvdWf := nvdWf_of (State.throttleAlias_core s data be)
@[simp] theorem State.throttleAlias_bare (s : State) (data : W32) (be : BitVec 4) : ((State.throttleAlias s data
    be).st).bare = s.bare := bare_of (State.throttleAlias_core s data be)
@[simp] theorem State.throttleAlias_pins (s : State) (data : W32) (be : BitVec 4) : ((State.throttleAlias s data
    be).st).pins = s.pins := pins_of (State.throttleAlias_core s data be)
@[simp] theorem State.runFirst_rest (s : State) : ((State.runFirst s)).rest = s.rest := rest_of (State.runFirst_core
    s)
@[simp] theorem State.runFirst_nvdWf (s : State) : ((State.runFirst s)).nvdWf = s.nvdWf := nvdWf_of
    (State.runFirst_core s)
@[simp] theorem State.runFirst_bare (s : State) : ((State.runFirst s)).bare = s.bare := bare_of (State.runFirst_core
    s)
@[simp] theorem State.runFirst_pins (s : State) : ((State.runFirst s)).pins = s.pins := pins_of (State.runFirst_core
    s)
@[simp] theorem State.groupBoundary_rest (s : State) : ((State.groupBoundary s)).rest = s.rest := rest_of
    (State.groupBoundary_core s)
@[simp] theorem State.groupBoundary_nvdWf (s : State) : ((State.groupBoundary s)).nvdWf = s.nvdWf := nvdWf_of
    (State.groupBoundary_core s)
@[simp] theorem State.groupBoundary_bare (s : State) : ((State.groupBoundary s)).bare = s.bare := bare_of
    (State.groupBoundary_core s)
@[simp] theorem State.groupBoundary_pins (s : State) : ((State.groupBoundary s)).pins = s.pins := pins_of
    (State.groupBoundary_core s)
@[simp] theorem State.openSlice_rest (s : State) (n : Nat) : ((State.openSlice s n)).rest = s.rest := rest_of
    (State.openSlice_core s n)
@[simp] theorem State.openSlice_nvdWf (s : State) (n : Nat) : ((State.openSlice s n)).nvdWf = s.nvdWf := nvdWf_of
    (State.openSlice_core s n)
@[simp] theorem State.openSlice_bare (s : State) (n : Nat) : ((State.openSlice s n)).bare = s.bare := bare_of
    (State.openSlice_core s n)
@[simp] theorem State.openSlice_pins (s : State) (n : Nat) : ((State.openSlice s n)).pins = s.pins := pins_of
    (State.openSlice_core s n)
@[simp] theorem State.pantryLoss_rest (s : State) (n : Nat) (src : Nat) (ch : Nat) (count : Nat) : ((State.pantryLoss
    s n src ch count)).rest = s.rest := rest_of (State.pantryLoss_core s n src ch count)
@[simp] theorem State.pantryLoss_nvdWf (s : State) (n : Nat) (src : Nat) (ch : Nat) (count : Nat) : ((State.pantryLoss
    s n src ch count)).nvdWf = s.nvdWf := nvdWf_of (State.pantryLoss_core s n src ch count)
@[simp] theorem State.pantryLoss_bare (s : State) (n : Nat) (src : Nat) (ch : Nat) (count : Nat) : ((State.pantryLoss
    s n src ch count)).bare = s.bare := bare_of (State.pantryLoss_core s n src ch count)
@[simp] theorem State.pantryLoss_pins (s : State) (n : Nat) (src : Nat) (ch : Nat) (count : Nat) : ((State.pantryLoss
    s n src ch count)).pins = s.pins := pins_of (State.pantryLoss_core s n src ch count)
@[simp] theorem State.recordSection_rest (s : State) (n : Nat) (level : Nat) : ((State.recordSection s n
    level).2).rest = s.rest := rest_of (State.recordSection_core s n level)
@[simp] theorem State.recordSection_nvdWf (s : State) (n : Nat) (level : Nat) : ((State.recordSection s n
    level).2).nvdWf = s.nvdWf := nvdWf_of (State.recordSection_core s n level)
@[simp] theorem State.recordSection_bare (s : State) (n : Nat) (level : Nat) : ((State.recordSection s n
    level).2).bare = s.bare := bare_of (State.recordSection_core s n level)
@[simp] theorem State.recordSection_pins (s : State) (n : Nat) (level : Nat) : ((State.recordSection s n
    level).2).pins = s.pins := pins_of (State.recordSection_core s n level)
@[simp] theorem State.frameLosses_rest (s : State) (n : Nat) : ((State.frameLosses s n)).rest = s.rest := rest_of
    (State.frameLosses_core s n)
@[simp] theorem State.frameLosses_nvdWf (s : State) (n : Nat) : ((State.frameLosses s n)).nvdWf = s.nvdWf := nvdWf_of
    (State.frameLosses_core s n)
@[simp] theorem State.frameLosses_bare (s : State) (n : Nat) : ((State.frameLosses s n)).bare = s.bare := bare_of
    (State.frameLosses_core s n)
@[simp] theorem State.frameLosses_pins (s : State) (n : Nat) : ((State.frameLosses s n)).pins = s.pins := pins_of
    (State.frameLosses_core s n)
@[simp] theorem State.retirePeers_rest (s : State) (n : Nat) : ((State.retirePeers s n)).rest = s.rest := rest_of
    (State.retirePeers_core s n)
@[simp] theorem State.retirePeers_nvdWf (s : State) (n : Nat) : ((State.retirePeers s n)).nvdWf = s.nvdWf := nvdWf_of
    (State.retirePeers_core s n)
@[simp] theorem State.retirePeers_bare (s : State) (n : Nat) : ((State.retirePeers s n)).bare = s.bare := bare_of
    (State.retirePeers_core s n)
@[simp] theorem State.retirePeers_pins (s : State) (n : Nat) : ((State.retirePeers s n)).pins = s.pins := pins_of
    (State.retirePeers_core s n)
@[simp] theorem State.afterSlice_rest (s : State) (n : Nat) : ((State.afterSlice s n)).rest = s.rest := rest_of
    (State.afterSlice_core s n)
@[simp] theorem State.afterSlice_nvdWf (s : State) (n : Nat) : ((State.afterSlice s n)).nvdWf = s.nvdWf := nvdWf_of
    (State.afterSlice_core s n)
@[simp] theorem State.afterSlice_bare (s : State) (n : Nat) : ((State.afterSlice s n)).bare = s.bare := bare_of
    (State.afterSlice_core s n)
@[simp] theorem State.afterSlice_pins (s : State) (n : Nat) : ((State.afterSlice s n)).pins = s.pins := pins_of
    (State.afterSlice_core s n)
@[simp] theorem State.readDrained_rest (s : State) (n : Nat) : ((State.readDrained s n)).rest = s.rest := rest_of
    (State.readDrained_core s n)
@[simp] theorem State.readDrained_nvdWf (s : State) (n : Nat) : ((State.readDrained s n)).nvdWf = s.nvdWf := nvdWf_of
    (State.readDrained_core s n)
@[simp] theorem State.readDrained_bare (s : State) (n : Nat) : ((State.readDrained s n)).bare = s.bare := bare_of
    (State.readDrained_core s n)
@[simp] theorem State.readDrained_pins (s : State) (n : Nat) : ((State.readDrained s n)).pins = s.pins := pins_of
    (State.readDrained_core s n)
@[simp] theorem State.buildFrame_rest (s : State) : ((State.buildFrame s)).rest = s.rest := rest_of
    (State.buildFrame_core s)
@[simp] theorem State.buildFrame_nvdWf (s : State) : ((State.buildFrame s)).nvdWf = s.nvdWf := nvdWf_of
    (State.buildFrame_core s)
@[simp] theorem State.buildFrame_bare (s : State) : ((State.buildFrame s)).bare = s.bare := bare_of
    (State.buildFrame_core s)
@[simp] theorem State.buildFrame_pins (s : State) : ((State.buildFrame s)).pins = s.pins := pins_of
    (State.buildFrame_core s)
@[simp] theorem State.gapSlice_rest (s : State) (n : Nat) (cause : Nat) : ((State.gapSlice s n cause)).rest = s.rest
    := rest_of (State.gapSlice_core s n cause)
@[simp] theorem State.gapSlice_nvdWf (s : State) (n : Nat) (cause : Nat) : ((State.gapSlice s n cause)).nvdWf =
    s.nvdWf := nvdWf_of (State.gapSlice_core s n cause)
@[simp] theorem State.gapSlice_bare (s : State) (n : Nat) (cause : Nat) : ((State.gapSlice s n cause)).bare = s.bare
    := bare_of (State.gapSlice_core s n cause)
@[simp] theorem State.gapSlice_pins (s : State) (n : Nat) (cause : Nat) : ((State.gapSlice s n cause)).pins = s.pins
    := pins_of (State.gapSlice_core s n cause)
@[simp] theorem State.drainNext_rest (s : State) : ((State.drainNext s)).rest = s.rest := rest_of
    (State.drainNext_core s)
@[simp] theorem State.drainNext_nvdWf (s : State) : ((State.drainNext s)).nvdWf = s.nvdWf := nvdWf_of
    (State.drainNext_core s)
@[simp] theorem State.drainNext_bare (s : State) : ((State.drainNext s)).bare = s.bare := bare_of
    (State.drainNext_core s)
@[simp] theorem State.drainNext_pins (s : State) : ((State.drainNext s)).pins = s.pins := pins_of
    (State.drainNext_core s)
@[simp] theorem State.startHeadFrame_rest (s : State) : ((State.startHeadFrame s)).rest = s.rest := rest_of
    (State.startHeadFrame_core s)
@[simp] theorem State.startHeadFrame_nvdWf (s : State) : ((State.startHeadFrame s)).nvdWf = s.nvdWf := nvdWf_of
    (State.startHeadFrame_core s)
@[simp] theorem State.startHeadFrame_bare (s : State) : ((State.startHeadFrame s)).bare = s.bare := bare_of
    (State.startHeadFrame_core s)
@[simp] theorem State.startHeadFrame_pins (s : State) : ((State.startHeadFrame s)).pins = s.pins := pins_of
    (State.startHeadFrame_core s)
@[simp] theorem State.failCd_rest (s : State) (b : Bool) : ((State.failCd s b)).rest = s.rest := rest_of
    (State.failCd_core s b)
@[simp] theorem State.failCd_nvdWf (s : State) (b : Bool) : ((State.failCd s b)).nvdWf = s.nvdWf := nvdWf_of
    (State.failCd_core s b)
@[simp] theorem State.failCd_bare (s : State) (b : Bool) : ((State.failCd s b)).bare = s.bare := bare_of
    (State.failCd_core s b)
@[simp] theorem State.failCd_pins (s : State) (b : Bool) : ((State.failCd s b)).pins = s.pins := pins_of
    (State.failCd_core s b)
@[simp] theorem State.countFail_rest (s : State) : ((State.countFail s)).rest = s.rest := rest_of
    (State.countFail_core s)
@[simp] theorem State.countFail_nvdWf (s : State) : ((State.countFail s)).nvdWf = s.nvdWf := nvdWf_of
    (State.countFail_core s)
@[simp] theorem State.countFail_bare (s : State) : ((State.countFail s)).bare = s.bare := bare_of
    (State.countFail_core s)
@[simp] theorem State.countFail_pins (s : State) : ((State.countFail s)).pins = s.pins := pins_of
    (State.countFail_core s)
@[simp] theorem State.dropLater_rest (s : State) (m : Nat) : ((State.dropLater s m)).rest = s.rest := rest_of
    (State.dropLater_core s m)
@[simp] theorem State.dropLater_nvdWf (s : State) (m : Nat) : ((State.dropLater s m)).nvdWf = s.nvdWf := nvdWf_of
    (State.dropLater_core s m)
@[simp] theorem State.dropLater_bare (s : State) (m : Nat) : ((State.dropLater s m)).bare = s.bare := bare_of
    (State.dropLater_core s m)
@[simp] theorem State.dropLater_pins (s : State) (m : Nat) : ((State.dropLater s m)).pins = s.pins := pins_of
    (State.dropLater_core s m)
@[simp] theorem State.deadCd_rest (s : State) : ((State.deadCd s)).rest = s.rest := rest_of (State.deadCd_core s)
@[simp] theorem State.deadCd_nvdWf (s : State) : ((State.deadCd s)).nvdWf = s.nvdWf := nvdWf_of (State.deadCd_core s)
@[simp] theorem State.deadCd_bare (s : State) : ((State.deadCd s)).bare = s.bare := bare_of (State.deadCd_core s)
@[simp] theorem State.deadCd_pins (s : State) : ((State.deadCd s)).pins = s.pins := pins_of (State.deadCd_core s)
@[simp] theorem State.switchOver_rest (s : State) (cause : Nat) : ((State.switchOver s cause)).rest = s.rest :=
    rest_of (State.switchOver_core s cause)
@[simp] theorem State.switchOver_nvdWf (s : State) (cause : Nat) : ((State.switchOver s cause)).nvdWf = s.nvdWf :=
    nvdWf_of (State.switchOver_core s cause)
@[simp] theorem State.switchOver_bare (s : State) (cause : Nat) : ((State.switchOver s cause)).bare = s.bare :=
    bare_of (State.switchOver_core s cause)
@[simp] theorem State.switchOver_pins (s : State) (cause : Nat) : ((State.switchOver s cause)).pins = s.pins :=
    pins_of (State.switchOver_core s cause)
@[simp] theorem State.sameCycle_rest (s : State) (cause : Nat) : ((State.sameCycle s cause)).rest = s.rest := rest_of
    (State.sameCycle_core s cause)
@[simp] theorem State.sameCycle_nvdWf (s : State) (cause : Nat) : ((State.sameCycle s cause)).nvdWf = s.nvdWf :=
    nvdWf_of (State.sameCycle_core s cause)
@[simp] theorem State.sameCycle_bare (s : State) (cause : Nat) : ((State.sameCycle s cause)).bare = s.bare := bare_of
    (State.sameCycle_core s cause)
@[simp] theorem State.sameCycle_pins (s : State) (cause : Nat) : ((State.sameCycle s cause)).pins = s.pins := pins_of
    (State.sameCycle_core s cause)
@[simp] theorem State.swCause_rest (s : State) (cause : Nat) : ((State.swCause s cause)).rest = s.rest := rest_of
    (State.swCause_core s cause)
@[simp] theorem State.swCause_nvdWf (s : State) (cause : Nat) : ((State.swCause s cause)).nvdWf = s.nvdWf := nvdWf_of
    (State.swCause_core s cause)
@[simp] theorem State.swCause_bare (s : State) (cause : Nat) : ((State.swCause s cause)).bare = s.bare := bare_of
    (State.swCause_core s cause)
@[simp] theorem State.swCause_pins (s : State) (cause : Nat) : ((State.swCause s cause)).pins = s.pins := pins_of
    (State.swCause_core s cause)
@[simp] theorem State.rejoinFails_rest (s : State) (b : Bool) : ((State.rejoinFails s b)).rest = s.rest := rest_of
    (State.rejoinFails_core s b)
@[simp] theorem State.rejoinFails_nvdWf (s : State) (b : Bool) : ((State.rejoinFails s b)).nvdWf = s.nvdWf := nvdWf_of
    (State.rejoinFails_core s b)
@[simp] theorem State.rejoinFails_bare (s : State) (b : Bool) : ((State.rejoinFails s b)).bare = s.bare := bare_of
    (State.rejoinFails_core s b)
@[simp] theorem State.rejoinFails_pins (s : State) (b : Bool) : ((State.rejoinFails s b)).pins = s.pins := pins_of
    (State.rejoinFails_core s b)
@[simp] theorem State.cdCause_rest (s : State) (d : Die) (cause : Nat) : ((State.cdCause s d cause)).rest = s.rest :=
    rest_of (State.cdCause_core s d cause)
@[simp] theorem State.cdCause_nvdWf (s : State) (d : Die) (cause : Nat) : ((State.cdCause s d cause)).nvdWf = s.nvdWf
    := nvdWf_of (State.cdCause_core s d cause)
@[simp] theorem State.cdCause_bare (s : State) (d : Die) (cause : Nat) : ((State.cdCause s d cause)).bare = s.bare :=
    bare_of (State.cdCause_core s d cause)
@[simp] theorem State.cdCause_pins (s : State) (d : Die) (cause : Nat) : ((State.cdCause s d cause)).pins = s.pins :=
    pins_of (State.cdCause_core s d cause)
@[simp] theorem State.settleCrit_rest (s : State) : ((State.settleCrit s)).rest = s.rest := rest_of
    (State.settleCrit_core s)
@[simp] theorem State.settleCrit_nvdWf (s : State) : ((State.settleCrit s)).nvdWf = s.nvdWf := nvdWf_of
    (State.settleCrit_core s)
@[simp] theorem State.settleCrit_bare (s : State) : ((State.settleCrit s)).bare = s.bare := bare_of
    (State.settleCrit_core s)
@[simp] theorem State.settleCrit_pins (s : State) : ((State.settleCrit s)).pins = s.pins := pins_of
    (State.settleCrit_core s)
@[simp] theorem State.startRejoin_rest (s : State) : ((State.startRejoin s)).rest = s.rest := rest_of
    (State.startRejoin_core s)
@[simp] theorem State.startRejoin_nvdWf (s : State) : ((State.startRejoin s)).nvdWf = s.nvdWf := nvdWf_of
    (State.startRejoin_core s)
@[simp] theorem State.startRejoin_bare (s : State) : ((State.startRejoin s)).bare = s.bare := bare_of
    (State.startRejoin_core s)
@[simp] theorem State.startRejoin_pins (s : State) : ((State.startRejoin s)).pins = s.pins := pins_of
    (State.startRejoin_core s)
@[simp] theorem State.rdCmdWrite_rest (s : State) (data : W32) (be : BitVec 4) : ((State.rdCmdWrite s data
    be).st).rest = s.rest := rest_of (State.rdCmdWrite_core s data be)
@[simp] theorem State.rdCmdWrite_nvdWf (s : State) (data : W32) (be : BitVec 4) : ((State.rdCmdWrite s data
    be).st).nvdWf = s.nvdWf := nvdWf_of (State.rdCmdWrite_core s data be)
@[simp] theorem State.rdCmdWrite_bare (s : State) (data : W32) (be : BitVec 4) : ((State.rdCmdWrite s data
    be).st).bare = s.bare := bare_of (State.rdCmdWrite_core s data be)
@[simp] theorem State.rdCmdWrite_pins (s : State) (data : W32) (be : BitVec 4) : ((State.rdCmdWrite s data
    be).st).pins = s.pins := pins_of (State.rdCmdWrite_core s data be)
@[simp] theorem State.copyCfg_rest (s : State) (k k' : Nat) : ((State.copyCfg s k k')).rest = s.rest := rest_of
    (State.copyCfg_core s k k')
@[simp] theorem State.copyCfg_nvdWf (s : State) (k k' : Nat) : ((State.copyCfg s k k')).nvdWf = s.nvdWf := nvdWf_of
    (State.copyCfg_core s k k')
@[simp] theorem State.copyCfg_bare (s : State) (k k' : Nat) : ((State.copyCfg s k k')).bare = s.bare := bare_of
    (State.copyCfg_core s k k')
@[simp] theorem State.copyCfg_pins (s : State) (k k' : Nat) : ((State.copyCfg s k k')).pins = s.pins := pins_of
    (State.copyCfg_core s k k')
@[simp] theorem State.mirrorAll_rest (s : State) : ((State.mirrorAll s)).rest = s.rest := rest_of
    (State.mirrorAll_core s)
@[simp] theorem State.mirrorAll_nvdWf (s : State) : ((State.mirrorAll s)).nvdWf = s.nvdWf := nvdWf_of
    (State.mirrorAll_core s)
@[simp] theorem State.mirrorAll_bare (s : State) : ((State.mirrorAll s)).bare = s.bare := bare_of
    (State.mirrorAll_core s)
@[simp] theorem State.mirrorAll_pins (s : State) : ((State.mirrorAll s)).pins = s.pins := pins_of
    (State.mirrorAll_core s)
@[simp] theorem State.cutFirst_rest (s : State) : ((State.cutFirst s)).rest = s.rest := rest_of (State.cutFirst_core
    s)
@[simp] theorem State.cutFirst_nvdWf (s : State) : ((State.cutFirst s)).nvdWf = s.nvdWf := nvdWf_of
    (State.cutFirst_core s)
@[simp] theorem State.cutFirst_bare (s : State) : ((State.cutFirst s)).bare = s.bare := bare_of (State.cutFirst_core
    s)
@[simp] theorem State.cutFirst_pins (s : State) : ((State.cutFirst s)).pins = s.pins := pins_of (State.cutFirst_core
    s)
@[simp] theorem State.endFirst_rest (s : State) : ((State.endFirst s)).rest = s.rest := rest_of (State.endFirst_core
    s)
@[simp] theorem State.endFirst_nvdWf (s : State) : ((State.endFirst s)).nvdWf = s.nvdWf := nvdWf_of
    (State.endFirst_core s)
@[simp] theorem State.endFirst_bare (s : State) : ((State.endFirst s)).bare = s.bare := bare_of (State.endFirst_core
    s)
@[simp] theorem State.endFirst_pins (s : State) : ((State.endFirst s)).pins = s.pins := pins_of (State.endFirst_core
    s)
@[simp] theorem State.restartShort_rest (s : State) : ((State.restartShort s)).rest = s.rest := rest_of
    (State.restartShort_core s)
@[simp] theorem State.restartShort_nvdWf (s : State) : ((State.restartShort s)).nvdWf = s.nvdWf := nvdWf_of
    (State.restartShort_core s)
@[simp] theorem State.restartShort_bare (s : State) : ((State.restartShort s)).bare = s.bare := bare_of
    (State.restartShort_core s)
@[simp] theorem State.restartShort_pins (s : State) : ((State.restartShort s)).pins = s.pins := pins_of
    (State.restartShort_core s)
@[simp] theorem State.handOver_rest (s : State) (b : Block) : ((State.handOver s b)).rest = s.rest := rest_of
    (State.handOver_core s b)
@[simp] theorem State.handOver_nvdWf (s : State) (b : Block) : ((State.handOver s b)).nvdWf = s.nvdWf := nvdWf_of
    (State.handOver_core s b)
@[simp] theorem State.handOver_bare (s : State) (b : Block) : ((State.handOver s b)).bare = s.bare := bare_of
    (State.handOver_core s b)
@[simp] theorem State.handOver_pins (s : State) (b : Block) : ((State.handOver s b)).pins = s.pins := pins_of
    (State.handOver_core s b)
@[simp] theorem State.makeRoom_rest (x0 : Nat) (x1 : Nat) (x2 : State) : ((State.makeRoom x0 x1 x2)).rest = x2.rest :=
    rest_of (State.makeRoom_core x0 x1 x2)
@[simp] theorem State.makeRoom_nvdWf (x0 : Nat) (x1 : Nat) (x2 : State) : ((State.makeRoom x0 x1 x2)).nvdWf = x2.nvdWf
    := nvdWf_of (State.makeRoom_core x0 x1 x2)
@[simp] theorem State.makeRoom_bare (x0 : Nat) (x1 : Nat) (x2 : State) : ((State.makeRoom x0 x1 x2)).bare = x2.bare :=
    bare_of (State.makeRoom_core x0 x1 x2)
@[simp] theorem State.makeRoom_pins (x0 : Nat) (x1 : Nat) (x2 : State) : ((State.makeRoom x0 x1 x2)).pins = x2.pins :=
    pins_of (State.makeRoom_core x0 x1 x2)
@[simp] theorem State.grantSpace_rest (s : State) (want : Nat) : ((State.grantSpace s want).2).rest = s.rest :=
    rest_of (State.grantSpace_core s want)
@[simp] theorem State.grantSpace_nvdWf (s : State) (want : Nat) : ((State.grantSpace s want).2).nvdWf = s.nvdWf :=
    nvdWf_of (State.grantSpace_core s want)
@[simp] theorem State.grantSpace_bare (s : State) (want : Nat) : ((State.grantSpace s want).2).bare = s.bare :=
    bare_of (State.grantSpace_core s want)
@[simp] theorem State.grantSpace_pins (s : State) (want : Nat) : ((State.grantSpace s want).2).pins = s.pins :=
    pins_of (State.grantSpace_core s want)
@[simp] theorem State.buffer_rest (s : State) (b : Block) : ((State.buffer s b)).rest = s.rest := rest_of
    (State.buffer_core s b)
@[simp] theorem State.buffer_nvdWf (s : State) (b : Block) : ((State.buffer s b)).nvdWf = s.nvdWf := nvdWf_of
    (State.buffer_core s b)
@[simp] theorem State.buffer_bare (s : State) (b : Block) : ((State.buffer s b)).bare = s.bare := bare_of
    (State.buffer_core s b)
@[simp] theorem State.buffer_pins (s : State) (b : Block) : ((State.buffer s b)).pins = s.pins := pins_of
    (State.buffer_core s b)
@[simp] theorem State.passBlock_rest (s : State) (b : Block) : ((State.passBlock s b)).rest = s.rest := rest_of
    (State.passBlock_core s b)
@[simp] theorem State.passBlock_nvdWf (s : State) (b : Block) : ((State.passBlock s b)).nvdWf = s.nvdWf := nvdWf_of
    (State.passBlock_core s b)
@[simp] theorem State.passBlock_bare (s : State) (b : Block) : ((State.passBlock s b)).bare = s.bare := bare_of
    (State.passBlock_core s b)
@[simp] theorem State.passBlock_pins (s : State) (b : Block) : ((State.passBlock s b)).pins = s.pins := pins_of
    (State.passBlock_core s b)
@[simp] theorem State.stall_rest (s : State) : ((State.stall s)).rest = s.rest := rest_of (State.stall_core s)
@[simp] theorem State.stall_nvdWf (s : State) : ((State.stall s)).nvdWf = s.nvdWf := nvdWf_of (State.stall_core s)
@[simp] theorem State.stall_bare (s : State) : ((State.stall s)).bare = s.bare := bare_of (State.stall_core s)
@[simp] theorem State.stall_pins (s : State) : ((State.stall s)).pins = s.pins := pins_of (State.stall_core s)
@[simp] theorem State.readInput_rest (s : State) (j : Job) : ((State.readInput s j).2).rest = s.rest := rest_of
    (State.readInput_core s j)
@[simp] theorem State.readInput_nvdWf (s : State) (j : Job) : ((State.readInput s j).2).nvdWf = s.nvdWf := nvdWf_of
    (State.readInput_core s j)
@[simp] theorem State.readInput_bare (s : State) (j : Job) : ((State.readInput s j).2).bare = s.bare := bare_of
    (State.readInput_core s j)
@[simp] theorem State.readInput_pins (s : State) (j : Job) : ((State.readInput s j).2).pins = s.pins := pins_of
    (State.readInput_core s j)
@[simp] theorem State.capture_rest (s : State) (e : XpdErr) (peer : Bool) (b : Block) (unit : Nat) (lane : Nat) :
    ((State.capture s e peer b unit lane)).rest = s.rest := rest_of (State.capture_core s e peer b unit lane)
@[simp] theorem State.capture_nvdWf (s : State) (e : XpdErr) (peer : Bool) (b : Block) (unit : Nat) (lane : Nat) :
    ((State.capture s e peer b unit lane)).nvdWf = s.nvdWf := nvdWf_of (State.capture_core s e peer b unit lane)
@[simp] theorem State.capture_bare (s : State) (e : XpdErr) (peer : Bool) (b : Block) (unit : Nat) (lane : Nat) :
    ((State.capture s e peer b unit lane)).bare = s.bare := bare_of (State.capture_core s e peer b unit lane)
@[simp] theorem State.capture_pins (s : State) (e : XpdErr) (peer : Bool) (b : Block) (unit : Nat) (lane : Nat) :
    ((State.capture s e peer b unit lane)).pins = s.pins := pins_of (State.capture_core s e peer b unit lane)
@[simp] theorem State.verifyFail_rest (s : State) (j : Job) (b : Block) (e : XpdErr) : ((State.verifyFail s j b
    e)).rest = s.rest := rest_of (State.verifyFail_core s j b e)
@[simp] theorem State.verifyFail_nvdWf (s : State) (j : Job) (b : Block) (e : XpdErr) : ((State.verifyFail s j b
    e)).nvdWf = s.nvdWf := nvdWf_of (State.verifyFail_core s j b e)
@[simp] theorem State.verifyFail_bare (s : State) (j : Job) (b : Block) (e : XpdErr) : ((State.verifyFail s j b
    e)).bare = s.bare := bare_of (State.verifyFail_core s j b e)
@[simp] theorem State.verifyFail_pins (s : State) (j : Job) (b : Block) (e : XpdErr) : ((State.verifyFail s j b
    e)).pins = s.pins := pins_of (State.verifyFail_core s j b e)
@[simp] theorem State.aloneLost_rest (s : State) (b : Block) (held : Option Nat) : ((State.aloneLost s b held)).rest =
    s.rest := rest_of (State.aloneLost_core s b held)
@[simp] theorem State.aloneLost_nvdWf (s : State) (b : Block) (held : Option Nat) : ((State.aloneLost s b held)).nvdWf
    = s.nvdWf := nvdWf_of (State.aloneLost_core s b held)
@[simp] theorem State.aloneLost_bare (s : State) (b : Block) (held : Option Nat) : ((State.aloneLost s b held)).bare =
    s.bare := bare_of (State.aloneLost_core s b held)
@[simp] theorem State.aloneLost_pins (s : State) (b : Block) (held : Option Nat) : ((State.aloneLost s b held)).pins =
    s.pins := pins_of (State.aloneLost_core s b held)
@[simp] theorem State.peerLoss_rest (s : State) (n : Nat) (src : Nat) (lo : Nat) (hi : Nat) (count : Nat) (cause :
    Nat) : ((State.peerLoss s n src lo hi count cause)).rest = s.rest := rest_of (State.peerLoss_core s n src lo hi
    count cause)
@[simp] theorem State.peerLoss_nvdWf (s : State) (n : Nat) (src : Nat) (lo : Nat) (hi : Nat) (count : Nat) (cause :
    Nat) : ((State.peerLoss s n src lo hi count cause)).nvdWf = s.nvdWf := nvdWf_of (State.peerLoss_core s n src lo hi
    count cause)
@[simp] theorem State.peerLoss_bare (s : State) (n : Nat) (src : Nat) (lo : Nat) (hi : Nat) (count : Nat) (cause :
    Nat) : ((State.peerLoss s n src lo hi count cause)).bare = s.bare := bare_of (State.peerLoss_core s n src lo hi
    count cause)
@[simp] theorem State.peerLoss_pins (s : State) (n : Nat) (src : Nat) (lo : Nat) (hi : Nat) (count : Nat) (cause :
    Nat) : ((State.peerLoss s n src lo hi count cause)).pins = s.pins := pins_of (State.peerLoss_core s n src lo hi
    count cause)
@[simp] theorem State.closeBad_rest (s : State) (src : Nat) (hi : Nat) : ((State.closeBad s src hi)).rest = s.rest :=
    rest_of (State.closeBad_core s src hi)
@[simp] theorem State.closeBad_nvdWf (s : State) (src : Nat) (hi : Nat) : ((State.closeBad s src hi)).nvdWf = s.nvdWf
    := nvdWf_of (State.closeBad_core s src hi)
@[simp] theorem State.closeBad_bare (s : State) (src : Nat) (hi : Nat) : ((State.closeBad s src hi)).bare = s.bare :=
    bare_of (State.closeBad_core s src hi)
@[simp] theorem State.closeBad_pins (s : State) (src : Nat) (hi : Nat) : ((State.closeBad s src hi)).pins = s.pins :=
    pins_of (State.closeBad_core s src hi)
@[simp] theorem State.peerDone_rest (s : State) (src : Nat) (n : Nat) : ((State.peerDone s src n)).rest = s.rest :=
    rest_of (State.peerDone_core s src n)
@[simp] theorem State.peerDone_nvdWf (s : State) (src : Nat) (n : Nat) : ((State.peerDone s src n)).nvdWf = s.nvdWf :=
    nvdWf_of (State.peerDone_core s src n)
@[simp] theorem State.peerDone_bare (s : State) (src : Nat) (n : Nat) : ((State.peerDone s src n)).bare = s.bare :=
    bare_of (State.peerDone_core s src n)
@[simp] theorem State.peerDone_pins (s : State) (src : Nat) (n : Nat) : ((State.peerDone s src n)).pins = s.pins :=
    pins_of (State.peerDone_core s src n)
@[simp] theorem State.peerFault_rest (s : State) (src : Nat) (lane : Nat) (b : Block) (e : XpdErr) : ((State.peerFault
    s src lane b e)).rest = s.rest := rest_of (State.peerFault_core s src lane b e)
@[simp] theorem State.peerFault_nvdWf (s : State) (src : Nat) (lane : Nat) (b : Block) (e : XpdErr) :
    ((State.peerFault s src lane b e)).nvdWf = s.nvdWf := nvdWf_of (State.peerFault_core s src lane b e)
@[simp] theorem State.peerFault_bare (s : State) (src : Nat) (lane : Nat) (b : Block) (e : XpdErr) : ((State.peerFault
    s src lane b e)).bare = s.bare := bare_of (State.peerFault_core s src lane b e)
@[simp] theorem State.peerFault_pins (s : State) (src : Nat) (lane : Nat) (b : Block) (e : XpdErr) : ((State.peerFault
    s src lane b e)).pins = s.pins := pins_of (State.peerFault_core s src lane b e)
@[simp] theorem State.peerUnit_rest (s : State) (src : Nat) (n : Nat) (es : List Ent) : ((State.peerUnit s src n
    es)).rest = s.rest := rest_of (State.peerUnit_core s src n es)
@[simp] theorem State.peerUnit_nvdWf (s : State) (src : Nat) (n : Nat) (es : List Ent) : ((State.peerUnit s src n
    es)).nvdWf = s.nvdWf := nvdWf_of (State.peerUnit_core s src n es)
@[simp] theorem State.peerUnit_bare (s : State) (src : Nat) (n : Nat) (es : List Ent) : ((State.peerUnit s src n
    es)).bare = s.bare := bare_of (State.peerUnit_core s src n es)
@[simp] theorem State.peerUnit_pins (s : State) (src : Nat) (n : Nat) (es : List Ent) : ((State.peerUnit s src n
    es)).pins = s.pins := pins_of (State.peerUnit_core s src n es)
@[simp] theorem State.peerLateBlock_rest (s : State) (src : Nat) (hits : Nat) (first last : Bool) :
    ((State.peerLateBlock s src hits first last)).rest = s.rest := rest_of (State.peerLateBlock_core s src hits first
    last)
@[simp] theorem State.peerLateBlock_nvdWf (s : State) (src : Nat) (hits : Nat) (first last : Bool) :
    ((State.peerLateBlock s src hits first last)).nvdWf = s.nvdWf := nvdWf_of (State.peerLateBlock_core s src hits
    first last)
@[simp] theorem State.peerLateBlock_bare (s : State) (src : Nat) (hits : Nat) (first last : Bool) :
    ((State.peerLateBlock s src hits first last)).bare = s.bare := bare_of (State.peerLateBlock_core s src hits first
    last)
@[simp] theorem State.peerLateBlock_pins (s : State) (src : Nat) (hits : Nat) (first last : Bool) :
    ((State.peerLateBlock s src hits first last)).pins = s.pins := pins_of (State.peerLateBlock_core s src hits first
    last)
@[simp] theorem State.peerAlone_rest (s : State) (src : Nat) (w : W64) : ((State.peerAlone s src w)).rest = s.rest :=
    rest_of (State.peerAlone_core s src w)
@[simp] theorem State.peerAlone_nvdWf (s : State) (src : Nat) (w : W64) : ((State.peerAlone s src w)).nvdWf = s.nvdWf
    := nvdWf_of (State.peerAlone_core s src w)
@[simp] theorem State.peerAlone_bare (s : State) (src : Nat) (w : W64) : ((State.peerAlone s src w)).bare = s.bare :=
    bare_of (State.peerAlone_core s src w)
@[simp] theorem State.peerAlone_pins (s : State) (src : Nat) (w : W64) : ((State.peerAlone s src w)).pins = s.pins :=
    pins_of (State.peerAlone_core s src w)
@[simp] theorem State.peerRecords_rest (s : State) (src : Nat) (b : Block) (ws : List W64) : ((State.peerRecords s src
    b ws)).rest = s.rest := rest_of (State.peerRecords_core s src b ws)
@[simp] theorem State.peerRecords_nvdWf (s : State) (src : Nat) (b : Block) (ws : List W64) : ((State.peerRecords s
    src b ws)).nvdWf = s.nvdWf := nvdWf_of (State.peerRecords_core s src b ws)
@[simp] theorem State.peerRecords_bare (s : State) (src : Nat) (b : Block) (ws : List W64) : ((State.peerRecords s src
    b ws)).bare = s.bare := bare_of (State.peerRecords_core s src b ws)
@[simp] theorem State.peerRecords_pins (s : State) (src : Nat) (b : Block) (ws : List W64) : ((State.peerRecords s src
    b ws)).pins = s.pins := pins_of (State.peerRecords_core s src b ws)
@[simp] theorem State.expandNext_rest (s : State) (i : Nat) : ((State.expandNext s i)).rest = s.rest := rest_of
    (State.expandNext_core s i)
@[simp] theorem State.expandNext_nvdWf (s : State) (i : Nat) : ((State.expandNext s i)).nvdWf = s.nvdWf := nvdWf_of
    (State.expandNext_core s i)
@[simp] theorem State.expandNext_bare (s : State) (i : Nat) : ((State.expandNext s i)).bare = s.bare := bare_of
    (State.expandNext_core s i)
@[simp] theorem State.expandNext_pins (s : State) (i : Nat) : ((State.expandNext s i)).pins = s.pins := pins_of
    (State.expandNext_core s i)
@[simp] theorem State.settle_rest (s : State) (queued : List (Nat × Nat)) : ((State.settle s queued)).rest = s.rest :=
    rest_of (State.settle_core s queued)
@[simp] theorem State.settle_nvdWf (s : State) (queued : List (Nat × Nat)) : ((State.settle s queued)).nvdWf = s.nvdWf
    := nvdWf_of (State.settle_core s queued)
@[simp] theorem State.settle_bare (s : State) (queued : List (Nat × Nat)) : ((State.settle s queued)).bare = s.bare :=
    bare_of (State.settle_core s queued)
@[simp] theorem State.settle_pins (s : State) (queued : List (Nat × Nat)) : ((State.settle s queued)).pins = s.pins :=
    pins_of (State.settle_core s queued)
@[simp] theorem State.cutWaiting_rest (s : State) : ((State.cutWaiting s)).rest = s.rest := rest_of
    (State.cutWaiting_core s)
@[simp] theorem State.cutWaiting_nvdWf (s : State) : ((State.cutWaiting s)).nvdWf = s.nvdWf := nvdWf_of
    (State.cutWaiting_core s)
@[simp] theorem State.cutWaiting_bare (s : State) : ((State.cutWaiting s)).bare = s.bare := bare_of
    (State.cutWaiting_core s)
@[simp] theorem State.cutWaiting_pins (s : State) : ((State.cutWaiting s)).pins = s.pins := pins_of
    (State.cutWaiting_core s)
@[simp] theorem State.total_rest (s : State) (i : Nat) (n : Nat) : ((State.total s i n)).rest = s.rest := rest_of
    (State.total_core s i n)
@[simp] theorem State.total_nvdWf (s : State) (i : Nat) (n : Nat) : ((State.total s i n)).nvdWf = s.nvdWf := nvdWf_of
    (State.total_core s i n)
@[simp] theorem State.total_bare (s : State) (i : Nat) (n : Nat) : ((State.total s i n)).bare = s.bare := bare_of
    (State.total_core s i n)
@[simp] theorem State.total_pins (s : State) (i : Nat) (n : Nat) : ((State.total s i n)).pins = s.pins := pins_of
    (State.total_core s i n)
@[simp] theorem State.sendFrame_rest (s : State) (lane : Nat) (f : Frame) (again : Bool) (departs : List Nat) :
    ((State.sendFrame s lane f again departs)).rest = s.rest := rest_of (State.sendFrame_core s lane f again departs)
@[simp] theorem State.sendFrame_nvdWf (s : State) (lane : Nat) (f : Frame) (again : Bool) (departs : List Nat) :
    ((State.sendFrame s lane f again departs)).nvdWf = s.nvdWf := nvdWf_of (State.sendFrame_core s lane f again
    departs)
@[simp] theorem State.sendFrame_bare (s : State) (lane : Nat) (f : Frame) (again : Bool) (departs : List Nat) :
    ((State.sendFrame s lane f again departs)).bare = s.bare := bare_of (State.sendFrame_core s lane f again departs)
@[simp] theorem State.sendFrame_pins (s : State) (lane : Nat) (f : Frame) (again : Bool) (departs : List Nat) :
    ((State.sendFrame s lane f again departs)).pins = s.pins := pins_of (State.sendFrame_core s lane f again departs)
@[simp] theorem State.frameFault_rest (s : State) (lane : Nat) (crc : Bool) : ((State.frameFault s lane crc)).rest =
    s.rest := rest_of (State.frameFault_core s lane crc)
@[simp] theorem State.frameFault_nvdWf (s : State) (lane : Nat) (crc : Bool) : ((State.frameFault s lane crc)).nvdWf =
    s.nvdWf := nvdWf_of (State.frameFault_core s lane crc)
@[simp] theorem State.frameFault_bare (s : State) (lane : Nat) (crc : Bool) : ((State.frameFault s lane crc)).bare =
    s.bare := bare_of (State.frameFault_core s lane crc)
@[simp] theorem State.frameFault_pins (s : State) (lane : Nat) (crc : Bool) : ((State.frameFault s lane crc)).pins =
    s.pins := pins_of (State.frameFault_core s lane crc)
@[simp] theorem State.replayShort_rest (s : State) (src : Nat) : ((State.replayShort s src)).rest = s.rest := rest_of
    (State.replayShort_core s src)
@[simp] theorem State.replayShort_nvdWf (s : State) (src : Nat) : ((State.replayShort s src)).nvdWf = s.nvdWf :=
    nvdWf_of (State.replayShort_core s src)
@[simp] theorem State.replayShort_bare (s : State) (src : Nat) : ((State.replayShort s src)).bare = s.bare := bare_of
    (State.replayShort_core s src)
@[simp] theorem State.replayShort_pins (s : State) (src : Nat) : ((State.replayShort s src)).pins = s.pins := pins_of
    (State.replayShort_core s src)
@[simp] theorem State.peerFrame_rest (s : State) (src : Nat) (fseq : Nat) (bs : List (Nat × Block)) :
    ((State.peerFrame s src fseq bs)).rest = s.rest := rest_of (State.peerFrame_core s src fseq bs)
@[simp] theorem State.peerFrame_nvdWf (s : State) (src : Nat) (fseq : Nat) (bs : List (Nat × Block)) :
    ((State.peerFrame s src fseq bs)).nvdWf = s.nvdWf := nvdWf_of (State.peerFrame_core s src fseq bs)
@[simp] theorem State.peerFrame_bare (s : State) (src : Nat) (fseq : Nat) (bs : List (Nat × Block)) :
    ((State.peerFrame s src fseq bs)).bare = s.bare := bare_of (State.peerFrame_core s src fseq bs)
@[simp] theorem State.peerFrame_pins (s : State) (src : Nat) (fseq : Nat) (bs : List (Nat × Block)) :
    ((State.peerFrame s src fseq bs)).pins = s.pins := pins_of (State.peerFrame_core s src fseq bs)
@[simp] theorem State.dataWhole_rest (s : State) (n : Nat) (head : W64) (body : List W64) : ((State.dataWhole s n head
    body)).rest = s.rest := rest_of (State.dataWhole_core s n head body)
@[simp] theorem State.dataWhole_nvdWf (s : State) (n : Nat) (head : W64) (body : List W64) : ((State.dataWhole s n
    head body)).nvdWf = s.nvdWf := nvdWf_of (State.dataWhole_core s n head body)
@[simp] theorem State.dataWhole_bare (s : State) (n : Nat) (head : W64) (body : List W64) : ((State.dataWhole s n head
    body)).bare = s.bare := bare_of (State.dataWhole_core s n head body)
@[simp] theorem State.dataWhole_pins (s : State) (n : Nat) (head : W64) (body : List W64) : ((State.dataWhole s n head
    body)).pins = s.pins := pins_of (State.dataWhole_core s n head body)
@[simp] theorem State.unitFault_rest (s : State) (lane : Nat) : ((State.unitFault s lane)).rest = s.rest := rest_of
    (State.unitFault_core s lane)
@[simp] theorem State.unitFault_nvdWf (s : State) (lane : Nat) : ((State.unitFault s lane)).nvdWf = s.nvdWf :=
    nvdWf_of (State.unitFault_core s lane)
@[simp] theorem State.unitFault_bare (s : State) (lane : Nat) : ((State.unitFault s lane)).bare = s.bare := bare_of
    (State.unitFault_core s lane)
@[simp] theorem State.unitFault_pins (s : State) (lane : Nat) : ((State.unitFault s lane)).pins = s.pins := pins_of
    (State.unitFault_core s lane)
@[simp] theorem State.unit_rest (s : State) (lane : Nat) (u : W64) (bad : Bool) (accepted : Bool) (go : State → State)
    (h_go : ∀ t, (go t).core = t.core) : ((State.unit s lane u bad accepted go)).rest = s.rest := rest_of
    (State.unit_core s lane u bad accepted go h_go)
@[simp] theorem State.unit_nvdWf (s : State) (lane : Nat) (u : W64) (bad : Bool) (accepted : Bool) (go : State →
    State) (h_go : ∀ t, (go t).core = t.core) : ((State.unit s lane u bad accepted go)).nvdWf = s.nvdWf := nvdWf_of
    (State.unit_core s lane u bad accepted go h_go)
@[simp] theorem State.unit_bare (s : State) (lane : Nat) (u : W64) (bad : Bool) (accepted : Bool) (go : State → State)
    (h_go : ∀ t, (go t).core = t.core) : ((State.unit s lane u bad accepted go)).bare = s.bare := bare_of
    (State.unit_core s lane u bad accepted go h_go)
@[simp] theorem State.unit_pins (s : State) (lane : Nat) (u : W64) (bad : Bool) (accepted : Bool) (go : State → State)
    (h_go : ∀ t, (go t).core = t.core) : ((State.unit s lane u bad accepted go)).pins = s.pins := pins_of
    (State.unit_core s lane u bad accepted go h_go)
@[simp] theorem State.headGen_rest (s : State) (u : W64) (go : State → State) (h_go : ∀ t, (go t).core = t.core) :
    ((State.headGen s u go)).rest = s.rest := rest_of (State.headGen_core s u go h_go)
@[simp] theorem State.headGen_nvdWf (s : State) (u : W64) (go : State → State) (h_go : ∀ t, (go t).core = t.core) :
    ((State.headGen s u go)).nvdWf = s.nvdWf := nvdWf_of (State.headGen_core s u go h_go)
@[simp] theorem State.headGen_bare (s : State) (u : W64) (go : State → State) (h_go : ∀ t, (go t).core = t.core) :
    ((State.headGen s u go)).bare = s.bare := bare_of (State.headGen_core s u go h_go)
@[simp] theorem State.headGen_pins (s : State) (u : W64) (go : State → State) (h_go : ∀ t, (go t).core = t.core) :
    ((State.headGen s u go)).pins = s.pins := pins_of (State.headGen_core s u go h_go)
@[simp] theorem State.refusePeer_rest (s : State) (n : Nat) : ((State.refusePeer s n)).rest = s.rest := rest_of
    (State.refusePeer_core s n)
@[simp] theorem State.refusePeer_nvdWf (s : State) (n : Nat) : ((State.refusePeer s n)).nvdWf = s.nvdWf := nvdWf_of
    (State.refusePeer_core s n)
@[simp] theorem State.refusePeer_bare (s : State) (n : Nat) : ((State.refusePeer s n)).bare = s.bare := bare_of
    (State.refusePeer_core s n)
@[simp] theorem State.refusePeer_pins (s : State) (n : Nat) : ((State.refusePeer s n)).pins = s.pins := pins_of
    (State.refusePeer_core s n)
@[simp] theorem State.admitPeer_rest (s : State) (n : Nat) (src : Nat) (serial : W32) : ((State.admitPeer s n src
    serial)).rest = s.rest := rest_of (State.admitPeer_core s n src serial)
@[simp] theorem State.admitPeer_nvdWf (s : State) (n : Nat) (src : Nat) (serial : W32) : ((State.admitPeer s n src
    serial)).nvdWf = s.nvdWf := nvdWf_of (State.admitPeer_core s n src serial)
@[simp] theorem State.admitPeer_bare (s : State) (n : Nat) (src : Nat) (serial : W32) : ((State.admitPeer s n src
    serial)).bare = s.bare := bare_of (State.admitPeer_core s n src serial)
@[simp] theorem State.admitPeer_pins (s : State) (n : Nat) (src : Nat) (serial : W32) : ((State.admitPeer s n src
    serial)).pins = s.pins := pins_of (State.admitPeer_core s n src serial)
@[simp] theorem State.repeatCr_rest (s : State) (c : Cd) (gen : BitVec 8) : ((State.repeatCr s c gen)).rest = s.rest
    := rest_of (State.repeatCr_core s c gen)
@[simp] theorem State.repeatCr_nvdWf (s : State) (c : Cd) (gen : BitVec 8) : ((State.repeatCr s c gen)).nvdWf =
    s.nvdWf := nvdWf_of (State.repeatCr_core s c gen)
@[simp] theorem State.repeatCr_bare (s : State) (c : Cd) (gen : BitVec 8) : ((State.repeatCr s c gen)).bare = s.bare
    := bare_of (State.repeatCr_core s c gen)
@[simp] theorem State.repeatCr_pins (s : State) (c : Cd) (gen : BitVec 8) : ((State.repeatCr s c gen)).pins = s.pins
    := pins_of (State.repeatCr_core s c gen)

@[simp] theorem State.execute_rest (s : State) (lane addr : Nat) (act : State → Rep) (h : ∀ t, (act t).st.rest = t.rest) :
    (s.execute lane addr act).rest = s.rest := by
  unfold State.execute; dsimp only; repeat' split
  all_goals simp_all [apply_ite]

@[simp] theorem State.execute_nvdWf (s : State) (lane addr : Nat) (act : State → Rep) (h : ∀ t, t.nvdWf
    = true → (act t).st.nvdWf = true)
    (hs : s.nvdWf = true) : (s.execute lane addr act).nvdWf = true := by
  unfold State.execute; dsimp only; repeat' split
  all_goals simp_all [apply_ite]

@[simp] theorem State.atStage_rest (s : State) (lane addr : Nat) (go : State → State) (h : ∀ t, (go t).rest = t.rest) :
    (s.atStage lane addr go).rest = s.rest := by
  unfold State.atStage; dsimp only; repeat' split
  all_goals simp [h]

@[simp] theorem State.atStage_nvdWf (s : State) (lane addr : Nat) (go : State → State) (h : ∀ t, t.nvdWf
    = true → (go t).nvdWf = true)
    (hs : s.nvdWf = true) : (s.atStage lane addr go).nvdWf = true := by
  unfold State.atStage; dsimp only; repeat' split
  all_goals simp_all [apply_ite]

@[simp] theorem State.access_rest (s : State) (lane addr : Nat) (act : State → Rep) (h : ∀ t, (act t).st.rest = t.rest) :
    (s.access lane addr act).rest = s.rest := by
  unfold State.access; exact State.atStage_rest _ _ _ _ (fun t => by split <;> simp [h])

@[simp] theorem State.access_nvdWf (s : State) (lane addr : Nat) (act : State → Rep) (h : ∀ t, t.nvdWf
    = true → (act t).st.nvdWf = true)
    (hs : s.nvdWf = true) : (s.access lane addr act).nvdWf = true := by
  unfold State.access
  refine State.atStage_nvdWf _ _ _ _ (fun t ht => ?_) hs
  split
  · simp [ht, h]
  · exact State.execute_nvdWf _ _ _ _ h ht

@[simp] theorem State.accessHk_rest (s : State) (lane addr : Nat) (act : State → Rep) (h : ∀ t, (act t).st.rest = t.rest) :
    (s.accessHk lane addr act).rest = s.rest := by
  unfold State.accessHk; exact State.atStage_rest _ _ _ _ (fun t => by split <;> simp [h])

@[simp] theorem State.accessHk_nvdWf (s : State) (lane addr : Nat) (act : State → Rep) (h : ∀ t, t.nvdWf
    = true → (act t).st.nvdWf = true)
    (hs : s.nvdWf = true) : (s.accessHk lane addr act).nvdWf = true := by
  unfold State.accessHk
  refine State.atStage_nvdWf _ _ _ _ (fun t ht => ?_) hs
  split
  · simp [ht, h]
  · exact State.execute_nvdWf _ _ _ _ h ht

@[simp] theorem State.accessW_rest (s : State) (lane addr : Nat) (be : BitVec 4) (act : State → Rep)
    (h : ∀ t, (act t).st.rest = t.rest) :
    (s.accessW lane addr be act).rest = s.rest := by
  unfold State.accessW; exact State.access_rest _ _ _ _ (fun t => by split <;> simp [h])

@[simp] theorem State.accessW_nvdWf (s : State) (lane addr : Nat) (be : BitVec 4) (act : State → Rep) (h : ∀ t, t.nvdWf
    = true → (act t).st.nvdWf = true)
    (hs : s.nvdWf = true) : (s.accessW lane addr be act).nvdWf = true := by
  unfold State.accessW
  refine State.access_nvdWf _ _ _ _ (fun t ht => ?_) hs
  split
  · simp [ht, h]
  · exact h _ ht

@[simp] theorem State.guarded_rest (s : State) (bad lock : Bool) (cls : Cls) (wait : Bool) (eff : State)
    (h : eff.rest = s.rest) : (s.guarded bad lock cls wait eff).st.rest = s.rest := by
  unfold State.guarded; repeat' split
  all_goals simp [h]

@[simp] theorem State.guarded_nvdWf (s : State) (bad lock : Bool) (cls : Cls) (wait : Bool) (eff : State)
    (h : eff.nvdWf = true) (hs : s.nvdWf = true) : (s.guarded bad lock cls wait eff).st.nvdWf = true := by
  unfold State.guarded; repeat' split
  all_goals simp [h, hs]

@[simp] theorem State.guardedR_rest (s : State) (bad lock : Bool) (cls : Cls) (wait : Bool) (eff : Rep)
    (h : eff.st.rest = s.rest) : (s.guardedR bad lock cls wait eff).st.rest = s.rest := by
  unfold State.guardedR; repeat' split
  all_goals simp [h]

@[simp] theorem State.guardedR_nvdWf (s : State) (bad lock : Bool) (cls : Cls) (wait : Bool) (eff : Rep)
    (h : eff.st.nvdWf = true) (hs : s.nvdWf = true) : (s.guardedR bad lock cls wait eff).st.nvdWf = true := by
  unfold State.guardedR; repeat' split
  all_goals simp [h, hs]

@[simp] theorem Rep.mirrored_rest (r : Rep) (again : State → Rep) (h : ∀ t, (again t).st.rest = t.rest) :
    (r.mirrored again).st.rest = r.st.rest := by
  unfold Rep.mirrored; dsimp only; repeat' split
  all_goals simp [h]

@[simp] theorem Rep.mirrored_nvdWf (r : Rep) (again : State → Rep) (h : ∀ t, t.nvdWf = true → (again t).st.nvdWf = true)
    (hr : r.st.nvdWf = true) : (r.mirrored again).st.nvdWf = true := by
  unfold Rep.mirrored; dsimp only; repeat' split
  all_goals simp [h, hr]

@[simp] theorem State.setMemData_rest (s : State) (d : Die) (mem idx : Nat) (v : W64) :
    (s.setMemData d mem idx v).rest = s.rest := by
  unfold State.setMemData; dsimp only; split
  · split <;> simp
  · rfl
  · rw [foldl_rest]; intro t x; rfl
  · repeat' split
    all_goals simp
  · simp
  · split <;> simp
  · rfl

@[simp] theorem State.putCode_rest (s : State) (d : Die) (mem idx : Nat) (v : W64) : (s.putCode d mem idx v).rest = s.rest := by
  unfold State.putCode; dsimp only; split <;> simp

@[simp] theorem State.takeRaw_rest (s : State) (d : Die) (mem idx : Nat) : (s.takeRaw d mem idx).rest = s.rest := by
  unfold State.takeRaw; split <;> simp

@[simp] theorem State.setMemData_nvdWf (s : State) (d : Die) (mem idx : Nat) (v : W64) (hs : s.nvdWf = true) :
    (s.setMemData d mem idx v).nvdWf = true := by
  unfold State.setMemData; dsimp only; split
  · split <;> exact hs
  · exact Sparse.wf_put _ _ _ _ hs
  · refine foldl_nvdWf _ (fun t x ht => ?_) _ _ hs
    exact ht
  · repeat' split
    all_goals exact hs
  · exact (nvdWf_of (State.setCdOf_core _ _ _)).trans hs
  · split
    · exact (nvdWf_of (State.setCdOf_core _ _ _)).trans hs
    · exact (nvdWf_of (State.setCdOf_core _ _ _)).trans hs
  · exact hs

@[simp] theorem State.putCode_nvdWf (s : State) (d : Die) (mem idx : Nat) (v : W64) (hs : s.nvdWf = true) :
    (s.putCode d mem idx v).nvdWf = true := by
  unfold State.putCode; dsimp only; split <;> simp [hs, State.setMemData_nvdWf]

@[simp] theorem State.takeRaw_nvdWf (s : State) (d : Die) (mem idx : Nat) (hs : s.nvdWf = true) :
    (s.takeRaw d mem idx).nvdWf = true := by
  unfold State.takeRaw; split <;> simp [hs, State.putCode_nvdWf]

@[simp] theorem State.correct_rest (s : State) (d : Die) (mem idx : Nat) : (s.correct d mem idx).rest = s.rest := by
  unfold State.correct; simp

@[simp] theorem State.correct_nvdWf (s : State) (d : Die) (mem idx : Nat) (hs : s.nvdWf = true)
    : (s.correct d mem idx).nvdWf = true := by
  unfold State.correct; simp [hs, State.takeRaw_nvdWf]

@[simp] theorem State.memReadC_rest (s : State) (d : Die) (mem idx cause : Nat) :
    (s.memReadC d mem idx cause).2.rest = s.rest := by
  unfold State.memReadC; repeat' split
  all_goals simp

@[simp] theorem State.memReadC_nvdWf (s : State) (d : Die) (mem idx cause : Nat) (hs : s.nvdWf = true) :
    (s.memReadC d mem idx cause).2.nvdWf = true := by
  unfold State.memReadC; repeat' split
  all_goals simp [hs, State.takeRaw_nvdWf, State.correct_nvdWf]

@[simp] theorem State.memRead_rest (s : State) (d : Die) (mem idx : Nat) : (s.memRead d mem idx).2.rest = s.rest :=
  State.memReadC_rest _ _ _ _ _

@[simp] theorem State.memRead_nvdWf (s : State) (d : Die) (mem idx : Nat) (hs : s.nvdWf = true)
    : (s.memRead d mem idx).2.nvdWf = true :=
  State.memReadC_nvdWf _ _ _ _ _ hs

@[simp] theorem State.readRange_rest (s : State) (d : Die) (mem lo n cause : Nat) :
    (s.readRange d mem lo n cause).2.rest = s.rest := by
  unfold State.readRange; dsimp only; rw [foldl_rest_snd]; intro a x; simp

@[simp] theorem State.readRange_nvdWf (s : State) (d : Die) (mem lo n cause : Nat) (hs : s.nvdWf = true) :
    (s.readRange d mem lo n cause).2.nvdWf = true := by
  unfold State.readRange; dsimp only
  refine foldl_wok_snd _ (fun a x ha => ?_) _ (true, s) hs
  exact State.memReadC_nvdWf _ _ _ _ _ ha

@[simp] theorem State.memMerge_rest (s : State) (d : Die) (mem idx : Nat) : (s.memMerge d mem idx).2.rest = s.rest := by
  unfold State.memMerge; repeat' split
  all_goals simp

@[simp] theorem State.memMerge_nvdWf (s : State) (d : Die) (mem idx : Nat) (hs : s.nvdWf = true) :
    (s.memMerge d mem idx).2.nvdWf = true := by
  unfold State.memMerge; repeat' split
  all_goals simp [hs, State.memRead_nvdWf, State.correct_nvdWf]

@[simp] theorem State.merged_rest (s : State) (d : Die) (mem idx : Nat) (eff : State → State)
    (h : ∀ t, (eff t).rest = t.rest) : (s.merged d mem idx eff).st.rest = s.rest := by
  unfold State.merged; dsimp only; split <;> simp [h]

@[simp] theorem State.merged_nvdWf (s : State) (d : Die) (mem idx : Nat) (eff : State → State)
    (h : ∀ t, t.nvdWf = true → (eff t).nvdWf = true) (hs : s.nvdWf = true) : (s.merged d mem idx eff).st.nvdWf = true := by
  unfold State.merged; dsimp only; split
  · simpa using h _ (State.memMerge_nvdWf _ _ _ _ hs)
  · simp [State.memMerge_nvdWf, hs]

theorem State.put_nvdWf (s : State) (a : Nat) (w : W64) (hs : s.nvdWf = true) :
    Sparse.wf (fun _ => 0#64) (s.nvd.put a w).words = true := by
  unfold Nvd.put; exact Sparse.wf_put (fun _ => 0) _ _ _ hs

theorem putWords_wf (v : Nvd) (a : Nat) (ws : List W64) (hv : Sparse.wf (fun _ => 0#64) v.words = true) :
    Sparse.wf (fun _ => 0#64) (v.putWords a ws).words = true := by
  induction ws generalizing v a with
  | nil => exact hv
  | cons w t ih => exact ih _ _ (Sparse.wf_put _ _ _ _ hv)

@[simp] theorem State.modeGo_bare' (s : State) (m : Mode) (cause : Nat) : (s.modeGo m cause).bare = s.bare := by
  unfold State.modeGo; rw [bare_mk, bare_eta]

@[simp] theorem State.modeGo_nvdWf' (s : State) (m : Mode) (cause : Nat) : (s.modeGo m cause).nvdWf = s.nvdWf := by
  unfold State.modeGo; rw [nvdWf_mk, nvdWf_eta]

theorem mode_of {s t : State} (h : t.core = s.core) : t.hk.mode = s.hk.mode :=
  congrArg (fun c : List Instr × Sparse W64 × Mode × Option Mode × Bool × Bool × Bool × Bool × Bool => c.2.2.1) h

theorem mode_of_rest {s t : State} (h : t.rest = s.rest) : t.hk.mode = s.hk.mode :=
  congrArg (fun c : List Instr × Mode × Option Mode × Bool × Bool × Bool × Bool × Bool => c.2.1) h

@[simp] theorem State.modeDone_pins (s : State) (m : Mode) (cause : Nat) : (s.modeDone m cause).pins = s.pins := by
  unfold State.modeDone; dsimp only; split <;> simp

@[simp] theorem State.modeDone_nvdWf (s : State) (m : Mode) (cause : Nat) : (s.modeDone m cause).nvdWf = s.nvdWf := by
  unfold State.modeDone; dsimp only; split <;> simp

@[simp] theorem State.execute_bare (s : State) (lane addr : Nat) (act : State → Rep) (h : ∀ t, (act t).st.bare = t.bare) :
    (s.execute lane addr act).bare = s.bare := by
  unfold State.execute; dsimp only; repeat' split
  all_goals simp_all [apply_ite]

@[simp] theorem State.execute_pins (s : State) (lane addr : Nat) (act : State → Rep) (h : ∀ t, (act t).st.pins = t.pins) :
    (s.execute lane addr act).pins = s.pins := by
  unfold State.execute; dsimp only; repeat' split
  all_goals simp_all [apply_ite]

@[simp] theorem State.atStage_bare (s : State) (lane addr : Nat) (go : State → State) (h : ∀ t, (go t).bare = t.bare) :
    (s.atStage lane addr go).bare = s.bare := by
  unfold State.atStage; dsimp only; repeat' split
  all_goals simp [h]

@[simp] theorem State.atStage_pins (s : State) (lane addr : Nat) (go : State → State) (h : ∀ t, (go t).pins = t.pins) :
    (s.atStage lane addr go).pins = s.pins := by
  unfold State.atStage; dsimp only; repeat' split
  all_goals simp [h]

@[simp] theorem State.access_bare (s : State) (lane addr : Nat) (act : State → Rep) (h : ∀ t, (act t).st.bare = t.bare) :
    (s.access lane addr act).bare = s.bare := by
  unfold State.access; exact State.atStage_bare _ _ _ _ (fun t => by split <;> simp [h])

@[simp] theorem State.access_pins (s : State) (lane addr : Nat) (act : State → Rep) (h : ∀ t, (act t).st.pins = t.pins) :
    (s.access lane addr act).pins = s.pins := by
  unfold State.access; exact State.atStage_pins _ _ _ _ (fun t => by split <;> simp [h])

@[simp] theorem State.accessHk_bare (s : State) (lane addr : Nat) (act : State → Rep) (h : ∀ t, (act t).st.bare = t.bare) :
    (s.accessHk lane addr act).bare = s.bare := by
  unfold State.accessHk; exact State.atStage_bare _ _ _ _ (fun t => by split <;> simp [h])

@[simp] theorem State.accessHk_pins (s : State) (lane addr : Nat) (act : State → Rep) (h : ∀ t, (act t).st.pins = t.pins) :
    (s.accessHk lane addr act).pins = s.pins := by
  unfold State.accessHk; exact State.atStage_pins _ _ _ _ (fun t => by split <;> simp [h])

@[simp] theorem State.accessW_bare (s : State) (lane addr : Nat) (be : BitVec 4) (act : State → Rep)
    (h : ∀ t, (act t).st.bare = t.bare) :
    (s.accessW lane addr be act).bare = s.bare := by
  unfold State.accessW; exact State.access_bare _ _ _ _ (fun t => by split <;> simp [h])

@[simp] theorem State.accessW_pins (s : State) (lane addr : Nat) (be : BitVec 4) (act : State → Rep)
    (h : ∀ t, (act t).st.pins = t.pins) :
    (s.accessW lane addr be act).pins = s.pins := by
  unfold State.accessW; exact State.access_pins _ _ _ _ (fun t => by split <;> simp [h])

@[simp] theorem State.guarded_bare (s : State) (bad lock : Bool) (cls : Cls) (wait : Bool) (eff : State)
    (h : eff.bare = s.bare) : (s.guarded bad lock cls wait eff).st.bare = s.bare := by
  unfold State.guarded; repeat' split
  all_goals simp [h]

@[simp] theorem State.guarded_pins (s : State) (bad lock : Bool) (cls : Cls) (wait : Bool) (eff : State)
    (h : eff.pins = s.pins) : (s.guarded bad lock cls wait eff).st.pins = s.pins := by
  unfold State.guarded; repeat' split
  all_goals simp [h]

@[simp] theorem State.guardedR_bare (s : State) (bad lock : Bool) (cls : Cls) (wait : Bool) (eff : Rep)
    (h : eff.st.bare = s.bare) : (s.guardedR bad lock cls wait eff).st.bare = s.bare := by
  unfold State.guardedR; repeat' split
  all_goals simp [h]

@[simp] theorem State.guardedR_pins (s : State) (bad lock : Bool) (cls : Cls) (wait : Bool) (eff : Rep)
    (h : eff.st.pins = s.pins) : (s.guardedR bad lock cls wait eff).st.pins = s.pins := by
  unfold State.guardedR; repeat' split
  all_goals simp [h]

@[simp] theorem Rep.mirrored_bare (r : Rep) (again : State → Rep) (h : ∀ t, (again t).st.bare = t.bare) :
    (r.mirrored again).st.bare = r.st.bare := by
  unfold Rep.mirrored; dsimp only; repeat' split
  all_goals simp [h]

@[simp] theorem Rep.mirrored_pins (r : Rep) (again : State → Rep) (h : ∀ t, (again t).st.pins = t.pins) :
    (r.mirrored again).st.pins = r.st.pins := by
  unfold Rep.mirrored; dsimp only; repeat' split
  all_goals simp [h]

@[simp] theorem State.setMemData_bare (s : State) (d : Die) (mem idx : Nat) (v : W64) :
    (s.setMemData d mem idx v).bare = s.bare := by
  unfold State.setMemData; dsimp only; split
  · split <;> simp
  · rfl
  · rw [foldl_bare]; intro t x; rfl
  · repeat' split
    all_goals simp
  · simp
  · split <;> simp
  · rfl

@[simp] theorem State.putCode_bare (s : State) (d : Die) (mem idx : Nat) (v : W64) : (s.putCode d mem idx v).bare = s.bare := by
  unfold State.putCode; dsimp only; split <;> simp

@[simp] theorem State.takeRaw_bare (s : State) (d : Die) (mem idx : Nat) : (s.takeRaw d mem idx).bare = s.bare := by
  unfold State.takeRaw; split <;> simp

@[simp] theorem State.setMemData_pins (s : State) (d : Die) (mem idx : Nat) (v : W64) :
    (s.setMemData d mem idx v).pins = s.pins := by
  unfold State.setMemData; dsimp only; split
  · split <;> simp
  · rfl
  · rw [foldl_pins]; intro t x; rfl
  · repeat' split
    all_goals simp
  · simp
  · split <;> simp
  · rfl

@[simp] theorem State.putCode_pins (s : State) (d : Die) (mem idx : Nat) (v : W64) : (s.putCode d mem idx v).pins = s.pins := by
  unfold State.putCode; dsimp only; split <;> simp

@[simp] theorem State.takeRaw_pins (s : State) (d : Die) (mem idx : Nat) : (s.takeRaw d mem idx).pins = s.pins := by
  unfold State.takeRaw; split <;> simp

@[simp] theorem State.correct_bare (s : State) (d : Die) (mem idx : Nat) : (s.correct d mem idx).bare = s.bare := by
  unfold State.correct; simp

@[simp] theorem State.correct_pins (s : State) (d : Die) (mem idx : Nat) : (s.correct d mem idx).pins = s.pins := by
  unfold State.correct; simp

@[simp] theorem State.memReadC_bare (s : State) (d : Die) (mem idx cause : Nat) :
    (s.memReadC d mem idx cause).2.bare = s.bare := by
  unfold State.memReadC; repeat' split
  all_goals simp

@[simp] theorem State.memReadC_pins (s : State) (d : Die) (mem idx cause : Nat) :
    (s.memReadC d mem idx cause).2.pins = s.pins := by
  unfold State.memReadC; repeat' split
  all_goals simp

@[simp] theorem State.memRead_bare (s : State) (d : Die) (mem idx : Nat) : (s.memRead d mem idx).2.bare = s.bare :=
  State.memReadC_bare _ _ _ _ _

@[simp] theorem State.memRead_pins (s : State) (d : Die) (mem idx : Nat) : (s.memRead d mem idx).2.pins = s.pins :=
  State.memReadC_pins _ _ _ _ _

@[simp] theorem State.readRange_bare (s : State) (d : Die) (mem lo n cause : Nat) :
    (s.readRange d mem lo n cause).2.bare = s.bare := by
  unfold State.readRange; dsimp only; rw [foldl_bare_snd]; intro a x; simp

@[simp] theorem State.readRange_pins (s : State) (d : Die) (mem lo n cause : Nat) :
    (s.readRange d mem lo n cause).2.pins = s.pins := by
  unfold State.readRange; dsimp only; rw [foldl_pins_snd]; intro a x; simp

@[simp] theorem State.memMerge_bare (s : State) (d : Die) (mem idx : Nat) : (s.memMerge d mem idx).2.bare = s.bare := by
  unfold State.memMerge; repeat' split
  all_goals simp

@[simp] theorem State.memMerge_pins (s : State) (d : Die) (mem idx : Nat) : (s.memMerge d mem idx).2.pins = s.pins := by
  unfold State.memMerge; repeat' split
  all_goals simp

@[simp] theorem State.merged_bare (s : State) (d : Die) (mem idx : Nat) (eff : State → State)
    (h : ∀ t, (eff t).bare = t.bare) : (s.merged d mem idx eff).st.bare = s.bare := by
  unfold State.merged; dsimp only; split <;> simp [h]

@[simp] theorem State.merged_pins (s : State) (d : Die) (mem idx : Nat) (eff : State → State)
    (h : ∀ t, (eff t).pins = t.pins) : (s.merged d mem idx eff).st.pins = s.pins := by
  unfold State.merged; dsimp only; split <;> simp [h]

end Sys2Proof.Machine
end

