-- ==== Sys2Proof/Laws/CoreModes.lean ====
section
/-! SUPPORT. Images, modes and LOAD: what each leaves of the core. -/

namespace Sys2Proof.Machine

@[simp] theorem State.nvdReads_rest (s : State) (a : Nat) (n : Nat) : (State.nvdReads s a n).2.rest = s.rest
    := State.readRange_rest _ _ _ _ _ _
@[simp] theorem State.nvdReads_bare (s : State) (a : Nat) (n : Nat) : ((State.nvdReads s a n).2).bare = s.bare
    := bare_of_rest (State.nvdReads_rest s a n)
@[simp] theorem State.nvdReads_pins (s : State) (a : Nat) (n : Nat) : ((State.nvdReads s a n).2).pins = s.pins
    := pins_of_bare <| bare_of_rest (State.nvdReads_rest s a n)

@[simp] theorem State.nvdReads_nvdWf (s : State) (a : Nat) (n : Nat) (hs : s.nvdWf = true) :
    (State.nvdReads s a n).2.nvdWf = true := State.readRange_nvdWf _ _ _ _ _ _ hs

@[simp] theorem State.checkSections_rest (s : State) (base : Nat) (length : Nat) (ss : List Section) :
    (State.checkSections s base length ss).2.rest = s.rest := by
  have key : ∀ (l : List Section) (a : Nat × Option (Nat × Bool) × State),
      (l.foldl (fun (a : Nat × Option (Nat × Bool) × State) x =>
        let fits := decide (x.off + x.len ≤ length)
        let rd := if fits then a.2.2.nvdReads (base + x.off) x.len else (true, a.2.2)
        let doubled := neededTags.contains x.tag && decide ((ss.filter (fun y => y.tag == x.tag)).length > 1)
        let bad := !fits || !rd.1 || doubled || !(rd.2.nvd.sectionOk base length x)
        (a.1 + 1, if a.2.1 = none ∧ bad then some (a.1, !rd.1) else a.2.1, rd.2)) a).2.2.rest = a.2.2.rest :=
    fun l a => foldl_rest_thd _ (fun a x => by dsimp only; split <;> simp) l a
  unfold State.checkSections
  dsimp only
  split <;> exact key _ _
@[simp] theorem State.checkSections_bare (s : State) (base : Nat) (length : Nat) (ss : List Section)
    : ((State.checkSections s base length ss).2).bare = s.bare := bare_of_rest (State.checkSections_rest s base length ss)
@[simp] theorem State.checkSections_pins (s : State) (base : Nat) (length : Nat) (ss : List Section)
    : ((State.checkSections s base length ss).2).pins = s.pins := pins_of_bare <| bare_of_rest
    (State.checkSections_rest s base length ss)

@[simp] theorem State.checkSections_nvdWf (s : State) (base : Nat) (length : Nat) (ss : List Section) (hs : s.nvdWf
    = true) : (State.checkSections s base length ss).2.nvdWf = true := by
  have key : ∀ (l : List Section) (a : Nat × Option (Nat × Bool) × State), a.2.2.nvdWf = true →
      (l.foldl (fun (a : Nat × Option (Nat × Bool) × State) x =>
        let fits := decide (x.off + x.len ≤ length)
        let rd := if fits then a.2.2.nvdReads (base + x.off) x.len else (true, a.2.2)
        let doubled := neededTags.contains x.tag && decide ((ss.filter (fun y => y.tag == x.tag)).length > 1)
        let bad := !fits || !rd.1 || doubled || !(rd.2.nvd.sectionOk base length x)
        (a.1 + 1, if a.2.1 = none ∧ bad then some (a.1, !rd.1) else a.2.1, rd.2)) a).2.2.nvdWf = true :=
    fun l a ha => foldl_wok_thd _ (fun a x ha => by dsimp only; split <;> simp [ha]) l a ha
  unfold State.checkSections
  dsimp only
  split <;> exact key _ _ hs

@[simp] theorem State.setFields_core (s : State) (a : Nat) (v : W32) : (State.setFields s a v).core = s.core := by
  unfold State.setFields; simp
@[simp] theorem State.setFields_rest (s : State) (a : Nat) (v : W32) : ((State.setFields s a v)).rest = s.rest := rest_of
    (State.setFields_core s a v)
@[simp] theorem State.setFields_nvdWf (s : State) (a : Nat) (v : W32) : ((State.setFields s a v)).nvdWf = s.nvdWf
    := nvdWf_of (State.setFields_core s a v)
@[simp] theorem State.setFields_bare (s : State) (a : Nat) (v : W32) : ((State.setFields s a v)).bare = s.bare := bare_of
    (State.setFields_core s a v)
@[simp] theorem State.setFields_pins (s : State) (a : Nat) (v : W32) : ((State.setFields s a v)).pins = s.pins := pins_of
    (State.setFields_core s a v)

@[simp] theorem State.skip_core (s : State) (n : Nat) : (State.skip s n).core = s.core
    := by unfold State.skip; split <;> simp
@[simp] theorem State.skip_rest (s : State) (n : Nat) : ((State.skip s n)).rest = s.rest := rest_of (State.skip_core s n)
@[simp] theorem State.skip_nvdWf (s : State) (n : Nat) : ((State.skip s n)).nvdWf = s.nvdWf := nvdWf_of
    (State.skip_core s n)
@[simp] theorem State.skip_bare (s : State) (n : Nat) : ((State.skip s n)).bare = s.bare := bare_of (State.skip_core s n)
@[simp] theorem State.skip_pins (s : State) (n : Nat) : ((State.skip s n)).pins = s.pins := pins_of (State.skip_core s n)

@[simp] theorem State.applyRegs_core (s : State) (es : List (Nat × W32)) : (State.applyRegs s es).core = s.core := by
  unfold State.applyRegs; simp
@[simp] theorem State.applyRegs_rest (s : State) (es : List (Nat × W32)) : ((State.applyRegs s es)).rest = s.rest
    := rest_of (State.applyRegs_core s es)
@[simp] theorem State.applyRegs_nvdWf (s : State) (es : List (Nat × W32)) : ((State.applyRegs s es)).nvdWf = s.nvdWf
    := nvdWf_of (State.applyRegs_core s es)
@[simp] theorem State.applyRegs_bare (s : State) (es : List (Nat × W32)) : ((State.applyRegs s es)).bare = s.bare
    := bare_of (State.applyRegs_core s es)
@[simp] theorem State.applyRegs_pins (s : State) (es : List (Nat × W32)) : ((State.applyRegs s es)).pins = s.pins
    := pins_of (State.applyRegs_core s es)

@[simp] theorem State.bothTables_core (s : State) (f : Cd → Cd) : (State.bothTables s f).core = s.core := by
  unfold State.bothTables; simp
@[simp] theorem State.bothTables_rest (s : State) (f : Cd → Cd) : ((State.bothTables s f)).rest = s.rest := rest_of
    (State.bothTables_core s f)
@[simp] theorem State.bothTables_nvdWf (s : State) (f : Cd → Cd) : ((State.bothTables s f)).nvdWf = s.nvdWf := nvdWf_of
    (State.bothTables_core s f)
@[simp] theorem State.bothTables_bare (s : State) (f : Cd → Cd) : ((State.bothTables s f)).bare = s.bare := bare_of
    (State.bothTables_core s f)
@[simp] theorem State.bothTables_pins (s : State) (f : Cd → Cd) : ((State.bothTables s f)).pins = s.pins := pins_of
    (State.bothTables_core s f)

@[simp] theorem State.setEntry_core (s : State) (table : Nat) (i : Nat) (bs : List Octet) :
    (State.setEntry s table i bs).core = s.core := by
  unfold State.setEntry; dsimp only
  repeat' (first | (simp; done) | split)
@[simp] theorem State.setEntry_rest (s : State) (table : Nat) (i : Nat) (bs : List Octet)
    : ((State.setEntry s table i bs)).rest = s.rest := rest_of (State.setEntry_core s table i bs)
@[simp] theorem State.setEntry_nvdWf (s : State) (table : Nat) (i : Nat) (bs : List Octet)
    : ((State.setEntry s table i bs)).nvdWf = s.nvdWf := nvdWf_of (State.setEntry_core s table i bs)
@[simp] theorem State.setEntry_bare (s : State) (table : Nat) (i : Nat) (bs : List Octet)
    : ((State.setEntry s table i bs)).bare = s.bare := bare_of (State.setEntry_core s table i bs)
@[simp] theorem State.setEntry_pins (s : State) (table : Nat) (i : Nat) (bs : List Octet)
    : ((State.setEntry s table i bs)).pins = s.pins := pins_of (State.setEntry_core s table i bs)

@[simp] theorem State.applyTabl_core (x0 : Nat) (x1 : List Octet) (x2 : State) : (State.applyTabl x0 x1 x2).core = x2.core
    := by
  have hf (tb : Nat) (l : List (Nat × List Octet)) (t : State) :
      (l.foldl (fun u e => u.setEntry tb e.1 e.2) t).core = t.core :=
    foldl_core _ (fun t c => by unfold State.setEntry; split <;> rfl) _ _
  have hk (t : State) (n : Nat) : (t.skip n).core = t.core := by unfold State.skip; split <;> simp
  induction x0 generalizing x1 x2 with
  | zero => rfl
  | succ f ih =>
    unfold State.applyTabl
    split
    · rfl
    · dsimp only
      rw [ih]
      split
      · rw [hk]
      · split
        · rw [hk]
        · rw [hk, hf]
@[simp] theorem State.applyTabl_rest (x0 : Nat) (x1 : List Octet) (x2 : State) : ((State.applyTabl x0 x1 x2)).rest
    = x2.rest := rest_of (State.applyTabl_core x0 x1 x2)
@[simp] theorem State.applyTabl_nvdWf (x0 : Nat) (x1 : List Octet) (x2 : State) : ((State.applyTabl x0 x1 x2)).nvdWf
    = x2.nvdWf := nvdWf_of (State.applyTabl_core x0 x1 x2)
@[simp] theorem State.applyTabl_bare (x0 : Nat) (x1 : List Octet) (x2 : State) : ((State.applyTabl x0 x1 x2)).bare
    = x2.bare := bare_of (State.applyTabl_core x0 x1 x2)
@[simp] theorem State.applyTabl_pins (x0 : Nat) (x1 : List Octet) (x2 : State) : ((State.applyTabl x0 x1 x2)).pins
    = x2.pins := pins_of (State.applyTabl_core x0 x1 x2)

@[simp] theorem State.applyLock_core (s : State) (as' : List Nat) : (State.applyLock s as').core = s.core := by
  unfold State.applyLock; simp
@[simp] theorem State.applyLock_rest (s : State) (as' : List Nat) : ((State.applyLock s as')).rest = s.rest := rest_of
    (State.applyLock_core s as')
@[simp] theorem State.applyLock_nvdWf (s : State) (as' : List Nat) : ((State.applyLock s as')).nvdWf = s.nvdWf := nvdWf_of
    (State.applyLock_core s as')
@[simp] theorem State.applyLock_bare (s : State) (as' : List Nat) : ((State.applyLock s as')).bare = s.bare := bare_of
    (State.applyLock_core s as')
@[simp] theorem State.applyLock_pins (s : State) (as' : List Nat) : ((State.applyLock s as')).pins = s.pins := pins_of
    (State.applyLock_core s as')

@[simp] theorem State.applyCal_rest (s : State) : (State.applyCal s).rest = s.rest := by
  unfold State.applyCal; simp
@[simp] theorem State.applyCal_bare (s : State) : ((State.applyCal s)).bare = s.bare := bare_of_rest (State.applyCal_rest s)
@[simp] theorem State.applyCal_pins (s : State) : ((State.applyCal s)).pins = s.pins := pins_of_bare <| bare_of_rest
    (State.applyCal_rest s)

@[simp] theorem State.applyCal_nvdWf (s : State) (hs : s.nvdWf = true) : (State.applyCal s).nvdWf = true := by
  have h1 : ∀ a n, (s.nvdReads a n).2.nvdWf = true := fun a n => State.nvdReads_nvdWf s a n hs
  unfold State.applyCal
  extract_lets r t hdr
  have ht : t.nvdWf = true := h1 _ _
  clear_value hdr t r
  split
  · rw [State.setFld_nvdWf, State.setFld_nvdWf, nvdWf_mk, nvdWf_eta, ht]
  · rw [State.event_nvdWf, State.setFld_nvdWf, State.setFld_nvdWf, nvdWf_mk, nvdWf_eta, ht]

@[simp] theorem State.votePref_rest (s : State) : (State.votePref s).2.rest = s.rest := by
  unfold State.votePref; simp
@[simp] theorem State.votePref_bare (s : State) : ((State.votePref s).2).bare = s.bare := bare_of_rest
    (State.votePref_rest s)
@[simp] theorem State.votePref_pins (s : State) : ((State.votePref s).2).pins = s.pins := pins_of_bare <| bare_of_rest
    (State.votePref_rest s)

@[simp] theorem State.votePref_nvdWf (s : State) (hs : s.nvdWf = true) : (State.votePref s).2.nvdWf = true := by
  unfold State.votePref
  generalize [0, 1, 2] = l
  dsimp only
  refine foldl_wok_snd _ (fun a x ha => ?_) _ (0, s) hs
  dsimp only
  exact State.nvdReads_nvdWf _ _ _ ha

@[simp] theorem State.setVerified_core (s : State) (b : Bool) (v : Bool) : (State.setVerified s b v).core = s.core := by
  unfold State.setVerified; simp
@[simp] theorem State.setVerified_rest (s : State) (b : Bool) (v : Bool) : ((State.setVerified s b v)).rest = s.rest
    := rest_of (State.setVerified_core s b v)
@[simp] theorem State.setVerified_nvdWf (s : State) (b : Bool) (v : Bool) : ((State.setVerified s b v)).nvdWf = s.nvdWf
    := nvdWf_of (State.setVerified_core s b v)
@[simp] theorem State.setVerified_bare (s : State) (b : Bool) (v : Bool) : ((State.setVerified s b v)).bare = s.bare
    := bare_of (State.setVerified_core s b v)
@[simp] theorem State.setVerified_pins (s : State) (b : Bool) (v : Bool) : ((State.setVerified s b v)).pins = s.pins
    := pins_of (State.setVerified_core s b v)

@[simp] theorem State.verifySlot_rest (s : State) (b : Bool) : (State.verifySlot s b).2.2.rest = s.rest := by
  unfold State.verifySlot
  dsimp only
  split
  · exact State.nvdReads_rest _ _ _
  · split
    · exact State.nvdReads_rest _ _ _
    · split
      · rw [State.nvdReads_rest, State.nvdReads_rest]
      · split
        · rw [State.checkSections_rest, State.nvdReads_rest, State.nvdReads_rest]
        · split <;> rw [State.checkSections_rest, State.nvdReads_rest, State.nvdReads_rest]
@[simp] theorem State.verifySlot_bare (s : State) (b : Bool) : ((State.verifySlot s b).2.2).bare = s.bare := bare_of_rest
    (State.verifySlot_rest s b)
@[simp] theorem State.verifySlot_pins (s : State) (b : Bool) : ((State.verifySlot s b).2.2).pins = s.pins
    := pins_of_bare <| bare_of_rest (State.verifySlot_rest s b)

@[simp] theorem State.verifySlot_nvdWf (s : State) (b : Bool) (hs : s.nvdWf = true) : (State.verifySlot s b).2.2.nvdWf
    = true := by
  have h1 : ∀ a n, (s.nvdReads a n).2.nvdWf = true := fun a n => State.nvdReads_nvdWf _ _ _ hs
  have h2 : ∀ a n a' n', ((s.nvdReads a n).2.nvdReads a' n').2.nvdWf = true := fun a n a' n' => State.nvdReads_nvdWf _ _ _ (h1 a n)
  unfold State.verifySlot
  dsimp only
  split
  · exact h1 _ _
  · split
    · exact h1 _ _
    · split
      · exact h2 _ _ _ _
      · split
        · exact State.checkSections_nvdWf _ _ _ _ (h2 _ _ _ _)
        · split <;> exact State.checkSections_nvdWf _ _ _ _ (h2 _ _ _ _)

@[simp] theorem State.nvdCmdWrite_core (s : State) (data : W32) (be : BitVec 4) : (State.nvdCmdWrite s data be).st.core
    = s.core := by
  unfold State.nvdCmdWrite
  dsimp only
  refine State.guarded_core _ _ _ _ _ _ ?_
  split <;> simp
@[simp] theorem State.nvdCmdWrite_rest (s : State) (data : W32) (be : BitVec 4) : ((State.nvdCmdWrite s data be).st).rest
    = s.rest := rest_of (State.nvdCmdWrite_core s data be)
@[simp] theorem State.nvdCmdWrite_nvdWf (s : State) (data : W32) (be : BitVec 4)
    : ((State.nvdCmdWrite s data be).st).nvdWf = s.nvdWf := nvdWf_of (State.nvdCmdWrite_core s data be)
@[simp] theorem State.nvdCmdWrite_bare (s : State) (data : W32) (be : BitVec 4) : ((State.nvdCmdWrite s data be).st).bare
    = s.bare := bare_of (State.nvdCmdWrite_core s data be)
@[simp] theorem State.nvdCmdWrite_pins (s : State) (data : W32) (be : BitVec 4) : ((State.nvdCmdWrite s data be).st).pins
    = s.pins := pins_of (State.nvdCmdWrite_core s data be)

theorem execSlotInvalidate_core (lane : Lane) (slot : Bool) (s : State) : ∀ t, execSlotInvalidate lane slot s
    = .next t → t.core = s.core := by
  rintro t ⟨⟩; simp

theorem execSlotVerify_core (lane : Lane) (slot : Bool) (s : State) : ∀ t, execSlotVerify lane slot s = .next t → t.core
    = s.core := by
  rintro t ⟨⟩; simp

theorem execSlotPrefer_core (lane : Lane) (slot : Bool) (s : State) : ∀ t, execSlotPrefer lane slot s = .next t → t.core
    = s.core := by
  rintro t ⟨⟩; simp

theorem execCalCommit_core (lane : Lane) (s : State) : ∀ t, execCalCommit lane s = .next t → t.core = s.core := by
  rintro t ⟨⟩; simp

@[simp] theorem State.invalidate_rest (s : State) (b : Bool) : (State.invalidate s b).2.rest = s.rest := by
  unfold State.invalidate
  dsimp only
  split
  · rw [State.setVerified_rest, rest_mk, rest_eta]; exact State.memMerge_rest _ _ _ _
  · rw [State.setVerified_rest]; exact State.memMerge_rest _ _ _ _
@[simp] theorem State.invalidate_bare (s : State) (b : Bool) : ((State.invalidate s b).2).bare = s.bare := bare_of_rest
    (State.invalidate_rest s b)
@[simp] theorem State.invalidate_pins (s : State) (b : Bool) : ((State.invalidate s b).2).pins = s.pins
    := pins_of_bare <| bare_of_rest (State.invalidate_rest s b)

@[simp] theorem State.invalidate_nvdWf (s : State) (b : Bool) (hs : s.nvdWf = true) : (State.invalidate s b).2.nvdWf
    = true := by
  unfold State.invalidate
  dsimp only
  split
  · rw [State.setVerified_nvdWf, nvdWf_mk]; exact State.put_nvdWf _ _ _ (State.memMerge_nvdWf _ _ _ _ hs)
  · rw [State.setVerified_nvdWf]; exact State.memMerge_nvdWf _ _ _ _ hs

@[simp] theorem State.prefer_rest (s : State) (b : Bool) : (State.prefer s b).rest = s.rest := by
  unfold State.prefer
  dsimp only
  rw [foldl_rest]
  intro t i
  rw [State.memClean_rest, rest_mk, rest_eta]
@[simp] theorem State.prefer_bare (s : State) (b : Bool) : ((State.prefer s b)).bare = s.bare := bare_of_rest
    (State.prefer_rest s b)
@[simp] theorem State.prefer_pins (s : State) (b : Bool) : ((State.prefer s b)).pins = s.pins
    := pins_of_bare <| bare_of_rest (State.prefer_rest s b)

@[simp] theorem State.prefer_nvdWf (s : State) (b : Bool) (hs : s.nvdWf = true) : (State.prefer s b).nvdWf = true := by
  unfold State.prefer
  dsimp only
  refine foldl_nvdWf _ (fun t i ht => ?_) _ _ hs
  rw [State.memClean_nvdWf, nvdWf_mk]; exact State.put_nvdWf _ _ _ ht

@[simp] theorem State.commit_rest (s : State) : (State.commit s).rest = s.rest := by
  unfold State.commit
  split
  · rfl
  · dsimp only
    rw [State.setFld_rest, State.setFld_rest, rest_mk, rest_eta, State.cleanRange_rest]
@[simp] theorem State.commit_bare (s : State) : ((State.commit s)).bare = s.bare := bare_of_rest (State.commit_rest s)
@[simp] theorem State.commit_pins (s : State) : ((State.commit s)).pins = s.pins := pins_of_bare <| bare_of_rest
    (State.commit_rest s)

@[simp] theorem State.commit_nvdWf (s : State) (hs : s.nvdWf = true) : (State.commit s).nvdWf = true := by
  unfold State.commit
  split
  · exact hs
  · dsimp only
    rw [State.setFld_nvdWf, State.setFld_nvdWf, nvdWf_mk]
    dsimp only
    refine putWords_wf _ _ _ (putWords_wf _ _ _ ?_)
    rw [nvdWf_eta, State.cleanRange_nvdWf]; exact hs

@[simp] theorem State.writeRecord_rest (s : State) (w : W64) (ws : List W64) : (State.writeRecord s w ws).rest = s.rest := by
  unfold State.writeRecord
  dsimp only
  split <;> simp
@[simp] theorem State.writeRecord_bare (s : State) (w : W64) (ws : List W64) : ((State.writeRecord s w ws)).bare = s.bare
    := bare_of_rest (State.writeRecord_rest s w ws)
@[simp] theorem State.writeRecord_pins (s : State) (w : W64) (ws : List W64) : ((State.writeRecord s w ws)).pins = s.pins
    := pins_of_bare <| bare_of_rest (State.writeRecord_rest s w ws)

@[simp] theorem State.writeRecord_nvdWf (s : State) (w : W64) (ws : List W64) (hs : s.nvdWf = true) :
    (State.writeRecord s w ws).nvdWf = true := by
  unfold State.writeRecord
  dsimp only
  split
  · rw [State.setReg_nvdWf, nvdWf_mk]
    exact State.put_nvdWf _ _ _ hs
  · rw [nvdWf_mk]
    exact State.put_nvdWf _ _ _ hs

@[simp] theorem State.recordWord_rest (s : State) : (State.recordWord s).rest = s.rest := by
  unfold State.recordWord
  split
  · split
    · rfl
    · exact State.writeRecord_rest _ _ _
  · rfl
@[simp] theorem State.recordWord_bare (s : State) : ((State.recordWord s)).bare = s.bare := bare_of_rest
    (State.recordWord_rest s)
@[simp] theorem State.recordWord_pins (s : State) : ((State.recordWord s)).pins = s.pins := pins_of_bare <| bare_of_rest
    (State.recordWord_rest s)

@[simp] theorem State.recordWord_nvdWf (s : State) (hs : s.nvdWf = true) : (State.recordWord s).nvdWf = true := by
  unfold State.recordWord
  split
  · split
    · exact hs
    · exact State.writeRecord_nvdWf _ _ _ hs
  · exact hs

/-- A tick with no command waiting. -/
@[simp] theorem State.tick_rest (s : State) : (State.tick s).rest = s.rest := by
  unfold State.tick; split <;> simp
@[simp] theorem State.tick_nvdWf (s : State) (hs : s.nvdWf = true) : (State.tick s).nvdWf = true := by
  unfold State.tick; split <;> simp [hs]

theorem execNvdCommandDone_rest (s : State) : ∀ t, execNvdCommandDone s = .next t → t.rest = s.rest := by
  have hb : ∀ x, ({ (s.setFld Reg.HK_NVD_CMD 3 0 0) with nvd := { s.nvd with busy := x } } : State).rest = s.rest := by
    intro x; rw [rest_mk, rest_eta, State.setFld_rest]
  rintro t ⟨⟩
  split
  · rfl
  · dsimp only
    split <;> rw [State.setFld_rest, State.setFld_rest]
    · rw [State.invalidate_rest]; exact hb _
    · split
      · rw [State.setVerified_rest, State.verifySlot_rest]; exact hb _
      · rw [State.event_rest, State.verifySlot_rest]; exact hb _
    · rw [State.prefer_rest]; exact hb _
    · rw [State.commit_rest]; exact hb _

theorem execNvdCommandDone_nvdWf (s : State) (hs : s.nvdWf = true) : ∀ t, execNvdCommandDone s = .next t → t.nvdWf = true
    := by
  have hb : ∀ v : Nvd, v.words = s.nvd.words → Sparse.wf (fun _ => 0#64) v.words = true := fun v hv => hv ▸ hs
  rintro t ⟨⟩
  split
  · exact hs
  · dsimp only
    split <;> rw [State.setFld_nvdWf, State.setFld_nvdWf]
    · exact State.invalidate_nvdWf _ _ hs
    · split
      · rw [State.setVerified_nvdWf]; exact State.verifySlot_nvdWf _ _ hs
      · rw [State.event_nvdWf]; exact State.verifySlot_nvdWf _ _ hs
    · exact State.prefer_nvdWf _ _ hs
    · exact State.commit_nvdWf _ hs

@[simp] theorem State.nvdWrite_rest (s : State) (off : Nat) (data : W32) (be : BitVec 4) :
    (State.nvdWrite s off data be).st.rest = s.rest := by
  unfold State.nvdWrite
  generalize s.nvdAddr off = a
  dsimp only
  split
  · exact State.guarded_rest _ _ _ _ _ _ rfl
  · simp
  · refine State.guardedR_rest _ _ _ _ _ _ (State.merged_rest _ _ _ _ _ (fun t => ?_))
    rw [State.setVerified_rest, rest_mk, rest_eta]
@[simp] theorem State.nvdWrite_bare (s : State) (off : Nat) (data : W32) (be : BitVec 4)
    : ((State.nvdWrite s off data be).st).bare = s.bare := bare_of_rest (State.nvdWrite_rest s off data be)
@[simp] theorem State.nvdWrite_pins (s : State) (off : Nat) (data : W32) (be : BitVec 4)
    : ((State.nvdWrite s off data be).st).pins = s.pins := pins_of_bare <| bare_of_rest
    (State.nvdWrite_rest s off data be)

@[simp] theorem State.nvdWrite_nvdWf (s : State) (off : Nat) (data : W32) (be : BitVec 4) (hs : s.nvdWf = true) :
    (State.nvdWrite s off data be).st.nvdWf = true := by
  unfold State.nvdWrite
  generalize s.nvdAddr off = a
  dsimp only
  split
  · exact State.guarded_nvdWf _ _ _ _ _ _ hs hs
  · simp [hs]
  · refine State.guardedR_nvdWf _ _ _ _ _ _ (State.merged_nvdWf _ _ _ _ _ (fun t ht => ?_) hs) hs
    rw [State.setVerified_nvdWf, nvdWf_mk]; exact State.put_nvdWf _ _ _ ht

theorem execNvdWindowWrite_rest (lane : Lane) (off : BitVec 20) (data : W32) (be : BitVec 4) (s : State)
    : ∀ t, execNvdWindowWrite lane off data be s = .next t → t.rest = s.rest := by
  rintro t ⟨⟩
  refine State.accessW_rest _ _ _ _ _ (fun t => ?_)
  split
  · rfl
  · exact State.nvdWrite_rest _ _ _ _

theorem execNvdWindowWrite_nvdWf (lane : Lane) (off : BitVec 20) (data : W32) (be : BitVec 4) (s : State) (hs : s.nvdWf
    = true) : ∀ t, execNvdWindowWrite lane off data be s = .next t → t.nvdWf = true := by
  rintro t ⟨⟩
  refine State.accessW_nvdWf _ _ _ _ _ (fun t ht => ?_) hs
  split
  · exact ht
  · exact State.nvdWrite_nvdWf _ _ _ _ ht

@[simp] theorem State.keepHk_core (s : State) : (State.keepHk s).core = s.core := by
  unfold State.keepHk; simp
@[simp] theorem State.keepHk_rest (s : State) : ((State.keepHk s)).rest = s.rest := rest_of (State.keepHk_core s)
@[simp] theorem State.keepHk_nvdWf (s : State) : ((State.keepHk s)).nvdWf = s.nvdWf := nvdWf_of (State.keepHk_core s)
@[simp] theorem State.keepHk_bare (s : State) : ((State.keepHk s)).bare = s.bare := bare_of (State.keepHk_core s)
@[simp] theorem State.keepHk_pins (s : State) : ((State.keepHk s)).pins = s.pins := pins_of (State.keepHk_core s)

@[simp] theorem State.bootHk_core (s : State) : (State.bootHk s).core = s.core := by
  unfold State.bootHk; simp
@[simp] theorem State.bootHk_rest (s : State) : ((State.bootHk s)).rest = s.rest := rest_of (State.bootHk_core s)
@[simp] theorem State.bootHk_nvdWf (s : State) : ((State.bootHk s)).nvdWf = s.nvdWf := nvdWf_of (State.bootHk_core s)
@[simp] theorem State.bootHk_bare (s : State) : ((State.bootHk s)).bare = s.bare := bare_of (State.bootHk_core s)
@[simp] theorem State.bootHk_pins (s : State) : ((State.bootHk s)).pins = s.pins := pins_of (State.bootHk_core s)

@[simp] theorem State.attAbort_core (s : State) : (State.attAbort s).core = s.core := by
  unfold State.attAbort; dsimp only
  repeat' (first | (simp; done) | split)
@[simp] theorem State.attAbort_rest (s : State) : ((State.attAbort s)).rest = s.rest := rest_of (State.attAbort_core s)
@[simp] theorem State.attAbort_nvdWf (s : State) : ((State.attAbort s)).nvdWf = s.nvdWf := nvdWf_of (State.attAbort_core s)
@[simp] theorem State.attAbort_bare (s : State) : ((State.attAbort s)).bare = s.bare := bare_of (State.attAbort_core s)
@[simp] theorem State.attAbort_pins (s : State) : ((State.attAbort s)).pins = s.pins := pins_of (State.attAbort_core s)

@[simp] theorem State.unitsReset_pins (s : State) : (State.unitsReset s).pins = s.pins := by
  unfold State.unitsReset; simp

@[simp] theorem State.unitsReset_nvdWf (s : State) (hs : s.nvdWf = true) : (State.unitsReset s).nvdWf = true := by
  unfold State.unitsReset Nvd.stop
  dsimp only
  rw [nvdWf_mk]
  dsimp only
  rw [nvdWf_eta, State.attAbort_nvdWf, hs]

@[simp] theorem State.stopTest_core (s : State) : (State.stopTest s).core = s.core := by
  unfold State.stopTest; simp
@[simp] theorem State.stopTest_rest (s : State) : (State.stopTest s).rest = s.rest := rest_of (State.stopTest_core s)
@[simp] theorem State.stopTest_nvdWf (s : State) : (State.stopTest s).nvdWf = s.nvdWf := nvdWf_of (State.stopTest_core
    s)
@[simp] theorem State.stopTest_bare (s : State) : (State.stopTest s).bare = s.bare := bare_of (State.stopTest_core s)
@[simp] theorem State.stopTest_pins (s : State) : (State.stopTest s).pins = s.pins := pins_of (State.stopTest_core s)

@[simp] theorem State.enterBoot_pins (s : State) (cause : Nat) : (State.enterBoot s cause).pins = s.pins := by
  unfold State.enterBoot; simp

@[simp] theorem State.enterBoot_nvdWf (s : State) (cause : Nat) (hs : s.nvdWf = true) : (State.enterBoot s cause).nvdWf
    = true := by
  unfold State.enterBoot; simp [hs]

@[simp] theorem State.enterLoad_pins (s : State) : (State.enterLoad s).pins = s.pins := by
  unfold State.enterLoad; simp

@[simp] theorem State.enterLoad_nvdWf (s : State) (hs : s.nvdWf = true) : (State.enterLoad s).nvdWf = true := by
  unfold State.enterLoad; simp [hs]

theorem execRstNHigh1ms_bare (s : State) : ∀ t, execRstNHigh1ms s = .next t → t.bare = s.bare := by
  rintro t ⟨⟩; simp

theorem execRstNHigh1ms_nvdWf (s : State) (hs : s.nvdWf = true) : ∀ t, execRstNHigh1ms s = .next t → t.nvdWf = true := by
  rintro t ⟨⟩; simp [hs]

@[simp] theorem State.goRun_core (s : State) (cause : Nat) (h : s.hk.mode ≠ .boot) : (State.goRun s cause).core = s.core
    := by
  unfold State.goRun
  rw [State.unparkAll_core, State.modeGo_core _ _ _ (by rw [mode_of (State.checkBegins_core _), mode_of (State.fullBias_core _), mode_of (State.latch_core s _)]; exact h),
    State.checkBegins_core, State.fullBias_core, State.latch_core]
@[simp] theorem State.goRun_rest (s : State) (cause : Nat) (h : s.hk.mode ≠ .boot) : ((State.goRun s cause)).rest = s.rest
    := rest_of (State.goRun_core s cause h)
@[simp] theorem State.goRun_nvdWf (s : State) (cause : Nat) (h : s.hk.mode ≠ .boot) : ((State.goRun s cause)).nvdWf
    = s.nvdWf := nvdWf_of (State.goRun_core s cause h)
@[simp] theorem State.goRun_bare (s : State) (cause : Nat) (h : s.hk.mode ≠ .boot) : ((State.goRun s cause)).bare = s.bare
    := bare_of (State.goRun_core s cause h)
@[simp] theorem State.goRun_pins (s : State) (cause : Nat) (h : s.hk.mode ≠ .boot) : ((State.goRun s cause)).pins = s.pins
    := pins_of (State.goRun_core s cause h)

@[simp] theorem State.goDrain_core (s : State) (cause : Nat) (h : s.hk.mode ≠ .boot) : (State.goDrain s cause).core
    = s.core := by
  unfold State.goDrain
  rw [State.modeGo_core _ _ _ (by rw [mode_of (State.endRun_core s 2 cause)]; exact h), State.endRun_core]
@[simp] theorem State.goDrain_rest (s : State) (cause : Nat) (h : s.hk.mode ≠ .boot) : ((State.goDrain s cause)).rest
    = s.rest := rest_of (State.goDrain_core s cause h)
@[simp] theorem State.goDrain_nvdWf (s : State) (cause : Nat) (h : s.hk.mode ≠ .boot) : ((State.goDrain s cause)).nvdWf
    = s.nvdWf := nvdWf_of (State.goDrain_core s cause h)
@[simp] theorem State.goDrain_bare (s : State) (cause : Nat) (h : s.hk.mode ≠ .boot) : ((State.goDrain s cause)).bare
    = s.bare := bare_of (State.goDrain_core s cause h)
@[simp] theorem State.goDrain_pins (s : State) (cause : Nat) (h : s.hk.mode ≠ .boot) : ((State.goDrain s cause)).pins
    = s.pins := pins_of (State.goDrain_core s cause h)

@[simp] theorem State.startReq_bare (s : State) (code : Nat) : (State.startReq s code).bare = s.bare := by
  unfold State.startReq
  dsimp only
  rw [State.setFld_bare]
  split
  · exact State.modeGo_bare' _ _ _
  · exact State.modeGo_bare' _ _ _
  · rw [State.unparkAll_bare, State.modeGo_bare', State.checkBegins_bare, State.fullBias_bare]
  · unfold State.goRun; rw [State.unparkAll_bare, State.modeGo_bare', State.checkBegins_bare, State.fullBias_bare, State.latch_bare]
  · unfold State.goDrain; rw [State.modeGo_bare', State.endRun_bare]
  · exact State.enterSafe_bare _ _
  · rw [State.unparkAll_bare, State.modeGo_bare', State.fullBias_bare]
  · exact State.modeGo_bare' _ _ _
@[simp] theorem State.startReq_pins (s : State) (code : Nat) : ((State.startReq s code)).pins = s.pins := pins_of_bare
    (State.startReq_bare s code)

@[simp] theorem State.startReq_nvdWf (s : State) (code : Nat) (hs : s.nvdWf = true) : (State.startReq s code).nvdWf = true
    := by
  unfold State.startReq
  dsimp only
  rw [State.setFld_nvdWf]
  split
  · rw [State.modeGo_nvdWf', hs]
  · rw [State.modeGo_nvdWf', hs]
  · rw [State.unparkAll_nvdWf, State.modeGo_nvdWf', State.checkBegins_nvdWf, State.fullBias_nvdWf, hs]
  · unfold State.goRun; rw [State.unparkAll_nvdWf, State.modeGo_nvdWf', State.checkBegins_nvdWf, State.fullBias_nvdWf, State.latch_nvdWf, hs]
  · unfold State.goDrain; rw [State.modeGo_nvdWf', State.endRun_nvdWf, hs]
  · rw [State.enterSafe_nvdWf, hs]
  · rw [State.unparkAll_nvdWf, State.modeGo_nvdWf', State.fullBias_nvdWf, hs]
  · rw [State.modeGo_nvdWf', hs]

@[simp] theorem Rep.modeReject_core (s : State) : (Rep.modeReject s).st.core = s.core := by
  unfold Rep.modeReject; simp
@[simp] theorem Rep.modeReject_rest (s : State) : ((Rep.modeReject s).st).rest = s.rest := rest_of (Rep.modeReject_core s)
@[simp] theorem Rep.modeReject_nvdWf (s : State) : ((Rep.modeReject s).st).nvdWf = s.nvdWf
    := nvdWf_of (Rep.modeReject_core s)
@[simp] theorem Rep.modeReject_bare (s : State) : ((Rep.modeReject s).st).bare = s.bare := bare_of (Rep.modeReject_core s)
@[simp] theorem Rep.modeReject_pins (s : State) : ((Rep.modeReject s).st).pins = s.pins := pins_of (Rep.modeReject_core s)

@[simp] theorem State.modeReq_bare (s : State) (code : Nat) : (State.modeReq s code).st.bare = s.bare := by
  have hr : (Rep.modeReject s).st.bare = s.bare := by unfold Rep.modeReject; exact State.count_bare _ _ _
  unfold State.modeReq
  split
  · exact Rep.done_bare _
  split
  · exact Rep.no_bare _ _
  split
  · split
    · exact Rep.done_bare _
    split
    · split
      · exact hr
      split
      · rw [Rep.done_bare, State.enterSafe_bare]
      · rw [Rep.done_bare, State.setFld_bare, State.enterSafe_bare]
    · exact hr
  · split
    · exact hr
    · exact Rep.done_bare _
    · split
      · exact Rep.no_bare _ _
      · rw [Rep.done_bare, State.startReq_bare]
@[simp] theorem State.modeReq_pins (s : State) (code : Nat) : ((State.modeReq s code).st).pins = s.pins := pins_of_bare
    (State.modeReq_bare s code)

@[simp] theorem State.modeReq_nvdWf (s : State) (code : Nat) (hs : s.nvdWf = true) : (State.modeReq s code).st.nvdWf
    = true := by
  have hr : (Rep.modeReject s).st.nvdWf = true := by unfold Rep.modeReject; rw [State.count_nvdWf, hs]
  unfold State.modeReq
  split
  · rw [Rep.done_nvdWf, hs]
  split
  · rw [Rep.no_nvdWf, hs]
  split
  · split
    · rw [Rep.done_nvdWf, hs]
    split
    · split
      · exact hr
      split
      · rw [Rep.done_nvdWf, State.enterSafe_nvdWf, hs]
      · rw [Rep.done_nvdWf, State.setFld_nvdWf, State.enterSafe_nvdWf, hs]
    · exact hr
  · split
    · exact hr
    · rw [Rep.done_nvdWf, hs]
    · split
      · rw [Rep.no_nvdWf, hs]
      · rw [Rep.done_nvdWf]; exact State.startReq_nvdWf _ _ hs

@[simp] theorem State.modeReqWrite_bare (s : State) (data : W32) (be : BitVec 4) : (State.modeReqWrite s data be).st.bare
    = s.bare := by
  unfold State.modeReqWrite; simp
@[simp] theorem State.modeReqWrite_pins (s : State) (data : W32) (be : BitVec 4)
    : ((State.modeReqWrite s data be).st).pins = s.pins := pins_of_bare (State.modeReqWrite_bare s data be)

@[simp] theorem State.modeReqWrite_nvdWf (s : State) (data : W32) (be : BitVec 4) (hs : s.nvdWf = true) :
    (State.modeReqWrite s data be).st.nvdWf = true := by
  unfold State.modeReqWrite; simp [hs]

theorem execReqLoad_bare (lane : Lane) (s : State) : ∀ t, execReqLoad lane s = .next t → t.bare = s.bare := by
  rintro t ⟨⟩; simp

theorem execReqLoad_nvdWf (lane : Lane) (s : State) (hs : s.nvdWf = true) : ∀ t, execReqLoad lane s = .next t → t.nvdWf
    = true := by
  rintro t ⟨⟩
  exact State.access_nvdWf _ _ _ _ (fun t ht => State.modeReq_nvdWf _ _ ht) (by simp [hs])

theorem execReqSimmer_bare (lane : Lane) (s : State) : ∀ t, execReqSimmer lane s = .next t → t.bare = s.bare := by
  rintro t ⟨⟩; simp

theorem execReqSimmer_nvdWf (lane : Lane) (s : State) (hs : s.nvdWf = true) : ∀ t, execReqSimmer lane s
    = .next t → t.nvdWf = true := by
  rintro t ⟨⟩
  exact State.access_nvdWf _ _ _ _ (fun t ht => State.modeReq_nvdWf _ _ ht) (by simp [hs])

theorem execReqCalib_bare (lane : Lane) (s : State) : ∀ t, execReqCalib lane s = .next t → t.bare = s.bare := by
  rintro t ⟨⟩; simp

theorem execReqCalib_nvdWf (lane : Lane) (s : State) (hs : s.nvdWf = true) : ∀ t, execReqCalib lane s = .next t → t.nvdWf
    = true := by
  rintro t ⟨⟩
  exact State.access_nvdWf _ _ _ _ (fun t ht => State.modeReq_nvdWf _ _ ht) (by simp [hs])

theorem execReqRun_bare (lane : Lane) (s : State) : ∀ t, execReqRun lane s = .next t → t.bare = s.bare := by
  rintro t ⟨⟩; simp

theorem execReqRun_nvdWf (lane : Lane) (s : State) (hs : s.nvdWf = true) : ∀ t, execReqRun lane s = .next t → t.nvdWf
    = true := by
  rintro t ⟨⟩
  exact State.access_nvdWf _ _ _ _ (fun t ht => State.modeReq_nvdWf _ _ ht) (by simp [hs])

theorem execReqDrain_bare (lane : Lane) (now : Nat) (s : State) : ∀ t, execReqDrain lane now s = .next t → t.bare = s.bare
    := by
  rintro t ⟨⟩; simp

theorem execReqDrain_nvdWf (lane : Lane) (now : Nat) (s : State) (hs : s.nvdWf = true) : ∀ t, execReqDrain lane now s
    = .next t → t.nvdWf = true := by
  rintro t ⟨⟩
  exact State.access_nvdWf _ _ _ _ (fun t ht => State.modeReq_nvdWf _ _ ht) (by simp [hs])

theorem execReqSafe_bare (lane : Lane) (now : Nat) (s : State) : ∀ t, execReqSafe lane now s = .next t → t.bare = s.bare
    := by
  rintro t ⟨⟩; simp

theorem execReqSafe_nvdWf (lane : Lane) (now : Nat) (s : State) (hs : s.nvdWf = true) : ∀ t, execReqSafe lane now s
    = .next t → t.nvdWf = true := by
  rintro t ⟨⟩
  exact State.access_nvdWf _ _ _ _ (fun t ht => State.modeReq_nvdWf _ _ ht) (by simp [hs])

theorem execReqTest_bare (lane : Lane) (s : State) : ∀ t, execReqTest lane s = .next t → t.bare = s.bare := by
  rintro t ⟨⟩; simp

theorem execReqTest_nvdWf (lane : Lane) (s : State) (hs : s.nvdWf = true) : ∀ t, execReqTest lane s = .next t → t.nvdWf
    = true := by
  rintro t ⟨⟩
  exact State.access_nvdWf _ _ _ _ (fun t ht => State.modeReq_nvdWf _ _ ht) (by simp [hs])

theorem execSafeExit_bare (lane : Lane) (s : State) : ∀ t, execSafeExit lane s = .next t → t.bare = s.bare := by
  rintro t ⟨⟩; simp

theorem execSafeExit_nvdWf (lane : Lane) (s : State) (hs : s.nvdWf = true) : ∀ t, execSafeExit lane s = .next t → t.nvdWf
    = true := by
  rintro t ⟨⟩
  exact State.access_nvdWf _ _ _ _ (fun t ht => State.modeReq_nvdWf _ _ ht) hs

@[simp] theorem State.stopData_core (s : State) : (State.stopData s).core = s.core := by
  unfold State.stopData; simp
@[simp] theorem State.stopData_rest (s : State) : ((State.stopData s)).rest = s.rest := rest_of (State.stopData_core s)
@[simp] theorem State.stopData_nvdWf (s : State) : ((State.stopData s)).nvdWf = s.nvdWf := nvdWf_of (State.stopData_core s)
@[simp] theorem State.stopData_bare (s : State) : ((State.stopData s)).bare = s.bare := bare_of (State.stopData_core s)
@[simp] theorem State.stopData_pins (s : State) : ((State.stopData s)).pins = s.pins := pins_of (State.stopData_core s)

@[simp] theorem State.stopTasks_core (s : State) : (State.stopTasks s).core = s.core := by
  unfold State.stopTasks; simp
@[simp] theorem State.stopTasks_rest (s : State) : ((State.stopTasks s)).rest = s.rest := rest_of (State.stopTasks_core s)
@[simp] theorem State.stopTasks_nvdWf (s : State) : ((State.stopTasks s)).nvdWf = s.nvdWf := nvdWf_of
    (State.stopTasks_core s)
@[simp] theorem State.stopTasks_bare (s : State) : ((State.stopTasks s)).bare = s.bare := bare_of (State.stopTasks_core s)
@[simp] theorem State.stopTasks_pins (s : State) : ((State.stopTasks s)).pins = s.pins := pins_of (State.stopTasks_core s)

@[simp] theorem State.leaveTest_core (s : State) : (State.leaveTest s).core = s.core := by
  unfold State.leaveTest; simp
@[simp] theorem State.leaveTest_rest (s : State) : ((State.leaveTest s)).rest = s.rest := rest_of (State.leaveTest_core s)
@[simp] theorem State.leaveTest_nvdWf (s : State) : ((State.leaveTest s)).nvdWf = s.nvdWf := nvdWf_of
    (State.leaveTest_core s)
@[simp] theorem State.leaveTest_bare (s : State) : ((State.leaveTest s)).bare = s.bare := bare_of (State.leaveTest_core s)
@[simp] theorem State.leaveTest_pins (s : State) : ((State.leaveTest s)).pins = s.pins := pins_of (State.leaveTest_core s)

@[simp] theorem State.finishResume_core (s : State) (failed : List Nat) : (State.finishResume s failed).core = s.core := by
  unfold State.finishResume
  refine foldl_core _ (fun t n => ?_) _ _
  dsimp only
  split
  · split
    · exact State.laneReachesUp_core _ _ _
    · exact State.startBringUp_core _ _
  · rfl
@[simp] theorem State.finishResume_rest (s : State) (failed : List Nat) : ((State.finishResume s failed)).rest = s.rest
    := rest_of (State.finishResume_core s failed)
@[simp] theorem State.finishResume_nvdWf (s : State) (failed : List Nat) : ((State.finishResume s failed)).nvdWf = s.nvdWf
    := nvdWf_of (State.finishResume_core s failed)
@[simp] theorem State.finishResume_bare (s : State) (failed : List Nat) : ((State.finishResume s failed)).bare = s.bare
    := bare_of (State.finishResume_core s failed)
@[simp] theorem State.finishResume_pins (s : State) (failed : List Nat) : ((State.finishResume s failed)).pins = s.pins
    := pins_of (State.finishResume_core s failed)

@[simp] theorem State.ringCheck_core (s : State) : (State.ringCheck s).core = s.core := by
  unfold State.ringCheck; dsimp only
  repeat' (first | (simp; done) | split)
@[simp] theorem State.ringCheck_rest (s : State) : ((State.ringCheck s)).rest = s.rest := rest_of (State.ringCheck_core s)
@[simp] theorem State.ringCheck_nvdWf (s : State) : ((State.ringCheck s)).nvdWf = s.nvdWf := nvdWf_of
    (State.ringCheck_core s)
@[simp] theorem State.ringCheck_bare (s : State) : ((State.ringCheck s)).bare = s.bare := bare_of (State.ringCheck_core s)
@[simp] theorem State.ringCheck_pins (s : State) : ((State.ringCheck s)).pins = s.pins := pins_of (State.ringCheck_core s)

@[simp] theorem State.calibCheck_core (s : State) : (State.calibCheck s).core = s.core := by
  unfold State.calibCheck; split <;> simp
@[simp] theorem State.calibCheck_rest (s : State) : (State.calibCheck s).rest = s.rest := rest_of
    (State.calibCheck_core s)
@[simp] theorem State.calibCheck_nvdWf (s : State) : (State.calibCheck s).nvdWf = s.nvdWf := nvdWf_of
    (State.calibCheck_core s)
@[simp] theorem State.calibCheck_bare (s : State) : (State.calibCheck s).bare = s.bare := bare_of
    (State.calibCheck_core s)
@[simp] theorem State.calibCheck_pins (s : State) : (State.calibCheck s).pins = s.pins := pins_of
    (State.calibCheck_core s)

@[simp] theorem State.parkLoaded_core (s : State) : (State.parkLoaded s).core = s.core := by
  unfold State.parkLoaded; simp
@[simp] theorem State.parkLoaded_rest (s : State) : ((State.parkLoaded s)).rest = s.rest := rest_of
    (State.parkLoaded_core s)
@[simp] theorem State.parkLoaded_nvdWf (s : State) : ((State.parkLoaded s)).nvdWf = s.nvdWf := nvdWf_of
    (State.parkLoaded_core s)
@[simp] theorem State.parkLoaded_bare (s : State) : ((State.parkLoaded s)).bare = s.bare := bare_of
    (State.parkLoaded_core s)
@[simp] theorem State.parkLoaded_pins (s : State) : ((State.parkLoaded s)).pins = s.pins := pins_of
    (State.parkLoaded_core s)

@[simp] theorem State.toCalib_pins (s : State) (env : EntryEnv) : (State.toCalib s env).pins = s.pins := by
  unfold State.toCalib; simp

@[simp] theorem State.toCalib_nvdWf (s : State) (env : EntryEnv) (hs : s.nvdWf = true) : (State.toCalib s env).nvdWf
    = true := by
  unfold State.toCalib; simp [hs]

@[simp] theorem State.toTest_pins (s : State) (env : EntryEnv) : (State.toTest s env).pins = s.pins := by
  unfold State.toTest; simp

@[simp] theorem State.toTest_nvdWf (s : State) (env : EntryEnv) (hs : s.nvdWf = true) : (State.toTest s env).nvdWf = true
    := by
  unfold State.toTest; simp [hs]

@[simp] theorem State.toSimmer_pins (s : State) (env : EntryEnv) : (State.toSimmer s env).pins = s.pins := by
  unfold State.toSimmer; dsimp only
  repeat' (first | (simp; done) | split)

@[simp] theorem State.toSimmer_nvdWf (s : State) (env : EntryEnv) (hs : s.nvdWf = true) : (State.toSimmer s env).nvdWf
    = true := by
  unfold State.toSimmer; dsimp only
  repeat' (first | (simp [hs]; done) | split)

@[simp] theorem State.toSafe_pins (s : State) (env : EntryEnv) : (State.toSafe s env).pins = s.pins := by
  unfold State.toSafe; simp

@[simp] theorem State.toSafe_nvdWf (s : State) (env : EntryEnv) (hs : s.nvdWf = true) : (State.toSafe s env).nvdWf = true
    := by
  unfold State.toSafe; simp [hs]

@[simp] theorem State.openRun_core (s : State) (sf : Nat) (named : Nat) : (State.openRun s sf named).core = s.core := by
  unfold State.openRun; simp
@[simp] theorem State.openRun_rest (s : State) (sf : Nat) (named : Nat) : ((State.openRun s sf named)).rest = s.rest
    := rest_of (State.openRun_core s sf named)
@[simp] theorem State.openRun_nvdWf (s : State) (sf : Nat) (named : Nat) : ((State.openRun s sf named)).nvdWf = s.nvdWf
    := nvdWf_of (State.openRun_core s sf named)
@[simp] theorem State.openRun_bare (s : State) (sf : Nat) (named : Nat) : ((State.openRun s sf named)).bare = s.bare
    := bare_of (State.openRun_core s sf named)
@[simp] theorem State.openRun_pins (s : State) (sf : Nat) (named : Nat) : ((State.openRun s sf named)).pins = s.pins
    := pins_of (State.openRun_core s sf named)

@[simp] theorem State.aheadOf_core (s : State) (gs : List LGroup) : (State.aheadOf s gs).core = s.core := by
  unfold State.aheadOf; simp
@[simp] theorem State.aheadOf_rest (s : State) (gs : List LGroup) : ((State.aheadOf s gs)).rest = s.rest := rest_of
    (State.aheadOf_core s gs)
@[simp] theorem State.aheadOf_nvdWf (s : State) (gs : List LGroup) : ((State.aheadOf s gs)).nvdWf = s.nvdWf := nvdWf_of
    (State.aheadOf_core s gs)
@[simp] theorem State.aheadOf_bare (s : State) (gs : List LGroup) : ((State.aheadOf s gs)).bare = s.bare := bare_of
    (State.aheadOf_core s gs)
@[simp] theorem State.aheadOf_pins (s : State) (gs : List LGroup) : ((State.aheadOf s gs)).pins = s.pins := pins_of
    (State.aheadOf_core s gs)

/-- A marker that takes effect finds the module in RUN. -/
theorem State.spillMisses_mode {s : State} {n : Nat} (h : s.spillMisses n = false) : s.hk.mode ≠ .boot := by
  unfold State.spillMisses at h
  intro hb
  rw [hb] at h
  simp at h

theorem State.spillInTime_core (s : State) (n : Nat) (h : s.hk.mode ≠ .boot) : (State.spillInTime s n).core = s.core := by
  unfold State.spillInTime
  dsimp only
  rw [State.modeGo_core _ _ _ (by rw [mode_of (State.dropSyncs_core _ _)]; exact h), State.dropSyncs_core, core_mk, core_eta]

@[simp] theorem State.spillEnd_core (s : State) (n : Nat) : (State.spillEnd s n).2.core = s.core := by
  unfold State.spillEnd
  split
  · rfl
  · next h =>
    have h' : s.hk.mode ≠ .boot := State.spillMisses_mode (by simpa using h)
    split
    · exact State.spillInTime_core _ _ h'
    · rw [State.goDrain_core _ _ (by rw [mode_of (State.event_core _ _ _)]; exact h'), State.event_core]
@[simp] theorem State.spillEnd_rest (s : State) (n : Nat) : ((State.spillEnd s n).2).rest = s.rest := rest_of
    (State.spillEnd_core s n)
@[simp] theorem State.spillEnd_nvdWf (s : State) (n : Nat) : ((State.spillEnd s n).2).nvdWf = s.nvdWf := nvdWf_of
    (State.spillEnd_core s n)
@[simp] theorem State.spillEnd_bare (s : State) (n : Nat) : ((State.spillEnd s n).2).bare = s.bare := bare_of
    (State.spillEnd_core s n)
@[simp] theorem State.spillEnd_pins (s : State) (n : Nat) : ((State.spillEnd s n).2).pins = s.pins := pins_of
    (State.spillEnd_core s n)

@[simp] theorem State.spillIgnored_core (s : State) : (State.spillIgnored s).core = s.core := by
  unfold State.spillIgnored; simp
@[simp] theorem State.spillIgnored_rest (s : State) : ((State.spillIgnored s)).rest = s.rest := rest_of
    (State.spillIgnored_core s)
@[simp] theorem State.spillIgnored_nvdWf (s : State) : ((State.spillIgnored s)).nvdWf = s.nvdWf := nvdWf_of
    (State.spillIgnored_core s)
@[simp] theorem State.spillIgnored_bare (s : State) : ((State.spillIgnored s)).bare = s.bare := bare_of
    (State.spillIgnored_core s)
@[simp] theorem State.spillIgnored_pins (s : State) : ((State.spillIgnored s)).pins = s.pins := pins_of
    (State.spillIgnored_core s)

@[simp] theorem State.heldEnd_core (x : State) (held : Option (Nat × Bool)) : (State.heldEnd x held).core = x.core := by
  unfold State.heldEnd
  split
  · rfl
  · have key : ∀ r : Bool × State, (if r.1 then r.2.spillIgnored else r.2).core = r.2.core := fun r => by
      split <;> simp
    dsimp only
    rw [key]
    split
    · rfl
    · split
      · next h =>
        exact State.spillInTime_core _ _ (State.spillMisses_mode (by simpa using (Bool.and_eq_true_iff.1 h).2))
      · exact State.spillEnd_core _ _
@[simp] theorem State.heldEnd_rest (x : State) (held : Option (Nat × Bool)) : ((State.heldEnd x held)).rest = x.rest := rest_of
    (State.heldEnd_core x held)
@[simp] theorem State.heldEnd_nvdWf (x : State) (held : Option (Nat × Bool)) : ((State.heldEnd x held)).nvdWf = x.nvdWf := nvdWf_of
    (State.heldEnd_core x held)
@[simp] theorem State.heldEnd_bare (x : State) (held : Option (Nat × Bool)) : ((State.heldEnd x held)).bare = x.bare := bare_of
    (State.heldEnd_core x held)
@[simp] theorem State.heldEnd_pins (x : State) (held : Option (Nat × Bool)) : ((State.heldEnd x held)).pins = x.pins := pins_of
    (State.heldEnd_core x held)

@[simp] theorem State.toRun_pins (s : State) (env : EntryEnv) : (State.toRun s env).pins = s.pins := by
  have hg (l : List Nat) (u : State) :
      (l.foldl (fun (x : State) n => (x.aheadOf [aloneGroup n (recGap n 3)]).errLoss x.activeDie 3) u).pins = u.pins :=
    foldl_pins _ (fun t x => by rw [State.errLoss_pins, State.aheadOf_pins]) _ _
  have hx (w : State) (c : Nat) : (({ w with hk := { w.hk with
      heldSpillEnd := none, spillSf := none, spillEntry := false } } : State).modeDone .run c).pins = w.pins := by
    rw [State.modeDone_pins]; rfl
  have hb (f : State → Barrier → Barrier) (l : List Barrier) (u : State) :
      (l.foldl (fun (x : State) b => x.standBarrier (f x b)) u).pins = u.pins :=
    foldl_pins _ (fun t x => State.standBarrier_pins _ _) _ _
  unfold State.toRun
  dsimp only
  rw [State.heldEnd_pins, hx, State.advanceTo_pins, State.eventIf_pins, hb (fun _ b => { b with after := _ }), hg,
    State.aheadOf_pins, State.openRun_pins, State.startSamplers_pins, State.ringCheck_pins, State.finishResume_pins,
    State.runFlushes_pins, State.advanceTo_pins]

@[simp] theorem State.toRun_nvdWf (s : State) (env : EntryEnv) (hs : s.nvdWf = true) : (State.toRun s env).nvdWf = true
    := by
  have hg (l : List Nat) (u : State) (hu : u.nvdWf = true) :
      (l.foldl (fun (x : State) n => (x.aheadOf [aloneGroup n (recGap n 3)]).errLoss x.activeDie 3) u).nvdWf = true :=
    foldl_nvdWf _ (fun t x ht => by rw [State.errLoss_nvdWf, State.aheadOf_nvdWf, ht]) _ _ hu
  unfold State.toRun
  dsimp only
  rw [State.heldEnd_nvdWf, State.modeDone_nvdWf, nvdWf_mk, nvdWf_eta, State.advanceTo_nvdWf, State.eventIf_nvdWf]
  refine foldl_nvdWf _ (fun t x ht => by rw [State.standBarrier_nvdWf, ht]) _ _ (hg _ _ ?_)
  rw [State.aheadOf_nvdWf, State.openRun_nvdWf, State.startSamplers_nvdWf, State.ringCheck_nvdWf, State.finishResume_nvdWf,
    State.runFlushes_nvdWf, State.advanceTo_nvdWf, hs]

theorem execLoadComplete_core (s : State) : ∀ t, execLoadComplete s = .next t → t.core = s.core := by
  rintro t ⟨⟩
  split
  · rfl
  · rename_i h
    have h' : s.hk.mode ≠ .boot := by
      intro hb; rw [hb] at h; exact h (.inl (by decide))
    split
    · rfl
    all_goals rw [State.startBringUp_core, State.modeGo_core _ _ _ h']

theorem execLane0WaitExpire_core (s : State) : ∀ t, execLane0WaitExpire s = .next t → t.core = s.core := by
  rintro t ⟨⟩; simp

theorem execParkWindowExpire_core (s : State) : ∀ t, execParkWindowExpire s = .next t → t.core = s.core := by
  rintro t ⟨⟩; simp

theorem execModeTransitionComplete_pins (env : EntryEnv) (s : State) : ∀ t, execModeTransitionComplete env s
    = .next t → t.pins = s.pins := by
  rintro t ⟨⟩
  split
  · rfl
  · exact State.enterLoad_pins _
  · exact State.toSimmer_pins _ _
  · exact State.toCalib_pins _ _
  · exact State.toRun_pins _ _
  · split
    · rfl
    · exact State.toSafe_pins _ _
  · exact State.toTest_pins _ _
  · rw [State.bootHk_pins, pins_mk]; simp only [pins_eta]; rw [State.modeDone_pins]
  · rfl

theorem execModeTransitionComplete_nvdWf (env : EntryEnv) (s : State) (hs : s.nvdWf = true)
    : ∀ t, execModeTransitionComplete env s = .next t → t.nvdWf = true := by
  rintro t ⟨⟩
  split
  · exact hs
  · exact State.enterLoad_nvdWf _ hs
  · exact State.toSimmer_nvdWf _ _ hs
  · exact State.toCalib_nvdWf _ _ hs
  · exact State.toRun_nvdWf _ _ hs
  · split
    · exact hs
    · exact State.toSafe_nvdWf _ _ hs
  · exact State.toTest_nvdWf _ _ hs
  · rw [State.bootHk_nvdWf, nvdWf_mk]; simp only [nvdWf_eta]; rw [State.modeDone_nvdWf, hs]
  · exact hs

theorem execCalibTaskComplete_core (s : State) : ∀ t, execCalibTaskComplete s = .next t → t.core = s.core := by
  rintro t ⟨⟩
  split
  · rename_i h
    exact State.modeGo_core _ _ _ (by rw [h.1]; decide)
  · rfl

theorem execDrainComplete_pins (s : State) : ∀ t, execDrainComplete s = .next t → t.pins = s.pins := by
  rintro t ⟨⟩; simp

theorem execDrainComplete_nvdWf (s : State) (hs : s.nvdWf = true) : ∀ t, execDrainComplete s = .next t → t.nvdWf = true
    := by
  rintro t ⟨⟩; simp [hs]

theorem execSafeDrainEnd_core (s : State) : ∀ t, execSafeDrainEnd s = .next t → t.core = s.core := by
  rintro t ⟨⟩; simp

theorem State.marker_core (s : State) (kind mode mseq slice : Nat) (act : State → Bool × State)
    (h : ∀ t, (act t).2.core = t.core) : (s.marker kind mode mseq slice act).core = s.core := by
  unfold State.marker; dsimp only
  split
  · rfl
  · split
    · simp
    · simp [h]

theorem State.marker_bare (s : State) (kind mode mseq slice : Nat) (act : State → Bool × State)
    (h : ∀ t, (act t).2.bare = t.bare) : (s.marker kind mode mseq slice act).bare = s.bare := by
  unfold State.marker; dsimp only
  split
  · rfl
  · split
    · simp
    · simp [h]

theorem State.marker_nvdWf (s : State) (kind mode mseq slice : Nat) (act : State → Bool × State)
    (h : ∀ t, t.nvdWf = true → (act t).2.nvdWf = true) (hs : s.nvdWf = true) :
    (s.marker kind mode mseq slice act).nvdWf = true := by
  unfold State.marker; dsimp only
  split
  · exact hs
  · split
    · simp [hs]
    · simp only [State.setReg_nvdWf]; refine h _ ?_; simp [hs]

@[simp] theorem State.markIgnored_core (r : Bool × State) : (State.markIgnored r).2.core = r.2.core := by
  unfold State.markIgnored
  split
  · exact State.markLost_core _
  · rfl
@[simp] theorem State.markIgnored_rest (r : Bool × State) : ((State.markIgnored r).2).rest = r.2.rest := rest_of
    (State.markIgnored_core r)
@[simp] theorem State.markIgnored_nvdWf (r : Bool × State) : ((State.markIgnored r).2).nvdWf = r.2.nvdWf := nvdWf_of
    (State.markIgnored_core r)
@[simp] theorem State.markIgnored_bare (r : Bool × State) : ((State.markIgnored r).2).bare = r.2.bare := bare_of
    (State.markIgnored_core r)
@[simp] theorem State.markIgnored_pins (r : Bool × State) : ((State.markIgnored r).2).pins = r.2.pins := pins_of
    (State.markIgnored_core r)

@[simp] theorem State.spillJudged_core (r : Bool × State) : (State.spillJudged r).2.core = r.2.core := by
  unfold State.spillJudged; simp
@[simp] theorem State.spillJudged_rest (r : Bool × State) : ((State.spillJudged r).2).rest = r.2.rest := rest_of
    (State.spillJudged_core r)
@[simp] theorem State.spillJudged_nvdWf (r : Bool × State) : ((State.spillJudged r).2).nvdWf = r.2.nvdWf := nvdWf_of
    (State.spillJudged_core r)
@[simp] theorem State.spillJudged_bare (r : Bool × State) : ((State.spillJudged r).2).bare = r.2.bare := bare_of
    (State.spillJudged_core r)
@[simp] theorem State.spillJudged_pins (r : Bool × State) : ((State.spillJudged r).2).pins = r.2.pins := pins_of
    (State.spillJudged_core r)

theorem State.markStart_core (s : State) (mseq slice : Nat) : (s.markStart mseq slice).core = s.core := by
  refine State.marker_core _ _ _ _ _ _ (fun t => ?_)
  rw [State.spillJudged_core]
  split
  · rfl
  · rename_i h
    have h' : t.hk.mode ≠ .boot := fun hb => h (.inr (.inl (by rw [hb]; decide)))
    rw [core_mk, core_eta, State.goRun_core _ _ h']

theorem execMarkSpillStart_core (mseq : BitVec 16) (slice : W32) (now : Nat) (s : State)
    : ∀ t, execMarkSpillStart mseq slice now s = .next t → t.core = s.core := by
  rintro t ⟨⟩; rw [State.markStart_core, State.advanceTo_core]

theorem State.markEnd_core (s : State) (mseq slice : Nat) : (s.markEnd mseq slice).core = s.core := by
  refine State.marker_core _ _ _ _ _ _ (fun t => ?_)
  rw [State.spillJudged_core]
  split
  · rfl
  · split
    · rfl
    · exact State.spillEnd_core _ _

theorem execMarkSpillEnd_core (mseq : BitVec 16) (slice : W32) (now : Nat) (s : State)
    : ∀ t, execMarkSpillEnd mseq slice now s = .next t → t.core = s.core := by
  rintro t ⟨⟩; rw [State.markEnd_core, State.advanceTo_core]

@[simp] theorem State.placeSync_core (s : State) (n : Nat) (id : Nat) : (State.placeSync s n id).2.core = s.core := by
  unfold State.placeSync; simp
@[simp] theorem State.placeSync_rest (s : State) (n : Nat) (id : Nat) : ((State.placeSync s n id).2).rest = s.rest
    := rest_of (State.placeSync_core s n id)
@[simp] theorem State.placeSync_nvdWf (s : State) (n : Nat) (id : Nat) : ((State.placeSync s n id).2).nvdWf = s.nvdWf
    := nvdWf_of (State.placeSync_core s n id)
@[simp] theorem State.placeSync_bare (s : State) (n : Nat) (id : Nat) : ((State.placeSync s n id).2).bare = s.bare
    := bare_of (State.placeSync_core s n id)
@[simp] theorem State.placeSync_pins (s : State) (n : Nat) (id : Nat) : ((State.placeSync s n id).2).pins = s.pins
    := pins_of (State.placeSync_core s n id)

theorem State.markSync_core (s : State) (mseq slice id : Nat) : (s.markSync mseq slice id).core = s.core :=
  State.marker_core _ _ _ _ _ _ (fun t => by rw [State.markIgnored_core, State.placeSync_core])

theorem execMarkSync_core (mseq : BitVec 16) (slice : W32) (_tick : Nat) (id : BitVec 16) (now : Nat) (s : State)
    : ∀ t, execMarkSync mseq slice _tick id now s = .next t → t.core = s.core := by
  rintro t ⟨⟩; rw [State.markSync_core, State.advanceTo_core]

@[simp] theorem State.markFlush_core (s : State) (slice : Nat) (id : Nat) : (State.markFlush s slice id).2.core = s.core
    := by
  unfold State.markFlush; simp
@[simp] theorem State.markFlush_rest (s : State) (slice : Nat) (id : Nat) : ((State.markFlush s slice id).2).rest = s.rest
    := rest_of (State.markFlush_core s slice id)
@[simp] theorem State.markFlush_nvdWf (s : State) (slice : Nat) (id : Nat) : ((State.markFlush s slice id).2).nvdWf
    = s.nvdWf := nvdWf_of (State.markFlush_core s slice id)
@[simp] theorem State.markFlush_bare (s : State) (slice : Nat) (id : Nat) : ((State.markFlush s slice id).2).bare = s.bare
    := bare_of (State.markFlush_core s slice id)
@[simp] theorem State.markFlush_pins (s : State) (slice : Nat) (id : Nat) : ((State.markFlush s slice id).2).pins = s.pins
    := pins_of (State.markFlush_core s slice id)

theorem State.markFlushAt_core (s : State) (mseq slice id : Nat) : (s.markFlushAt mseq slice id).core = s.core := by
  have gen : ∀ act : State → Bool × State, (∀ t, act t = State.markIgnored (t.runFlushes.markFlush slice id)) →
      (s.marker 4 0 mseq slice act).core = s.core := fun act ha =>
    State.marker_core _ _ _ _ _ act (fun t => by rw [ha, State.markIgnored_core, State.markFlush_core, State.runFlushes_core])
  exact gen _ (fun t => rfl)

theorem execMarkFlush_core (mseq : BitVec 16) (slice : W32) (id : BitVec 16) (now : Nat) (s : State)
    : ∀ t, execMarkFlush mseq slice id now s = .next t → t.core = s.core := by
  rintro t ⟨⟩; rw [State.markFlushAt_core, State.advanceTo_core]

theorem State.markMode_bare (s : State) (mseq mode : Nat) : (s.markMode mseq mode).bare = s.bare := by
  refine State.marker_bare _ _ _ _ _ _ (fun t => ?_)
  dsimp only
  rw [State.markIgnored_bare]
  split
  · rfl
  · exact State.modeReq_bare _ _

theorem State.markMode_nvdWf (s : State) (mseq mode : Nat) (hs : s.nvdWf = true) : (s.markMode mseq mode).nvdWf = true := by
  refine State.marker_nvdWf _ _ _ _ _ _ (fun t ht => ?_) hs
  dsimp only
  rw [State.markIgnored_nvdWf]
  split
  · exact ht
  · exact State.modeReq_nvdWf _ _ ht

theorem execMarkMode_bare (mseq : BitVec 16) (mode : BitVec 4) (now : Nat) (s : State) : ∀ t, execMarkMode mseq mode now s
    = .next t → t.bare = s.bare := by
  rintro t ⟨⟩; rw [State.markMode_bare, State.advanceTo_bare]

theorem execMarkMode_nvdWf (mseq : BitVec 16) (mode : BitVec 4) (now : Nat) (s : State) (hs : s.nvdWf = true)
    : ∀ t, execMarkMode mseq mode now s = .next t → t.nvdWf = true := by
  rintro t ⟨⟩; exact State.markMode_nvdWf _ _ _ (by rw [State.advanceTo_nvdWf, hs])

theorem State.markFrame_bare (s : State) (a b : W64) : (s.markFrame a b).bare = s.bare := by
  unfold State.markFrame
  dsimp only
  split
  · exact bare_of (State.markStart_core _ _ _)
  · exact bare_of (State.markEnd_core _ _ _)
  · exact bare_of (State.markSync_core _ _ _ _)
  · exact bare_of (State.markFlushAt_core _ _ _ _)
  · exact State.markMode_bare _ _ _
  · exact State.marker_bare _ _ _ _ _ _ (fun t => State.markIgnored_bare _)

theorem State.markFrame_nvdWf (s : State) (a b : W64) (hs : s.nvdWf = true) : (s.markFrame a b).nvdWf = true := by
  unfold State.markFrame
  dsimp only
  split
  · rw [nvdWf_of (State.markStart_core _ _ _), hs]
  · rw [nvdWf_of (State.markEnd_core _ _ _), hs]
  · rw [nvdWf_of (State.markSync_core _ _ _ _), hs]
  · rw [nvdWf_of (State.markFlushAt_core _ _ _ _), hs]
  · exact State.markMode_nvdWf _ _ _ hs
  · exact State.marker_nvdWf _ _ _ _ _ _ (fun t ht => by rw [State.markIgnored_nvdWf, ht]) hs

theorem State.frameWhole_bare (s : State) (n : Nat) (ws : List W64) (tail : W64) (mark : State → W64 → W64 → State)
    (h : ∀ t a b, (mark t a b).bare = t.bare) : (s.frameWhole n ws tail mark).bare = s.bare := by
  unfold State.frameWhole; dsimp only
  repeat' (first | (simp; done) | (simp [h]; done) | split)

theorem State.frameWhole_nvdWf (s : State) (n : Nat) (ws : List W64) (tail : W64) (mark : State → W64 → W64 → State)
    (h : ∀ t a b, t.nvdWf = true → (mark t a b).nvdWf = true) (hs : s.nvdWf = true) :
    (s.frameWhole n ws tail mark).nvdWf = true := by
  unfold State.frameWhole; dsimp only
  repeat' (first | (simp [hs]; done) | (apply h; simp [hs]; done) | split)

theorem State.rxWord_bare (s : State) (n : Nat) (b : LineBlock) (mark : State → W64 → W64 → State)
    (h : ∀ t a b, (mark t a b).bare = t.bare) : (s.rxWord n b mark).bare = s.bare := by
  have hf := fun ws tail => State.frameWhole_bare s n ws tail mark h
  unfold State.rxWord; dsimp only
  repeat' (first | simp [hf] | split)

theorem State.rxWord_nvdWf (s : State) (n : Nat) (b : LineBlock) (mark : State → W64 → W64 → State)
    (h : ∀ t a b, t.nvdWf = true → (mark t a b).nvdWf = true) (hs : s.nvdWf = true) :
    (s.rxWord n b mark).nvdWf = true := by
  have hf := fun ws tail => State.frameWhole_nvdWf s n ws tail mark h hs
  unfold State.rxWord; dsimp only
  repeat' (first | simp [hf, hs] | split)

@[simp] theorem State.rxReserved_core (s : State) (n : Nat) (b : LineBlock) : (State.rxReserved s n b).core = s.core := by
  unfold State.rxReserved; dsimp only; repeat' split
  all_goals simp

theorem State.rxBlock_bare (s : State) (n : Nat) (b : LineBlock) (mark : State → W64 → W64 → State)
    (h : ∀ t a b, (mark t a b).bare = t.bare) : (s.rxBlock n b mark).bare = s.bare := by
  unfold State.rxBlock; dsimp only
  split
  · rfl
  · split
    · split <;> simp
    · split
      · rw [bare_of (State.rxReserved_core _ _ _), State.setLane_bare]
      · rw [State.rxWord_bare _ _ _ _ h, State.setLane_bare]

theorem State.rxBlock_nvdWf (s : State) (n : Nat) (b : LineBlock) (mark : State → W64 → W64 → State)
    (h : ∀ t a b, t.nvdWf = true → (mark t a b).nvdWf = true) (hs : s.nvdWf = true) :
    (s.rxBlock n b mark).nvdWf = true := by
  unfold State.rxBlock; dsimp only
  split
  · exact hs
  · split
    · split <;> simp [hs]
    · split
      · rw [nvdWf_of (State.rxReserved_core _ _ _), State.setLane_nvdWf, hs]
      · exact State.rxWord_nvdWf _ _ _ _ h (by rw [State.setLane_nvdWf, hs])

theorem execDataFrameReceive_bare (n : Lane) (bs : List LineBlock) (s : State)
    : ∀ t, execDataFrameReceive n bs s = .next t → t.bare = s.bare := by
  rintro t ⟨⟩; exact foldl_bare _ (fun t b => State.rxBlock_bare _ _ _ _ State.markFrame_bare) _ _

theorem execDataFrameReceive_nvdWf (n : Lane) (bs : List LineBlock) (s : State) (hs : s.nvdWf = true)
    : ∀ t, execDataFrameReceive n bs s = .next t → t.nvdWf = true := by
  rintro t ⟨⟩
  exact foldl_nvdWf _ (fun t b ht => State.rxBlock_nvdWf _ _ _ _ State.markFrame_nvdWf ht) _ _ hs

@[simp] theorem State.loadClamps_core (s : State) : (State.loadClamps s).core = s.core := by
  unfold State.loadClamps; simp
@[simp] theorem State.loadClamps_rest (s : State) : ((State.loadClamps s)).rest = s.rest := rest_of
    (State.loadClamps_core s)
@[simp] theorem State.loadClamps_nvdWf (s : State) : ((State.loadClamps s)).nvdWf = s.nvdWf := nvdWf_of
    (State.loadClamps_core s)
@[simp] theorem State.loadClamps_bare (s : State) : ((State.loadClamps s)).bare = s.bare := bare_of
    (State.loadClamps_core s)
@[simp] theorem State.loadClamps_pins (s : State) : ((State.loadClamps s)).pins = s.pins := pins_of
    (State.loadClamps_core s)

@[simp] theorem State.loadL1_core (s : State) : (State.loadL1 s).core = s.core := by
  unfold State.loadL1; simp
@[simp] theorem State.loadL1_rest (s : State) : ((State.loadL1 s)).rest = s.rest := rest_of (State.loadL1_core s)
@[simp] theorem State.loadL1_nvdWf (s : State) : ((State.loadL1 s)).nvdWf = s.nvdWf := nvdWf_of (State.loadL1_core s)
@[simp] theorem State.loadL1_bare (s : State) : ((State.loadL1 s)).bare = s.bare := bare_of (State.loadL1_core s)
@[simp] theorem State.loadL1_pins (s : State) : ((State.loadL1 s)).pins = s.pins := pins_of (State.loadL1_core s)

@[simp] theorem State.freeBytes_core (x0 : Nat) (x1 : State) : (State.freeBytes x0 x1).2.core = x1.core := by
  induction x0 generalizing x1 with
  | zero => rfl
  | succ n ih =>
    unfold State.freeBytes
    dsimp only
    rw [ih, core_mk, core_eta]
@[simp] theorem State.freeBytes_rest (x0 : Nat) (x1 : State) : ((State.freeBytes x0 x1).2).rest = x1.rest := rest_of
    (State.freeBytes_core x0 x1)
@[simp] theorem State.freeBytes_nvdWf (x0 : Nat) (x1 : State) : ((State.freeBytes x0 x1).2).nvdWf = x1.nvdWf := nvdWf_of
    (State.freeBytes_core x0 x1)
@[simp] theorem State.freeBytes_bare (x0 : Nat) (x1 : State) : ((State.freeBytes x0 x1).2).bare = x1.bare := bare_of
    (State.freeBytes_core x0 x1)
@[simp] theorem State.freeBytes_pins (x0 : Nat) (x1 : State) : ((State.freeBytes x0 x1).2).pins = x1.pins := pins_of
    (State.freeBytes_core x0 x1)

@[simp] theorem State.digest_rest (s : State) (a : Nat) (n : Nat) : (State.digest s a n).2.rest = s.rest := by
  unfold State.digest; simp
@[simp] theorem State.digest_bare (s : State) (a : Nat) (n : Nat) : ((State.digest s a n).2).bare = s.bare := bare_of_rest
    (State.digest_rest s a n)
@[simp] theorem State.digest_pins (s : State) (a : Nat) (n : Nat) : ((State.digest s a n).2).pins = s.pins
    := pins_of_bare <| bare_of_rest (State.digest_rest s a n)

@[simp] theorem State.digest_nvdWf (s : State) (a : Nat) (n : Nat) (hs : s.nvdWf = true) : (State.digest s a n).2.nvdWf
    = true := by
  unfold State.digest; simp [hs]

@[simp] theorem State.measure_rest (s : State) (base : Nat) (length : Nat) : (State.measure s base length).rest = s.rest
    := by
  unfold State.measure; simp
@[simp] theorem State.measure_bare (s : State) (base : Nat) (length : Nat) : ((State.measure s base length)).bare = s.bare
    := bare_of_rest (State.measure_rest s base length)
@[simp] theorem State.measure_pins (s : State) (base : Nat) (length : Nat) : ((State.measure s base length)).pins = s.pins
    := pins_of_bare <| bare_of_rest (State.measure_rest s base length)

@[simp] theorem State.measure_nvdWf (s : State) (base : Nat) (length : Nat) (hs : s.nvdWf = true) :
    (State.measure s base length).nvdWf = true := by
  unfold State.measure; simp [hs]

@[simp] theorem State.zeroMemories_core (s : State) : (State.zeroMemories s).core = s.core := by
  unfold State.zeroMemories; simp
@[simp] theorem State.zeroMemories_rest (s : State) : ((State.zeroMemories s)).rest = s.rest := rest_of
    (State.zeroMemories_core s)
@[simp] theorem State.zeroMemories_nvdWf (s : State) : ((State.zeroMemories s)).nvdWf = s.nvdWf := nvdWf_of
    (State.zeroMemories_core s)
@[simp] theorem State.zeroMemories_bare (s : State) : ((State.zeroMemories s)).bare = s.bare := bare_of
    (State.zeroMemories_core s)
@[simp] theorem State.zeroMemories_pins (s : State) : ((State.zeroMemories s)).pins = s.pins := pins_of
    (State.zeroMemories_core s)

@[simp] theorem State.applyImage_rest (s : State) (b : Bool) (h : Header) (ss : List Section) :
    (State.applyImage s b h ss).rest = s.rest := by
  unfold State.applyImage; simp
@[simp] theorem State.applyImage_bare (s : State) (b : Bool) (h : Header) (ss : List Section)
    : ((State.applyImage s b h ss)).bare = s.bare := bare_of_rest (State.applyImage_rest s b h ss)
@[simp] theorem State.applyImage_pins (s : State) (b : Bool) (h : Header) (ss : List Section)
    : ((State.applyImage s b h ss)).pins = s.pins := pins_of_bare <| bare_of_rest (State.applyImage_rest s b h ss)

@[simp] theorem State.applyImage_nvdWf (s : State) (b : Bool) (h : Header) (ss : List Section) (hs : s.nvdWf = true) :
    (State.applyImage s b h ss).nvdWf = true := by
  unfold State.applyImage; simp [hs]

@[simp] theorem State.readSlot_rest (s : State) (b : Bool) : (State.readSlot s b).st.rest = s.rest := by
  unfold State.readSlot; dsimp only
  split
  · simp
  · split
    · simp
    · split <;> simp
@[simp] theorem State.readSlot_bare (s : State) (b : Bool) : ((State.readSlot s b).st).bare = s.bare := bare_of_rest
    (State.readSlot_rest s b)
@[simp] theorem State.readSlot_pins (s : State) (b : Bool) : ((State.readSlot s b).st).pins = s.pins
    := pins_of_bare <| bare_of_rest (State.readSlot_rest s b)

@[simp] theorem State.readSlot_nvdWf (s : State) (b : Bool) (hs : s.nvdWf = true) : (State.readSlot s b).st.nvdWf = true := by
  have h1 : ∀ (u : State) a n, u.nvdWf = true → (u.nvdReads a n).2.nvdWf = true := fun u a n hu => State.nvdReads_nvdWf u a n hu
  unfold State.readSlot
  dsimp only
  split
  · exact h1 _ _ _ hs
  · split
    · exact h1 _ _ _ (h1 _ _ _ hs)
    · split <;> exact State.checkSections_nvdWf _ _ _ _ (h1 _ _ _ (h1 _ _ _ hs))

@[simp] theorem State.trySlot_rest (s : State) (b : Bool) : (State.trySlot s b).st.rest = s.rest := by
  unfold State.trySlot; dsimp only
  split <;> simp
@[simp] theorem State.trySlot_bare (s : State) (b : Bool) : ((State.trySlot s b).st).bare = s.bare := bare_of_rest
    (State.trySlot_rest s b)
@[simp] theorem State.trySlot_pins (s : State) (b : Bool) : ((State.trySlot s b).st).pins = s.pins
    := pins_of_bare <| bare_of_rest (State.trySlot_rest s b)

@[simp] theorem State.trySlot_nvdWf (s : State) (b : Bool) (hs : s.nvdWf = true) : (State.trySlot s b).st.nvdWf = true := by
  unfold State.trySlot
  dsimp only
  split
  · exact State.readSlot_nvdWf _ _ hs
  · refine State.applyImage_nvdWf _ _ _ _ ?_
    rw [State.zeroMemories_nvdWf]
    exact State.measure_nvdWf _ _ _ (State.readSlot_nvdWf _ _ hs)

@[simp] theorem State.unload_core (s : State) (b : Bool) (ss : List Section) : (State.unload s b ss).core = s.core := by
  unfold State.unload; simp
@[simp] theorem State.unload_rest (s : State) (b : Bool) (ss : List Section) : ((State.unload s b ss)).rest = s.rest
    := rest_of (State.unload_core s b ss)
@[simp] theorem State.unload_nvdWf (s : State) (b : Bool) (ss : List Section) : ((State.unload s b ss)).nvdWf = s.nvdWf
    := nvdWf_of (State.unload_core s b ss)
@[simp] theorem State.unload_bare (s : State) (b : Bool) (ss : List Section) : ((State.unload s b ss)).bare = s.bare
    := bare_of (State.unload_core s b ss)
@[simp] theorem State.unload_pins (s : State) (b : Bool) (ss : List Section) : ((State.unload s b ss)).pins = s.pins
    := pins_of (State.unload_core s b ss)

@[simp] theorem State.loadStep_core (s : State) (second : Bool) (fail : Nat) (last : Nat) :
    (State.loadStep s second fail last).core = s.core := by
  unfold State.loadStep; simp
@[simp] theorem State.loadStep_rest (s : State) (second : Bool) (fail : Nat) (last : Nat)
    : ((State.loadStep s second fail last)).rest = s.rest := rest_of (State.loadStep_core s second fail last)
@[simp] theorem State.loadStep_nvdWf (s : State) (second : Bool) (fail : Nat) (last : Nat)
    : ((State.loadStep s second fail last)).nvdWf = s.nvdWf := nvdWf_of (State.loadStep_core s second fail last)
@[simp] theorem State.loadStep_bare (s : State) (second : Bool) (fail : Nat) (last : Nat)
    : ((State.loadStep s second fail last)).bare = s.bare := bare_of (State.loadStep_core s second fail last)
@[simp] theorem State.loadStep_pins (s : State) (second : Bool) (fail : Nat) (last : Nat)
    : ((State.loadStep s second fail last)).pins = s.pins := pins_of (State.loadStep_core s second fail last)

@[simp] theorem State.loadLid_core (s : State) (bs : List Octet) (agreed : Bool) : (State.loadLid s bs agreed).2.core
    = s.core := by
  unfold State.loadLid; simp
@[simp] theorem State.loadLid_rest (s : State) (bs : List Octet) (agreed : Bool) : ((State.loadLid s bs agreed).2).rest
    = s.rest := rest_of (State.loadLid_core s bs agreed)
@[simp] theorem State.loadLid_nvdWf (s : State) (bs : List Octet) (agreed : Bool) : ((State.loadLid s bs agreed).2).nvdWf
    = s.nvdWf := nvdWf_of (State.loadLid_core s bs agreed)
@[simp] theorem State.loadLid_bare (s : State) (bs : List Octet) (agreed : Bool) : ((State.loadLid s bs agreed).2).bare
    = s.bare := bare_of (State.loadLid_core s bs agreed)
@[simp] theorem State.loadLid_pins (s : State) (bs : List Octet) (agreed : Bool) : ((State.loadLid s bs agreed).2).pins
    = s.pins := pins_of (State.loadLid_core s bs agreed)

@[simp] theorem State.loadCds_core (s : State) (active : Nat) (env : LoadEnv) : (State.loadCds s active env).core = s.core
    := by
  unfold State.loadCds; simp
@[simp] theorem State.loadCds_rest (s : State) (active : Nat) (env : LoadEnv) : ((State.loadCds s active env)).rest
    = s.rest := rest_of (State.loadCds_core s active env)
@[simp] theorem State.loadCds_nvdWf (s : State) (active : Nat) (env : LoadEnv) : ((State.loadCds s active env)).nvdWf
    = s.nvdWf := nvdWf_of (State.loadCds_core s active env)
@[simp] theorem State.loadCds_bare (s : State) (active : Nat) (env : LoadEnv) : ((State.loadCds s active env)).bare
    = s.bare := bare_of (State.loadCds_core s active env)
@[simp] theorem State.loadCds_pins (s : State) (active : Nat) (env : LoadEnv) : ((State.loadCds s active env)).pins
    = s.pins := pins_of (State.loadCds_core s active env)

@[simp] theorem State.bootMajority_rest (s : State) : (State.bootMajority s).2.rest = s.rest := by
  unfold State.bootMajority; simp
@[simp] theorem State.bootMajority_bare (s : State) : ((State.bootMajority s).2).bare = s.bare := bare_of_rest
    (State.bootMajority_rest s)
@[simp] theorem State.bootMajority_pins (s : State) : ((State.bootMajority s).2).pins = s.pins
    := pins_of_bare <| bare_of_rest (State.bootMajority_rest s)

@[simp] theorem State.bootMajority_nvdWf (s : State) (hs : s.nvdWf = true) : (State.bootMajority s).2.nvdWf = true := by
  unfold State.bootMajority
  generalize [0x30000, 0x30008, 0x30010] = l
  dsimp only
  refine foldl_wok_snd _ (fun a x ha => ?_) _ ([], s) hs
  dsimp only
  exact State.nvdReads_nvdWf _ _ _ ha

@[simp] theorem State.bootOld_rest (s : State) : (State.bootOld s).2.rest = s.rest := by
  have h := State.bootMajority_rest s
  unfold State.bootOld
  generalize s.bootMajority = r at h ⊢
  obtain ⟨o, u⟩ := r
  cases o <;> exact h

@[simp] theorem State.bootOld_nvdWf (s : State) (hs : s.nvdWf = true) : (State.bootOld s).2.nvdWf = true := by
  have h := State.bootMajority_nvdWf s hs
  unfold State.bootOld
  generalize s.bootMajority = r at h ⊢
  obtain ⟨o, u⟩ := r
  cases o <;> exact h

@[simp] theorem State.writeBoot_rest (s : State) (w : W64) (taken : BitVec 3) : (State.writeBoot s w taken).rest = s.rest := by
  unfold State.writeBoot; rw [foldl_rest]; intro t i; rw [State.memClean_rest, rest_mk, rest_eta]

@[simp] theorem State.writeBoot_nvdWf (s : State) (w : W64) (taken : BitVec 3) (hs : s.nvdWf = true) :
    (State.writeBoot s w taken).nvdWf = true := by
  unfold State.writeBoot
  refine foldl_nvdWf _ (fun t i ht => ?_) _ _ hs
  rw [State.memClean_nvdWf, nvdWf_mk]; exact State.put_nvdWf _ _ _ ht

@[simp] theorem State.readBoot_rest (s : State) (w : W64) : (State.readBoot s w).2.rest = s.rest := by
  unfold State.readBoot
  generalize [0x30000, 0x30008, 0x30010] = l
  rw [foldl_rest_snd]; intro a x; simp

@[simp] theorem State.readBoot_nvdWf (s : State) (w : W64) (hs : s.nvdWf = true) : (State.readBoot s w).2.nvdWf = true := by
  unfold State.readBoot
  generalize [0x30000, 0x30008, 0x30010] = l
  refine foldl_wok_snd _ (fun a x ha => ?_) _ (true, s) hs
  exact State.nvdReads_nvdWf _ _ _ ha

@[simp] theorem State.loadL10_rest (s : State) (lock : List Octet) (env : LoadEnv) : (State.loadL10 s lock env).rest
    = s.rest := by
  unfold State.loadL10; dsimp only
  rw [State.setReg_rest, State.loadTime_rest, rest_mk, rest_eta, State.readBoot_rest, State.writeBoot_rest, State.bootOld_rest,
    rest_mk, rest_eta, State.applyLock_rest]
@[simp] theorem State.loadL10_bare (s : State) (lock : List Octet) (env : LoadEnv) : ((State.loadL10 s lock env)).bare
    = s.bare := bare_of_rest (State.loadL10_rest s lock env)
@[simp] theorem State.loadL10_pins (s : State) (lock : List Octet) (env : LoadEnv) : ((State.loadL10 s lock env)).pins
    = s.pins := pins_of_bare <| bare_of_rest (State.loadL10_rest s lock env)

@[simp] theorem State.loadL10_nvdWf (s : State) (lock : List Octet) (env : LoadEnv) (hs : s.nvdWf = true) :
    (State.loadL10 s lock env).nvdWf = true := by
  unfold State.loadL10; dsimp only
  rw [State.setReg_nvdWf, State.loadTime_nvdWf, nvdWf_mk, nvdWf_eta]
  refine State.readBoot_nvdWf _ _ (State.writeBoot_nvdWf _ _ _ (State.bootOld_nvdWf _ ?_))
  rw [nvdWf_mk]; dsimp only; rw [nvdWf_eta, State.applyLock_nvdWf, hs]

@[simp] theorem State.loadEnds_core (s : State) (r : LoadResult) (cause : Nat) : (State.loadEnds s r cause).core = s.core
    := by
  unfold State.loadEnds; simp
@[simp] theorem State.loadEnds_rest (s : State) (r : LoadResult) (cause : Nat) : ((State.loadEnds s r cause)).rest
    = s.rest := rest_of (State.loadEnds_core s r cause)
@[simp] theorem State.loadEnds_nvdWf (s : State) (r : LoadResult) (cause : Nat) : ((State.loadEnds s r cause)).nvdWf
    = s.nvdWf := nvdWf_of (State.loadEnds_core s r cause)
@[simp] theorem State.loadEnds_bare (s : State) (r : LoadResult) (cause : Nat) : ((State.loadEnds s r cause)).bare
    = s.bare := bare_of (State.loadEnds_core s r cause)
@[simp] theorem State.loadEnds_pins (s : State) (r : LoadResult) (cause : Nat) : ((State.loadEnds s r cause)).pins
    = s.pins := pins_of (State.loadEnds_core s r cause)

@[simp] theorem State.loadRest_rest (s : State) (b : Bool) (second : Bool) (t : Try) (env : LoadEnv) :
    (State.loadRest s b second t env).rest = s.rest := by
  unfold State.loadRest; simp
@[simp] theorem State.loadRest_bare (s : State) (b : Bool) (second : Bool) (t : Try) (env : LoadEnv)
    : ((State.loadRest s b second t env)).bare = s.bare := bare_of_rest (State.loadRest_rest s b second t env)
@[simp] theorem State.loadRest_pins (s : State) (b : Bool) (second : Bool) (t : Try) (env : LoadEnv)
    : ((State.loadRest s b second t env)).pins = s.pins := pins_of_bare <| bare_of_rest
    (State.loadRest_rest s b second t env)

@[simp] theorem State.loadRest_nvdWf (s : State) (b : Bool) (second : Bool) (t : Try) (env : LoadEnv) (hs : s.nvdWf
    = true) : (State.loadRest s b second t env).nvdWf = true := by
  unfold State.loadRest; simp [hs]

theorem execLoadSequence_rest (env : LoadEnv) (s : State) : ∀ t, execLoadSequence env s = .next t → t.rest = s.rest := by
  rintro t ⟨⟩; simp

theorem execLoadSequence_nvdWf (env : LoadEnv) (s : State) (hs : s.nvdWf = true) : ∀ t, execLoadSequence env s
    = .next t → t.nvdWf = true := by
  have h0 : (s.loadL1.votePref).2.nvdWf = true := State.votePref_nvdWf _ (by rw [State.loadL1_nvdWf, hs])
  intro t h
  unfold execLoadSequence at h
  generalize s.loadL1.votePref = p at h h0
  have h1 : ∀ v, (p.2.setFld Reg.HK_CFG_INFO 8 8 v).nvdWf = true := fun v => by rw [State.setFld_nvdWf, h0]
  have h2 := State.trySlot_nvdWf _ p.1 (h1 (b2n p.1))
  generalize hg : State.trySlot _ p.1 = u at h2
  rw [← Host.Outcome.next.inj h]
  split
  · exact hs
  · dsimp only
    rw [hg]
    split
    · exact State.loadRest_nvdWf _ _ _ _ _ h2
    · have h3 : (((u.st.unload p.1 u.ss).zeroMemories).event Reg.HK_MODE_EVT [0]).nvdWf = true := by
        rw [State.event_nvdWf, State.zeroMemories_nvdWf, State.unload_nvdWf, h2]
      have h4 := State.trySlot_nvdWf _ (!p.1) h3
      split
      · exact State.loadRest_nvdWf _ _ _ _ _ h4
      · rw [State.loadEnds_nvdWf, State.loadStep_nvdWf, State.event_nvdWf, State.setReg_nvdWf, State.setReg_nvdWf, h4]

@[simp] theorem State.reloadCd_core (s : State) (b : Bool) (base : Nat) (ss : List Section) :
    (State.reloadCd s b base ss).core = s.core := by
  unfold State.reloadCd; simp

theorem execRejoinMirroring_rest (ok : Bool) (s : State) : ∀ t, execRejoinMirroring ok s = .next t → t.rest = s.rest := by
  rintro t ⟨⟩
  split
  · split
    · split
      · rfl
      · exact State.rejoinFails_rest _ _
    · dsimp only
      split
      · rw [State.rejoinFails_rest, State.readSlot_rest]
      · rw [rest_mk, rest_eta, State.setOther_rest, State.mirrorAll_rest, rest_of (State.reloadCd_core _ _ _ _),
          State.readSlot_rest]
  · rfl

theorem execRejoinMirroring_nvdWf (ok : Bool) (s : State) (hs : s.nvdWf = true) : ∀ t, execRejoinMirroring ok s = .next t →
    t.nvdWf = true := by
  rintro t ⟨⟩
  split
  · split
    · split
      · exact hs
      · rw [State.rejoinFails_nvdWf, hs]
    · have hr := State.readSlot_nvdWf s (s.bit Reg.HK_CFG_INFO 6) hs
      dsimp only
      split
      · rw [State.rejoinFails_nvdWf, hr]
      · rw [nvdWf_mk, nvdWf_eta, State.setOther_nvdWf, State.mirrorAll_nvdWf, nvdWf_of (State.reloadCd_core _ _ _ _), hr]
  · exact hs

end Sys2Proof.Machine
end

