-- ==== Sys2Proof/Laws/CoreRegs.lean ====
section
/-! SUPPORT. Errors, ageing, attestation, housekeeping and register access: what each leaves of the core. -/

namespace Sys2Proof.Machine

@[simp] theorem State.scrubWord_rest (s : State) (d : Die) (mem : Nat) (idx : Nat) (found : Nat) :
    (State.scrubWord s d mem idx found).rest = s.rest := by
  unfold State.scrubWord; dsimp only
  repeat' (first | (simp; done) | split)
@[simp] theorem State.scrubWord_bare (s : State) (d : Die) (mem : Nat) (idx : Nat) (found : Nat)
    : ((State.scrubWord s d mem idx found)).bare = s.bare := bare_of_rest (State.scrubWord_rest s d mem idx found)
@[simp] theorem State.scrubWord_pins (s : State) (d : Die) (mem : Nat) (idx : Nat) (found : Nat)
    : ((State.scrubWord s d mem idx found)).pins = s.pins := pins_of_bare <| bare_of_rest
    (State.scrubWord_rest s d mem idx found)

@[simp] theorem State.scrubWord_nvdWf (s : State) (d : Die) (mem : Nat) (idx : Nat) (found : Nat) (hs : s.nvdWf = true) :
    (State.scrubWord s d mem idx found).nvdWf = true := by
  unfold State.scrubWord; dsimp only
  repeat' (first | (simp [hs]; done) | split)

@[simp] theorem State.scrubPass_core (s : State) (d : Die) (mem : Nat) : (State.scrubPass s d mem).core = s.core := by
  unfold State.scrubPass; simp
@[simp] theorem State.scrubPass_rest (s : State) (d : Die) (mem : Nat) : ((State.scrubPass s d mem)).rest = s.rest
    := rest_of (State.scrubPass_core s d mem)
@[simp] theorem State.scrubPass_nvdWf (s : State) (d : Die) (mem : Nat) : ((State.scrubPass s d mem)).nvdWf = s.nvdWf
    := nvdWf_of (State.scrubPass_core s d mem)
@[simp] theorem State.scrubPass_bare (s : State) (d : Die) (mem : Nat) : ((State.scrubPass s d mem)).bare = s.bare
    := bare_of (State.scrubPass_core s d mem)
@[simp] theorem State.scrubPass_pins (s : State) (d : Die) (mem : Nat) : ((State.scrubPass s d mem)).pins = s.pins
    := pins_of (State.scrubPass_core s d mem)

theorem execScrubRead_rest (die : Die) (mem : BitVec 8) (index : Nat) (lastOfPass : Bool) (found : Fin 3) (s : State)
    : ∀ t, execScrubRead die mem index lastOfPass found s = .next t → t.rest = s.rest := by
  intro t h; unfold execScrubRead at h; split at h
  · cases h; dsimp only
    repeat' (first | (simp; done) | split)
  · cases h

theorem execScrubRead_nvdWf (die : Die) (mem : BitVec 8) (index : Nat) (lastOfPass : Bool) (found : Fin 3) (s : State)
    (hs : s.nvdWf = true) : ∀ t, execScrubRead die mem index lastOfPass found s = .next t → t.nvdWf = true := by
  intro t h; unfold execScrubRead at h; split at h
  · cases h; dsimp only
    repeat' (first | (simp [hs]; done) | split)
  · cases h

@[simp] theorem State.voteFix_core (s : State) (d : Die) (word : Nat) : (State.voteFix s d word).core = s.core := by
  unfold State.voteFix; simp
@[simp] theorem State.voteFix_rest (s : State) (d : Die) (word : Nat) : ((State.voteFix s d word)).rest = s.rest
    := rest_of (State.voteFix_core s d word)
@[simp] theorem State.voteFix_nvdWf (s : State) (d : Die) (word : Nat) : ((State.voteFix s d word)).nvdWf = s.nvdWf
    := nvdWf_of (State.voteFix_core s d word)
@[simp] theorem State.voteFix_bare (s : State) (d : Die) (word : Nat) : ((State.voteFix s d word)).bare = s.bare
    := bare_of (State.voteFix_core s d word)
@[simp] theorem State.voteFix_pins (s : State) (d : Die) (word : Nat) : ((State.voteFix s d word)).pins = s.pins
    := pins_of (State.voteFix_core s d word)

@[simp] theorem State.voteLost_core (s : State) (d : Die) (word : Nat) : (State.voteLost s d word).core = s.core := by
  unfold State.voteLost; dsimp only
  repeat' (first | (simp; done) | split)
@[simp] theorem State.voteLost_rest (s : State) (d : Die) (word : Nat) : ((State.voteLost s d word)).rest = s.rest
    := rest_of (State.voteLost_core s d word)
@[simp] theorem State.voteLost_nvdWf (s : State) (d : Die) (word : Nat) : ((State.voteLost s d word)).nvdWf = s.nvdWf
    := nvdWf_of (State.voteLost_core s d word)
@[simp] theorem State.voteLost_bare (s : State) (d : Die) (word : Nat) : ((State.voteLost s d word)).bare = s.bare
    := bare_of (State.voteLost_core s d word)
@[simp] theorem State.voteLost_pins (s : State) (d : Die) (word : Nat) : ((State.voteLost s d word)).pins = s.pins
    := pins_of (State.voteLost_core s d word)

theorem execVoteRewrite_core (die : Die) (word : BitVec 8) (lost : Bool) (s : State)
    : ∀ t, execVoteRewrite die word lost s = .next t → t.core = s.core := by
  rintro t ⟨⟩; split <;> simp

@[simp] theorem State.repairWrite_rest (s : State) (d : Die) (data : W32) (be : BitVec 4) :
    (State.repairWrite s d data be).st.rest = s.rest := by
  unfold State.repairWrite; dsimp only
  repeat' (first | (simp; done) | split)
@[simp] theorem State.repairWrite_bare (s : State) (d : Die) (data : W32) (be : BitVec 4)
    : ((State.repairWrite s d data be).st).bare = s.bare := bare_of_rest (State.repairWrite_rest s d data be)
@[simp] theorem State.repairWrite_pins (s : State) (d : Die) (data : W32) (be : BitVec 4)
    : ((State.repairWrite s d data be).st).pins = s.pins := pins_of_bare <| bare_of_rest
    (State.repairWrite_rest s d data be)

@[simp] theorem State.repairWrite_nvdWf (s : State) (d : Die) (data : W32) (be : BitVec 4) (hs : s.nvdWf = true) :
    (State.repairWrite s d data be).st.nvdWf = true := by
  unfold State.repairWrite; dsimp only
  repeat' (first | (simp [hs]; done) | split)

theorem execErrRepair_rest (lane : Lane) (die : Die) (addr : BitVec 24) (s : State) : ∀ t, execErrRepair lane die addr s
    = .next t → t.rest = s.rest := by
  intro t h; unfold execErrRepair at h; split at h
  · cases h; repeat' split
    all_goals simp [apply_ite]
  · cases h

theorem execErrRepair_nvdWf (lane : Lane) (die : Die) (addr : BitVec 24) (s : State) (hs : s.nvdWf = true)
    : ∀ t, execErrRepair lane die addr s = .next t → t.nvdWf = true := by
  intro t h; unfold execErrRepair at h; split at h
  · cases h
    exact State.access_nvdWf _ _ _ _ (fun t ht => State.repairWrite_nvdWf _ _ _ _ ht) hs
  · cases h

@[simp] theorem State.rawWrite_rest (s : State) (d : Die) (mem : Nat) (idx : Nat) (check : BitVec 8) :
    (State.rawWrite s d mem idx check).rest = s.rest := by
  unfold State.rawWrite; dsimp only
  repeat' (first | (simp; done) | split)
@[simp] theorem State.rawWrite_bare (s : State) (d : Die) (mem : Nat) (idx : Nat) (check : BitVec 8)
    : ((State.rawWrite s d mem idx check)).bare = s.bare := bare_of_rest (State.rawWrite_rest s d mem idx check)
@[simp] theorem State.rawWrite_pins (s : State) (d : Die) (mem : Nat) (idx : Nat) (check : BitVec 8)
    : ((State.rawWrite s d mem idx check)).pins = s.pins := pins_of_bare <| bare_of_rest
    (State.rawWrite_rest s d mem idx check)

@[simp] theorem State.rawWrite_nvdWf (s : State) (d : Die) (mem : Nat) (idx : Nat) (check : BitVec 8) (hs : s.nvdWf
    = true) : (State.rawWrite s d mem idx check).nvdWf = true := by
  unfold State.rawWrite; dsimp only
  repeat' (first | (simp [hs]; done) | split)

@[simp] theorem State.rawRead_core (s : State) (d : Die) (mem : Nat) (idx : Nat) : (State.rawRead s d mem idx).2.2.core
    = s.core := by
  unfold State.rawRead; repeat' split
  all_goals simp
@[simp] theorem State.rawRead_rest (s : State) (d : Die) (mem : Nat) (idx : Nat) : ((State.rawRead s d mem idx).2.2).rest
    = s.rest := rest_of (State.rawRead_core s d mem idx)
@[simp] theorem State.rawRead_nvdWf (s : State) (d : Die) (mem : Nat) (idx : Nat)
    : ((State.rawRead s d mem idx).2.2).nvdWf = s.nvdWf := nvdWf_of (State.rawRead_core s d mem idx)
@[simp] theorem State.rawRead_bare (s : State) (d : Die) (mem : Nat) (idx : Nat) : ((State.rawRead s d mem idx).2.2).bare
    = s.bare := bare_of (State.rawRead_core s d mem idx)
@[simp] theorem State.rawRead_pins (s : State) (d : Die) (mem : Nat) (idx : Nat) : ((State.rawRead s d mem idx).2.2).pins
    = s.pins := pins_of (State.rawRead_core s d mem idx)

@[simp] theorem State.flipCopy_core (s : State) (d : Die) : (State.flipCopy s d).core = s.core := by
  unfold State.flipCopy; simp
@[simp] theorem State.flipCopy_rest (s : State) (d : Die) : ((State.flipCopy s d)).rest = s.rest := rest_of
    (State.flipCopy_core s d)
@[simp] theorem State.flipCopy_nvdWf (s : State) (d : Die) : ((State.flipCopy s d)).nvdWf = s.nvdWf := nvdWf_of
    (State.flipCopy_core s d)
@[simp] theorem State.flipCopy_bare (s : State) (d : Die) : ((State.flipCopy s d)).bare = s.bare := bare_of
    (State.flipCopy_core s d)
@[simp] theorem State.flipCopy_pins (s : State) (d : Die) : ((State.flipCopy s d)).pins = s.pins := pins_of
    (State.flipCopy_core s d)

@[simp] theorem State.eccTestWrite_rest (s : State) (d : Die) (data : W32) (be : BitVec 4) :
    (State.eccTestWrite s d data be).st.rest = s.rest := by
  unfold State.eccTestWrite; dsimp only
  repeat' (first | (simp; done) | split)
@[simp] theorem State.eccTestWrite_bare (s : State) (d : Die) (data : W32) (be : BitVec 4)
    : ((State.eccTestWrite s d data be).st).bare = s.bare := bare_of_rest (State.eccTestWrite_rest s d data be)
@[simp] theorem State.eccTestWrite_pins (s : State) (d : Die) (data : W32) (be : BitVec 4)
    : ((State.eccTestWrite s d data be).st).pins = s.pins := pins_of_bare <| bare_of_rest
    (State.eccTestWrite_rest s d data be)

@[simp] theorem State.eccTestWrite_nvdWf (s : State) (d : Die) (data : W32) (be : BitVec 4) (hs : s.nvdWf = true) :
    (State.eccTestWrite s d data be).st.nvdWf = true := by
  unfold State.eccTestWrite; dsimp only
  repeat' (first | (simp [hs]; done) | split)

theorem execWriteRaw_rest (lane : Lane) (die : Die) (data : W32) (s : State) : ∀ t, execWriteRaw lane die data s
    = .next t → t.rest = s.rest := by
  intro t h; unfold execWriteRaw at h; split at h
  · cases h; repeat' split
    all_goals simp [apply_ite]
  · cases h

theorem execWriteRaw_nvdWf (lane : Lane) (die : Die) (data : W32) (s : State) (hs : s.nvdWf = true)
    : ∀ t, execWriteRaw lane die data s = .next t → t.nvdWf = true := by
  intro t h; unfold execWriteRaw at h; split at h
  · cases h
    exact State.access_nvdWf _ _ _ _ (fun t ht => State.eccTestWrite_nvdWf _ _ _ _ ht) hs
  · cases h

theorem execReadRaw_rest (lane : Lane) (die : Die) (data : W32) (s : State) : ∀ t, execReadRaw lane die data s
    = .next t → t.rest = s.rest := by
  intro t h; unfold execReadRaw at h; split at h
  · cases h; repeat' split
    all_goals simp [apply_ite]
  · cases h

theorem execReadRaw_nvdWf (lane : Lane) (die : Die) (data : W32) (s : State) (hs : s.nvdWf = true)
    : ∀ t, execReadRaw lane die data s = .next t → t.nvdWf = true := by
  intro t h; unfold execReadRaw at h; split at h
  · cases h
    exact State.access_nvdWf _ _ _ _ (fun t ht => State.eccTestWrite_nvdWf _ _ _ _ ht) hs
  · cases h

theorem execVoteFlip_rest (lane : Lane) (die : Die) (data : W32) (s : State) : ∀ t, execVoteFlip lane die data s
    = .next t → t.rest = s.rest := by
  intro t h; unfold execVoteFlip at h; split at h
  · cases h; repeat' split
    all_goals simp [apply_ite]
  · cases h

theorem execVoteFlip_nvdWf (lane : Lane) (die : Die) (data : W32) (s : State) (hs : s.nvdWf = true)
    : ∀ t, execVoteFlip lane die data s = .next t → t.nvdWf = true := by
  intro t h; unfold execVoteFlip at h; split at h
  · cases h
    exact State.access_nvdWf _ _ _ _ (fun t ht => State.eccTestWrite_nvdWf _ _ _ _ ht) hs
  · cases h

@[simp] theorem State.restoreLens_core (s : State) (ws : List W32) : (State.restoreLens s ws).core = s.core := by
  unfold State.restoreLens; split
  · simp
  · extract_lets old changed t
    have ht : t.core = s.core := by simp [t]
    simp [← ht]
@[simp] theorem State.restoreLens_rest (s : State) (ws : List W32) :
    (State.restoreLens s ws).rest = s.rest := rest_of (State.restoreLens_core s ws)
@[simp] theorem State.restoreLens_nvdWf (s : State) (ws : List W32) :
    (State.restoreLens s ws).nvdWf = s.nvdWf := nvdWf_of (State.restoreLens_core s ws)
@[simp] theorem State.restoreLens_bare (s : State) (ws : List W32) :
    (State.restoreLens s ws).bare = s.bare := bare_of (State.restoreLens_core s ws)
@[simp] theorem State.restoreLens_pins (s : State) (ws : List W32) :
    (State.restoreLens s ws).pins = s.pins := pins_of (State.restoreLens_core s ws)

@[simp] theorem State.restoreFrom_core (t : State) (r : AgeReadings) (newest : Option Nat) :
    (State.restoreFrom t r newest).core = t.core := by
  unfold State.restoreFrom; dsimp only
  repeat' (first | (simp; done) | split)
@[simp] theorem State.restoreFrom_rest (t : State) (r : AgeReadings) (newest : Option Nat)
    : ((State.restoreFrom t r newest)).rest = t.rest := rest_of (State.restoreFrom_core t r newest)
@[simp] theorem State.restoreFrom_nvdWf (t : State) (r : AgeReadings) (newest : Option Nat)
    : ((State.restoreFrom t r newest)).nvdWf = t.nvdWf := nvdWf_of (State.restoreFrom_core t r newest)
@[simp] theorem State.restoreFrom_bare (t : State) (r : AgeReadings) (newest : Option Nat)
    : ((State.restoreFrom t r newest)).bare = t.bare := bare_of (State.restoreFrom_core t r newest)
@[simp] theorem State.restoreFrom_pins (t : State) (r : AgeReadings) (newest : Option Nat)
    : ((State.restoreFrom t r newest)).pins = t.pins := pins_of (State.restoreFrom_core t r newest)

@[simp] theorem State.restoreLog_rest (s : State) (r : AgeReadings) : (State.restoreLog s r).rest = s.rest := by
  unfold State.restoreLog; simp
@[simp] theorem State.restoreLog_bare (s : State) (r : AgeReadings) : ((State.restoreLog s r)).bare = s.bare
    := bare_of_rest (State.restoreLog_rest s r)
@[simp] theorem State.restoreLog_pins (s : State) (r : AgeReadings) : ((State.restoreLog s r)).pins = s.pins
    := pins_of_bare <| bare_of_rest (State.restoreLog_rest s r)

@[simp] theorem State.restoreLog_nvdWf (s : State) (r : AgeReadings) (hs : s.nvdWf = true) : (State.restoreLog s r).nvdWf
    = true := by
  unfold State.restoreLog; simp [hs]

@[simp] theorem State.logCycle_core (s : State) (r : AgeReadings) (xo : Int) (sec : Nat) : (State.logCycle s r xo sec).core = s.core := by
  unfold State.logCycle; rw [core_mk, core_eta]
@[simp] theorem State.logCycle_rest (s : State) (r : AgeReadings) (xo : Int) (sec : Nat) :
    (State.logCycle s r xo sec).rest = s.rest := rest_of (State.logCycle_core s r xo sec)
@[simp] theorem State.logCycle_nvdWf (s : State) (r : AgeReadings) (xo : Int) (sec : Nat) :
    (State.logCycle s r xo sec).nvdWf = s.nvdWf := nvdWf_of (State.logCycle_core s r xo sec)
@[simp] theorem State.logCycle_bare (s : State) (r : AgeReadings) (xo : Int) (sec : Nat) :
    (State.logCycle s r xo sec).bare = s.bare := bare_of (State.logCycle_core s r xo sec)
@[simp] theorem State.logCycle_pins (s : State) (r : AgeReadings) (xo : Int) (sec : Nat) :
    (State.logCycle s r xo sec).pins = s.pins := pins_of (State.logCycle_core s r xo sec)

@[simp] theorem State.xoMeas_core (s : State) : (State.xoMeas s).2.core = s.core := by
  unfold State.xoMeas; split <;> simp
@[simp] theorem State.xoMeas_rest (s : State) :
    (State.xoMeas s).2.rest = s.rest := rest_of (State.xoMeas_core s)
@[simp] theorem State.xoMeas_nvdWf (s : State) :
    (State.xoMeas s).2.nvdWf = s.nvdWf := nvdWf_of (State.xoMeas_core s)
@[simp] theorem State.xoMeas_bare (s : State) :
    (State.xoMeas s).2.bare = s.bare := bare_of (State.xoMeas_core s)
@[simp] theorem State.xoMeas_pins (s : State) :
    (State.xoMeas s).2.pins = s.pins := pins_of (State.xoMeas_core s)

@[simp] theorem State.abandonRecord_core (s : State) : (State.abandonRecord s).core = s.core := by
  unfold State.abandonRecord; dsimp only
  repeat' (first | (simp; done) | split)
@[simp] theorem State.abandonRecord_rest (s : State) : ((State.abandonRecord s)).rest = s.rest := rest_of
    (State.abandonRecord_core s)
@[simp] theorem State.abandonRecord_nvdWf (s : State) : ((State.abandonRecord s)).nvdWf = s.nvdWf := nvdWf_of
    (State.abandonRecord_core s)
@[simp] theorem State.abandonRecord_bare (s : State) : ((State.abandonRecord s)).bare = s.bare := bare_of
    (State.abandonRecord_core s)
@[simp] theorem State.abandonRecord_pins (s : State) : ((State.abandonRecord s)).pins = s.pins := pins_of
    (State.abandonRecord_core s)

@[simp] theorem State.trimStep_core (s : State) (die : Nat) (up : Int) : (State.trimStep s die up).core = s.core := by
  unfold State.trimStep; simp
@[simp] theorem State.trimStep_rest (s : State) (die : Nat) (up : Int) : ((State.trimStep s die up)).rest = s.rest
    := rest_of (State.trimStep_core s die up)
@[simp] theorem State.trimStep_nvdWf (s : State) (die : Nat) (up : Int) : ((State.trimStep s die up)).nvdWf = s.nvdWf
    := nvdWf_of (State.trimStep_core s die up)
@[simp] theorem State.trimStep_bare (s : State) (die : Nat) (up : Int) : ((State.trimStep s die up)).bare = s.bare
    := bare_of (State.trimStep_core s die up)
@[simp] theorem State.trimStep_pins (s : State) (die : Nat) (up : Int) : ((State.trimStep s die up)).pins = s.pins
    := pins_of (State.trimStep_core s die up)

@[simp] theorem State.trimDue_core (s : State) (die : Nat) (up : Int) : (State.trimDue s die up).core = s.core := by
  unfold State.trimDue; simp
@[simp] theorem State.trimDue_rest (s : State) (die : Nat) (up : Int) : ((State.trimDue s die up)).rest = s.rest
    := rest_of (State.trimDue_core s die up)
@[simp] theorem State.trimDue_nvdWf (s : State) (die : Nat) (up : Int) : ((State.trimDue s die up)).nvdWf = s.nvdWf
    := nvdWf_of (State.trimDue_core s die up)
@[simp] theorem State.trimDue_bare (s : State) (die : Nat) (up : Int) : ((State.trimDue s die up)).bare = s.bare
    := bare_of (State.trimDue_core s die up)
@[simp] theorem State.trimDue_pins (s : State) (die : Nat) (up : Int) : ((State.trimDue s die up)).pins = s.pins
    := pins_of (State.trimDue_core s die up)

@[simp] theorem State.margin0_core (s : State) (die : Nat) : (State.margin0 s die).core = s.core := by
  unfold State.margin0; simp
@[simp] theorem State.margin0_rest (s : State) (die : Nat) : ((State.margin0 s die)).rest = s.rest := rest_of
    (State.margin0_core s die)
@[simp] theorem State.margin0_nvdWf (s : State) (die : Nat) : ((State.margin0 s die)).nvdWf = s.nvdWf := nvdWf_of
    (State.margin0_core s die)
@[simp] theorem State.margin0_bare (s : State) (die : Nat) : ((State.margin0 s die)).bare = s.bare := bare_of
    (State.margin0_core s die)
@[simp] theorem State.margin0_pins (s : State) (die : Nat) : ((State.margin0 s die)).pins = s.pins := pins_of
    (State.margin0_core s die)

@[simp] theorem State.setLaneCal_core (s : State) (n : Nat) (w : W64) : (State.setLaneCal s n w).core = s.core := by
  unfold State.setLaneCal; simp
@[simp] theorem State.setLaneCal_rest (s : State) (n : Nat) (w : W64) : ((State.setLaneCal s n w)).rest = s.rest
    := rest_of (State.setLaneCal_core s n w)
@[simp] theorem State.setLaneCal_nvdWf (s : State) (n : Nat) (w : W64) : ((State.setLaneCal s n w)).nvdWf = s.nvdWf
    := nvdWf_of (State.setLaneCal_core s n w)
@[simp] theorem State.setLaneCal_bare (s : State) (n : Nat) (w : W64) : ((State.setLaneCal s n w)).bare = s.bare
    := bare_of (State.setLaneCal_core s n w)
@[simp] theorem State.setLaneCal_pins (s : State) (n : Nat) (w : W64) : ((State.setLaneCal s n w)).pins = s.pins
    := pins_of (State.setLaneCal_core s n w)

@[simp] theorem State.margin2_core (s : State) (n : Nat) : (State.margin2 s n).core = s.core := by
  unfold State.margin2; simp
@[simp] theorem State.margin2_rest (s : State) (n : Nat) : ((State.margin2 s n)).rest = s.rest := rest_of
    (State.margin2_core s n)
@[simp] theorem State.margin2_nvdWf (s : State) (n : Nat) : ((State.margin2 s n)).nvdWf = s.nvdWf := nvdWf_of
    (State.margin2_core s n)
@[simp] theorem State.margin2_bare (s : State) (n : Nat) : ((State.margin2 s n)).bare = s.bare := bare_of
    (State.margin2_core s n)
@[simp] theorem State.margin2_pins (s : State) (n : Nat) : ((State.margin2 s n)).pins = s.pins := pins_of
    (State.margin2_core s n)

@[simp] theorem State.setXo_core (s : State) (i : Nat) (v : Int) : (State.setXo s i v).core = s.core := by
  unfold State.setXo; simp
@[simp] theorem State.setXo_rest (s : State) (i : Nat) (v : Int) : ((State.setXo s i v)).rest = s.rest := rest_of
    (State.setXo_core s i v)
@[simp] theorem State.setXo_nvdWf (s : State) (i : Nat) (v : Int) : ((State.setXo s i v)).nvdWf = s.nvdWf := nvdWf_of
    (State.setXo_core s i v)
@[simp] theorem State.setXo_bare (s : State) (i : Nat) (v : Int) : ((State.setXo s i v)).bare = s.bare := bare_of
    (State.setXo_core s i v)
@[simp] theorem State.setXo_pins (s : State) (i : Nat) (v : Int) : ((State.setXo s i v)).pins = s.pins := pins_of
    (State.setXo_core s i v)

@[simp] theorem State.refit_core (s : State) : (State.refit s).core = s.core := by
  unfold State.refit; simp
@[simp] theorem State.refit_rest (s : State) : ((State.refit s)).rest = s.rest := rest_of (State.refit_core s)
@[simp] theorem State.refit_nvdWf (s : State) : ((State.refit s)).nvdWf = s.nvdWf := nvdWf_of (State.refit_core s)
@[simp] theorem State.refit_bare (s : State) : ((State.refit s)).bare = s.bare := bare_of (State.refit_core s)
@[simp] theorem State.refit_pins (s : State) : ((State.refit s)).pins = s.pins := pins_of (State.refit_core s)

@[simp] theorem State.margin3_core (s : State) (tempMilliK : Int) : (State.margin3 s tempMilliK).core = s.core := by
  unfold State.margin3; simp
@[simp] theorem State.margin3_rest (s : State) (tempMilliK : Int) : ((State.margin3 s tempMilliK)).rest = s.rest
    := rest_of (State.margin3_core s tempMilliK)
@[simp] theorem State.margin3_nvdWf (s : State) (tempMilliK : Int) : ((State.margin3 s tempMilliK)).nvdWf = s.nvdWf
    := nvdWf_of (State.margin3_core s tempMilliK)
@[simp] theorem State.margin3_bare (s : State) (tempMilliK : Int) : ((State.margin3 s tempMilliK)).bare = s.bare
    := bare_of (State.margin3_core s tempMilliK)
@[simp] theorem State.margin3_pins (s : State) (tempMilliK : Int) : ((State.margin3 s tempMilliK)).pins = s.pins
    := pins_of (State.margin3_core s tempMilliK)

@[simp] theorem State.margin4_core (s : State) (n : Nat) : (State.margin4 s n).core = s.core := by
  unfold State.margin4; simp
@[simp] theorem State.margin4_rest (s : State) (n : Nat) : ((State.margin4 s n)).rest = s.rest := rest_of
    (State.margin4_core s n)
@[simp] theorem State.margin4_nvdWf (s : State) (n : Nat) : ((State.margin4 s n)).nvdWf = s.nvdWf := nvdWf_of
    (State.margin4_core s n)
@[simp] theorem State.margin4_bare (s : State) (n : Nat) : ((State.margin4 s n)).bare = s.bare := bare_of
    (State.margin4_core s n)
@[simp] theorem State.margin4_pins (s : State) (n : Nat) : ((State.margin4 s n)).pins = s.pins := pins_of
    (State.margin4_core s n)

@[simp] theorem State.readMonitors_core (s : State) (r : AgeReadings) (xo : Int) : (State.readMonitors s r xo).core = s.core := by
  unfold State.readMonitors; dsimp only; simp
@[simp] theorem State.readMonitors_rest (s : State) (r : AgeReadings) (xo : Int) :
    (State.readMonitors s r xo).rest = s.rest := rest_of (State.readMonitors_core s r xo)
@[simp] theorem State.readMonitors_nvdWf (s : State) (r : AgeReadings) (xo : Int) :
    (State.readMonitors s r xo).nvdWf = s.nvdWf := nvdWf_of (State.readMonitors_core s r xo)
@[simp] theorem State.readMonitors_bare (s : State) (r : AgeReadings) (xo : Int) :
    (State.readMonitors s r xo).bare = s.bare := bare_of (State.readMonitors_core s r xo)
@[simp] theorem State.readMonitors_pins (s : State) (r : AgeReadings) (xo : Int) :
    (State.readMonitors s r xo).pins = s.pins := pins_of (State.readMonitors_core s r xo)

@[simp] theorem State.margins_core (s : State) (r : AgeReadings) : (State.margins s r).core = s.core := by
  unfold State.margins; simp
@[simp] theorem State.margins_rest (s : State) (r : AgeReadings) : ((State.margins s r)).rest = s.rest := rest_of
    (State.margins_core s r)
@[simp] theorem State.margins_nvdWf (s : State) (r : AgeReadings) : ((State.margins s r)).nvdWf = s.nvdWf := nvdWf_of
    (State.margins_core s r)
@[simp] theorem State.margins_bare (s : State) (r : AgeReadings) : ((State.margins s r)).bare = s.bare := bare_of
    (State.margins_core s r)
@[simp] theorem State.margins_pins (s : State) (r : AgeReadings) : ((State.margins s r)).pins = s.pins := pins_of
    (State.margins_core s r)

theorem execPlannerCycle_rest (r : AgeReadings) (s : State) : ∀ t, execPlannerCycle r s = .next t → t.rest = s.rest := by
  intro t h; unfold execPlannerCycle at h; split at h
  · cases h; split
    · rfl
    · extract_lets sec a b g u x
      have hb : b.rest = s.rest := by
        unfold b; split
        · simp [a]
        · split <;> simp [a]
      have hu : u.rest = s.rest := by rw [← hb]; unfold u; split <;> simp
      simp [x, hu]
  · cases h

theorem execPlannerCycle_nvdWf (r : AgeReadings) (s : State) (hs : s.nvdWf = true) : ∀ t, execPlannerCycle r s
    = .next t → t.nvdWf = true := by
  intro t h; unfold execPlannerCycle at h; split at h
  · cases h; split
    · exact hs
    · extract_lets sec a b g u x
      have hb : b.nvdWf = true := by
        unfold b; split
        · simp [a, hs]
        · split <;> simp [a, hs]
      have hu : u.nvdWf = true := by rw [← hb]; unfold u; split <;> simp
      simp [x, hu]
  · cases h

theorem execAgeingRecordAbandon_core (s : State) : ∀ t, execAgeingRecordAbandon s = .next t → t.core = s.core := by
  rintro t ⟨⟩; simp

theorem execDeferredTrimStep_core (s : State) : ∀ t, execDeferredTrimStep s = .next t → t.core = s.core := by
  rintro t ⟨⟩; dsimp only
  repeat' (first | (simp; done) | split)

@[simp] theorem State.attCmdWrite_core (s : State) (data : W32) (be : BitVec 4) : (State.attCmdWrite s data be).st.core
    = s.core := by
  unfold State.attCmdWrite; simp
@[simp] theorem State.attCmdWrite_rest (s : State) (data : W32) (be : BitVec 4) : ((State.attCmdWrite s data be).st).rest
    = s.rest := rest_of (State.attCmdWrite_core s data be)
@[simp] theorem State.attCmdWrite_nvdWf (s : State) (data : W32) (be : BitVec 4)
    : ((State.attCmdWrite s data be).st).nvdWf = s.nvdWf := nvdWf_of (State.attCmdWrite_core s data be)
@[simp] theorem State.attCmdWrite_bare (s : State) (data : W32) (be : BitVec 4) : ((State.attCmdWrite s data be).st).bare
    = s.bare := bare_of (State.attCmdWrite_core s data be)
@[simp] theorem State.attCmdWrite_pins (s : State) (data : W32) (be : BitVec 4) : ((State.attCmdWrite s data be).st).pins
    = s.pins := pins_of (State.attCmdWrite_core s data be)

theorem execAttestationReportRequest_core (lane : Lane) (s : State) : ∀ t, execAttestationReportRequest lane s
    = .next t → t.core = s.core := by
  rintro t ⟨⟩; simp

theorem execSigningDone_core (glitch : Nat) (s : State) : ∀ t, execSigningDone glitch s = .next t → t.core = s.core
    := by
  rintro t ⟨⟩; dsimp only
  repeat' (first | (simp; done) | split)

@[simp] theorem State.mbxReqWrite_core (s : State) (lane : Nat) (data : W32) (be : BitVec 4) :
    (State.mbxReqWrite s lane data be).st.core = s.core := by
  unfold State.mbxReqWrite
  exact State.guarded_core _ _ _ _ _ _ rfl
@[simp] theorem State.mbxReqWrite_rest (s : State) (lane : Nat) (data : W32) (be : BitVec 4)
    : ((State.mbxReqWrite s lane data be).st).rest = s.rest := rest_of (State.mbxReqWrite_core s lane data be)
@[simp] theorem State.mbxReqWrite_nvdWf (s : State) (lane : Nat) (data : W32) (be : BitVec 4)
    : ((State.mbxReqWrite s lane data be).st).nvdWf = s.nvdWf := nvdWf_of (State.mbxReqWrite_core s lane data be)
@[simp] theorem State.mbxReqWrite_bare (s : State) (lane : Nat) (data : W32) (be : BitVec 4)
    : ((State.mbxReqWrite s lane data be).st).bare = s.bare := bare_of (State.mbxReqWrite_core s lane data be)
@[simp] theorem State.mbxReqWrite_pins (s : State) (lane : Nat) (data : W32) (be : BitVec 4)
    : ((State.mbxReqWrite s lane data be).st).pins = s.pins := pins_of (State.mbxReqWrite_core s lane data be)

theorem execTime_core (lane : Lane) (s : State) : ∀ t, execTime lane s = .next t → t.core = s.core := by
  rintro t ⟨⟩; simp

theorem execBootCount_core (lane : Lane) (s : State) : ∀ t, execBootCount lane s = .next t → t.core = s.core := by
  rintro t ⟨⟩; simp

theorem execAttReport_core (lane : Lane) (part : BitVec 16) (s : State) : ∀ t, execAttReport lane part s
    = .next t → t.core = s.core := by
  rintro t ⟨⟩; simp

theorem execTotal_core (lane : Lane) (sel : BitVec 16) (s : State) : ∀ t, execTotal lane sel s = .next t → t.core = s.core
    := by
  rintro t ⟨⟩; simp

@[simp] theorem State.mbxRead_core (s : State) (i : Nat) : (State.mbxRead s i).st.core = s.core := by
  unfold State.mbxRead; simp
@[simp] theorem State.mbxRead_rest (s : State) (i : Nat) : ((State.mbxRead s i).st).rest = s.rest := rest_of
    (State.mbxRead_core s i)
@[simp] theorem State.mbxRead_nvdWf (s : State) (i : Nat) : ((State.mbxRead s i).st).nvdWf = s.nvdWf := nvdWf_of
    (State.mbxRead_core s i)
@[simp] theorem State.mbxRead_bare (s : State) (i : Nat) : ((State.mbxRead s i).st).bare = s.bare := bare_of
    (State.mbxRead_core s i)
@[simp] theorem State.mbxRead_pins (s : State) (i : Nat) : ((State.mbxRead s i).st).pins = s.pins := pins_of
    (State.mbxRead_core s i)

theorem execMbxDataRead_core (lane : Lane) (i : Fin 6) (s : State) : ∀ t, execMbxDataRead lane i s = .next t → t.core
    = s.core := by
  rintro t ⟨⟩; simp

@[simp] theorem State.takeTemps_core (s : State) (x : HkSample) : (State.takeTemps s x).core = s.core := by
  unfold State.takeTemps; simp
@[simp] theorem State.takeTemps_rest (s : State) (x : HkSample) : ((State.takeTemps s x)).rest = s.rest := rest_of
    (State.takeTemps_core s x)
@[simp] theorem State.takeTemps_nvdWf (s : State) (x : HkSample) : ((State.takeTemps s x)).nvdWf = s.nvdWf := nvdWf_of
    (State.takeTemps_core s x)
@[simp] theorem State.takeTemps_bare (s : State) (x : HkSample) : ((State.takeTemps s x)).bare = s.bare := bare_of
    (State.takeTemps_core s x)
@[simp] theorem State.takeTemps_pins (s : State) (x : HkSample) : ((State.takeTemps s x)).pins = s.pins := pins_of
    (State.takeTemps_core s x)

@[simp] theorem State.tempWarn_core (s : State) (x : HkSample) : (State.tempWarn s x).core = s.core := by
  unfold State.tempWarn; simp
@[simp] theorem State.tempWarn_rest (s : State) (x : HkSample) : ((State.tempWarn s x)).rest = s.rest := rest_of
    (State.tempWarn_core s x)
@[simp] theorem State.tempWarn_nvdWf (s : State) (x : HkSample) : ((State.tempWarn s x)).nvdWf = s.nvdWf := nvdWf_of
    (State.tempWarn_core s x)
@[simp] theorem State.tempWarn_bare (s : State) (x : HkSample) : ((State.tempWarn s x)).bare = s.bare := bare_of
    (State.tempWarn_core s x)
@[simp] theorem State.tempWarn_pins (s : State) (x : HkSample) : ((State.tempWarn s x)).pins = s.pins := pins_of
    (State.tempWarn_core s x)

@[simp] theorem State.takeVin_core (s : State) (x : HkSample) : (State.takeVin s x).core = s.core := by
  unfold State.takeVin; simp
@[simp] theorem State.takeVin_rest (s : State) (x : HkSample) : ((State.takeVin s x)).rest = s.rest := rest_of
    (State.takeVin_core s x)
@[simp] theorem State.takeVin_nvdWf (s : State) (x : HkSample) : ((State.takeVin s x)).nvdWf = s.nvdWf := nvdWf_of
    (State.takeVin_core s x)
@[simp] theorem State.takeVin_bare (s : State) (x : HkSample) : ((State.takeVin s x)).bare = s.bare := bare_of
    (State.takeVin_core s x)
@[simp] theorem State.takeVin_pins (s : State) (x : HkSample) : ((State.takeVin s x)).pins = s.pins := pins_of
    (State.takeVin_core s x)

@[simp] theorem State.takeVmon_core (s : State) (x : HkSample) : (State.takeVmon s x).core = s.core := by
  unfold State.takeVmon; simp
@[simp] theorem State.takeVmon_rest (s : State) (x : HkSample) : ((State.takeVmon s x)).rest = s.rest := rest_of
    (State.takeVmon_core s x)
@[simp] theorem State.takeVmon_nvdWf (s : State) (x : HkSample) : ((State.takeVmon s x)).nvdWf = s.nvdWf := nvdWf_of
    (State.takeVmon_core s x)
@[simp] theorem State.takeVmon_bare (s : State) (x : HkSample) : ((State.takeVmon s x)).bare = s.bare := bare_of
    (State.takeVmon_core s x)
@[simp] theorem State.takeVmon_pins (s : State) (x : HkSample) : ((State.takeVmon s x)).pins = s.pins := pins_of
    (State.takeVmon_core s x)

@[simp] theorem State.aonTen_core (s : State) : (State.aonTen s).core = s.core := by
  unfold State.aonTen; simp
@[simp] theorem State.aonTen_rest (s : State) : ((State.aonTen s)).rest = s.rest := rest_of (State.aonTen_core s)
@[simp] theorem State.aonTen_nvdWf (s : State) : ((State.aonTen s)).nvdWf = s.nvdWf := nvdWf_of (State.aonTen_core s)
@[simp] theorem State.aonTen_bare (s : State) : ((State.aonTen s)).bare = s.bare := bare_of (State.aonTen_core s)
@[simp] theorem State.aonTen_pins (s : State) : ((State.aonTen s)).pins = s.pins := pins_of (State.aonTen_core s)

@[simp] theorem State.takeTrack_core (s : State) (x : HkSample) : (State.takeTrack s x).core = s.core := by
  unfold State.takeTrack; dsimp only; split
  · rw [core_mk, core_eta]
  · rw [core_mk, core_eta]
@[simp] theorem State.takeTrack_rest (s : State) (x : HkSample) : (State.takeTrack s x).rest = s.rest := rest_of
    (State.takeTrack_core s x)
@[simp] theorem State.takeTrack_nvdWf (s : State) (x : HkSample) : (State.takeTrack s x).nvdWf = s.nvdWf := nvdWf_of
    (State.takeTrack_core s x)
@[simp] theorem State.takeTrack_bare (s : State) (x : HkSample) : (State.takeTrack s x).bare = s.bare := bare_of
    (State.takeTrack_core s x)
@[simp] theorem State.takeTrack_pins (s : State) (x : HkSample) : (State.takeTrack s x).pins = s.pins := pins_of
    (State.takeTrack_core s x)

@[simp] theorem State.tempHigh_core (s : State) (x : HkSample) : (State.tempHigh s x).core = s.core := by
  unfold State.tempHigh; exact State.eventIf_core _ _ _ _
@[simp] theorem State.tempHigh_rest (s : State) (x : HkSample) :
    (State.tempHigh s x).rest = s.rest := rest_of (State.tempHigh_core s x)
@[simp] theorem State.tempHigh_nvdWf (s : State) (x : HkSample) :
    (State.tempHigh s x).nvdWf = s.nvdWf := nvdWf_of (State.tempHigh_core s x)
@[simp] theorem State.tempHigh_bare (s : State) (x : HkSample) :
    (State.tempHigh s x).bare = s.bare := bare_of (State.tempHigh_core s x)
@[simp] theorem State.tempHigh_pins (s : State) (x : HkSample) :
    (State.tempHigh s x).pins = s.pins := pins_of (State.tempHigh_core s x)

theorem execHkMonitorSample_core (x : HkSample) (s : State) : ∀ t, execHkMonitorSample x s = .next t → t.core = s.core := by
  intro t h; unfold execHkMonitorSample at h; split at h
  · cases h; repeat' split
    all_goals simp [apply_ite]
  · cases h

theorem execPgLoss_core (die : Die) (s : State) : ∀ t, execPgLoss die s = .next t → t.core = s.core := by
  intro t h; unfold execPgLoss at h; split at h
  · cases h; repeat' split
    all_goals simp [apply_ite]
  · cases h

@[simp] theorem State.tapLoad_core (s : State) (d : Die) (code : Nat) : (State.tapLoad s d code).core = s.core := by
  unfold State.tapLoad; simp
@[simp] theorem State.tapLoad_rest (s : State) (d : Die) (code : Nat) : ((State.tapLoad s d code)).rest = s.rest
    := rest_of (State.tapLoad_core s d code)
@[simp] theorem State.tapLoad_nvdWf (s : State) (d : Die) (code : Nat) : ((State.tapLoad s d code)).nvdWf = s.nvdWf
    := nvdWf_of (State.tapLoad_core s d code)
@[simp] theorem State.tapLoad_bare (s : State) (d : Die) (code : Nat) : ((State.tapLoad s d code)).bare = s.bare
    := bare_of (State.tapLoad_core s d code)
@[simp] theorem State.tapLoad_pins (s : State) (d : Die) (code : Nat) : ((State.tapLoad s d code)).pins = s.pins
    := pins_of (State.tapLoad_core s d code)

theorem execTapReset_core (s : State) : ∀ t, execTapReset s = .next t → t.core = s.core := by
  rintro t ⟨⟩; simp

@[simp] theorem State.takeRx_core (s : State) (x : TapScan) : (State.takeRx s x).core = s.core := by
  unfold State.takeRx; rw [core_mk, core_eta]
@[simp] theorem State.takeRx_rest (s : State) (x : TapScan) :
    (State.takeRx s x).rest = s.rest := rest_of (State.takeRx_core s x)
@[simp] theorem State.takeRx_nvdWf (s : State) (x : TapScan) :
    (State.takeRx s x).nvdWf = s.nvdWf := nvdWf_of (State.takeRx_core s x)
@[simp] theorem State.takeRx_bare (s : State) (x : TapScan) :
    (State.takeRx s x).bare = s.bare := bare_of (State.takeRx_core s x)
@[simp] theorem State.takeRx_pins (s : State) (x : TapScan) :
    (State.takeRx s x).pins = s.pins := pins_of (State.takeRx_core s x)

@[simp] theorem State.scanDr_core (s : State) (d : Die) (x : TapScan) : (State.scanDr s d x).core = s.core := by
  unfold State.scanDr; extract_lets t seen cap n new
  rw [core_mk, core_eta]; exact State.takeRx_core s x
@[simp] theorem State.scanDr_rest (s : State) (d : Die) (x : TapScan) :
    (State.scanDr s d x).rest = s.rest := rest_of (State.scanDr_core s d x)
@[simp] theorem State.scanDr_nvdWf (s : State) (d : Die) (x : TapScan) :
    (State.scanDr s d x).nvdWf = s.nvdWf := nvdWf_of (State.scanDr_core s d x)
@[simp] theorem State.scanDr_bare (s : State) (d : Die) (x : TapScan) :
    (State.scanDr s d x).bare = s.bare := bare_of (State.scanDr_core s d x)
@[simp] theorem State.scanDr_pins (s : State) (d : Die) (x : TapScan) :
    (State.scanDr s d x).pins = s.pins := pins_of (State.scanDr_core s d x)

@[simp] theorem State.updateDr_core (s : State) (d : Die) (x : TapScan) : (State.updateDr s d x).core = s.core := by
  unfold State.updateDr; split
  · rfl
  · split
    · simp
    · dsimp only; rw [core_mk, core_eta]; simp
    · dsimp only; split
      · simp
      · rw [core_mk, core_eta]; simp
    · rfl
@[simp] theorem State.updateDr_rest (s : State) (d : Die) (x : TapScan) :
    (State.updateDr s d x).rest = s.rest := rest_of (State.updateDr_core s d x)
@[simp] theorem State.updateDr_nvdWf (s : State) (d : Die) (x : TapScan) :
    (State.updateDr s d x).nvdWf = s.nvdWf := nvdWf_of (State.updateDr_core s d x)
@[simp] theorem State.updateDr_bare (s : State) (d : Die) (x : TapScan) :
    (State.updateDr s d x).bare = s.bare := bare_of (State.updateDr_core s d x)
@[simp] theorem State.updateDr_pins (s : State) (d : Die) (x : TapScan) :
    (State.updateDr s d x).pins = s.pins := pins_of (State.updateDr_core s d x)

@[simp] theorem State.tapScan_core (s : State) (d : Die) (code : Nat) (x : TapScan) : (State.tapScan s d code x).core = s.core := by
  unfold State.tapScan; split
  · rfl
  · extract_lets t u v
    have ht : t.core = s.core := by unfold t; rw [core_mk, core_eta]
    have hv : v.core = s.core := by rw [← ht]; unfold v; split <;> simp [u]
    simp [hv]
@[simp] theorem State.tapScan_rest (s : State) (d : Die) (code : Nat) (x : TapScan) :
    (State.tapScan s d code x).rest = s.rest := rest_of (State.tapScan_core s d code x)
@[simp] theorem State.tapScan_nvdWf (s : State) (d : Die) (code : Nat) (x : TapScan) :
    (State.tapScan s d code x).nvdWf = s.nvdWf := nvdWf_of (State.tapScan_core s d code x)
@[simp] theorem State.tapScan_bare (s : State) (d : Die) (code : Nat) (x : TapScan) :
    (State.tapScan s d code x).bare = s.bare := bare_of (State.tapScan_core s d code x)
@[simp] theorem State.tapScan_pins (s : State) (d : Die) (code : Nat) (x : TapScan) :
    (State.tapScan s d code x).pins = s.pins := pins_of (State.tapScan_core s d code x)

theorem execBypass_core (x : TapCmd) (s : State) : ∀ t, execBypass x s = .next t → t.core = s.core := by
  rintro t ⟨⟩; exact State.tapScan_core _ _ _ _

theorem execIdcode_core (x : TapCmd) (s : State) : ∀ t, execIdcode x s = .next t → t.core = s.core := by
  rintro t ⟨⟩; exact State.tapScan_core _ _ _ _

theorem execSamplePreload_core (die : Die) (scan : TapScan) (s : State) : ∀ t, execSamplePreload die scan s = .next t → t.core = s.core := by
  rintro t ⟨⟩; exact State.tapScan_core _ _ _ _

theorem execExtest_core (x : TapCmd) (s : State) : ∀ t, execExtest x s = .next t → t.core = s.core := by
  rintro t ⟨⟩; exact State.tapScan_core _ _ _ _

theorem execExtestPulse_core (x : TapCmd) (s : State) : ∀ t, execExtestPulse x s = .next t → t.core = s.core := by
  rintro t ⟨⟩; exact State.tapScan_core _ _ _ _

theorem execExtestTrain_core (x : TapCmd) (s : State) : ∀ t, execExtestTrain x s = .next t → t.core = s.core := by
  rintro t ⟨⟩; exact State.tapScan_core _ _ _ _

theorem execClamp_core (x : TapCmd) (s : State) : ∀ t, execClamp x s = .next t → t.core = s.core := by
  rintro t ⟨⟩; exact State.tapScan_core _ _ _ _

theorem execHighz_core (x : TapCmd) (s : State) : ∀ t, execHighz x s = .next t → t.core = s.core := by
  rintro t ⟨⟩; exact State.tapScan_core _ _ _ _

@[simp] theorem State.asDie_core (s : State) (a : Nat) : (State.asDie s a).core = s.core := by
  unfold State.asDie; dsimp only
  repeat' (first | (simp; done) | split)
@[simp] theorem State.asDie_rest (s : State) (a : Nat) : ((State.asDie s a)).rest = s.rest := rest_of (State.asDie_core s a)
@[simp] theorem State.asDie_nvdWf (s : State) (a : Nat) : ((State.asDie s a)).nvdWf = s.nvdWf := nvdWf_of
    (State.asDie_core s a)
@[simp] theorem State.asDie_bare (s : State) (a : Nat) : ((State.asDie s a)).bare = s.bare := bare_of (State.asDie_core s a)
@[simp] theorem State.asDie_pins (s : State) (a : Nat) : ((State.asDie s a)).pins = s.pins := pins_of (State.asDie_core s a)

@[simp] theorem State.windowRep_rest (s : State) (d : Die) (mem : Nat) (idx : Nat) (data : State → W32) :
    (State.windowRep s d mem idx data).st.rest = s.rest := by
  unfold State.windowRep; simp
@[simp] theorem State.windowRep_bare (s : State) (d : Die) (mem : Nat) (idx : Nat) (data : State → W32)
    : ((State.windowRep s d mem idx data).st).bare = s.bare := bare_of_rest (State.windowRep_rest s d mem idx data)
@[simp] theorem State.windowRep_pins (s : State) (d : Die) (mem : Nat) (idx : Nat) (data : State → W32)
    : ((State.windowRep s d mem idx data).st).pins = s.pins := pins_of_bare <| bare_of_rest
    (State.windowRep_rest s d mem idx data)

@[simp] theorem State.windowRep_nvdWf (s : State) (d : Die) (mem : Nat) (idx : Nat) (data : State → W32) (hs : s.nvdWf
    = true) : (State.windowRep s d mem idx data).st.nvdWf = true := by
  unfold State.windowRep; simp [hs]

@[simp] theorem State.viewWindow_rest (s : State) (a : Nat) : (State.viewWindow s a).st.rest = s.rest := by
  unfold State.viewWindow; dsimp only
  repeat' (first | (simp; done) | split)
@[simp] theorem State.viewWindow_bare (s : State) (a : Nat) : ((State.viewWindow s a).st).bare = s.bare := bare_of_rest
    (State.viewWindow_rest s a)
@[simp] theorem State.viewWindow_pins (s : State) (a : Nat) : ((State.viewWindow s a).st).pins = s.pins
    := pins_of_bare <| bare_of_rest (State.viewWindow_rest s a)

@[simp] theorem State.viewWindow_nvdWf (s : State) (a : Nat) (hs : s.nvdWf = true) : (State.viewWindow s a).st.nvdWf
    = true := by
  unfold State.viewWindow; dsimp only
  repeat' (first | (simp [hs]; done) | split)

@[simp] theorem State.readAct_rest (s : State) (a : Nat) : (State.readAct s a).st.rest = s.rest := by
  unfold State.readAct; simp
@[simp] theorem State.readAct_bare (s : State) (a : Nat) : ((State.readAct s a).st).bare = s.bare := bare_of_rest
    (State.readAct_rest s a)
@[simp] theorem State.readAct_pins (s : State) (a : Nat) : ((State.readAct s a).st).pins = s.pins
    := pins_of_bare <| bare_of_rest (State.readAct_rest s a)

@[simp] theorem State.readAct_nvdWf (s : State) (a : Nat) (hs : s.nvdWf = true) : (State.readAct s a).st.nvdWf = true := by
  unfold State.readAct; simp [hs]

@[simp] theorem State.stsWrite_core (s : State) (k : Nat) (data : W32) (be : BitVec 4) :
    (State.stsWrite s k data be).st.core = s.core := by
  unfold State.stsWrite
  exact State.guarded_core _ _ _ _ _ _ rfl
@[simp] theorem State.stsWrite_rest (s : State) (k : Nat) (data : W32) (be : BitVec 4)
    : ((State.stsWrite s k data be).st).rest = s.rest := rest_of (State.stsWrite_core s k data be)
@[simp] theorem State.stsWrite_nvdWf (s : State) (k : Nat) (data : W32) (be : BitVec 4)
    : ((State.stsWrite s k data be).st).nvdWf = s.nvdWf := nvdWf_of (State.stsWrite_core s k data be)
@[simp] theorem State.stsWrite_bare (s : State) (k : Nat) (data : W32) (be : BitVec 4)
    : ((State.stsWrite s k data be).st).bare = s.bare := bare_of (State.stsWrite_core s k data be)
@[simp] theorem State.stsWrite_pins (s : State) (k : Nat) (data : W32) (be : BitVec 4)
    : ((State.stsWrite s k data be).st).pins = s.pins := pins_of (State.stsWrite_core s k data be)

@[simp] theorem State.cdStored_core (s : State) (n : Nat) (live : Bool) : (State.cdStored s n live).core = s.core := by
  unfold State.cdStored; simp
@[simp] theorem State.cdStored_rest (s : State) (n : Nat) (live : Bool) : ((State.cdStored s n live)).rest = s.rest
    := rest_of (State.cdStored_core s n live)
@[simp] theorem State.cdStored_nvdWf (s : State) (n : Nat) (live : Bool) : ((State.cdStored s n live)).nvdWf = s.nvdWf
    := nvdWf_of (State.cdStored_core s n live)
@[simp] theorem State.cdStored_bare (s : State) (n : Nat) (live : Bool) : ((State.cdStored s n live)).bare = s.bare
    := bare_of (State.cdStored_core s n live)
@[simp] theorem State.cdStored_pins (s : State) (n : Nat) (live : Bool) : ((State.cdStored s n live)).pins = s.pins
    := pins_of (State.cdStored_core s n live)

@[simp] theorem State.cdPlain_core (s : State) (n : Nat) (live : Bool) (data : W32) (be : BitVec 4) :
    (State.cdPlain s n live data be).st.core = s.core := by
  unfold State.cdPlain; simp
@[simp] theorem State.cdPlain_rest (s : State) (n : Nat) (live : Bool) (data : W32) (be : BitVec 4)
    : ((State.cdPlain s n live data be).st).rest = s.rest := rest_of (State.cdPlain_core s n live data be)
@[simp] theorem State.cdPlain_nvdWf (s : State) (n : Nat) (live : Bool) (data : W32) (be : BitVec 4)
    : ((State.cdPlain s n live data be).st).nvdWf = s.nvdWf := nvdWf_of (State.cdPlain_core s n live data be)
@[simp] theorem State.cdPlain_bare (s : State) (n : Nat) (live : Bool) (data : W32) (be : BitVec 4)
    : ((State.cdPlain s n live data be).st).bare = s.bare := bare_of (State.cdPlain_core s n live data be)
@[simp] theorem State.cdPlain_pins (s : State) (n : Nat) (live : Bool) (data : W32) (be : BitVec 4)
    : ((State.cdPlain s n live data be).st).pins = s.pins := pins_of (State.cdPlain_core s n live data be)

@[simp] theorem State.cdActive_core (s : State) (n : Nat) (data : W32) (be : BitVec 4) :
    (State.cdActive s n data be).st.core = s.core := by
  unfold State.cdActive; simp
@[simp] theorem State.cdActive_rest (s : State) (n : Nat) (data : W32) (be : BitVec 4)
    : ((State.cdActive s n data be).st).rest = s.rest := rest_of (State.cdActive_core s n data be)
@[simp] theorem State.cdActive_nvdWf (s : State) (n : Nat) (data : W32) (be : BitVec 4)
    : ((State.cdActive s n data be).st).nvdWf = s.nvdWf := nvdWf_of (State.cdActive_core s n data be)
@[simp] theorem State.cdActive_bare (s : State) (n : Nat) (data : W32) (be : BitVec 4)
    : ((State.cdActive s n data be).st).bare = s.bare := bare_of (State.cdActive_core s n data be)
@[simp] theorem State.cdActive_pins (s : State) (n : Nat) (data : W32) (be : BitVec 4)
    : ((State.cdActive s n data be).st).pins = s.pins := pins_of (State.cdActive_core s n data be)

@[simp] theorem State.cdWrite_core (s : State) (a : Nat) (data : W32) (be : BitVec 4) :
    (State.cdWrite s a data be).st.core = s.core := by
  unfold State.cdWrite; simp
@[simp] theorem State.cdWrite_rest (s : State) (a : Nat) (data : W32) (be : BitVec 4)
    : ((State.cdWrite s a data be).st).rest = s.rest := rest_of (State.cdWrite_core s a data be)
@[simp] theorem State.cdWrite_nvdWf (s : State) (a : Nat) (data : W32) (be : BitVec 4)
    : ((State.cdWrite s a data be).st).nvdWf = s.nvdWf := nvdWf_of (State.cdWrite_core s a data be)
@[simp] theorem State.cdWrite_bare (s : State) (a : Nat) (data : W32) (be : BitVec 4)
    : ((State.cdWrite s a data be).st).bare = s.bare := bare_of (State.cdWrite_core s a data be)
@[simp] theorem State.cdWrite_pins (s : State) (a : Nat) (data : W32) (be : BitVec 4)
    : ((State.cdWrite s a data be).st).pins = s.pins := pins_of (State.cdWrite_core s a data be)

@[simp] theorem State.errWrite_rest (s : State) (a : Nat) (data : W32) (be : BitVec 4) :
    (State.errWrite s a data be).st.rest = s.rest := by
  unfold State.errWrite; simp
@[simp] theorem State.errWrite_bare (s : State) (a : Nat) (data : W32) (be : BitVec 4)
    : ((State.errWrite s a data be).st).bare = s.bare := bare_of_rest (State.errWrite_rest s a data be)
@[simp] theorem State.errWrite_pins (s : State) (a : Nat) (data : W32) (be : BitVec 4)
    : ((State.errWrite s a data be).st).pins = s.pins := pins_of_bare <| bare_of_rest (State.errWrite_rest s a data be)

@[simp] theorem State.errWrite_nvdWf (s : State) (a : Nat) (data : W32) (be : BitVec 4) (hs : s.nvdWf = true) :
    (State.errWrite s a data be).st.nvdWf = true := by
  unfold State.errWrite; simp [hs]

@[simp] theorem State.wfWrite_core (s : State) (a : Nat) (data : W32) (be : BitVec 4) :
    (State.wfWrite s a data be).st.core = s.core := by
  unfold State.wfWrite; simp
@[simp] theorem State.wfWrite_rest (s : State) (a : Nat) (data : W32) (be : BitVec 4)
    : ((State.wfWrite s a data be).st).rest = s.rest := rest_of (State.wfWrite_core s a data be)
@[simp] theorem State.wfWrite_nvdWf (s : State) (a : Nat) (data : W32) (be : BitVec 4)
    : ((State.wfWrite s a data be).st).nvdWf = s.nvdWf := nvdWf_of (State.wfWrite_core s a data be)
@[simp] theorem State.wfWrite_bare (s : State) (a : Nat) (data : W32) (be : BitVec 4)
    : ((State.wfWrite s a data be).st).bare = s.bare := bare_of (State.wfWrite_core s a data be)
@[simp] theorem State.wfWrite_pins (s : State) (a : Nat) (data : W32) (be : BitVec 4)
    : ((State.wfWrite s a data be).st).pins = s.pins := pins_of (State.wfWrite_core s a data be)

@[simp] theorem State.roSelWrite_core (s : State) (data : W32) (be : BitVec 4) : (State.roSelWrite s data be).st.core
    = s.core := by
  unfold State.roSelWrite; simp
@[simp] theorem State.roSelWrite_rest (s : State) (data : W32) (be : BitVec 4) : ((State.roSelWrite s data be).st).rest
    = s.rest := rest_of (State.roSelWrite_core s data be)
@[simp] theorem State.roSelWrite_nvdWf (s : State) (data : W32) (be : BitVec 4) : ((State.roSelWrite s data be).st).nvdWf
    = s.nvdWf := nvdWf_of (State.roSelWrite_core s data be)
@[simp] theorem State.roSelWrite_bare (s : State) (data : W32) (be : BitVec 4) : ((State.roSelWrite s data be).st).bare
    = s.bare := bare_of (State.roSelWrite_core s data be)
@[simp] theorem State.roSelWrite_pins (s : State) (data : W32) (be : BitVec 4) : ((State.roSelWrite s data be).st).pins
    = s.pins := pins_of (State.roSelWrite_core s data be)

@[simp] theorem State.dieWrite_bare (s : State) (lane : Nat) (a : Nat) (data : W32) (be : BitVec 4) :
    (State.dieWrite s lane a data be).st.bare = s.bare := by
  unfold State.dieWrite; simp
@[simp] theorem State.dieWrite_pins (s : State) (lane : Nat) (a : Nat) (data : W32) (be : BitVec 4)
    : ((State.dieWrite s lane a data be).st).pins = s.pins := pins_of_bare (State.dieWrite_bare s lane a data be)

@[simp] theorem State.dieWrite_nvdWf (s : State) (lane : Nat) (a : Nat) (data : W32) (be : BitVec 4) (hs : s.nvdWf = true)
    : (State.dieWrite s lane a data be).st.nvdWf = true := by
  unfold State.dieWrite; simp [hs]

@[simp] theorem State.tableWriteIn_rest (s : State) (a : Nat) (data : W32) (be : BitVec 4) :
    (State.tableWriteIn s a data be).st.rest = s.rest := by
  unfold State.tableWriteIn; dsimp only
  repeat' (first | (simp; done) | split)
@[simp] theorem State.tableWriteIn_bare (s : State) (a : Nat) (data : W32) (be : BitVec 4)
    : ((State.tableWriteIn s a data be).st).bare = s.bare := bare_of_rest (State.tableWriteIn_rest s a data be)
@[simp] theorem State.tableWriteIn_pins (s : State) (a : Nat) (data : W32) (be : BitVec 4)
    : ((State.tableWriteIn s a data be).st).pins = s.pins := pins_of_bare <| bare_of_rest
    (State.tableWriteIn_rest s a data be)

@[simp] theorem State.tableWriteIn_nvdWf (s : State) (a : Nat) (data : W32) (be : BitVec 4) (hs : s.nvdWf = true) :
    (State.tableWriteIn s a data be).st.nvdWf = true := by
  unfold State.tableWriteIn; dsimp only
  repeat' (first | (simp [hs]; done) | split)

@[simp] theorem State.calWrite_rest (s : State) (a : Nat) (data : W32) (be : BitVec 4) :
    (State.calWrite s a data be).st.rest = s.rest := by
  unfold State.calWrite; dsimp only
  repeat' (first | (simp; done) | split)
@[simp] theorem State.calWrite_bare (s : State) (a : Nat) (data : W32) (be : BitVec 4)
    : ((State.calWrite s a data be).st).bare = s.bare := bare_of_rest (State.calWrite_rest s a data be)
@[simp] theorem State.calWrite_pins (s : State) (a : Nat) (data : W32) (be : BitVec 4)
    : ((State.calWrite s a data be).st).pins = s.pins := pins_of_bare <| bare_of_rest (State.calWrite_rest s a data be)

@[simp] theorem State.calWrite_nvdWf (s : State) (a : Nat) (data : W32) (be : BitVec 4) (hs : s.nvdWf = true) :
    (State.calWrite s a data be).st.nvdWf = true := by
  unfold State.calWrite
  dsimp only
  generalize tableWord a = w
  split
  · exact State.guarded_nvdWf _ _ _ _ _ _ hs hs
  · refine State.guardedR_nvdWf _ _ _ _ _ _ ?_ hs
    split
    · split
      · exact State.merged_nvdWf _ _ _ _ _ (fun t ht => ht) hs
      · exact (State.chanWrite_nvdWf _ _ _ _ _).trans hs
    · exact State.merged_nvdWf _ _ _ _ _ (fun t ht => State.setMemData_nvdWf _ _ _ _ _ ht) hs

@[simp] theorem State.windowWrite_rest (s : State) (a : Nat) (data : W32) (be : BitVec 4) :
    (State.windowWrite s a data be).st.rest = s.rest := by
  unfold State.windowWrite; dsimp only
  repeat' (first | (simp; done) | split)
@[simp] theorem State.windowWrite_bare (s : State) (a : Nat) (data : W32) (be : BitVec 4)
    : ((State.windowWrite s a data be).st).bare = s.bare := bare_of_rest (State.windowWrite_rest s a data be)
@[simp] theorem State.windowWrite_pins (s : State) (a : Nat) (data : W32) (be : BitVec 4)
    : ((State.windowWrite s a data be).st).pins = s.pins := pins_of_bare <| bare_of_rest
    (State.windowWrite_rest s a data be)

@[simp] theorem State.windowWrite_nvdWf (s : State) (a : Nat) (data : W32) (be : BitVec 4) (hs : s.nvdWf = true) :
    (State.windowWrite s a data be).st.nvdWf = true := by
  unfold State.windowWrite; dsimp only; repeat' split
  all_goals simp_all

@[simp] theorem State.writeAct_bare (s : State) (lane : Nat) (a : Nat) (data : W32) (be : BitVec 4) :
    (State.writeAct s lane a data be).st.bare = s.bare := by
  unfold State.writeAct; simp
@[simp] theorem State.writeAct_pins (s : State) (lane : Nat) (a : Nat) (data : W32) (be : BitVec 4)
    : ((State.writeAct s lane a data be).st).pins = s.pins := pins_of_bare (State.writeAct_bare s lane a data be)

@[simp] theorem State.writeAct_nvdWf (s : State) (lane : Nat) (a : Nat) (data : W32) (be : BitVec 4) (hs : s.nvdWf = true)
    : (State.writeAct s lane a data be).st.nvdWf = true := by
  have hm := Rep.mirrored_nvdWf (s.errWrite a data be) (fun t => t.errWrite a data be)
    (fun t ht => State.errWrite_nvdWf t a data be ht) (State.errWrite_nvdWf s a data be hs)
  unfold State.writeAct; dsimp only; repeat' split
  all_goals first | exact hm | simp [hs]

@[simp] theorem State.writeRequest_bare (s : State) (lane : Nat) (a : Nat) (data : W32) (be : BitVec 4) :
    (State.writeRequest s lane a data be).bare = s.bare := by
  unfold State.writeRequest; simp
@[simp] theorem State.writeRequest_pins (s : State) (lane : Nat) (a : Nat) (data : W32) (be : BitVec 4)
    : ((State.writeRequest s lane a data be)).pins = s.pins := pins_of_bare (State.writeRequest_bare s lane a data be)

@[simp] theorem State.writeRequest_nvdWf (s : State) (lane : Nat) (a : Nat) (data : W32) (be : BitVec 4) (hs : s.nvdWf
    = true) : (State.writeRequest s lane a data be).nvdWf = true := by
  unfold State.writeRequest
  exact State.accessW_nvdWf _ _ _ _ _ (fun t ht => State.writeAct_nvdWf _ _ _ _ _ ht) hs

theorem execStsWrite_bare (lane : Lane) (addr : BitVec 24) (data : W32) (be : BitVec 4) (s : State)
    : ∀ t, execStsWrite lane addr data be s = .next t → t.bare = s.bare := by
  rintro t ⟨⟩; simp

theorem execStsWrite_nvdWf (lane : Lane) (addr : BitVec 24) (data : W32) (be : BitVec 4) (s : State) (hs : s.nvdWf = true)
    : ∀ t, execStsWrite lane addr data be s = .next t → t.nvdWf = true := by
  rintro t ⟨⟩; simp [hs]

theorem execRegisterWrite_bare (lane : Lane) (addr : BitVec 24) (data : W32) (be : BitVec 4) (s : State)
    : ∀ t, execRegisterWrite lane addr data be s = .next t → t.bare = s.bare := by
  rintro t ⟨⟩; simp

theorem execRegisterWrite_nvdWf (lane : Lane) (addr : BitVec 24) (data : W32) (be : BitVec 4) (s : State) (hs : s.nvdWf
    = true) : ∀ t, execRegisterWrite lane addr data be s = .next t → t.nvdWf = true := by
  rintro t ⟨⟩; simp [hs]

@[simp] theorem State.readRequest_rest (s : State) (lane : Nat) (a : Nat) : (State.readRequest s lane a).rest = s.rest := by
  unfold State.readRequest; simp
@[simp] theorem State.readRequest_bare (s : State) (lane : Nat) (a : Nat) : ((State.readRequest s lane a)).bare = s.bare
    := bare_of_rest (State.readRequest_rest s lane a)
@[simp] theorem State.readRequest_pins (s : State) (lane : Nat) (a : Nat) : ((State.readRequest s lane a)).pins = s.pins
    := pins_of_bare <| bare_of_rest (State.readRequest_rest s lane a)

@[simp] theorem State.readRequest_nvdWf (s : State) (lane : Nat) (a : Nat) (hs : s.nvdWf = true) :
    (State.readRequest s lane a).nvdWf = true := by
  unfold State.readRequest
  split
  · rw [State.popLoRequest_nvdWf, hs]
  split
  · exact State.accessHk_nvdWf _ _ _ _ (fun t ht => by simp [ht]) hs
  split
  · exact State.accessHk_nvdWf _ _ _ _ (fun t ht => State.readAct_nvdWf _ _ ht) hs
  · exact State.access_nvdWf _ _ _ _ (fun t ht => State.readAct_nvdWf _ _ ht) hs

@[simp] theorem State.runRequest_bare (s : State) (lane : Nat) (req : W64) (dat : W64) :
    (State.runRequest s lane req dat).bare = s.bare := by
  unfold State.runRequest; simp
@[simp] theorem State.runRequest_pins (s : State) (lane : Nat) (req : W64) (dat : W64)
    : ((State.runRequest s lane req dat)).pins = s.pins := pins_of_bare (State.runRequest_bare s lane req dat)

@[simp] theorem State.runRequest_nvdWf (s : State) (lane : Nat) (req : W64) (dat : W64) (hs : s.nvdWf = true) :
    (State.runRequest s lane req dat).nvdWf = true := by
  unfold State.runRequest; simp [hs]

@[simp] theorem State.resendCached_core (s : State) (lane : Nat) (r : Resp) : (State.resendCached s lane r).core = s.core
    := by
  unfold State.resendCached; simp
@[simp] theorem State.resendCached_rest (s : State) (lane : Nat) (r : Resp) : ((State.resendCached s lane r)).rest
    = s.rest := rest_of (State.resendCached_core s lane r)
@[simp] theorem State.resendCached_nvdWf (s : State) (lane : Nat) (r : Resp) : ((State.resendCached s lane r)).nvdWf
    = s.nvdWf := nvdWf_of (State.resendCached_core s lane r)
@[simp] theorem State.resendCached_bare (s : State) (lane : Nat) (r : Resp) : ((State.resendCached s lane r)).bare
    = s.bare := bare_of (State.resendCached_core s lane r)
@[simp] theorem State.resendCached_pins (s : State) (lane : Nat) (r : Resp) : ((State.resendCached s lane r)).pins
    = s.pins := pins_of (State.resendCached_core s lane r)

@[simp] theorem State.sequence_bare (s : State) (lane : Nat) (req : W64) (dat : W64) :
    (State.sequence s lane req dat).bare = s.bare := by
  unfold State.sequence; dsimp only
  repeat' (first | (simp; done) | split)
@[simp] theorem State.sequence_pins (s : State) (lane : Nat) (req : W64) (dat : W64)
    : ((State.sequence s lane req dat)).pins = s.pins := pins_of_bare (State.sequence_bare s lane req dat)

@[simp] theorem State.sequence_nvdWf (s : State) (lane : Nat) (req : W64) (dat : W64) (hs : s.nvdWf = true) :
    (State.sequence s lane req dat).nvdWf = true := by
  unfold State.sequence; dsimp only
  repeat' (first | (simp [hs]; done) | split)

@[simp] theorem State.pairFault_core (s : State) : (State.pairFault s).core = s.core := by
  unfold State.pairFault; simp
@[simp] theorem State.pairFault_rest (s : State) : ((State.pairFault s)).rest = s.rest := rest_of (State.pairFault_core s)
@[simp] theorem State.pairFault_nvdWf (s : State) : ((State.pairFault s)).nvdWf = s.nvdWf := nvdWf_of
    (State.pairFault_core s)
@[simp] theorem State.pairFault_bare (s : State) : ((State.pairFault s)).bare = s.bare := bare_of (State.pairFault_core s)
@[simp] theorem State.pairFault_pins (s : State) : ((State.pairFault s)).pins = s.pins := pins_of (State.pairFault_core s)

@[simp] theorem State.scRequest_bare (s : State) (lane : Nat) (req : W64) (dat : W64) :
    (State.scRequest s lane req dat).bare = s.bare := by
  unfold State.scRequest; simp
@[simp] theorem State.scRequest_pins (s : State) (lane : Nat) (req : W64) (dat : W64)
    : ((State.scRequest s lane req dat)).pins = s.pins := pins_of_bare (State.scRequest_bare s lane req dat)

@[simp] theorem State.scRequest_nvdWf (s : State) (lane : Nat) (req : W64) (dat : W64) (hs : s.nvdWf = true) :
    (State.scRequest s lane req dat).nvdWf = true := by
  unfold State.scRequest; simp [hs]

theorem execScNop_bare (lane : Lane) (req : W64) (dat : W64) (s : State) : ∀ t, execScNop lane req dat s
    = .next t → t.bare = s.bare := by
  intro t h; unfold execScNop at h; split at h
  · cases h; repeat' split
    all_goals simp [apply_ite]
  · cases h

theorem execScNop_nvdWf (lane : Lane) (req : W64) (dat : W64) (s : State) (hs : s.nvdWf = true)
    : ∀ t, execScNop lane req dat s = .next t → t.nvdWf = true := by
  intro t h; unfold execScNop at h; split at h
  · cases h; exact State.scRequest_nvdWf _ _ _ _ hs
  · cases h

theorem execScResync_bare (lane : Lane) (req : W64) (dat : W64) (s : State) : ∀ t, execScResync lane req dat s
    = .next t → t.bare = s.bare := by
  intro t h; unfold execScResync at h; split at h
  · cases h; repeat' split
    all_goals simp [apply_ite]
  · cases h

theorem execScResync_nvdWf (lane : Lane) (req : W64) (dat : W64) (s : State) (hs : s.nvdWf = true)
    : ∀ t, execScResync lane req dat s = .next t → t.nvdWf = true := by
  intro t h; unfold execScResync at h; split at h
  · cases h; exact State.scRequest_nvdWf _ _ _ _ hs
  · cases h

end Sys2Proof.Machine
end

