-- ==== Sys2Proof/Laws/CoreShut.lean ====
section
/-! SUPPORT. In BOOT with no link that serves requests nothing runs (R53), and what an opening slice leaves. -/

namespace Sys2Proof.Machine

/-- No request runs: the state is BOOT, and its minimal link, if one stands, answers RESET_STUCK. -/
def State.shut (s : State) : Prop := s.hk.mode = .boot ∧ (s.hk.minimalLink = true → s.hk.stuck = true)

theorem stuck_of {s t : State} (h : t.rest = s.rest) : t.hk.stuck = s.hk.stuck :=
  congrArg (fun c : List Instr × Mode × Option Mode × Bool × Bool × Bool × Bool × Bool => c.2.2.2.2.2.2.1) h

theorem link_of {s t : State} (h : t.rest = s.rest) : t.hk.minimalLink = s.hk.minimalLink :=
  congrArg (fun c : List Instr × Mode × Option Mode × Bool × Bool × Bool × Bool × Bool => c.2.2.2.2.2.2.2) h

theorem shut_of {s t : State} (h : t.rest = s.rest) (hs : s.shut) : t.shut := by
  unfold State.shut
  rw [mode_of_rest h, stuck_of h, link_of h]
  exact hs

theorem stuck_of_path {s : State} (hs : s.shut) {lane : Nat} (hp : s.pathOpen lane = true) : s.hk.stuck = true := by
  unfold State.pathOpen at hp
  rw [hs.1] at hp
  simp only [Bool.and_eq_true] at hp
  exact hs.2 hp.2.1

/-- Under a shut state the sequence stage runs only what RESET_STUCK answers. -/
theorem State.atStage_shut (s : State) (lane addr : Nat) (go : State → State)
    (h : ∀ t : State, t.hk.stuck = true → (go t).rest = t.rest) (hs : s.shut) :
    (s.atStage lane addr go).rest = s.rest := by
  unfold State.atStage
  split
  · rfl
  · rename_i hp
    have hst : s.hk.stuck = true := stuck_of_path hs (by simpa using hp)
    split
    · exact State.discard_rest _ _ _
    · dsimp only
      split
      · rw [State.seqGap_rest, State.countLane_rest, State.endStalls_rest]
      · split
        · rw [State.event_rest, State.count_rest, State.countLane_rest, State.endStalls_rest]
        · rw [h _ (((stuck_of (State.countLane_rest _ _ _ _)).trans (stuck_of (State.endStalls_rest _))).trans hst),
            State.countLane_rest, State.endStalls_rest]

theorem State.access_shut (s : State) (lane addr : Nat) (act : State → Rep) (hs : s.shut) :
    (s.access lane addr act).rest = s.rest := by
  unfold State.access
  refine State.atStage_shut _ _ _ _ (fun t ht => ?_) hs
  rw [if_pos ht, State.finish_rest]

theorem State.accessW_shut (s : State) (lane addr : Nat) (be : BitVec 4) (act : State → Rep) (hs : s.shut) :
    (s.accessW lane addr be act).rest = s.rest := State.access_shut _ _ _ _ hs

theorem State.marker_shut (s : State) (kind mode mseq slice : Nat) (act : State → Bool × State)
    (h : ∀ t : State, t.hk.stuck = true → t.hk.mode = .boot → (act t).2.rest = t.rest) (hs : s.shut) :
    (s.marker kind mode mseq slice act).rest = s.rest := by
  unfold State.marker
  split
  · rfl
  · rename_i hp
    have hst : s.hk.stuck = true := stuck_of_path hs (lane := 0) (by simpa using hp)
    split
    · exact State.count_rest _ _ _
    · dsimp only
      have hr (l : List (BitVec 16)) :
          (({ s with ulp := { s.ulp with marks := l } } : State).countLane Reg.LK_LANE_RX_FRAMES 0 1).rest = s.rest := by
        rw [State.countLane_rest]; rfl
      rw [State.setReg_rest, State.setReg_rest, h _ ((stuck_of (hr _)).trans hst) ((mode_of_rest (hr _)).trans hs.1), hr]

theorem State.markMode_shut (s : State) (mseq mode : Nat) (hs : s.shut) : (s.markMode mseq mode).rest = s.rest := by
  refine State.marker_shut _ _ _ _ _ _ (fun t hst _ => ?_) hs
  dsimp only
  rw [State.markIgnored_rest, if_pos (Or.inl hst)]

/-- What a MARK frame leaves where nothing runs. -/
theorem State.markFrame_shut (s : State) (a b : W64) (hs : s.shut) : (s.markFrame a b).rest = s.rest := by
  unfold State.markFrame
  dsimp only
  split
  · exact rest_of (State.markStart_core _ _ _)
  · exact rest_of (State.markEnd_core _ _ _)
  · exact rest_of (State.markSync_core _ _ _ _)
  · exact rest_of (State.markFlushAt_core _ _ _ _)
  · exact State.markMode_shut _ _ _ hs
  · exact rest_of (State.marker_core _ _ _ _ _ _ (fun t => State.markIgnored_core _))

theorem State.runRequest_shut (s : State) (lane : Nat) (req dat : W64) (hs : s.shut) :
    (s.runRequest lane req dat).rest = s.rest := by
  unfold State.runRequest
  dsimp only
  split
  · exact State.access_shut _ _ _ _ hs
  split
  · exact State.accessNop_rest _ _ _
  split
  · exact State.readRequest_rest _ _ _
  · exact State.accessW_shut _ _ _ _ _ hs

theorem State.sequence_shut (s : State) (lane : Nat) (req dat : W64) (hs : s.shut) :
    (s.sequence lane req dat).rest = s.rest := by
  unfold State.sequence
  dsimp only
  split
  · split
    · rw [State.refuse_rest, State.countLane_rest]
    split
    · rw [State.event_rest, State.count_rest, State.countLane_rest]
    · rw [State.runRequest_shut _ _ _ _ (shut_of (State.setLane_rest _ _ _) hs), State.setLane_rest]
  split
  · rw [State.seqGap_rest, State.countLane_rest]
  split
  · exact State.runRequest_shut _ _ _ _ hs
  split
  · rw [State.seqGap_rest, State.countLane_rest]
  · split
    · rw [State.resendCached_rest, State.countLane_rest]
    · rw [State.refuse_rest, State.countLane_rest]

theorem State.scRequest_shut (s : State) (lane : Nat) (req dat : W64) (hs : s.shut) :
    (s.scRequest lane req dat).rest = s.rest := by
  unfold State.scRequest
  split
  · rfl
  split
  · exact State.unitFault_rest _ _
  split
  · exact State.frameFault_rest _ _ _
  split
  · exact State.unitFault_rest _ _
  split
  · exact State.pairFault_rest _
  split
  · exact State.frameFault_rest _ _ _
  split
  · exact State.discard_rest _ _ _
  · rw [State.sequence_shut _ _ _ _ (shut_of (State.endStall_rest _ _) hs), State.endStall_rest]

theorem State.frameWhole_shut (s : State) (n : Nat) (ws : List W64) (tail : W64) (mark : State → W64 → W64 → State)
    (h : ∀ t a b, t.shut → (mark t a b).rest = t.rest) (hs : s.shut) : (s.frameWhole n ws tail mark).rest = s.rest := by
  have hm : ∀ l a b, (mark (s.setLane n l) a b).rest = s.rest := fun l a b => by
    rw [h _ _ _ (shut_of (State.setLane_rest _ _ _) hs), State.setLane_rest]
  unfold State.frameWhole; dsimp only
  repeat' (first | simp [hm] | split)

theorem State.rxBlock_shut (s : State) (n : Nat) (b : LineBlock) (mark : State → W64 → W64 → State)
    (h : ∀ t a b, t.shut → (mark t a b).rest = t.rest) (hs : s.shut) : (s.rxBlock n b mark).rest = s.rest := by
  have hw (u : State) (hu : u.rest = s.rest) : (u.rxWord n b mark).rest = u.rest := by
    have hf := fun ws tail => State.frameWhole_shut u n ws tail mark h (shut_of hu hs)
    unfold State.rxWord; dsimp only
    repeat' first | simp [hf] | split
  unfold State.rxBlock; dsimp only
  split
  · rfl
  · split
    · split <;> simp
    split
    · rw [rest_of (State.rxReserved_core _ _ _), State.setLane_rest]
    · rw [hw _ (State.setLane_rest _ _ _), State.setLane_rest]

/-- What arrives on a line leaves where nothing runs. -/
theorem execDataFrameReceive_shut (n : Lane) (bs : List LineBlock) (s : State) (hs : s.shut) :
    ∀ t, execDataFrameReceive n bs s = .next t → t.rest = s.rest := by
  rintro t ⟨⟩
  have key : ∀ (l : List LineBlock) (u : State), u.rest = s.rest →
      (l.foldl (fun t b => t.rxBlock n b State.markFrame) u).rest = s.rest := by
    intro l
    induction l with
    | nil => exact fun u hu => hu
    | cons b l ih =>
      exact fun u hu => ih _ ((State.rxBlock_shut _ _ _ _ State.markFrame_shut (shut_of hu hs)).trans hu)
  exact key _ _ rfl

theorem execSliceOpen_pins (s : State) : ∀ t, execSliceOpen s = .next t → t.pins = s.pins := by
  intro t h
  rw [← Host.Outcome.next.inj h]
  repeat' split
  all_goals simp

theorem execSliceOpen_nvdWf (s : State) : ∀ t, execSliceOpen s = .next t → t.nvdWf = s.nvdWf := by
  intro t h
  rw [← Host.Outcome.next.inj h]
  repeat' split
  all_goals simp

/-- A slice that opens in BOOT leaves the core. -/
theorem execSliceOpen_boot (s : State) (hb : s.hk.mode = .boot) : ∀ t, execSliceOpen s = .next t → t.rest = s.rest := by
  intro t h
  rw [← Host.Outcome.next.inj h]
  repeat' split
  all_goals first
    | (simp; done)
    | (rename_i hc; rw [hb] at hc; exact absurd hc.1 (by decide))

end Sys2Proof.Machine
end

