-- ==== Sys2Proof/Laws/Words.lean ====
section
/-! SUPPORT. Fields of a word after one of them is replaced, a full-word write, and whole states compared field by field. -/

namespace Sys2Proof

/-- The number of a word with one field replaced. -/
theorem toNat_putBits {n : Nat} (w : BitVec n) {hi lo : Nat} (h : hi < n) (hl : lo ≤ hi) (v : Nat) :
    (putBits w hi lo v).toNat =
      w.toNat % 2 ^ lo + (v % 2 ^ (hi + 1 - lo)) * 2 ^ lo + (w.toNat / 2 ^ (hi + 1)) * 2 ^ (hi + 1) := by
  unfold putBits
  rw [BitVec.toNat_ofNat, Nat.shiftRight_eq_div_pow]
  apply Nat.mod_eq_of_lt
  have h1 : w.toNat % 2 ^ lo < 2 ^ lo := Nat.mod_lt _ (Nat.two_pow_pos lo)
  have h2 : v % 2 ^ (hi + 1 - lo) + 1 ≤ 2 ^ (hi + 1 - lo) := Nat.mod_lt _ (Nat.two_pow_pos _)
  have h3 : 2 ^ (hi + 1 - lo) * 2 ^ lo = 2 ^ (hi + 1) := by rw [← Nat.pow_add]; congr 1; omega
  have h4 : w.toNat / 2 ^ (hi + 1) + 1 ≤ 2 ^ (n - (hi + 1)) := by
    apply Nat.div_lt_of_lt_mul
    rw [← Nat.pow_add]
    have : hi + 1 + (n - (hi + 1)) = n := by omega
    rw [this]
    exact w.isLt
  have h5 : 2 ^ (n - (hi + 1)) * 2 ^ (hi + 1) = 2 ^ n := by rw [← Nat.pow_add]; congr 1; omega
  have h6 := Nat.mul_le_mul_right (2 ^ lo) h2
  have h7 := Nat.mul_le_mul_right (2 ^ (hi + 1)) h4
  rw [h3] at h6
  rw [h5] at h7
  rw [Nat.add_mul] at h6 h7
  omega

/-- The replaced field reads as what was put there. -/
theorem bits_putBits {n : Nat} (w : BitVec n) {hi lo : Nat} (h : hi < n) (hl : lo ≤ hi) (v : Nat) :
    bits (putBits w hi lo v) hi lo = v % 2 ^ (hi + 1 - lo) := by
  unfold bits
  rw [toNat_putBits w h hl, Nat.shiftRight_eq_div_pow]
  have h1 : w.toNat % 2 ^ lo < 2 ^ lo := Nat.mod_lt _ (Nat.two_pow_pos lo)
  have h3 : 2 ^ (hi + 1) = 2 ^ lo * 2 ^ (hi + 1 - lo) := by rw [← Nat.pow_add]; congr 1; omega
  rw [h3, show w.toNat % 2 ^ lo + v % 2 ^ (hi + 1 - lo) * 2 ^ lo +
      w.toNat / (2 ^ lo * 2 ^ (hi + 1 - lo)) * (2 ^ lo * 2 ^ (hi + 1 - lo)) =
      w.toNat % 2 ^ lo + 2 ^ lo * (v % 2 ^ (hi + 1 - lo) + 2 ^ (hi + 1 - lo) * (w.toNat / (2 ^ lo * 2 ^ (hi + 1 - lo)))) by ring,
    Nat.add_mul_div_left _ _ (Nat.two_pow_pos lo), Nat.div_eq_of_lt h1, Nat.zero_add, Nat.add_mul_mod_self_left, Nat.mod_mod]

/-- A field that ends below the replaced one stands. -/
theorem bits_putBits_below {n : Nat} (w : BitVec n) {hi lo hi' lo' : Nat} (h : hi < n) (hl : lo ≤ hi) (hb : hi' < lo)
    (v : Nat) : bits (putBits w hi lo v) hi' lo' = bits w hi' lo' := by
  unfold bits
  by_cases hc : lo' ≤ hi'
  · have key : ∀ x : Nat, x >>> lo' % 2 ^ (hi' + 1 - lo') = (x % 2 ^ lo) >>> lo' % 2 ^ (hi' + 1 - lo') := by
      intro x
      apply Nat.eq_of_testBit_eq
      intro i
      simp only [Nat.testBit_mod_two_pow, Nat.testBit_shiftRight]
      by_cases hi2 : i < hi' + 1 - lo'
      · have : lo' + i < lo := by omega
        simp [hi2, this]
      · simp [hi2]
    rw [key, key w.toNat, toNat_putBits w h hl]
    congr 2
    have h3 : 2 ^ (hi + 1) = 2 ^ lo * 2 ^ (hi + 1 - lo) := by rw [← Nat.pow_add]; congr 1; omega
    rw [h3, show w.toNat % 2 ^ lo + v % 2 ^ (hi + 1 - lo) * 2 ^ lo +
        w.toNat / (2 ^ lo * 2 ^ (hi + 1 - lo)) * (2 ^ lo * 2 ^ (hi + 1 - lo)) =
        w.toNat % 2 ^ lo + 2 ^ lo * (v % 2 ^ (hi + 1 - lo) + 2 ^ (hi + 1 - lo) * (w.toNat / (2 ^ lo * 2 ^ (hi + 1 - lo)))) by ring,
      Nat.add_mul_mod_self_left, Nat.mod_mod]
  · have : hi' + 1 - lo' = 0 := by omega
    rw [this]
    simp [Nat.mod_one]

/-- A field that starts above the replaced one stands. -/
theorem bits_putBits_above {n : Nat} (w : BitVec n) {hi lo hi' lo' : Nat} (h : hi < n) (hl : lo ≤ hi) (hb : hi < lo')
    (v : Nat) : bits (putBits w hi lo v) hi' lo' = bits w hi' lo' := by
  unfold bits
  congr 1
  rw [toNat_putBits w h hl, Nat.shiftRight_eq_div_pow, Nat.shiftRight_eq_div_pow]
  have e : 2 ^ lo' = 2 ^ (hi + 1) * 2 ^ (lo' - (hi + 1)) := by rw [← Nat.pow_add]; congr 1; omega
  rw [e, ← Nat.div_div_eq_div_mul, ← Nat.div_div_eq_div_mul]
  congr 1
  have h1 : w.toNat % 2 ^ lo < 2 ^ lo := Nat.mod_lt _ (Nat.two_pow_pos lo)
  have h2 : v % 2 ^ (hi + 1 - lo) + 1 ≤ 2 ^ (hi + 1 - lo) := Nat.mod_lt _ (Nat.two_pow_pos _)
  have h3 : 2 ^ (hi + 1 - lo) * 2 ^ lo = 2 ^ (hi + 1) := by rw [← Nat.pow_add]; congr 1; omega
  have h6 := Nat.mul_le_mul_right (2 ^ lo) h2
  rw [h3, Nat.add_mul] at h6
  rw [Nat.add_mul_div_right _ _ (Nat.two_pow_pos _), Nat.div_eq_of_lt (by omega), Nat.zero_add]

/-- One bit of a word, as a field. -/
theorem bitOf_eq_bits {n : Nat} (w : BitVec n) (i : Nat) : bitOf w i = decide (bits w i i = 1) := by
  unfold bitOf bits
  rw [BitVec.getLsbD, Nat.testBit_eq_decide_div_mod_eq, Nat.shiftRight_eq_div_pow]
  have : i + 1 - i = 1 := by omega
  rw [this, Nat.pow_one]

end Sys2Proof

namespace Sys2Proof.Machine

/-- With every byte enabled the new word is written (R401). -/
theorem mergeBE_all (old new : W32) : mergeBE old new 15 = new := by
  unfold mergeBE word32 packNat
  have : (List.range 4) = [0, 1, 2, 3] := rfl
  rw [this]
  simp only [List.map, List.foldl]
  apply BitVec.eq_of_toNat_eq
  have hx : new.toNat < 2 ^ 32 := new.isLt
  simp only [bits, BitVec.toNat_ofNat, Nat.shiftRight_eq_div_pow, show ∀ j : Nat, j < 4 → (15 : BitVec 4).getLsbD j = true by decide,
    show (3 - 0 : Nat) < 4 by decide, show (3 - 1 : Nat) < 4 by decide, show (3 - 2 : Nat) < 4 by decide,
    show (3 - 3 : Nat) < 4 by decide, if_true]
  omega

/-- The field just set reads as what was put there. -/
theorem State.fld_setFld (s : State) (a : Nat) {hi lo : Nat} (h : hi < 32) (hl : lo ≤ hi) (v : Nat) :
    (s.setFld a hi lo v).fld a hi lo = v % 2 ^ (hi + 1 - lo) := by
  unfold State.fld State.setFld State.setReg State.reg
  rw [State.phys_setRegAt, State.regAt_setRegAt, if_pos rfl, bits_putBits _ h hl]

/-- The bit just set reads as what was put there. -/
theorem State.bit_setBit (s : State) (a : Nat) {i : Nat} (h : i < 32) (b : Bool) : (s.setBit a i b).bit a i = b := by
  have e : (s.setBit a i b).bit a i = decide ((s.setFld a i i (b2n b)).fld a i i = 1) := by
    unfold State.bit State.setBit State.fld
    exact bitOf_eq_bits _ _
  rw [e, State.fld_setFld s a h (Nat.le_refl i)]
  have : i + 1 - i = 1 := by omega
  rw [this]
  cases b <;> rfl

/-- Two states with equal fields are one. -/
theorem State.ext' {s t : State} (h1 : s.pending = t.pending) (h2 : s.regs = t.regs) (h3 : s.sts = t.sts) (h4 : s.hk = t.hk)
    (h5 : s.run = t.run) (h6 : s.nvd = t.nvd) (h7 : s.cal = t.cal) (h8 : s.fe = t.fe) (h9 : s.tdc = t.tdc)
    (h10 : s.wf = t.wf) (h11 : s.fed = t.fed) (h12 : s.cda = t.cda) (h13 : s.cdb = t.cdb) (h14 : s.ring = t.ring)
    (h15 : s.tb = t.tb) (h16 : s.lanes = t.lanes) (h17 : s.ulp = t.ulp) (h18 : s.resp = t.resp) (h19 : s.pq = t.pq)
    (h20 : s.rd = t.rd) (h21 : s.err = t.err) (h22 : s.lid = t.lid) (h23 : s.age = t.age) (h24 : s.att = t.att)
    (h25 : s.mbx = t.mbx) (h26 : s.tap = t.tap) (h27 : s.out = t.out) (h28 : s.free = t.free) : s = t := by
  cases s
  cases t
  cases h1; cases h2; cases h3; cases h4; cases h5; cases h6; cases h7; cases h8; cases h9; cases h10; cases h11; cases h12
  cases h13; cases h14; cases h15; cases h16; cases h17; cases h18; cases h19; cases h20; cases h21; cases h22; cases h23
  cases h24; cases h25; cases h26; cases h27; cases h28
  rfl

end Sys2Proof.Machine
end

