-- ==== Sys2Proof/Laws/Lid.lean ====
section
/-! SUPPORT. What latching a cause and changing the state do to the Lid. -/

namespace Sys2Proof

theorem mem_setIns_self (x : Nat) (l : List Nat) : x ∈ setIns x l := by
  induction l with
  | nil => simp [setIns]
  | cons y t ih =>
    unfold setIns
    split
    · next h => simp [h]
    · split
      · simp
      · simp [ih]

theorem mem_setIns_of_mem {y x : Nat} {l : List Nat} (h : y ∈ l) : y ∈ setIns x l := by
  induction l with
  | nil => cases h
  | cons z t ih =>
    unfold setIns
    split
    · exact h
    · split
      · exact List.mem_cons_of_mem _ h
      · rcases List.mem_cons.1 h with h | h
        · simp [h]
        · exact List.mem_cons_of_mem _ (ih h)

end Sys2Proof

namespace Sys2Proof.Machine

/-- Taking the outputs off leaves the latched causes. -/
theorem Lid.outputsOff_causes (l : Lid) : l.outputsOff.p.causes = l.p.causes ∧ l.outputsOff.h.causes = l.h.causes := ⟨rfl, rfl⟩

/-! ### lidSet -/

@[simp] theorem State.lidSet_pending (s : State) (t : LidState) : (s.lidSet t).pending = s.pending := rfl
@[simp] theorem State.lidSet_regs (s : State) (t : LidState) : (s.lidSet t).regs = s.regs := rfl
@[simp] theorem State.lidSet_sts (s : State) (t : LidState) : (s.lidSet t).sts = s.sts := rfl
@[simp] theorem State.lidSet_hk (s : State) (t : LidState) : (s.lidSet t).hk = s.hk := rfl
@[simp] theorem State.lidSet_run (s : State) (t : LidState) : (s.lidSet t).run = s.run := rfl
@[simp] theorem State.lidSet_nvd (s : State) (t : LidState) : (s.lidSet t).nvd = s.nvd := rfl
@[simp] theorem State.lidSet_cal (s : State) (t : LidState) : (s.lidSet t).cal = s.cal := rfl
@[simp] theorem State.lidSet_fe (s : State) (t : LidState) : (s.lidSet t).fe = s.fe := rfl
@[simp] theorem State.lidSet_tdc (s : State) (t : LidState) : (s.lidSet t).tdc = s.tdc := rfl
@[simp] theorem State.lidSet_wf (s : State) (t : LidState) : (s.lidSet t).wf = s.wf := rfl
@[simp] theorem State.lidSet_fed (s : State) (t : LidState) : (s.lidSet t).fed = s.fed := rfl
@[simp] theorem State.lidSet_cda (s : State) (t : LidState) : (s.lidSet t).cda = s.cda := rfl
@[simp] theorem State.lidSet_cdb (s : State) (t : LidState) : (s.lidSet t).cdb = s.cdb := rfl
@[simp] theorem State.lidSet_ring (s : State) (t : LidState) : (s.lidSet t).ring = s.ring := rfl
@[simp] theorem State.lidSet_tb (s : State) (t : LidState) : (s.lidSet t).tb = s.tb := rfl
@[simp] theorem State.lidSet_lanes (s : State) (t : LidState) : (s.lidSet t).lanes = s.lanes := rfl
@[simp] theorem State.lidSet_ulp (s : State) (t : LidState) : (s.lidSet t).ulp = s.ulp := rfl
@[simp] theorem State.lidSet_resp (s : State) (t : LidState) : (s.lidSet t).resp = s.resp := rfl
@[simp] theorem State.lidSet_pq (s : State) (t : LidState) : (s.lidSet t).pq = s.pq := rfl
@[simp] theorem State.lidSet_rd (s : State) (t : LidState) : (s.lidSet t).rd = s.rd := rfl
@[simp] theorem State.lidSet_err (s : State) (t : LidState) : (s.lidSet t).err = s.err := rfl
@[simp] theorem State.lidSet_age (s : State) (t : LidState) : (s.lidSet t).age = s.age := rfl
@[simp] theorem State.lidSet_att (s : State) (t : LidState) : (s.lidSet t).att = s.att := rfl
@[simp] theorem State.lidSet_mbx (s : State) (t : LidState) : (s.lidSet t).mbx = s.mbx := rfl
@[simp] theorem State.lidSet_tap (s : State) (t : LidState) : (s.lidSet t).tap = s.tap := rfl
@[simp] theorem State.lidSet_out (s : State) (t : LidState) : (s.lidSet t).out = s.out := rfl
@[simp] theorem State.lidSet_free (s : State) (t : LidState) : (s.lidSet t).free = s.free := rfl
@[simp] theorem State.lidSet_state (s : State) (t : LidState) : (s.lidSet t).lid.state = t := rfl

/-- Setting the state leaves the causes, the drives, the switches and the reset that waits. -/
@[simp] theorem State.lidSet_chan (s : State) (t : LidState) : (s.lidSet t).lid.p.causes = s.lid.p.causes ∧
    (s.lidSet t).lid.h.causes = s.lid.h.causes ∧ (s.lidSet t).lid.p.drive = s.lid.p.drive ∧
    (s.lidSet t).lid.h.drive = s.lid.h.drive ∧ (s.lidSet t).lid.qclosed = s.lid.qclosed := ⟨rfl, rfl, rfl, rfl, rfl⟩

@[simp] theorem State.lidEntry_lid (s : State) (ty : Nat) (st : LidState) (c : LidCh) (cause idx v : Nat) :
    (s.lidEntry ty st c cause idx v).lid = s.lid := by
  unfold State.lidEntry
  simp

@[simp] theorem State.lidEntry_hk (s : State) (ty : Nat) (st : LidState) (c : LidCh) (cause idx v : Nat) :
    (s.lidEntry ty st c cause idx v).hk = s.hk := by
  unfold State.lidEntry
  simp

@[simp] theorem State.lidEntry_regs (s : State) (ty : Nat) (st : LidState) (c : LidCh) (cause idx v : Nat) :
    (s.lidEntry ty st c cause idx v).regs = s.regs := by
  unfold State.lidEntry
  simp

@[simp] theorem State.dropSyncs_lid (s : State) (n : Nat) : (s.dropSyncs n).lid = s.lid := by
  unfold State.dropSyncs
  dsimp only
  split <;> simp

@[simp] theorem State.dropSyncs_hk (s : State) (n : Nat) : (s.dropSyncs n).hk = s.hk := by
  unfold State.dropSyncs
  dsimp only
  split <;> simp

@[simp] theorem State.endRun_lid (s : State) (m c : Nat) : (s.endRun m c).lid = s.lid := by
  unfold State.endRun
  dsimp only
  split <;> simp

@[simp] theorem State.endRun_hk (s : State) (m c : Nat) : (s.endRun m c).hk = s.hk := by
  unfold State.endRun
  dsimp only
  split <;> simp

@[simp] theorem State.enterSafe_lid (s : State) (c : Nat) : (s.enterSafe c).lid = s.lid := by
  unfold State.enterSafe
  split
  · rfl
  · rfl
  · split <;> simp
  · split
    · rfl
    · simp

/-- SAFE entry from a mode that has one: TARGET is SAFE (R38, R48). -/
theorem State.enterSafe_target (s : State) (c : Nat) (h1 : s.hk.mode ≠ .boot) (h2 : s.hk.mode ≠ .load)
    (h3 : s.hk.mode ≠ .safe) : (s.enterSafe c).hk.target = some .safe := by
  unfold State.enterSafe
  split
  · next h => exact absurd h h1
  · next h => exact absurd h h2
  · next h => exact absurd h h3
  · split
    · assumption
    · rfl

/-- The Lid reaches the state it goes to. -/
@[simp] theorem State.lidGo_state (s : State) (c : LidCh) (t : LidState) (e : List Nat) : (s.lidGo c t e).lid.state = t := by
  unfold State.lidGo
  split
  · next h => simpa using h
  · dsimp only
    split <;> simp

/-- Changing the state leaves the latched causes. -/
@[simp] theorem State.lidGo_causes (s : State) (c : LidCh) (t : LidState) (e : List Nat) :
    (s.lidGo c t e).lid.h.causes = s.lid.h.causes ∧ (s.lidGo c t e).lid.p.causes = s.lid.p.causes := by
  unfold State.lidGo
  split
  · simp
  · dsimp only
    cases (s.lid.biasOn && t != .run && t != .degraded) <;> simp [Lid.outputsOff_causes]

/-- A trip opens both contactors and every switch. -/
theorem State.lidGo_trip (s : State) (c : LidCh) (t : LidState) (e : List Nat) (h : s.lid.biasOn = true) (h1 : t ≠ .run)
    (h2 : t ≠ .degraded) : (s.lidGo c t e).lid.p.drive = false ∧ (s.lidGo c t e).lid.h.drive = false ∧
      (s.lidGo c t e).lid.qclosed = [false, false, false, false] := by
  have hn : s.lid.state ≠ t := by
    rintro rfl
    unfold Lid.biasOn at h
    rcases Bool.or_eq_true_iff.1 h with h | h
    · exact h1 (by simpa using h)
    · exact h2 (by simpa using h)
  unfold State.lidGo
  rw [if_neg hn]
  dsimp only
  have e1 : (t != LidState.run) = true := by simpa using h1
  have e2 : (t != LidState.degraded) = true := by simpa using h2
  rw [h, e1, e2]
  simp [Lid.outputsOff]

@[simp] theorem State.lidLatch_state (s : State) (st : LidState) (c : LidCh) (cause idx v : Nat) :
    (s.lidLatch st c cause idx v).lid.state = s.lid.state := by
  unfold State.lidLatch
  split <;> simp

@[simp] theorem State.lidLatch_hk (s : State) (st : LidState) (c : LidCh) (cause idx v : Nat) :
    (s.lidLatch st c cause idx v).hk = s.hk := by
  unfold State.lidLatch
  split <;> simp

/-- Latching leaves what is neither a cause nor an entry. -/
theorem State.lidLatch_outputs (s : State) (st : LidState) (c : LidCh) (cause idx v : Nat) :
    (s.lidLatch st c cause idx v).lid.p.drive = s.lid.p.drive ∧ (s.lidLatch st c cause idx v).lid.h.drive = s.lid.h.drive ∧
      (s.lidLatch st c cause idx v).lid.qclosed = s.lid.qclosed ∧ (s.lidLatch st c cause idx v).lid.biasOn = s.lid.biasOn := by
  unfold State.lidLatch
  split <;> simp [Lid.biasOn]

/-- A latched cause stands. -/
theorem State.lidLatch_mem (s : State) (st : LidState) (c : LidCh) (cause idx v : Nat) :
    cause ∈ (s.lidLatch st c cause idx v).lid.h.causes := by
  unfold State.lidLatch
  split
  · next h => simpa using h
  · simp [mem_setIns_self]

/-- A rejected reset leaves the Lid and the module's mode. -/
@[simp] theorem State.lidRefuse_lid (s : State) (cause idx h : Nat) : (s.lidRefuse cause idx h).lid = s.lid := by
  unfold State.lidRefuse
  simp

@[simp] theorem State.lidRefuse_hk (s : State) (cause idx h : Nat) : (s.lidRefuse cause idx h).hk = s.hk := by
  unfold State.lidRefuse
  simp

/-- A reset that no longer waits leaves all else of the Lid. -/
theorem State.lidCancel_lid (s : State) (cause idx : Nat) :
    (s.lidCancel cause idx).lid = { s.lid with acc := none } ∧ (s.lidCancel cause idx).hk = s.hk := by
  unfold State.lidCancel
  split
  · simp
  · next h => rw [← h]; simp

/-- Noting a demand, or rejecting a reset that waits, leaves the state, the causes and the outputs. -/
theorem State.lidDemand_lid (s : State) (cause idx : Nat) : (s.lidDemand cause idx).lid.state = s.lid.state ∧
    (s.lidDemand cause idx).lid.biasOn = s.lid.biasOn ∧ (s.lidDemand cause idx).lid.p = s.lid.p ∧
      (s.lidDemand cause idx).lid.h = s.lid.h ∧ (s.lidDemand cause idx).lid.qclosed = s.lid.qclosed ∧
      (s.lidDemand cause idx).hk = s.hk := by
  obtain ⟨e, k⟩ := s.lidCancel_lid cause idx
  unfold State.lidDemand
  dsimp only
  split <;> simp [e, k, Lid.biasOn]

/-- A cause that may latch stands after it is detected (R353). -/
theorem State.lidCause_mem (s : State) (c : LidCh) (cause idx v : Nat) (h : 0x10 ≤ cause ∨ s.lid.state ≠ .off) :
    cause ∈ (s.lidCause c cause idx v).lid.h.causes := by
  unfold State.lidCause
  rw [if_neg (by rintro ⟨h1, h2⟩; rcases h with h | h <;> [omega; exact h h2])]
  dsimp only
  rw [(State.lidGo_causes _ _ _ _).1]
  exact (s.lidDemand cause idx).lidLatch_mem _ c cause idx v

/-- The state a detected cause leads to (R354). -/
theorem State.lidCause_state (s : State) (c : LidCh) (cause idx v : Nat) :
    (s.lidCause c cause idx v).lid.state = s.lid.after cause := by
  unfold State.lidCause
  split
  · next h =>
    have hb : s.lid.biasOn = false := by unfold Lid.biasOn; rw [h.2]; rfl
    unfold Lid.after
    rw [if_neg (by omega), hb]
    simp
  · dsimp only
    rw [State.lidGo_state]

/-- A detected cause in RUN or DEGRADED opens both contactors and every switch (R352, R354). -/
theorem State.lidCause_trip (s : State) (c : LidCh) (cause idx v : Nat) (h : s.lid.biasOn = true) :
    (s.lidCause c cause idx v).lid.p.drive = false ∧ (s.lidCause c cause idx v).lid.h.drive = false ∧
      (s.lidCause c cause idx v).lid.qclosed = [false, false, false, false] := by
  have ho : s.lid.state ≠ .off := by
    intro he
    unfold Lid.biasOn at h
    rw [he] at h
    exact absurd h (by decide)
  have ha : s.lid.after cause = .fault ∨ s.lid.after cause = .stop := by
    unfold Lid.after
    rw [h]
    split
    · simp [ho]
    · simp
  unfold State.lidCause
  rw [if_neg (by rintro ⟨_, h2⟩; exact ho h2)]
  dsimp only
  apply State.lidGo_trip
  · rw [((s.lidDemand cause idx).lidLatch_outputs _ c cause idx v).2.2.2, (s.lidDemand_lid cause idx).2.1, h]
  · rcases ha with e | e <;> rw [e] <;> decide
  · rcases ha with e | e <;> rw [e] <;> decide

/-- In BOOT and LOAD no SAFE entry follows a trip (R38). -/
theorem State.enterSafe_down (s : State) (c : Nat) (h : s.hk.mode = .boot ∨ s.hk.mode = .load) : s.enterSafe c = s := by
  unfold State.enterSafe
  rcases h with h | h <;> rw [h]

/-- `t` differs from `s` in the Lid, its entries and their queue words, the POPs that wait for one, and its registers. -/
def State.lidOnly (s t : State) : Prop :=
  t = { s with lid := t.lid, regs := t.regs, sts := t.sts, pq := t.pq, lanes := t.lanes, err := t.err }

theorem State.lidOnly.trans {s t u : State} (h : s.lidOnly t) (k : t.lidOnly u) : s.lidOnly u := by
  unfold State.lidOnly at *
  rw [k, h]

theorem State.lidRefuse_only (s : State) (cause idx h : Nat) : s.lidOnly (s.lidRefuse cause idx h) := by
  unfold State.lidOnly State.lidRefuse
  apply State.ext' <;> simp [State.lidEntry]

theorem State.lidCancel_only (s : State) (cause idx : Nat) : s.lidOnly (s.lidCancel cause idx) := by
  unfold State.lidCancel
  split
  · exact State.lidOnly.trans (t := { s with lid := { s.lid with acc := none } }) rfl (State.lidRefuse_only _ _ _ _)
  · rfl

theorem State.lidLatch_only (s : State) (st : LidState) (c : LidCh) (cause idx v : Nat) :
    s.lidOnly (s.lidLatch st c cause idx v) := by
  unfold State.lidOnly State.lidLatch
  split
  · rfl
  · apply State.ext' <;> simp [State.lidEntry]

theorem State.lidGo_only (s : State) (c : LidCh) (t : LidState) (e : List Nat) (h : s.hk.mode = .boot ∨ s.hk.mode = .load) :
    s.lidOnly (s.lidGo c t e) := by
  unfold State.lidOnly State.lidGo
  split
  · apply State.ext' <;> simp
  · dsimp only
    split
    · rw [State.enterSafe_down _ _ (by simpa using h)]
      apply State.ext' <;> simp [State.lidEntry]
    · apply State.ext' <;> simp [State.lidEntry]

/-- Entering BOOT or LOAD, the Lid's change touches nothing outside the Lid, its entries and their queue words, the POPs that
wait for one and its registers. -/
theorem State.lidOff_down (s : State) (h : s.hk.mode = .boot ∨ s.hk.mode = .load) : s.lidOnly s.lidOff := by
  have hk : ∀ t : State, s.lidOnly t → t.hk.mode = .boot ∨ t.hk.mode = .load := by
    intro t ht
    rw [ht]
    exact h
  have hc := s.lidCancel_only 0x08 0
  unfold State.lidOff
  dsimp only
  split
  · have hl := hc.trans (State.lidLatch_only _ .off .h 0x08 0 0)
    exact hl.trans (State.lidGo_only _ _ _ _ (hk _ hl))
  · exact hc.trans (State.lidGo_only _ _ _ _ (hk _ hc))

/-- Entering BOOT or LOAD the Lid is OFF (R354). -/
theorem State.lidOff_state (s : State) : s.lidOff.lid.state = .off := by
  unfold State.lidOff
  exact State.lidGo_state _ _ _ _

end Sys2Proof.Machine
end

