-- ==== Sys2Proof/Laws/PerInstr.lean ====
section
/-! SUPPORT. Per command: one that carries a lane's register access is no event of the time base, the lanes or the Lid. -/

namespace Sys2Proof.Laws.Requests

open Sys2Proof.Machine

/-- A command of a register access (R306) is none of the events whose frames Safety names. -/
def Statement (c : Instr) : Prop :=
  accessLane c ≠ none → timeBaseEvent c = false ∧ laneEvent c = false ∧ lidEvent c = false

theorem powerOn (rstN : Bool) : Statement (.powerOn rstN) := fun h => absurd rfl h
theorem powerLoss12V : Statement .powerLoss12V := fun h => absurd rfl h
theorem supply24VApply : Statement .supply24VApply := fun h => absurd rfl h
theorem supply24VLoss : Statement .supply24VLoss := fun h => absurd rfl h
theorem supplyLowExpire : Statement .supplyLowExpire := fun h => absurd rfl h
theorem rstNLow : Statement .rstNLow := fun h => absurd rfl h
theorem rstNRise (lowMs : Nat) : Statement (.rstNRise lowMs) := fun h => absurd rfl h
theorem resetStuck : Statement .resetStuck := fun h => absurd rfl h
theorem reqLoad (lane : Lane) : Statement (.reqLoad lane) := fun _ => ⟨rfl, rfl, rfl⟩
theorem reqSimmer (lane : Lane) : Statement (.reqSimmer lane) := fun _ => ⟨rfl, rfl, rfl⟩
theorem reqCalib (lane : Lane) : Statement (.reqCalib lane) := fun _ => ⟨rfl, rfl, rfl⟩
theorem reqRun (lane : Lane) : Statement (.reqRun lane) := fun _ => ⟨rfl, rfl, rfl⟩
theorem reqDrain (lane : Lane) (now : Nat) : Statement (.reqDrain lane now) := fun h => absurd rfl h
theorem reqSafe (lane : Lane) (now : Nat) : Statement (.reqSafe lane now) := fun h => absurd rfl h
theorem reqTest (lane : Lane) : Statement (.reqTest lane) := fun _ => ⟨rfl, rfl, rfl⟩
theorem safeExit (lane : Lane) : Statement (.safeExit lane) := fun _ => ⟨rfl, rfl, rfl⟩
theorem loadSequence (env : LoadEnv) : Statement (.loadSequence env) := fun h => absurd rfl h
theorem loadComplete : Statement .loadComplete := fun h => absurd rfl h
theorem lane0WaitExpire : Statement .lane0WaitExpire := fun h => absurd rfl h
theorem parkWindowExpire : Statement .parkWindowExpire := fun h => absurd rfl h
theorem modeTransitionComplete (env : EntryEnv) : Statement (.modeTransitionComplete env) := fun h => absurd rfl h
theorem calibTaskComplete : Statement .calibTaskComplete := fun h => absurd rfl h
theorem drainComplete : Statement .drainComplete := fun h => absurd rfl h
theorem safeDrainEnd : Statement .safeDrainEnd := fun h => absurd rfl h
theorem markSpillStart (mseq : BitVec 16) (slice : W32) (now : Nat) : Statement (.markSpillStart mseq slice now) :=
  fun h => absurd rfl h
theorem markSpillEnd (mseq : BitVec 16) (slice : W32) (now : Nat) : Statement (.markSpillEnd mseq slice now) :=
  fun h => absurd rfl h
theorem markSync (mseq : BitVec 16) (slice : W32) (tick : Nat) (id : BitVec 16) (now : Nat) : Statement (.markSync mseq slice tick id now) :=
  fun h => absurd rfl h
theorem markFlush (mseq : BitVec 16) (slice : W32) (id : BitVec 16) (now : Nat) : Statement (.markFlush mseq slice id now) :=
  fun h => absurd rfl h
theorem markMode (mseq : BitVec 16) (mode : BitVec 4) (now : Nat) : Statement (.markMode mseq mode now) :=
  fun h => absurd rfl h
theorem slotInvalidate (lane : Lane) (slot : Bool) : Statement (.slotInvalidate lane slot) := fun _ => ⟨rfl, rfl, rfl⟩
theorem slotVerify (lane : Lane) (slot : Bool) : Statement (.slotVerify lane slot) := fun _ => ⟨rfl, rfl, rfl⟩
theorem slotPrefer (lane : Lane) (slot : Bool) : Statement (.slotPrefer lane slot) := fun _ => ⟨rfl, rfl, rfl⟩
theorem calCommit (lane : Lane) : Statement (.calCommit lane) := fun _ => ⟨rfl, rfl, rfl⟩
theorem nvdCommandDone : Statement .nvdCommandDone := fun h => absurd rfl h
theorem nvdWindowWrite (lane : Lane) (off : BitVec 20) (data : W32) (be : BitVec 4) : Statement (.nvdWindowWrite lane off data be) :=
  fun _ => ⟨rfl, rfl, rfl⟩
theorem channelTableWrite (lane : Lane) (ch : Chan) (high : Bool) (data : W32) (be : BitVec 4) : Statement (.channelTableWrite lane ch high data be) :=
  fun _ => ⟨rfl, rfl, rfl⟩
theorem blankingEnd (ch : Chan) : Statement (.blankingEnd ch) := fun h => absurd rfl h
theorem groupEnableWrite (lane : Lane) (high : Bool) (data : W32) (be : BitVec 4) : Statement (.groupEnableWrite lane high data be) :=
  fun _ => ⟨rfl, rfl, rfl⟩
theorem rateGateWrite (lane : Lane) (data : W32) (be : BitVec 4) : Statement (.rateGateWrite lane data be) :=
  fun _ => ⟨rfl, rfl, rfl⟩
theorem rateGateEnd : Statement .rateGateEnd := fun h => absurd rfl h
theorem injGo (lane : Lane) (data : W32) (be : BitVec 4) : Statement (.injGo lane data be) := fun _ => ⟨rfl, rfl, rfl⟩
theorem injStop (lane : Lane) (data : W32) (be : BitVec 4) : Statement (.injStop lane data be) :=
  fun _ => ⟨rfl, rfl, rfl⟩
theorem injStrobe (tick : Nat) : Statement (.injStrobe tick) := fun h => absurd rfl h
theorem leadingCrossing (ch : Chan) (e : Edge) : Statement (.leadingCrossing ch e) := fun h => absurd rfl h
theorem highCrossing (ch : Chan) (e : Edge) : Statement (.highCrossing ch e) := fun h => absurd rfl h
theorem trailingCrossing (ch : Chan) (e : Edge) : Statement (.trailingCrossing ch e) := fun h => absurd rfl h
theorem totTimeout (ch : Chan) : Statement (.totTimeout ch) := fun h => absurd rfl h
theorem hitEmit (ch : Chan) : Statement (.hitEmit ch) := fun h => absurd rfl h
theorem fillInternal (lane : Lane) : Statement (.fillInternal lane) := fun _ => ⟨rfl, rfl, rfl⟩
theorem fillLive (lane : Lane) : Statement (.fillLive lane) := fun _ => ⟨rfl, rfl, rfl⟩
theorem swap (lane : Lane) : Statement (.swap lane) := fun _ => ⟨rfl, rfl, rfl⟩
theorem abort (lane : Lane) : Statement (.abort lane) := fun _ => ⟨rfl, rfl, rfl⟩
theorem fillLaunch (codes : List (Nat × Nat × Bool)) : Statement (.fillLaunch codes) := fun h => absurd rfl h
theorem fillConvert (ch : Chan) : Statement (.fillConvert ch) := fun h => absurd rfl h
theorem channelBankSwap (ch : Chan) : Statement (.channelBankSwap ch) := fun h => absurd rfl h
theorem cdTableWrite (lane : Lane) (data : W32) (be : BitVec 4) : Statement (.cdTableWrite lane data be) :=
  fun _ => ⟨rfl, rfl, rfl⟩
theorem cdTableReadAutoinc (lane : Lane) : Statement (.cdTableReadAutoinc lane) := fun _ => ⟨rfl, rfl, rfl⟩
theorem skewClear (lane : Lane) (data : W32) (be : BitVec 4) : Statement (.skewClear lane data be) :=
  fun _ => ⟨rfl, rfl, rfl⟩
theorem ringFreeze (ch : Chan) : Statement (.ringFreeze ch) := fun h => absurd rfl h
theorem keepWindowReceive (fromB : Bool) (first last now : Nat) : Statement (.keepWindowReceive fromB first last now) :=
  fun h => absurd rfl h
theorem releaseThroughReceive (issuer : Issuer) (x now : Nat) : Statement (.releaseThroughReceive issuer x now) :=
  fun h => absurd rfl h
theorem holdBudgetExpire (ch : Chan) (ring : Fin 4) : Statement (.holdBudgetExpire ch ring) := fun h => absurd rfl h
theorem adcConversionStart (adc : Adc) (now : Nat) : Statement (.adcConversionStart adc now) := fun h => absurd rfl h
theorem adcConversionEnd (adc : Adc) (raw : List Nat) : Statement (.adcConversionEnd adc raw) := fun h => absurd rfl h
theorem waveDeadline (ch : Chan) (ring : Fin 4) : Statement (.waveDeadline ch ring) := fun h => absurd rfl h
theorem waveUnitWrite (g : Group) : Statement (.waveUnitWrite g) := fun h => absurd rfl h
theorem groupFifoWrite (g : Group) : Statement (.groupFifoWrite g) := fun h => absurd rfl h
theorem gfifoLossWrite (g : Group) : Statement (.gfifoLossWrite g) := fun h => absurd rfl h
theorem innerLinkBeat (now : Nat) : Statement (.innerLinkBeat now) := fun h => absurd rfl h
theorem beatReceive (ok : Bool) (x : BeatBits) (now : Nat) : Statement (.beatReceive ok x now) :=
  fun h => absurd rfl h
theorem creditGrant : Statement .creditGrant := fun h => absurd rfl h
theorem creditReceive (gen : BitVec 8) (g : Group) (pages : Fin 16) : Statement (.creditReceive gen g pages) :=
  fun h => absurd rfl h
theorem closedReceive (gen : BitVec 8) (n : W32) : Statement (.closedReceive gen n) := fun h => absurd rfl h
theorem levelReceive (gen : BitVec 8) (n : W32) (level : Fin 5) (step : Fin 7) : Statement (.levelReceive gen n level step) :=
  fun h => absurd rfl h
theorem flush (lane : Lane) (id : BitVec 16) (now : Nat) : Statement (.flush lane id now) := fun h => absurd rfl h
theorem pqPopLo (lane : Lane) : Statement (.pqPopLo lane) := fun h => absurd rfl h
theorem pqPopHi (lane : Lane) : Statement (.pqPopHi lane) := fun _ => ⟨rfl, rfl, rfl⟩
theorem popStallExpire (lane : Lane) : Statement (.popStallExpire lane) := fun h => absurd rfl h
theorem sliceOpen : Statement .sliceOpen := fun h => absurd rfl h
theorem sliceClose : Statement .sliceClose := fun h => absurd rfl h
theorem sliceDrainStart : Statement .sliceDrainStart := fun h => absurd rfl h
theorem headFrameStart : Statement .headFrameStart := fun h => absurd rfl h
theorem peerDeadline : Statement .peerDeadline := fun h => absurd rfl h
theorem pressureSample (awaiting : Nat) : Statement (.pressureSample awaiting) := fun h => absurd rfl h
theorem throttle (lane : Lane) (data : W32) (be : BitVec 4) : Statement (.throttle lane data be) :=
  fun _ => ⟨rfl, rfl, rfl⟩
theorem primitiveArrival : Statement .primitiveArrival := fun h => absurd rfl h
theorem whiskTickEvaluate : Statement .whiskTickEvaluate := fun h => absurd rfl h
theorem releaseThroughSend : Statement .releaseThroughSend := fun h => absurd rfl h
theorem ringFrameOriginate (now : Nat) : Statement (.ringFrameOriginate now) := fun h => absurd rfl h
theorem ringFrameReceive (frame : BitVec 128) (skew : Bool) (now : Nat) : Statement (.ringFrameReceive frame skew now) :=
  fun h => absurd rfl h
theorem ringFrameForward : Statement .ringFrameForward := fun h => absurd rfl h
theorem ringFrameReturn (frame : BitVec 128) (skew : Bool) (now : Nat) : Statement (.ringFrameReturn frame skew now) :=
  fun h => absurd rfl h
theorem loopTask (lane : Lane) : Statement (.loopTask lane) := fun _ => ⟨rfl, rfl, rfl⟩
theorem loopTaskDone : Statement .loopTaskDone := fun h => absurd rfl h
theorem blockCode (space : Nat) : Statement (.blockCode space) := fun h => absurd rfl h
theorem pressJobResume (engine : Fin 8) (space : Nat) : Statement (.pressJobResume engine space) :=
  fun h => absurd rfl h
theorem blockIdleEnd (arrived : Nat) : Statement (.blockIdleEnd arrived) := fun h => absurd rfl h
theorem blockVerify (flips : List (Nat × W64)) (now : Nat) : Statement (.blockVerify flips now) :=
  fun h => absurd rfl h
theorem blockRelease : Statement .blockRelease := fun h => absurd rfl h
theorem peerBlockExpand (src : Fin 8) : Statement (.peerBlockExpand src) := fun h => absurd rfl h
theorem ptpSync (m : PtpMsg) (twoStep : Bool) (t1 corr : Int) (t2 : Instant) : Statement (.ptpSync m twoStep t1 corr t2) :=
  fun h => absurd rfl h
theorem ptpFollowUp (m : PtpMsg) (t1 corr : Int) : Statement (.ptpFollowUp m t1 corr) := fun h => absurd rfl h
theorem followUpTimeout : Statement .followUpTimeout := fun h => absurd rfl h
theorem ptpDelayResp (m : PtpMsg) (reqPort : Nat) (t4 corr : Int) : Statement (.ptpDelayResp m reqPort t4 corr) :=
  fun h => absurd rfl h
theorem ptpAnnounce (m : PtpMsg) (gmId : W64) (ptpScale : Bool) (utcValid : Bool) (utc : BitVec 16) : Statement (.ptpAnnounce m gmId ptpScale utcValid utc) :=
  fun h => absurd rfl h
theorem delayReqSend (t3 : Instant) : Statement (.delayReqSend t3) := fun h => absurd rfl h
theorem announceTimeout : Statement .announceTimeout := fun h => absurd rfl h
theorem ptpStaleExpire : Statement .ptpStaleExpire := fun h => absurd rfl h
theorem slewDone : Statement .slewDone := fun h => absurd rfl h
theorem pendingStep : Statement .pendingStep := fun h => absurd rfl h
theorem phaseJump (delta : Int) : Statement (.phaseJump delta) := fun h => absurd rfl h
theorem holdoverUpdate (tempMilliK : Int) : Statement (.holdoverUpdate tempMilliK) := fun h => absurd rfl h
theorem tbIncWrite (lane : Lane) (high : Bool) (data : W32) (be : BitVec 4) : Statement (.tbIncWrite lane high data be) :=
  fun _ => ⟨rfl, rfl, rfl⟩
theorem blindBringup (x : LaneRun) : Statement (.blindBringup x) := fun h => absurd rfl h
theorem losClear (n : Lane) (r : BringUp) : Statement (.losClear n r) := fun h => absurd rfl h
theorem los (n : Lane) : Statement (.los n) := fun h => absurd rfl h
theorem lol (n : Lane) : Statement (.lol n) := fun h => absurd rfl h
theorem fomMeasure (n : Lane) (eye : Eye) : Statement (.fomMeasure n eye) := fun h => absurd rfl h
theorem adaptCycle (n : Lane) (eye eyeMinus eyePlus : Eye) : Statement (.adaptCycle n eye eyeMinus eyePlus) :=
  fun h => absurd rfl h
theorem ctleManualStep (n : Lane) : Statement (.ctleManualStep n) := fun h => absurd rfl h
theorem retrain (lane : Lane) (n : Lane) (data : W32) (be : BitVec 4) : Statement (.retrain lane n data be) :=
  fun _ => ⟨rfl, rfl, rfl⟩
theorem prbsPatternSet (lane : Lane) (data : W32) (be : BitVec 4) : Statement (.prbsPatternSet lane data be) :=
  fun _ => ⟨rfl, rfl, rfl⟩
theorem injOne (lane : Lane) (data : W32) (be : BitVec 4) : Statement (.injOne lane data be) :=
  fun _ => ⟨rfl, rfl, rfl⟩
theorem prbsClear (lane : Lane) : Statement (.prbsClear lane) := fun _ => ⟨rfl, rfl, rfl⟩
theorem frameTransmit (queued : List (Nat × Nat)) (departs : List Nat) : Statement (.frameTransmit queued departs) :=
  fun h => absurd rfl h
theorem dataFrameReceive (n : Lane) (bs : List LineBlock) : Statement (.dataFrameReceive n bs) :=
  fun h => absurd rfl h
theorem slotIdleReceive (n : Lane) (u : W64) : Statement (.slotIdleReceive n u) := fun h => absurd rfl h
theorem peerAnnounceTimeout (n : Lane) : Statement (.peerAnnounceTimeout n) := fun h => absurd rfl h
theorem scNop (lane : Lane) (req dat : W64) : Statement (.scNop lane req dat) := fun h => absurd rfl h
theorem scResync (lane : Lane) (req dat : W64) : Statement (.scResync lane req dat) := fun h => absurd rfl h
theorem scResponseSend (lane : Lane) : Statement (.scResponseSend lane) := fun h => absurd rfl h
theorem crReceive (n : Lane) (u : W64) : Statement (.crReceive n u) := fun h => absurd rfl h
theorem crRepeat : Statement .crRepeat := fun h => absurd rfl h
theorem sackSend (src : Fin 8) (n : W32) : Statement (.sackSend src n) := fun h => absurd rfl h
theorem sackRepeat : Statement .sackRepeat := fun h => absurd rfl h
theorem sackReceive (n : Lane) (u : W64) : Statement (.sackReceive n u) := fun h => absurd rfl h
theorem ackTimeout : Statement .ackTimeout := fun h => absurd rfl h
theorem resendSend (src : Fin 8) (now : Nat) : Statement (.resendSend src now) := fun h => absurd rfl h
theorem resendReceive (n : Lane) (u : W64) : Statement (.resendReceive n u) := fun h => absurd rfl h
theorem heartbeatTimeout : Statement .heartbeatTimeout := fun h => absurd rfl h
theorem innerLinkUnlock : Statement .innerLinkUnlock := fun h => absurd rfl h
theorem switch (lane : Lane) : Statement (.switch lane) := fun _ => ⟨rfl, rfl, rfl⟩
theorem replayWalkEnd : Statement .replayWalkEnd := fun h => absurd rfl h
theorem whiskCatchupEnd (tcu hold : Nat) : Statement (.whiskCatchupEnd tcu hold) := fun h => absurd rfl h
theorem peerRestartResend : Statement .peerRestartResend := fun h => absurd rfl h
theorem checkpointTake : Statement .checkpointTake := fun h => absurd rfl h
theorem checkpointAck (dur : Nat) : Statement (.checkpointAck dur) := fun h => absurd rfl h
theorem checkpointSkip : Statement .checkpointSkip := fun h => absurd rfl h
theorem authPoll (b : Bool) : Statement (.authPoll b) := fun h => absurd rfl h
theorem hbdBlockReceive : Statement .hbdBlockReceive := fun h => absurd rfl h
theorem rejoin (lane : Lane) : Statement (.rejoin lane) := fun _ => ⟨rfl, rfl, rfl⟩
theorem autoRejoin : Statement .autoRejoin := fun h => absurd rfl h
theorem scrubRead (die : Die) (mem : BitVec 8) (index : Nat) (lastOfPass : Bool) (found : Fin 3) : Statement (.scrubRead die mem index lastOfPass found) :=
  fun h => absurd rfl h
theorem voteRewrite (die : Die) (word : BitVec 8) (lost : Bool) : Statement (.voteRewrite die word lost) :=
  fun h => absurd rfl h
theorem errRepair (lane : Lane) (die : Die) (addr : BitVec 24) : Statement (.errRepair lane die addr) :=
  fun _ => ⟨rfl, rfl, rfl⟩
theorem writeRaw (lane : Lane) (die : Die) (data : W32) : Statement (.writeRaw lane die data) :=
  fun _ => ⟨rfl, rfl, rfl⟩
theorem readRaw (lane : Lane) (die : Die) (data : W32) : Statement (.readRaw lane die data) :=
  fun _ => ⟨rfl, rfl, rfl⟩
theorem voteFlip (lane : Lane) (die : Die) (data : W32) : Statement (.voteFlip lane die data) :=
  fun _ => ⟨rfl, rfl, rfl⟩
theorem stsWrite (lane : Lane) (addr : BitVec 24) (data : W32) (be : BitVec 4) : Statement (.stsWrite lane addr data be) :=
  fun _ => ⟨rfl, rfl, rfl⟩
theorem registerWrite (lane : Lane) (addr : BitVec 24) (data : W32) (be : BitVec 4) : Statement (.registerWrite lane addr data be) :=
  fun _ => ⟨rfl, rfl, rfl⟩
theorem safetyInputChange (i : Fin 4) (sideB : Bool) (healthy : Bool) : Statement (.safetyInputChange i sideB healthy) :=
  fun h => absurd rfl h
theorem inputFilterExpire (c : LidCh) (i : Fin 4) (sideB : Bool) : Statement (.inputFilterExpire c i sideB) :=
  fun h => absurd rfl h
theorem discrepancySample (c : LidCh) : Statement (.discrepancySample c) := fun h => absurd rfl h
theorem biasMonitorSample (c : LidCh) (q : Fin 4) (v i : Nat) : Statement (.biasMonitorSample c q v i) :=
  fun h => absurd rfl h
theorem crosslinkFrame (rx : LidCh) : Statement (.crosslinkFrame rx) := fun h => absurd rfl h
theorem crosslinkTimeout (c : LidCh) : Statement (.crosslinkTimeout c) := fun h => absurd rfl h
theorem programWatchdog : Statement .programWatchdog := fun h => absurd rfl h
theorem lcrcCompare : Statement .lcrcCompare := fun h => absurd rfl h
theorem driveReadbackFault (c : LidCh) : Statement (.driveReadbackFault c) := fun h => absurd rfl h
theorem feedbackChange (b : Bool) (isOpen : Bool) : Statement (.feedbackChange b isOpen) := fun h => absurd rfl h
theorem feedbackTimeout (b : Bool) : Statement (.feedbackTimeout b) := fun h => absurd rfl h
theorem lidRstClose : Statement .lidRstClose := fun h => absurd rfl h
theorem lidRstRelease (hP hH : Nat) : Statement (.lidRstRelease hP hH) := fun h => absurd rfl h
theorem resetHoldFault (c : LidCh) : Statement (.resetHoldFault c) := fun h => absurd rfl h
theorem degrade (lane : Lane) : Statement (.degrade lane) := fun _ => ⟨rfl, rfl, rfl⟩
theorem qenWrite (lane : Lane) (data : W32) (be : BitVec 4) : Statement (.qenWrite lane data be) :=
  fun _ => ⟨rfl, rfl, rfl⟩
theorem plannerCycle (r : AgeReadings) : Statement (.plannerCycle r) := fun h => absurd rfl h
theorem ageingRecordAbandon : Statement .ageingRecordAbandon := fun h => absurd rfl h
theorem deferredTrimStep : Statement .deferredTrimStep := fun h => absurd rfl h
theorem attestationReportRequest (lane : Lane) : Statement (.attestationReportRequest lane) :=
  fun _ => ⟨rfl, rfl, rfl⟩
theorem signingDone (glitch : Nat) : Statement (.signingDone glitch) := fun h => absurd rfl h
theorem time (lane : Lane) : Statement (.time lane) := fun _ => ⟨rfl, rfl, rfl⟩
theorem bootCount (lane : Lane) : Statement (.bootCount lane) := fun _ => ⟨rfl, rfl, rfl⟩
theorem attReport (lane : Lane) (part : BitVec 16) : Statement (.attReport lane part) := fun _ => ⟨rfl, rfl, rfl⟩
theorem total (lane : Lane) (sel : BitVec 16) : Statement (.total lane sel) := fun _ => ⟨rfl, rfl, rfl⟩
theorem mbxDataRead (lane : Lane) (i : Fin 6) : Statement (.mbxDataRead lane i) := fun _ => ⟨rfl, rfl, rfl⟩
theorem hkMonitorSample (x : HkSample) : Statement (.hkMonitorSample x) := fun h => absurd rfl h
theorem tapReset : Statement .tapReset := fun h => absurd rfl h
theorem bypass (x : TapCmd) : Statement (.bypass x) := fun h => absurd rfl h
theorem idcode (x : TapCmd) : Statement (.idcode x) := fun h => absurd rfl h
theorem samplePreload (die : Die) (scan : TapScan) : Statement (.samplePreload die scan) := fun h => absurd rfl h
theorem extest (x : TapCmd) : Statement (.extest x) := fun h => absurd rfl h
theorem extestPulse (x : TapCmd) : Statement (.extestPulse x) := fun h => absurd rfl h
theorem extestTrain (x : TapCmd) : Statement (.extestTrain x) := fun h => absurd rfl h
theorem clamp (x : TapCmd) : Statement (.clamp x) := fun h => absurd rfl h
theorem highz (x : TapCmd) : Statement (.highz x) := fun h => absurd rfl h
theorem rstNHigh1ms : Statement .rstNHigh1ms := fun h => absurd rfl h
theorem prbsSync (x : LaneBits) : Statement (.prbsSync x) := fun h => absurd rfl h
theorem prbsSyncLoss (x : LaneBits) : Statement (.prbsSyncLoss x) := fun h => absurd rfl h
theorem rejoinMirroring (ok : Bool) : Statement (.rejoinMirroring ok) := fun h => absurd rfl h
theorem pgLoss (die : Die) : Statement (.pgLoss die) := fun h => absurd rfl h

end Sys2Proof.Laws.Requests
end

