-- ==== Sys2Proof/Tests/Slice0.lean ====
section
/-! SUPPORT. Tests: ill-formed operands are refused, worked examples of the spec, and for each statement of Slice0 with
hypotheses a witness, clause by clause, that something meets them. -/

namespace Sys2Proof.Tests

-- One theorem at a time: their kernel evaluations side by side take too many threads.
set_option Elab.async false

open Sys2Proof.Machine

/-! ### States and commands of the tests -/

/-- A lane that is UP and SYNCED. -/
def up : LaneSt := { LaneSt.off with st := 5, block := true, synced := true }

/-- The module with all supplies in a mode, lane 0 UP. -/
def base (m : Mode) : State :=
  ({ State.reset with hk := { Hk.reset with v12 := true, v24 := true, rstN := true, mode := m }, lanes := [(0, up)] } :
    State).setFld Reg.HK_PWR_STS 3 0 0xF

/-- The same with the A die active. -/
def live (m : Mode) : State := { base m with cda := { Cd.reset with st := cdActive } }

/-- The same in a run from slice 0 on. -/
def running : State := { live .run with run := { Run.reset with active := true, closedMark := false } }

/-- What holds after a command. -/
def after (o : Outcm) (p : State → Bool) : Bool :=
  match o with
  | .next t => p t
  | _ => false

/-- The role of the module. -/
def withRole (s : State) (r : Nat) : State := s.setFld Reg.HK_CFG_INFO 5 4 r

/-! ### Ill-formed operands are refused, one term for each check of WellFormed -/

/-- Does a command answer that its operands are ill-formed. -/
def refuses (o : Outcm) (m : String) : Bool :=
  match o with
  | .refused (.illFormed x) => x == m
  | _ => false

theorem test_edgeSum_illFormed :
    refuses (exec (.leadingCrossing 0 ⟨0, 1537, false⟩) (base .run)) "LEADING_CROSSING" = true := by decide +kernel

theorem test_edgeFull_illFormed :
    refuses (exec (.highCrossing 0 ⟨0, 383, true⟩) (base .run)) "HIGH_CROSSING" = true := by decide +kernel

theorem test_trailingSum_illFormed :
    refuses (exec (.trailingCrossing 0 ⟨0, 1537, false⟩) (base .run)) "TRAILING_CROSSING" = true := by decide +kernel

theorem test_launchChannel_illFormed :
    refuses (exec (.fillLaunch [(4096, 0, false)]) (base .calib)) "FILL_LAUNCH" = true := by decide +kernel

theorem test_launchCode_illFormed :
    refuses (exec (.fillLaunch [(0, 1537, false)]) (base .calib)) "FILL_LAUNCH" = true ∧
    refuses (exec (.fillLaunch [(0, 383, true)]) (base .calib)) "FILL_LAUNCH" = true := by decide +kernel

theorem test_conversionLength_illFormed :
    refuses (exec (.adcConversionEnd 0 []) (base .run)) "ADC_CONVERSION_END" = true := by decide +kernel

theorem test_conversionValue_illFormed :
    refuses (exec (.adcConversionEnd 0 (List.replicate 64 4096)) (base .run)) "ADC_CONVERSION_END" = true := by
  decide +kernel

/-- An eye that is shut at every position, and one that is open at all 127. -/
def shut : Eye := List.replicate 127 262144
def wide : Eye := List.replicate 127 0

/-- A bring-up with the same eye at every code, ended by a step. -/
def bring (e : Eye) (line : List LineBlock) (upTo : Nat) (ok : Bool) : BringUp :=
  ⟨0, List.replicate 16 e, List.replicate 16 e, 0, 0, line, upTo, ok⟩

theorem test_bringUpRate_illFormed :
    refuses (exec (.losClear 1 { bring wide [] 7 true with rate := 3 }) (base .run)) "LOS_CLEAR" = true := by decide +kernel

theorem test_bringUpEyes_illFormed :
    refuses (exec (.losClear 1 { bring wide [] 7 true with eyes := [] }) (base .run)) "LOS_CLEAR" = true ∧
    refuses (exec (.losClear 1 { bring wide [] 7 true with again := [] }) (base .run)) "LOS_CLEAR" = true ∧
    refuses (exec (.losClear 1 (bring (wide ++ [0]) [] 7 true)) (base .run)) "LOS_CLEAR" = true ∧
    refuses (exec (.blindBringup ⟨1, bring [] [] 7 true⟩) (base .run)) "BLIND_BRINGUP" = true := by decide +kernel

theorem test_bringUpSlip_illFormed :
    refuses (exec (.losClear 1 { bring wide [] 7 true with slip := 66 }) (base .run)) "LOS_CLEAR" = true := by decide +kernel

theorem test_bringUpStep_illFormed :
    refuses (exec (.losClear 1 (bring wide [] 8 true)) (base .run)) "LOS_CLEAR" = true ∧
    refuses (exec (.losClear 1 (bring wide [] 1 true)) (base .run)) "LOS_CLEAR" = true := by decide +kernel

theorem test_eye_illFormed :
    refuses (exec (.fomMeasure 1 []) (base .run)) "FOM_MEASURE" = true ∧
    refuses (exec (.fomMeasure 1 (List.replicate 127 262145)) (base .run)) "FOM_MEASURE" = true ∧
    refuses (exec (.adaptCycle 1 wide wide []) (base .run)) "ADAPT_CYCLE" = true := by decide +kernel

theorem test_lidDieHasNoErrBlock_illFormed :
    refuses (exec (.scrubRead .sfd 0x20 0 false 0) (base .run)) "SCRUB_READ" = true ∧
    refuses (exec (.pgLoss .sfd) (base .run)) "PG_LOSS" = true := by decide +kernel

theorem test_lidDieHasNoEccTest_illFormed :
    refuses (exec (.errRepair 0 .sfd 0) (base .test)) "ERR_REPAIR" = true ∧
    refuses (exec (.writeRaw 0 .sfd 0) (base .test)) "WRITE_RAW" = true ∧
    refuses (exec (.readRaw 0 .sfd 0) (base .test)) "READ_RAW" = true ∧
    refuses (exec (.voteFlip 0 .sfd 0) (base .test)) "VOTE_FLIP" = true := by decide +kernel

theorem test_biasSample_illFormed :
    refuses (exec (.biasMonitorSample .p 0 65536 0) (base .run)) "BIAS_MONITOR_SAMPLE" = true ∧
    refuses (exec (.biasMonitorSample .p 0 0 65536) (base .run)) "BIAS_MONITOR_SAMPLE" = true := by decide +kernel

theorem test_plannerReadings_illFormed :
    refuses (exec (.plannerCycle ⟨[], [], []⟩) (base .run)) "PLANNER_CYCLE" = true ∧
    refuses (exec (.plannerCycle ⟨List.replicate 40 0, List.replicate 6 0, []⟩) (base .run)) "PLANNER_CYCLE" = true := by decide +kernel

theorem test_hkSample_illFormed :
    refuses (exec (.hkMonitorSample ⟨[], 0, 0, 0, [0, 0, 0, 0], 0⟩) (base .run)) "HK_MONITOR_SAMPLE" = true ∧
    refuses (exec (.hkMonitorSample ⟨List.replicate 6 0, 65536, 0, 0, [0, 0, 0, 0], 0⟩) (base .run)) "HK_MONITOR_SAMPLE" = true := by decide +kernel

theorem test_requestType_illFormed :
    refuses (exec (.scNop 0 0 0) (base .run)) "SC_NOP" = true ∧
    refuses (exec (.scResync 0 0 0) (base .run)) "SC_RESYNC" = true := by decide +kernel

/-! ### Witnesses: the whole machine -/

theorem witness_StepRunsTheFrontCommand :
    ({ base .simmer with pending := [.sliceClose, .creditGrant] } : State).pending = .sliceClose :: [.creditGrant] := rfl

/-- SIMMER with words of an ageing record to write. -/
def logging (l : List W64) : State := { base .simmer with age := { Age.reset with writing := some l } }

theorem witness_EmptyQueueLetsOneTickPass :
    (State.reset.pending = [] ∧ State.reset.hk.mode = .boot) ∧
    ((base .simmer).pending = [] ∧ (base .simmer).hk.mode ≠ .boot ∧ (base .simmer).hk.mode ≠ .load ∧
      (base .simmer).ulp.flushes = [] ∧ (base .simmer).age.writing = none) ∧
    (∀ l, l ∈ [[], [8]] → (logging (7 :: l)).age.writing = some (7 :: l) ∧ (logging (7 :: l)).nvd.busy = none ∧
      (logging (7 :: l)).ulp.flushes = [] ∧ (logging (7 :: l)).hk.mode = .simmer) := by decide +kernel

theorem witness_InvKeptByEveryStep :
    ∃ s t : State, s.Inv ∧ s.pending ≠ [] ∧ step s = .next t ∧ t ≠ s :=
  ⟨{ State.reset with pending := [.powerOn true] }, _,
    ⟨rfl, fun _ => ⟨rfl, rfl, fun h => absurd h (by decide)⟩⟩, by decide, rfl, by decide +kernel⟩

theorem witness_CommandsLeaveTheQueue : ∃ t, exec .tapReset (base .simmer) = .next t := ⟨_, rfl⟩

theorem witness_ModeChangesOnlyAsGiven :
    after (exec .rstNLow (base .run)) (fun t => t.hk.mode != .run) = true ∧
    after (exec (.modeTransitionComplete ⟨0, []⟩) { base .simmer with hk := { (base .simmer).hk with target := some .calib } })
      (fun t => t.hk.mode != .simmer) = true ∧
    after (exec .sliceOpen { running with
      hk := { running.hk with target := some .drain }, run := { running.run with sl := some 0, nextOpen := 1, endMode := 2 } })
      (fun t => t.hk.mode != .run) = true ∧
    after (exec .drainComplete (live .drain)) (fun t => t.hk.mode != .drain) = true := by decide +kernel

theorem witness_NvdWordsChangeOnlyAsGiven :
    mayWriteNvd .rstNLow = false ∧ after (exec .rstNLow (base .run)) (fun _ => true) = true := by decide +kernel

theorem witness_SuppliesAndRstNChangeOnlyAsGiven :
    after (exec (.powerOn true) State.reset) (fun t => t.hk.v12 && t.hk.rstN) = true ∧
    after (exec .powerLoss12V (base .simmer)) (fun t => !t.hk.v12 && !t.hk.rstN) = true ∧
    after (exec .supply24VApply State.reset) (fun t => t.hk.v24) = true ∧
    after (exec .supply24VLoss (base .simmer)) (fun t => !t.hk.v24) = true ∧
    after (exec .rstNLow (base .simmer)) (fun t => !t.hk.rstN) = true ∧
    after (exec (.rstNRise 1) { State.reset with hk := { Hk.reset with v12 := true } }) (fun t => t.hk.rstN) = true := by
  decide +kernel

theorem witness_WellFormedCommandsComplete :
    Instr.wf (.fillLaunch [(4095, 1536, false)]) = true ∧ Instr.wf (.fillLaunch [(4095, 1537, false)]) = false := by decide

theorem witness_SignedDifferencesDecideOrder :
    0 < 8 ∧ sdiffW 8 255 127 = -128 ∧ 0 < sdiff (1 : W32).toNat (0 : W32).toNat ∧ sdiff (0 : W32).toNat (1 : W32).toNat < 0 ∧
    sdiff (0x80000000 : W32).toNat (0 : W32).toNat = -2 ^ 31 := by decide

/-- LK_EVT with one event of bit 2. -/
def oneEvent : State := (base .simmer).event Reg.LK_EVT [2]

theorem witness_StickyBitsClearByTheirEvent :
    (let a : BitVec 24 := BitVec.ofNat 24 Reg.LK_EVT
     isSts (normAddr a.toNat) = true ∧ (regRow (normAddr a.toNat)).isSome = true ∧ a.toNat % 4 = 0 ∧
      a.toNat / 0x100000 ≤ 5 ∧ oneEvent.serves 0 a.toNat = true ∧ oneEvent.allows .writeCfg = true ∧
      (0xF : BitVec 4).getLsbD 3 = true ∧
      sdiffW 8 ((0x01000004 : W32).extractLsb' 24 8).toNat (oneEvent.stsOf a.toNat).seq.toNat ≤ 0 ∧
      0 < sdiffW 8 ((0x02000004 : W32).extractLsb' 24 8).toNat (oneEvent.stsOf a.toNat).seq.toNat) ∧
    (2 < 24 ∧ 2 ∈ [2] ∧ 3 ∉ [2]) := by decide +kernel

theorem witness_RefusedWritesChangeNoField :
    (base .run).stalls = false ∧ after (exec (.registerWrite 0 (BitVec.ofNat 24 Reg.HK_MODE_REQ) 2 0xF) (base .run))
      (fun t => t.resp == (base .run).resp ++ [(0, ⟨Stat.stateReject, 0, Reg.HK_MODE_REQ, 0⟩)]) = true ∧
    Stat.stateReject ≠ Stat.ok := by decide +kernel

/-- A slow-control pair: op, SEQ and address, with data and byte enables; `resync` for a NOP that sets E. -/
def pair (op seq addr : Nat) (resync : Bool) (data be : Nat) : W64 × W64 :=
  (withUnitCrc (rec64 [(9, 4), (b2n resync, 1), (op, 2), (0, 1), (seq, 16), (addr, 24), (0, 16)]),
   withUnitCrc (rec64 [(0xB, 4), (be, 4), (seq, 8), (data, 32), (0, 16)]))

/-- Lane 0 with all 32 response entries taken. -/
def full : State := { base .simmer with resp := List.replicate 32 (0, ⟨0, 0, 0, 0⟩) }

theorem witness_NoEntryNoExecution :
    (full.pathOpen 0 = true ∧ full.scRole 0 = true ∧ full.stalls = false ∧ full.noEntry 0 = true) ∧
    (Instr.wf (.reqLoad 0) = true ∧ accessLane (.reqLoad 0) = some 0 ∧ (full.lane 0).synced = true) ∧
    (Instr.wf (.scNop 0 (pair 0 0 0 false 0 0).1 (pair 0 0 0 false 0 0).2) = true ∧
      full.intact 0 (pair 0 0 0 false 0 0).1 (pair 0 0 0 false 0 0).2 = true) := by
  decide +kernel

theorem witness_ModeRequestsAreAnsweredByMode :
    (∀ p, p ∈ modeRequests 0 → p.2 ≤ 8) ∧ reqAnswer 7 .test = .already ∧
    (∀ m : Mode, m ∈ [.simmer, .run] → (base m).serves 0 Reg.HK_MODE_REQ = true ∧ (base m).hk.target = none) ∧
    reqAnswer 1 .run = .reject ∧ reqAnswer 2 .simmer = .already ∧ reqAnswer 4 .simmer = .accept ∧
    (base .simmer).reqWaits 4 = true ∧
    ({ base .simmer with hk := { (base .simmer).hk with target := some .calib } } : State).serves 0 Reg.HK_MODE_REQ = true ∧
    modeOfCode 3 = .calib ∧ modeOfCode 4 ≠ .calib := by decide +kernel

/-! ### Witnesses: supplies, reset, modes -/

theorem witness_SuppliesActAsGiven :
    (State.reset.hk.v12 = false ∧ State.reset.lid.state = .off ∧ State.reset.lid.acc = none ∧ (base .simmer).lid.acc = none) ∧
    (base .simmer).hk.v12 = true ∧ State.reset.hk.v24 = false ∧
    ((base .simmer).hk.v24 = true ∧ (base .simmer).hk.v12 = true) ∧
    (let s : State := { State.reset with hk := { Hk.reset with v24 := true } }
     s.hk.v24 = true ∧ s.hk.v12 = false) ∧
    ({ base .run with lid := { Lid.reset with state := .run } } : State).lid.biasOn = true := by decide +kernel

/-- 12 V present, RST_N low. -/
def lowLine : State := { State.reset with hk := { Hk.reset with v12 := true } }

theorem witness_ResetLineActsAsGiven :
    ((base .run).hk.v12 = true ∧ (base .run).hk.rstN = true) ∧
    (lowLine.hk.v12 = true ∧ lowLine.hk.rstN = false ∧ lowLine.hk.stuck = false ∧ lowLine.hk.mode = .boot ∧
      (lowLine.lane 0).block = false) ∧
    ((base .boot).hk.v12 = true ∧ (base .boot).hk.rstN = true ∧ (base .boot).hk.mode = .boot ∧
      (base .boot).hk.minimalLink = false ∧ (base .boot).hk.target = none) := by decide +kernel

/-- BOOT with the minimal link. -/
def bootLink : State := { base .boot with hk := { (base .boot).hk with minimalLink := true } }

/-- SIMMER ready for RUN: locked, calibration valid, one uplink UP on lane 1. -/
def ready : State :=
  let s := ((base .simmer).setFld Reg.HK_CFG_INFO 10 10 1).setFld (laneCfg 1) 31 30 2
  { s with tb := { s.tb with state := .locked }, lanes := [(0, up), (1, up)] }

theorem witness_ModeRequestsStartTransitions :
    (∀ s, s ∈ [bootLink, base .simmer, base .test, base .safe, base .calib, ready] →
      s.hk.target = none ∧ s.serves 0 Reg.HK_MODE_REQ = true) ∧
    (bootLink.hk.mode = .boot ∧ (base .safe).hk.safeDrained = true ∧ (base .safe).lid.state ≠ .fault) ∧
    (ready.tb.state = .locked ∧ ready.bit Reg.HK_CFG_INFO 10 = true ∧ ready.simmerLane = some 1 ∧ ready.laneUp 1 = true) ∧
    ((running.advanceTo 5).serves 0 Reg.HK_MODE_REQ = true ∧ running.run.active = true ∧ running.run.closedMark = false ∧
      running.hk.target = none ∧ running.hk.mode = .run) := by decide +kernel

/-- LOAD, on the way to SIMMER. -/
def leavingLoad : State :=
  let s := (base .load).setFld (laneCfg 1) 31 30 2
  { s with hk := { s.hk with target := some .simmer, loadResult := .simmer }, lanes := [] }

theorem witness_LoadRunsToItsResult :
    ((base .load).hk.mode = .load ∧ (base .load).hk.target = none ∧ (base .load).hk.loadResult = .none) ∧
    (∀ r, r ∈ [LoadResult.simmer, .safe, .boot] →
      ({ base .load with hk := { (base .load).hk with loadResult := r } } : State).hk.loadResult ≠ .none) ∧
    (leavingLoad.lane 0).block = false ∧
    (leavingLoad.hk.mode = .load ∧ leavingLoad.hk.target = some .simmer ∧ leavingLoad.laneUp 0 = false ∧
      leavingLoad.laneRole 1 ≠ 0 ∧ (leavingLoad.lane 1).st = 0) ∧
    leavingLoad.simmerLane ≠ some 2 ∧ leavingLoad.laneRole 1 = 2 := by decide +kernel

theorem witness_TransitionsReachTheirMode :
    (∀ m : Mode, m ∈ [.load, .run, .calib, .test, .boot, .simmer, .safe] →
      (let s : State := { live .simmer with hk := { (live .simmer).hk with target := some m } }
       s.hk.target = some m ∧ m ≠ .drain ∧ s.hk.heldSpillEnd = none ∧ s.rd.step = 0)) ∧
    (let s : State := { live .run with
       hk := { (live .run).hk with target := some .safe, tcause := 6 }, rd := { Rd.reset with step := 3 } }
     s.hk.target = some .safe ∧ s.rd.step ≠ 0 ∧ s.hk.tcause = 6) ∧
    ((base .calib).hk.target = none ∧ (base .calib).calibBusy = false) ∧
    ((base .drain).run.closedMark = true ∧ (base .drain).hk.target = none ∧ (base .drain).ringsOpen = false) ∧
    (let s : State := { base .safe with hk := { (base .safe).hk with safeDrained := false } }
     s.hk.mode = .safe ∧ s.hk.safeDrained = false ∧ s.run.closedMark = true ∧ s.ringsOpen = false) := by decide +kernel

/-- The same with HK_AUTO_SPILL.EN. -/
def auto (s : State) : State := s.setBit Reg.HK_AUTO_SPILL 0 true

theorem witness_MarkersActOnLaneZero :
    (∀ s, s ∈ [auto (base .simmer), auto running] → (s.advanceTo 0).pathOpen 0 = true ∧ (7 : BitVec 16) ∉ s.ulp.marks ∧
      s.hk.stuck = false ∧ s.hk.target = none ∧ s.bit Reg.HK_AUTO_SPILL 0 = true) ∧
    (-64 ≤ sdiff (0xFFFFFFC0 : W32).toNat ((auto (base .simmer)).latch [Reg.SLC_CFG]).curSlice ∧
      sdiff (0x100000 : W32).toNat ((auto (base .simmer)).latch [Reg.SLC_CFG]).curSlice ≤ 2 ^ 20) ∧
    (0 ≤ sdiff (1 : W32).toNat running.run.named ∧ 0 ≤ sdiff (1 : W32).toNat running.run.sf ∧
      0 < sdiff (1 : W32).toNat running.curSlice ∧ sdiff (0x100000 : W32).toNat running.curSlice ≤ 2 ^ 20) ∧
    (running.run.active = true ∧ running.run.closedMark = false ∧ running.run.sl = none ∧
      running.built (0 : W32).toNat = false ∧ running.handed (0 : W32).toNat = false ∧
      0 ≤ sdiff (0 : W32).toNat running.run.named ∧
      0 ≤ sdiff (0 : W32).toNat running.curSlice) ∧
    ({ running with cdb := { Cd.reset with st := cdReady } } : State).other.st = cdReady ∧
    (sdiff (0xFFFFFFFF : W32).toNat running.curSlice < 0 ∧ sdiff (0x100000 : W32).toNat running.curSlice = 2 ^ 20 ∧
      running.ulp.flushes = []) ∧
    (let s : State := { running with ulp := { running.ulp with flushes := [(0, 7)] },
                                     tb := { running.tb with tn := 2 ^ running.k - 1 } }
     s.pending = [] ∧ s.hk.mode = .run ∧ s.hk.target = none ∧ s.run.sl = none ∧ s.ulp.flushes = [(0, 7)] ∧
      (s.advance 1).sliceEnded 0 = true ∧ s.built 0 = false ∧ s.sliceEnded 0 = false) := by decide +kernel

/-- A small image in slot A, written from R62 to R71 and R355: header, four sections, REGS with lane 1 as UPLINK. -/
def image : Sparse W64 :=
  [
    (0x200000 + 0, 0x146434259), (0x200000 + 1, 0x4000000000108), (0x200000 + 2, 0x7),
    (0x200000 + 7, 0x22A24CD00000000), (0x200000 + 8, 0x8053474552), (0x200000 + 9, 0xBD5105F900000008),
    (0x200000 + 10, 0x884C424154), (0x200000 + 12, 0x882044494C), (0x200000 + 13, 0x48674BC700000080),
    (0x200000 + 14, 0x1084B434F4C), (0x200000 + 16, 0x8000000000020100), (0x200000 + 17, 0x8000015044494C),
    (0x200000 + 18, 0xA0A0A0A00000201), (0x200000 + 19, 0x8020000640032), (0x200000 + 20, 0x7D01F4013881770),
    (0x200000 + 21, 0x2800140014), (0x200000 + 22, 0x7D01F4013881770), (0x200000 + 23, 0x2800140014),
    (0x200000 + 24, 0x7D01F4013881770), (0x200000 + 25, 0x2800140014), (0x200000 + 26, 0x7D01F4013881770),
    (0x200000 + 27, 0x2800140014), (0x200000 + 32, 0xBB89331600000000)]

/-- LOAD with that image stored. -/
def loading : State := { base .load with nvd := { Nvd.reset with words := image } }

theorem witness_LoadRunsToItsResult_image :
    loading.firstTry.fail = 0 ∧ lidParOk loading.lidSection = true ∧ loading.hk.mode = .load ∧ loading.hk.target = none ∧
    loading.hk.loadResult = .none := by decide +kernel

/-! ### Witnesses: NVD and front end -/

/-- SIMMER with HK_NVD_PAGE naming a page. -/
def page (n : Nat) : State := (base .simmer).setFld Reg.HK_NVD_PAGE 5 0 n

theorem witness_NvdCommandsStartAndEnd :
    ((base .simmer).serves 0 Reg.HK_NVD_CMD = true ∧ (base .simmer).lockMask Reg.HK_NVD_CMD = 0 ∧
      (base .simmer).nvd.busy = none ∧ (base .simmer).allows .nvdSlot = true ∧ (base .simmer).loadedSlot true = false ∧
      (base .simmer).allows .calSet = true ∧ (base .simmer).calibBusy = false) ∧
    (let s : State := { base .simmer with nvd := { Nvd.reset with verB := true } }
     s.serves 0 Reg.HK_NVD_CMD = true ∧ s.nvd.verB = true) ∧
    (∀ op : NvdOp, op ∈ [.invalidate, .verify, .prefer, .commit] →
      (let s : State := { base .simmer with nvd := { Nvd.reset with busy := some (op, true), snap := some Cal.zero } }
       s.nvd.busy = some (op, true) ∧ s.nvd.snap = some Cal.zero ∧ s.age.writing = none ∧
        s.clean .hbd 0x04 (slotBase true / 8) = true)) ∧
    (∀ n, n ∈ [0, 1, 0x10, 0x1F, 0x20, 0x2F] → (page n).serves 0 (0xD00000 + (0xFFFFC : BitVec 20).toNat) = true ∧
      (page n).allows .nvdSlot = true ∧ (page n).nvd.busy = none ∧
      (page n).clean .hbd 0x04 ((page n).nvdAddr (0xFFFFC : BitVec 20).toNat / 8) = true) ∧
    (nvdPlace ((page 0x10).nvdAddr (0 : BitVec 20).toNat) = .slot false ∧ (page 0x10).loadedSlot false = false) ∧
    nvdPlace ((page 0x2F).nvdAddr (0xFFFFC : BitVec 20).toNat) = .slot true ∧
    nvdPlace ((page 1).nvdAddr (0xFFFFC : BitVec 20).toNat) = .held ∧
    (nvdPlace ((page 0x30).nvdAddr (0 : BitVec 20).toNat) = .reserved ∧ (page 0x30).allows .writeCfg = true ∧
      (page 0x30).serves 0 (0xD00000 + (0 : BitVec 20).toNat) = true) ∧
    ((0xFFFFC : BitVec 20).toNat % 4 = 0 ∧ (1 : BitVec 4) ≠ 0) := by decide +kernel

/-- A running injection. -/
def injecting : State := { base .calib with fe := { Fe.reset with inj := ⟨true, 0, none, 0, false, 16⟩ } }

theorem witness_FrontEndWritesAct :
    ((base .simmer).serves 0 (chanAddr 4095 true) = true ∧ (base .simmer).allows .tableWrite = true ∧
      (base .simmer).clean .fed 0x13 (chanIdx 4095) = true) ∧
    (∀ m : Mode, m ∈ [.simmer, .run, .drain] → (base m).takes 0 Reg.FE_GROUP_EN_0 1 = true ∧
      (base m).takes 0 Reg.FE_GROUP_EN_1 1 = true) ∧
    ((base .simmer).takes 0 Reg.FE_RATE_GATE 3 = true ∧ (base .simmer).fe.gate ≠ 0 ∧
      bits (mergeBE ((base .simmer).reg Reg.FE_RATE_GATE) 0 3) 9 0 = 0 ∧
      bits (mergeBE ((base .simmer).reg Reg.FE_RATE_GATE) 1 3) 9 0 ≠ 0) ∧
    (({ base .simmer with fe := { Fe.reset with gate := 0 } } : State).fe.gate = 0 ∧ (base .simmer).aclkRuns = true) ∧
    ((base .run).fe.gate ≠ 0 ∧ (base .run).hk.mode = .run) ∧
    ((base .calib).takes 0 Reg.FE_INJ_CTRL 0xF = true ∧ bitOf (1 : W32) 1 = false ∧ (base .calib).fe.inj.running = false ∧
      bitOf (2 : W32) 0 = false) ∧
    (injecting.fe.inj.running = true ∧ injecting.fe.inj.dither = false ∧ injecting.injCount = 0) ∧
    (let s := injecting.setReg Reg.FE_INJ_PATTERN 0xFFFFFFFF
     s.fe.inj.running = true ∧ s.fe.inj.sent + 1 < s.injCount) := by decide +kernel

/-! ### Witnesses: time measurement -/

/-- A run with channel 5 enabled. -/
def hearing : State := { running with fe := { Fe.reset with tab := [(5, 0x8000000000000000)] } }

/-- The same, with waveform capture asked for, and channel 5 in a state of its TDC. -/
def timing (p : Pulse) : State := { hearing with tdc := { Tdc.reset with pulse := [(5, p)] } }

/-- A pulse being timed. -/
def open5 : Pulse := { Pulse.idle with low := true, timing := true }

/-- A hit formed on channel 5. -/
def formed5 (c : Nat) : Formed := ⟨5, c, none, c, 0, 0, false, none, false, 0, 0, false⟩

theorem witness_PulsesBecomeRecords :
    (hearing.hears (5 : Chan) 3 = true ∧ hearing.compat = false ∧
      hearing.converts (5 : Chan) (hearing.banks (5 : Chan)).active ⟨3, 1407, false⟩ = true ∧ (hearing.pulse (5 : Chan)).low = false ∧
      (hearing.pulse (5 : Chan)).timing = false ∧ (hearing.pulse (5 : Chan)).rearm = none) ∧
    (let s := timing { Pulse.idle with rearm := some 7 }
     s.hears (5 : Chan) 10 = true ∧ s.compat = false ∧ s.converts (5 : Chan) (s.banks (5 : Chan)).active ⟨10, 1407, false⟩ = true ∧
      (s.pulse (5 : Chan)).rearm = some 7 ∧ (s.pulse (5 : Chan)).low = false ∧ (s.pulse (5 : Chan)).timing = false ∧
      s.hears (5 : Chan) 9 = true ∧ (Edge.mk 9 0 false).wf = true) ∧
    (∀ x, x ∈ [none, some 9] → (let s := (timing { Pulse.idle with lastTick := x }).setBit Reg.TDC_CTRL 0 true
      s.compat = true ∧ s.hears (5 : Chan) 10 = true ∧ s.hears (5 : Chan) 9 = true ∧ (s.pulse (5 : Chan)).low = false ∧
      s.converts (5 : Chan) (s.banks (5 : Chan)).active ⟨10, 1407, false⟩ = true ∧ (s.pulse (5 : Chan)).lastTick = x ∧
      (Edge.mk 9 0 false).wf = true)) ∧
    (hearing.fe.gate ≠ 0 ∧ Sparse.get 0 hearing.fe.cnt 5 < 0xFFFFFF) ∧
    (let s := timing { open5 with low := false }
     (Edge.mk 3 0 false).wf = true ∧ s.hears (5 : Chan) 3 = true ∧ s.compat = false ∧ (s.pulse (5 : Chan)).low = false ∧
      (s.pulse (5 : Chan)).timing = true) ∧
    (let s := timing open5
     (Edge.mk 3 0 false).wf = true ∧ s.fe.blank.contains 5 = false ∧ s.linesOn = true ∧ s.filled (5 : Chan) = false ∧
      s.compat = false ∧
      s.converts (5 : Chan) (s.pulse (5 : Chan)).bank ((s.pulse (5 : Chan)).launch ⟨3, 0, false⟩).2 = true ∧
      (s.pulse (5 : Chan)).low = true ∧ (s.pulse (5 : Chan)).timing = true ∧ (s.pulse (5 : Chan)).high = none ∧
      bitOf (s.chanWord (5 : Chan)) 54 = false) ∧
    (let s := (({ timing open5 with fe := { Fe.reset with tab := [(5, 0x8040000000000000)] } } : State)).setBit Reg.WF_CTRL 0 true
     bitOf (s.chanWord (5 : Chan)) 54 = true ∧ s.captures = true ∧ s.filled (5 : Chan) = false ∧ s.linesOn = true ∧
      s.converts (5 : Chan) (s.pulse (5 : Chan)).bank ((s.pulse (5 : Chan)).launch ⟨3, 0, false⟩).2 = true) ∧
    (takeFormed (5 : Chan).val [formed5 7] = some (formed5 7, []) ∧ (base .simmer).recording 7 = false ∧
      running.recording 7 = true ∧ (formed5 7).lost = false ∧
      (running.group (groupOf (formed5 7).chan)).stage.length < 64) := by decide +kernel

/-- CALIB with channel 5 enabled and group 0 chosen for fills. -/
def filler : State := { (hearing.setReg Reg.TDC_CD_GRP_0 1) with hk := (base .calib).hk, run := .reset }

/-- A fill of channel 5. -/
def fill5 (swap : Bool) : Fill := ⟨true, swap, [5], [5], [0], []⟩

/-- The same with a fill running and channel 5's banks as given. -/
def fillRuns (swap : Bool) (b : Banks) : State :=
  { filler with tdc := { Tdc.reset with fill := some (fill5 swap), banks := [(5, b)] } }

theorem witness_FillsRunAsGiven :
    (filler.serves 0 Reg.TDC_CD_CMD = true ∧ filler.allows .writeCfg = true ∧ filler.hk.mode = .calib ∧
      filler.tdc.fill = none ∧ filler.liveOf filler.cdGroups = [5]) ∧
    (5 ∈ filler.liveOf filler.cdGroups ∧
      (filler.banks (5 : Chan)).st (!(filler.banks (5 : Chan)).active) = .table) ∧
    ((fillRuns false .reset).tdc.fill = some (fill5 false) ∧ (fill5 false).swap = false ∧
      (fillRuns false .reset).serves 0 Reg.TDC_CD_CMD = true) ∧
    ((∀ p : Nat × Bool, p ∈ [(1407, false), (1408, false), (1407, true)] →
        (Instr.fillLaunch [(5, p)]).wf = true ∧ [(5, p)].find? (fun x => x.1 == 5) = some (5, p.1, p.2)) ∧
      (fillRuns false .reset).tdc.fill = some (fill5 false) ∧ (fill5 false).internal = true ∧ (fill5 false).swap = false ∧
      (fill5 false).remain.Nodup ∧ 5 ∈ (fill5 false).remain ∧ 6 ∉ (fill5 false).remain ∧
      ((fillRuns false .reset).banks (5 : Chan)).n < fillN) ∧
    (let s := fillRuns false { Banks.reset with n := fillN, top := 1200 }
     (5 : Chan).val ∈ (fill5 false).remain ∧ fillN ≤ (s.banks (5 : Chan)).n ∧ s.fillResult (5 : Chan) ≠ 4 ∧ s.fillResult (5 : Chan) ≠ 5 ∧
      setDel (5 : Chan).val (fill5 false).remain = []) ∧
    (let s := fillRuns true { Banks.reset with swapWait := true }
     (fill5 true).swap = true ∧ (s.pulse (5 : Chan)).timing = false ∧ s.tdc.formed = []) ∧
    (let s := (filler.setFld Reg.TDC_CD_SEL 23 12 4095).setFld Reg.TDC_CD_SEL 24 24 1 |>.setFld Reg.TDC_CD_SEL 10 0 1407
     s.takes 0 Reg.TDC_CD_DATA 1 = true ∧ s.cdSel = (4095, true, 1407) ∧ s.cdSel.2.2 < 1408 ∧ s.cdSel.2.1 ≠ (s.banks s.cdSel.1).active ∧
      (s.banks s.cdSel.1).st s.cdSel.2.1 = .table ∧ s.allows .readOther = true ∧
      s.clean .fed 0x12 (tabIdx s.cdSel.1 s.cdSel.2.1 s.cdSel.2.2) = true) ∧
    filler.takes 0 Reg.TDC_SKW_CTRL 0xF = true := by decide +kernel

/-! ### Witnesses: waveforms and records -/

/-- A HEAD with source 1 admitted on lane 2. -/
def head (m : Mode) : State :=
  let s := ((withRole (live m) 2).setFld (laneCfg 2) 31 30 3).setFld (laneCfg 2) 26 24 1
  { s with lanes := [(0, up), (2, { up with admitted := true })] }

/-- A LIMB with its peer lane UP. -/
def limb (m : Mode) : State :=
  let s := (withRole (live m) 1).setFld (laneCfg 1) 31 30 3
  { s with lanes := [(0, up), (1, up)] }

/-- A capture of channel 5. -/
def cap5 : Capture := ⟨5, 2048 * 10, 2048 * 10, 2048 * 10, 32, 320, false⟩

/-- The samplers on, with the rings of channel 5 as listed. -/
def sampling (rings : Sparse RingCell) : State :=
  { running with wf := { Wf.reset with sampStart := some 0, rings := rings, waiting := [cap5] } }

theorem witness_WaveformsAreCapturedAndSent :
    (let s := (sampling [(20, ⟨1, 0, none, 0, 0⟩)]).setFld Reg.WF_CTRL 0 0 1
     takeCapture (5 : Chan).val s.wf.waiting = some (cap5, []) ∧ s.wf.sampStart.isSome = true ∧ s.bit Reg.WF_CTRL 0 = true ∧
      (s.ringsBy (5 : Chan) cap5.freeze).findIdx? (fun x => x.st == 1 && decide (x.start ≤ cap5.last)) = some 0) ∧
    (let s := (sampling [(20, ⟨4, 0, some cap5, 0, 0⟩), (21, ⟨4, 0, some cap5, 0, 0⟩), (22, ⟨4, 0, some cap5, 0, 0⟩),
        (23, ⟨4, 0, some cap5, 0, 0⟩)]).setFld Reg.WF_CTRL 0 0 1
     s.bit Reg.WF_CTRL 0 = true ∧
      (s.ringsBy (5 : Chan) cap5.freeze).findIdx? (fun x => x.st == 1 && decide (x.start ≤ cap5.last)) = none) ∧
    ((sampling []).bit Reg.WF_CTRL 0 = false ∧ takeCapture (5 : Chan).val (sampling []).wf.waiting = some (cap5, [])) ∧
    (let s := sampling [(20, ⟨2, 0, some cap5, 0, 0⟩)]
     s.heldRings = [(5, 0, cap5)] ∧ (s.ringAt 5 0).cap = some cap5 ∧ (s.ringAt 5 0).st = 2 ∧ (s.ringAt 5 0).freeAt = 0 ∧
      s.wf.sampStart.isSome = true ∧
      (s.advanceTo (cap5.freeze + 320)).heard false = true ∧ (∀ e, e ∈ s.wf.noticed → e.1 ≠ cap5.freeze + 320) ∧
      cap5.tick ≤ cap5.tick ∧ cap5.freeze < cap5.freeze + 320 ∧ cap5.freeze + 320 ≤ cap5.freeze + cap5.budget ∧
      cap5.tick < cap5.tick + 1) ∧
    (let s := sampling [(20, ⟨3, 0, some cap5, 0, 0⟩)]
     (s.ringAt 5 0).st = 3 ∧ (s.ringAt 5 0).cap = some cap5 ∧ (s.ringAt 5 0).freeAt = 0 ∧ s.wf.sampStart.isSome = true ∧
      Sparse.get none s.wf.adc 0 = none ∧ (∀ u, u ∈ s.wf.units → u.adc = 0 → s.unitRoom u = true) ∧
      (s.nextKept 0 0).isSome = true) ∧
    (let z := sampling [(20, ⟨3, 0, some cap5, 0, 0⟩)]
     let s : State := { z with wf := { z.wf with units := [z.waveUnit cap5 0 0 [0]] } }
     (∀ u, u ∈ s.wf.units → u.adc = 0 → s.unitRoom u = true) ∧ (s.nextKept 0 0).isSome = true) ∧
    (let s := { sampling [(20, ⟨4, 0, some cap5, 0, 0⟩)] with wf := { (sampling [(20, ⟨4, 0, some cap5, 0, 0⟩)]).wf with
        adc := [(0, some (5, 0))] } }
     (Instr.adcConversionEnd 0 (List.replicate 64 4095)).wf = true ∧ Sparse.get none s.wf.adc 0 = some (5, 0) ∧
      (s.ringAt 5 0).cap = some cap5 ∧ s.recording cap5.c = true) ∧
    (let u := running.waveUnit cap5 0 0 [0]
     running.takeUnit (0 : Group).val [] [u] = some (u, [])) := by decide +kernel

/-- A record of channel 5 in slice 0. -/
def ent5 (k : RecKind) : Ent := ⟨0, k, 5, 0, 0, 0, false⟩

/-- Group 0 as given. -/
def grouped (x : GroupSt) : State := running.setGroup 0 x

theorem witness_RecordsPassToThePantry :
    (let s := grouped { GroupSt.empty with stage := [ent5 .hit], fifo := List.replicate 510 (ent5 .hit) }
     (s.group (0 : Group)).stage = [ent5 .hit] ∧ (s.group (0 : Group)).fifo.length < 511) ∧
    (let s := grouped { GroupSt.empty with stage := [ent5 .hit], fifo := List.replicate 511 (ent5 .hit) }
     (s.group (0 : Group)).fifo.length ≥ 511 ∧ (ent5 .hit).kind ≠ .loss ∧ groupOf (ent5 .hit).chan = (0 : Group).val) ∧
    (let s := grouped { GroupSt.empty with dropN := 1, fifo := List.replicate 510 (ent5 .hit) }
     (s.group (0 : Group)).dropN ≠ 0 ∧ (s.group (0 : Group)).fifo.length < 511) ∧
    (let s := grouped { GroupSt.empty with fifo := [ent5 .hit], allow := 1 }
     s.cclkRuns = true ∧ s.fed.walk = none ∧ s.nextGroup = some 0) ∧
    (let s : State := { running with fed := { Fed.reset with beats := [⟨0, 1, [], []⟩] } }
     s.fed.beats = [⟨0, 1, [], []⟩] ∧ cdActive ≤ s.cd.st ∧ (1 : BitVec 8) ≠ s.cd.gen ∧ s.err.crit = none) ∧
    (BeatBits.mk 0 9).unc = 0 ∧
    (let e := ent5 .hit
     let t : State := { running with fed := { Fed.reset with beats := [⟨0, 0, [e], []⟩] } }
     let s : State := { t with cda := { t.cda with qmap := [(t.queueOf t.source e.chan e.slice (t.hitClass e.word), 0x80000000)] } }
     let q := s.queueOf s.source e.chan e.slice (s.hitClass e.word)
     (0 : BitVec 8) = s.cd.gen ∧ s.err.bad = [] ∧ s.err.raw = [] ∧ s.err.crit = none ∧ e.kind = .hit ∧ e.unc = false ∧ bits (s.chanWord e.chan) 53 52 = 0 ∧
      bits (s.chanWord e.chan) 51 48 = 0 ∧ (s.cd.hotIn e.slice).contains e.chan = false ∧ s.cd.quotaSup = [] ∧
      s.inRun e.c = true ∧ s.acq ≠ 1 ∧ s.cd.isClosed e.slice = false ∧ s.bit Reg.COL_CTRL 1 = false ∧
      s.clean s.activeDie 0x23 (qmapIdx q) = true ∧ bitOf (Sparse.get 0 s.cd.qmap q) 31 = true) := by decide +kernel

theorem witness_CreditsReachTheirSenders :
    (cdActive ≤ running.cd.st ∧ running.err.bad = [] ∧ running.err.raw = [] ∧ running.err.crit = none ∧
      (running.senders.filter (fun y => decide (y > running.cd.rr)) ++ running.senders.filter
        (fun y => decide (y ≤ running.cd.rr))).find? (fun y => decide (Sparse.get 0 running.cd.out y < running.credMax y)) =
        some 1 ∧
      min (running.cd.f - (running.cd.cOut + running.cd.a)) (min 15 (running.credMax 1)) ≠ 0) ∧
    (let s : State := { running with cda := { running.cda with out := [(1, 131072)] } }
     (s.senders.filter (fun y => decide (y > s.cd.rr)) ++ s.senders.filter (fun y => decide (y ≤ s.cd.rr))).find?
        (fun y => decide (Sparse.get 0 s.cd.out y < s.credMax y)) = some 2 ∧
      min (s.cd.f - (s.cd.cOut + s.cd.a)) (min 15 (s.credMax 2 - Sparse.get 0 s.cd.out 2)) = 0) ∧
    ((0 : BitVec 8) = running.fed.gen ∧ (1 : BitVec 8) ≠ running.fed.gen) := by decide +kernel

/-- A run in which queue 9 is selected and holds a word. -/
def queued (l : List (Nat × W64)) : State := { (running.setFld Reg.HK_PQ_SEL 3 0 9) with pq := l }

theorem witness_FlushAndQueueReadsAct :
    (let s := running.advanceTo 0
     s.serves 0 Reg.Q_FLUSH = true ∧ s.lockMask (s.phys Reg.Q_FLUSH) = 0 ∧ s.allows .throttleFlush = true ∧
      s.run.closedMark = false ∧ s.run.sl = none ∧ (∀ b, b ∈ s.cd.flushing → b.after = s.curSlice) ∧
      s.built s.curSlice = false) ∧
    (let b : Barrier := ⟨2, 0, 7, 7, 1, true⟩
     let s : State := { running with cda := { running.cda with barriers := [b] } }.advanceTo 0
     b ∈ s.cd.flushing ∧ b.after ≠ s.curSlice ∧ s.serves 0 Reg.Q_FLUSH = true) ∧
    (let s := queued [(9, 7)]
     s.serves 0 Reg.HK_PQ_POP_LO = true ∧ (s.lane (0 : Lane)).popWait = none ∧ 9 ≤ s.fld Reg.HK_PQ_SEL 3 0 ∧
      s.pqOf (s.fld Reg.HK_PQ_SEL 3 0) = [7] ∧ s.clean .hbd 0x03 (s.pqWord (s.fld Reg.HK_PQ_SEL 3 0) 0) = true) ∧
    ((queued []).serves 0 Reg.HK_PQ_POP_LO = true ∧ (queued []).pqOf ((queued []).fld Reg.HK_PQ_SEL 3 0) = []) ∧
    (let s : State := { queued [(9, 7)] with lanes := [(0, { up with snap := some (9, 7) })] }
     s.serves 0 Reg.HK_PQ_POP_HI = true ∧ (s.lane (0 : Lane)).snap = some (9, 7) ∧ 9 < 16) ∧
    (let s : State := { queued [] with lanes := [(0, { up with popWait := some (9, none) })] }
     (s.lane (0 : Lane)).popWait = some (9, none) ∧ s.hk.stuck = false) ∧
    (let s : State := { queued [(9, 7)] with lanes := [(0, { up with popWait := some (9, some 7), snap := some (9, 7) })] }
     (s.lane (0 : Lane)).popWait = some (9, some 7) ∧ (s.lane (0 : Lane)).snap = some (9, 7) ∧ s.hk.stuck = false ∧
      (s.pqOf 9).head? = some 7 ∧ s.clean .hbd 0x03 (s.pqWord 9 0) = true) ∧
    (let z : State := { queued [] with lanes := [(0, { up with popWait := some (9, none) }), (1, up)] }
     let s := z.setFld (laneCfg 1) 31 30 2
     (s.lane 0).popWait = some (9, none) ∧ s.endStalls = s.endStall 0 ∧ s.hk.stuck = false ∧
      ∀ l : Lane, l ∈ [(0 : Lane), 1] → s.pathOpen l = true ∧ s.scRole l = true ∧ ((s.endStall 0).lane l).synced = true ∧
        (s.endStall 0).noEntry l = false ∧ ((s.endStall 0).lane l).snap = none) := by decide +kernel

/-! ### Witnesses: slices, trigger and Press -/

/-- Slice `n`, open or closed, at level 0. -/
def slice0 (n : Nat) : SliceSt := ⟨n, 0, 0, false, [], BitVec.allOnes 64⟩

theorem witness_SlicesOpenCloseAndDrain :
    (let s : State := { running with run := { running.run with opened := true, sl := some 1, nextOpen := 1 } }
     s.run.active = true ∧ s.rd.step = 0 ∧ (∀ l, l ∈ s.run.sl.toList → sdiff s.run.nextOpen l ≤ 0) ∧ s.hk.mode = .run ∧
      s.run.opened = true) ∧
    (running.run.sl = none ∧ running.run.opened = false) ∧
    (let s : State := { running with
      run := { running.run with sl := some 1, nextOpen := 2, endMode := 2 }, hk := { running.hk with target := some .drain } }
     s.run.sl = some 1 ∧ 0 < sdiff s.run.nextOpen 1 ∧ s.hk.mode = .run ∧ s.hk.target = some .drain ∧ s.run.endMode = 2) ∧
    (let s : State := { running with cda := { running.cda with opened := [slice0 0] } }
     s.cd.opened = [slice0 0] ∧ s.rd.step = 0) ∧
    (let s : State := { running with cda := { running.cda with closed := [slice0 0] } }
     s.cd.closed = [slice0 0] ∧ cdActive ≤ s.cd.st ∧ s.role ≠ .head ∧ s.shortOf 0 = false ∧ s.err.bad = [] ∧
      s.err.raw = [] ∧ s.err.crit = none ∧ s.ulp.flushes = []) ∧
    (let z : State := { running with cda := { running.cda with closed := [slice0 0] } }
     let s : State := { z with rd := { z.rd with short := some 0 } }
     s.cd.closed = [slice0 0] ∧ s.shortOf 0 = true) ∧
    (let h := head .run
     let s : State := { h with cda := { h.cda with closed := [slice0 0], peerDue := [0] } }
     s.role = .head ∧ s.headReady 0 = true ∧ s.shortOf 0 = false) ∧
    (let h := head .run
     let s : State := { h with cda := { h.cda with closed := [slice0 0] } }
     s.role = .head ∧ s.cd.closed.find? (fun y => !s.cd.peerDue.contains y.n) = some (slice0 0) ∧
      s.rd.step = 0) ∧
    ({ running with rd := { running.rd with step := 4, openS2 := some 0 } } : State).openAtS2 1 = false ∧
    (running.cclkRuns = true ∧ running.serves 0 Reg.SLC_THROTTLE = true ∧ running.allows .throttleFlush = true ∧
      running.lockMask (running.phys Reg.SLC_THROTTLE) = 0) := by decide +kernel

theorem witness_LadderMovesAsGiven :
    (Ladder.zero.level ≤ 4 ∧ ({ Ladder.zero with level := 4, step := 6 } : Ladder).step ≤ 6) ∧
    (let s := running
     let top := min 4 (s.fld Reg.SLC_LADDER_CFG 6 4)
     1 ≤ top ∧ s.upThr 1 ≤ 255 ∧ s.upThr 4 ≤ 255 ∧ (s.ladderStep { Ladder.zero with level := 3 } 255).level = 4 ∧
      (∀ n, n < 5 → 2 < n → n ≤ top → 0 < s.upThr n) ∧ 0 < s.downThr 2 ∧ 0 < s.downThr 4 ∧
      max 1 (s.fld Reg.SLC_LADDER_CFG 31 24) ≤ 255 ∧ (s.ladderStep { Ladder.zero with level := 4, step := 3 } 0).step = 3 ∧
      (s.ladderStep { Ladder.zero with level := 4, step := 3, since := 255 } 0).step = 2 ∧
      (s.ladderStep { Ladder.zero with level := 4, step := 3, since := 255 } 255).step = 4) := by decide +kernel

/-- A hit of channel 5 at a corrected time, on its way to the Whisk. -/
def prim5 (c : Nat) : Prim := ⟨5, c, 0, 0, false, false, 0⟩

/-- A run whose Whisk is on and has evaluated the ticks below 100. -/
def whisking : State :=
  let s := running.setBit Reg.TRG_CTRL 0 true
  { s with cda := { s.cda with
    toWhisk := [prim5 (2048 * 99)], whisk := { Whisk.reset with on := true, next := 100, lastDec := some 37 } } }

theorem witness_PrimitivesAndTicksDriveTheWhisk :
    whisking.cd.toWhisk = [prim5 (2048 * 99)] ∧ whisking.cd.whisk.on = true ∧ whisking.bit Reg.TRG_CTRL 0 = true ∧
    whisking.rd.step ≠ 4 ∧ whisking.lastEval = none ∧ whisking.err.bad = [] ∧ whisking.err.raw = [] ∧ whisking.err.crit = none ∧ whisking.cd.whisk.start ≤ (prim5 (2048 * 99)).c / 2048 ∧
    (prim5 (2048 * 99)).c / 2048 < whisking.cd.whisk.next ∧ whisking.cd.whisk.lastDec = some 37 ∧
    whisking.cd.whisk.next < 37 + 64 ∧ whisking.role ≠ .limb ∧ whisking.cd.whisk.start < whisking.cd.whisk.next ∧
    ((whisking.setBit Reg.TRG_CTRL 0 false).bit Reg.TRG_CTRL 0 = false ∧
      ∀ p, p ∈ (whisking.setBit Reg.TRG_CTRL 0 false).cd.whisk.pend → whisking.cd.whisk.next < p.t + 3) := by decide +kernel

theorem witness_RingFramesCircleAndLoopsAreTimed_frames :
    (let s := (head .simmer).advanceTo 8
     s.role = .head ∧ s.aclkRuns = true ∧ s.tokenMode = false ∧ s.ringChecking = false ∧ s.tb.tn / 8 % 64 ≠ 0 ∧
      ((head .simmer).advanceTo 0).tb.tn / 8 % 64 = 0) ∧
    (let s := (head .run).advanceTo 8
     s.tokenMode = true ∧ s.ring.task = none ∧ s.ring.pendKeep = [] ∧ s.ringChecking = false) ∧
    (let z := head .run
     let s : State := { z with ring := { z.ring with pendKeep := [(z.rd.activeB, 5)] } }
     s.ring.task = none ∧ s.ring.pendKeep = [(s.rd.activeB, 5)] ∧ (s.advanceTo 8).tokenMode = true) ∧
    (let z := head .calib
     let s : State := { z with ring := { z.ring with task := some (3, []) } }
     s.ring.task = some (3, []) ∧ (s.advanceTo 8).tokenMode = true) ∧
    (let z := limb .simmer
     let s : State := { z with ring := { Ring.reset with aligned := true, disagree := 2 } }
     s.ring.aligned = true ∧ (s.advanceTo 0).trainingIn 0xFFF00300FFF00200FFF00100FFF00100 = true ∧
      pairsRight 0xFFF00300FFF00200FFF00100FFF00100 = false ∧ 2 ≤ s.ring.disagree) := by decide +kernel

theorem witness_RingFramesCircleAndLoopsAreTimed :
    ((head .run).role = .head ∧ (head .run).aclkRuns = true ∧ (limb .run).role = .limb ∧ (limb .run).aclkRuns = true) ∧
    (isTraining 0xFFF00300FFF00200FFF00100FFF00000 = true ∧ pairsRight 0xFFF00300FFF00200FFF00100FFF00000 = true ∧
      15 ≤ ({ limb .run with ring := { Ring.reset with agree := 15 } } : State).ring.agree) ∧
    ({ limb .run with ring := { Ring.reset with rx := some (0, 8) } } : State).ring.rx = some (0, 8) ∧
    (let s : State := { head .run with ring := { Ring.reset with sent := [(0, 5, false)] } }
     s.ring.sent = [(0, 5, false)] ∧ slotOf 0 0 ≠ 5) ∧
    ((head .calib).serves 0 Reg.TRG_LOOP_CMD = true ∧ (head .calib).allows .writeCfg = true ∧
      (head .calib).hk.target = none ∧ (head .calib).ring.task = none) ∧
    (let rs := List.replicate 64 (0, 7) ++ List.replicate 63 (1, 9)
     let s : State := { head .calib with ring := { Ring.reset with task := some (64, rs) } }
     s.ring.task = some (64, rs) ∧ loopResult 0 rs = some 7 ∧ loopResult 1 rs = none ∧ 0 ∈ 0 :: s.configured ∧
      1 ∈ 0 :: s.configured) := by decide +kernel

/-- A record group of one word, cut off. -/
def group1 : LGroup := ⟨[0], 0, false, false, false, true, 0⟩

/-- A coding job in a state. -/
def job (st : Nat) (raw : Bool) : Job := ⟨0, 0, 1, false, false, false, false, raw, [[0]], 0, .init, [], 0, st, 0⟩

/-- A run in which one block of sixteen equal records is coded, and the job that waits for verification. -/
def coded : State :=
  let g : LGroup := { group1 with words := List.replicate 8 0, cut := false }
  let s : State := { running.setEff Reg.PRS_CFG 0x10000 with cda := { running.cda with ladle := [g, { g with cut := true }] } }
  match exec (.blockCode 100) s with
  | .next t => t
  | _ => s
def codedJob : Job := coded.cd.jobs.headD (job 0 false)

theorem witness_PressCodesAndReleasesBlocks :
    (let s : State := { running with cda := { running.cda with ladle := [group1] } }
     nextBlock s.cd.ladle = [group1] ∧ s.cd.pressRoom (([group1].map (fun x => x.words.length)).sum) = true ∧
      4 ≤ (s.grantSpace (0 + 4)).1) ∧
    ([job 2 false].find? (fun x => x.eng == (0 : Fin 8).val) = some (job 2 false) ∧ running.err.bad = [] ∧
      running.err.raw = []) ∧
    (let s : State := { running with cda := { running.cda with ladle := [group1] } }
     s.cd.ladle = [group1] ∧ group1.alone = false ∧ bits (s.eff Reg.PRS_CFG) 23 16 ≠ 0) ∧
    (coded.cd.jobs.find? (fun x => x.st == 3) = some codedJob ∧ coded.err.bad = [] ∧ coded.err.raw = [] ∧
      verifyBlock ((coded.blockOf codedJob).seen []) codedJob.words = none ∧
      (∀ f, f ∈ [(0, 0x10000), (1, 1), (2, (1 : W64))] →
        (verifyBlock ((coded.blockOf codedJob).seen [f]) codedJob.words).isSome = true) ∧
      bits (coded.eff Reg.PRS_CFG) 11 8 = 0) ∧
    (job 4 true).st = 4 ∧
    (let h := head .run
     let b : Block := ⟨0, 0, none, [], 0, false, 0⟩
     let s := h.setPeer (1 : Fin 8) { Peer.empty with blocks := [(2, b)] }
     (s.peer (1 : Fin 8)).blocks = [(2, b)] ∧ s.role = .head ∧ cdActive ≤ s.cd.st ∧ b.gen = s.cd.gen ∧
      ({ b with h0 := 0x1000000 } : Block).gen ≠ s.cd.gen ∧ s.err.bad = [] ∧ s.err.raw = [] ∧ s.err.crit = none) := by decide +kernel

/-! ### Witnesses: time base and lanes -/

/-- A message of the master port 9. -/
def msg (seq : Nat) : PtpMsg := ⟨false, 2, (base .simmer).fld Reg.TB_PTP_CFG 31 24, 0, 0, 9, seq, 0⟩

/-- LOCKED to the master port 9, with a path delay of 5 ns. -/
def locked : State :=
  { base .simmer with tb := { Tb.reset with
      state := .locked, gmOk := true, master := some 9, delays := [2 * 5 * 65536], t3 := some 0, fwd := some 0, slewing := some 1,
      twoStep := some (3, 5 * 65536, 0) } }

theorem witness_TimeBaseFollowsItsMessages :
    (locked.tsOpen = true ∧ locked.ptpMaster (msg 3) = true ∧ laterSeq locked.tb.lastSync (msg 3).seqId = true ∧
      (-7 ≤ (msg 3).logInt ∧ (msg 3).logInt ≤ 0) ∧ locked.tb.state = .locked ∧ locked.tb.delays ≠ [] ∧
      locked.advanceTo 0 = locked ∧
      (qmeanFine (locked.offsAfter (locked.arrival 0 - (locked.arrival 0 - 5 * 65536) - 0))).natAbs ≤ locked.tbThr.2.1) ∧
    (locked.tb.twoStep = some ((msg 3).seqId, 5 * 65536, 0) ∧
      (qmeanFine (locked.offsAfter (5 * 65536 - 0 - (0 + 0)))).natAbs ≤ locked.tbThr.2.1 ∧ (msg 0).seqId = locked.tb.dreqSeq ∧ locked.tb.t3 = some 0 ∧
      locked.tb.fwd = some 0) ∧
    (locked.ptpMaster { msg 3 with port := 8 } = false ∧ locked.ptpMaster { msg 3 with other := true } = false) ∧
    (locked.ptpHeader (msg 3) = true ∧ (BitVec.ofNat 64 locked.gmId).toNat = locked.gmId ∧
      laterSeq locked.tb.lastAnn (msg 3).seqId = true ∧ (BitVec.ofNat 64 (locked.gmId + 1)).toNat ≠ locked.gmId) ∧
    (locked.tb.state ≠ .freerun ∧ locked.tb.slewing = some 1) := by decide +kernel

theorem witness_TimeBaseStepsAndHoldsOver :
    (∀ x : TbState, x ∈ [.acquire, .holdover] →
      (let s : State := { base .simmer with tb := { Tb.reset with
         stepPending := true, state := x, off := some (-2048), srcXo := false } }
       s.tb.stepPending = true ∧ s.tb.off = some (-2048) ∧ s.tb.srcXo = false ∧ s.tb.state = x ∧ s.hk.mode = .simmer)) ∧
    ((base .safe).hk.mode = .safe ∧ (base .safe).hk.safeDrained = true) ∧
    (8 < (-9 : Int).natAbs ∧ (8 : Int).natAbs ≤ 8) ∧
    (let s : State := { base .simmer with tb := { Tb.reset with state := .holdover } }
     s.tb.state = .holdover ∧ s.tb.srcXo = true) ∧
    (∀ m : Mode, m ∈ [.test, .simmer] → (base m).takes 0 Reg.TB_INC_HI 1 = true ∧ (base m).takes 0 Reg.TB_INC_LO 1 = true) := by
  decide +kernel

theorem witness_DeviceTimeFollowsTheTick :
    (base .simmer).tbInc = 0x0320000000 ∧
    ((base .simmer).tb.sec * 1000000000 + (base .simmer).tb.ns) * 2 ^ 32 + (base .simmer).tb.frac =
      (base .simmer).tb.tn * (25 * 2 ^ 29) ∧ (base .simmer).tb.tn + 7 < 2 ^ 64 := by decide +kernel

/-- Eight periods of 32 blocks with a unit in slot 31. -/
def periods : List LineBlock := (List.replicate 8 (List.replicate 31 ⟨2, 0, false⟩ ++ [⟨2, 0xA000000000000000, false⟩])).flatten

/-- A bring-up that finds one eye for every code and ends well, with a SLIP. -/
def found (e : Eye) (slip : Nat) : BringUp := { bring e periods 7 true with slip := slip }

/-- SIMMER with lane 1 as an UPLINK in a state. -/
def lane1 (l : LaneSt) : State :=
  { (base .simmer).setFld (laneCfg 1) 31 30 2 with lanes := [(0, up), (1, l)] }

theorem witness_LanesComeUpAndDrop :
    (let s := lane1 .off
     s.laneRole 1 ≠ 0 ∧ s.lanesRun 1 = true ∧ (s.lane (1 : Lane)).st ≠ 5 ∧ (s.lane (1 : Lane)).st ≠ 6 ∧
      (s.lane (1 : Lane)).bringUp = false ∧ (s.lane (1 : Lane)).resume = false ∧ s.patOn (1 : Lane) = false ∧
      (s.lane (1 : Lane)).block = false ∧ (Instr.blindBringup ⟨1, found wide 0⟩).wf = true ∧ (s.lane (1 : Lane)).st ≠ 2 ∧
      (s.lane (1 : Lane)).st ≠ 3 ∧ (s.lane (1 : Lane)).st ≠ 4) := by decide +kernel

theorem witness_LanesComeUpAndDrop_bringUp :
    (let r := found wide 65
     (Instr.losClear 1 r).wf = true ∧ (Instr.blindBringup ⟨1, r⟩).wf = true ∧ r.ok = true ∧ r.upTo = 7 ∧
      (alignSlot r.line).isSome = true) ∧
    (∀ step, step ∈ [0, 4] → (let s := lane1 { LaneSt.off with st := 2, resume := true, step := step, stored := some (1, 7, 3, 65) }
      s.laneRole 1 ≠ 0 ∧ s.lanesRun 1 = true ∧ (s.lane (1 : Lane)).st = 2 ∧ (s.lane (1 : Lane)).resume = true ∧
      (s.lane (1 : Lane)).step ≤ 4 ∧ (s.lane (1 : Lane)).waitLos = false ∧
      (s.lane (1 : Lane)).stored = some (1, 7, 3, (found wide 65).slip))) ∧
    (∀ step, step ∈ [0, 2] → (let s := lane1 { LaneSt.off with st := 2, bringUp := true, step := step }
      s.lanesRun 1 = true ∧ (s.lane (1 : Lane)).st = 2 ∧ (s.lane (1 : Lane)).resume = false ∧
      (s.lane (1 : Lane)).bringUp = true ∧ (s.lane (1 : Lane)).step ≤ 2 ∧ (s.lane (1 : Lane)).waitLos = false)) ∧
    (let s := lane1 { LaneSt.off with st := 2, bringUp := true, step := 2 }
     (sweep (s.laneCal (1 : Lane)) s.fomThr.2.2 (found shut 0).eyes (found shut 0).again).2.2 = true ∧
      (sweep (s.laneCal (1 : Lane)) s.fomThr.2.2 (found wide 0).eyes (found wide 0).again).2.2 = false) := by decide +kernel

theorem witness_LanesComeUpAndDrop_drop :
    (∀ st, st ∈ [2, 5] → (let s := lane1 { up with st := st }
      2 ≤ (s.lane (1 : Lane)).st ∧ (s.lane (1 : Lane)).los = false ∧ (s.lane (1 : Lane)).lol = false)) ∧
    (∀ d, d ∈ [true, false] → (let s := lane1 { up with st := 2, dropped := d, resume := true }
      (s.lane (1 : Lane)).st < 5 ∧ 2 ≤ (s.lane (1 : Lane)).st ∧ (s.lane (1 : Lane)).dropped = d)) ∧
    after (exec (.los 1) (lane1 up)) (fun t => (t.lane 1).los) = true ∧
    (let s := lane1 up
     s.takes 0 (laneCfg 1) 1 = true ∧ s.takesRetrain = true ∧ (1 : BitVec 4).getLsbD 0 = true ∧ bitOf (1 : W32) 0 = true ∧
      bitOf (1 : W32) 2 = s.bit (laneCfg 1) 2 ∧ s.bit (laneCfg 1) 0 = false ∧ s.laneRole 1 ≠ 0 ∧
      (s.lane (1 : Lane)).bringUp = false ∧ (s.lane (1 : Lane)).st ≠ 6 ∧ s.patOn (1 : Lane) = false) := by
  decide +kernel

/-- TEST with lane 1 as an UPLINK in a state and LN_SEL on it. -/
def prbs (l : LaneSt) (v : W32) : State :=
  let s := ((base .test).setFld (laneCfg 1) 31 30 2).setFld Reg.LN_SEL 4 0 1
  { s.setRegAt (instKey Reg.LN_PRBS_CFG 1) v with lanes := [(0, up), (1, l)] }

theorem witness_EqualisersAdaptAndPrbsCounts :
    (∀ g, g ∈ [(wide, 9, 0), (shut, 0, 9)] → (let s := lane1 { up with goodRun := g.2.1, lowRun := g.2.2 }
      (s.lane (1 : Lane)).st = 5 ∧ Eye.wf g.1 = true ∧ (s.lane (1 : Lane)).degraded = false)) ∧
    ((lane1 up).fomThr.1 ≤ fomOf wide ∧ fomOf shut < (lane1 up).fomThr.2.1 ∧ fomOf shut < (lane1 up).fomThr.2.2) ∧
    (let s := (lane1 { up with ctle := 3 }).setBit (laneCfg 1) 19 true
     (Eye.wf wide && Eye.wf shut && Eye.wf wide) = true ∧ s.bit (laneCfg 1) 19 = true ∧ (s.lane (1 : Lane)).ctle ≤ 15 ∧
      bits (s.laneCal 1) 23 20 ≤ (s.lane (1 : Lane)).ctle + 3 ∧ (s.lane (1 : Lane)).ctle ≤ bits (s.laneCal 1) 23 20 + 3) ∧
    ((lane1 up).setBit (laneCfg 1) 19 false).bit (laneCfg 1) 19 = false ∧
    (let s := prbs up 0
     let v := fun d => mergeBE (s.regAt (instKey Reg.LN_PRBS_CFG s.lnSel)) d 0xF
     s.allows .testFn = true ∧ s.serves 0 Reg.LN_PRBS_CFG = true ∧ s.lockMask (instKey Reg.LN_PRBS_CFG s.lnSel) = 0 ∧
      s.lnSel = 1 ∧ s.laneRole s.lnSel ≠ 0 ∧ s.serves 0 Reg.LN_PRBS_CLR = true ∧
      bits (v 0x55000) 18 16 = 5 ∧ bits (v 0x55000) 14 12 = 5 ∧ bitOf (0x55000 : W32) 0 = false ∧
      bits (v 0x55000) 18 16 ≠ bits (s.regAt (instKey Reg.LN_PRBS_CFG s.lnSel)) 18 16) ∧
    (let s := prbs { up with st := 6 } 0x55000
     let v := mergeBE (s.regAt (instKey Reg.LN_PRBS_CFG s.lnSel)) 0 0xF
     (s.lane s.lnSel).st = 6 ∧ bits v 18 16 = 0 ∧ bits v 14 12 = 0 ∧
      bits (s.regAt (instKey Reg.LN_PRBS_CFG s.lnSel)) 18 16 ≠ 0 ∧
      bits (mergeBE (s.regAt (instKey Reg.LN_PRBS_CFG s.lnSel)) 0x55001 0xF) 18 16 ≠ 0 ∧ (0xF : BitVec 4).getLsbD 0 = true) ∧
    (∀ g : Nat × Bool, g ∈ [(0, false), (31, false), (31, true)] →
      (let s := prbs { up with st := 6, prbsSync := g.2, prbs := { Prbs.off with tx := 1, ref := 1, seeded := g.1, good := 63 } }
         0x55000
       (s.lane (1 : Lane)).st = 6 ∧ (s.lane (1 : Lane)).prbs.seeded = g.1 ∧ (s.lane (1 : Lane)).prbsSync = g.2 ∧
        bits (s.regAt (instKey Reg.LN_PRBS_CFG (1 : Lane))) 18 16 ≠ 0 ∧
        bits (s.regAt (instKey Reg.LN_PRBS_CFG (1 : Lane))) 14 12 = 5 ∧ (patTaps 5).1 = 31)) ∧
    (let p := { Prbs.off with tx := 1, ref := 1, seeded := 31, win := List.replicate 256 true }
     ∀ b, 32 ≤ (lastN 256 (p.win ++ [b])).count true) := by decide +kernel

/-! ### Witnesses: link protocol, slow control and redundancy -/

/-- A RAW block of no record in slice `n`, number `i`. -/
def block (n i : Nat) (last : Bool) : Block := ⟨blockH0 n 0 0 false last false false true i, blockH1 0 0 0, none, [], 0, false, 0⟩

/-- SIMMER with a block waiting and an uplink UP, for a module of the given role. -/
def sending : State :=
  let s := lane1 up
  { s with ulp := { s.ulp with wait := [block 0 1 true] } }

/-- A DATA frame that holds one block. -/
def frame (fseq : Nat) (good : Bool) : DataFrame :=
  let body := [blockH0 0 0 1 false false false false true 1, blockH1 1 1 0, 0]
  let h := rec64 [(1, 4), (3, 12), (1, 9), (0, 7), (fseq, 32)]
  ⟨h, body, rec64 [(6, 4), (0, 28), ((crcWords (h :: body)).toNat + (if good then 0 else 1), 32)]⟩

/-- A SLOT_IDLE unit that announces a source and a serial. -/
def announce (src : Nat) : W64 := withUnitCrc (rec64 [(8, 4), (1, 1), (src, 3), (77, 32), (0, 8), (0, 16)])

/-- A HEAD whose lane 2 has heard a unit seven times. -/
def meeting (u : W64) : State :=
  let h := head .run
  { h with lanes := [(0, up), (2, { up with ann := some (u, 7) })] }

theorem witness_FramesPassInOrder_send :
    (let s := sending.settle []
     s.pickLane [] = some 1 ∧ (∀ f, f ∈ s.ulp.held → f.st ≠ 0 ∧ f.fseq ≠ s.ulp.fseq) ∧
      (∀ w, w ∈ s.ulp.wait.head?.toList → w.unc = false) ∧ (s.lane 1).half = none ∧
      s.resp.find? (fun e => e.1 == 1) = none ∧
      s.nextBlocks s.ulp.wait.length 1024 s.ulp.allow s.ulp.wait = [block 0 1 true]) := by decide +kernel

theorem witness_FramesPassInOrder :
    (∀ good, good ∈ [true, false] →
      (let f := frame 0 good
       (head .run).laneUp 2 = true ∧ ((head .run).lane (2 : Lane)).rx.frame = [] ∧ bits f.head 63 60 = 1 ∧ bits f.head 38 32 = 0 ∧ 3 ≤ bits f.head 59 48 ∧
        bits f.head 59 48 ≤ 1024 ∧ 1 ≤ bits f.head 47 39 ∧ bits f.head 47 39 ≤ 341 ∧ f.body.length = bits f.head 59 48 ∧
        bits f.tail 63 60 = 6 ∧ bits f.tail 59 32 = 0)) ∧
    bits (frame 0 false).tail 31 0 ≠ (crcWords ((frame 0 false).head :: (frame 0 false).body)).toNat ∧
    (let f := frame 0 true
     let s := head .run
     bits f.tail 31 0 = (crcWords (f.head :: f.body)).toNat ∧ (cutBody f.body.length (bits f.head 47 39) f.body).isSome = true ∧
      s.role = .head ∧ s.laneRole 2 = 3 ∧ (s.lane (2 : Lane)).admitted = true ∧
      (s.peer (s.fld (laneCfg (2 : Lane)) 26 24)).next = bits f.head 31 0 ∧
      (s.peer (s.fld (laneCfg (2 : Lane)) 26 24)).waiting = []) ∧
    (∀ src, src ∈ [1, 2] → (let s := meeting (announce src)
      s.laneUp 2 = true ∧ unitCrcOk (announce src) = true ∧ bits (announce src) 63 60 = 8 ∧ bits (announce src) 23 16 = 0 ∧
        bitOf (announce src) 59 = true ∧ s.role = .head ∧ s.laneRole 2 = 3 ∧ (s.lane (2 : Lane)).ann = some (announce src, 7) ∧
        (s.lane (2 : Lane)).decided = false)) ∧
    (let z := meeting (announce 2)
     let s : State := { z with
       lanes := [(0, up), (2, { up with ann := some (announce 2, 7), decided := true, admitted := true })] }
     s.laneUp 2 = true ∧ (s.lane (2 : Lane)).ann = some (announce 2, 7) ∧ (s.lane (2 : Lane)).decided = true ∧
      (s.lane (2 : Lane)).admitted = true ∧ bits (announce 2) 58 56 ≠ s.fld (laneCfg (2 : Lane)) 26 24) ∧
    (bits (announce 1) 58 56 = (head .run).fld (laneCfg (2 : Lane)) 26 24 ∧ bits (announce 1) 58 56 ≠ 0 ∧
      ((head .run).peer 1).serial = none ∧ bits (announce 2) 58 56 ≠ (head .run).fld (laneCfg (2 : Lane)) 26 24) := by
  decide +kernel

theorem witness_ReverseStreamActs :
    (let s := limb .run
     let u := crUnit 0 1
     s.takesUnit (1 : Lane) u = true ∧ s.role = .limb ∧ bits u 63 60 = 0xC ∧ bits u 27 16 = 0 ∧
      0 < sdiffW 24 (bits u 51 28) s.ulp.cumRx) ∧
    ((limb .run).takesUnit (1 : Lane) (sackUnit 0 0) = true ∧ bits (sackUnit 0 0) 63 60 = 0xD ∧
      bits (sackUnit 0 0) 51 48 = 0) ∧
    ((limb .run).takesUnit (1 : Lane) (resendUnit 0 0) = true ∧ bits (resendUnit 0 0) 63 60 = 0xE ∧
      bits (resendUnit 0 0) 51 48 = 0) ∧
    (let h := head .run
     let s := ({ h with cda := { h.cda with handed := some 0 } }).setPeer 1 { Peer.empty with doneSlice := some 0 }
     s.role = .head ∧ cdActive ≤ s.cd.st ∧ (1 : Fin 8).val ∈ s.admitted ∧ (s.peer (1 : Fin 8)).whole (0 : W32).toNat = true ∧
      s.cd.handed = some 0 ∧ sdiff (0 : W32).toNat 0 ≤ 0 ∧ (s.peer (1 : Fin 8)).sack = none) ∧
    (let s := ((head .run).setBit Reg.LK_CFG 0 true).setPeer 1 { Peer.empty with lastResend := some 0, lacks := true }
     (1 : Fin 8).val ∈ s.admitted ∧ s.bit Reg.LK_CFG 0 = true ∧ (s.peer (1 : Fin 8)).lastResend = some 0 ∧
      (s.peer (1 : Fin 8)).lacks = true ∧
      0 + 3200 ≤ (s.advanceTo 3200).tb.tn) ∧
    ({ Peer.empty with waiting := [(5, [])] } : Peer).waiting ≠ [] ∧
    (let z := (head .run).setFld Reg.RD_LAST 3 0 5
     let s : State := { z with cdb := { Cd.reset with st := cdActive, cum := [(1, 3)] } }
     s.role = .head ∧ s.bothAct = true) ∧
    (let l := limb .run
     let s : State := { l with ulp := { l.ulp with held := [⟨0, 1, [], 2, 0⟩] } }
     s.role = .limb ∧ s.ulp.held ≠ []) := by decide +kernel

/-- A run in the overlap of a switch-over, at slice 0 with two blocks handed over before, the first with a CRC. -/
def overlapping (crc : W32) : State :=
  { running with
    cda := { running.cda with released := [block 0 1 false] },
    rd := { Rd.reset with overlap := true, m := 0, bm := 2, crcs := [(0, 1, crc)] } }

theorem witness_BlocksReachTheReplayBuffer :
    (let s : State := { running with cda := { running.cda with released := [block 0 1 true] } }
     s.cd.released = [block 0 1 true] ∧ s.rd.again = 0 ∧ s.rd.cut ≠ some (block 0 1 true).slice ∧ s.rd.overlap = false ∧ s.role ≠ .limb ∧
      (block 0 1 true).endsSlice = true) ∧
    ((block 0 1 false).endsSlice = false ∧ (block 0 1 false).slice = (overlapping 0).rd.m ∧
      (block 0 1 false).bidx < (overlapping 0).rd.bm) ∧
    ((overlapping 557824867).rd.overlap = true ∧ (overlapping 557824867).rd.cut = none ∧
      (overlapping 557824867).rd.crcs.find? (fun y => y.1 == (block 0 1 false).slice && y.2.1 == (block 0 1 false).bidx) =
        some (0, 1, 557824867)) ∧
    ((overlapping 557824868).rd.overlap = true ∧ (overlapping 557824868).rd.cut = none ∧
      (overlapping 557824868).rd.crcs.find? (fun y => y.1 == (block 0 1 false).slice && y.2.1 == (block 0 1 false).bidx) =
        some (0, 1, 557824868)) ∧
    (overlapping 0).rd.again = 0 ∧
    (let b : Block := { block 0 1 false with h0 := (block 0 1 false).h0 ||| 0x100000 }
     b.alone = true ∧ b.slice = 0 ∧ ({ Rd.reset with again := 1, m := 0 } : Rd).again = 1) ∧
    (block 0 1 false).crc.toNat = 557824867 := by decide +kernel

theorem witness_RequestsAreSequencedAndAnswered :
    (let p := pair 0 0 0 false 0 0
     (Instr.scNop 0 p.1 p.2).wf = true ∧ (base .simmer).pairs 0 p.1 p.2 = true ∧ bitOf p.1 59 = false ∧
      (base .simmer).serves 0 (bits p.1 39 16) = true ∧ bits p.1 55 40 = ((base .simmer).lane (0 : Lane)).e % 65536) ∧
    (let p := pair 0 0xFFFF 0 true 0 0
     (Instr.scNop 0 p.1 p.2).wf = true ∧ (base .simmer).pairs 0 p.1 p.2 = true ∧ bitOf p.1 59 = true ∧ (base .simmer).stalls = false ∧
      (base .simmer).respUsed ((base .simmer).respQueue (0 : Lane)) < 32 ∧ (base .simmer).hk.stuck = false ∧
      (base .simmer).hk.stuck = false) ∧
    (let p := pair 0 0 0 false 0 0
     let s : State := { base .simmer with lanes := [(0, { up with popWait := some (9, none) })] }
     (Instr.scNop 0 p.1 p.2).wf = true ∧ s.pairs 0 p.1 p.2 = true ∧ (s.lane (0 : Lane)).popWait ≠ none) ∧
    (let s : State := { base .simmer with resp := [(0, ⟨0, 1, 2, 3⟩)] }
     s.resp.find? (fun e => e.1 == (0 : Lane).val) = some ((0 : Lane).val, ⟨0, 1, 2, 3⟩) ∧ s.pathOpen (0 : Lane) = true ∧
      (s.lane (0 : Lane)).half = none ∧ s.clean .hbd 0x03 (s.pqWord (s.respQueue (0 : Lane)) (s.respPos (0 : Lane))) = true) ∧
    (let s : State := { base .simmer with resp := [(0, ⟨0, 1, 2, 3⟩)], lanes := [(0, { up with half := some 5 })] }
     s.resp.find? (fun e => e.1 == (0 : Lane).val) = some ((0 : Lane).val, ⟨0, 1, 2, 3⟩) ∧ s.pathOpen (0 : Lane) = true ∧
      (s.lane (0 : Lane)).half = some 5) := by decide +kernel

theorem witness_RegisterWritesStore :
    (let a : BitVec 24 := BitVec.ofNat 24 Reg.HK_AUTO_SPILL
     let s := base .simmer
     s.takes 0 a.toNat 1 = true ∧ storesOnly a.toNat = true ∧ s.keyOf a.toNat ≠ Reg.LK_SC_REQ_CNT ∧
      s.keyOf a.toNat ≠ instKey Reg.LK_LANE_RX_UNITS (0 : Lane)) := by decide +kernel

theorem witness_SlotPageWritesFollowTheSlotClass :
    (∀ m : Mode, m ∈ [.simmer, .run] → (base m).serves 0 Reg.HK_NVD_PAGE = true ∧ (base m).lockMask Reg.HK_NVD_PAGE = 0) ∧
    (1 : BitVec 4) ≠ 0 ∧ (base .simmer).allows .nvdSlot = true ∧ (base .run).allows .nvdSlot = false ∧
    (bootLink.serves 0 Reg.HK_NVD_PAGE = true ∧ bootLink.allows .nvdSlot = true) := by decide +kernel

/-- A run with the other CD in a state. -/
def paired (st : Nat) : State := { running with cdb := { Cd.reset with st := st } }

theorem witness_SwitchOverRestartsTheStandby :
    (let s := (paired cdReady).setBit Reg.RD_CFG 0 true
     cdActive ≤ s.cd.st ∧ s.rd.step = 0 ∧ s.justSwitched = false ∧ s.other.st = cdReady ∧ s.bit Reg.RD_CFG 0 = true) ∧
    ((paired cdOut).other.st ≠ cdReady ∧ (paired cdOut).justSwitched = false ∧ (paired cdOut).hk.mode = .run) ∧
    (let s : State := { running with rd := { Rd.reset with step := 4, m := 3 },
                                     fed := { Fed.reset with walk := some [], retShort := true, retLost := 7 } }
     s.rd.step = 4 ∧ s.fed.walk = some [] ∧ s.fed.beats = [] ∧ s.fed.retShort = true ∧ s.run.active = true ∧
      0 ≤ sdiff s.fed.retLost s.rd.m ∧ s.rd.bm = 0) ∧
    ((paired cdReady).serves 0 Reg.RD_CMD = true ∧ (paired cdReady).allows .writeCfg = true) ∧
    (let s : State := { running with rd := { Rd.reset with step := 4 }, fed := { Fed.reset with walk := some [] } }
     s.rd.step = 4 ∧ s.fed.walk = some [] ∧ s.fed.beats = [] ∧ s.fed.retShort = false) ∧
    (({ running with rd := { Rd.reset with step := 5 } } : State).rd.step = 5 ∧ 400 < 401) ∧
    (true ≠ (paired cdActive).rd.activeB ∧ cdActive ≤ (paired cdActive).other.st) ∧
    (let h := head .run
     let s := ({ h with cda := { h.cda with cum := [(1, 0)] } }).setPeer 1 { Peer.empty with restart := true }
     s.role = .head ∧ 1 ∈ s.admitted.filter (fun i => (s.peer i).restart && Sparse.has s.cd.cum i)) := by decide +kernel

theorem witness_RejoinBringsAStandbyBack :
    ((paired cdOut).serves 0 Reg.RD_CMD = true ∧ (paired cdOut).allows .writeCfg = true ∧ (paired cdOut).mayRejoin = true) ∧
    (let s := (paired cdOut).setBit Reg.RD_CFG 1 true
     s.bit Reg.RD_CFG 1 = true ∧ s.mayRejoin = true ∧ s.aclkRuns = true) ∧
    (let s : State := { paired cdLoading with rd := { Rd.reset with rejoin := some (true, 4) } }
     ({ s.rd with rejoin := some (true, 5) } : Rd).rejoin = some (!s.rd.activeB, 5) ∧
      s.rd.rejoin = some (!s.rd.activeB, 4) ∧ 4 < 5 ∧ (s.readSlot (s.bit Reg.HK_CFG_INFO 6)).fail ≠ 0 ∧
      ({ s with nvd := { Nvd.reset with words := image } } : State).bit Reg.HK_CFG_INFO 6 = false) ∧
    (let s : State := { paired cdLoading with rd := { Rd.reset with rejoin := some (true, 4) },
                                              nvd := { Nvd.reset with words := image } }
     (s.readSlot (s.bit Reg.HK_CFG_INFO 6)).fail = 0) := by decide +kernel

theorem witness_CheckpointsAreMirrored :
    (∀ st, st ∈ [cdReady, cdMirroring] →
      (let p := paired st
       let s : State := { p with cda := { p.cda with lastClosed := some 5, handed := some 4 } }
       s.cd.lastClosed = some 5 ∧ s.cd.handed = some 4 ∧ 5 = (4 + 1) % 2 ^ 32 ∧ ¬sdiff 5 5 < 0 ∧ s.rd.taken ≠ some 5 ∧
        s.run.active = true ∧ s.rd.step = 0 ∧ s.rd.flight = none ∧ s.other.st = st)) ∧
    (sdiff 5 7 < 0 ∧ running.cd.handed = none ∧ running.run.sf = 0) ∧
    (∀ st, st ∈ [cdReady, cdMirroring] →
      (let p := paired st
       let s : State := { p with rd := { Rd.reset with flight := some p.firstCkpt } }
       s.rd.flight = some p.firstCkpt ∧ s.other.st = st)) := by decide +kernel

/-! ### Witnesses: errors, Lid and the rest -/

/-- TEST with a raw word in the channel table of the FED and a test address. -/
def rawTest (raw : List RawWord) : State :=
  { (base .test).setRegAt (errReg .fed Reg.ERR_ECC_TADDR) 5 with err := { Err.reset with raw := raw } }

theorem witness_ErrorsAreScrubbedVotedAndRepaired :
    (let s := base .simmer
     Die.hasErr .fed = true ∧ (0x13 : BitVec 8).toNat ∈ scrubbed .fed ∧
      bitOf (s.regAt (errReg .fed Reg.ERR_SCRUB_CFG)) 0 = true ∧ s.aclkRuns = true ∧
      s.clean .fed (0x13 : BitVec 8).toNat 5 = true ∧ s.wordKind .fed (0x13 : BitVec 8).toNat 5 = 0 ∧
      s.recHeld .fed (0x13 : BitVec 8).toNat 5 = false) ∧
    ((base .run).hk.mode ≠ .boot ∧ (base .run).hk.mode ≠ .load ∧ (base .run).hk.mode ≠ .safe) ∧
    (Die.hasErr .sfd = false ∧ (∀ w, w ∈ [0, (0xFF : BitVec 8)] → (base .run).chanOn (voteChan w.toNat) = true) ∧
      (base .run).rd.activeB = false) ∧
    (let s := base .simmer
     s.serves 0 (errReg .fed Reg.ERR_REPAIR) = true ∧ s.lockMask (errReg .fed Reg.ERR_REPAIR) = 0 ∧
      s.allows .tableWrite = true ∧ repairs .fed (0x807FFC : BitVec 24).toNat = true ∧
      tableWord (0x807FFC : BitVec 24).toNat = some (0x13, 4095)) ∧
    (let s := rawTest [⟨.fed, 0x13, 5, 0, 0, none⟩]
     s.serves 0 (errReg .fed Reg.ERR_ECC_TEST) = true ∧ s.lockMask (errReg .fed Reg.ERR_ECC_TEST) = 0 ∧
      s.allows .testFn = true ∧ bits (0x1301 : W32) 15 8 ∈ memsOf .fed ∧
      s.rawAt .fed (bits (0x1301 : W32) 15 8) (s.taddr .fed) = some ⟨.fed, 0x13, 5, 0, 0, none⟩ ∧ identityWord 0x13 5 = false ∧ s.taddr .fed / 32 % 4 ≠ 3) := by
  decide +kernel

/-- Lid parameters: inputs 0 of STOP and 1 of DEGRADE, 50 ms, level 2; the rest zero. -/
def lidPar : List (BitVec 8) :=
  (List.replicate 128 0).set 8 1 |>.set 9 2 |>.set 0x10 50 |>.set 0x15 2

/-- A Lid in a state with a filtered input that changes. -/
def lidWith (st : LidState) (filt raw : Bool) : State :=
  let c : LidChan := { LidChan.reset with
    par := lidPar, filt := List.replicate 8 filt, raw := List.replicate 8 raw, drive := true,
    quads := List.replicate 4 { Quad.zero with runVH := 1 } }
  { base .run with lid := { Lid.reset with state := st, p := c, h := c, agree := true } }

theorem witness_LidInputsAndMonitorsAct :
    (let s := lidWith .run false true
     (s.lid.chan .p).siMode (0 : Fin 4) ≠ 0 ∧ s.chanOn .p = true ∧ nth false (s.lid.chan .p).filt (2 * 0 + b2n true) ≠
      nth false (s.lid.chan .p).raw (2 * 0 + b2n true) ∧ nth false (s.lid.chan .p).raw (2 * 0 + b2n true) = true) ∧
    (let s := lidWith .run true false
     nth false (s.lid.chan .h).filt (2 * 0 + b2n true) ≠ nth false (s.lid.chan .h).raw (2 * 0 + b2n true) ∧
      nth false (s.lid.chan .h).raw (2 * 0 + b2n true) = false ∧ (s.lid.chan .h).siMode (0 : Fin 4) = 1 ∧
      s.lid.biasOn = true ∧ (s.lid.chan .h).siMode (1 : Fin 4) = 2 ∧ s.lid.state = .run) ∧
    (let s := lidWith .stop false true
     s.chanOn .p = true ∧ s.lid.state ≠ .off ∧
      (let used := (List.range 4).filter (fun i => (s.lid.chan .p).siMode i != 0)
       let y := used.foldl LidChan.discStep (s.lid.chan .p)
       ∀ i, i ∈ used → nth 0 y.cnt i < y.h 0x10)) ∧
    (let z := lidWith .stop false true
     let side := [true, false, true, true, true, true, true, true]
     let c : LidChan := { z.lid.p with raw := side, filt := side, cnt := [49, 0, 0, 0] }
     let s : State := { z with lid := { z.lid with p := c } }
     s.lid.acc = none ∧ s.chanOn .h = true ∧
     let used := (List.range 4).filter (fun i => (s.lid.chan .p).siMode i != 0)
     let y := used.foldl LidChan.discStep (s.lid.chan .p)
     ∃ i ∈ used, y.h 0x10 ≤ nth 0 y.cnt i) ∧
    (let s := lidWith .stop false true
     let x := s.lid.chan .p
     let y := (nth Quad.zero x.quads 0).sample x 0 0 0 false false
     (0 : Nat) < 65536 ∧ s.lid.state ≠ .off ∧ y.runVH < x.b 0x15 ∧ y.runVL < x.b 0x15 ∧ y.runI < x.b 0x15 ∧
      y.ramp x 0 = false) ∧
    (State.reset.chanOn .p = false ∧ (lidWith .off false true).chanOn .p = true ∧ (lidWith .off false true).lid.state = .off) ∧
    (let s := lidWith .run false true
     let x := s.lid.chan .p
     let y := (nth Quad.zero x.quads 0).sample x 0 65535 0 true false
     s.lid.biasOn = true ∧ x.b 0x15 ≤ y.runVH) := by decide +kernel

/-- Two channels whose monitors have differed nine times and differ again. -/
def differing : State :=
  let z := lidWith .run false true
  { z with lid := { z.lid with
    p := { z.lid.p with quads := List.replicate 4 { Quad.zero with v := 60000, diffs := 9 } },
    h := { z.lid.h with quads := List.replicate 4 { Quad.zero with diffs := 9 } } } }

theorem witness_LidChannelsWatchEachOther :
    ((base .run).hk.v12 = true ∧ (base .run).hk.v24 = true ∧ (base .run).lid.agree = false) ∧
    (let s := lidWith .run false true
     s.lid.agree = true ∧ s.lid.state ≠ .off ∧
      ∀ n, n < 4 → (nth Quad.zero (((({ s.lid with linkP := true } : Lid).compare .p)).chan .p).quads n).diffs < 10) ∧
    (differing.lid.agree = true ∧ differing.lid.state ≠ .off ∧
      ∃ n, n < 4 ∧ 10 ≤ (nth Quad.zero (((({ differing.lid with linkP := true } : Lid).compare .p)).chan .p).quads n).diffs) ∧
    (∀ b, b ∈ [true, false] → (let z := base .run
      let s : State := { z with lid := { z.lid with linkH := b } }
      s.chanOn .p = true ∧ s.chanOn .h = true ∧ s.lid.linkH = b)) ∧
    ((base .run).lid.p.crc = (base .run).lid.h.crc ∧
      (let z := base .run
       let s : State := { z with lid := { z.lid with h := { z.lid.h with crc := 1 } } }
       s.lid.p.crc ≠ s.lid.h.crc ∧ s.hk.v12 = true ∧ s.hk.v24 = true)) ∧
    (let s := lidWith .run false true
     let t : State := { s with lid := { s.lid with fbaOpen := true } }
     t.lid.fbFault false = some 0x13 ∧ (t.lid.chan .p).par ≠ [] ∧ t.chanOn .p = true) := by decide +kernel

/-- LID_RST held in STOP, everything in order. -/
def holding : State :=
  let z := lidWith .stop true true
  { z with hk := (base .simmer).hk, lid := { z.lid with
    rstIn := true, agree := true, fbaOpen := true, fbbOpen := true, p := { z.lid.p with drive := false, quads := List.replicate 4 .zero },
    h := { z.lid.h with drive := false, quads := List.replicate 4 .zero } } }

theorem witness_LidResetsAndRegistersAct :
    (holding.lid.rstIn = true ∧ holding.lid.heldOver = false ∧ holding.chanOn .h = true ∧ holding.chanOn .p = true) ∧
    (99 < 100 ∧ 2000 < 2001 ∧ 2001 ≤ 5000) ∧
    (let s : State := { holding with lid := { holding.lid with acc := some 100 } }
     let used := (List.range 4).filter (fun i => s.lid.h.siMode i != 0)
     let y := used.foldl LidChan.discStep s.lid.h
     s.chanOn .h = true ∧ s.lid.acc = some 100 ∧ ∀ i, i ∈ used → nth 0 y.cnt i < y.h 0x10) ∧
    ((base .simmer).takes 0 Reg.LID_CMD 0xF = true ∧ (base .simmer).takes 0 Reg.LID_QEN 1 = true ∧
      (lidWith .run true true).lid.state = .run ∧ (base .simmer).lid.state ≠ .run) := by decide +kernel

theorem witness_LidResetsAndRegistersAct_reset :
    (holding.setFld Reg.LID_V24 15 0 19200).mayReset 100 2000 := by
  refine ⟨by decide, by decide +kernel, by decide +kernel, by decide +kernel, by decide +kernel,
    fun h => absurd h (by decide +kernel), by decide +kernel, by decide +kernel, by decide +kernel, by decide +kernel,
    fun _ => by decide +kernel, fun _ => by decide +kernel, by decide +kernel, by decide +kernel, by decide +kernel,
    by decide +kernel, by decide +kernel, fun d h => absurd (show none = some d from h) (by simp), by decide +kernel,
    fun h => absurd h (by decide +kernel)⟩

/-- The readings of a planner cycle. -/
def readings : AgeReadings := ⟨List.replicate 40 1000, List.replicate 6 1361, [0, 0, 0, 1600000]⟩

theorem witness_LidResetAndRegisterCommandsComplete :
    (holding.lid.rstIn = true ∧ holding.lid.heldOver = false ∧ holding.lid.state ≠ .off ∧ holding.chanOn .h = true) ∧
    (let used := (List.range 4).filter (fun i => holding.lid.h.siMode i != 0)
     let y := used.foldl LidChan.discStep { holding.lid.h with hold := 2000 }
     ∀ i, i ∈ used → nth 0 y.cnt i < y.h 0x10) ∧
    (let s := lidWith .run true true
     s.takes 0 Reg.LID_CMD 0xF = true ∧ s.takes 0 Reg.LID_QEN 1 = true ∧ s.lid.state = .run) := by decide +kernel

theorem witness_PlannerCyclesAreLogged :
    (let s : State := { base .simmer with age := { Age.reset with cycles := 358 } }
     (Instr.plannerCycle readings).wf = true ∧ s.aclkRuns = true ∧ s.age.writing = none ∧ s.age.cycles ≠ 0 ∧
      (s.age.cycles + 1) % 360 ≠ 0 ∧ s.age.lenBack = [] ∧ (∃ d ∈ readings.dose, 1600000 ≤ d) ∧
      ∃ x ∈ readings.temp.take 5, 1360 < x) ∧
    ({ base .simmer with age := { Age.reset with writing := some [] } } : State).age.writing = some [] ∧
    (∀ m : Mode, m ∈ [.simmer, .run] →
      (let s : State := { base m with age := { Age.reset with trimWait := [(3, 1)] } }
       s.age.trimWait = [(3, 1)] ∧ s.trimNow = decide (m = .simmer))) := by decide +kernel

theorem witness_ReportsAndMailboxAnswer :
    (let s : State := { base .simmer with att := { Att.reset with bootOk := true } }
     s.serves 0 Reg.ATT_CMD = true ∧ s.allows .attest = true ∧ s.att.busy = none ∧ s.att.bootOk = true) ∧
    ({ base .simmer with att := { Att.reset with busy := some [] } } : State).att.busy = some [] ∧
    ((base .simmer).serves 0 Reg.MBX_REQ = true ∧ (base .simmer).allows .readOther = true ∧ (52 : BitVec 16).toNat ≤ 52 ∧
      (3 : BitVec 16).toNat ≤ 3 ∧ ({ base .simmer with att := { Att.reset with buf := [0] } } : State).att.buf ≠ []) := by
  decide +kernel

theorem witness_MailboxSnapshotsAreTakenAndRead :
    (∀ v, v ∈ [true, false] → (let s : State := { base .simmer with mbx := { Mbx.reset with valid := v, nw := 6, words := [1] } }
      s.serves 0 (Reg.MBX_DATA + 4 * (5 : Fin 6).val) = true ∧ s.allows .readOther = true ∧ s.mbx.valid = v)) ∧
    ((base .simmer).serves 0 Reg.MBX_REQ = true ∧ (base .simmer).mbx.lane = (0 : Lane).val ∧ 3 < (4 : BitVec 16).toNat) ∧
    (let s : State := { base .simmer with hk := { (base .simmer).hk with target := some .load } }
     s.hk.target = some .load ∧ after (exec (.modeTransitionComplete ⟨0, []⟩) s) (fun t => t.hk.mode == .load) = true) ∧
    ((base .simmer).hk.v12 = true ∧ (base .simmer).hk.rstN = true ∧ after (exec .rstNLow (base .simmer)) (fun _ => true) = true) ∧
    ((BitVec.ofNat 24 Reg.MBX_STS).toNat = Reg.MBX_STS ∧ (BitVec.ofNat 24 (Reg.MBX_DATA + 20)).toNat = Reg.MBX_DATA + 4 * 5 ∧
      after (exec (.registerWrite 0 (BitVec.ofNat 24 Reg.MBX_STS) 0 0xF) (base .simmer)) (fun _ => true) = true) := by
  decide +kernel

/-- A housekeeping sample at an input voltage. -/
def sample (vin : Nat) : HkSample := ⟨List.replicate 6 40, vin, 0, 0, List.replicate 4 0, 0⟩

theorem witness_HousekeepingAndTestAccess :
    ((Instr.hkMonitorSample (sample 10799)).wf = true ∧ (base .simmer).hk.v12 = true ∧ (base .simmer).hk.mode ≠ .boot ∧
      ({ base .simmer with hk := { (base .simmer).hk with vinLow := 2 } } : State).hk.vinLow = 2 ∧ (sample 10799).vin < 10800) ∧
    (Die.hasErr .hbd = true ∧ (base .simmer).hk.mode ≠ .load) ∧
    (let x : TapCmd := ⟨.hbd, 8, List.replicate 140 true, [], [], [], 3⟩
     (base .test).tapAnswers = true ∧ (base .test).tap.driving = [] ∧ (.extestTrain x, 5) ∈ tapInstrs x ∧ x.scan.idle ≠ 0 ∧
      ¬(1 ≤ x.scan.code.toNat ∧ x.scan.code.toNat ≤ 7) ∧
      (base .test).tapDrives .hbd 5 = true ∧ (base .test).tapDrives .hbd 1 = false) ∧
    (let x : TapCmd := ⟨.fed, 0, [], [], [], [], 0⟩
     ¬(1 ≤ x.scan.code.toNat ∧ x.scan.code.toNat ≤ 7) ∧ (.samplePreload .fed x.scan, 2) ∈ tapInstrs x ∧
      (base .run).tapAnswers = true ∧ (base .run).tapDrives .fed 2 = false) := by decide +kernel

theorem witness_TimeBaseEventsKeepTheRest :
    timeBaseEvent .announceTimeout = true ∧ after (exec .announceTimeout locked) (fun t => !t.tb.gmOk) = true ∧
    timeBaseEvent (.delayReqSend ⟨0, 0⟩) = true ∧ after (exec (.delayReqSend ⟨0, 0⟩) locked) (fun t => t.out != locked.out) = true := by
  decide +kernel

theorem witness_LaneEventsKeepTheRest :
    laneEvent (.los 1) = true ∧ after (exec (.los 1) (lane1 up)) (fun t => !t.laneUp 1) = true := by decide +kernel

theorem witness_LidEventsKeepTheRest :
    lidEvent .lidRstClose = true ∧ after (exec .lidRstClose (base .simmer)) (fun t => t.lid.rstIn) = true := by decide +kernel

/-! ### Worked examples of the spec -/

-- R6, worked example.
theorem test_signedDifference_wraps : sdiff 1 0xFFFFFFFE = 3 := by decide

-- 05, worked example: the leading crossing in the last tick of slice N, SKEW +1,410, carries into slice N + 1.
theorem test_hit_carriesIntoNextSlice :
    corrected (2047 * 2048 + 684) 1410 = 4194350 ∧ 4194350 / 2048 % 2048 = 0 ∧ 4194350 % 2048 = 46 := by decide

theorem test_hit_totAndRise :
    totOf (2047 * 2048 + 684) (2048 * 2048 + 5 * 2048 + 1563) = 206 ∧
    riseOf (2047 * 2048 + 684) (some (2048 * 2048 + 169)) = 24 ∧
    recHit 0 1906 0 46 206 24 false = 0x03B9000005C19C30#64 := by decide +kernel

-- 06 and 08, worked example: the 64 cells of channel 2,290 and its records.
/-- The cells of the worked example. -/
def cells06 : List Nat :=
  [256, 256, 258, 254] ++ List.replicate 17 256 ++ [300, 900, 1700, 2300, 2500, 2200, 1600, 1000, 600, 380] ++
    List.replicate 33 256

theorem test_minmax4_wordsOfTheExample :
    let ws := packWave 2 (reduceCells 2 cells06)
    ws.length = 7 ∧ ws[2]? = some 0x21006A46409C4100#64 ∧ ws[6]? = some 0xA100100000000000#64 := by decide +kernel

theorem test_capture_offsetAndFreeze :
    let p : Capture := ⟨2290, 2048 * 1000 + 1163, 2048 * 1000 + 1200, 2048 * 1000 + 1750, 41, 480, false⟩
    p.offset = -20 ∧ p.phase = 176 ∧ p.freeze = 1006 ∧ p.last = 8047 ∧ recHit 0 2290 1000 1163 40 9 false = 0x047903E891605012#64 ∧
    recWave 0 2290 1000 176 p.offset 2 7 0 = 0x447903E8B0FEC4E0#64 := by decide +kernel

theorem test_trigAndLossRecords :
    recTrig 2 false false 502 311 32 200 (2 ^ 2 + 2 ^ 5) = [0x830800FB13700000#64, 0xC080320000000000#64, 0xC000000000000024#64] ∧
    recLoss 0 1543 1543 1 8 = 0x840C0EC0E0000108#64 ∧ recLoss 0 1543 1543 1 1 = 0x840C0EC0E0000101#64 ∧
    recHeader 0x31F81 0xFF 0 0 3 0 false false = 0x8100031F81FF0180#64 := by decide +kernel

-- 04, worked example: the channel table entry of channel 3,417 in SIMMER.
theorem test_channelTable_entryOfTheExample :
    after (exec (.channelTableWrite 0 3417 true 0xD550310A 0xF) (live .simmer)) (fun t =>
      after (exec (.channelTableWrite 0 3417 false 0x0002591E 0xF) t) (fun u =>
        u.chanWord 3417 == 0xD550310A0002591E#64 &&
        (bits (u.calWord 3417) 23 12, bits (u.calWord 3417) 11 6, bits (u.calWord 3417) 5 0) == (37, 36, 30))) = true := by
  decide +kernel

-- 10, worked example: block 3 of slice 0x0004_0A12.
/-- Its records. -/
def records10 : List W64 :=
  [0x030401F626E08014#64, 0x030482807F807418#64, 0x0305021C01808E12#64, 0x0305028009A08416#64, 0x03058230966063FE#64,
    0x030602367080781A#64]

/-- The block as the spec prints it. -/
def block10 : Block :=
  { h0 := 0x00040A1205000003#64, h1 := 0x00C0143000000000#64, dep := none,
    payload := [0x7FFF0C11FFFC1F62#64, 0x6EFF07C000514B14#64, 0x164001323EF9A500#64, 0x0C81049440402292#64, 0x9DAF30085DA25AC0#64],
    hdrCopy := 0, unc := false }

theorem test_press_codesTheExample :
    let j : Job := { eng := 0, slice := 0x40A12, bidx := 3, first := false, last := false, alone := false, verify := false,
                     raw := false, groups := records10.map (fun w => [w]), consumed := 0, ctx := .init, bits := [], space := 512,
                     st := 1 }
    let s : State := { live .run with cda := { (live .run).cda with gen := 5 } }
    s.blockOf (j.go false).1 = block10 := by decide +kernel

theorem test_expander_readsTheExample : (expand block10).toOption.map Prod.fst = some records10 := by decide +kernel

-- 12, worked example.
theorem test_laneLatencyOfTheExample :
    let s : State := { base .simmer with
      lanes := [(0, { up with rate := 0, slip := 37 })], cal := { (base .simmer).cal with lane := [(0, 0xF4D30#64)] } }
    s.rxLatency 0 = 11539 ∧ s.txLatency 0 = 7156 ∧ s.lnLat 0 = 0x1BF42D13#32 := by decide +kernel

theorem test_arrivalOfTheExample :
    let s : State := { base .simmer with
      lanes := [(0, { up with rate := 0, slip := 37 })], cal := { (base .simmer).cal with lane := [(0, 0xF4D30#64)] },
      tb := { Tb.reset with tn := 8, ns := 25 } }
    s.arrival 5000 = (4 * 2048 + 1653) * 100 := by decide +kernel

-- 12, worked example: lane 5 at 28.16 Gb/s with TX_TRIM 21, launched at tick 80,000,000,006, fine 123.
theorem test_departureOfTheExample :
    let s : State := { base .simmer with
      lanes := [(0, up), (5, { up with rate := 2 })], cal := { (base .simmer).cal with lane := [(5, 0x15000#64)] },
      tb := { Tb.reset with tn := 80000000006, sec := 250, ns := 18, frac := 0xC0000000 } }
    s.txLatency 5 = 4373 ∧ s.depAt 5 123 = recDep 250 25 0x9C400000 := by decide +kernel

-- 11, worked example: one exchange in 2^-16 ns, repeated once.
theorem test_ptpExchangeOfTheExample :
    let s : State := { (base .simmer).setFld Reg.TB_SERVO 2 0 3 with tb := { Tb.reset with
      state := .locked, gmOk := true, master := some 9, t3 := some (203125000 * 65536 + 32000), tn := 64000172,
      ns := 200000537, frac := 0x80000000 } }
    let m : PtpMsg := msg 3
    after (exec (.ptpSync m false (200000000 * 65536) (25 * 65536) ⟨64000172, 1344⟩) s) (fun t =>
      after (exec (.ptpDelayResp { m with seqId := 0 } t.ownPort (203125500 * 65536) 0) t) (fun u =>
        after (exec (.ptpSync { m with seqId := 4 } false (200000000 * 65536) (25 * 65536) ⟨64000172, 1344⟩) u) (fun v =>
          v.reg Reg.TB_PATH_DELAY == 0x50000#32 && v.reg Reg.TB_OFFSET == 0x140#32 && v.tb.state == .locked &&
            v.tb.slewing == some 320))) = true := by decide +kernel

-- 13, worked example: the units of a READ of HK_MODE and of its response, without their CRC.
theorem test_slowControlUnitsOfTheExample :
    bits (pair 1 0x01A7 0x10 false 0 0).1 63 16 = 0x9201A7000010 ∧ bits (pair 1 0x01A7 0x10 false 0 0).2 63 16 = 0xB0A700000000 ∧
    bits (respUnits ⟨0, 0x1A7, 0x10, 0x324⟩).1 63 16 = 0xA001A7000010 ∧
    bits (respUnits ⟨0, 0x1A7, 0x10, 0x324⟩).2 63 16 = 0xB0A700000324 := by decide +kernel

-- 15, worked example: UNCORR and LOSS come from event 0x2A, CORR from event 0x2B.
theorem test_stickyClearOfTheExample :
    let e : Sts := (⟨0x29, 0, []⟩ : Sts).event [5, 1]
    e.word = 0x2A000022#32 ∧ ((e.event [0]).clear 0x2A 0x22).word = 0x2B000001#32 := by decide +kernel

-- 17, worked example.
theorem test_margin1OfTheExample :
    chooseLen 1221 1240 1 = some 0 ∧ ((live .calib).planLen 37 0).reg (Reg.TDC_LEN + 8) = 0x55555155#32 ∧
    logSlot (1000000 % 4096) = 0x124000 := by decide +kernel

-- 19, worked example: item TIME of a LOCKED time base, and MBX_STS of the request.
theorem test_mailboxTimeOfTheExample :
    let s : State := { base .simmer with
      tb := { Tb.reset with tn := 80000000009, sec := 250, ns := 28, frac := 0x20000000, state := .locked },
      mbx := { Mbx.reset with rqn := 0x34 } }
    after (exec (.time 0) s) (fun t =>
      t.mbx.words == [0x20000000#32, 0x8000001C#32, 0xFA#32, 0#32, 0xA05F2009#32, 0x12#32] && t.mbx.rqn == 0x35#8 && t.mbx.valid &&
        (t.mbx.item, t.mbx.lane, t.mbx.nw) == (1, 0, 6)) = true := by decide +kernel

-- 20, worked example.
theorem test_addressesOfTheExample :
    Reg.LN_STS + 0x100 * 13 = 0x020D04 ∧ Reg.LK_RX_FSEQ + 4 * (5 - 1) = 0x03007C := by decide

-- R64: the published check value of CRC-32C, over the nine characters 1 to 9.
theorem test_crc32cCheckValue : crc32c [0x31, 0x32, 0x33, 0x34, 0x35, 0x36, 0x37, 0x38, 0x39] = 0xE3069283#32 := by decide +kernel

end Sys2Proof.Tests
end

section
/-! O11 and R6: the signed difference is the residue of the difference, read as a two's complement number. -/

namespace Sys2Proof

/-- The sum that `sdiffW` reduces is the residue of `a - b`: adding the modulus keeps it a natural number. -/
theorem sdiffW_residue (w a b : Nat) :
    (((a % 2 ^ w + 2 ^ w - b % 2 ^ w) % 2 ^ w : Nat) : Int) = ((a : Int) - b) % (2 ^ w : Nat) := by
  have hb : b % 2 ^ w ≤ a % 2 ^ w + 2 ^ w :=
    le_trans (Nat.mod_lt _ (Nat.two_pow_pos w)).le (Nat.le_add_left _ _)
  rw [Int.natCast_mod, Int.natCast_sub hb, Int.natCast_add, Int.natCast_mod, Int.natCast_mod, add_sub_right_comm,
    Int.add_emod_right, ← Int.sub_emod]

/-- The signed difference by the residue of `a - b` (R6). -/
theorem sdiffW_eq (w a b : Nat) : sdiffW w a b =
    (if ((a : Int) - b) % (2 ^ w : Nat) ≥ (2 ^ (w - 1) : Nat) then ((a : Int) - b) % (2 ^ w : Nat) - (2 ^ w : Nat)
     else ((a : Int) - b) % (2 ^ w : Nat)) := by
  simp only [← sdiffW_residue, ge_iff_le, Int.ofNat_le]
  rfl

/-- The same at 32 bits, in numerals. -/
theorem sdiff_eq (a b : Nat) : sdiff a b =
    if ((a : Int) - b) % 4294967296 ≥ 2147483648 then ((a : Int) - b) % 4294967296 - 4294967296
    else ((a : Int) - b) % 4294967296 :=
  sdiffW_eq 32 a b

/-- Words are equal exactly when they do not differ. -/
theorem sdiff_toNat_eq_zero_iff (a b : W32) : sdiff a.toNat b.toNat = 0 ↔ a = b := by
  have ha := a.isLt
  have hb := b.isLt
  rw [← BitVec.toNat_inj, sdiff_eq]
  split <;> omega

/-- Of two values the later one makes the other earlier. -/
theorem sdiff_neg_of_pos {a b : Nat} (h : 0 < sdiff a b) : sdiff b a < 0 := by
  rw [sdiff_eq] at h ⊢
  split at h <;> split <;> omega

/-- An earlier value makes the other later, save at distance 2^31, where each is earlier than the other. -/
theorem sdiff_pos_of_neg {a b : Nat} (h : sdiff a b < 0) : 0 < sdiff b a ∨ sdiff a b = -2 ^ 31 := by
  rw [sdiff_eq] at h ⊢
  rw [sdiff_eq]
  split at h <;> split <;> omega

/-- Settles O11: `sdiffW` is the two's complement reading of the residue, and its order follows at 32 bits. -/
theorem signedDifferencesDecideOrder : Obligations.SignedDifferencesDecideOrder := by
  unfold Obligations.SignedDifferencesDecideOrder
  exact ⟨fun w a b _ => sdiffW_eq w a b, fun _ _ => rfl,
    fun a b => ⟨sdiff_toNat_eq_zero_iff a b, sdiff_neg_of_pos, sdiff_pos_of_neg⟩⟩

end Sys2Proof
end

section
/-! O44: a register write that only stores, from the request on the lane to the word under the register's key. -/

namespace Sys2Proof.Machine

/-! ### Addresses and keys -/

/-- What `storesOnly` says of an address. -/
theorem storesOnly_iff (a : Nat) : storesOnly a = true ↔
    a % 4 = 0 ∧ (a / 0x100000 = 0 ∨ a / 0x100000 = 1 ∨ a / 0x100000 = 5) ∧ isErrAddr a = false ∧
      (regRow a).isSome = true ∧ isSts a = false ∧ a ∉ commandRegs := by
  unfold storesOnly
  simp only [Bool.and_eq_true, Bool.or_eq_true, beq_iff_eq, Bool.not_eq_true', List.contains_eq_mem, decide_eq_false_iff_not,
    and_assoc, or_assoc]

/-- An address of another nibble than 2 names its own die (R411). -/
theorem State.phys_of_die_ne_two (s : State) {a : Nat} (h : a / 0x100000 ≠ 2) : s.phys a = a := by
  unfold State.phys
  rw [if_neg h]

/-- Outside the ERR blocks and the concentrators the table lists an address as it is. -/
theorem normAddr_of_die {a : Nat} (hd : a / 0x100000 = 0 ∨ a / 0x100000 = 1 ∨ a / 0x100000 = 5)
    (he : isErrAddr a = false) : normAddr a = a := by
  unfold isErrAddr at he
  simp only [Bool.and_eq_false_iff, decide_eq_false_iff_not, beq_eq_false_iff_ne] at he
  unfold normAddr
  rw [if_neg (by omega), if_neg (by omega)]

/-- The key of a register names its address, and beside it the selected lane where there is one. -/
theorem State.keyOf_mod (s : State) {a : Nat} (hd : a / 0x100000 ≠ 2) :
    s.keyOf a % 0x1000000 = a % 0x1000000 := by
  unfold State.keyOf instKey
  rw [s.phys_of_die_ne_two hd]
  split_ifs <;> omega

/-- A register that acts on no selected lane stands under its address. -/
theorem State.keyOf_of_unselected (s : State) {a : Nat} (hd : a / 0x100000 ≠ 2) (hn : a ∉ lnSelected)
    (hk : a ∉ lkSelected) : s.keyOf a = a := by
  unfold State.keyOf
  rw [if_neg (by simpa using hn), if_neg (by simpa using hk), s.phys_of_die_ne_two hd]

/-- Counting a request's units moves no selector. -/
theorem State.keyOf_got (s : State) (lane a : Nat) : (s.got lane).keyOf a = s.keyOf a := by
  have hn : (s.got lane).lnSel = s.lnSel := s.fld_got lane 4 0 (by decide)
  have hk : (s.got lane).scSel = s.scSel := s.fld_got lane 4 0 (by decide)
  unfold State.keyOf
  rw [hn, hk, State.phys_got]

/-- Fields and masks belong to the address of a key. -/
theorem storeMask_of_mod {k a : Nat} (h : k % 0x1000000 = a % 0x1000000) : storeMask k = storeMask a := by
  unfold storeMask fieldsOf
  rw [h]

theorem State.lockMask_of_mod (s : State) {k a : Nat} (h : k % 0x1000000 = a % 0x1000000) :
    s.lockMask k = s.lockMask a := by
  unfold State.lockMask fieldsOf
  rw [h]

@[simp] theorem State.lockMask_got (s : State) (lane k : Nat) : (s.got lane).lockMask k = s.lockMask k := by
  unfold State.lockMask State.got
  rw [State.countLane_nvd]

@[simp] theorem State.allows_got (s : State) (lane : Nat) (c : Cls) : (s.got lane).allows c = s.allows c := by
  unfold State.allows
  rw [State.hk_got]

/-- A word other than the counter of the lane's units stands through the count. -/
theorem State.regAt_got_ne (s : State) (lane : Nat) {k : Nat} (h : k ≠ instKey Reg.LK_LANE_RX_UNITS lane) :
    (s.got lane).regAt k = s.regAt k :=
  s.regAt_countAt_ne h _ _

/-! ### The store -/

/-- No locked bit, no change of a locked bit (R398). -/
theorem State.lockHit_of_unlocked (s : State) {k : Nat} (h : s.lockMask k = 0) (v : W32) : s.lockHit k v = false := by
  unfold State.lockHit
  rw [h]
  simp

/-- A write that nothing stands in the way of has its effect (R51). -/
theorem State.guarded_open (s : State) {cls : Cls} (h : s.allows cls = true) (eff : State) :
    s.guarded false false cls false eff = .done eff := by
  unfold State.guarded
  simp [h]

/-- The word that a store leaves under a key: the CFG and CNT bits of the new value, the others as they were (R397). -/
def State.storedWord (s : State) (k : Nat) (v : W32) : W32 :=
  let m : W32 := BitVec.ofNat 32 (storeMask k)
  (s.regAt k &&& ~~~m) ||| (v &&& m)

theorem State.regAt_storeFields (s : State) (k x : Nat) (v : W32) :
    (s.storeFields k v).regAt x = if x = k then s.storedWord k v else s.regAt x :=
  s.regAt_setRegAt k x _

/-- A write answered OK with DATA zero that stores `v` under `k`, and leaves every other register, the responses and the
lanes as they were. -/
structure State.StoresOk (s : State) (k : Nat) (v : W32) (r : Rep) : Prop where
  status : r.status = Stat.ok
  data : r.data = 0
  regs : r.st.regs = (s.storeFields k v).regs
  resp : r.st.resp = s.resp
  lanes : r.st.lanes = s.lanes

/-- The registers after such a write. -/
theorem State.StoresOk.regAt {s : State} {k : Nat} {v : W32} {r : Rep} (h : s.StoresOk k v r) (x : Nat) :
    r.st.regAt x = if x = k then s.storedWord k v else s.regAt x := by
  rw [← State.regAt_storeFields]
  unfold State.regAt
  rw [h.regs]

/-- The lanes after such a write. -/
theorem State.StoresOk.lane {s : State} {k : Nat} {v : W32} {r : Rep} (h : s.StoresOk k v r) (n : Nat) :
    r.st.lane n = s.lane n := by
  unfold State.lane
  rw [h.lanes]

section
variable {s : State} {k : Nat} {cls : Cls} (hl : s.lockMask k = 0) (hc : s.allows cls = true)
include hl hc

/-- An unlocked plain write in a mode that takes it is the store. -/
theorem State.plainWrite_open (data : W32) (be : BitVec 4) :
    s.plainWrite k data be cls = .done (s.storeFields k (mergeBE (s.regAt k) data be)) := by
  unfold State.plainWrite
  dsimp only
  rw [s.lockHit_of_unlocked hl, s.guarded_open hc]

theorem State.storesOk_plainWrite (data : W32) (be : BitVec 4) :
    s.StoresOk k (mergeBE (s.regAt k) data be) (s.plainWrite k data be cls) := by
  rw [State.plainWrite_open hl hc]
  exact ⟨rfl, rfl, rfl, rfl, rfl⟩

end

section
variable {s : State} (hc : s.allows .writeCfg = true)
include hc

/-- A waveform register stores; a value that is adjusted sets WF_EVT besides. -/
theorem State.storesOk_wfWrite {a : Nat} (hl : s.lockMask a = 0) (data : W32) (be : BitVec 4) :
    s.StoresOk a (mergeBE (s.regAt a) data be) (s.wfWrite a data be) := by
  unfold State.wfWrite
  rw [State.plainWrite_open hl hc]
  dsimp only [Rep.done]
  rw [if_pos rfl]
  exact ⟨rfl, rfl, State.eventIf_regs _ _ _ _, State.eventIf_resp _ _ _ _, State.eventIf_lanes _ _ _ _⟩

/-- FE_CTRL stores; a change of the bias in SIMMER settles the front end besides (R103). -/
theorem State.storesOk_biasWrite (hl : s.lockMask Reg.FE_CTRL = 0) (data : W32) (be : BitVec 4) :
    s.StoresOk Reg.FE_CTRL (mergeBE (s.regAt Reg.FE_CTRL) data be) (s.biasWrite data be) := by
  have hr : s.reg Reg.FE_CTRL = s.regAt Reg.FE_CTRL := by
    unfold State.reg
    rw [s.phys_of_die_ne_two (by decide)]
  unfold State.biasWrite
  dsimp only
  rw [hr, s.lockHit_of_unlocked hl, s.guarded_open hc]
  dsimp only [Rep.done]
  split <;> exact ⟨rfl, rfl, rfl, rfl, rfl⟩

end

/-! ### The write of a register that only stores -/

/-- The lane-configuration registers lie at the multiples of 0x100 below LN_SEL. -/
theorem mem_laneCfgs {a : Nat} (hlo : Reg.LN_CFG ≤ a) (hhi : a < Reg.LN_SEL) (hm : a % 0x100 = 0) :
    a ∈ (List.range 32).map laneCfg := by
  unfold Reg.LN_CFG at hlo
  unfold Reg.LN_SEL at hhi
  refine List.mem_map.2 ⟨(a - 0x020000) / 0x100, List.mem_range.2 (by omega), ?_⟩
  unfold laneCfg Reg.LN_CFG
  omega

/-- Outside the registers with commands of their own, three writes are left: FE_CTRL's, the waveform registers' and the
plain store. -/
theorem State.dieWrite_of_notCommand (s : State) (lane : Nat) {a : Nat} (hs : isSts a = false) (hc : a ∉ commandRegs)
    (data : W32) (be : BitVec 4) : s.dieWrite lane a data be =
      if a = Reg.FE_CTRL then s.biasWrite data be
      else if a = Reg.WF_CTRL ∨ a = Reg.WF_HOLD then s.wfWrite a data be
      else s.plainWrite (s.keyOf a) data be .writeCfg := by
  have hcfg : ¬(Reg.LN_CFG ≤ a ∧ a < Reg.LN_SEL ∧ a % 0x100 = 0) := fun ⟨h1, h2, h3⟩ =>
    hc (List.mem_append_right _ (mem_laneCfgs h1 h2 h3))
  have hne : ∀ r ∈ commandRegs, a ≠ r := fun r hr e => hc (e ▸ hr)
  unfold commandRegs at hne
  simp only [List.forall_mem_append, List.forall_mem_cons] at hne
  unfold State.dieWrite
  simp only [hs, hcfg, hne, if_false, Bool.false_eq_true]

/-- The write of a register that only stores, through its die. -/
theorem State.storesOk_dieWrite {s : State} {a : Nat} (h : storesOnly a = true) (hl : s.lockMask a = 0)
    (hc : s.allows .writeCfg = true) (lane : Nat) (data : W32) (be : BitVec 4) :
    s.StoresOk (s.keyOf a) (mergeBE (s.regAt (s.keyOf a)) data be) (s.dieWrite lane a data be) := by
  obtain ⟨-, hd, -, -, hs, hcmd⟩ := (storesOnly_iff a).1 h
  rw [s.dieWrite_of_notCommand lane hs hcmd]
  split_ifs with hfe hwf
  · subst hfe
    rw [s.keyOf_of_unselected (by decide) (by decide) (by decide)]
    exact State.storesOk_biasWrite hc hl data be
  · have hk : s.keyOf a = a := by
      rcases hwf with rfl | rfl <;> exact s.keyOf_of_unselected (by decide) (by decide) (by decide)
    rw [hk]
    exact State.storesOk_wfWrite hc hl data be
  · have hlk : s.lockMask (s.keyOf a) = 0 := (s.lockMask_of_mod (s.keyOf_mod (by omega))).trans hl
    exact State.storesOk_plainWrite hlk hc data be

/-- A write request to such a register reaches the write of its die. -/
theorem State.writeAct_of_storesOnly (s : State) (lane : Nat) {a : Nat} (h : storesOnly a = true) (data : W32)
    (be : BitVec 4) : s.writeAct lane a data be = s.dieWrite lane a data be := by
  obtain ⟨h4, hd, he, hr, -, -⟩ := (storesOnly_iff a).1 h
  unfold State.writeAct
  dsimp only
  have hrow : ¬(a / 0x100000 > 5 ∨ (regRow a).isNone = true) := by
    rw [Option.isNone_eq_false_iff.2 hr]
    simp only [Bool.false_eq_true, or_false]
    omega
  rw [if_neg (by omega), if_neg (by omega), normAddr_of_die hd he, he, if_neg hrow, if_neg (by decide), if_neg (by omega)]

/-! ### The request -/

/-- What `takes` says of a request. -/
theorem State.takes_iff (s : State) (lane addr : Nat) (be : BitVec 4) : s.takes lane addr be = true ↔
    s.serves lane addr = true ∧ be ≠ 0 ∧ s.lockMask (s.phys addr) = 0 ∧ s.allows .writeCfg = true := by
  unfold State.takes
  simp only [Bool.and_eq_true, bne_iff_ne, beq_iff_eq, and_assoc]

/-- A served write whose action stores and answers OK: the response is queued, the word is stored, and every other register
but the two request counters stands. -/
theorem State.writeRequest_stores {s : State} {lane a k : Nat} {v : W32} {data : W32} {be : BitVec 4}
    (hs : s.serves lane a = true) (hb : be ≠ 0) (h : (s.got lane).StoresOk k v ((s.got lane).writeAct lane a data be)) :
    s.replied (s.writeRequest lane a data be) lane a Stat.ok 0 ∧
      ∀ x, x ≠ Reg.LK_SC_REQ_CNT → (s.writeRequest lane a data be).regAt x =
        if x = k then (s.got lane).storedWord k v else (s.got lane).regAt x := by
  unfold State.writeRequest
  rw [State.accessW_serves hs hb, h.status, h.data, ite_self]
  exact ⟨State.replied_finish (by rw [h.resp, State.resp_got]) (by rw [h.lane, State.lane_got]) a Stat.ok 0,
    fun x hx => by rw [State.regAt_finish _ _ _ _ _ hx, h.regAt]⟩

/-- Settles O44: the request reaches the register's die, whose write is a store under the register's key. -/
theorem registerWritesStore : Obligations.RegisterWritesStore := by
  unfold Obligations.RegisterWritesStore
  intro lane addr data be s ht hst hreq hunits
  obtain ⟨hs, hb, hl, hc⟩ := (s.takes_iff _ _ _).1 ht
  obtain ⟨-, hd, -⟩ := (storesOnly_iff _).1 hst
  have hd2 : addr.toNat / 0x100000 ≠ 2 := by omega
  rw [s.phys_of_die_ne_two hd2] at hl
  have hw := State.storesOk_dieWrite (s := s.got lane) hst (by rw [State.lockMask_got, hl])
    (by rw [State.allows_got, hc]) lane data be
  rw [← State.writeAct_of_storesOnly _ _ hst, State.keyOf_got, s.regAt_got_ne lane hunits] at hw
  obtain ⟨hreply, hregs⟩ := State.writeRequest_stores hs hb hw
  refine ⟨_, rfl, hreply, ?_, fun x hx hx1 hx2 => ?_⟩
  · have hm : storeMask (s.keyOf addr.toNat) = storeMask addr.toNat := storeMask_of_mod (s.keyOf_mod hd2)
    rw [hregs _ hreq, if_pos rfl]
    unfold State.storedWord
    rw [hm, s.regAt_got_ne lane hunits]
  · rw [hregs x hx1, if_neg hx, s.regAt_got_ne lane hx2]

end Sys2Proof.Machine
end

section
/-! What registers, counters, events and the active CD read as where only a part of the state has changed. -/

namespace Sys2Proof.Machine

/-! ### Registers and counters -/

/-- A stored word stands where the stored words do. -/
theorem State.regAt_congr {s t : State} (h : t.regs = s.regs) (k : Nat) : t.regAt k = s.regAt k := by
  unfold State.regAt
  rw [h]

/-- A register stands where the stored words and the active CD do. -/
theorem State.reg_congr {s t : State} (hr : t.regs = s.regs) (hd : t.rd.activeB = s.rd.activeB) (a : Nat) :
    t.reg a = s.reg a := by
  unfold State.reg State.regAt State.phys
  rw [hr, hd]

/-- From `s` to `t` every register of the map stands. -/
def State.sameMap (s t : State) : Prop := ∀ a, a < 0x1000000 → t.reg a = s.reg a

theorem State.sameMap.trans {s t u : State} (h : s.sameMap t) (g : t.sameMap u) : s.sameMap u :=
  fun a ha => (g a ha).trans (h a ha)

theorem State.sameMap_of_regs {s t : State} (hr : t.regs = s.regs) (hd : t.rd = s.rd) : s.sameMap t :=
  fun a _ => State.reg_congr hr (congrArg Rd.activeB hd) a

/-- A counter has counted once a state that shows its old word and the same active CD counts. -/
theorem State.counts_count {s t : State} {a : Nat} (h : t.reg a = s.reg a) (n : Nat) : s.counts (t.count a n) a n := by
  unfold State.counts State.count
  rw [← h]
  unfold State.reg
  rw [State.phys_countAt]
  exact State.regAt_countAt _ _ _ _

/-- A register of the map is not one of those behind a selector. -/
theorem State.phys_ne_instKey (s : State) {a : Nat} (ha : a < 0x1000000) (b i : Nat) : s.phys a ≠ instKey b i :=
  Nat.ne_of_lt (Nat.lt_of_lt_of_le (s.phys_lt ha) (instKey_ge b i))

/-- The active CD stands where both CDs and the name of the active one do. -/
theorem State.cd_congr {s t : State} (hd : t.rd.activeB = s.rd.activeB) (ha : t.cda = s.cda) (hb : t.cdb = s.cdb) :
    t.cd = s.cd := by
  unfold State.cd
  rw [hd, ha, hb]

@[simp] theorem State.cd_count (s : State) (a n : Nat) : (s.count a n).cd = s.cd :=
  State.cd_congr (congrArg Rd.activeB (s.count_rd a n)) (s.count_cda a n) (s.count_cdb a n)

@[simp] theorem State.cd_event (s : State) (a : Nat) (bs : List Nat) : (s.event a bs).cd = s.cd :=
  State.cd_congr (congrArg Rd.activeB (s.event_rd a bs)) (s.event_cda a bs) (s.event_cdb a bs)

@[simp] theorem State.reg_event (s : State) (a : Nat) (bs : List Nat) (k : Nat) : (s.event a bs).reg k = s.reg k :=
  State.reg_congr (s.event_regs a bs) (by simp) k

/-- The event just noted shows. -/
theorem State.shows_event (s : State) (a : Nat) {b : Nat} (h : b < 24) : (s.event a [b]).shows a b := by
  unfold State.shows State.stsOf State.event
  rw [State.phys_eventAt, State.stsAt_eventAt, if_pos rfl]
  exact Sts.event_sets _ _ h

/-- What a counter has counted stands in a state that shows the same word. -/
theorem State.counts.congr {s t u : State} {a n : Nat} (h : s.counts t a n) (hu : u.reg a = t.reg a) : s.counts u a n :=
  hu.trans h

/-- What a counter has counted since a state, it has since one that shows the same word. -/
theorem State.counts.since {s t u : State} {a n : Nat} (h : t.counts u a n) (ht : t.reg a = s.reg a) : s.counts u a n := by
  unfold State.counts
  rw [← ht]
  exact h

/-- The same of a counter of a lane. -/
theorem State.countsAt_countLane {s t : State} {a i : Nat} (h : t.regAt (instKey a i) = s.regAt (instKey a i)) (n : Nat) :
    s.countsAt (t.countLane a i n) (instKey a i) n := by
  unfold State.countsAt State.countLane
  rw [State.regAt_countAt, h]

theorem State.countsAt.congr {s t u : State} {k n : Nat} (h : s.countsAt t k n) (hu : u.regAt k = t.regAt k) :
    s.countsAt u k n := hu.trans h

/-- A sticky bit shows where the sticky status and the HBD's redundancy stand. -/
theorem State.shows.congr {t u : State} {a i : Nat} (h : t.shows a i) (hs : u.sts = t.sts) (hd : u.rd = t.rd) :
    u.shows a i := by
  unfold State.shows State.stsOf State.stsAt State.phys
  rw [hs, hd]
  exact h

end Sys2Proof.Machine
end

section
/-! O42: a block that the HBD takes is passed on, dropped as a duplicate of the overlap, or cuts its slice. -/

namespace Sys2Proof.Machine

/-! ### What handing over, buffering and passing on leave -/

@[simp] theorem State.handOver_ulp (s : State) (b : Block) : (s.handOver b).ulp = s.ulp := by
  unfold State.handOver
  dsimp only
  split_ifs <;> simp

@[simp] theorem State.handOver_rd (s : State) (b : Block) : (s.handOver b).rd = s.rd := by
  unfold State.handOver
  dsimp only
  split_ifs <;> simp

@[simp] theorem State.handOver_regs (s : State) (b : Block) : (s.handOver b).regs = s.regs := by
  unfold State.handOver
  dsimp only
  split_ifs <;> simp

@[simp] theorem State.handOver_sts (s : State) (b : Block) : (s.handOver b).sts = s.sts := by
  unfold State.handOver
  dsimp only
  split_ifs <;> simp

/-- The active CD notes the slice whose last block it has handed over (R315). -/
theorem State.handOver_cd (s : State) (b : Block) :
    (s.handOver b).cd = if b.endsSlice then { s.cd with handed := some b.slice } else s.cd := by
  have h := s.cd_setCd { s.cd with handed := some b.slice }
  unfold State.handOver
  dsimp only
  by_cases he : b.endsSlice = true
  · rw [if_pos he, if_pos he]
    split_ifs <;> exact h
  · rw [if_neg he, if_neg he]
    split_ifs <;> rfl

@[simp] theorem State.handOver_released (s : State) (b : Block) : (s.handOver b).cd.released = s.cd.released := by
  rw [State.handOver_cd]
  split <;> rfl

/-- A block joins those that wait; only a LIMB that takes its HEAD as faulty makes room for it (R346). -/
theorem State.buffer_eq {s : State} (h : s.role ≠ .limb ∨ s.ulp.ackFault = false) (b : Block) : s.buffer b =
    { s with ulp := { s.ulp with wait := s.ulp.wait ++ [b], peak := (s.buffer b).ulp.peak }, err := (s.buffer b).err } := by
  have hn : ¬(s.role = .limb ∧ s.ulp.ackFault = true) := fun ⟨hl, hf⟩ => h.elim (· hl) (by simp [hf])
  unfold State.buffer
  rw [if_neg hn]
  rfl

/-- What passing a block on leaves in the link, the CD and the CRCs kept (R318, R324). -/
theorem State.passBlock_spec {s : State} (h : s.role ≠ .limb ∨ s.ulp.ackFault = false) (b : Block) :
    (s.passBlock b).ulp.wait = s.ulp.wait ++ [b] ∧ (s.passBlock b).ulp.held = s.ulp.held ∧
      (s.passBlock b).cd = (if b.endsSlice then { s.cd with handed := some b.slice } else s.cd) ∧
      (b.slice, b.bidx, b.crc) ∈ (s.passBlock b).rd.crcs := by
  unfold State.passBlock
  extract_lets near wanted r t
  have hb := State.buffer_eq (s := t) h b
  rw [State.handOver_ulp, State.handOver_rd, State.handOver_cd, hb]
  exact ⟨rfl, rfl, rfl, List.mem_append_right _ (List.mem_singleton_self _)⟩

@[simp] theorem State.reg_handOver (s : State) (b : Block) (a : Nat) : (s.handOver b).reg a = s.reg a :=
  State.reg_congr (by simp) (by simp) a

/-! ### Blocks that are dropped -/

/-- A block that has gone before is counted and not sent again (R30, R324). -/
def State.dropBlock (s : State) (b : Block) : State := (s.count Reg.RD_DUP_BLK_CNT 1).handOver b

/-- One block less is still to come again behind the frame of the restart slice (R30). -/
def State.oneLess (s : State) : State := { s with rd := { s.rd with again := s.rd.again - 1 } }

@[simp] theorem State.oneLess_cd (s : State) : s.oneLess.cd = s.cd := rfl
@[simp] theorem State.oneLess_ulp (s : State) : s.oneLess.ulp = s.ulp := rfl
@[simp] theorem State.oneLess_rd (s : State) : s.oneLess.rd = { s.rd with again := s.rd.again - 1 } := rfl
@[simp] theorem State.oneLess_reg (s : State) (a : Nat) : s.oneLess.reg a = s.reg a := rfl

@[simp] theorem State.dropBlock_ulp (s : State) (b : Block) : (s.dropBlock b).ulp = s.ulp := by
  unfold State.dropBlock
  simp

@[simp] theorem State.dropBlock_rd (s : State) (b : Block) : (s.dropBlock b).rd = s.rd := by
  unfold State.dropBlock
  simp

@[simp] theorem State.dropBlock_released (s : State) (b : Block) : (s.dropBlock b).cd.released = s.cd.released := by
  unfold State.dropBlock
  simp

theorem State.counts_dropBlock {s t : State} (h : t.reg Reg.RD_DUP_BLK_CNT = s.reg Reg.RD_DUP_BLK_CNT) (b : Block) :
    s.counts (t.dropBlock b) Reg.RD_DUP_BLK_CNT 1 :=
  (State.counts_count h 1).congr (State.reg_handOver _ _ _)

/-! ### The block that ends a cut slice -/

/-- From `s` to `t` nothing has changed in the link, in what the HBD holds of the redundancy and in the CDs. -/
structure State.streamKept (s t : State) : Prop where
  ulp : t.ulp = s.ulp
  rd : t.rd = s.rd
  cda : t.cda = s.cda
  cdb : t.cdb = s.cdb

theorem State.streamKept.trans {s t u : State} (h : s.streamKept t) (g : t.streamKept u) : s.streamKept u :=
  ⟨g.ulp.trans h.ulp, g.rd.trans h.rd, g.cda.trans h.cda, g.cdb.trans h.cdb⟩

theorem State.streamKept.cd {s t : State} (h : s.streamKept t) : t.cd = s.cd :=
  State.cd_congr (congrArg Rd.activeB h.rd) h.cda h.cdb

/-- Entries of losses leave the stream and the registers. -/
theorem State.lossEntries_keeps (d : Die) (cause n : Nat) (s : State) :
    s.streamKept (s.lossEntries d cause n) ∧ (s.lossEntries d cause n).regs = s.regs := by
  induction n generalizing s with
  | zero => exact ⟨⟨rfl, rfl, rfl, rfl⟩, rfl⟩
  | succ n ih =>
    obtain ⟨h, hr⟩ := ih (s.lossEntry d (lossClass cause) cause)
    have h1 : s.streamKept (s.lossEntry d (lossClass cause) cause) :=
      ⟨State.lossEntry_ulp _ _ _ _, State.lossEntry_rd _ _ _ _, State.lossEntry_cda _ _ _ _, State.lossEntry_cdb _ _ _ _⟩
    exact ⟨h1.trans h, hr.trans (State.lossEntry_regs _ _ _ _)⟩

/-- A count under a selector, with its event, leaves the stream and every register of the map. -/
theorem State.countAt_eventAt_keeps (s : State) (b i top n k : Nat) (bs : List Nat) :
    s.streamKept ((s.countAt (instKey b i) top n).eventAt k bs) ∧
      s.sameMap ((s.countAt (instKey b i) top n).eventAt k bs) := by
  refine ⟨?_, fun a ha => ?_⟩
  · exact ⟨(State.eventAt_ulp _ _ _).trans (State.countAt_ulp _ _ _ _),
      (State.eventAt_rd _ _ _).trans (State.countAt_rd _ _ _ _), (State.eventAt_cda _ _ _).trans (State.countAt_cda _ _ _ _),
      (State.eventAt_cdb _ _ _).trans (State.countAt_cdb _ _ _ _)⟩
  · unfold State.reg
    rw [State.phys_eventAt, State.regAt_eventAt, State.phys_countAt, State.regAt_countAt_ne _ (s.phys_ne_instKey ha _ _)]

/-- Loss records that are counted leave the stream and every register of the map. -/
theorem State.errLosses_keeps (s : State) (d : Die) (cause n : Nat) :
    s.streamKept (s.errLosses d cause n) ∧ s.sameMap (s.errLosses d cause n) := by
  unfold State.errLosses
  split_ifs
  · exact ⟨⟨rfl, rfl, rfl, rfl⟩, fun _ _ => rfl⟩
  · obtain ⟨h1, h2⟩ := s.countAt_eventAt_keeps (errReg d Reg.ERR_LOSS) cause 0xFFFFFF n (errReg d Reg.ERR_EVT) [5]
    obtain ⟨h3, h4⟩ := State.lossEntries_keeps d cause n _
    exact ⟨h1.trans h3, h2.trans (State.sameMap_of_regs h4 h3.rd)⟩

/-- The block with which the HBD ends slice m joins those that wait, unless the slice's last block has gone (R325). -/
theorem State.endFirst_spec (s : State) :
    s.endFirst.ulp.wait = (if s.rd.bmLast then s.ulp.wait else s.ulp.wait ++ [s.closingBlock s.rd.m s.rd.bm
        (((s.rd.hdrs.find? (fun h => h.1 == s.rd.m)).map (fun h => bits h.2 23 16)).getD 0) 11]) ∧
      s.endFirst.rd = s.rd ∧ s.endFirst.cd = s.cd ∧ s.sameMap s.endFirst := by
  unfold State.endFirst
  extract_lets mask b r t
  obtain ⟨h, h4⟩ := t.errLosses_keeps .hbd 11 b.payload.length
  rw [h.cd, h.ulp, h.rd]
  have ht : s.sameMap t := by unfold t; split_ifs <;> exact fun _ _ => rfl
  refine ⟨?_, ?_, ?_, ht.trans h4⟩ <;> unfold t <;> split_ifs <;> rfl

/-- A closing block depends on the generation and on the module's source alone. -/
theorem State.closingBlock_congr {s t : State} (hg : t.rd.gen = s.rd.gen) (hs : t.source = s.source) (n i k c : Nat) :
    t.closingBlock n i k c = s.closingBlock n i k c := by
  unfold State.closingBlock
  rw [hg, hs]

/-- The source of a module stands where the stored words and the active CD do. -/
theorem State.source_congr {s t : State} (hr : t.regs = s.regs) (hd : t.rd.activeB = s.rd.activeB) :
    t.source = s.source := by
  unfold State.source State.role State.fld
  rw [State.reg_congr hr hd]

/-- A slice that a differing block cuts (R325): the rest of it will be discarded, and a closing block joins those that wait. -/
theorem State.cutFirst_endFirst_spec (s : State) :
    s.cutFirst.endFirst.cd = s.cd ∧ s.cutFirst.endFirst.rd.cut = some s.rd.m ∧
      s.sameMap s.cutFirst.endFirst ∧
      s.cutFirst.endFirst.ulp.wait = (if s.rd.bmLast then s.ulp.wait else s.ulp.wait ++ [s.closingBlock s.rd.m s.rd.bm
        (((s.rd.hdrs.find? (fun h => h.1 == s.rd.m)).map (fun h => bits h.2 23 16)).getD 0) 11]) := by
  obtain ⟨hw, hd, hc, hr⟩ := s.cutFirst.endFirst_spec
  have hb := State.closingBlock_congr (s := s) (t := s.cutFirst) rfl (State.source_congr rfl rfl)
  refine ⟨hc, congrArg Rd.cut hd, hr, ?_⟩
  rw [hw, hb]
  rfl

/-- What the HBD holds once the last block of a cut slice has come. -/
def State.cutOver (s : State) (b : Block) : State :=
  if b.endsSlice then { s with rd := { s.rd with cut := none, overlap := false } } else s

/-- The end of a cut slice concerns the cut and the overlap alone. -/
theorem State.cutOver_spec (s : State) (b : Block) :
    (s.cutOver b).cd = s.cd ∧ (s.cutOver b).ulp = s.ulp ∧ (∀ a, (s.cutOver b).reg a = s.reg a) ∧
      (b.endsSlice = false → (s.cutOver b).rd = s.rd) ∧
      (b.endsSlice = true → (s.cutOver b).rd.cut = none ∧ (s.cutOver b).rd.overlap = false) := by
  unfold State.cutOver
  cases b.endsSlice
  · exact ⟨rfl, rfl, fun _ => rfl, fun _ => rfl, by simp⟩
  · exact ⟨rfl, rfl, fun _ => rfl, by simp, fun _ => ⟨rfl, rfl⟩⟩

/-! ### What happens to a block -/

/-- What the HBD holds when it has taken the next block from the active CD. -/
def State.taking (s : State) (rest : List Block) : State := s.setCd { s.cd with released := rest }

@[simp] theorem State.taking_rd (s : State) (rest : List Block) : (s.taking rest).rd = s.rd := State.setCd_rd _ _
@[simp] theorem State.taking_ulp (s : State) (rest : List Block) : (s.taking rest).ulp = s.ulp := State.setCd_ulp _ _
@[simp] theorem State.taking_regs (s : State) (rest : List Block) : (s.taking rest).regs = s.regs := State.setCd_regs _ _
@[simp] theorem State.taking_cd (s : State) (rest : List Block) : (s.taking rest).cd = { s.cd with released := rest } :=
  State.cd_setCd _ _

@[simp] theorem State.reg_taking (s : State) (rest : List Block) (a : Nat) : (s.taking rest).reg a = s.reg a :=
  State.reg_congr (by simp) (by simp) a

@[simp] theorem State.role_taking (s : State) (rest : List Block) : (s.taking rest).role = s.role := by
  unfold State.role State.fld
  rw [State.reg_taking]

/-- A block of the overlap, held to the CRC that was kept of its first copy, if one was (R324, R325). -/
def State.overlapBlock (s : State) (b : Block) : Option (Nat × Nat × W32) → State
  | some x =>
    if x.2.2 = b.crc then s.dropBlock b
    else (((s.cutFirst.endFirst.cutOver b).count Reg.RD_DIVERGE_CNT 1).event Reg.RD_EVT [2]).handOver b
  | none => s.passBlock b

section
variable {s : State} {b : Block} {rest : List Block} (hr : s.cd.released = b :: rest)
include hr

/-- The step of the HBD for a block, by its four branches (R30, R324, R325). -/
theorem execHbdBlockReceive_cons : exec .hbdBlockReceive s = .next (
    if (s.taking rest).rd.cut = some b.slice then ((s.taking rest).cutOver b).handOver b
    else if (s.taking rest).rd.again > 0 ∧ b.slice = (s.taking rest).rd.m ∧ b.alone then (s.taking rest).oneLess.dropBlock b
    else if (s.taking rest).rd.overlap ∧ b.slice = (s.taking rest).rd.m ∧ b.bidx < (s.taking rest).rd.bm then
      (s.taking rest).overlapBlock b
        ((s.taking rest).rd.crcs.find? (fun (y : Nat × Nat × W32) => y.1 == b.slice && y.2.1 == b.bidx))
    else (s.taking rest).passBlock b) := by
  show execHbdBlockReceive s = _
  unfold execHbdBlockReceive
  rw [hr]
  rfl

variable (hc : s.rd.cut ≠ some b.slice)
include hc

/-- A block that no switch-over concerns is passed on. -/
theorem execHbdBlockReceive_pass (ha : s.rd.again = 0 ∨ b.slice ≠ s.rd.m ∨ b.alone = false)
    (ho : s.rd.overlap = false ∨ b.slice ≠ s.rd.m ∨ s.rd.bm ≤ b.bidx) :
    exec .hbdBlockReceive s = .next ((s.taking rest).passBlock b) := by
  have h1 : ¬(s.rd.again > 0 ∧ b.slice = s.rd.m ∧ b.alone = true) := by
    rintro ⟨x, y, z⟩
    rcases ha with h | h | h
    · omega
    · exact h y
    · simp [h] at z
  have h2 : ¬(s.rd.overlap = true ∧ b.slice = s.rd.m ∧ b.bidx < s.rd.bm) := by
    rintro ⟨x, y, z⟩
    rcases ho with h | h | h
    · simp [h] at x
    · exact h y
    · omega
  rw [execHbdBlockReceive_cons hr, State.taking_rd, if_neg hc, if_neg h1, if_neg h2]

/-- A block that had stood alone behind the restart slice already is counted and dropped (R30). -/
theorem execHbdBlockReceive_again (ha : 0 < s.rd.again) (hm : b.slice = s.rd.m) (hb : b.alone = true) :
    exec .hbdBlockReceive s = .next ((s.taking rest).oneLess.dropBlock b) := by
  rw [execHbdBlockReceive_cons hr, State.taking_rd, if_neg hc, if_pos ⟨ha, hm, hb⟩]

/-- A block of the overlap is held to the CRC kept of its first copy (R324). -/
theorem execHbdBlockReceive_overlap (ha : s.rd.again = 0 ∨ b.alone = false) (ho : s.rd.overlap = true)
    (hm : b.slice = s.rd.m) (hb : b.bidx < s.rd.bm) : exec .hbdBlockReceive s = .next ((s.taking rest).overlapBlock b
      (s.rd.crcs.find? (fun y => y.1 == b.slice && y.2.1 == b.bidx))) := by
  have h1 : ¬(s.rd.again > 0 ∧ b.slice = s.rd.m ∧ b.alone = true) := by
    rintro ⟨y, -, z⟩
    rcases ha with h | h
    · omega
    · simp [h] at z
  rw [execHbdBlockReceive_cons hr, State.taking_rd, if_neg hc, if_neg h1, if_pos ⟨ho, hm, hb⟩]

end

/-! ### The statement -/

/-- Settles O42: each of the four branches of the HBD's step, read through what taking, passing on, counting and cutting do. -/
theorem blocksReachTheReplayBuffer : Obligations.BlocksReachTheReplayBuffer := by
  unfold Obligations.BlocksReachTheReplayBuffer
  intro b rest s hr hc
  refine ⟨fun ha ho hl => ?_, fun ha hm hb => ?_, fun x ha ho hm hb hx => ⟨fun he => ?_, fun he => ?_⟩⟩
  · refine ⟨_, execHbdBlockReceive_pass hr hc ha ho, ?_⟩
    obtain ⟨h1, h2, h3, h4⟩ := (s.taking rest).passBlock_spec (by simpa using hl) b
    rw [h1, h2, h3]
    refine ⟨by simp, by simp, ?_, h4, fun he => ?_, fun he => ?_⟩
    · split <;> simp
    · simp [he]
    · simp [he]
  · exact ⟨_, execHbdBlockReceive_again hr hc ha hm hb, by simp, by simp, by simp, State.counts_dropBlock (by simp) b⟩
  · have hexec := execHbdBlockReceive_overlap hr hc ha ho hm hb
    rw [hx, State.overlapBlock, if_pos he] at hexec
    exact ⟨_, hexec, by simp, by simp, State.counts_dropBlock (by simp) b, by simp⟩
  · have hexec := execHbdBlockReceive_overlap hr hc ha ho hm hb
    rw [hx, State.overlapBlock, if_neg he] at hexec
    obtain ⟨h1, h2, h3, h4⟩ := (s.taking rest).cutFirst_endFirst_spec
    obtain ⟨g1, g2, g3, g4, g5⟩ := (s.taking rest).cutFirst.endFirst.cutOver_spec b
    have hw := State.closingBlock_congr (congrArg Rd.gen (s.taking_rd rest)) (State.source_congr (s.taking_regs rest)
      (congrArg Rd.activeB (s.taking_rd rest)))
    have hshow := State.shows_event (((s.taking rest).cutFirst.endFirst.cutOver b).count Reg.RD_DIVERGE_CNT 1) Reg.RD_EVT
      (b := 2) (by decide)
    refine ⟨_, hexec, ?_, fun hl => ?_, fun hl => ?_, ?_, hshow.congr (State.handOver_sts _ _) (State.handOver_rd _ _), ?_⟩
    · simp [g1, h1]
    · simp [g4 hl, h2, hm]
    · simpa using g5 hl
    · have hc := State.counts_count ((g3 _).trans ((h3 Reg.RD_DIVERGE_CNT (by decide)).trans (s.reg_taking rest _))) 1
      exact hc.congr (by simp)
    · simp [g2, h4, hw, hm]

end Sys2Proof.Machine
end

section
/-! O40: what the registers of the map, lanes and peers read as where counters of lanes, lanes or peers have been written. -/

namespace Sys2Proof.Machine

/-! ### The registers of the map -/

theorem State.sameMap_setLane (s : State) (n : Nat) (l : LaneSt) : s.sameMap (s.setLane n l) :=
  State.sameMap_of_regs (s.setLane_regs n l) (s.setLane_rd n l)

theorem State.sameMap_countLane (s : State) (b n k : Nat) : s.sameMap (s.countLane b n k) := by
  intro a ha
  unfold State.reg State.countLane
  rw [State.phys_countAt, State.regAt_countAt_ne _ (s.phys_ne_instKey ha _ _)]

theorem State.sameMap.fld {s t : State} (h : s.sameMap t) {a : Nat} (ha : a < 0x1000000) (hi lo : Nat) :
    t.fld a hi lo = s.fld a hi lo := by
  unfold State.fld
  rw [h a ha]

theorem State.sameMap.role {s t : State} (h : s.sameMap t) : t.role = s.role := by
  unfold State.role
  rw [h.fld (by decide)]

theorem laneCfg_lt (n : Lane) : laneCfg n < 0x1000000 := by
  have hn := n.isLt
  have hc : Reg.LN_CFG < 0x100000 := by decide
  show Reg.LN_CFG + 0x100 * n.val < _
  omega

theorem State.sameMap.laneRole {s t : State} (h : s.sameMap t) (n : Lane) : t.laneRole n = s.laneRole n := by
  unfold State.laneRole
  rw [h.fld (laneCfg_lt n)]

/-- The source that the image assigns to a lane (R269). -/
theorem State.sameMap.laneSource {s t : State} (h : s.sameMap t) (n : Lane) :
    t.fld (laneCfg n) 26 24 = s.fld (laneCfg n) 26 24 := h.fld (laneCfg_lt n) 26 24

/-! ### Lanes and peers -/

@[simp] theorem State.lane_countLane (s : State) (b n k m : Nat) : (s.countLane b n k).lane m = s.lane m := by
  unfold State.lane
  rw [State.countLane_lanes]

@[simp] theorem State.lane_count (s : State) (a k m : Nat) : (s.count a k).lane m = s.lane m := by
  unfold State.lane
  rw [State.count_lanes]

@[simp] theorem State.lane_event (s : State) (a : Nat) (bs : List Nat) (m : Nat) : (s.event a bs).lane m = s.lane m := by
  unfold State.lane
  rw [State.event_lanes]

@[simp] theorem State.lane_setPeer (s : State) (i m : Nat) (p : Peer) : (s.setPeer i p).lane m = s.lane m := rfl

/-- The receive side of a source stands where the link does. -/
theorem State.peer_congr {s t : State} (h : t.ulp = s.ulp) (i : Nat) : t.peer i = s.peer i := by
  unfold State.peer
  rw [h]

@[simp] theorem State.peer_setLane (s : State) (n i : Nat) (l : LaneSt) : (s.setLane n l).peer i = s.peer i := rfl

@[simp] theorem State.peer_countLane (s : State) (b n k i : Nat) : (s.countLane b n k).peer i = s.peer i :=
  State.peer_congr (s.countLane_ulp b n k) i

@[simp] theorem State.peer_count (s : State) (a k i : Nat) : (s.count a k).peer i = s.peer i :=
  State.peer_congr (s.count_ulp a k) i

@[simp] theorem State.peer_event (s : State) (a : Nat) (bs : List Nat) (i : Nat) : (s.event a bs).peer i = s.peer i :=
  State.peer_congr (s.event_ulp a bs) i

/-- A source reads as written, the others as before. -/
@[simp] theorem State.peer_setPeer (s : State) (i j : Nat) (p : Peer) :
    (s.setPeer i p).peer j = if j = i then p else s.peer j := by
  unfold State.peer State.setPeer
  simp

/-! ### A frame that a lane lacks -/

@[simp] theorem State.lacksFrame_lanes (s : State) (n : Nat) : (s.lacksFrame n).lanes = s.lanes := by
  unfold State.lacksFrame
  split_ifs <;> rfl

@[simp] theorem State.lacksFrame_regs (s : State) (n : Nat) : (s.lacksFrame n).regs = s.regs := by
  unfold State.lacksFrame
  split_ifs <;> rfl

@[simp] theorem State.lacksFrame_rd (s : State) (n : Nat) : (s.lacksFrame n).rd = s.rd := by
  unfold State.lacksFrame
  split_ifs <;> rfl

@[simp] theorem State.lane_lacksFrame (s : State) (n m : Nat) : (s.lacksFrame n).lane m = s.lane m := by
  unfold State.lane
  rw [State.lacksFrame_lanes]

/-- No source changes but in what it lacks. -/
theorem State.peer_lacksFrame (s : State) (n i : Nat) :
    (s.lacksFrame n).peer i = { s.peer i with lacks := ((s.lacksFrame n).peer i).lacks } := by
  unfold State.lacksFrame
  split_ifs
  · by_cases h : i = s.fld (laneCfg n) 26 24
    · subst h
      simp [State.peer]
    · simp [State.peer, h]
  · rfl

/-- The set of the lane's source lacks a frame (R300). -/
theorem State.lacks_lacksFrame {s : State} {n : Nat} (hr : s.role = .head) (hl : s.laneRole n = 3) :
    ((s.lacksFrame n).peer (s.fld (laneCfg n) 26 24)).lacks = true := by
  unfold State.lacksFrame
  rw [if_pos ⟨hr, hl⟩]
  simp [State.peer]

end Sys2Proof.Machine
end

section
/-! O40: peers are admitted, turned away and dropped by what their lanes announce (R16, R292). -/

namespace Sys2Proof.Machine

/-! ### The eighth equal announcement -/

/-- A lane on which an announcement has come for the eighth time, its unit counted. -/
def State.announced (s : State) (n : Nat) (u : W64) : State :=
  (s.countLane Reg.LK_LANE_RX_UNITS n 1).setLane n { s.lane n with ann := some (u, 8) }

@[simp] theorem State.lane_announced (s : State) (n : Nat) (u : W64) (m : Nat) :
    (s.announced n u).lane m = if m = n then { s.lane n with ann := some (u, 8) } else s.lane m := by
  unfold State.announced
  simp

@[simp] theorem State.announced_ulp (s : State) (n : Nat) (u : W64) : (s.announced n u).ulp = s.ulp :=
  (State.setLane_ulp _ _ _).trans (State.countLane_ulp _ _ _ _)

theorem State.sameMap_announced (s : State) (n : Nat) (u : W64) : s.sameMap (s.announced n u) :=
  (s.sameMap_countLane _ _ _).trans (State.sameMap_setLane _ _ _)

/-- An intact unit that the lane accepts is counted and acts (R293). -/
theorem State.unit_taken {s : State} {n : Nat} {u : W64} (hu : s.laneUp n = true) (hc : unitCrcOk u = true)
    (go : State → State) : s.unit n u false true go = go (s.countLane Reg.LK_LANE_RX_UNITS n 1) := by
  unfold State.unit
  simp [hu, hc]

section
variable {n : Lane} {u : W64} {k : Nat} {s : State} (hup : s.laneUp n = true) (hcrc : unitCrcOk u = true)
  (hty : bits u 63 60 = 8) (hz : bits u 23 16 = 0) (han : bitOf u 59 = true) (hrole : s.role = .head)
  (hlane : s.laneRole n = 3) (hann : (s.lane n).ann = some (u, k)) (hk : 7 ≤ k)
include hup hcrc hty hz han hrole hlane hann hk

/-- The eighth equal announcement decides on a lane on which nothing is decided, and is held to what was decided before
otherwise (R16, R292). -/
theorem execSlotIdleReceive_eighth : exec (.slotIdleReceive n u) s = .next (
    if !(s.lane n).decided then (s.announced n u).admitPeer n (bits u 58 56) (u.extractLsb' 24 32)
    else if (s.lane n).admitted ∧ (bits u 58 56 ≠ (s.announced n u).fld (laneCfg n) 26 24 ∨
      ((s.announced n u).peer (bits u 58 56)).serial ≠ some (u.extractLsb' 24 32)) then (s.announced n u).laneDrop n
    else s.announced n u) := by
  have hm := s.sameMap_countLane Reg.LK_LANE_RX_UNITS n 1
  have hbad : decide (bits u 63 60 ≠ 8 ∨ bits u 23 16 ≠ 0 ∨ (!bitOf u 59 ∧ bits u 58 24 ≠ 0)) = false := by
    simp [hty, hz, han]
  have hc : min 8 (k + 1) = 8 := by omega
  show execSlotIdleReceive n u s = _
  unfold execSlotIdleReceive
  dsimp only
  rw [hbad, State.unit_taken hup hcrc, if_neg (by rw [hm.role, hm.laneRole]; simp [hrole, hlane])]
  simp only [State.lane_countLane, hann, if_true, hc, han, Bool.not_true, Bool.false_eq_true, if_false, lt_self_iff_false]
  rfl

end

/-! ### Admission -/

/-- The configured source with its serial, new or known, is admitted, and the serial is its own from now on (R16). -/
theorem State.admitPeer_own {s : State} {n src : Nat} {serial : W32} (hm : src = s.fld (laneCfg n) 26 24) (h0 : src ≠ 0)
    (hs : (s.peer src).serial = none ∨ (s.peer src).serial = some serial) :
    ((s.admitPeer n src serial).lane n).decided = true ∧ ((s.admitPeer n src serial).lane n).admitted = true ∧
      ((s.admitPeer n src serial).peer src).serial = some serial := by
  have he : s.admitPeer n src serial = (s.setLane n { s.lane n with decided := true, admitted := true }).setPeer src
      { s.peer src with serial := some serial } := by
    unfold State.admitPeer
    subst hm
    have hd : (s.peer (s.fld (laneCfg n) 26 24)).serial.getD serial = serial := by
      rcases hs with h | h <;> rw [h] <;> rfl
    simp [h0, hd]
  rw [he]
  simp

/-- Another source is turned away (R16). -/
theorem State.admitPeer_other {s : State} {n src : Nat} (hm : src ≠ s.fld (laneCfg n) 26 24) (serial : W32) :
    s.admitPeer n src serial = s.refusePeer n := by
  unfold State.admitPeer
  simp [hm]

/-- What a refusal leaves. -/
theorem State.refusePeer_spec (s : State) (n : Nat) :
    (s.refusePeer n).lane n = { s.lane n with decided := true, admitted := false } ∧
      (s.refusePeer n).shows Reg.RD_EVT 6 ∧
      s.refusePeer n = { s with lanes := (s.refusePeer n).lanes, sts := (s.refusePeer n).sts } := by
  refine ⟨?_, State.shows_event _ _ (by decide), rfl⟩
  unfold State.refusePeer
  rw [State.lane_event, State.lane_setLane, if_pos rfl]

theorem State.refusePeer_ulp (s : State) (n : Nat) : (s.refusePeer n).ulp = s.ulp :=
  (State.event_ulp _ _ _).trans (State.setLane_ulp _ _ _)

/-! ### A lane that drops -/

/-- What an UP lane that drops forgets of its far end (R282, R292). -/
theorem State.lane_laneDrop (s : State) (n : Nat) :
    ((s.laneDrop n).lane n).st = 2 ∧ ((s.laneDrop n).lane n).admitted = false ∧
      ((s.laneDrop n).lane n).decided = false ∧ ((s.laneDrop n).lane n).block = false ∧
      ((s.laneDrop n).lane n).rx.frame = [] := by
  unfold State.laneDrop
  rw [State.lane_countLane, State.lane_setLane, if_pos rfl]
  exact ⟨rfl, rfl, rfl, rfl, rfl⟩

/-- A frame that an UP lane was receiving when it dropped is lacking (R300). -/
theorem State.lacks_laneDrop {s : State} {n : Nat} (hu : s.laneUp n = true) (hr : s.role = .head) (hl : s.laneRole n = 3)
    (hf : (s.lane n).rx.frame ≠ []) : ((s.laneDrop n).peer (s.fld (laneCfg n) 26 24)).lacks = true := by
  have hst : (s.lane n).st = 5 := by simpa [State.laneUp] using hu
  unfold State.laneDrop
  rw [State.peer_countLane, State.peer_setLane]
  unfold State.framesCut
  rw [if_pos hst, if_neg hf]
  exact State.lacks_lacksFrame hr hl

end Sys2Proof.Machine
end

section
/-! O40: a DATA frame is received block by block, and judged at its TAIL (R289 to R296). -/

namespace Sys2Proof.Machine

/-! ### A block in its slot -/

/-- A lane whose receiver stands behind one more valid block (R282, R289). -/
def State.slotPassed (s : State) (n : Nat) : State :=
  s.setLane n { s.lane n with rx := { (s.lane n).rx with
    slot := ((s.lane n).rx.slot + 1) % 31, headers := lastN 64 ((s.lane n).rx.headers ++ [false]) } }

/-- A block with a valid sync header in a slot of frame blocks goes on to its frame (R289). -/
theorem State.rxBlock_valid {s : State} {n : Nat} {b : LineBlock} (hu : s.laneUp n = true) (hb : b.sync = 1 ∨ b.sync = 2)
    (hr : b.reserved = false) (mark : State → W64 → W64 → State) : s.rxBlock n b mark = (s.slotPassed n).rxWord n b mark := by
  have hbad : (b.sync == 0 || b.sync == 3) = false := by rcases hb with hb | hb <;> rw [hb] <;> decide
  unfold State.rxBlock
  rw [hu, if_neg (by decide)]
  dsimp only
  rw [hbad, hr, if_neg (by decide), if_neg (by decide)]
  rfl

/-! ### An open frame -/

/-- From `s` to `t` lane `n` has received the words `ws` of a frame, and nothing else has changed. -/
structure State.Receiving (s t : State) (n : Nat) (ws : List W64) : Prop where
  same : t = { s with lanes := t.lanes }
  lane : t.lane n = { s.lane n with rx := (t.lane n).rx }
  others : ∀ j, j ≠ n → t.lane j = s.lane j
  frame : (t.lane n).rx.frame = ws

section
variable {s t : State} {n : Nat} {ws : List W64}

theorem State.receiving_self (h : (s.lane n).rx.frame = ws) : s.Receiving s n ws := ⟨rfl, rfl, fun _ _ => rfl, h⟩

variable (h : s.Receiving t n ws)
include h

/-- The receiver of the lane may change. -/
theorem State.Receiving.setRx (r : LineRx) : s.Receiving (t.setLane n { t.lane n with rx := r }) n r.frame where
  same := by
    unfold State.setLane
    rw [h.same]
  lane := by
    rw [State.lane_setLane, if_pos rfl, h.lane]
  others j hj := by rw [State.lane_setLane, if_neg hj, h.others j hj]
  frame := by rw [State.lane_setLane, if_pos rfl]

theorem State.Receiving.regs : t.regs = s.regs := by rw [h.same]
theorem State.Receiving.rd : t.rd = s.rd := by rw [h.same]
theorem State.Receiving.ulp : t.ulp = s.ulp := by rw [h.same]
theorem State.Receiving.sameMap : s.sameMap t := State.sameMap_of_regs h.regs h.rd
theorem State.Receiving.peer (i : Nat) : t.peer i = s.peer i := State.peer_congr h.ulp i

theorem State.Receiving.laneUp (hu : s.laneUp n = true) : t.laneUp n = true := by
  unfold State.laneUp at *
  rw [h.lane]
  exact hu

/-- The slot of a valid block has passed. -/
theorem State.Receiving.slotPassed : s.Receiving (t.slotPassed n) n ws := by
  have g := h.setRx { (t.lane n).rx with
    slot := ((t.lane n).rx.slot + 1) % 31, headers := lastN 64 ((t.lane n).rx.headers ++ [false]) }
  rw [← h.frame]
  exact g

/-! ### The blocks of a frame -/

variable (hu : s.laneUp n = true) (mark : State → W64 → W64 → State)
include hu

/-- The head of a DATA frame opens it. -/
theorem State.Receiving.rxBlock_head (hw : ws = []) {w : W64} (hty : bits w 63 60 = 1) (hok : headOk w = true) :
    s.Receiving (t.rxBlock n ⟨2, w, false⟩ mark) n [w] := by
  have g := h.slotPassed
  have hf : ((t.slotPassed n).lane n).rx.frame = [] := g.frame.trans hw
  rw [State.rxBlock_valid (h.laneUp hu) (Or.inr rfl) rfl]
  unfold State.rxWord
  dsimp only
  rw [if_neg (by decide), hty, if_neg (by decide), if_neg (by decide), hok, if_pos rfl, hf, if_pos rfl]
  exact g.setRx { ((t.slotPassed n).lane n).rx with frame := [w], skip := false }

/-- A body block joins the open frame while that has not its full length. -/
theorem State.Receiving.rxBlock_body {head : W64} {pre : List W64} (hw : ws = head :: pre)
    (hl : pre.length < bits head 59 48) (w : W64) : s.Receiving (t.rxBlock n ⟨1, w, false⟩ mark) n (head :: pre ++ [w]) := by
  have g := h.slotPassed
  have hf : ((t.slotPassed n).lane n).rx.frame = head :: pre := g.frame.trans hw
  rw [State.rxBlock_valid (h.laneUp hu) (Or.inl rfl) rfl]
  unfold State.rxWord
  dsimp only
  rw [if_pos rfl, hf, if_neg (by simp), if_pos (by simpa using hl)]
  exact g.setRx { ((t.slotPassed n).lane n).rx with frame := head :: pre ++ [w] }

end

/-- The body of a frame joins it block by block. -/
theorem State.Receiving.foldl_body {s : State} {n : Nat} (hu : s.laneUp n = true) (mark : State → W64 → W64 → State)
    {head : W64} (body : List W64) {t : State} {pre : List W64} (h : s.Receiving t n (head :: pre))
    (hl : pre.length + body.length = bits head 59 48) :
    s.Receiving ((body.map (fun w => LineBlock.mk 1 w false)).foldl (fun t b => t.rxBlock n b mark) t) n
      (head :: (pre ++ body)) := by
  induction body generalizing t pre with
  | nil => simpa using h
  | cons w body ih =>
    rw [List.length_cons] at hl
    have hw := h.rxBlock_body hu mark rfl (by omega) w
    have := ih (pre := pre ++ [w]) hw (by simp; omega)
    simpa using this

/-- A whole DATA frame on an UP lane with none open is judged at its TAIL, where nothing but the lane's receiver has moved. -/
theorem execDataFrameReceive_whole {n : Lane} {f : DataFrame} {s : State} (hu : s.laneUp n = true)
    (hf : (s.lane n).rx.frame = []) (hty : bits f.head 63 60 = 1) (hok : headOk f.head = true)
    (hl : f.body.length = bits f.head 59 48) (ht : bits f.tail 63 60 = 6) :
    ∃ u, s.Receiving u n (f.head :: f.body) ∧
      exec (.dataFrameReceive n f.line) s = .next (u.frameWhole n (f.head :: f.body) f.tail State.markFrame) := by
  have h1 := (State.receiving_self hf).rxBlock_head hu State.markFrame rfl hty hok
  have h2 := State.Receiving.foldl_body hu State.markFrame f.body h1 (by simpa using hl)
  have hw := h2.slotPassed.frame
  refine ⟨_, h2.slotPassed, ?_⟩
  show Host.Outcome.next _ = _
  unfold DataFrame.line
  rw [List.foldl_append, List.foldl_cons, List.foldl_cons, List.foldl_nil,
    State.rxBlock_valid (h2.laneUp hu) (Or.inr rfl) rfl]
  unfold State.rxWord
  dsimp only
  rw [if_neg (by decide), ht, if_pos rfl, hw, if_pos (by simp)]
  rfl

/-! ### The judgement at the TAIL -/

section
variable {s : State} {n : Nat} {head tail : W64} {body : List W64} (hl : body.length = bits head 59 48)
  (hz : bits tail 59 32 = 0)
include hl hz

/-- A frame of the right length whose CRC fails is a fault (R293). -/
theorem State.frameWhole_badCrc (hc : bits tail 31 0 ≠ (crcWords (head :: body)).toNat) (mark : State → W64 → W64 → State) :
    s.frameWhole n (head :: body) tail mark = s.frameFault n true := by
  unfold State.frameWhole
  dsimp only
  rw [if_neg (by simp [hl, hz]), if_pos hc]

/-- A DATA frame of the right length and CRC goes on to its source (R291, R295). -/
theorem State.frameWhole_data (hc : bits tail 31 0 = (crcWords (head :: body)).toNat) (hty : bits head 63 60 = 1)
    (mark : State → W64 → W64 → State) : s.frameWhole n (head :: body) tail mark =
      (s.setLane n { s.lane n with rx := { (s.lane n).rx with frame := [] } }).dataWhole n head body := by
  unfold State.frameWhole
  dsimp only
  rw [if_neg (by simp [hl, hz]), if_neg (by simp [hc]), hty]
  rfl

end

/-- An admitted peer lane of a HEAD counts the frame and hands its blocks to its source (R294, R296). -/
theorem State.dataWhole_accepted {s : State} {n : Nat} {head : W64} {body : List W64} {bs : List Block}
    (hb : cutBody body.length (bits head 47 39) body = some bs) (hr : s.role = .head) (hl : s.laneRole n = 3)
    (ha : (s.lane n).admitted = true) : s.dataWhole n head body =
      (s.countLane Reg.LK_LANE_RX_FRAMES n 1).peerFrame (s.fld (laneCfg n) 26 24) (bits head 31 0)
        (bs.map (fun b => (n, b))) := by
  unfold State.dataWhole
  rw [hb]
  dsimp only
  rw [if_neg (by simp [hr, hl, ha])]

/-! ### A frame whose CRC is wrong -/

/-- A frame with a failed CRC is discarded and counted, and a HEAD notes that its set lacks one (R293, R300). -/
theorem State.frameFault_crc {s : State} {n : Nat} (hf : (s.lane n).rx.frame ≠ []) :
    s.counts (s.frameFault n true) Reg.LK_FRAME_CRC_CNT 1 ∧ (s.frameFault n true).shows Reg.LK_EVT 3 ∧
      (∀ i, (s.frameFault n true).peer i = (s.lacksFrame n).peer i) ∧
      ((s.frameFault n true).lane n = { s.lane n with rx := ((s.frameFault n true).lane n).rx } ∧
        ((s.frameFault n true).lane n).rx.frame = [] ∧ ∀ j, j ≠ n → (s.frameFault n true).lane j = s.lane j) := by
  have he : s.frameFault n true = ((((s.lacksFrame n).setLane n { s.lane n with rx := { (s.lane n).rx with
      frame := [], skip := !true } }).count Reg.LK_FRAME_CRC_CNT 1).event Reg.LK_EVT [3]).countLane Reg.LK_LANE_ERR n 1 := by
    unfold State.frameFault
    rw [if_neg hf]
    rfl
  rw [he]
  refine ⟨?_, ?_, ?_, ?_, ?_, ?_⟩
  · have hr : s.sameMap ((s.lacksFrame n).setLane n
        { s.lane n with rx := { (s.lane n).rx with frame := [], skip := !true } }) :=
      (State.sameMap_of_regs (s.lacksFrame_regs n) (s.lacksFrame_rd n)).trans (State.sameMap_setLane _ _ _)
    exact (State.counts_count (hr _ (by decide)) 1).congr
      ((State.sameMap_countLane _ _ _ _ _ (by decide)).trans (State.reg_event _ _ _ _))
  · exact (State.shows_event _ _ (by decide)).congr (State.countLane_sts _ _ _ _) (State.countLane_rd _ _ _ _)
  · simp
  · simp
  · simp
  · intro j hj
    simp [hj]

/-! ### A frame that is right -/

/-- A source that has no frame waiting delivers the one that it expects. -/
theorem Peer.deliver_next (p : Peer) (bs : List (Nat × Block)) :
    ({ p with waiting := [(p.next, bs)] } : Peer).deliver 1 = { p with
      waiting := [], next := (p.next + 1) % 2 ^ 32, blocks := p.blocks ++ bs,
      log := (p.log ++ [(p.next, newestSlice bs)]).drop (p.log.length + 1 - 65536), asked := false, passed := [] } := by
  simp [Peer.deliver]

/-- The frame that a source expects passes its blocks to it, and it expects the next one (R296). -/
theorem State.peerFrame_next {s : State} {src fseq : Nat} (hn : (s.peer src).next = fseq) (hw : (s.peer src).waiting = [])
    (bs : List (Nat × Block)) :
    ((s.peerFrame src fseq bs).peer src).blocks = (s.peer src).blocks ++ bs ∧
      ((s.peerFrame src fseq bs).peer src).next = (fseq + 1) % 2 ^ 32 ∧
      ((s.peerFrame src fseq bs).peer src).waiting = [] ∧
      (∀ i, i ≠ src → (s.peerFrame src fseq bs).peer i = s.peer i) ∧ (s.peerFrame src fseq bs).regs = s.regs := by
  subst hn
  have h0 : ¬ sdiff (s.peer src).next (s.peer src).next < 0 := by rw [sdiff_eq]; split <;> omega
  have he : s.peerFrame src (s.peer src).next bs = (s.setPeer src { s.peer src with
      waiting := [((s.peer src).next, bs)] }).setPeer src (({ s.peer src with
      waiting := [((s.peer src).next, bs)] } : Peer).deliver 1) := by
    unfold State.peerFrame
    rw [if_neg h0, hw]
    simp
  rw [he, Peer.deliver_next]
  refine ⟨by simp, by simp, by simp, fun i hi => by simp [hi], rfl⟩

/-! ### The two frames of O40 -/

/-- The LEN, NBLK and zero fields of a DATA head (R295). -/
theorem headOk_data {h : W64} (hty : bits h 63 60 = 1) (hz : bits h 38 32 = 0) (h3 : 3 ≤ bits h 59 48)
    (h4 : bits h 59 48 ≤ 1024) (h1 : 1 ≤ bits h 47 39) (h2 : bits h 47 39 ≤ 341) : headOk h = true := by
  unfold headOk
  rw [hty]
  simp [hz, h1, h2, h3, h4]

section
variable {n : Lane} {f : DataFrame} {s : State} (hu : s.laneUp n = true) (hf : (s.lane n).rx.frame = [])
  (hty : bits f.head 63 60 = 1) (hok : headOk f.head = true) (hl : f.body.length = bits f.head 59 48)
  (ht : bits f.tail 63 60 = 6) (hz : bits f.tail 59 32 = 0)
include hu hf hty hok hl ht hz

/-- A DATA frame with a wrong CRC is only counted, and a HEAD notes that the set lacks one (R293, R300). -/
theorem execDataFrameReceive_badCrc (hc : bits f.tail 31 0 ≠ (crcWords (f.head :: f.body)).toNat) :
    ∃ t, exec (.dataFrameReceive n f.line) s = .next t ∧
      s.counts t Reg.LK_FRAME_CRC_CNT 1 ∧ t.shows Reg.LK_EVT 3 ∧
      (∀ i, t.peer i = { s.peer i with lacks := (t.peer i).lacks }) ∧
      (s.role = .head → s.laneRole n = 3 → (t.peer (s.fld (laneCfg n) 26 24)).lacks = true) ∧
      t.lane n = { s.lane n with rx := (t.lane n).rx } ∧ (t.lane n).rx.frame = [] ∧
      ∀ j, j ≠ n.val → t.lane j = s.lane j := by
  obtain ⟨u, g, e⟩ := execDataFrameReceive_whole hu hf hty hok hl ht
  rw [State.frameWhole_badCrc hl hz hc] at e
  obtain ⟨h1, h2, h3, h4, h5, h6⟩ := State.frameFault_crc (s := u) (n := n) (by rw [g.frame]; simp)
  refine ⟨_, e, ?_, h2, fun i => ?_, fun hr hp => ?_, ?_, h5, fun j hj => (h6 j hj).trans (g.others j hj)⟩
  · exact h1.since (g.sameMap _ (by decide))
  · have := u.peer_lacksFrame n i
    rw [g.peer] at this
    rw [h3]
    exact this
  · rw [h3, ← g.sameMap.laneSource]
    exact State.lacks_lacksFrame (g.sameMap.role.trans hr) ((g.sameMap.laneRole n).trans hp)
  · rw [h4, g.lane]

/-- A right DATA frame with the expected FSEQ, from an admitted peer, passes its blocks to that source (R294, R296). -/
theorem execDataFrameReceive_right {bs : List Block} (hc : bits f.tail 31 0 = (crcWords (f.head :: f.body)).toNat)
    (hb : cutBody f.body.length (bits f.head 47 39) f.body = some bs) (hr : s.role = .head) (hp : s.laneRole n = 3)
    (ha : (s.lane n).admitted = true) (hn : (s.peer (s.fld (laneCfg n) 26 24)).next = bits f.head 31 0)
    (hw : (s.peer (s.fld (laneCfg n) 26 24)).waiting = []) : ∃ t, exec (.dataFrameReceive n f.line) s = .next t ∧
      (t.peer (s.fld (laneCfg n) 26 24)).blocks =
        (s.peer (s.fld (laneCfg n) 26 24)).blocks ++ bs.map (fun b => (n.val, b)) ∧
      (t.peer (s.fld (laneCfg n) 26 24)).next = (bits f.head 31 0 + 1) % 2 ^ 32 ∧
      (t.peer (s.fld (laneCfg n) 26 24)).waiting = [] ∧
      (∀ i, i ≠ s.fld (laneCfg n) 26 24 → t.peer i = s.peer i) ∧
      s.countsAt t (instKey Reg.LK_LANE_RX_FRAMES n) 1 := by
  obtain ⟨u, g, e⟩ := execDataFrameReceive_whole hu hf hty hok hl ht
  have k := g.setRx { (u.lane n).rx with frame := [] }
  rw [State.frameWhole_data hl hz hc hty, State.dataWhole_accepted hb (k.sameMap.role.trans hr)
    ((k.sameMap.laneRole n).trans hp) (by rw [k.lane]; exact ha), k.sameMap.laneSource] at e
  have hpeer := fun i => (State.peer_countLane _ Reg.LK_LANE_RX_FRAMES n 1 i).trans (k.peer i)
  obtain ⟨h1, h2, h3, h4, h5⟩ := State.peerFrame_next ((congrArg Peer.next (hpeer _)).trans hn)
    ((congrArg Peer.waiting (hpeer _)).trans hw)
    (bs.map (fun b => (n.val, b)))
  rw [hpeer] at h1
  refine ⟨_, e, h1, h2, h3, fun i hi => (h4 i hi).trans (hpeer i), ?_⟩
  exact (State.countsAt_countLane (State.regAt_congr k.regs _) 1).congr (State.regAt_congr h5 _)

end

end Sys2Proof.Machine
end

section
/-! O40: what the reserved slots that a frame crosses carry, and what they leave of the link (R289, R294, R296). -/

namespace Sys2Proof

/-- The values of a table may change by a function that keeps the unlisted one. -/
theorem Sparse.get_map_snd {α : Type} {d : α} {f : α → α} (hf : f d = d) (m : Sparse α) (i : Nat) :
    Sparse.get d (m.map (fun e => (e.1, f e.2))) i = f (Sparse.get d m i) := by
  induction m with
  | nil => exact hf.symm
  | cons e m ih =>
    rw [List.map_cons]
    unfold Sparse.get
    split_ifs
    · rfl
    · exact ih

end Sys2Proof

namespace Sys2Proof.Machine

/-! ### What a response read from its queue leaves -/

/-- Registers of different addresses behind selectors have different keys. -/
theorem instKey_ne {a b : Nat} (h : a % 0x1000000 ≠ b % 0x1000000) (i j : Nat) : instKey a i ≠ instKey b j := by
  unfold instKey
  omega

/-- From `s` to `t` exactly `l` has left, and the link, the slots of the lanes and their counts of frames stand. -/
structure State.Sends (s t : State) (l : List Out) : Prop where
  ulp : t.ulp = s.ulp
  out : t.out = s.out ++ l
  slot : ∀ m, (t.lane m).txSlot = (s.lane m).txSlot
  frames : ∀ m, t.regAt (instKey Reg.LK_LANE_TX_FRAMES m) = s.regAt (instKey Reg.LK_LANE_TX_FRAMES m)

theorem State.Sends.trans {s t u : State} {l k : List Out} (h : s.Sends t l) (g : t.Sends u k) : s.Sends u (l ++ k) where
  ulp := g.ulp.trans h.ulp
  out := by rw [g.out, h.out, List.append_assoc]
  slot m := (g.slot m).trans (h.slot m)
  frames m := (g.frames m).trans (h.frames m)

theorem State.sends_nothing {s t : State} (hu : t.ulp = s.ulp) (ho : t.out = s.out) (hl : t.lanes = s.lanes)
    (hr : t.regs = s.regs) : s.Sends t [] where
  ulp := hu
  out := by rw [ho, List.append_nil]
  slot m := by
    unfold State.lane
    rw [hl]
  frames m := State.regAt_congr hr _

theorem State.sends_refl (s : State) : s.Sends s [] := State.sends_nothing rfl rfl rfl rfl

theorem State.sends_setRegAt (s : State) {a : Nat} (h : Reg.LK_LANE_TX_FRAMES % 0x1000000 ≠ a % 0x1000000) (i : Nat)
    (v : W32) : s.Sends (s.setRegAt (instKey a i) v) [] where
  ulp := State.setRegAt_ulp _ _ _
  out := by rw [State.setRegAt_out, List.append_nil]
  slot m := by
    unfold State.lane
    rw [State.setRegAt_lanes]
  frames m := State.regAt_setRegAt_ne _ (instKey_ne h _ _) _

theorem State.sends_countAt (s : State) {a : Nat} (h : Reg.LK_LANE_TX_FRAMES % 0x1000000 ≠ a % 0x1000000) (i top n : Nat) :
    s.Sends (s.countAt (instKey a i) top n) [] := s.sends_setRegAt h _ _

theorem State.sends_eventAt (s : State) (k : Nat) (bs : List Nat) : s.Sends (s.eventAt k bs) [] :=
  State.sends_nothing (s.eventAt_ulp k bs) (s.eventAt_out k bs) (s.eventAt_lanes k bs) (s.eventAt_regs k bs)

theorem State.sends_setLane (s : State) {n : Nat} {l : LaneSt} (h : l.txSlot = (s.lane n).txSlot) :
    s.Sends (s.setLane n l) [] where
  ulp := State.setLane_ulp _ _ _
  out := by rw [State.setLane_out, List.append_nil]
  slot m := by
    rw [State.lane_setLane]
    split_ifs with hm
    · rw [h, hm]
    · rfl
  frames m := State.regAt_setLane _ _ _ _

/-- An entry of a privileged queue wakes POPs, and moves no slot. -/
theorem State.sends_pqPush (s : State) (i : Nat) (w : W64) : s.Sends (s.pqPush i w) [] where
  ulp := State.pqPush_ulp _ _ _
  out := by rw [State.pqPush_out, List.append_nil]
  slot m := by
    have hw : ∀ l, (popWakes i w l).txSlot = l.txSlot := by
      intro l
      unfold popWakes
      split
      · split_ifs <;> rfl
      · rfl
    unfold State.pqPush
    split_ifs
    · rw [State.lane_event]
    · show (Sparse.get LaneSt.off (s.lanes.map (fun e => (e.1, popWakes i w e.2))) m).txSlot = _
      rw [Sparse.get_map_snd rfl, hw]
      rfl
  frames m := State.regAt_congr (State.pqPush_regs _ _ _) _

theorem State.sends_errEntry (s : State) (d : Die) (a b c e : Nat) : s.Sends (s.errEntry d a b c e) [] :=
  s.sends_pqPush _ _

theorem State.sends_memClean (s : State) (d : Die) (m i : Nat) : s.Sends (s.memClean d m i) [] :=
  State.sends_nothing rfl rfl rfl rfl

/-- A word of MEM 0x03 holds an entry of an event queue, or none. -/
theorem State.setMemData_entry (s : State) (i : Nat) (v : W64) : ∃ q, s.setMemData .hbd 0x03 i v = { s with pq := q } := by
  have e : s.setMemData .hbd 0x03 i v = match s.entryAt i with
    | some p => { s with pq := Machine.setEntry (i / 64) v p s.pq }
    | none => s := rfl
  rw [e]
  cases s.entryAt i with
  | some p => exact ⟨_, rfl⟩
  | none => exact ⟨s.pq, rfl⟩

/-- The word of an entry takes a value with valid check bits. -/
theorem State.sends_putCode (s : State) (i : Nat) (v : W64) : s.Sends (s.putCode .hbd 0x03 i v) [] := by
  obtain ⟨q, hq⟩ := s.setMemData_entry i v
  have h : s.Sends (s.setMemData .hbd 0x03 i v) [] := by
    rw [hq]
    exact State.sends_nothing rfl rfl rfl rfl
  unfold State.putCode
  extract_lets t c
  have ht : s.Sends t [] := h.trans (State.sends_memClean _ _ _ _)
  rw [if_neg (by decide)]
  exact ht.trans (State.sends_nothing rfl rfl rfl rfl)

theorem State.sends_takeRaw (s : State) (i : Nat) : s.Sends (s.takeRaw .hbd 0x03 i) [] := by
  unfold State.takeRaw
  split
  · exact s.sends_putCode _ _
  · exact s.sends_refl

theorem State.sends_correct (s : State) (i : Nat) : s.Sends (s.correct .hbd 0x03 i) [] := by
  unfold State.correct State.countCorr
  exact ((s.sends_takeRaw i).trans (State.sends_countAt _ (by decide) _ _ _)).trans (State.sends_eventAt _ _ _)

theorem State.sends_countUncorr (s : State) (i cause : Nat) (evt : List Nat) :
    s.Sends (s.countUncorr .hbd 0x03 i cause evt) [] := by
  unfold State.countUncorr
  extract_lets s1 s2
  have h : s.Sends s2 [] := ((s.sends_countAt (by decide) _ _ _).trans
    (State.sends_setRegAt _ (by decide) _ _)).trans (State.sends_eventAt _ _ _)
  rw [if_neg (by decide)]
  exact h.trans (State.sends_errEntry _ _ _ _ _ _)

/-- The word of an entry is read (R334). -/
theorem State.sends_memRead (s : State) (i : Nat) : s.Sends (s.memRead .hbd 0x03 i).2 [] := by
  unfold State.memRead State.memReadC
  split
  · exact s.sends_takeRaw i
  · exact s.sends_correct i
  · have h : s.Sends (s.poison .hbd 0x03 i) [] := State.sends_nothing rfl rfl rfl rfl
    exact h.trans (State.sends_countUncorr _ _ _ _)

/-- The response that goes next is read (R347). -/
theorem State.sends_readResp (s : State) (n : Nat) (r : Resp) : s.Sends (s.readResp n r).2 [] := by
  unfold State.readResp
  extract_lets m r' l t
  have h : m.2.Sends t [] := State.sends_setLane _ rfl
  exact ((s.sends_memRead _).trans h).trans (State.sends_nothing rfl rfl rfl rfl)

/-- The first response of a lane leaves its queue. -/
theorem State.sends_dropFirst (s : State) (n : Nat) : s.Sends (s.dropFirst n) [] := by
  unfold State.dropFirst State.pqTaken
  dsimp only
  split_ifs <;> exact State.sends_nothing rfl rfl rfl rfl

/-! ### Reserved slots -/

/-- A unit leaves a lane. -/
theorem State.sends_unitOut (s : State) (n : Nat) (u : W64) : s.Sends (s.unitOut n u) [.unit n u] where
  ulp := State.countLane_ulp _ _ _ _
  out := State.countLane_out _ _ _ _
  slot m := by
    unfold State.unitOut
    rw [State.lane_countLane]
    rfl
  frames m := State.regAt_countAt_ne _ (instKey_ne (by decide) _ _) _ _

theorem State.sends_sendIdles (s : State) (n k : Nat) :
    s.Sends (s.sendIdles n k) (List.replicate k (.unit n (s.slotIdle n))) := ⟨rfl, rfl, fun _ => rfl, fun _ => rfl⟩

/-- Exactly one unit leaves in a reserved slot (R289, R294). -/
theorem State.sends_slotUnit (s : State) (n : Nat) : ∃ u, s.Sends (s.slotUnit n) [.unit n u] := by
  unfold State.slotUnit
  split
  · next u hu =>
    have h : s.Sends (s.setLane n { s.lane n with half := none }) [] := State.sends_setLane _ rfl
    exact ⟨u, (h.trans (State.sends_dropFirst _ n)).trans (State.sends_unitOut _ n u)⟩
  · split
    · next r hr =>
      split_ifs
      · extract_lets x us
        have h : x.2.Sends (x.2.setLane n { x.2.lane n with half := some us.2 }) [] := State.sends_setLane _ rfl
        exact ⟨_, ((s.sends_readResp n r).trans h).trans (State.sends_unitOut _ n us.1)⟩
      · exact ⟨_, s.sends_sendIdles n 1⟩
    · exact ⟨_, s.sends_sendIdles n 1⟩

/-- Exactly one unit leaves in each of several reserved slots. -/
theorem State.sends_slotUnits (n k : Nat) (s : State) :
    ∃ l, s.Sends (State.slotUnits n k s) l ∧ l.length = k ∧ ∀ o, o ∈ l → ∃ u, o = .unit n u := by
  induction k generalizing s with
  | zero => exact ⟨[], s.sends_refl, rfl, by simp⟩
  | succ k ih =>
    obtain ⟨u, hu⟩ := s.sends_slotUnit n
    obtain ⟨l, h, hl, ho⟩ := ih (s.slotUnit n)
    refine ⟨_, hu.trans h, by simp [hl], fun o hm => ?_⟩
    rcases List.mem_cons.1 hm with rfl | hm
    · exact ⟨u, rfl⟩
    · exact ho o hm

/-- With no response under way and none waiting, reserved slots carry SLOT_IDLE (R294). -/
theorem State.slotUnits_idle {n : Nat} (k : Nat) {s : State} (hh : (s.lane n).half = none)
    (hr : s.resp.find? (fun e => e.1 == n) = none) : State.slotUnits n k s = s.sendIdles n k := by
  induction k generalizing s with
  | zero => simp [State.slotUnits, State.sendIdles]
  | succ k ih =>
    have h1 : s.slotUnit n = s.sendIdles n 1 := by
      unfold State.slotUnit
      rw [hh, hr]
    have h2 : (s.sendIdles n 1).slotIdle n = s.slotIdle n := rfl
    unfold State.slotUnits
    rw [h1, ih (s := s.sendIdles n 1) hh hr]
    unfold State.sendIdles at h2 ⊢
    rw [h2]
    simp [List.replicate_succ]

/-! ### A frame leaves its lane -/

/-- A lane that stands at a slot. -/
def State.atSlot (s : State) (n p : Nat) : State := s.setLane n { s.lane n with txSlot := p }

theorem State.lane_atSlot (s : State) (n p : Nat) : (s.atSlot n p).lane n = { s.lane n with txSlot := p } := by
  unfold State.atSlot
  rw [State.lane_setLane, if_pos rfl]

/-- The slots that `k` frame blocks of a lane cross: the units that they carry, and where the lane stands then (R289). -/
theorem State.passSlots_spec (s : State) (n k : Nat) :
    ∃ l, (s.passSlots n k).out = s.out ++ l ∧ l.length = ((s.lane n).txSlot + k) / 31 ∧
      (∀ o, o ∈ l → ∃ u, o = .unit n u) ∧
      ((s.lane n).half = none → s.resp.find? (fun e => e.1 == n) = none →
        ∀ o, o ∈ l → o = .unit n (s.slotIdle n)) ∧
      ((s.passSlots n k).lane n).txSlot = ((s.lane n).txSlot + k) % 31 ∧ (s.passSlots n k).ulp = s.ulp ∧
      ∀ m, (s.passSlots n k).regAt (instKey Reg.LK_LANE_TX_FRAMES m) = s.regAt (instKey Reg.LK_LANE_TX_FRAMES m) := by
  have hlane := s.lane_atSlot n (((s.lane n).txSlot + k) % 31)
  obtain ⟨l, h, hl, ho⟩ := State.sends_slotUnits n (((s.lane n).txSlot + k) / 31) (s.atSlot n (((s.lane n).txSlot + k) % 31))
  refine ⟨l, h.out, hl, ho, fun hh hr o hm => ?_, ?_, h.ulp, fun m => ?_⟩
  · have he := h.out
    rw [State.slotUnits_idle (n := n) _ ((congrArg LaneSt.half hlane).trans hh) hr] at he
    rw [← List.append_cancel_left he] at hm
    exact List.eq_of_mem_replicate hm
  · exact (h.slot n).trans (congrArg LaneSt.txSlot hlane)
  · exact (h.frames m).trans (State.regAt_setLane _ _ _ _)

/-- A frame that has been given to its lane: it has left, and the link holds it as it left (R266, R297). -/
def State.frameOut (s : State) (lane : Nat) (f : Frame) (departs : List Nat) : State :=
  let bs := s.stamp lane departs f.blocks
  let charge := if s.role = .limb ∧ f.paid ≠ s.ulp.genRx then (bs.map Block.nrec).sum else 0
  let g : Frame := { f with lane := lane, blocks := bs, st := 1, paid := s.ulp.genRx }
  { s with
    out := s.out ++ [Out.frame lane f.fseq (dataWords f.fseq bs)],
    ulp := { s.ulp with
      allow := s.ulp.allow - charge,
      held := s.ulp.held.map (fun (x : Frame) => if x.fseq = f.fseq then g else x) } }

/-- Two links are the same but for the totals (R407). -/
def Ulp.sameButTotals (a b : Ulp) : Prop := b = { a with totals := b.totals }

theorem Ulp.sameButTotals.trans {a b c : Ulp} (h : a.sameButTotals b) (g : b.sameButTotals c) : a.sameButTotals c := by
  unfold Ulp.sameButTotals at *
  rw [g, h]

theorem State.sameButTotals_total (s : State) (i n : Nat) : s.ulp.sameButTotals (s.total i n).ulp := rfl
theorem State.total_out (s : State) (i n : Nat) : (s.total i n).out = s.out := rfl
theorem State.total_regs (s : State) (i n : Nat) : (s.total i n).regs = s.regs := rfl
theorem State.lane_total (s : State) (i n m : Nat) : (s.total i n).lane m = s.lane m := rfl

/-- From `s` to `t` a frame has left on a lane, the reserved slots that it crosses carrying units, and the link is that of
`u` but for the totals (R289, R294 to R297). -/
structure State.Transmitted (s t u : State) (lane fseq : Nat) (ws : List W64) : Prop where
  out : ∃ l, t.out = s.out ++ .frame lane fseq ws :: l ∧ l.length = ((s.lane lane).txSlot + ws.length) / 31 ∧
    (∀ o, o ∈ l → ∃ u, o = .unit lane u) ∧
    ((s.lane lane).half = none → s.resp.find? (fun e => e.1 == lane) = none →
      ∀ o, o ∈ l → o = .unit lane (s.slotIdle lane))
  slot : (t.lane lane).txSlot = ((s.lane lane).txSlot + ws.length) % 31
  ulp : u.ulp.sameButTotals t.ulp
  counts : s.countsAt t (instKey Reg.LK_LANE_TX_FRAMES lane) 1

/-- A frame that starts on a lane leaves on it. -/
theorem State.transmitted_sendFrame (s : State) (lane : Nat) (f : Frame) (again : Bool) (departs : List Nat) :
    s.Transmitted (s.sendFrame lane f again departs) (s.frameOut lane f departs) lane f.fseq
      (dataWords f.fseq (s.stamp lane departs f.blocks)) := by
  obtain ⟨l, h1, h2, h3, h4, h5, h6, h7⟩ := (s.frameOut lane f departs).passSlots_spec lane
    (dataWords f.fseq (s.stamp lane departs f.blocks)).length
  unfold State.sendFrame
  extract_lets bs bytes gaps charge g r s1
  have hs : s1 = s.frameOut lane f departs := rfl
  rw [hs]
  refine ⟨⟨l, ?_, h2, h3, h4⟩, ?_, ?_, ?_⟩
  · rw [State.total_out, State.total_out, State.total_out, State.countLane_out, h1]
    exact List.append_assoc _ _ _
  · rw [State.lane_total, State.lane_total, State.lane_total, State.lane_countLane]
    exact h5
  · rw [← h6, ← State.countLane_ulp]
    exact ((State.sameButTotals_total _ _ _).trans (State.sameButTotals_total _ _ _)).trans (State.sameButTotals_total _ _ _)
  · refine (State.countsAt_countLane (h7 lane) 1).congr (State.regAt_congr ?_ _)
    rw [State.total_regs, State.total_regs, State.total_regs]

end Sys2Proof.Machine
end

section
/-! O40: a new frame leaves, and the statement. -/

namespace Sys2Proof.Machine

/-! ### The next new frame -/

/-- The frame that the next blocks make; no generation's credit has been used for it yet (R205, R295). -/
def State.newFrame (s : State) (lane : Nat) (bs : List Block) : Frame := ⟨s.ulp.fseq, lane, bs, 1, s.ulp.genRx + 1⟩

/-- A new frame is held, with its blocks waiting no more, and FSEQ advances (R295, R297). -/
def State.holdNew (s : State) (f : Frame) : State :=
  { s with ulp := { s.ulp with
    wait := s.ulp.wait.drop f.blocks.length, fseq := (s.ulp.fseq + 1) % 2 ^ 32, held := s.ulp.held ++ [f] } }

/-- A clean block at the front of those that wait cuts nothing. -/
theorem State.cutWaiting_clean {s : State} (h : ∀ w, s.ulp.wait.head? = some w → w.unc = false) : s.cutWaiting = s := by
  unfold State.cutWaiting
  split
  · rfl
  · next b t hw =>
    rw [hw] at h
    rw [h b rfl]
    rfl

/-- With none to send again, the next blocks leave as a new frame on the chosen lane (R295, R296). -/
theorem execFrameTransmit_new {queued : List (Nat × Nat)} {departs : List Nat} {s0 s : State} {lane : Nat} {b : Block}
    {bs : List Block} (hs : s = s0.settle queued) (hp : s.pickLane queued = some lane) (hh : ∀ f, f ∈ s.ulp.held → f.st ≠ 0)
    (hc : ∀ w, s.ulp.wait.head? = some w → w.unc = false)
    (hn : s.nextBlocks s.ulp.wait.length 1024 s.ulp.allow s.ulp.wait = b :: bs) :
    exec (.frameTransmit queued departs) s0 = .next ((s.holdNew (s.newFrame lane (b :: bs))).sendFrame lane
      (s.newFrame lane (b :: bs)) false departs) := by
  have hf : s.ulp.held.find? (fun f => f.st == 0) = none := by
    rw [List.find?_eq_none]
    intro f hm
    simpa using hh f hm
  show execFrameTransmit queued departs s0 = _
  unfold execFrameTransmit
  rw [← hs]
  dsimp only
  rw [hp, hf]
  dsimp only
  rw [State.cutWaiting_clean hc, hn]
  rfl

/-- What is written into blocks at their departure depends on the time, the lane and the generation of the HEAD alone. -/
theorem State.stamp_holdNew (s : State) (f : Frame) (lane : Nat) (offs : List Nat) (bs : List Block) :
    (s.holdNew f).stamp lane offs bs = s.stamp lane offs bs := by
  induction bs generalizing offs with
  | nil => rfl
  | cons b bs ih =>
    unfold State.stamp
    rw [ih, ih]
    rfl

/-- What the link holds when a new frame has been given to its lane. -/
theorem State.frameOut_holdNew {s : State} (hh : ∀ f, f ∈ s.ulp.held → f.fseq ≠ s.ulp.fseq) (lane : Nat) (departs : List Nat)
    (bs : List Block) : ((s.holdNew (s.newFrame lane bs)).frameOut lane (s.newFrame lane bs) departs).ulp = { s.ulp with
      wait := s.ulp.wait.drop bs.length, fseq := (s.ulp.fseq + 1) % 2 ^ 32,
      allow := s.ulp.allow - (if s.role = .limb then ((s.stamp lane departs bs).map Block.nrec).sum else 0),
      held := s.ulp.held ++ [⟨s.ulp.fseq, lane, s.stamp lane departs bs, 1, s.ulp.genRx⟩] } := by
  unfold State.frameOut
  extract_lets bs' charge g r
  have hst : bs' = s.stamp lane departs bs := s.stamp_holdNew _ lane departs bs
  have hpaid : s.ulp.genRx + 1 ≠ s.ulp.genRx := by simp
  have hcharge : charge = if s.role = .limb then ((s.stamp lane departs bs).map Block.nrec).sum else 0 := by
    rw [← hst]
    exact if_congr (and_iff_left hpaid) rfl rfl
  have hg : g = ⟨s.ulp.fseq, lane, s.stamp lane departs bs, 1, s.ulp.genRx⟩ := by rw [← hst]; rfl
  have hold : s.ulp.held.map (fun (x : Frame) => if x.fseq = (s.newFrame lane bs).fseq then g else x) = s.ulp.held :=
    (List.map_congr_left (g := id) (fun x hx => if_neg (hh x hx))).trans (List.map_id _)
  have hheld : (s.holdNew (s.newFrame lane bs)).ulp.held.map
      (fun (x : Frame) => if x.fseq = (s.newFrame lane bs).fseq then g else x) = s.ulp.held ++ [g] := by
    show (s.ulp.held ++ [s.newFrame lane bs]).map _ = _
    rw [List.map_append, hold, List.map_singleton, if_pos rfl]
  dsimp only
  rw [hheld, hcharge, hg]
  rfl

/-! ### The statement -/

/-- A new frame leaves on its lane, is held, and uses a LIMB's allowance (R205, R289, R295 to R297). -/
theorem execFrameTransmit_spec {queued : List (Nat × Nat)} {departs : List Nat} {s0 s : State} {lane : Nat} {b : Block}
    {bs : List Block} (hs : s = s0.settle queued) (hp : s.pickLane queued = some lane)
    (hh : ∀ f, f ∈ s.ulp.held → f.st ≠ 0 ∧ f.fseq ≠ s.ulp.fseq) (hc : ∀ w, s.ulp.wait.head? = some w → w.unc = false)
    (hn : s.nextBlocks s.ulp.wait.length 1024 s.ulp.allow s.ulp.wait = b :: bs) :
    ∃ t u, exec (.frameTransmit queued departs) s0 = .next t ∧
      s.Transmitted t u lane s.ulp.fseq (dataWords s.ulp.fseq (s.stamp lane departs (b :: bs))) ∧
      u.ulp = { s.ulp with
        wait := s.ulp.wait.drop (b :: bs).length, fseq := (s.ulp.fseq + 1) % 2 ^ 32,
        allow := s.ulp.allow - (if s.role = .limb then ((s.stamp lane departs (b :: bs)).map Block.nrec).sum else 0),
        held := s.ulp.held ++ [⟨s.ulp.fseq, lane, s.stamp lane departs (b :: bs), 1, s.ulp.genRx⟩] } := by
  have h := (s.holdNew (s.newFrame lane (b :: bs))).transmitted_sendFrame lane (s.newFrame lane (b :: bs)) false departs
  have hst : (s.holdNew (s.newFrame lane (b :: bs))).stamp lane departs (s.newFrame lane (b :: bs)).blocks =
      s.stamp lane departs (b :: bs) := s.stamp_holdNew _ _ _ _
  rw [hst] at h
  exact ⟨_, _, execFrameTransmit_new hs hp (fun f hf => (hh f hf).1) hc hn, ⟨h.out, h.slot, h.ulp, h.counts⟩,
    State.frameOut_holdNew (fun f hf => (hh f hf).2) _ _ _⟩

/-- Settles O40: the frame that leaves, the two that arrive, and what the announcements of a peer lane do. -/
theorem framesPassInOrder : Obligations.FramesPassInOrder := by
  unfold Obligations.FramesPassInOrder
  refine ⟨?_, ?_, ?_, ?_, ?_⟩
  · intro queued departs s0 s lane b bs hs hp hh hc hn
    obtain ⟨t, u, e, h, hu⟩ := execFrameTransmit_spec (departs := departs) hs hp hh hc hn
    have ht := h.ulp
    unfold Ulp.sameButTotals at ht
    refine ⟨t, e, h.out, h.slot, ?_⟩
    rw [ht, hu]
    exact ⟨rfl, rfl, rfl, rfl, h.counts⟩
  · intro n f s hu hf hty h0 h3 h4 h1 h2 hl ht hz
    have hok := headOk_data hty h0 h3 h4 h1 h2
    exact ⟨fun hc => execDataFrameReceive_badCrc hu hf hty hok hl ht hz hc, fun bs hc hb hr hp ha hn hw =>
      execDataFrameReceive_right hu hf hty hok hl ht hz hc hb hr hp ha hn hw⟩
  · intro n u k s hu hcrc hty hz han hr hp hann hk hd
    have he := execSlotIdleReceive_eighth hu hcrc hty hz han hr hp hann hk
    rw [hd, if_pos (by decide)] at he
    have hsrc := (s.sameMap_announced n u).laneSource n
    have hpeer := State.peer_congr (s.announced_ulp n u)
    refine ⟨fun hm h0 hser => ?_, fun hm => ?_⟩
    · exact ⟨_, he, State.admitPeer_own (hm.trans hsrc.symm) h0 (by rw [hpeer]; exact hser)⟩
    · rw [State.admitPeer_other (by rw [hsrc]; exact hm)] at he
      obtain ⟨h1, h2, -⟩ := (s.announced n u).refusePeer_spec n
      exact ⟨_, he, by rw [h1], by rw [h1], h2, (State.refusePeer_ulp _ n).trans (s.announced_ulp n u)⟩
  · intro n u k s hu hcrc hty hz han hr hp hann hk hd ha hm
    have he := execSlotIdleReceive_eighth hu hcrc hty hz han hr hp hann hk
    have hmap := s.sameMap_announced n u
    have hlane := s.lane_announced n u n
    rw [if_pos rfl] at hlane
    rw [hd, if_neg (by decide), hmap.laneSource, if_pos ⟨ha, Or.inl hm⟩] at he
    obtain ⟨h1, h2, h3, h4, h5⟩ := (s.announced n u).lane_laneDrop n
    refine ⟨_, he, h1, h2, h3, h4, h5, fun hf => ?_⟩
    rw [← hmap.laneSource]
    exact State.lacks_laneDrop (by unfold State.laneUp at *; rw [hlane]; exact hu) (hmap.role.trans hr)
      ((hmap.laneRole n).trans hp) (by rw [hlane]; exact hf)
  · intro n s hr hp hu hd
    have he : exec (.peerAnnounceTimeout n) s = .next (s.refusePeer n) := by
      show Host.Outcome.next (if _ then _ else _) = _
      rw [if_pos ⟨hr, hp, hu, by simp [hd]⟩]
    obtain ⟨h1, h2, h3⟩ := s.refusePeer_spec n
    exact ⟨_, he, h1, h2, h3⟩

end Sys2Proof.Machine
end

section
/-! O4, O5, O7 and O9: what each command can do to the core of a state, and the invariant. -/

namespace Sys2Proof.Machine

/-! ### Which commands reach the core -/

/-- The commands that may reach the mode, TARGET in BOOT, a supply, RST_N, the minimal link or the NVD's words. -/
def actsOnCore : Instr → Bool
  | .powerOn _ | .powerLoss12V | .supply24VApply | .supply24VLoss | .rstNLow | .rstNRise _ | .resetStuck => true
  | .reqLoad _ | .reqSimmer _ | .reqCalib _ | .reqRun _ | .reqDrain _ _ | .reqSafe _ _ | .reqTest _ | .safeExit _ => true
  | .loadSequence _ | .modeTransitionComplete _ | .drainComplete | .markMode _ _ _ | .nvdCommandDone => true
  | .nvdWindowWrite _ _ _ _ | .sliceOpen | .dataFrameReceive _ _ | .scNop _ _ _ | .scResync _ _ _ => true
  | .scrubRead _ _ _ _ _ | .errRepair _ _ _ | .writeRaw _ _ _ | .readRaw _ _ _ | .voteFlip _ _ _ => true
  | .stsWrite _ _ _ _ | .registerWrite _ _ _ _ | .plannerCycle _ | .rstNHigh1ms | .rejoinMirroring _ => true
  | _ => false

/-- Of these, the ones that move the mode, a supply or RST_N. -/
def movesMode : Instr → Bool
  | .powerOn _ | .powerLoss12V | .supply24VApply | .supply24VLoss | .rstNLow | .rstNRise _ => true
  | .modeTransitionComplete _ | .drainComplete | .sliceOpen => true
  | _ => false

/-- Every other command leaves the core, one law of its group a command. -/
theorem exec_core {c : Instr} {s t : State} (h : exec c s = .next t) (hc : actsOnCore c = false) : t.core = s.core := by
  cases c
  case supplyLowExpire => exact execSupplyLowExpire_core _ t h
  case loadComplete => exact execLoadComplete_core _ t h
  case lane0WaitExpire => exact execLane0WaitExpire_core _ t h
  case parkWindowExpire => exact execParkWindowExpire_core _ t h
  case calibTaskComplete => exact execCalibTaskComplete_core _ t h
  case safeDrainEnd => exact execSafeDrainEnd_core _ t h
  case markSpillStart => exact execMarkSpillStart_core _ _ _ _ t h
  case markSpillEnd => exact execMarkSpillEnd_core _ _ _ _ t h
  case markSync => exact execMarkSync_core _ _ 0 _ _ _ t h
  case markFlush => exact execMarkFlush_core _ _ _ _ _ t h
  case slotInvalidate => exact execSlotInvalidate_core _ _ _ t h
  case slotVerify => exact execSlotVerify_core _ _ _ t h
  case slotPrefer => exact execSlotPrefer_core _ _ _ t h
  case calCommit => exact execCalCommit_core _ _ t h
  case channelTableWrite => exact execChannelTableWrite_core _ _ _ _ _ _ t h
  case blankingEnd => exact execBlankingEnd_core _ _ t h
  case groupEnableWrite => exact execGroupEnableWrite_core _ _ _ _ _ t h
  case rateGateWrite => exact execRateGateWrite_core _ _ _ _ t h
  case rateGateEnd => exact execRateGateEnd_core _ t h
  case injGo => exact execInjGo_core _ _ _ _ t h
  case injStop => exact execInjStop_core _ _ _ _ t h
  case injStrobe => exact execInjStrobe_core _ _ t h
  case leadingCrossing => exact execLeadingCrossing_core _ _ _ t h
  case highCrossing => exact execHighCrossing_core _ _ _ t h
  case trailingCrossing => exact execTrailingCrossing_core _ _ _ t h
  case totTimeout => exact execTotTimeout_core _ _ t h
  case hitEmit => exact execHitEmit_core _ _ t h
  case fillInternal => exact execFillInternal_core _ _ t h
  case fillLive => exact execFillLive_core _ _ t h
  case swap => exact execSwap_core _ _ t h
  case abort => exact execAbort_core _ _ t h
  case fillLaunch => exact execFillLaunch_core _ _ t h
  case fillConvert => exact execFillConvert_core _ _ t h
  case channelBankSwap => exact execChannelBankSwap_core _ _ t h
  case cdTableWrite => exact execCdTableWrite_core _ _ _ _ t h
  case cdTableReadAutoinc => exact execCdTableReadAutoinc_core _ _ t h
  case skewClear => exact execSkewClear_core _ _ _ _ t h
  case ringFreeze => exact execRingFreeze_core _ _ t h
  case keepWindowReceive => exact execKeepWindowReceive_core _ _ _ _ _ t h
  case releaseThroughReceive => exact execReleaseThroughReceive_core _ _ _ _ t h
  case holdBudgetExpire => exact execHoldBudgetExpire_core _ _ _ t h
  case adcConversionStart => exact execAdcConversionStart_core _ _ _ t h
  case adcConversionEnd => exact execAdcConversionEnd_core _ _ _ t h
  case waveDeadline => exact execWaveDeadline_core _ _ _ t h
  case waveUnitWrite => exact execWaveUnitWrite_core _ _ t h
  case groupFifoWrite => exact execGroupFifoWrite_core _ _ t h
  case gfifoLossWrite => exact execGfifoLossWrite_core _ _ t h
  case innerLinkBeat => exact execInnerLinkBeat_core _ _ t h
  case beatReceive => exact execBeatReceive_core _ _ _ _ t h
  case creditGrant => exact execCreditGrant_core _ t h
  case creditReceive => exact execCreditReceive_core _ _ _ _ t h
  case closedReceive => exact execClosedReceive_core _ _ _ t h
  case levelReceive => exact execLevelReceive_core _ _ _ 0 _ t h
  case flush => exact execFlush_core _ _ _ _ t h
  case pqPopLo => exact execPqPopLo_core _ _ t h
  case pqPopHi => exact execPqPopHi_core _ _ t h
  case popStallExpire => exact execPopStallExpire_core _ _ t h
  case sliceClose => exact execSliceClose_core _ t h
  case sliceDrainStart => exact execSliceDrainStart_core _ t h
  case headFrameStart => exact execHeadFrameStart_core _ t h
  case peerDeadline => exact execPeerDeadline_core _ t h
  case pressureSample => exact execPressureSample_core _ _ t h
  case throttle => exact execThrottle_core _ _ _ _ t h
  case primitiveArrival => exact execPrimitiveArrival_core _ t h
  case whiskTickEvaluate => exact execWhiskTickEvaluate_core _ t h
  case releaseThroughSend => exact execReleaseThroughSend_core _ t h
  case ringFrameOriginate => exact execRingFrameOriginate_core _ _ t h
  case ringFrameReceive => exact execRingFrameReceive_core _ _ _ _ t h
  case ringFrameForward => exact execRingFrameForward_core _ t h
  case ringFrameReturn => exact execRingFrameReturn_core _ _ _ _ t h
  case loopTask => exact execLoopTask_core _ _ t h
  case loopTaskDone => exact execLoopTaskDone_core _ t h
  case blockCode => exact execBlockCode_core _ _ t h
  case pressJobResume => exact execPressJobResume_core _ _ _ t h
  case blockIdleEnd => exact execBlockIdleEnd_core _ _ t h
  case blockVerify => exact execBlockVerify_core _ _ _ t h
  case blockRelease => exact execBlockRelease_core _ t h
  case peerBlockExpand => exact execPeerBlockExpand_core _ _ t h
  case ptpSync => exact execPtpSync_core _ _ _ _ _ _ t h
  case ptpFollowUp => exact execPtpFollowUp_core _ _ _ _ t h
  case followUpTimeout => exact execFollowUpTimeout_core _ t h
  case ptpDelayResp => exact execPtpDelayResp_core _ _ _ _ _ t h
  case ptpAnnounce => exact execPtpAnnounce_core _ _ _ _ _ _ t h
  case delayReqSend => exact execDelayReqSend_core _ _ t h
  case announceTimeout => exact execAnnounceTimeout_core _ t h
  case ptpStaleExpire => exact execPtpStaleExpire_core _ t h
  case slewDone => exact execSlewDone_core _ t h
  case pendingStep => exact execPendingStep_core _ t h
  case phaseJump => exact execPhaseJump_core _ _ t h
  case holdoverUpdate => exact execHoldoverUpdate_core _ _ t h
  case tbIncWrite => exact execTbIncWrite_core _ _ _ _ _ t h
  case blindBringup => exact execBlindBringup_core _ _ t h
  case losClear => exact execLosClear_core _ _ _ t h
  case los => exact execLos_core _ _ t h
  case lol => exact execLol_core _ _ t h
  case fomMeasure => exact execFomMeasure_core _ _ _ t h
  case adaptCycle => exact execAdaptCycle_core _ _ _ _ _ t h
  case ctleManualStep => exact execCtleManualStep_core _ _ t h
  case retrain => exact execRetrain_core _ _ _ _ _ t h
  case prbsPatternSet => exact execPrbsPatternSet_core _ _ _ _ t h
  case injOne => exact execInjOne_core _ _ _ _ t h
  case prbsClear => exact execPrbsClear_core _ _ t h
  case frameTransmit => exact execFrameTransmit_core _ _ _ t h
  case slotIdleReceive => exact execSlotIdleReceive_core _ _ _ t h
  case peerAnnounceTimeout => exact execPeerAnnounceTimeout_core _ _ t h
  case scResponseSend => exact execScResponseSend_core _ _ t h
  case crReceive => exact execCrReceive_core _ _ _ t h
  case crRepeat => exact execCrRepeat_core _ t h
  case sackSend => exact execSackSend_core _ _ _ t h
  case sackRepeat => exact execSackRepeat_core _ t h
  case sackReceive => exact execSackReceive_core _ _ _ t h
  case ackTimeout => exact execAckTimeout_core _ t h
  case resendSend => exact execResendSend_core _ _ _ t h
  case resendReceive => exact execResendReceive_core _ _ _ t h
  case heartbeatTimeout => exact execHeartbeatTimeout_core _ t h
  case innerLinkUnlock => exact execInnerLinkUnlock_core _ t h
  case switch => exact execSwitch_core _ _ t h
  case replayWalkEnd => exact execReplayWalkEnd_core _ t h
  case whiskCatchupEnd => exact execWhiskCatchupEnd_core _ _ _ t h
  case peerRestartResend => exact execPeerRestartResend_core _ t h
  case checkpointTake => exact execCheckpointTake_core _ t h
  case checkpointAck => exact execCheckpointAck_core _ _ t h
  case checkpointSkip => exact execCheckpointSkip_core _ t h
  case authPoll => exact execAuthPoll_core _ _ t h
  case hbdBlockReceive => exact execHbdBlockReceive_core _ t h
  case rejoin => exact execRejoin_core _ _ t h
  case autoRejoin => exact execAutoRejoin_core _ t h
  case voteRewrite => exact execVoteRewrite_core _ _ _ _ t h
  case safetyInputChange => exact execSafetyInputChange_core _ _ _ _ t h
  case inputFilterExpire => exact execInputFilterExpire_core _ _ _ _ t h
  case discrepancySample => exact execDiscrepancySample_core _ _ t h
  case biasMonitorSample => exact execBiasMonitorSample_core _ _ _ _ _ t h
  case crosslinkFrame => exact execCrosslinkFrame_core _ _ t h
  case crosslinkTimeout => exact execCrosslinkTimeout_core _ _ t h
  case programWatchdog => exact execProgramWatchdog_core _ t h
  case lcrcCompare => exact execLcrcCompare_core _ t h
  case driveReadbackFault => exact execDriveReadbackFault_core _ _ t h
  case feedbackChange => exact execFeedbackChange_core _ _ _ t h
  case feedbackTimeout => exact execFeedbackTimeout_core _ _ t h
  case lidRstClose => exact execLidRstClose_core _ t h
  case lidRstRelease => exact execLidRstRelease_core _ _ _ t h
  case resetHoldFault => exact execResetHoldFault_core _ _ t h
  case degrade => exact execDegrade_core _ _ t h
  case qenWrite => exact execQenWrite_core _ _ _ _ t h
  case ageingRecordAbandon => exact execAgeingRecordAbandon_core _ t h
  case deferredTrimStep => exact execDeferredTrimStep_core _ t h
  case attestationReportRequest => exact execAttestationReportRequest_core _ _ t h
  case signingDone => exact execSigningDone_core _ _ t h
  case time => exact execTime_core _ _ t h
  case bootCount => exact execBootCount_core _ _ t h
  case attReport => exact execAttReport_core _ _ _ t h
  case total => exact execTotal_core _ _ _ t h
  case mbxDataRead => exact execMbxDataRead_core _ _ _ t h
  case hkMonitorSample => exact execHkMonitorSample_core _ _ t h
  case tapReset => exact execTapReset_core _ t h
  case bypass => exact execBypass_core _ _ t h
  case idcode => exact execIdcode_core _ _ t h
  case samplePreload => exact execSamplePreload_core _ _ _ t h
  case extest => exact execExtest_core _ _ t h
  case extestPulse => exact execExtestPulse_core _ _ t h
  case extestTrain => exact execExtestTrain_core _ _ t h
  case clamp => exact execClamp_core _ _ t h
  case highz => exact execHighz_core _ _ t h
  case prbsSync => exact execPrbsSync_core _ _ t h
  case prbsSyncLoss => exact execPrbsSyncLoss_core _ _ t h
  case pgLoss => exact execPgLoss_core _ _ t h
  all_goals cases hc

theorem execResetStuck_bare (s : State) : ∀ t, execResetStuck s = .next t → t.bare = s.bare := by
  rintro t ⟨⟩
  split
  · rfl
  · rw [State.startBringUp_bare, State.setFld_bare, State.event_bare]
    rfl

theorem execResetStuck_nvdWf (s : State) : ∀ t, execResetStuck s = .next t → t.nvdWf = s.nvdWf := by
  rintro t ⟨⟩
  split
  · rfl
  · rw [State.startBringUp_nvdWf, State.setFld_nvdWf, State.event_nvdWf]
    rfl

/-- A command that does not move the mode leaves the mode, the supplies and RST_N. -/
theorem exec_bare {c : Instr} {s t : State} (h : exec c s = .next t) (hc : movesMode c = false) : t.bare = s.bare := by
  cases ha : actsOnCore c
  · exact bare_of (exec_core h ha)
  match c, hc, ha, h with
  | .resetStuck, _, _, h => exact execResetStuck_bare s t h
  | .reqLoad _, _, _, h => exact execReqLoad_bare _ s t h
  | .reqSimmer _, _, _, h => exact execReqSimmer_bare _ s t h
  | .reqCalib _, _, _, h => exact execReqCalib_bare _ s t h
  | .reqRun _, _, _, h => exact execReqRun_bare _ s t h
  | .reqDrain _ _, _, _, h => exact execReqDrain_bare _ _ s t h
  | .reqSafe _ _, _, _, h => exact execReqSafe_bare _ _ s t h
  | .reqTest _, _, _, h => exact execReqTest_bare _ s t h
  | .safeExit _, _, _, h => exact execSafeExit_bare _ s t h
  | .loadSequence _, _, _, h => exact bare_of_rest (execLoadSequence_rest _ s t h)
  | .markMode _ _ _, _, _, h => exact execMarkMode_bare _ _ _ s t h
  | .nvdCommandDone, _, _, h => exact bare_of_rest (execNvdCommandDone_rest s t h)
  | .nvdWindowWrite _ _ _ _, _, _, h => exact bare_of_rest (execNvdWindowWrite_rest _ _ _ _ s t h)
  | .dataFrameReceive _ _, _, _, h => exact execDataFrameReceive_bare _ _ s t h
  | .scNop _ _ _, _, _, h => exact execScNop_bare _ _ _ s t h
  | .scResync _ _ _, _, _, h => exact execScResync_bare _ _ _ s t h
  | .scrubRead _ _ _ _ _, _, _, h => exact bare_of_rest (execScrubRead_rest _ _ _ _ _ s t h)
  | .errRepair _ _ _, _, _, h => exact bare_of_rest (execErrRepair_rest _ _ _ s t h)
  | .writeRaw _ _ _, _, _, h => exact bare_of_rest (execWriteRaw_rest _ _ _ s t h)
  | .readRaw _ _ _, _, _, h => exact bare_of_rest (execReadRaw_rest _ _ _ s t h)
  | .voteFlip _ _ _, _, _, h => exact bare_of_rest (execVoteFlip_rest _ _ _ s t h)
  | .stsWrite _ _ _ _, _, _, h => exact execStsWrite_bare _ _ _ _ s t h
  | .registerWrite _ _ _ _, _, _, h => exact execRegisterWrite_bare _ _ _ _ s t h
  | .plannerCycle _, _, _, h => exact bare_of_rest (execPlannerCycle_rest _ s t h)
  | .rstNHigh1ms, _, _, h => exact execRstNHigh1ms_bare s t h
  | .rejoinMirroring _, _, _, h => exact bare_of_rest (execRejoinMirroring_rest _ s t h)

/-! ### The canonical form of the NVD's words -/

theorem execPowerOn_nvdWf (r : Bool) (s : State) : ∀ t, execPowerOn r s = .next t → t.nvdWf = s.nvdWf := by
  rintro t ⟨⟩
  split
  · rfl
  · rw [State.setReg_nvdWf, State.lidOff_nvdWf]
    rfl

theorem execPowerLoss12V_nvdWf (s : State) : ∀ t, execPowerLoss12V s = .next t → t.nvdWf = s.nvdWf := by
  rintro t ⟨⟩
  split <;> rfl

theorem execSupply24VApply_nvdWf (s : State) : ∀ t, execSupply24VApply s = .next t → t.nvdWf = s.nvdWf := by
  rintro t ⟨⟩
  split <;> rfl

theorem execSupply24VLoss_nvdWf (s : State) : ∀ t, execSupply24VLoss s = .next t → t.nvdWf = s.nvdWf := by
  rintro t ⟨⟩
  split
  · split
    · rw [State.setV24_nvdWf, State.lidCancel_nvdWf]
      rfl
    · rfl
  · rfl

theorem execRstNLow_nvdWf (s : State) (hs : s.nvdWf = true) : ∀ t, execRstNLow s = .next t → t.nvdWf = true := by
  rintro t ⟨⟩
  split
  · exact hs
  · rw [State.setFld_nvdWf]
    exact State.enterBoot_nvdWf _ _ hs

theorem execRstNRise_nvdWf (ms : Nat) (s : State) : ∀ t, execRstNRise ms s = .next t → t.nvdWf = s.nvdWf := by
  rintro t ⟨⟩
  split
  · rfl
  · rw [State.setFld_nvdWf]
    show State.nvdWf (if _ then _ else _) = _
    split <;> rfl

/-- Every command keeps the NVD's words in canonical form. -/
theorem exec_nvdWf {c : Instr} {s t : State} (h : exec c s = .next t) (hs : s.nvdWf = true) : t.nvdWf = true := by
  cases ha : actsOnCore c
  · exact (nvdWf_of (exec_core h ha)).trans hs
  match c, ha, h with
  | .powerOn _, _, h => exact (execPowerOn_nvdWf _ s t h).trans hs
  | .powerLoss12V, _, h => exact (execPowerLoss12V_nvdWf s t h).trans hs
  | .supply24VApply, _, h => exact (execSupply24VApply_nvdWf s t h).trans hs
  | .supply24VLoss, _, h => exact (execSupply24VLoss_nvdWf s t h).trans hs
  | .rstNLow, _, h => exact execRstNLow_nvdWf s hs t h
  | .rstNRise _, _, h => exact (execRstNRise_nvdWf _ s t h).trans hs
  | .resetStuck, _, h => exact (execResetStuck_nvdWf s t h).trans hs
  | .reqLoad _, _, h => exact execReqLoad_nvdWf _ s hs t h
  | .reqSimmer _, _, h => exact execReqSimmer_nvdWf _ s hs t h
  | .reqCalib _, _, h => exact execReqCalib_nvdWf _ s hs t h
  | .reqRun _, _, h => exact execReqRun_nvdWf _ s hs t h
  | .reqDrain _ _, _, h => exact execReqDrain_nvdWf _ _ s hs t h
  | .reqSafe _ _, _, h => exact execReqSafe_nvdWf _ _ s hs t h
  | .reqTest _, _, h => exact execReqTest_nvdWf _ s hs t h
  | .safeExit _, _, h => exact execSafeExit_nvdWf _ s hs t h
  | .loadSequence _, _, h => exact execLoadSequence_nvdWf _ s hs t h
  | .modeTransitionComplete _, _, h => exact execModeTransitionComplete_nvdWf _ s hs t h
  | .drainComplete, _, h => exact execDrainComplete_nvdWf s hs t h
  | .markMode _ _ _, _, h => exact execMarkMode_nvdWf _ _ _ s hs t h
  | .nvdCommandDone, _, h => exact execNvdCommandDone_nvdWf s hs t h
  | .nvdWindowWrite _ _ _ _, _, h => exact execNvdWindowWrite_nvdWf _ _ _ _ s hs t h
  | .sliceOpen, _, h => exact (execSliceOpen_nvdWf s t h).trans hs
  | .dataFrameReceive _ _, _, h => exact execDataFrameReceive_nvdWf _ _ s hs t h
  | .scNop _ _ _, _, h => exact execScNop_nvdWf _ _ _ s hs t h
  | .scResync _ _ _, _, h => exact execScResync_nvdWf _ _ _ s hs t h
  | .scrubRead _ _ _ _ _, _, h => exact execScrubRead_nvdWf _ _ _ _ _ s hs t h
  | .errRepair _ _ _, _, h => exact execErrRepair_nvdWf _ _ _ s hs t h
  | .writeRaw _ _ _, _, h => exact execWriteRaw_nvdWf _ _ _ s hs t h
  | .readRaw _ _ _, _, h => exact execReadRaw_nvdWf _ _ _ s hs t h
  | .voteFlip _ _ _, _, h => exact execVoteFlip_nvdWf _ _ _ s hs t h
  | .stsWrite _ _ _ _, _, h => exact execStsWrite_nvdWf _ _ _ _ s hs t h
  | .registerWrite _ _ _ _, _, h => exact execRegisterWrite_nvdWf _ _ _ _ s hs t h
  | .plannerCycle _, _, h => exact execPlannerCycle_nvdWf _ s hs t h
  | .rstNHigh1ms, _, h => exact execRstNHigh1ms_nvdWf s hs t h
  | .rejoinMirroring _, _, h => exact execRejoinMirroring_nvdWf _ s hs t h

/-! ### Supplies and RST_N -/

/-- The commands that move no pin leave the supplies and RST_N. -/
theorem exec_pins {c : Instr} {s t : State} (h : exec c s = .next t) (hc : movesMode c = false ∨
    (∃ env, c = .modeTransitionComplete env) ∨ c = .drainComplete ∨ c = .sliceOpen) : t.pins = s.pins := by
  rcases hc with hc | ⟨env, rfl⟩ | rfl | rfl
  · exact pins_of_bare (exec_bare h hc)
  · exact execModeTransitionComplete_pins env s t h
  · exact execDrainComplete_pins s t h
  · exact execSliceOpen_pins s t h

/-- The supplies and RST_N, from the part of the state that holds them. -/
theorem pins_iff {s t : State} :
    t.pins = s.pins ↔ t.pending = s.pending ∧ t.hk.v12 = s.hk.v12 ∧ t.hk.v24 = s.hk.v24 ∧ t.hk.rstN = s.hk.rstN := by
  unfold State.pins
  simp only [Prod.mk.injEq]

@[simp] theorem State.lidCancel_hk (s : State) (cause idx : Nat) : (s.lidCancel cause idx).hk = s.hk :=
  (s.lidCancel_lid cause idx).2

@[simp] theorem State.setV24_hk (s : State) (ok : Bool) : (s.setV24 ok).hk = s.hk := by
  unfold State.setV24
  rw [State.setFld_hk]
  rfl

/-- In BOOT and LOAD the Lid's way to OFF leaves the HK state. -/
theorem State.lidOff_hk (s : State) (h : s.hk.mode = .boot ∨ s.hk.mode = .load) : s.lidOff.hk = s.hk := by
  rw [State.lidOff_down s h]

/-- What POWER_ON leaves in the HK state. -/
theorem execPowerOn_hk (r : Bool) (s : State) : ∀ t, execPowerOn r s = .next t →
    t.hk = if s.hk.v12 then s.hk else { Hk.reset with v12 := true, v24 := s.hk.v24, rstN := r } := by
  rintro t ⟨⟩
  split
  · rfl
  · rw [State.setReg_hk, State.lidOff_hk _ (.inl rfl)]

/-- What the loss of 12 V leaves in the HK state. -/
theorem execPowerLoss12V_hk (s : State) : ∀ t, execPowerLoss12V s = .next t →
    t.hk = if s.hk.v12 then { Hk.reset with v24 := s.hk.v24 } else s.hk := by
  rintro t ⟨⟩
  cases s.hk.v12 <;> rfl

/-- 24 V, where it comes, changes the HK state in its own flag alone. -/
theorem execSupply24VApply_hk (s : State) : ∀ t, execSupply24VApply s = .next t → t.hk = { s.hk with v24 := true } := by
  rintro t ⟨⟩
  split
  · next hv => rw [← hv]
  · rfl

/-- 24 V, where it goes, changes the HK state in its own flag alone. -/
theorem execSupply24VLoss_hk (s : State) : ∀ t, execSupply24VLoss s = .next t → t.hk = { s.hk with v24 := false } := by
  rintro t ⟨⟩
  split
  · split
    · rw [State.setV24_hk, State.lidCancel_hk]
    · rfl
  · next hv => rw [← Bool.eq_false_iff.2 hv]

/-- What a rise of RST_N leaves in the HK state. -/
theorem execRstNRise_hk (ms : Nat) (s : State) : ∀ t, execRstNRise ms s = .next t →
    t.hk = if s.hk.v12 = true ∧ s.hk.rstN = false then { s.hk with rstN := true, stuck := false, minimalLink := false }
      else s.hk := by
  rintro t ⟨⟩
  cases hv : s.hk.v12
  · rfl
  cases hr : s.hk.rstN
  · show ({ State.hk (if s.hk.stuck = true then _ else s) with rstN := true, stuck := false, minimalLink := false } : Hk) = _
    split <;> rfl
  · rfl

/-- RST_N_LOW leaves the supplies. -/
theorem execRstNLow_supplies (s : State) : ∀ t, execRstNLow s = .next t → t.hk.v12 = s.hk.v12 ∧ t.hk.v24 = s.hk.v24 := by
  rintro t ⟨⟩
  split
  · exact ⟨rfl, rfl⟩
  · obtain ⟨-, h12, h24, -⟩ := pins_iff.1 (State.enterBoot_pins { s with hk := { s.hk with rstN := false } } 1)
    exact ⟨h12, h24⟩

/-- Settles O9: only the events of a pin or supply reach it. -/
theorem suppliesAndRstNChangeOnlyAsGiven : Obligations.SuppliesAndRstNChangeOnlyAsGiven := by
  unfold Obligations.SuppliesAndRstNChangeOnlyAsGiven
  intro c s t h
  have kept (hp : t.pins = s.pins) : t.hk.v12 = s.hk.v12 ∧ t.hk.v24 = s.hk.v24 ∧ t.hk.rstN = s.hk.rstN := (pins_iff.1 hp).2
  cases hc : movesMode c
  · obtain ⟨h12, h24, hr⟩ := kept (exec_pins h (.inl hc))
    exact ⟨fun k => absurd h12 k, fun k => absurd h24 k, fun k => absurd hr k⟩
  match c, hc, h with
  | .powerOn r, _, h =>
    refine ⟨fun _ => .inr ⟨r, rfl⟩, fun k => absurd ?_ k, fun _ => .inr (.inr (.inr ⟨r, rfl⟩))⟩
    rw [execPowerOn_hk r s t h]
    split <;> rfl
  | .powerLoss12V, _, h =>
    refine ⟨fun _ => .inl rfl, fun k => absurd ?_ k, fun _ => .inl rfl⟩
    rw [execPowerLoss12V_hk s t h]
    split <;> rfl
  | .supply24VApply, _, h =>
    rw [execSupply24VApply_hk s t h]
    exact ⟨fun k => absurd rfl k, fun _ => .inl rfl, fun k => absurd rfl k⟩
  | .supply24VLoss, _, h =>
    rw [execSupply24VLoss_hk s t h]
    exact ⟨fun k => absurd rfl k, fun _ => .inr rfl, fun k => absurd rfl k⟩
  | .rstNLow, _, h =>
    obtain ⟨h12, h24⟩ := execRstNLow_supplies s t h
    exact ⟨fun k => absurd h12 k, fun k => absurd h24 k, fun _ => .inr (.inl rfl)⟩
  | .rstNRise ms, _, h =>
    rw [execRstNRise_hk ms s t h]
    refine ⟨fun k => absurd ?_ k, fun k => absurd ?_ k, fun _ => .inr (.inr (.inl ⟨ms, rfl⟩))⟩ <;> split <;> rfl
  | .modeTransitionComplete env, _, h =>
    obtain ⟨h12, h24, hr⟩ := kept (exec_pins h (.inr (.inl ⟨env, rfl⟩)))
    exact ⟨fun k => absurd h12 k, fun k => absurd h24 k, fun k => absurd hr k⟩
  | .drainComplete, _, h =>
    obtain ⟨h12, h24, hr⟩ := kept (exec_pins h (.inr (.inr (.inl rfl))))
    exact ⟨fun k => absurd h12 k, fun k => absurd h24 k, fun k => absurd hr k⟩
  | .sliceOpen, _, h =>
    obtain ⟨h12, h24, hr⟩ := kept (exec_pins h (.inr (.inr (.inr rfl))))
    exact ⟨fun k => absurd h12 k, fun k => absurd h24 k, fun k => absurd hr k⟩

/-! ### Held in reset -/

/-- Without 12 V, or with RST_N low. -/
def State.down (s : State) : Prop := s.hk.v12 = false ∨ s.hk.rstN = false

/-- Held down, a command that does not move the mode leaves the mode, TARGET and the minimal link (R53). -/
theorem exec_rest {c : Instr} {s t : State} (h : exec c s = .next t) (hd : s.down) (hs : s.shut) (hc : movesMode c = false)
    (hr : c ≠ .resetStuck) : t.rest = s.rest := by
  cases ha : actsOnCore c
  · exact rest_of (exec_core h ha)
  match c, hc, ha, h, hr with
  | .reqLoad _, _, _, rfl, _ => exact State.access_shut _ _ _ _ hs
  | .reqSimmer _, _, _, rfl, _ => exact State.access_shut _ _ _ _ hs
  | .reqCalib _, _, _, rfl, _ => exact State.access_shut _ _ _ _ hs
  | .reqRun _, _, _, rfl, _ => exact State.access_shut _ _ _ _ hs
  | .reqDrain _ now, _, _, rfl, _ =>
    exact (State.access_shut _ _ _ _ (shut_of (State.advanceTo_rest s now) hs)).trans (State.advanceTo_rest s now)
  | .reqSafe _ now, _, _, rfl, _ =>
    exact (State.access_shut _ _ _ _ (shut_of (State.advanceTo_rest s now) hs)).trans (State.advanceTo_rest s now)
  | .reqTest _, _, _, rfl, _ => exact State.access_shut _ _ _ _ hs
  | .safeExit _, _, _, rfl, _ => exact State.access_shut _ _ _ _ hs
  | .loadSequence _, _, _, h, _ => exact execLoadSequence_rest _ s t h
  | .markMode _ _ now, _, _, rfl, _ =>
    exact (State.markMode_shut _ _ _ (shut_of (State.advanceTo_rest s now) hs)).trans (State.advanceTo_rest s now)
  | .nvdCommandDone, _, _, h, _ => exact execNvdCommandDone_rest s t h
  | .nvdWindowWrite _ _ _ _, _, _, h, _ => exact execNvdWindowWrite_rest _ _ _ _ s t h
  | .dataFrameReceive _ _, _, _, h, _ => exact execDataFrameReceive_shut _ _ s hs t h
  | .scNop lane req dat, _, _, h, _ =>
    replace h : (if _ then _ else _) = _ := h
    split at h <;> cases h
    exact State.scRequest_shut _ _ _ _ hs
  | .scResync lane req dat, _, _, h, _ =>
    replace h : (if _ then _ else _) = _ := h
    split at h <;> cases h
    exact State.scRequest_shut _ _ _ _ hs
  | .scrubRead _ _ _ _ _, _, _, h, _ => exact execScrubRead_rest _ _ _ _ _ s t h
  | .errRepair _ _ _, _, _, h, _ => exact execErrRepair_rest _ _ _ s t h
  | .writeRaw _ _ _, _, _, h, _ => exact execWriteRaw_rest _ _ _ s t h
  | .readRaw _ _ _, _, _, h, _ => exact execReadRaw_rest _ _ _ s t h
  | .voteFlip _ _ _, _, _, h, _ => exact execVoteFlip_rest _ _ _ s t h
  | .stsWrite _ _ _ _, _, _, rfl, _ => exact State.accessW_shut _ _ _ _ _ hs
  | .registerWrite _ _ _ _, _, _, rfl, _ => exact State.accessW_shut _ _ _ _ _ hs
  | .plannerCycle _, _, _, h, _ => exact execPlannerCycle_rest _ s t h
  | .rstNHigh1ms, _, _, rfl, _ =>
    show (if _ then _ else s).rest = _
    rw [if_neg (by rintro ⟨h12, hr, -⟩; rcases hd with hd | hd <;> simp_all)]
  | .rejoinMirroring _, _, _, h, _ => exact execRejoinMirroring_rest _ s t h

/-! ### The invariant -/

/-- The last step of a transition, in the HK state. -/
@[simp] theorem State.modeDone_hk (s : State) (m : Mode) (cause : Nat) : (s.modeDone m cause).hk =
    { s.hk with prev := s.hk.mode, mode := m, cause := cause, target := none, tcause := 0 } := by
  unfold State.modeDone
  dsimp only
  split <;> rfl

/-- What being held down speaks of: the supplies, RST_N, and the part of the state that the minimal link stands in. -/
theorem heldDown_of_rest {s t : State} (h : t.rest = s.rest) (hs : s.heldDown) : t.heldDown := by
  obtain ⟨-, h12, -, hr⟩ := pins_iff.1 (pins_of_bare (bare_of_rest h))
  intro hd
  rw [h12, hr] at hd
  obtain ⟨hm, ht, hl⟩ := hs hd
  have hm' := (mode_of_rest h).trans hm
  have htgt : (if t.hk.mode = .boot then t.hk.target else none) = (if s.hk.mode = .boot then s.hk.target else none) :=
    congrArg (fun c : List Instr × Mode × Option Mode × Bool × Bool × Bool × Bool × Bool => c.2.2.1) h
  rw [if_pos hm, if_pos hm', ht] at htgt
  rw [stuck_of h, link_of h]
  exact ⟨hm', htgt, hl⟩

/-- A module that is not held down need not be in BOOT. -/
theorem heldDown_of_not_down {s : State} (h : ¬ s.down) : s.heldDown := fun hd => absurd hd h

/-- The supplies and RST_N tell whether the module is held down. -/
theorem down_of_pins {s t : State} (h : t.pins = s.pins) : t.down ↔ s.down := by
  obtain ⟨-, h12, -, hr⟩ := pins_iff.1 h
  unfold State.down
  rw [h12, hr]

/-- BOOT entered by RST_N: no transition runs and no minimal link stands (R36, R54). -/
theorem State.enterBoot_rest (s : State) (cause : Nat) : (s.enterBoot cause).hk.mode = .boot ∧
    (s.enterBoot cause).hk.target = none ∧ (s.enterBoot cause).hk.minimalLink = false := by
  have hr : (s.enterBoot cause).rest = (s.stopTest.unitsReset.modeDone .boot cause).rest := by
    unfold State.enterBoot
    rw [State.bootHk_rest, State.lidOff_rest]
  have hm := mode_of_rest hr
  rw [State.modeDone_hk] at hm
  have ht := congrArg (fun c : List Instr × Mode × Option Mode × Bool × Bool × Bool × Bool × Bool => c.2.2.1) hr
  have hl := link_of hr
  rw [State.modeDone_hk] at hl
  refine ⟨hm, ?_, hl⟩
  unfold State.rest at ht
  simpa only [hm, State.modeDone_hk, if_pos] using ht

/-- RESET_STUCK sets up the minimal link that answers it (R53). -/
theorem execResetStuck_heldDown (s : State) (hs : s.heldDown) : ∀ t, execResetStuck s = .next t → t.heldDown := by
  rintro t ⟨⟩
  split
  · exact hs
  · refine heldDown_of_rest (s := { s with hk := { s.hk with stuck := true, minimalLink := true, cause := 0xB } }) ?_ ?_
    · rw [State.startBringUp_rest, State.setFld_rest, State.event_rest]
    · intro hd
      obtain ⟨hm, ht, -⟩ := hs hd
      exact ⟨hm, ht, fun _ => rfl⟩

/-- RST_N_LOW leads to BOOT. -/
theorem execRstNLow_heldDown (s : State) (hs : s.heldDown) : ∀ t, execRstNLow s = .next t → t.heldDown := by
  rintro t ⟨⟩
  split
  · exact hs
  · intro _
    obtain ⟨hm, ht, hl⟩ := State.enterBoot_rest { s with hk := { s.hk with rstN := false } } 1
    rw [State.setFld_hk]
    exact ⟨hm, ht, fun h => absurd (hl.symm.trans h) (by decide)⟩

/-- A command whose only pin is none: held down it leaves what is held, and otherwise nothing is. -/
theorem heldDown_of_pins {s t : State} (hp : t.pins = s.pins) (hr : s.down → t.rest = s.rest) (hs : s.heldDown) :
    t.heldDown := by
  by_cases hd : s.down
  · exact heldDown_of_rest (hr hd) hs
  · exact heldDown_of_not_down (fun h => hd ((down_of_pins hp).1 h))

/-- Held down, the module is in BOOT, and its minimal link answers RESET_STUCK. -/
theorem State.heldDown.shut {s : State} (hs : s.heldDown) (hd : s.down) : s.shut := by
  obtain ⟨hm, -, hl⟩ := hs hd
  exact ⟨hm, hl⟩

/-- Every command keeps what is held in reset (R36, R52 to R54). -/
theorem exec_heldDown {c : Instr} {s t : State} (h : exec c s = .next t) (hs : s.heldDown) : t.heldDown := by
  by_cases hr : c = .resetStuck
  · subst hr
    exact execResetStuck_heldDown s hs t h
  cases hc : movesMode c
  · exact heldDown_of_pins (exec_pins h (.inl hc)) (fun hd => exec_rest h hd (hs.shut hd) hc hr) hs
  match c, hc, h with
  | .powerOn r, _, h =>
    unfold State.heldDown at hs ⊢
    rw [execPowerOn_hk r s t h]
    split
    · exact hs
    · exact fun _ => ⟨rfl, rfl, fun k => absurd k Bool.false_ne_true⟩
  | .powerLoss12V, _, h =>
    unfold State.heldDown at hs ⊢
    rw [execPowerLoss12V_hk s t h]
    split
    · exact fun _ => ⟨rfl, rfl, fun k => absurd k Bool.false_ne_true⟩
    · exact hs
  | .supply24VApply, _, h =>
    unfold State.heldDown at hs ⊢
    rw [execSupply24VApply_hk s t h]
    exact hs
  | .supply24VLoss, _, h =>
    unfold State.heldDown at hs ⊢
    rw [execSupply24VLoss_hk s t h]
    exact hs
  | .rstNLow, _, h => exact execRstNLow_heldDown s hs t h
  | .rstNRise ms, _, h =>
    unfold State.heldDown at hs ⊢
    rw [execRstNRise_hk ms s t h]
    split
    · next hv => exact fun hd => absurd hd (by simp [hv.1])
    · exact hs
  | .modeTransitionComplete env, _, h =>
    refine heldDown_of_pins (exec_pins h (.inr (.inl ⟨env, rfl⟩))) (fun hd => ?_) hs
    obtain ⟨-, ht, -⟩ := hs hd
    cases h
    rw [ht]
  | .drainComplete, _, h =>
    refine heldDown_of_pins (exec_pins h (.inr (.inr (.inl rfl)))) (fun hd => ?_) hs
    obtain ⟨hm, -, -⟩ := hs hd
    cases h
    rw [if_pos (.inl (by rw [hm]; decide))]
  | .sliceOpen, _, h =>
    exact heldDown_of_pins (exec_pins h (.inr (.inr (.inr rfl)))) (fun hd => execSliceOpen_boot s (hs hd).1 t h) hs

/-- Settles O4: at reset no word is listed, and the module stands in BOOT. -/
theorem invHoldsAtReset : Obligations.InvHoldsAtReset := by
  unfold Obligations.InvHoldsAtReset
  exact ⟨rfl, fun _ => ⟨rfl, rfl, fun h => absurd h (by decide)⟩⟩

/-- Settles O5: an idle step leaves what the invariant speaks of, and every command keeps it. -/
theorem invKeptByEveryStep : Obligations.InvKeptByEveryStep := by
  unfold Obligations.InvKeptByEveryStep
  rintro s t ⟨hw, hs⟩ h
  unfold step at h
  split at h
  · cases h
    exact ⟨State.tick_nvdWf s hw, heldDown_of_rest (State.tick_rest s) hs⟩
  · exact ⟨exec_nvdWf h hw, exec_heldDown h hs⟩

/-! ### The mode -/

/-- The mode in which each transition ends. -/
theorem State.enterLoad_mode (s : State) : s.enterLoad.hk.mode = .load := by
  unfold State.enterLoad
  rw [mode_of (State.lidOff_core _), State.modeDone_hk]

theorem State.toSimmer_mode (s : State) (env : EntryEnv) : (s.toSimmer env).hk.mode = .simmer := by
  unfold State.toSimmer
  rw [mode_of (State.firstDreq_core _), State.modeDone_hk]

theorem State.toCalib_mode (s : State) (env : EntryEnv) : (s.toCalib env).hk.mode = .calib := by
  unfold State.toCalib
  rw [mode_of (State.whiskStart_core _ _), mode_of (State.startSamplers_core _), State.modeDone_hk]

theorem State.toTest_mode (s : State) (env : EntryEnv) : (s.toTest env).hk.mode = .test := by
  unfold State.toTest
  rw [mode_of (State.tapEnters_core _), mode_of (State.startSamplers_core _), State.modeDone_hk]

theorem State.toSafe_mode (s : State) (env : EntryEnv) : (s.toSafe env).hk.mode = .safe := by
  unfold State.toSafe
  extract_lets t p k v w u x
  have hx : x.hk.mode = .safe := by
    show ((u.modeDone .safe s.hk.tcause).firstDreq).hk.mode = .safe
    rw [mode_of (State.firstDreq_core _), State.modeDone_hk]
  clear_value x
  split
  · rw [mode_of (State.lidDegrade_core _ _), hx]
  · exact hx

theorem State.toRun_mode (s : State) (env : EntryEnv) : (s.toRun env).hk.mode = .run := by
  unfold State.toRun
  extract_lets
  rw [mode_of (State.heldEnd_core _ _)]
  exact congrArg Hk.mode (State.modeDone_hk _ _ _)

/-- BOOT after a LOAD that found no image. -/
theorem State.bootAfterLoad_mode (s : State) (cause : Nat) :
    ({ s.modeDone .boot cause with hk := { (s.modeDone .boot cause).hk with minimalLink := true } } : State).bootHk.hk.mode =
      .boot := by
  rw [mode_of (State.bootHk_core _), State.modeDone_hk]

/-- A transition that ends reaches its target. -/
theorem execModeTransitionComplete_mode (env : EntryEnv) (s : State) : ∀ t, execModeTransitionComplete env s = .next t →
    t.hk.mode ≠ s.hk.mode → s.hk.target = some t.hk.mode := by
  intro t h k
  rw [← Host.Outcome.next.inj h] at k ⊢
  clear h
  split at k
  · exact absurd rfl k
  · next h => rw [State.enterLoad_mode, h]
  · next h => rw [State.toSimmer_mode, h]
  · next h => rw [State.toCalib_mode, h]
  · next h => rw [State.toRun_mode, h]
  · next h =>
    split at k
    · exact absurd rfl k
    · next hs => rw [if_neg hs, State.toSafe_mode, h]
  · next h => rw [State.toTest_mode, h]
  · next h => rw [State.bootAfterLoad_mode, h]
  · exact absurd rfl k

/-- An opening slice past Sl ends RUN, and changes the mode in no other way (R45). -/
theorem execSliceOpen_mode (s : State) : ∀ t, execSliceOpen s = .next t → t.hk.mode ≠ s.hk.mode →
    s.hk.mode = .run ∧ s.hk.target = some .drain ∧ t.hk.mode = .drain := by
  have kept {u : State} (h : u.core = s.core) (k : u.hk.mode ≠ s.hk.mode) : s.hk.mode = .run ∧ s.hk.target = some .drain ∧
      u.hk.mode = .drain := absurd (mode_of h) k
  intro t h
  unfold execSliceOpen at h
  extract_lets n past x at h
  clear_value past
  cases h
  have hx : x.core = s.core := by simp [x]
  split
  · exact kept rfl
  · split
    · split
      · next h =>
        obtain ⟨hm, ht, -⟩ := h
        exact fun _ => ⟨hm, ht, by rw [State.modeDone_hk]⟩
      · exact kept rfl
    · split
      · exact kept rfl
      · exact kept (by simp [hx])

/-- The end of DRAIN leads to SIMMER, where it changes the mode at all (R45). -/
theorem execDrainComplete_mode (s : State) : ∀ t, execDrainComplete s = .next t → t.hk.mode ≠ s.hk.mode →
    s.hk.mode = .drain ∧ s.run.closedMark = true ∧ t.hk.mode = .simmer := by
  rintro t ⟨⟩
  split
  · exact fun k => absurd rfl k
  · next h =>
    push Not at h
    obtain ⟨hm, hc, -, -⟩ := h
    exact fun _ => ⟨hm, by simpa using hc, by rw [State.modeDone_hk]⟩

/-- Settles O7: the commands that move the mode, one by one. -/
theorem modeChangesOnlyAsGiven : Obligations.ModeChangesOnlyAsGiven := by
  unfold Obligations.ModeChangesOnlyAsGiven
  intro c s t h hm
  cases hc : movesMode c
  · exact absurd (congrArg (fun b : List Instr × Mode × Bool × Bool × Bool => b.2.1) (exec_bare h hc)) hm
  match c, hc, h with
  | .powerOn r, _, h =>
    rw [execPowerOn_hk r s t h] at hm ⊢
    split at hm
    · exact absurd rfl hm
    · next hv => exact .inl ⟨by rw [if_neg hv]; rfl, .inr (.inr ⟨r, rfl⟩)⟩
  | .powerLoss12V, _, h =>
    rw [execPowerLoss12V_hk s t h] at hm ⊢
    split at hm
    · next hv => exact .inl ⟨by rw [if_pos hv]; rfl, .inl rfl⟩
    · exact absurd rfl hm
  | .supply24VApply, _, h => exact absurd (by rw [execSupply24VApply_hk s t h]) hm
  | .supply24VLoss, _, h => exact absurd (by rw [execSupply24VLoss_hk s t h]) hm
  | .rstNLow, _, h =>
    refine .inl ⟨?_, .inr (.inl rfl)⟩
    cases h
    split at hm
    · exact absurd rfl hm
    · next hv =>
      rw [if_neg hv, State.setFld_hk]
      exact (State.enterBoot_rest _ 1).1
  | .rstNRise ms, _, h =>
    refine absurd ?_ hm
    rw [execRstNRise_hk ms s t h]
    split <;> rfl
  | .modeTransitionComplete env, _, h =>
    exact .inr (.inl ⟨env, rfl, execModeTransitionComplete_mode env s t h hm⟩)
  | .drainComplete, _, h => exact .inr (.inr (.inr ⟨rfl, execDrainComplete_mode s t h hm⟩))
  | .sliceOpen, _, h => exact .inr (.inr (.inl ⟨rfl, execSliceOpen_mode s t h hm⟩))

end Sys2Proof.Machine
end

section
/-! O15: what the supplies do as they come and go (R36, R368, R373, R425). -/

namespace Sys2Proof.Machine

/-! ### The measured 24 V -/

/-- The measured level changes a register and draws an open value; nothing else. -/
theorem State.setV24_only (s : State) (ok : Bool) :
    s.setV24 ok = { s with regs := (s.setV24 ok).regs, free := (s.setV24 ok).free } := by
  unfold State.setV24
  apply State.ext' <;> simp

@[simp] theorem State.setV24_lid (s : State) (ok : Bool) : (s.setV24 ok).lid = s.lid := by
  rw [State.setV24_only]

/-- The level that is set is judged as it was meant (R368). -/
theorem State.v24ok_setV24 (s : State) (ok : Bool) : (s.setV24 ok).v24ok = ok := by
  unfold State.setV24 State.v24ok
  dsimp only
  rw [State.fld_setFld _ _ (by decide) (by decide)]
  generalize s.draw.1 = d
  cases ok
  · have : (d % 19200) % 2 ^ (15 + 1 - 0) < 19200 := by omega
    simp only [Bool.false_eq_true, if_false, Bool.and_eq_false_iff, decide_eq_false_iff_not]
    omega
  · simp only [if_true, Bool.and_eq_true, decide_eq_true_eq]
    omega

/-! ### The Lid -/

/-- The register just stored reads as stored. -/
theorem State.reg_setReg (s : State) (a : Nat) (v : W32) : (s.setReg a v).reg a = v := by
  unfold State.setReg State.reg
  rw [State.phys_setRegAt, State.regAt_setRegAt, if_pos rfl]

/-- No reset waits, and none is rejected. -/
theorem State.lidCancel_none {s : State} (h : s.lid.acc = none) (cause idx : Nat) : s.lidCancel cause idx = s := by
  unfold State.lidCancel
  rw [h]

/-- A Lid that is OFF, with no reset that waits, stays as it is. -/
theorem State.lidOff_off {s : State} (h : s.lid.state = .off) (ha : s.lid.acc = none) : s.lidOff = s := by
  have hb : s.lid.biasOn = false := by
    unfold Lid.biasOn
    rw [h]
    rfl
  unfold State.lidOff State.lidGo
  rw [State.lidCancel_none ha, hb]
  simp [h, State.eventIf]

/-- No state change, no cause: a fault cause leads to FAULT, but out of OFF (R353, R354). -/
theorem Lid.after_fault (l : Lid) {cause : Nat} (h : 0x10 ≤ cause) :
    l.after cause = if l.state = .off then .off else .fault := by
  unfold Lid.after
  rw [if_pos h]
  simp

/-! ### The statement -/

/-- The state in which 12 V has just come. -/
def State.poweredOn (s : State) (r : Bool) : State :=
  { s with hk := { Hk.reset with v12 := true, v24 := s.hk.v24, rstN := r } }

theorem exec_powerOn (r : Bool) {s : State} (hv : s.hk.v12 = false) :
    exec (.powerOn r) s = .next ((s.poweredOn r).lidOff.setReg Reg.HK_XO_STS 3) := by
  show Host.Outcome.next (if _ then _ else _) = _
  rw [if_neg (by simp [hv])]
  rfl

/-- 12 V comes (R36). -/
theorem execPowerOn_spec (r : Bool) (s : State) (hv : s.hk.v12 = false) : ∃ t, exec (.powerOn r) s = .next t ∧
    t.hk = { Hk.reset with v12 := true, v24 := s.hk.v24, rstN := r } ∧ t.hk.mode = .boot ∧ t.hk.cause = 0 ∧
    t.lid.state = .off ∧ t.reg Reg.HK_XO_STS = 3 ∧
    t = { s with hk := t.hk, lid := t.lid, regs := t.regs, sts := t.sts, pq := t.pq, lanes := t.lanes, err := t.err } ∧
    (s.lid.state = .off → s.lid.acc = none → t = { s with hk := t.hk, regs := t.regs }) := by
  have hk : ((s.poweredOn r).lidOff.setReg Reg.HK_XO_STS 3).hk = (s.poweredOn r).hk := State.lidOff_hk _ (.inl rfl)
  refine ⟨_, exec_powerOn r hv, hk, ?_, ?_, ?_, State.reg_setReg _ _ _, ?_, fun ho ha => ?_⟩
  · rw [hk]; rfl
  · rw [hk]; rfl
  · rw [State.setReg_lid, State.lidOff_state]
  · rw [State.lidOff_down (s.poweredOn r) (.inl rfl)]
    rfl
  · rw [State.lidOff_off (s := s.poweredOn r) ho ha]
    rfl

/-- 12 V goes (R425, R373). -/
theorem execPowerLoss12V_spec (s : State) (hv : s.hk.v12 = true) : ∃ t, exec .powerLoss12V s = .next t ∧
    t.hk = { Hk.reset with v24 := s.hk.v24 } ∧ t.nvd.words = s.nvd.words ∧ t.tb = .reset ∧ t.lanes = [] ∧
    t.cda = .reset ∧ t.cdb = .reset ∧ t.lid.p.drive = false ∧ (s.hk.v24 = true → 0x15 ∈ t.lid.h.causes) ∧
    (s.hk.v24 = false → t.lid.state = .off ∧ t.lid.h.causes = [] ∧ t.regs = [] ∧ t.sts = []) := by
  have hn : ¬ (!s.hk.v12) = true := by simp [hv]
  have hk := execPowerLoss12V_hk s _ rfl
  rw [if_pos hv] at hk
  refine ⟨_, rfl, hk, ?_⟩
  rw [if_neg hn]
  refine ⟨rfl, rfl, rfl, rfl, rfl, ?_, fun h24 => ?_, fun h24 => ?_⟩
  · show (if _ then _ else _ : Lid).p.drive = false
    split <;> rfl
  · show 0x15 ∈ (if _ then _ else _ : Lid).h.causes
    rw [if_pos h24, if_pos h24]
    exact State.lidCause_mem s .h 0x15 0 0 (.inl (by decide))
  · simp only [h24, Bool.false_eq_true, if_false]
    exact ⟨rfl, rfl, trivial, trivial⟩

/-- 24 V comes (R425). -/
theorem execSupply24VApply_spec (s : State) (hv : s.hk.v24 = false) : ∃ t, exec .supply24VApply s = .next t ∧
    t.hk = { s.hk with v24 := true } ∧ t.v24ok = true ∧
    t.lid = { s.lid with linkP := false, linkH := false, ms := 0, demand := none } ∧
    t = { s with hk := t.hk, lid := t.lid, regs := t.regs, free := t.free } := by
  have hk := execSupply24VApply_hk s _ rfl
  refine ⟨_, rfl, hk, ?_⟩
  rw [if_neg (by simp [hv])]
  refine ⟨State.v24ok_setV24 _ _, State.setV24_lid _ _, ?_⟩
  rw [State.setV24_only]

/-- 24 V goes while 12 V stands (R368). -/
theorem execSupply24VLoss_on (s : State) (hv : s.hk.v24 = true) (h12 : s.hk.v12 = true) :
    ∃ t, exec .supply24VLoss s = .next t ∧ t.hk = { s.hk with v24 := false } ∧ t.v24ok = false ∧ t.lid.p.drive = false ∧
      t.lid.h.drive = false ∧ t.lid.qclosed = [false, false, false, false] ∧ t.lid.state = s.lid.state ∧
      t.lid.h.causes = s.lid.h.causes ∧ t.lid.h.st = .off ∧
      t = { s with hk := t.hk, lid := t.lid, regs := t.regs, sts := t.sts, pq := t.pq, lanes := t.lanes, err := t.err,
                   free := t.free } ∧
      (s.lid.acc = none → t = { s with hk := t.hk, lid := t.lid, regs := t.regs, free := t.free }) := by
  have hk := execSupply24VLoss_hk s _ rfl
  refine ⟨_, rfl, hk, ?_⟩
  rw [if_pos hv, if_pos h12]
  extract_lets l
  refine ⟨State.v24ok_setV24 _ _, ?_, ?_, ?_, ?_, ?_, ?_, ?_, fun ha => ?_⟩
  · rw [State.setV24_lid, (State.lidCancel_lid _ _ _).1]; rfl
  · rw [State.setV24_lid, (State.lidCancel_lid _ _ _).1]; rfl
  · rw [State.setV24_lid, (State.lidCancel_lid _ _ _).1]; rfl
  · rw [State.setV24_lid, (State.lidCancel_lid _ _ _).1]; rfl
  · rw [State.setV24_lid, (State.lidCancel_lid _ _ _).1]; rfl
  · rw [State.setV24_lid, (State.lidCancel_lid _ _ _).1]
  · rw [State.setV24_only, State.lidCancel_only]
  · rw [State.lidCancel_none (by exact ha), State.setV24_only]

/-- 24 V goes while 12 V is absent: every latched cause is lost (R368, R373). -/
theorem execSupply24VLoss_off (s : State) (hv : s.hk.v24 = true) (h12 : s.hk.v12 = false) :
    ∃ t, exec .supply24VLoss s = .next t ∧ t.hk = { s.hk with v24 := false } ∧ t.lid.state = .off ∧ t.lid.p.causes = [] ∧
      t.lid.h.causes = [] ∧ t = { s with hk := t.hk, lid := t.lid, regs := t.regs, sts := t.sts } := by
  refine ⟨_, rfl, execSupply24VLoss_hk s _ rfl, ?_⟩
  rw [if_pos hv, if_neg (by simp [h12])]
  exact ⟨rfl, rfl, rfl, rfl⟩

/-- 24 V has been low for 5 ms: channel P latches SUPPLY (R368). -/
theorem execSupplyLowExpire_spec (s : State) (h12 : s.hk.v12 = true) :
    ∃ t, exec .supplyLowExpire s = .next t ∧ 0x18 ∈ t.lid.h.causes ∧
      t.lid.state = (if s.lid.state = .off then .off else .fault) ∧
      (s.lid.biasOn = true → t.lid.p.drive = false ∧ t.lid.h.drive = false) := by
  refine ⟨_, rfl, ?_⟩
  rw [if_pos h12]
  refine ⟨State.lidCause_mem _ _ _ _ _ (.inl (by decide)), ?_, fun hb => ?_⟩
  · rw [State.lidCause_state, State.setV24_lid, Lid.after_fault _ (by decide)]
  · obtain ⟨hp, hh, -⟩ := State.lidCause_trip (s.setV24 false) .p 0x18 0 0 (by rw [State.setV24_lid, hb])
    exact ⟨hp, hh⟩

/-- Settles O15: one event of a supply a clause. -/
theorem suppliesActAsGiven : Obligations.SuppliesActAsGiven := by
  unfold Obligations.SuppliesActAsGiven
  exact ⟨execPowerOn_spec, execPowerLoss12V_spec, execSupply24VApply_spec, execSupply24VLoss_on, execSupply24VLoss_off,
    execSupplyLowExpire_spec⟩

end Sys2Proof.Machine
end

section
/-! O45: a write of HK_NVD_PAGE, by the class of a slot write (R50, R61). -/

namespace Sys2Proof

/-- Words that agree on the bits of a field agree on the field. -/
theorem bits_congr {n : Nat} {v w : BitVec n} {hi lo : Nat}
    (h : ∀ i, lo ≤ i → i ≤ hi → v.getLsbD i = w.getLsbD i) : bits v hi lo = bits w hi lo := by
  unfold bits
  apply Nat.eq_of_testBit_eq
  intro i
  simp only [Nat.testBit_mod_two_pow, Nat.testBit_shiftRight]
  by_cases hi' : i < hi + 1 - lo
  · have := h (lo + i) (by omega) (by omega)
    unfold BitVec.getLsbD at this
    rw [this]
  · simp [hi']

/-- A field inside the mask of a store is the field of the new word. -/
theorem bits_stored {n : Nat} (old v m : BitVec n) {hi lo : Nat} (h : ∀ i, lo ≤ i → i ≤ hi → m.getLsbD i = true) :
    bits ((old &&& ~~~m) ||| (v &&& m)) hi lo = bits v hi lo := by
  apply bits_congr
  intro i h1 h2
  simp [BitVec.getLsbD_or, BitVec.getLsbD_and, BitVec.getLsbD_not, h i h1 h2]

end Sys2Proof

namespace Sys2Proof.Machine

/-- A served request whose action is done: its effect, answered OK with DATA zero. -/
theorem State.access_done {s : State} {lane addr : Nat} (hs : s.serves lane addr = true) {act : State → Rep} {u : State}
    (h : act (s.got lane) = .done u) : s.access lane addr act = u.finish lane addr Stat.ok 0 := by
  rw [State.access_serves hs, h]
  show u.finish lane addr Stat.ok (if Stat.ok = Stat.ok then 0 else 0) = _
  rw [ite_self]

/-- The same of a write with a byte enabled. -/
theorem State.accessW_done {s : State} {lane addr : Nat} (hs : s.serves lane addr = true) {be : BitVec 4} (hb : be ≠ 0)
    {act : State → Rep} {u : State} (h : act (s.got lane) = .done u) :
    s.accessW lane addr be act = u.finish lane addr Stat.ok 0 := by
  rw [State.accessW_serves hs hb, h]
  show u.finish lane addr Stat.ok (if Stat.ok = Stat.ok then 0 else 0) = _
  rw [ite_self]

/-- A served write that is refused: the state that counted it, with the status of the refusal. -/
theorem State.accessW_no {s : State} {lane addr : Nat} (hs : s.serves lane addr = true) {be : BitVec 4} (hb : be ≠ 0)
    {act : State → Rep} {u : State} {status : Nat} (h : act (s.got lane) = .no status u) :
    s.accessW lane addr be act = u.finish lane addr status 0 := by
  rw [State.accessW_serves hs hb, h]
  show u.finish lane addr status (if status = Stat.ok then 0 else 0) = _
  rw [ite_self]

/-- A write request to HK_NVD_PAGE reaches the plain write of its class. -/
theorem State.writeAct_nvdPage (s : State) (lane : Nat) (data : W32) (be : BitVec 4) :
    s.writeAct lane Reg.HK_NVD_PAGE data be = s.plainWrite Reg.HK_NVD_PAGE data be .nvdSlot := rfl

/-- The command is the write request. -/
theorem exec_registerWrite_nvdPage (lane : Lane) (data : W32) (be : BitVec 4) (s : State) :
    exec (.registerWrite lane (BitVec.ofNat 24 Reg.HK_NVD_PAGE) data be) s =
      .next (s.writeRequest lane Reg.HK_NVD_PAGE data be) := by
  have ha : (BitVec.ofNat 24 Reg.HK_NVD_PAGE).toNat = Reg.HK_NVD_PAGE := by decide
  show Host.Outcome.next (s.writeRequest lane (BitVec.ofNat 24 Reg.HK_NVD_PAGE).toNat data be) = _
  rw [ha]

/-- PAGE is inside the bits of HK_NVD_PAGE that a write stores. -/
theorem storeMask_page (i : Nat) (h : i ≤ 5) : (BitVec.ofNat 32 (storeMask Reg.HK_NVD_PAGE)).getLsbD i = true := by
  have hm : storeMask Reg.HK_NVD_PAGE = 0x3F := by decide
  rw [hm]
  interval_cases i <;> rfl

/-- A store leaves the lanes. -/
theorem State.lane_storeFields (s : State) (k n : Nat) (v : W32) : (s.storeFields k v).lane n = s.lane n := by
  unfold State.lane State.storeFields
  rw [State.setRegAt_lanes]

/-- An address outside nibble 2 names its own register (R411). -/
theorem State.reg_of_die (s : State) {a : Nat} (h : a / 0x100000 ≠ 2) : s.reg a = s.regAt a := by
  unfold State.reg
  rw [s.phys_of_die_ne_two h]

/-- A mode that does not take the class refuses the unlocked write and nothing changes (R51). -/
theorem State.plainWrite_refused {s : State} {k : Nat} {cls : Cls} (hl : s.lockMask k = 0) (hc : s.allows cls = false)
    (data : W32) (be : BitVec 4) : s.plainWrite k data be cls = .no Stat.stateReject s := by
  unfold State.plainWrite State.guarded
  dsimp only
  rw [s.lockHit_of_unlocked hl, hc]
  rfl

/-- The answer leaves the NVD. -/
theorem State.nvd_finish (s : State) (lane addr status : Nat) (data : W32) :
    (s.finish lane addr status data).nvd = s.nvd := by simp

/-- An address outside nibble 2 reads the same behind the answer. -/
theorem State.reg_finish (s : State) (lane addr status : Nat) (data : W32) {a : Nat} (ha : a / 0x100000 ≠ 2)
    (h : a ≠ Reg.LK_SC_REQ_CNT) : (s.finish lane addr status data).reg a = s.reg a := by
  rw [State.reg_of_die _ ha, State.reg_of_die _ ha, State.regAt_finish _ _ _ _ _ h]

/-- Settles O45: behind the mode's answer for the class stand the store of PAGE and the refusal. -/
theorem slotPageWritesFollowTheSlotClass : Obligations.SlotPageWritesFollowTheSlotClass := by
  unfold Obligations.SlotPageWritesFollowTheSlotClass
  intro lane data be s hs hb hl
  have hlg : (s.got lane).lockMask Reg.HK_NVD_PAGE = 0 := by rw [State.lockMask_got, hl]
  have hreg : (s.got lane).regAt Reg.HK_NVD_PAGE = s.reg Reg.HK_NVD_PAGE := by
    rw [s.reg_of_die (by decide), s.regAt_got lane (by decide)]
  have hnvd : (s.got lane).nvd = s.nvd := State.countLane_nvd _ _ _ _
  refine ⟨fun hc => ⟨s.writeRequest lane Reg.HK_NVD_PAGE data be, exec_registerWrite_nvdPage lane data be s, ?_⟩,
    fun hc => ⟨s.writeRequest lane Reg.HK_NVD_PAGE data be, exec_registerWrite_nvdPage lane data be s, ?_⟩⟩
  · have hact := State.plainWrite_open hlg (by rw [State.allows_got, hc] : (s.got lane).allows .nvdSlot = true) data be
    rw [← State.writeAct_nvdPage _ lane, hreg] at hact
    unfold State.writeRequest
    rw [State.accessW_done hs hb hact]
    refine ⟨State.replied_finish (by rw [State.storeFields_resp, State.resp_got])
      (by rw [State.lane_storeFields, State.lane_got]) _ _ _, ?_, ?_⟩
    · unfold State.fld
      rw [State.reg_finish _ _ _ _ _ (by decide) (by decide)]
      rw [State.reg_of_die _ (by decide), State.regAt_storeFields, if_pos rfl]
      exact bits_stored _ _ _ (fun i _ h => storeMask_page i h)
    · rw [State.nvd_finish, State.storeFields_nvd, hnvd]
  · have hact := State.plainWrite_refused hlg (by rw [State.allows_got, hc] : (s.got lane).allows .nvdSlot = false) data be
    rw [← State.writeAct_nvdPage _ lane] at hact
    unfold State.writeRequest
    rw [State.accessW_no hs hb hact]
    refine ⟨State.replied_finish (State.resp_got _ _) (by rw [State.lane_got]) _ _ _, ?_, ?_⟩
    · rw [State.reg_finish _ _ _ _ _ (by decide) (by decide), s.reg_got lane (by decide)]
    · rw [State.nvd_finish, hnvd]

end Sys2Proof.Machine
end

section
/-! O23: the channel table, the group enables, the rate gate and charge injection (R91 to R101). -/

namespace Sys2Proof

/-- The bits of a word whose low 24 bits are replaced. -/
theorem getLsbD_putBits_low (w : W64) (v : BitVec 24) (i : Nat) (hi : i < 64) :
    (putBits w 23 0 v.toNat).getLsbD i = if i < 24 then v.getLsbD i else w.getLsbD i := by
  have hv : v.toNat < 2 ^ 24 := v.isLt
  have ht : (putBits w 23 0 v.toNat).toNat = 2 ^ 24 * (w.toNat / 2 ^ 24) + v.toNat := by
    rw [toNat_putBits w (by decide) (by decide)]
    omega
  unfold BitVec.getLsbD
  rw [ht, Nat.testBit_two_pow_mul_add _ hv, Nat.testBit_div_two_pow]
  split
  · rfl
  · rw [Nat.sub_add_cancel (by omega)]

/-- The two stored parts of a channel-table entry are the entry, where its reserved bits are zero (R91). -/
theorem putBits_channelParts (x : W64) :
    putBits ((x &&& 0xDFFFFFFF00FFFFFF) &&& 0xFFFFFFFF00000000) 23 0
      ((x &&& 0xDFFFFFFF00FFFFFF).extractLsb' 0 24).toNat = x &&& 0xDFFFFFFF00FFFFFF := by
  have hmask : ∀ i : Fin 64, 24 ≤ i.val →
      ((0xDFFFFFFF00FFFFFF : W64).getLsbD i && (0xFFFFFFFF00000000 : W64).getLsbD i) =
        (0xDFFFFFFF00FFFFFF : W64).getLsbD i := by decide
  apply BitVec.eq_of_getLsbD_eq
  intro i hi
  rw [getLsbD_putBits_low _ _ i hi]
  split
  · next h => rw [BitVec.getLsbD_extractLsb', decide_eq_true h, Bool.true_and, Nat.zero_add]
  · next h =>
    rw [BitVec.getLsbD_and, BitVec.getLsbD_and, Bool.and_assoc, hmask ⟨i, hi⟩ (show 24 ≤ i by omega)]

end Sys2Proof

namespace Sys2Proof.Machine

/-! ### Clean words -/

theorem State.clean_iff (s : State) (d : Die) (mem idx : Nat) :
    s.clean d mem idx = true ↔ s.rawAt d mem idx = none ∧ s.badKind d mem idx = 0 := by
  unfold State.clean
  simp

/-- A clean word takes a narrow write (R336). -/
theorem State.merged_clean {s : State} {d : Die} {mem idx : Nat} (h : s.clean d mem idx = true) (eff : State → State) :
    s.merged d mem idx eff = .done (eff s) := by
  obtain ⟨hr, hb⟩ := (s.clean_iff d mem idx).1 h
  have hm : s.memMerge d mem idx = (true, s) := by
    unfold State.memMerge State.memRead State.memReadC State.takeRaw
    rw [hb, hr]
    rfl
  unfold State.merged
  rw [hm]
  rfl

theorem State.clean_got (s : State) (lane : Nat) (d : Die) (mem idx : Nat) :
    (s.got lane).clean d mem idx = s.clean d mem idx := by
  have he : (s.got lane).err = s.err := State.countLane_err _ _ _ _
  have hr : (s.got lane).rawAt d mem idx = s.rawAt d mem idx := by
    unfold State.rawAt
    rw [he]
  unfold State.clean State.badKind
  rw [hr, he]

/-- A guarded answer that nothing stands in the way of (R51). -/
theorem State.guardedR_open {s : State} {cls : Cls} (h : s.allows cls = true) (eff : Rep) :
    s.guardedR false false cls false eff = eff := by
  unfold State.guardedR
  simp [h]

/-! ### The channel table -/

theorem State.chanWord_congr {s t : State} (hf : t.fe.tab = s.fe.tab) (hc : t.cal.chan = s.cal.chan) (c : Nat) :
    t.chanWord c = s.chanWord c := by
  unfold State.chanWord State.calWord
  rw [hf, hc]

theorem State.chanWord_finish (s : State) (lane addr status : Nat) (data : W32) (c : Nat) :
    (s.finish lane addr status data).chanWord c = s.chanWord c :=
  State.chanWord_congr (by rw [State.finish_fe]) (by rw [State.finish_cal]) c

/-- The entry that a write of a half leaves, its reserved bits zero (R91, R401, R403). -/
def State.chanNew (s : State) (c : Nat) (high : Bool) (data : W32) (be : BitVec 4) : W64 :=
  setHalf (s.chanWord c) high (mergeBE (halfOf (s.chanWord c) high) data be) &&& 0xDFFFFFFF00FFFFFF

/-- The state with a new entry in its two parts. -/
def State.withChan (s : State) (c : Nat) (new : W64) : State :=
  { s with
    fe := { s.fe with tab := Sparse.put 0 c (new &&& 0xFFFFFFFF00000000) s.fe.tab },
    cal := { s.cal with chan := Sparse.put 0 c (new.extractLsb' 0 24) s.cal.chan } }

/-- The same, blanked where an analog bit changed (R93). -/
def State.chanWritten (s : State) (c : Nat) (new : W64) : State :=
  if ((s.chanWord c ^^^ new) &&& analogBits) = 0 then s.withChan c new
  else { s.withChan c new with fe := { (s.withChan c new).fe with blank := setIns c s.fe.blank } }

/-- A table write in a mode that takes it, of a clean word, is that state. -/
theorem State.chanWrite_open {s : State} {c : Nat} (hc : s.allows .tableWrite = true)
    (hw : s.clean .fed 0x13 (chanIdx c) = true) (high : Bool) (data : W32) (be : BitVec 4) :
    s.chanWrite c high data be = .done (s.chanWritten c (s.chanNew c high data be)) := by
  unfold State.chanWrite
  extract_lets eff
  rw [State.guardedR_open hc, State.merged_clean hw]
  rfl

theorem State.chanWritten_tab (s : State) (c : Nat) (new : W64) :
    (s.chanWritten c new).fe.tab = Sparse.put 0 c (new &&& 0xFFFFFFFF00000000) s.fe.tab := by
  unfold State.chanWritten
  split <;> rfl

theorem State.chanWritten_cal (s : State) (c : Nat) (new : W64) :
    (s.chanWritten c new).cal.chan = Sparse.put 0 c (new.extractLsb' 0 24) s.cal.chan := by
  unfold State.chanWritten
  split <;> rfl

theorem State.chanWritten_resp (s : State) (c : Nat) (new : W64) : (s.chanWritten c new).resp = s.resp := by
  unfold State.chanWritten
  split <;> rfl

theorem State.chanWritten_lanes (s : State) (c : Nat) (new : W64) : (s.chanWritten c new).lanes = s.lanes := by
  unfold State.chanWritten
  split <;> rfl

theorem State.chanWritten_blank (s : State) (c : Nat) (new : W64) : (s.chanWritten c new).fe.blank =
    if ((s.chanWord c ^^^ new) &&& analogBits) = 0 then s.fe.blank else setIns c s.fe.blank := by
  unfold State.chanWritten
  split <;> rfl

theorem State.chanWord_chanWritten (s : State) (c : Nat) (x : W64) (c' : Nat) :
    (s.chanWritten c (x &&& 0xDFFFFFFF00FFFFFF)).chanWord c' =
      if c' = c then x &&& 0xDFFFFFFF00FFFFFF else s.chanWord c' := by
  unfold State.chanWord State.calWord
  rw [State.chanWritten_tab, State.chanWritten_cal, Sparse.get_put, Sparse.get_put]
  split
  · exact putBits_channelParts x
  · rfl

/-- What a served channel-table write leaves (R93). -/
theorem channelTableWrite_acts {lane : Lane} {s : State} {ch : Chan} {high : Bool} {be : BitVec 4}
    (hs : s.serves lane (chanAddr ch high) = true) (hb : be ≠ 0) (hc : s.allows .tableWrite = true)
    (hw : s.clean .fed 0x13 (chanIdx ch) = true) (data : W32) :
    ∃ t, exec (.channelTableWrite lane ch high data be) s = .next t ∧
      s.replied t lane (chanAddr ch high) Stat.ok 0 ∧
      t.chanWord ch = setHalf (s.chanWord ch) high (mergeBE (halfOf (s.chanWord ch) high) data be) &&&
        0xDFFFFFFF00FFFFFF ∧
      (∀ c, c ≠ ch.val → t.chanWord c = s.chanWord c) ∧
      (((s.chanWord ch ^^^ t.chanWord ch) &&& analogBits) ≠ 0 → ch.val ∈ t.fe.blank) ∧
      (((s.chanWord ch ^^^ t.chanWord ch) &&& analogBits) = 0 → t.fe.blank = s.fe.blank) := by
  have hfe : (s.got lane).fe = s.fe := State.countLane_fe _ _ _ _
  have hcal : (s.got lane).cal = s.cal := State.countLane_cal _ _ _ _
  have hword : ∀ c, (s.got lane).chanWord c = s.chanWord c := State.chanWord_congr (by rw [hfe]) (by rw [hcal])
  have hnew : (s.got lane).chanNew ch high data be =
      setHalf (s.chanWord ch) high (mergeBE (halfOf (s.chanWord ch) high) data be) &&& 0xDFFFFFFF00FFFFFF := by
    unfold State.chanNew
    rw [hword]
  have hact := State.chanWrite_open (by rw [State.allows_got, hc]) (by rw [State.clean_got, hw]) high data be
    (s := s.got lane) (c := ch)
  rw [hnew] at hact
  have hchan : ∀ c, ((((s.got lane).chanWritten ch (setHalf (s.chanWord ch) high
      (mergeBE (halfOf (s.chanWord ch) high) data be) &&& 0xDFFFFFFF00FFFFFF)).finish lane (chanAddr ch high) Stat.ok
        0).chanWord c) = if c = ch then setHalf (s.chanWord ch) high
      (mergeBE (halfOf (s.chanWord ch) high) data be) &&& 0xDFFFFFFF00FFFFFF else s.chanWord c := fun c => by
    rw [State.chanWord_finish, State.chanWord_chanWritten, hword]
  refine ⟨_, (congrArg Host.Outcome.next (State.accessW_done hs hb hact)), ?_, ?_, fun c hne => ?_, ?_, ?_⟩
  · exact State.replied_finish (by rw [State.chanWritten_resp, State.resp_got])
      (by unfold State.lane; rw [State.chanWritten_lanes]; exact congrArg LaneSt.e (s.lane_got lane lane)) _ _ _
  · rw [hchan, if_pos rfl]
  · rw [hchan, if_neg hne]
  all_goals
    rw [hchan, if_pos rfl, State.finish_fe, State.chanWritten_blank, hword, hfe]
  · intro h
    rw [if_neg h]
    exact mem_setIns_self _ _
  · intro h
    rw [if_pos h]

/-! ### Register writes that act on the front end -/

/-- What `takes` leaves to the state that counted the request. -/
theorem State.takes_got {s : State} {lane a : Nat} {be : BitVec 4} (ha : a / 0x100000 ≠ 2)
    (h : s.takes lane a be = true) : s.serves lane a = true ∧ be ≠ 0 ∧ (s.got lane).lockMask a = 0 ∧
      (s.got lane).allows .writeCfg = true := by
  obtain ⟨hs, hb, hl, hc⟩ := (s.takes_iff _ _ _).1 h
  rw [s.phys_of_die_ne_two ha] at hl
  exact ⟨hs, hb, by rw [State.lockMask_got, hl], by rw [State.allows_got, hc]⟩

/-- A request's value stored in a register, with what becomes of the front end. -/
def State.storeWithFe (s : State) (a : Nat) (v : W32) (fe : Fe) : State := { s.storeFields a v with fe := fe }

theorem State.storeWithFe_fe (s : State) (a : Nat) (v : W32) (fe : Fe) : (s.storeWithFe a v fe).fe = fe := rfl

theorem State.storeWithFe_regs (s : State) (a : Nat) (v : W32) (fe : Fe) :
    (s.storeWithFe a v fe).regs = (s.storeFields a v).regs := rfl

theorem State.storeWithFe_resp (s : State) (a : Nat) (v : W32) (fe : Fe) : (s.storeWithFe a v fe).resp = s.resp := rfl

theorem State.storeWithFe_lanes (s : State) (a : Nat) (v : W32) (fe : Fe) : (s.storeWithFe a v fe).lanes = s.lanes := rfl

theorem State.reg_storeWithFe (s : State) (a : Nat) (v : W32) (fe : Fe) (b : Nat) (hb : b / 0x100000 ≠ 2) :
    (s.storeWithFe a v fe).reg b = if b = a then s.storedWord a v else s.reg b := by
  rw [State.reg_of_die _ hb, State.reg_of_die _ hb, State.regAt_congr (s.storeWithFe_regs a v fe), State.regAt_storeFields]

/-- The response of a request with such an effect. -/
theorem State.replied_storeWithFe (s : State) (lane a : Nat) (v : W32) (fe : Fe) :
    s.replied (((s.got lane).storeWithFe a v fe).finish lane a Stat.ok 0) lane a Stat.ok 0 := by
  refine State.replied_finish ?_ ?_ _ _ _
  · rw [State.storeWithFe_resp, State.resp_got]
  · unfold State.lane
    rw [State.storeWithFe_lanes]
    exact congrArg LaneSt.e (s.lane_got lane lane)

theorem State.k_got (s : State) (lane : Nat) : (s.got lane).k = s.k := by
  have h : (s.got lane).regAt (effKey Reg.SLC_CFG) = s.regAt (effKey Reg.SLC_CFG) :=
    s.regAt_got_ne lane (by unfold effKey instKey Reg.SLC_CFG Reg.LK_LANE_RX_UNITS; omega)
  unfold State.k State.eff
  rw [h]

theorem State.fe_got (s : State) (lane : Nat) : (s.got lane).fe = s.fe := State.countLane_fe _ _ _ _

theorem State.tb_got (s : State) (lane : Nat) : (s.got lane).tb = s.tb := State.countLane_tb _ _ _ _

/-- A group-enable register holds enables in all its bits. -/
theorem storedWord_whole (s : State) {a : Nat} (h : storeMask a = 0xFFFFFFFF) (v : W32) : s.storedWord a v = v := by
  unfold State.storedWord
  rw [h]
  have h1 : BitVec.ofNat 32 0xFFFFFFFF = BitVec.allOnes 32 := by decide
  dsimp only
  rw [h1, BitVec.not_allOnes, BitVec.and_zero, BitVec.zero_or, BitVec.and_allOnes]

/-- The address of a group-enable register. -/
abbrev groupEnAddr (high : Bool) : Nat := if high then Reg.FE_GROUP_EN_1 else Reg.FE_GROUP_EN_0

/-- The enables as written after such a store. -/
def State.groupRegWith (s : State) (high : Bool) (v : W32) : BitVec 64 :=
  if high then v.append (s.reg Reg.FE_GROUP_EN_0) else (s.reg Reg.FE_GROUP_EN_1).append v

/-- The front end after the write of a group-enable register (R95). -/
def State.groupsWritten (s : State) (high : Bool) (v : W32) : Fe :=
  if s.hk.mode = .run ∨ s.hk.mode = .drain then
    { s.fe with groupEff := s.groupsAt s.tb.tn,
                groupPend := some ((s.tb.tn / 2 ^ s.k + 1) * 2 ^ s.k, s.groupRegWith high v) }
  else { s.fe with groupEff := s.groupRegWith high v, groupPend := none }

theorem State.groupReg_store (s : State) (high : Bool) (v : W32) (fe : Fe) :
    (s.storeWithFe (groupEnAddr high) v fe).groupReg = s.groupRegWith high v := by
  have hm : ∀ b, storeMask (groupEnAddr b) = 0xFFFFFFFF := by decide
  unfold State.groupReg State.groupRegWith
  rw [State.reg_storeWithFe _ _ _ _ _ (by decide),
    State.reg_storeWithFe _ _ _ _ _ (by decide), storedWord_whole _ (hm high)]
  cases high
  · rw [if_neg (by decide), if_pos (by decide), if_neg (by decide)]
  · rw [if_pos (by decide), if_neg (by decide), if_pos rfl]

theorem State.groupWrite_open {s : State} {high : Bool} (hl : s.lockMask (groupEnAddr high) = 0)
    (hc : s.allows .writeCfg = true) (data : W32) (be : BitVec 4) :
    s.groupWrite high data be = .done (s.storeWithFe (groupEnAddr high) (mergeBE (s.reg (groupEnAddr high)) data be)
      (s.groupsWritten high (mergeBE (s.reg (groupEnAddr high)) data be))) := by
  have hr : (s.storeFields (groupEnAddr high) (mergeBE (s.reg (groupEnAddr high)) data be)).groupReg =
    s.groupRegWith high (mergeBE (s.reg (groupEnAddr high)) data be) := s.groupReg_store high _ s.fe
  unfold State.groupWrite State.groupsWritten
  dsimp only
  rw [hr, s.lockHit_of_unlocked hl, s.guarded_open hc]
  rfl

theorem State.groupReg_finish (s : State) (lane n status : Nat) (data : W32) :
    (s.finish lane n status data).groupReg = s.groupReg := by
  unfold State.groupReg
  rw [State.reg_finish _ _ _ _ _ (by decide) (by decide), State.reg_finish _ _ _ _ _ (by decide) (by decide)]

/-- What a served group-enable write leaves (R95). -/
theorem groupEnableWrite_acts {lane : Lane} {s : State} {be : BitVec 4} (high : Bool)
    (h : s.takes lane (groupEnAddr high) be = true) (data : W32) :
    ∃ t, exec (.groupEnableWrite lane high data be) s = .next t ∧
      s.replied t lane (groupEnAddr high) Stat.ok 0 ∧
      t.reg (groupEnAddr high) = mergeBE (s.reg (groupEnAddr high)) data be ∧
      (s.hk.mode ≠ .run → s.hk.mode ≠ .drain → t.fe = { s.fe with groupEff := t.groupReg, groupPend := none }) ∧
      (s.hk.mode = .run ∨ s.hk.mode = .drain → t.fe = { s.fe with
        groupEff := s.groupsAt s.tb.tn, groupPend := some ((s.tb.tn / 2 ^ s.k + 1) * 2 ^ s.k, t.groupReg) }) := by
  have hd : groupEnAddr high / 0x100000 ≠ 2 := by cases high <;> decide
  have hm : storeMask (groupEnAddr high) = 0xFFFFFFFF := by cases high <;> decide
  have hn : groupEnAddr high ≠ Reg.LK_SC_REQ_CNT := by cases high <;> decide
  have hlt : groupEnAddr high < 0x1000000 := by cases high <;> decide
  obtain ⟨hs, hb, hl, hc⟩ := State.takes_got hd h
  have hact := State.groupWrite_open hl hc data be
  rw [s.reg_got lane hlt] at hact
  have hreg : ((s.got lane).storeWithFe (groupEnAddr high) (mergeBE (s.reg (groupEnAddr high)) data be)
      ((s.got lane).groupsWritten high (mergeBE (s.reg (groupEnAddr high)) data be))).groupReg = _ :=
    State.groupReg_store _ _ _ _
  refine ⟨_, congrArg Host.Outcome.next (State.accessW_done hs hb hact), State.replied_storeWithFe s lane _ _ _, ?_,
    fun h1 h2 => ?_, fun h1 => ?_⟩
  · rw [State.reg_finish _ _ _ _ _ hd hn, State.reg_storeWithFe _ _ _ _ _ hd, if_pos rfl, storedWord_whole _ hm]
  · rw [State.finish_fe, State.storeWithFe_fe, State.groupReg_finish, hreg]
    unfold State.groupsWritten
    rw [State.hk_got, if_neg (by simp [h1, h2]), State.fe_got]
  · rw [State.finish_fe, State.storeWithFe_fe, State.groupReg_finish, hreg]
    unfold State.groupsWritten State.groupsAt
    rw [State.hk_got, if_pos h1, State.fe_got, State.tb_got, State.k_got]

/-! ### The rate gate -/

/-- The front end after the write of FE_RATE_GATE (R97). -/
def State.gateWritten (s : State) (g : Nat) : Fe :=
  if g = 0 then { s.fe with gate := 0 } else if s.fe.gate = 0 then { s.fe with gate := g, cnt := [] } else s.fe

theorem State.gateWrite_open {s : State} (hl : s.lockMask Reg.FE_RATE_GATE = 0) (hc : s.allows .writeCfg = true)
    (data : W32) (be : BitVec 4) : s.gateWrite data be =
      .done (s.storeWithFe Reg.FE_RATE_GATE (mergeBE (s.reg Reg.FE_RATE_GATE) data be)
        (s.gateWritten (bits (mergeBE (s.reg Reg.FE_RATE_GATE) data be) 9 0))) := by
  unfold State.gateWrite State.gateWritten
  dsimp only
  rw [s.lockHit_of_unlocked hl, s.guarded_open hc]
  rfl

/-- GATE is inside the bits of FE_RATE_GATE that a write stores. -/
theorem storeMask_gate (i : Nat) (h : i ≤ 9) : (BitVec.ofNat 32 (storeMask Reg.FE_RATE_GATE)).getLsbD i = true := by
  have hm : storeMask Reg.FE_RATE_GATE = 0x3FF := by decide
  rw [hm]
  interval_cases i <;> rfl

/-- What a served rate-gate write leaves (R97). -/
theorem rateGateWrite_acts {lane : Lane} {s : State} {be : BitVec 4} (h : s.takes lane Reg.FE_RATE_GATE be = true)
    (data : W32) : ∃ t, exec (.rateGateWrite lane data be) s = .next t ∧ s.replied t lane Reg.FE_RATE_GATE Stat.ok 0 ∧
      (let g := bits (mergeBE (s.reg Reg.FE_RATE_GATE) data be) 9 0
       t.fld Reg.FE_RATE_GATE 9 0 = g ∧
       (g = 0 → t.fe = { s.fe with gate := 0 }) ∧
       (g ≠ 0 → s.fe.gate = 0 → t.fe = { s.fe with gate := g, cnt := [] }) ∧
       (g ≠ 0 → s.fe.gate ≠ 0 → t.fe = s.fe)) := by
  obtain ⟨hs, hb, hl, hc⟩ := State.takes_got (by decide) h
  have hact := State.gateWrite_open hl hc data be
  rw [s.reg_got lane (by decide)] at hact
  refine ⟨_, congrArg Host.Outcome.next (State.accessW_done hs hb hact), State.replied_storeWithFe s lane _ _ _, ?_⟩
  extract_lets g
  refine ⟨?_, fun h0 => ?_, fun h0 h1 => ?_, fun h0 h1 => ?_⟩
  · unfold State.fld
    rw [State.reg_finish _ _ _ _ _ (by decide) (by decide), State.reg_storeWithFe _ _ _ _ _ (by decide), if_pos rfl]
    exact bits_stored _ _ _ (fun i _ hi => storeMask_gate i hi)
  all_goals
    rw [State.finish_fe, State.storeWithFe_fe]
    unfold State.gateWritten
    rw [State.fe_got]
  · rw [if_pos h0]
  · rw [if_neg h0, if_pos h1]
  · rw [if_neg h0, if_neg h1]

/-- What a gate's counts set for the next slice is the CD's alone (R198). -/
theorem State.hotUpdate_only (s : State) (cnt : Sparse Nat) :
    (s.hotUpdate cnt).fe = s.fe ∧ (s.hotUpdate cnt).regs = s.regs ∧ (s.hotUpdate cnt).pq = s.pq ∧
      (s.hotUpdate cnt).out = s.out :=
  ⟨State.setCd_fe _ _, State.setCd_regs _ _, State.setCd_pq _ _, State.setCd_out _ _⟩

/-- What the end of a gate leaves (R97). -/
theorem rateGateEnd_acts {s : State} (hg : s.fe.gate ≠ 0) (ha : s.aclkRuns = true) :
    ∃ t, exec .rateGateEnd s = .next t ∧
      t.fe = { s.fe with snap := s.fe.cnt, cnt := [], gateSeq := s.fe.gateSeq + 1, snapSeq := s.fe.gateSeq + 1,
                         gate := s.fld Reg.FE_RATE_GATE 9 0 } ∧
      t.regs = s.regs ∧ t.pq = s.pq ∧ t.out = s.out := by
  refine ⟨_, congrArg Host.Outcome.next (if_neg (by simp [hg, ha])), ?_⟩
  obtain ⟨hfe, hregs, hpq, hout⟩ := State.hotUpdate_only
    { s with fe := { s.fe with
      snap := s.fe.cnt, cnt := [], gateSeq := s.fe.gateSeq + 1, snapSeq := s.fe.gateSeq + 1,
      gate := s.fld Reg.FE_RATE_GATE 9 0 } } s.fe.cnt
  exact ⟨hfe, hregs, hpq, hout⟩

/-! ### Charge injection -/

/-- The injector after the write of FE_INJ_CTRL, all bytes enabled (R99, R101). -/
def State.injWritten (s : State) (data : W32) : Inj :=
  if bitOf data 1 then { s.fe.inj with running := false }
  else if bitOf data 0 ∧ !s.fe.inj.running then
    { s.fe.inj with running := true, sent := 0, dither := bitOf data 2, next := s.tb.tn + 16 }
  else s.fe.inj

theorem State.injWrite_open {s : State} (hl : s.lockMask Reg.FE_INJ_CTRL = 0) (hc : s.allows .writeCfg = true)
    {data : W32} (hw : bitOf data 0 = true → s.hk.mode = .calib ∨ s.hk.mode = .test) : s.injWrite data 0xF =
      .done (s.storeWithFe Reg.FE_INJ_CTRL data { s.fe with inj := s.injWritten data }) := by
  have hall : (15 : BitVec 4).getLsbD 0 = true := rfl
  have hwait : (bitOf data 0 && !(s.hk.mode == .calib || s.hk.mode == .test)) = false := by
    cases h0 : bitOf data 0 with
    | false => rfl
    | true => rcases hw h0 with h | h <;> simp [h]
  unfold State.injWrite State.injWritten
  dsimp only
  rw [mergeBE_all, hall, Bool.and_true, Bool.and_true, hwait, s.lockHit_of_unlocked hl, s.guarded_open hc]
  rfl

/-- What GO and STOP leave: one write of FE_INJ_CTRL with the command's bit set. -/
theorem injWrite_acts {lane : Lane} {s : State} (h : s.takes lane Reg.FE_INJ_CTRL 0xF = true) {data : W32}
    (hw : bitOf data 0 = true → s.hk.mode = .calib ∨ s.hk.mode = .test) :
    ∃ t, s.accessW lane Reg.FE_INJ_CTRL 0xF (fun t => t.injWrite data 0xF) = t ∧
      s.replied t lane Reg.FE_INJ_CTRL Stat.ok 0 ∧ t.fe = { s.fe with inj := s.injWritten data } := by
  obtain ⟨hs, hb, hl, hc⟩ := State.takes_got (by decide) h
  have hact := State.injWrite_open hl hc (by rw [State.hk_got]; exact hw)
  refine ⟨_, State.accessW_done hs hb hact, State.replied_storeWithFe s lane _ _ _, ?_⟩
  rw [State.finish_fe, State.storeWithFe_fe]
  unfold State.injWritten
  rw [State.fe_got, State.tb_got]

/-- GO sets bit 0 and STOP bit 1 of the word. -/
theorem bitOf_or_one (data : W32) : bitOf (data ||| 1) 0 = true ∧ bitOf (data ||| 1) 1 = bitOf data 1 ∧
    bitOf (data ||| 1) 2 = bitOf data 2 := by
  unfold bitOf
  simp

theorem bitOf_or_two (data : W32) : bitOf (data ||| 2) 0 = bitOf data 0 ∧ bitOf (data ||| 2) 1 = true := by
  unfold bitOf
  simp

/-- GO starts an injection where none runs (R99). -/
theorem injGo_acts {lane : Lane} {s : State} {data : W32} (h : s.takes lane Reg.FE_INJ_CTRL 0xF = true)
    (hm : s.hk.mode = .calib ∨ s.hk.mode = .test) (hd : bitOf data 1 = false) (hr : s.fe.inj.running = false) :
    ∃ t, exec (.injGo lane data 0xF) s = .next t ∧ s.replied t lane Reg.FE_INJ_CTRL Stat.ok 0 ∧
      t.fe = { s.fe with inj := { s.fe.inj with
        running := true, sent := 0, dither := bitOf data 2, next := s.tb.tn + 16 } } := by
  obtain ⟨h0, h1, h2⟩ := bitOf_or_one data
  obtain ⟨t, ht, hrep, hfe⟩ := injWrite_acts h (fun _ => hm) (data := data ||| 1)
  refine ⟨t, congrArg Host.Outcome.next ht, hrep, ?_⟩
  unfold State.injWritten at hfe
  rw [hfe, h0, h1, h2, hd, hr, if_neg Bool.false_ne_true, if_pos ⟨rfl, rfl⟩]

/-- STOP ends the injection (R101). -/
theorem injStop_acts {lane : Lane} {s : State} {data : W32} (h : s.takes lane Reg.FE_INJ_CTRL 0xF = true)
    (hd : bitOf data 0 = false) :
    ∃ t, exec (.injStop lane data 0xF) s = .next t ∧ s.replied t lane Reg.FE_INJ_CTRL Stat.ok 0 ∧
      t.fe = { s.fe with inj := { s.fe.inj with running := false } } := by
  obtain ⟨h0, h1⟩ := bitOf_or_two data
  obtain ⟨t, ht, hrep, hfe⟩ := injWrite_acts h (data := data ||| 2) (fun hgo => by rw [h0, hd] at hgo; cases hgo)
  refine ⟨t, congrArg Host.Outcome.next ht, hrep, ?_⟩
  unfold State.injWritten at hfe
  rw [hfe, h1, if_pos rfl]

/-- What the delay of a strobe draws (R99). -/
theorem State.injDelay_draws (s : State) : (∃ n, s.injDelay.2 = { s with free := n }) ∧
    (s.fe.inj.dither = false → s.injDelay.1 = 32 * s.fld Reg.FE_INJ_CTRL 13 8) := by
  unfold State.injDelay
  split
  · next hd => exact ⟨⟨_, rfl⟩, fun h => absurd (hd.symm.trans h) (by decide)⟩
  · exact ⟨⟨s.free, rfl⟩, fun _ => rfl⟩

/-- The state in which a strobe falls: at its tick, its delay drawn. -/
def State.strobeState (s : State) (t : Nat) : State := (s.advanceTo t).injDelay.2

theorem State.strobeState_only (s : State) (t : Nat) :
    s.strobeState t = { s with tb := (s.advanceTo t).tb, free := (s.strobeState t).free } := by
  obtain ⟨n, hn⟩ := (s.advanceTo t).injDelay_draws.1
  unfold State.strobeState
  rw [hn]
  apply State.ext' <;> simp

/-- The charges of a strobe: of AMP, with one delay, on the channels that it reaches. -/
def State.strobeOuts (s : State) (t amp d : Nat) : List Out :=
  if amp = 0 then [] else (s.injChans t).map (fun c => .inject c amp d)

theorem mem_strobeOuts {s : State} {t amp d : Nat} {o : Out} (h : o ∈ s.strobeOuts t amp d) :
    ∃ c, o = .inject c amp d := by
  unfold State.strobeOuts at h
  split at h
  · cases h
  · obtain ⟨c, -, rfl⟩ := List.mem_map.1 h
    exact ⟨c, rfl⟩

/-- What a strobe makes of the injector (R99). -/
def State.strobed (s : State) (t d : Nat) : Inj :=
  { s.fe.inj with sent := s.fe.inj.sent + 1, last := some t, delay := d,
                  running := s.injCount = 0 || decide (s.fe.inj.sent + 1 < s.injCount), next := t + s.injPeriod }

/-- A strobe that falls due, on the state in which it falls. -/
theorem exec_injStrobe {s : State} (hr : s.fe.inj.running = true) (tick : Nat) :
    exec (.injStrobe tick) s = .next
      (let t := s.fe.inj.strobeTick tick
       let u := s.strobeState t
       let d := (s.advanceTo t).injDelay.1
       { u with fe := { u.fe with inj := u.strobed t d },
                out := u.out ++ u.strobeOuts t (u.fld Reg.FE_INJ_CTRL 25 16) d }) :=
  congrArg Host.Outcome.next (if_pos hr)

/-- What a strobe leaves (R99, R101). -/
theorem injStrobe_acts {s : State} (hr : s.fe.inj.running = true) (tick : Nat) :
    ∃ t, exec (.injStrobe tick) s = .next t ∧
      t.fe.inj.sent = s.fe.inj.sent + 1 ∧ t.fe.inj.last = some (s.fe.inj.strobeTick tick) ∧
      t.fe.inj.next = s.fe.inj.strobeTick tick + s.injPeriod ∧
      (s.fe.inj.dither = false → s.fe.inj.strobeTick tick = s.fe.inj.next) ∧
      (t.fe.inj.running = true ↔ s.injCount = 0 ∨ s.fe.inj.sent + 1 < s.injCount) ∧
      (∃ l, t.out = s.out ++ l ∧ ∀ o, o ∈ l → ∃ c d, o = .inject c (s.fld Reg.FE_INJ_CTRL 25 16) d ∧
        (s.fe.inj.dither = false → d = 32 * s.fld Reg.FE_INJ_CTRL 13 8)) ∧
      t = { s with fe := t.fe, out := t.out, free := t.free, tb := (s.advanceTo (s.fe.inj.strobeTick tick)).tb } := by
  have hd := (s.advanceTo (s.fe.inj.strobeTick tick)).injDelay_draws.2
  have hu := s.strobeState_only (s.fe.inj.strobeTick tick)
  refine ⟨_, exec_injStrobe hr tick, ?_⟩
  extract_lets t u d
  change u = _ at hu
  have hinj : u.strobed t d = s.strobed t d := by rw [hu]; rfl
  have hamp : u.fld Reg.FE_INJ_CTRL 25 16 = s.fld Reg.FE_INJ_CTRL 25 16 := by rw [hu]; rfl
  have hout : u.out = s.out := by rw [hu]
  refine ⟨?_, ?_, ?_, fun hdi => ?_, ?_, ⟨u.strobeOuts t (u.fld Reg.FE_INJ_CTRL 25 16) d, ?_, fun o ho => ?_⟩, ?_⟩
  · exact congrArg Inj.sent hinj
  · exact congrArg Inj.last hinj
  · exact congrArg Inj.next hinj
  · show (if _ then _ else _) = _
    rw [hdi, if_neg (by simp)]
  · rw [show (u.strobed t d).running = (s.strobed t d).running from congrArg Inj.running hinj]
    show (decide (s.injCount = 0) || decide (s.fe.inj.sent + 1 < s.injCount)) = true ↔ _
    simp
  · rw [hout]
  · obtain ⟨c, rfl⟩ := mem_strobeOuts ho
    refine ⟨c, d, by rw [hamp], fun hdi => ?_⟩
    have := hd (by rw [State.advanceTo_fe]; exact hdi)
    rw [show d = _ from this]
    unfold State.fld State.reg State.regAt State.phys
    rw [State.advanceTo_regs, State.advanceTo_rd]
  · rw [hu]

/-! ### The obligation -/

/-- The end of a channel's blanking takes it off the list (R93). -/
theorem blankingEnd_acts (ch : Chan) (s : State) : ∃ t, exec (.blankingEnd ch) s = .next t ∧
    (∀ c, c ∈ t.fe.blank ↔ c ∈ s.fe.blank ∧ c ≠ ch.val) ∧ t = { s with fe := { s.fe with blank := t.fe.blank } } := by
  refine ⟨{ s with fe := { s.fe with blank := setDel ch.val s.fe.blank } }, rfl, fun c => ?_, rfl⟩
  show c ∈ setDel ch.val s.fe.blank ↔ _
  unfold setDel
  simp

/-- Settles O23: one lemma for each command of the front end, each by what its write stores. -/
theorem frontEndWritesAct : Obligations.FrontEndWritesAct := by
  unfold Obligations.FrontEndWritesAct
  intro lane data be s
  exact ⟨fun ch high hs hb hc hw => channelTableWrite_acts hs hb hc hw data, fun ch => blankingEnd_acts ch s,
    fun high h => groupEnableWrite_acts high h data, fun h => rateGateWrite_acts h data, rateGateEnd_acts,
    injGo_acts, injStop_acts, fun tick hr => injStrobe_acts hr tick⟩

end Sys2Proof.Machine
end

section
/-! The HK state, the run, capture, redundancy, the Lid and the NVD through what the time base, the lanes, the queues and the
concentrators do (R258, R273, R282). -/

namespace Sys2Proof.Machine

/-- The parts of a state that the time base, the lanes, the queues and the concentrators leave alone. -/
def State.still (s : State) : Hk × Run × Wf × Rd × Lid × Nvd := (s.hk, s.run, s.wf, s.rd, s.lid, s.nvd)

theorem State.still_iff {s t : State} : t.still = s.still ↔
    t.hk = s.hk ∧ t.run = s.run ∧ t.wf = s.wf ∧ t.rd = s.rd ∧ t.lid = s.lid ∧ t.nvd = s.nvd := by
  unfold State.still
  simp only [Prod.mk.injEq]

theorem still_hk {s t : State} (h : t.still = s.still) : t.hk = s.hk := (State.still_iff.1 h).1
theorem still_run {s t : State} (h : t.still = s.still) : t.run = s.run := (State.still_iff.1 h).2.1
theorem still_wf {s t : State} (h : t.still = s.still) : t.wf = s.wf := (State.still_iff.1 h).2.2.1
theorem still_rd {s t : State} (h : t.still = s.still) : t.rd = s.rd := (State.still_iff.1 h).2.2.2.1
theorem still_lid {s t : State} (h : t.still = s.still) : t.lid = s.lid := (State.still_iff.1 h).2.2.2.2.1
theorem still_nvd {s t : State} (h : t.still = s.still) : t.nvd = s.nvd := (State.still_iff.1 h).2.2.2.2.2

/-- What every step of a fold leaves, the fold leaves. -/
theorem foldl_keeps {α β γ : Type} (π : β → γ) {f : β → α → β} (h : ∀ t x, π (f t x) = π t) (l : List α) (s : β) :
    π (l.foldl f s) = π s := by
  induction l generalizing s with
  | nil => rfl
  | cons x l ih => rw [List.foldl_cons, ih, h]

/-- A branch of which both sides leave a part leaves it. -/
theorem ite_keeps {β γ : Type} (π : β → γ) (c : Prop) [Decidable c] {a b : β} {x : γ} (ha : π a = x) (hb : π b = x) :
    π (if c then a else b) = x := by
  split
  · exact ha
  · exact hb

section
variable (s : State)

@[simp] theorem State.setRegAt_still (k : Nat) (v : W32) : (s.setRegAt k v).still = s.still := rfl
@[simp] theorem State.setReg_still (a : Nat) (v : W32) : (s.setReg a v).still = s.still := s.setRegAt_still _ v
@[simp] theorem State.setFld_still (a hi lo v : Nat) : (s.setFld a hi lo v).still = s.still := s.setReg_still a _
@[simp] theorem State.setBit_still (a i : Nat) (b : Bool) : (s.setBit a i b).still = s.still := s.setFld_still a i i _
@[simp] theorem State.setEff_still (a : Nat) (v : W32) : (s.setEff a v).still = s.still := s.setRegAt_still _ v
@[simp] theorem State.countAt_still (k top n : Nat) : (s.countAt k top n).still = s.still := s.setRegAt_still k _
@[simp] theorem State.count_still (a n : Nat) : (s.count a n).still = s.still := s.countAt_still _ _ n
@[simp] theorem State.count16_still (a n : Nat) : (s.count16 a n).still = s.still := s.countAt_still _ _ n
@[simp] theorem State.countLane_still (a n k : Nat) : (s.countLane a n k).still = s.still := s.countAt_still _ _ k
@[simp] theorem State.eventAt_still (k : Nat) (bs : List Nat) : (s.eventAt k bs).still = s.still := by
  unfold State.still
  simp
@[simp] theorem State.event_still (a : Nat) (bs : List Nat) : (s.event a bs).still = s.still := s.eventAt_still _ bs
@[simp] theorem State.eventIf_still (c : Bool) (a : Nat) (bs : List Nat) : (s.eventIf c a bs).still = s.still :=
  ite_keeps _ _ (s.event_still a bs) rfl
@[simp] theorem State.setLane_still (n : Nat) (l : LaneSt) : (s.setLane n l).still = s.still := rfl
@[simp] theorem State.setCd_still (c : Cd) : (s.setCd c).still = s.still := ite_keeps _ _ rfl rfl
@[simp] theorem State.setOther_still (c : Cd) : (s.setOther c).still = s.still := ite_keeps _ _ rfl rfl
@[simp] theorem State.advance_still (n : Nat) : (s.advance n).still = s.still := rfl
@[simp] theorem State.advanceTo_still (n : Nat) : (s.advanceTo n).still = s.still := ite_keeps _ _ (s.advance_still _) rfl
@[simp] theorem State.draw_still : s.draw.2.still = s.still := rfl
@[simp] theorem State.memClean_still (d : Die) (m i : Nat) : (s.memClean d m i).still = s.still := rfl
@[simp] theorem State.pqPush_still (i : Nat) (w : W64) : (s.pqPush i w).still = s.still := by
  unfold State.still
  simp
@[simp] theorem State.errEntry_still (d : Die) (a b c e : Nat) : (s.errEntry d a b c e).still = s.still :=
  s.pqPush_still _ _
@[simp] theorem State.lossEntry_still (d : Die) (a b : Nat) : (s.lossEntry d a b).still = s.still :=
  ite_keeps _ _ ((State.errEntry_still _ _ _ _ _ _).trans s.draw_still) (State.errEntry_still _ _ _ _ _ _)
@[simp] theorem State.errLoss_still (d : Die) (c : Nat) : (s.errLoss d c).still = s.still := by
  unfold State.errLoss State.errLossC State.lossCount
  rw [State.lossEntry_still, State.eventAt_still, State.countAt_still]
@[simp] theorem State.markRan_still (d : Die) : (s.markRan d).still = s.still := ite_keeps _ _ rfl rfl
@[simp] theorem State.settles_still : s.settles.still = s.still := rfl
@[simp] theorem State.fullBias_still : s.fullBias.still = s.still := ite_keeps _ _ s.settles_still rfl
@[simp] theorem State.checkBegins_still : s.checkBegins.still = s.still := ite_keeps _ _ rfl rfl

@[simp] theorem State.latch_still (rs : List Nat) : (s.latch rs).still = s.still := by
  unfold State.latch
  extract_lets changed old s1 l w l' w' new fresh slc st trg
  rw [State.eventIf_still, State.eventIf_still, State.setEff_still]
  exact foldl_keeps State.still (fun t a => t.setEff_still a _) rs s

/-! ### Reserved slots -/

theorem State.putCode_entry_still (i : Nat) (v : W64) : (s.putCode .hbd 0x03 i v).still = s.still := by
  obtain ⟨q, hq⟩ := s.setMemData_entry i v
  unfold State.putCode
  rw [hq]
  exact ite_keeps _ _ rfl rfl

theorem State.takeRaw_entry_still (i : Nat) : (s.takeRaw .hbd 0x03 i).still = s.still := by
  unfold State.takeRaw
  split
  · exact s.putCode_entry_still i _
  · rfl

theorem State.countUncorr_still (d : Die) (m i c : Nat) (evt : List Nat) :
    (s.countUncorr d m i c evt).still = s.still := by
  unfold State.countUncorr
  extract_lets s1 s2
  have h2 : s2.still = s.still := by
    rw [show s2 = State.eventAt _ _ _ from rfl, State.eventAt_still, State.setRegAt_still]
    exact s.countAt_still _ _ _
  refine ite_keeps _ _ ?_ ?_
  · rw [State.errEntry_still, State.draw_still, h2]
  · rw [State.errEntry_still, h2]

/-- An entry of a privileged queue is read (R334). -/
theorem State.memRead_entry_still (i : Nat) : (s.memRead .hbd 0x03 i).2.still = s.still := by
  unfold State.memRead State.memReadC
  split
  · exact s.takeRaw_entry_still i
  · unfold State.correct State.countCorr
    rw [State.eventAt_still, State.countAt_still, State.takeRaw_entry_still]
  · exact (State.countUncorr_still _ _ _ _ _ _).trans rfl

theorem State.readResp_still (n : Nat) (r : Resp) : (s.readResp n r).2.still = s.still := by
  unfold State.readResp
  extract_lets m r' l t
  have h : t.still = m.2.still := State.setLane_still _ _ _
  exact h.trans (s.memRead_entry_still _)

theorem State.dropFirst_still (n : Nat) : (s.dropFirst n).still = s.still := by
  unfold State.dropFirst State.pqTaken
  dsimp only
  split <;> rfl

theorem State.unitOut_still (n : Nat) (u : W64) : (s.unitOut n u).still = s.still := State.countLane_still _ _ _ _

@[simp] theorem State.slotUnit_still (n : Nat) : (s.slotUnit n).still = s.still := by
  unfold State.slotUnit
  split
  · dsimp only
    rw [State.unitOut_still, State.dropFirst_still, State.setLane_still]
  · split
    · split
      · dsimp only
        rw [State.unitOut_still, State.setLane_still, State.readResp_still]
      · rfl
    · rfl

theorem State.slotUnits_still (n k : Nat) : (State.slotUnits n k s).still = s.still := by
  induction k generalizing s with
  | zero => rfl
  | succ k ih => exact (ih _).trans (s.slotUnit_still n)

@[simp] theorem State.passSlots_still (n k : Nat) : (s.passSlots n k).still = s.still :=
  (State.slotUnits_still _ _ _).trans (s.setLane_still _ _)

/-! ### The time base -/

@[simp] theorem State.sendDreq_still (t3 : Int) : (s.sendDreq t3).still = s.still := by
  unfold State.sendDreq
  extract_lets q ns
  rw [State.countLane_still, State.passSlots_still]
  rfl

@[simp] theorem State.firstDreq_still : s.firstDreq.still = s.still :=
  ite_keeps _ _ ((State.sendDreq_still _ _).trans s.draw_still) rfl

@[simp] theorem State.tbGo_still (t : TbState) (cause : Nat) : (s.tbGo t cause).still = s.still := by
  refine ite_keeps _ _ rfl ?_
  rw [State.firstDreq_still, State.event_still]
  exact (State.pqPush_still _ _ _).trans rfl

theorem State.learned_still : s.learned.2.still = s.still := by
  unfold State.learned
  split <;> rfl

theorem State.xoTemp_still : s.xoTemp.2.still = s.still := by
  unfold State.xoTemp
  dsimp only
  split <;> rfl

@[simp] theorem State.toXo_still : s.toXo.still = s.still := by
  unfold State.toXo
  extract_lets d f x t
  have ht : t.still = s.still := by
    rw [show t = State.setRegAt _ _ _ from rfl, State.setRegAt_still, State.setReg_still]
    exact (State.xoTemp_still _).trans s.learned_still
  exact (show _ = t.still from rfl).trans ht

@[simp] theorem State.tbLaneLost_still (cause : Nat) : (s.tbLaneLost cause).still = s.still := by
  have hh : (s.enterHoldover cause).still = s.still := (State.toXo_still _).trans (s.tbGo_still _ _)
  unfold State.tbLaneLost
  split
  · rfl
  · exact ite_keeps _ _ hh ((State.tbGo_still _ _ _).trans rfl)
  · exact hh
  · exact ite_keeps _ _ rfl s.toXo_still

@[simp] theorem State.tbLaneLock_still : s.tbLaneLock.still = s.still :=
  ite_keeps _ _ rfl (ite_keeps _ _ ((State.tbGo_still _ _ _).trans rfl) rfl)

/-! ### Lanes -/

theorem State.lacksFrame_still (n : Nat) : (s.lacksFrame n).still = s.still := ite_keeps _ _ rfl rfl

@[simp] theorem State.framesCut_still (n : Nat) : (s.framesCut n).still = s.still :=
  ite_keeps _ _ ((show _ = State.still _ from rfl).trans (ite_keeps _ _ rfl (s.lacksFrame_still n))) rfl

@[simp] theorem State.unblock_still (n cause : Nat) : (s.unblock n cause).still = s.still :=
  ite_keeps _ _ ((State.tbLaneLost_still _ _).trans (s.setLane_still _ _)) (s.setLane_still _ _)

@[simp] theorem State.startBringUp_still (n : Nat) : (s.startBringUp n).still = s.still := by
  unfold State.startBringUp
  extract_lets c t l wait
  have ht : t.still = s.still := ite_keeps _ _ ((State.unblock_still _ _ _).trans (s.framesCut_still n)) (s.framesCut_still n)
  exact ite_keeps _ _ ((State.setLane_still _ _ _).trans ht) ((State.setLane_still _ _ _).trans ht)

@[simp] theorem State.unpark_still (n : Nat) : (s.unpark n).still = s.still :=
  ite_keeps _ _ (ite_keeps _ _ (s.setLane_still _ _) (s.startBringUp_still n)) rfl

@[simp] theorem State.unparkAll_still : s.unparkAll.still = s.still :=
  foldl_keeps State.still State.unpark_still _ s

@[simp] theorem State.park_still (n : Nat) : (s.park n).still = s.still := by
  unfold State.park
  rw [State.setBit_still, State.setLane_still, State.framesCut_still]

@[simp] theorem State.parkExtra_still : s.parkExtra.still = s.still := foldl_keeps State.still State.park_still _ s

@[simp] theorem State.startOthers_still : s.startOthers.still = s.still :=
  ite_keeps _ _ (foldl_keeps State.still State.startBringUp_still _ s) rfl

@[simp] theorem State.laneReachesUp_still (n : Nat) (l : LaneSt) : (s.laneReachesUp n l).still = s.still := by
  unfold State.laneReachesUp
  extract_lets lc l' s1 s2
  have h1 : s1.still = s.still := (State.setBit_still _ _ _ _).trans (s.setLane_still _ _)
  have h2 : s2.still = s.still := ite_keeps _ _ h1 h1
  refine ite_keeps _ _ ?_ h2
  rw [State.firstDreq_still, State.startOthers_still, State.tbLaneLock_still, h2]

@[simp] theorem State.finishResume_still (failed : List Nat) : (s.finishResume failed).still = s.still := by
  refine foldl_keeps State.still (fun t n => ?_) _ s
  extract_lets l
  refine ite_keeps _ _ ?_ rfl
  split
  · exact t.laneReachesUp_still _ _
  · exact t.startBringUp_still _

end

end Sys2Proof.Machine
end

section
/-! O16: what RST_N resets, and what its levels set off (R52 to R54, R373). -/

namespace Sys2Proof.Machine

/-! ### The Lid's entries leave no lane where there is none -/

theorem State.pqPush_noLanes {s : State} (h : s.lanes = []) (i : Nat) (w : W64) : (s.pqPush i w).lanes = [] := by
  unfold State.pqPush
  split
  · rw [State.event_lanes, h]
  · dsimp only
    rw [h]
    rfl

theorem State.lidEntry_noLanes {s : State} (h : s.lanes = []) (ty : Nat) (st : LidState) (c : LidCh) (cause idx v : Nat) :
    (s.lidEntry ty st c cause idx v).lanes = [] := State.pqPush_noLanes h _ _

theorem State.lidLatch_noLanes {s : State} (h : s.lanes = []) (st : LidState) (c : LidCh) (cause idx v : Nat) :
    (s.lidLatch st c cause idx v).lanes = [] := by
  unfold State.lidLatch
  split
  · exact h
  · apply State.lidEntry_noLanes
    exact h

theorem State.lidCancel_noLanes {s : State} (h : s.lanes = []) (cause idx : Nat) : (s.lidCancel cause idx).lanes = [] := by
  unfold State.lidCancel
  split
  · unfold State.lidRefuse
    rw [State.setReg_lanes, State.event_lanes, State.count_lanes]
    apply State.lidEntry_noLanes
    exact h
  · exact h

theorem State.lidGo_noLanes {s : State} (h : s.lanes = []) (hm : s.hk.mode = .boot ∨ s.hk.mode = .load) (c : LidCh)
    (t : LidState) (e : List Nat) : (s.lidGo c t e).lanes = [] := by
  unfold State.lidGo
  split
  · rw [State.eventIf_lanes, h]
  · extract_lets trip s1 s2 evt s3
    have h3 : s3.lanes = [] := by
      rw [show s3 = State.eventIf _ _ _ _ from rfl, State.eventIf_lanes]
      exact State.lidEntry_noLanes (s := s1.lidSet t) h _ _ _ _ _ _
    split
    · have hk : (s3.count Reg.LID_TRIP_CNT 1).hk = s.hk := by
        rw [State.count_hk, show s3 = State.eventIf _ _ _ _ from rfl, State.eventIf_hk, show s2 = State.lidEntry _ _ _ _ _ _ _ from rfl,
          State.lidEntry_hk]
        rfl
      rw [State.enterSafe_down _ _ (by rw [hk]; exact hm), State.count_lanes, h3]
    · exact h3

/-- Entering BOOT or LOAD the Lid leaves no lane where there is none. -/
theorem State.lidOff_noLanes {s : State} (h : s.lanes = []) (hm : s.hk.mode = .boot ∨ s.hk.mode = .load) :
    s.lidOff.lanes = [] := by
  have hc : (s.lidCancel 0x08 0).lanes = [] := State.lidCancel_noLanes h _ _
  have hk : (s.lidCancel 0x08 0).hk = s.hk := (s.lidCancel_lid 0x08 0).2
  unfold State.lidOff
  dsimp only
  split
  · exact State.lidGo_noLanes (State.lidLatch_noLanes hc _ _ _ _ _) (by rw [State.lidLatch_hk, hk]; exact hm) _ _ _
  · exact State.lidGo_noLanes hc (by rw [hk]; exact hm) _ _ _

/-! ### What a reset keeps -/

@[simp] theorem State.resetRegs_still (s : State) (p : Nat → Bool) : (s.resetRegs p).still = s.still := rfl

@[simp] theorem State.stopTest_still (s : State) : s.stopTest.still = s.still := by
  unfold State.stopTest
  extract_lets t u
  have hu : u.still = s.still := ite_keeps _ _ rfl rfl
  refine (foldl_keeps State.still (fun v n => ?_) _ u).trans hu
  dsimp only
  rw [State.setLane_still, State.setRegAt_still]

@[simp] theorem State.attAbort_still (s : State) : s.attAbort.still = s.still := by
  unfold State.attAbort
  split
  · rw [State.pqPush_still, State.event_still]
    rfl
  · rfl

/-- What a reset of the units leaves in the HK state. -/
theorem State.unitsReset_hk (s : State) : s.unitsReset.hk = { s.hk with
    stuck := false, minimalLink := false, safeFromTest := false, safeFromLoad := false, safeDrained := true,
    loadResult := .none, heldSpillEnd := none, spillSf := none, spillEntry := false } := by
  unfold State.unitsReset
  dsimp only
  rw [still_hk s.attAbort_still]

/-- The words of the NVD stand through a reset. -/
theorem State.unitsReset_words (s : State) : s.unitsReset.nvd.words = s.nvd.words := by
  unfold State.unitsReset Nvd.stop
  dsimp only
  rw [still_nvd s.attAbort_still]

/-- The state in which BOOT is entered, before the Lid and the HK registers follow. -/
def State.bootEntry (s : State) (cause : Nat) : State := s.stopTest.unitsReset.modeDone .boot cause

theorem State.bootEntry_hk (s : State) (cause : Nat) :
    (s.bootEntry cause).hk.mode = .boot ∧ (s.bootEntry cause).hk.target = none ∧
      (s.bootEntry cause).hk.cause = cause ∧ (s.bootEntry cause).hk.prev = s.hk.mode ∧
        (s.bootEntry cause).hk.rstN = s.hk.rstN := by
  unfold State.bootEntry
  rw [State.modeDone_hk, State.unitsReset_hk, still_hk s.stopTest_still]
  exact ⟨rfl, rfl, rfl, rfl, rfl⟩

/-- Lanes, responses and the live calibration go with the reset; the NVD's words stay. -/
theorem State.bootEntry_reset (s : State) (cause : Nat) :
    (s.bootEntry cause).lanes = [] ∧ (s.bootEntry cause).resp = [] ∧ (s.bootEntry cause).cal = .zero ∧
      (s.bootEntry cause).nvd.words = s.nvd.words := by
  refine ⟨rfl, rfl, rfl, ?_⟩
  show s.stopTest.unitsReset.nvd.words = _
  rw [State.unitsReset_words, still_nvd s.stopTest_still]

theorem State.bootHk_only (s : State) : ∃ r e, s.bootHk = { s with regs := r, sts := e } := by
  have hf : ∀ (l : Sparse W32) (t : State), ∃ r, l.foldl (fun t e => t.setRegAt e.1 e.2) t = { t with regs := r } := by
    intro l
    induction l with
    | nil => exact fun t => ⟨t.regs, rfl⟩
    | cons e l ih =>
      intro t
      obtain ⟨r, hr⟩ := ih (t.setRegAt e.1 e.2)
      exact ⟨r, hr⟩
  obtain ⟨r, hr⟩ := hf s.hk.loadRegs (s.resetRegs (fun k => hkHeld k || hkDown k))
  unfold State.bootHk
  dsimp only
  rw [hr]
  exact ⟨_, _, rfl⟩

/-- What entry to BOOT leaves (R36, R54, R373). -/
theorem State.enterBoot_reset (s : State) (cause : Nat) :
    (s.enterBoot cause).hk = (s.bootEntry cause).hk ∧ (s.enterBoot cause).lid.state = .off ∧
      (s.enterBoot cause).lanes = [] ∧ (s.enterBoot cause).resp = [] ∧ (s.enterBoot cause).cal = .zero ∧
        (s.enterBoot cause).nvd.words = s.nvd.words := by
  have hb : (s.bootEntry cause).hk.mode = .boot ∨ (s.bootEntry cause).hk.mode = .load := .inl (s.bootEntry_hk cause).1
  obtain ⟨hl, hr, hc, hn⟩ := s.bootEntry_reset cause
  have ho := State.lidOff_down _ hb
  obtain ⟨r, e, h⟩ := (s.bootEntry cause).lidOff.bootHk_only
  have hh : s.enterBoot cause = (s.bootEntry cause).lidOff.bootHk := rfl
  rw [hh, h]
  dsimp only
  refine ⟨State.lidOff_hk _ hb, State.lidOff_state _, State.lidOff_noLanes hl hb, ?_, ?_, ?_⟩
  · rw [ho, hr]
  · rw [ho, hc]
  · rw [ho, hn]

/-! ### A lane's bring-up -/

/-- Step B1: SEARCH, or PRBS where a pattern is set (R273, R284). -/
theorem State.lane_startBringUp (s : State) (n : Nat) :
    ((s.startBringUp n).lane n).st = (if s.patOn n then 6 else 2) ∧ ((s.startBringUp n).lane n).bringUp = !s.patOn n := by
  unfold State.startBringUp
  extract_lets c t l wait
  cases s.patOn n
  all_goals
    simp only [Bool.false_eq_true, if_false, if_true]
    rw [State.lane_setLane, if_pos rfl]
    exact ⟨rfl, rfl⟩

/-- A lane that is not UP and holds no block lock begins without an effect on anything but itself. -/
theorem State.startBringUp_quiet {s : State} {n : Nat} (hb : (s.lane n).block = false) (hs : (s.lane n).st ≠ 5) :
    s.startBringUp n = { s with lanes := (s.startBringUp n).lanes } := by
  have hc : s.framesCut n = s := if_neg hs
  unfold State.startBringUp
  rw [hc]
  extract_lets c t l wait
  have ht : t = s := if_neg (by rw [show c = s from rfl, hb]; decide)
  clear_value wait l t
  subst ht
  split <;> rfl

/-! ### What a lane's loss of lock leaves in BOOT -/

/-- The time of the last reset and the events of the modes, as registers. -/
def State.resetMarks (s : State) : W32 × Sts := (s.regAt Reg.HK_RST_STS, s.stsAt Reg.HK_MODE_EVT)

theorem State.setRegAt_marks (s : State) {k : Nat} (h : k ≠ Reg.HK_RST_STS) (v : W32) :
    (s.setRegAt k v).resetMarks = s.resetMarks := by
  unfold State.resetMarks
  rw [s.regAt_setRegAt_ne (Ne.symm h), State.stsAt_setRegAt]

theorem State.eventAt_marks (s : State) {k : Nat} (h : k ≠ Reg.HK_MODE_EVT) (bs : List Nat) :
    (s.eventAt k bs).resetMarks = s.resetMarks := by
  unfold State.resetMarks
  rw [State.stsAt_eventAt, if_neg (Ne.symm h), State.regAt_congr (State.eventAt_regs _ _ _)]

theorem State.event_marks (s : State) {a : Nat} (h2 : a / 0x100000 ≠ 2) (h : a ≠ Reg.HK_MODE_EVT) (bs : List Nat) :
    (s.event a bs).resetMarks = s.resetMarks := by
  unfold State.event
  rw [s.phys_of_die_ne_two h2, State.eventAt_marks _ h]

theorem State.pqPush_marks (s : State) (i : Nat) (w : W64) : (s.pqPush i w).resetMarks = s.resetMarks :=
  ite_keeps _ _ (s.event_marks (by decide) (by decide) _) rfl

/-- In BOOT no Delay_Req leaves (R258). -/
theorem State.firstDreq_boot {s : State} (h : s.hk.mode = .boot) : s.firstDreq = s := by
  have ht : s.tsOpen = false := by
    unfold State.tsOpen State.aclkRuns
    rw [h]
    cases s.laneUp 0 <;> rfl
  unfold State.firstDreq
  rw [ht, if_neg (by simp)]

theorem State.tbGo_marks {s : State} (h : s.hk.mode = .boot) (t : TbState) (cause : Nat) :
    (s.tbGo t cause).resetMarks = s.resetMarks := by
  refine ite_keeps _ _ rfl ?_
  rw [State.firstDreq_boot (by rw [State.event_hk]; exact (congrArg Hk.mode (State.pqPush_hk _ _ _)).trans h),
    State.event_marks _ (by decide) (by decide)]
  exact (State.pqPush_marks _ _ _).trans rfl

theorem State.toXo_marks (s : State) : s.toXo.resetMarks = s.resetMarks := by
  have hl : s.learned.2.resetMarks = s.resetMarks := by
    unfold State.learned
    split <;> rfl
  have hx : ∀ u : State, u.xoTemp.2.resetMarks = u.resetMarks := by
    intro u
    unfold State.xoTemp
    dsimp only
    split <;> rfl
  unfold State.toXo
  extract_lets d f x t
  have ht : t.resetMarks = s.resetMarks := by
    rw [show t = State.setRegAt _ _ _ from rfl, State.setRegAt_marks _ (by decide), State.setReg,
      State.phys_of_die_ne_two _ (by decide), State.setRegAt_marks _ (by decide)]
    exact (hx _).trans hl
  exact (show _ = t.resetMarks from rfl).trans ht

theorem State.tbLaneLost_marks {s : State} (h : s.hk.mode = .boot) (cause : Nat) :
    (s.tbLaneLost cause).resetMarks = s.resetMarks := by
  have hh : (s.enterHoldover cause).resetMarks = s.resetMarks := (State.toXo_marks _).trans (State.tbGo_marks h _ _)
  unfold State.tbLaneLost
  split
  · rfl
  · exact ite_keeps _ _ hh ((State.tbGo_marks
      (s := { s with tb := { s.tb with srcXo := true, slewing := none, stepPending := false } }) h _ _).trans rfl)
  · exact hh
  · exact ite_keeps _ _ rfl s.toXo_marks

theorem State.framesCut_marks (s : State) (n : Nat) : (s.framesCut n).resetMarks = s.resetMarks := by
  have hl : (s.lacksFrame n).resetMarks = s.resetMarks := ite_keeps State.resetMarks _ rfl rfl
  unfold State.framesCut
  split
  · extract_lets t
    have ht : t.resetMarks = s.resetMarks := ite_keeps State.resetMarks _ rfl hl
    exact ht
  · rfl

/-- In BOOT a bring-up leaves the time of the reset and the events of the modes. -/
theorem State.startBringUp_marks {s : State} (h : s.hk.mode = .boot) (n : Nat) :
    (s.startBringUp n).resetMarks = s.resetMarks := by
  have hc := s.framesCut_marks n
  have hu : ∀ u : State, u.hk = s.hk → (u.unblock n 2).resetMarks = u.resetMarks := fun u hu =>
    ite_keeps _ _ ((State.tbLaneLost_marks (by rw [State.setLane_hk, hu, h]) _).trans rfl) rfl
  unfold State.startBringUp
  extract_lets c t l wait
  have ht : t.resetMarks = s.resetMarks :=
    ite_keeps _ _ ((hu _ (still_hk (s.framesCut_still n))).trans hc) hc
  exact ite_keeps _ _ ht ht

/-! ### The events of RST_N -/

/-- A register that the field of a key is set in shows the field. -/
theorem State.fld_of_marks {s t : State} (h : t.resetMarks = s.resetMarks) :
    t.fld Reg.HK_RST_STS 23 0 = s.fld Reg.HK_RST_STS 23 0 ∧ t.stsOf Reg.HK_MODE_EVT = s.stsOf Reg.HK_MODE_EVT := by
  obtain ⟨hr, hs⟩ := Prod.mk.inj h
  unfold State.fld State.stsOf
  rw [t.reg_of_die (by decide), s.reg_of_die (by decide), t.phys_of_die_ne_two (by decide), s.phys_of_die_ne_two (by decide)]
  exact ⟨by rw [hr], hs⟩

/-- RST_N low for 10 µs (R36, R52, R54). -/
theorem rstNLow_acts {s : State} (hv : s.hk.v12 = true) (hr : s.hk.rstN = true) :
    ∃ t, exec .rstNLow s = .next t ∧ t.hk.mode = .boot ∧
      t.hk.target = none ∧ t.hk.rstN = false ∧ t.hk.cause = 1 ∧ t.hk.prev = s.hk.mode ∧ t.lid.state = .off ∧ t.lanes = [] ∧
      t.resp = [] ∧ t.nvd.words = s.nvd.words ∧ t.cal = .zero ∧ t.fld Reg.HK_RST_STS 23 0 = 0 := by
  have hn : ¬((!s.hk.v12) = true ∨ (!s.hk.rstN) = true) := by rw [hv, hr]; decide
  have hd : exec .rstNLow s = .next (({ s with hk := { s.hk with rstN := false } }).enterBoot 1 |>.setFld Reg.HK_RST_STS 23 0 0) :=
    congrArg Host.Outcome.next (if_neg hn)
  obtain ⟨hk, hl, hla, hre, hca, hwo⟩ := State.enterBoot_reset { s with hk := { s.hk with rstN := false } } 1
  obtain ⟨hm, ht, hc, hp, hrst⟩ := State.bootEntry_hk { s with hk := { s.hk with rstN := false } } 1
  refine ⟨_, hd, ?_⟩
  rw [State.setFld_hk, State.setFld_lid, State.setFld_lanes, State.setFld_resp, State.setFld_nvd, State.setFld_cal,
    State.fld_setFld _ _ (by decide) (by decide), hk]
  exact ⟨hm, ht, hrst, hc, hp, hl, hla, hre, hwo, hca, rfl⟩

/-- The state after a rise (R52, R53). -/
def State.risen (s : State) (ms : Nat) : State :=
  let t := if s.hk.stuck then { s with lanes := [], resp := [] } else s
  ({ t with hk := { t.hk with rstN := true, stuck := false, minimalLink := false } }).setFld Reg.HK_RST_STS 23 0
    (min 0xFFFFFF ms)

theorem State.risen_only (s : State) (ms : Nat) :
    s.risen ms = { s with hk := { s.hk with rstN := true, stuck := false, minimalLink := false },
                          regs := (s.risen ms).regs, lanes := (s.risen ms).lanes, resp := (s.risen ms).resp } := by
  unfold State.risen
  cases s.hk.stuck <;> rfl

/-- RST_N rises after a low (R52, R53). -/
theorem rstNRise_acts {s : State} (ms : Nat) (hv : s.hk.v12 = true) (hr : s.hk.rstN = false) :
    ∃ t, exec (.rstNRise ms) s = .next t ∧
      t.hk = { s.hk with rstN := true, stuck := false, minimalLink := false } ∧
      t.fld Reg.HK_RST_STS 23 0 = min 0xFFFFFF ms ∧
      t = { s with hk := t.hk, regs := t.regs, lanes := t.lanes, resp := t.resp } := by
  have hn : ¬((!s.hk.v12) = true ∨ s.hk.rstN = true) := by rw [hv, hr]; decide
  have hd : exec (.rstNRise ms) s = .next (s.risen ms) := congrArg Host.Outcome.next (if_neg hn)
  have ho := s.risen_only ms
  have hk : (s.risen ms).hk = { s.hk with rstN := true, stuck := false, minimalLink := false } := by rw [ho]
  refine ⟨_, hd, hk, ?_, ?_⟩
  · unfold State.risen
    rw [State.fld_setFld _ _ (by decide) (by decide), Nat.mod_eq_of_lt]
    omega
  · rw [hk]
    exact ho

/-- The state at the tenth second, before the minimal link begins (R53). -/
def State.stuckState (s : State) : State :=
  ({ s with hk := { s.hk with stuck := true, minimalLink := true, cause := 0xB } }.event Reg.HK_MODE_EVT [2]).setFld
    Reg.HK_RST_STS 23 0 10000

/-- That state differs from the present one in the HK state, registers and events. -/
theorem State.stuckState_only (s : State) : s.stuckState = { s with
    hk := { s.hk with stuck := true, minimalLink := true, cause := 0xB }, regs := s.stuckState.regs, sts := s.stuckState.sts } := rfl

/-- The pattern of a lane stands in it. -/
theorem State.stuckState_patOn (s : State) (n : Nat) : s.stuckState.patOn n = s.patOn n := by
  have hk : s.stuckState.regAt (instKey Reg.LN_PRBS_CFG n) = s.regAt (instKey Reg.LN_PRBS_CFG n) := by
    unfold State.stuckState State.setFld State.setReg
    rw [State.phys_of_die_ne_two _ (by decide), State.regAt_setRegAt_ne _ (by unfold instKey Reg.HK_RST_STS; omega),
      State.regAt_congr (State.event_regs _ _ _)]
    rfl
  unfold State.patOn
  rw [hk]

/-- The event and the time of the reset show in it. -/
theorem State.stuckState_marks (s : State) : (s.stuckState.stsOf Reg.HK_MODE_EVT).set.getLsbD 2 = true ∧
    s.stuckState.fld Reg.HK_RST_STS 23 0 = 10000 := by
  unfold State.stuckState
  constructor
  · unfold State.stsOf State.setFld State.setReg
    rw [State.stsAt_setRegAt, State.phys_setRegAt]
    exact State.shows_event _ _ (by decide)
  · exact (State.fld_setFld _ _ (by decide) (by decide) _).trans (by decide)

/-- The tenth second of a low in BOOT. -/
theorem exec_resetStuck {s : State} (hv : s.hk.v12 = true) (hr : s.hk.rstN = false) (hs : s.hk.stuck = false)
    (hm : s.hk.mode = .boot) : exec .resetStuck s = .next (s.stuckState.startBringUp 0) := by
  show execResetStuck s = _
  unfold execResetStuck
  rw [hv, hr, hs, hm, if_neg (by simp)]
  rfl

/-- A bring-up in BOOT from a state that differs in the HK state, registers and events alone differs so too, but for the lanes. -/
theorem State.startBringUp_only {s u : State} {n : Nat} {h : Hk} (hu : u = { s with hk := h, regs := u.regs, sts := u.sts })
    (hb : (s.lane n).block = false) (h5 : (s.lane n).st ≠ 5) : u.startBringUp n =
      { s with hk := (u.startBringUp n).hk, regs := (u.startBringUp n).regs, sts := (u.startBringUp n).sts,
               lanes := (u.startBringUp n).lanes } := by
  have hl : u.lane n = s.lane n := by rw [hu]; rfl
  have hq := State.startBringUp_quiet (s := u) (n := n) (by rw [hl]; exact hb) (by rw [hl]; exact h5)
  rw [hq]
  generalize (u.startBringUp n).lanes = l
  rw [hu]

/-- RST_N low for 10 s (R53). -/
theorem resetStuck_acts {s : State} (hv : s.hk.v12 = true) (hr : s.hk.rstN = false) (hs : s.hk.stuck = false)
    (hm : s.hk.mode = .boot) :
    ∃ t, exec .resetStuck s = .next t ∧ t.hk = { s.hk with stuck := true, minimalLink := true, cause := 0xB } ∧
      (t.stsOf Reg.HK_MODE_EVT).set.getLsbD 2 = true ∧ t.fld Reg.HK_RST_STS 23 0 = 10000 ∧
      (t.lane 0).st = (if s.patOn 0 then 6 else 2) ∧
      ((s.lane 0).block = false → (s.lane 0).st ≠ 5 →
        t = { s with hk := t.hk, regs := t.regs, sts := t.sts, lanes := t.lanes }) := by
  obtain ⟨hevt, htime⟩ := s.stuckState_marks
  have hk : s.stuckState.hk = { s.hk with stuck := true, minimalLink := true, cause := 0xB } := by
    rw [s.stuckState_only]
  obtain ⟨hfld, hsts⟩ := State.fld_of_marks (State.startBringUp_marks (s := s.stuckState) (by rw [hk]; exact hm) 0)
  refine ⟨_, exec_resetStuck hv hr hs hm, ?_, ?_, ?_, ?_, State.startBringUp_only s.stuckState_only⟩
  · rw [still_hk (State.startBringUp_still _ _), hk]
  · rw [hsts, hevt]
  · rw [hfld, htime]
  · rw [(s.stuckState.lane_startBringUp 0).1, State.stuckState_patOn]

/-- Settles O16: one lemma for each event of RST_N. -/
theorem resetLineActsAsGiven : Obligations.ResetLineActsAsGiven := by
  unfold Obligations.ResetLineActsAsGiven
  refine ⟨fun s => rstNLow_acts, fun ms s => rstNRise_acts ms, fun s => resetStuck_acts, fun s hv hr hm hl ht => ?_⟩
  refine ⟨s.modeGo .load (if s.hk.cause = 0 then 0 else 1), ?_, rfl⟩
  exact congrArg Host.Outcome.next (if_pos ⟨hv, hr, hm, by rw [hl]; rfl, ht⟩)

end Sys2Proof.Machine
end

section
/-! O17: a mode request that R50 accepts, from the request on the lane to the transition that it starts (R36, R38, R45, R48, R49). -/

namespace Sys2Proof.Machine

/-! ### Responses and the sequence numbers of the lanes -/

/-- The responses that wait, and the next sequence number of each lane. -/
def State.asks (s : State) : List (Nat × Resp) × (Nat → Nat) := (s.resp, fun n => (s.lane n).e)

theorem asks_resp {s t : State} (h : t.asks = s.asks) : t.resp = s.resp := congrArg Prod.fst h

theorem asks_e {s t : State} (h : t.asks = s.asks) (n : Nat) : (t.lane n).e = (s.lane n).e :=
  congrFun (congrArg Prod.snd h) n

theorem State.asks_congr {s t : State} (hr : t.resp = s.resp) (hl : t.lanes = s.lanes) : t.asks = s.asks := by
  unfold State.asks State.lane
  rw [hr, hl]

section
variable (s : State)

theorem State.setReg_asks (a : Nat) (v : W32) : (s.setReg a v).asks = s.asks :=
  State.asks_congr (s.setReg_resp a v) (s.setReg_lanes a v)
theorem State.setEff_asks (a : Nat) (v : W32) : (s.setEff a v).asks = s.asks :=
  State.asks_congr (State.setRegAt_resp _ _ _) (State.setRegAt_lanes _ _ _)
theorem State.setFld_asks (a hi lo v : Nat) : (s.setFld a hi lo v).asks = s.asks := s.setReg_asks a _
theorem State.count_asks (a n : Nat) : (s.count a n).asks = s.asks := State.asks_congr (s.count_resp a n) (s.count_lanes a n)
theorem State.event_asks (a : Nat) (bs : List Nat) : (s.event a bs).asks = s.asks :=
  State.asks_congr (s.event_resp a bs) (s.event_lanes a bs)
theorem State.eventIf_asks (c : Bool) (a : Nat) (bs : List Nat) : (s.eventIf c a bs).asks = s.asks :=
  ite_keeps _ _ (s.event_asks a bs) rfl
theorem State.setCd_asks (c : Cd) : (s.setCd c).asks = s.asks := State.asks_congr (s.setCd_resp c) (s.setCd_lanes c)
theorem State.setOther_asks (c : Cd) : (s.setOther c).asks = s.asks :=
  State.asks_congr (s.setOther_resp c) (s.setOther_lanes c)

theorem State.setLane_asks {n : Nat} {l : LaneSt} (h : l.e = (s.lane n).e) : (s.setLane n l).asks = s.asks := by
  unfold State.asks
  rw [State.setLane_resp]
  congr 1
  funext m
  rw [State.lane_setLane]
  split
  · next hm => rw [hm, h]
  · rfl

theorem State.pqPush_asks (i : Nat) (w : W64) : (s.pqPush i w).asks = s.asks := by
  have hw : ∀ l, (popWakes i w l).e = l.e := by
    intro l
    unfold popWakes
    split
    · split <;> rfl
    · rfl
  refine ite_keeps _ _ (s.event_asks _ _) ?_
  unfold State.asks
  congr 1
  funext m
  show (Sparse.get LaneSt.off (s.lanes.map (fun e => (e.1, popWakes i w e.2))) m).e = _
  rw [Sparse.get_map_snd rfl, hw]
  rfl

theorem State.latch_asks (rs : List Nat) : (s.latch rs).asks = s.asks := by
  unfold State.latch
  extract_lets changed old s1 l w l' w' new fresh slc st trg
  rw [State.eventIf_asks, State.eventIf_asks]
  rw [State.setEff_asks]
  exact foldl_keeps State.asks (fun t a => t.setEff_asks a _) rs s

/-! ### Lanes that begin to resume -/

theorem State.tsEntry_tb (ty cause detail : Nat) : (s.tsEntry ty cause detail).tb = s.tb := State.pqPush_tb _ _ _

/-- A change of the time base that is no entry to ACQUIRE sends no Delay_Req (R259). -/
theorem State.tbGo_asks {t : TbState} (ht : t ≠ .acquire) (cause : Nat) : (s.tbGo t cause).asks = s.asks := by
  refine ite_keeps _ _ rfl ?_
  unfold State.firstDreq
  rw [if_neg]
  · exact (State.event_asks _ _ _).trans ((State.pqPush_asks _ _ _).trans rfl)
  · rintro ⟨hd, -⟩
    rw [State.event_tb, State.tsEntry_tb] at hd
    exact ht (by simpa using hd)

theorem State.toXo_resp_lanes : s.toXo.resp = s.resp ∧ s.toXo.lanes = s.lanes := by
  have hl : s.learned.2.resp = s.resp ∧ s.learned.2.lanes = s.lanes := by
    unfold State.learned
    split <;> exact ⟨rfl, rfl⟩
  have hx : ∀ u : State, u.xoTemp.2.resp = u.resp ∧ u.xoTemp.2.lanes = u.lanes := by
    intro u
    unfold State.xoTemp
    dsimp only
    split <;> exact ⟨rfl, rfl⟩
  unfold State.toXo
  extract_lets d f x t
  have ht : t.resp = x.2.resp ∧ t.lanes = x.2.lanes := ⟨rfl, rfl⟩
  exact ⟨ht.1.trans ((hx _).1.trans hl.1), ht.2.trans ((hx _).2.trans hl.2)⟩

theorem State.toXo_asks : s.toXo.asks = s.asks := State.asks_congr s.toXo_resp_lanes.1 s.toXo_resp_lanes.2

theorem State.tbLaneLost_asks (cause : Nat) : (s.tbLaneLost cause).asks = s.asks := by
  have hh : (s.enterHoldover cause).asks = s.asks := (State.toXo_asks _).trans (s.tbGo_asks (by decide) _)
  unfold State.tbLaneLost
  split
  · rfl
  · exact ite_keeps _ _ hh ((State.tbGo_asks _ (by decide) _).trans rfl)
  · exact hh
  · exact ite_keeps _ _ rfl s.toXo_asks

theorem State.framesCut_asks (n : Nat) : (s.framesCut n).asks = s.asks := by
  have hl : (s.lacksFrame n).asks = s.asks := ite_keeps State.asks _ rfl rfl
  unfold State.framesCut
  split
  · extract_lets t
    have ht : t.asks = s.asks := ite_keeps State.asks _ rfl hl
    exact ht
  · rfl

theorem State.unblock_asks (n cause : Nat) : (s.unblock n cause).asks = s.asks := by
  have hs : (s.setLane n { s.lane n with block := false }).asks = s.asks := s.setLane_asks rfl
  exact ite_keeps _ _ ((State.tbLaneLost_asks _ _).trans hs) hs

theorem State.startBringUp_asks (n : Nat) : (s.startBringUp n).asks = s.asks := by
  unfold State.startBringUp
  extract_lets c t l wait
  have hc : c.asks = s.asks := s.framesCut_asks n
  have ht : t.asks = s.asks := ite_keeps _ _ ((State.unblock_asks _ _ _).trans hc) hc
  have hl : l.e = (t.lane n).e := rfl
  refine ite_keeps _ _ ?_ ?_
  · refine (State.setLane_asks _ ?_).trans ht
    exact hl
  · refine (State.setLane_asks _ ?_).trans ht
    exact hl

theorem State.unpark_asks (n : Nat) : (s.unpark n).asks = s.asks :=
  ite_keeps _ _ (ite_keeps _ _ (s.setLane_asks rfl) (s.startBringUp_asks n)) rfl

theorem State.unparkAll_asks : s.unparkAll.asks = s.asks := foldl_keeps State.asks State.unpark_asks _ s

theorem State.fullBias_asks : s.fullBias.asks = s.asks := ite_keeps _ _ rfl rfl

theorem State.checkBegins_asks : s.checkBegins.asks = s.asks := ite_keeps _ _ rfl rfl

theorem State.dropSyncs_asks (n : Nat) : (s.dropSyncs n).asks = s.asks := by
  unfold State.dropSyncs
  extract_lets k c s1 o s2
  have h2 : s2.asks = s.asks := (State.setOther_asks _ _).trans (s.setCd_asks _)
  refine ite_keeps _ _ h2 ?_
  rw [State.event_asks, State.count_asks, h2]

theorem State.endRun_asks (m c : Nat) : (s.endRun m c).asks = s.asks := by
  unfold State.endRun
  refine ite_keeps _ _ ?_ rfl
  dsimp only
  rw [State.setCd_asks, State.dropSyncs_asks]
  rfl

theorem State.enterSafe_asks (c : Nat) : (s.enterSafe c).asks = s.asks := by
  unfold State.enterSafe
  split
  · rfl
  · rfl
  · split
    · rfl
    · exact State.setFld_asks _ _ _ _ _
  · exact ite_keeps _ _ rfl ((show _ = State.asks _ from rfl).trans (s.endRun_asks _ _))

theorem State.modeGo_asks (m : Mode) (c : Nat) : (s.modeGo m c).asks = s.asks := rfl

/-- The start of a transition answers nothing and moves no sequence number. -/
theorem State.startReq_asks (code : Nat) : (s.startReq code).asks = s.asks := by
  have hrun : (s.goRun 2).asks = s.asks := by
    unfold State.goRun
    rw [State.unparkAll_asks, State.modeGo_asks, State.checkBegins_asks, State.fullBias_asks, State.latch_asks]
  have hcal : (s.fullBias.checkBegins.modeGo .calib 2).unparkAll.asks = s.asks := by
    rw [State.unparkAll_asks, State.modeGo_asks, State.checkBegins_asks, State.fullBias_asks]
  have htest : (s.fullBias.modeGo .test 2).unparkAll.asks = s.asks := by
    rw [State.unparkAll_asks, State.modeGo_asks, State.fullBias_asks]
  unfold State.startReq
  dsimp only
  rw [State.setFld_asks]
  split
  · rfl
  · rfl
  · exact hcal
  · exact hrun
  · exact (State.modeGo_asks _ _ _).trans (s.endRun_asks _ _)
  · exact s.enterSafe_asks _
  · exact htest
  · rfl

end

/-! ### What the counted request reads -/

section
variable (s : State) (lane : Nat)

theorem State.role_got : (s.got lane).role = s.role := by
  unfold State.role
  rw [s.fld_got lane 5 4 (by decide)]

theorem State.simmerLane_got : (s.got lane).simmerLane = s.simmerLane := by
  unfold State.simmerLane
  rw [State.role_got]
  exact List.find?_congr (fun n hn => by rw [s.laneRole_got lane (List.mem_range.1 hn)])

theorem State.laneUp_got (n : Nat) : (s.got lane).laneUp n = s.laneUp n := by
  unfold State.laneUp
  rw [State.lane_got]

theorem State.sts_got : (s.got lane).sts = s.sts := State.countLane_sts _ _ _ _

theorem State.run_got : (s.got lane).run = s.run := State.countLane_run _ _ _ _

theorem State.lid_got : (s.got lane).lid = s.lid := State.countLane_lid _ _ _ _

theorem State.fatalSet_got : (s.got lane).fatalSet = s.fatalSet := by
  unfold State.fatalSet State.stsAt
  rw [State.sts_got]

theorem State.safeExitTo_got : (s.got lane).safeExitTo = s.safeExitTo := by
  unfold State.safeExitTo
  rw [State.hk_got, State.fatalSet_got]

theorem State.chooseSl_got : (s.got lane).chooseSl = s.chooseSl := by
  unfold State.chooseSl State.curSlice State.sliceOf
  rw [State.k_got, State.tb_got, State.run_got]

theorem State.asks_got : (s.got lane).asks = s.asks :=
  State.asks_congr (s.resp_got lane) (State.countLane_lanes _ _ _ _)

end

/-! ### Where each transition leads -/

section
variable (s : State)

/-- A transition to `m` on COMMAND, in the mode that the state has. -/
def State.heads (t : State) (m : Mode) : Prop := t.hk.target = some m ∧ t.hk.tcause = 2 ∧ t.hk.mode = s.hk.mode

theorem State.heads_of_hk {s t u : State} {m : Mode} (h : s.heads t m) (hu : u.hk = t.hk) : s.heads u m := by
  unfold State.heads at *
  rw [hu]
  exact h

/-- A transition that begins from a state of the same HK state. -/
theorem State.heads_modeGo {t : State} (ht : t.hk = s.hk) (m : Mode) : s.heads (t.modeGo m 2) m := by
  refine ⟨rfl, rfl, ?_⟩
  show t.hk.mode = s.hk.mode
  rw [ht]

theorem State.goRun_heads : s.heads (s.goRun 2) .run := by
  refine State.heads_of_hk (s.heads_modeGo (t := (s.latch [Reg.SLC_CFG]).fullBias.checkBegins) ?_ .run)
    (still_hk (State.unparkAll_still _))
  exact still_hk (by rw [State.checkBegins_still, State.fullBias_still, State.latch_still])

theorem State.goCalib_heads : s.heads (s.fullBias.checkBegins.modeGo .calib 2).unparkAll .calib :=
  State.heads_of_hk (s.heads_modeGo (still_hk (by rw [State.checkBegins_still, State.fullBias_still])) .calib)
    (still_hk (State.unparkAll_still _))

theorem State.goTest_heads : s.heads (s.fullBias.modeGo .test 2).unparkAll .test :=
  State.heads_of_hk (s.heads_modeGo (still_hk s.fullBias_still) .test) (still_hk (State.unparkAll_still _))

/-- SAFE entry on a request, from a mode that has one, with no transition running (R48). -/
theorem State.enterSafe_spec {s : State} (hb : s.hk.mode ≠ .boot) (hl : s.hk.mode ≠ .load) (hs : s.hk.mode ≠ .safe)
    (ht : s.hk.target = none) : s.heads (s.enterSafe 2) .safe ∧ (s.enterSafe 2).run = (s.endRun 6 2).run := by
  have hne : ¬(s.hk.target = some .safe) := by rw [ht]; exact nofun
  unfold State.enterSafe
  split
  · next h => exact absurd h hb
  · next h => exact absurd h hl
  · next h => exact absurd h hs
  · rw [if_neg hne]
    refine ⟨⟨rfl, rfl, ?_⟩, rfl⟩
    show (s.endRun 6 2).hk.mode = s.hk.mode
    rw [State.endRun_hk]

/-- The mode that an accepted request leads to. -/
def State.reqGoal (s : State) : Nat → Mode
  | 1 => .load | 2 => .simmer | 3 => .calib | 4 => .run | 5 => .drain | 6 => .safe | 7 => .test
  | _ => s.safeExitTo

/-- An accepted request starts the transition to its goal (R36), with REQ's code shown (R49). -/
theorem State.startReq_heads {code : Nat} (h6 : code = 6 → s.hk.mode ≠ .boot ∧ s.hk.mode ≠ .load ∧ s.hk.mode ≠ .safe ∧ s.hk.target = none) :
    s.heads (s.startReq code) (s.reqGoal code) := by
  unfold State.startReq
  dsimp only
  refine State.heads_of_hk ?_ (State.setFld_hk _ _ _ _ _)
  match code with
  | 1 => exact s.heads_modeGo rfl _
  | 2 => exact s.heads_modeGo rfl _
  | 3 => exact s.goCalib_heads
  | 4 => exact s.goRun_heads
  | 5 => exact s.heads_modeGo (State.endRun_hk _ _ _) _
  | 6 =>
    obtain ⟨hb, hl, hs, ht⟩ := h6 rfl
    exact (State.enterSafe_spec hb hl hs ht).1
  | 7 => exact s.goTest_heads
  | 0 => exact s.heads_modeGo rfl _
  | n + 8 => exact s.heads_modeGo rfl _

end

/-! ### The request -/

/-- A request that R50 accepts and no precondition holds back starts its transition (R38, R49, R51). -/
theorem State.modeReq_accepted {s : State} {code : Nat} (ht : s.hk.target = none) (h0 : code ≠ 0) (h8 : code ≤ 8)
    (ha : reqAnswer code s.hk.mode = .accept) (hw : s.reqWaits code = false) :
    s.modeReq code = .done (s.startReq code) := by
  unfold State.modeReq
  rw [if_neg h0, if_neg (by omega), ht, ha, hw]
  rfl

/-- With every byte enabled the write is the request of its code. -/
theorem State.modeReqWrite_code (s : State) {code : Nat} (h : code < 16) :
    s.modeReqWrite (BitVec.ofNat 32 code) 0xF = s.modeReq code := by
  have hb : bits (BitVec.ofNat 32 code) 3 0 = code := by
    unfold bits
    rw [BitVec.toNat_ofNat, Nat.shiftRight_zero]
    omega
  unfold State.modeReqWrite
  rw [hb]
  rfl

/-- What an accepted request on a lane that serves HK_MODE_REQ leaves: the response, the transition and its code. -/
theorem request_accepted {s : State} {lane code : Nat} (hs : s.serves lane Reg.HK_MODE_REQ = true)
    (ht : s.hk.target = none) (h0 : code ≠ 0) (h8 : code ≤ 8) (ha : reqAnswer code s.hk.mode = .accept)
    (hw : (s.got lane).reqWaits code = false) :
    ∃ t, s.access lane Reg.HK_MODE_REQ (fun t => t.modeReqWrite (BitVec.ofNat 32 code) 0xF) = t ∧
      s.replied t lane Reg.HK_MODE_REQ Stat.ok 0 ∧ s.heads t ((s.got lane).reqGoal code) ∧
      t.run = ((s.got lane).startReq code).run ∧ t.fld Reg.HK_MODE_REQ 3 0 = code := by
  have hact : (fun t : State => t.modeReqWrite (BitVec.ofNat 32 code) 0xF) (s.got lane) = .done ((s.got lane).startReq code) := by
    dsimp only
    rw [State.modeReqWrite_code _ (by omega), State.modeReq_accepted (by rw [State.hk_got, ht]) h0 h8 (by rw [State.hk_got, ha]) hw]
  have hasks : ((s.got lane).startReq code).asks = s.asks := (State.startReq_asks _ _).trans (s.asks_got lane)
  have hheads := (s.got lane).startReq_heads (code := code) (fun h6 => by
    subst h6
    rw [State.hk_got]
    refine ⟨?_, ?_, ?_, ht⟩ <;> (intro hm; rw [hm] at ha; exact absurd ha (by decide)))
  refine ⟨_, State.access_done hs hact, State.replied_finish (asks_resp hasks) (asks_e hasks lane) _ _ _, ?_,
    State.finish_run _ _ _ _ _, ?_⟩
  · unfold State.heads at *
    rw [State.finish_hk, ← s.hk_got lane]
    exact hheads
  · unfold State.fld
    rw [State.reg_finish _ _ _ _ _ (by decide) (by decide)]
    unfold State.startReq
    refine (State.fld_setFld _ _ (by decide) (by decide) _).trans ?_
    show code % 2 ^ 4 = code
    omega

/-- The mode requests of one register write each start their transition. -/
theorem requestStarts_of {c : Instr} {s : State} {lane : Lane} {code : Nat} {m : Mode}
    (hc : exec c s = .next (s.access lane Reg.HK_MODE_REQ (fun t => t.modeReqWrite (BitVec.ofNat 32 code) 0xF)))
    (hs : s.serves lane Reg.HK_MODE_REQ = true) (ht : s.hk.target = none) (h0 : code ≠ 0) (h8 : code ≤ 8)
    (ha : reqAnswer code s.hk.mode = .accept) (hw : (s.got lane).reqWaits code = false) (hm : (s.got lane).reqGoal code = m) :
    requestStarts c lane code m s := by
  obtain ⟨t, hn, hrep, ⟨hta, htc, hmo⟩, -, hf⟩ := request_accepted hs ht h0 h8 ha hw
  subst hm
  exact ⟨t, hc.trans (congrArg Host.Outcome.next hn), hrep, hta, htc, hmo, hf⟩

/-- With the clock at hand, valid calibration and a lane to the SIMMER link, RUN does not wait (R49, R79, R275). -/
theorem State.reqWaits_run {s : State} (lane : Nat) (htb : s.tb.state = .locked ∨ s.tb.state = .holdover)
    (hcal : s.bit Reg.HK_CFG_INFO 10 = true) (hl : s.role = .limb ∨ ∃ n, s.simmerLane = some n ∧ s.laneUp n = true) :
    (s.got lane).reqWaits 4 = false := by
  have h1 : (s.tb.state == .locked || s.tb.state == .holdover) = true := by
    rcases htb with h | h <;> rw [h] <;> rfl
  have h2 : (s.role != .limb && !((s.simmerLane.map (s.got lane).laneUp).getD false)) = false := by
    rcases hl with h | ⟨n, hn, hu⟩
    · rw [h]
      rfl
    · rw [hn, Option.map_some, Option.getD_some, State.laneUp_got, hu, Bool.not_true, Bool.and_false]
  show (!((s.got lane).tb.state == .locked || (s.got lane).tb.state == .holdover) || !(s.got lane).bit Reg.HK_CFG_INFO 10 ||
    ((s.got lane).role != .limb && !(((s.got lane).simmerLane.map (s.got lane).laneUp).getD false))) = false
  rw [State.tb_got, h1, s.bit_got lane _ (by decide), hcal, State.role_got, State.simmerLane_got, h2]
  rfl

/-- The mode requests that carry no wall tick (R36, R49). -/
theorem modeRequests_start {s : State} {lane : Lane} (ht : s.hk.target = none)
    (hs : s.serves lane Reg.HK_MODE_REQ = true) :
    (s.hk.mode = .boot ∨ s.hk.mode = .simmer ∨ s.hk.mode = .test ∨ s.hk.mode = .safe ∧ s.hk.safeDrained = true →
        requestStarts (.reqLoad lane) lane 1 .load s) ∧
      (s.hk.mode = .calib → requestStarts (.reqSimmer lane) lane 2 .simmer s) ∧
      (s.hk.mode = .simmer → requestStarts (.reqCalib lane) lane 3 .calib s) ∧
      (s.hk.mode = .simmer → (s.tb.state = .locked ∨ s.tb.state = .holdover) → s.bit Reg.HK_CFG_INFO 10 = true →
        (s.role = .limb ∨ ∃ n, s.simmerLane = some n ∧ s.laneUp n = true) →
        requestStarts (.reqRun lane) lane 4 .run s) ∧
      (s.hk.mode = .simmer ∨ s.hk.mode = .safe → requestStarts (.reqTest lane) lane 7 .test s) ∧
      (s.hk.mode = .safe → s.hk.safeDrained = true → s.lid.state ≠ .fault →
        requestStarts (.safeExit lane) lane 8
          (if (s.hk.cause = 6 ∨ s.hk.cause = 2) ∧ s.fatalSet = false ∧ s.hk.safeFromTest = false then .simmer else .load) s) := by
  refine ⟨fun hm => ?_, fun hm => ?_, fun hm => ?_, fun hm htb hcal hl => ?_, fun hm => ?_, fun hm hd hf => ?_⟩
  · have hw : (s.got lane).reqWaits 1 = false := by
      show ((s.got lane).hk.mode == .safe && !(s.got lane).hk.safeDrained) = false
      rw [State.hk_got]
      rcases hm with h | h | h | ⟨h, hd⟩
      · rw [h]; rfl
      · rw [h]; rfl
      · rw [h]; rfl
      · rw [h, hd]; rfl
    exact requestStarts_of rfl hs ht (by decide) (by decide)
      (by rcases hm with h | h | h | ⟨h, -⟩ <;> rw [h] <;> rfl) hw rfl
  · exact requestStarts_of rfl hs ht (by decide) (by decide) (by rw [hm]; rfl) rfl rfl
  · exact requestStarts_of rfl hs ht (by decide) (by decide) (by rw [hm]; rfl) rfl rfl
  · exact requestStarts_of rfl hs ht (by decide) (by decide) (by rw [hm]; rfl) (State.reqWaits_run lane htb hcal hl) rfl
  · exact requestStarts_of rfl hs ht (by decide) (by decide) (by rcases hm with h | h <;> rw [h] <;> rfl) rfl rfl
  · have hw : (s.got lane).reqWaits 8 = false := by
      show (!(s.got lane).hk.safeDrained || (s.got lane).lid.state == .fault) = false
      rw [State.hk_got, State.lid_got, hd]
      simpa using hf
    have hgoal : (s.got lane).reqGoal 8 =
        if (s.hk.cause = 6 ∨ s.hk.cause = 2) ∧ s.fatalSet = false ∧ s.hk.safeFromTest = false then .simmer else .load := by
      refine (s.safeExitTo_got lane).trans ?_
      unfold State.safeExitTo
      simp only [Bool.not_eq_true']
    exact requestStarts_of rfl hs ht (by decide) (by decide) (by rw [hm]; rfl) hw hgoal

/-! ### The requests at a wall tick -/

theorem State.dropSyncs_run (s : State) (n : Nat) : (s.dropSyncs n).run = s.run := by
  unfold State.dropSyncs
  extract_lets k cd s1 o s2
  have h2 : s2.run = s.run := (State.setOther_run _ _).trans (State.setCd_run _ _)
  split
  · exact h2
  · rw [State.event_run, State.count_run, h2]

/-- An open run whose end is fixed (R43, R45). -/
theorem State.endRun_run {s : State} (ha : s.run.active = true) (hc : s.run.closedMark = false) (m c : Nat) :
    (s.endRun m c).run = { s.run with sl := some s.chooseSl, endMode := m, endCause := c } := by
  unfold State.endRun
  refine (congrArg State.run (if_pos (by rw [ha, hc]; rfl))).trans ?_
  dsimp only
  rw [State.setCd_run, State.dropSyncs_run]

/-- The same of the state that has counted the request. -/
theorem State.endRun_got {s : State} (lane : Nat) (ha : s.run.active = true) (hc : s.run.closedMark = false) (m c : Nat) :
    ((s.got lane).endRun m c).run = { s.run with sl := some s.chooseSl, endMode := m, endCause := c } := by
  rw [State.endRun_run (by rw [State.run_got, ha]) (by rw [State.run_got, hc]), State.chooseSl_got, State.run_got]

/-- The run of the state that has a code set in HK_MODE_REQ is that before. -/
theorem State.startReq_drain_run (s : State) : (s.startReq 5).run = (s.endRun 2 2).run := rfl

theorem State.startReq_safe_run (s : State) : (s.startReq 6).run = (s.enterSafe 2).run := rfl

/-- REQ = DRAIN and REQ = SAFE, on the state that has reached their tick (R45, R48). -/
theorem drainAndSafe_start {s : State} {lane : Lane} (ht : s.hk.target = none)
    (hs : s.serves lane Reg.HK_MODE_REQ = true) :
    (s.hk.mode = .run → ∃ t, s.access lane Reg.HK_MODE_REQ (fun t => t.modeReqWrite 5 0xF) = t ∧
      s.replied t lane Reg.HK_MODE_REQ Stat.ok 0 ∧ t.hk.target = some .drain ∧ t.hk.mode = .run ∧
      (s.run.active = true → s.run.closedMark = false →
        t.run = { s.run with sl := some s.chooseSl, endMode := 2, endCause := 2 })) ∧
    (s.hk.mode ≠ .boot → s.hk.mode ≠ .load → s.hk.mode ≠ .safe →
      ∃ t, s.access lane Reg.HK_MODE_REQ (fun t => t.modeReqWrite 6 0xF) = t ∧
      s.replied t lane Reg.HK_MODE_REQ Stat.ok 0 ∧ t.hk.target = some .safe ∧ t.hk.tcause = 2 ∧
      (s.run.active = true → s.run.closedMark = false →
        t.run = { s.run with sl := some s.chooseSl, endMode := 6, endCause := 2 })) := by
  constructor
  · intro hm
    obtain ⟨t, hn, hrep, ⟨hta, -, hmo⟩, hrun, -⟩ := request_accepted (code := 5) hs ht (by decide) (by decide)
      (by rw [hm]; rfl) rfl
    refine ⟨t, hn, hrep, hta, hmo.trans hm, fun ha hc => ?_⟩
    rw [hrun, State.startReq_drain_run, State.endRun_got lane ha hc]
  · intro hb hl hsa
    have hacc : reqAnswer 6 s.hk.mode = .accept := by
      revert hb hl hsa
      cases s.hk.mode <;> simp [reqAnswer]
    obtain ⟨t, hn, hrep, ⟨hta, htc, -⟩, hrun, -⟩ := request_accepted (code := 6) hs ht (by decide) (by decide) hacc rfl
    refine ⟨t, hn, hrep, hta, htc, fun ha hc => ?_⟩
    have hg := s.hk_got lane
    rw [hrun, State.startReq_safe_run, (State.enterSafe_spec (by rw [hg]; exact hb) (by rw [hg]; exact hl)
      (by rw [hg]; exact hsa) (by rw [hg]; exact ht)).2, State.endRun_got lane ha hc]

/-- Settles O17: the six requests of a register write, and the two at a wall tick on the state at that tick. -/
theorem modeRequestsStartTransitions : Obligations.ModeRequestsStartTransitions := by
  unfold Obligations.ModeRequestsStartTransitions
  intro lane now s ht
  refine ⟨modeRequests_start ht, fun hs => ?_⟩
  have hd := drainAndSafe_start (s := s.advanceTo now) (lane := lane) (by rw [State.advanceTo_hk]; exact ht) hs
  rw [State.advanceTo_hk, State.advanceTo_run] at hd
  refine ⟨fun hm => ?_, fun hb hl hsa => ?_⟩
  · obtain ⟨t, hn, h⟩ := hd.1 hm
    exact ⟨t, congrArg Host.Outcome.next hn, h⟩
  · obtain ⟨t, hn, h⟩ := hd.2 hb hl hsa
    exact ⟨t, congrArg Host.Outcome.next hn, h⟩

end Sys2Proof.Machine
end

section
/-! O20: the last step of a transition, and the end of CALIB, DRAIN and the drain of SAFE (R36, R43 to R48, R331). -/

namespace Sys2Proof.Machine

/-! ### Barriers, flushes and the ring check -/

section
variable (s : State)

theorem State.insertBarrier_still (b : Barrier) : (s.insertBarrier b).still = s.still := by
  unfold State.insertBarrier
  extract_lets c p nr nj q later k rel jbs c1 x t j
  refine ite_keeps _ _ (s.setCd_still _) (ite_keeps _ _ ?_ (s.setCd_still _))
  rw [State.count_still, State.count_still, State.count_still, State.count_still]
  exact s.setCd_still _

theorem State.recordBarrier_still (b : Barrier) : (s.recordBarrier b).still = s.still :=
  ite_keeps _ _ (s.setOther_still _) rfl

@[simp] theorem State.standBarrier_still (b : Barrier) : (s.standBarrier b).still = s.still := by
  refine ite_keeps _ _ ?_ ?_
  · rw [State.setCd_still, State.insertBarrier_still, State.recordBarrier_still]
  · rw [State.setCd_still, State.recordBarrier_still]

@[simp] theorem State.markLost_still : s.markLost.still = s.still := (State.event_still _ _ _).trans (s.count_still _ _)

theorem State.flushAt_still (n id : Nat) : (s.flushAt n id).still = s.still :=
  ite_keeps _ _ s.markLost_still (s.standBarrier_still _)

@[simp] theorem State.runFlushes_still : s.runFlushes.still = s.still := by
  unfold State.runFlushes
  extract_lets due
  have h : ∀ (t : State) (f : Nat × Nat), (t.flushAt f.1 f.2).still = t.still := fun t f => t.flushAt_still f.1 f.2
  exact (foldl_keeps State.still h due _).trans rfl

theorem State.ringFails_still (a : Bool) : (s.ringFails a).still = s.still :=
  (State.eventIf_still _ _ _ _).trans (ite_keeps _ _ rfl rfl)

@[simp] theorem State.ringCheck_still : s.ringCheck.still = s.still :=
  ite_keeps _ _ rfl (ite_keeps _ _ rfl (s.ringFails_still _))

@[simp] theorem State.aheadOf_still (gs : List LGroup) : (s.aheadOf gs).still = s.still := s.setCd_still _

end

/-! ### The modes without a run -/

section
variable (s : State)

/-- What the arrival in a mode leaves in the HK state: no transition, and the transition's cause (R36). -/
def State.arrives (t : State) (m : Mode) : Prop := t.hk.mode = m ∧ t.hk.target = none ∧ t.hk.cause = s.hk.tcause

theorem State.arrives_of_hk {s t u : State} {m : Mode} (h : s.arrives t m) (hu : u.hk = t.hk) : s.arrives u m := by
  unfold State.arrives at *
  rw [hu]
  exact h

theorem State.arrives_modeDone (t : State) (m : Mode) : s.arrives (t.modeDone m s.hk.tcause) m := by
  unfold State.arrives
  rw [State.modeDone_hk]
  exact ⟨rfl, rfl, rfl⟩

theorem State.toSimmer_arrives (env : EntryEnv) : s.arrives (s.toSimmer env) .simmer :=
  State.arrives_of_hk (s.arrives_modeDone _ .simmer) (still_hk (State.firstDreq_still _))

/-- The Lid's way to DEGRADED is no trip: the HK state stands (R354). -/
theorem State.lidGo_degraded_hk (c : LidCh) (e : List Nat) : (s.lidGo c .degraded e).hk = s.hk := by
  unfold State.lidGo
  split
  · rw [State.eventIf_hk]
  · extract_lets trip s1 s2 evt s3
    have ht : trip = false := by
      show (_ && _ && (LidState.degraded != LidState.degraded)) = false
      rw [bne_self_eq_false, Bool.and_false]
    have h3 : s3.hk = s.hk := by
      rw [show s3 = State.eventIf _ _ _ _ from rfl, State.eventIf_hk, show s2 = State.lidEntry _ _ _ _ _ _ _ from rfl,
        State.lidEntry_hk]
      rfl
    rw [ht, if_neg Bool.false_ne_true, h3]

theorem State.lidDegrade_hk (c : LidCh) : (s.lidDegrade c).hk = s.hk := by
  unfold State.lidDegrade
  split
  · dsimp only
    exact State.lidGo_degraded_hk _ _ _
  · rfl

theorem State.toSafe_arrives (env : EntryEnv) : s.arrives (s.toSafe env) .safe := by
  unfold State.toSafe
  extract_lets t v0 h0 v w u x
  have hx : s.arrives x .safe := State.arrives_of_hk (s.arrives_modeDone _ .safe) (still_hk (State.firstDreq_still _))
  split
  · exact State.arrives_of_hk hx (x.lidDegrade_hk .h)
  · exact hx

end

/-! ### The samplers, the Whisk and the boundary scan -/

/-- The present tick. -/
def State.tnNow (s : State) : Nat := s.tb.tn

theorem State.tsEntry_tn (s : State) (ty c d : Nat) : (s.tsEntry ty c d).tb.tn = s.tb.tn :=
  congrArg Tb.tn (s.tsEntry_tb ty c d)

/-- The time base stands at its tick where it changes state, unless it enters ACQUIRE. -/
theorem State.tbGo_tn (s : State) {t : TbState} (ht : t ≠ .acquire) (cause : Nat) : (s.tbGo t cause).tb.tn = s.tb.tn := by
  refine ite_keeps (fun u : State => u.tb.tn) _ rfl ?_
  unfold State.firstDreq
  rw [if_neg]
  · rw [State.event_tb, State.tsEntry_tn]
  · rintro ⟨hd, -⟩
    rw [State.event_tb, State.tsEntry_tb] at hd
    exact ht (by simpa using hd)

theorem State.toXo_tn (s : State) : s.toXo.tb.tn = s.tb.tn := by
  have hl : s.learned.2.tb = s.tb := by
    unfold State.learned
    split <;> rfl
  have hx : ∀ u : State, u.xoTemp.2.tb = u.tb := by
    intro u
    unfold State.xoTemp
    dsimp only
    split <;> rfl
  unfold State.toXo
  extract_lets d f x t
  have ht : t.tb = s.tb := (show t.tb = x.2.tb from rfl).trans ((hx _).trans hl)
  show t.tb.tn = s.tb.tn
  rw [ht]

theorem State.tbLaneLost_tn (s : State) (cause : Nat) : (s.tbLaneLost cause).tb.tn = s.tb.tn := by
  have hh : (s.enterHoldover cause).tb.tn = s.tb.tn := (State.toXo_tn _).trans (s.tbGo_tn (by decide) _)
  unfold State.tbLaneLost
  split
  · rfl
  · exact ite_keeps (fun u : State => u.tb.tn) _ hh (State.tbGo_tn _ (by decide) _)
  · exact hh
  · exact ite_keeps (fun u : State => u.tb.tn) _ rfl s.toXo_tn

theorem State.framesCut_tb (s : State) (n : Nat) : (s.framesCut n).tb = s.tb := by
  have hl : (s.lacksFrame n).tb = s.tb := ite_keeps State.tb _ rfl rfl
  unfold State.framesCut
  split
  · extract_lets t
    have ht : t.tb = s.tb := ite_keeps State.tb _ rfl hl
    exact ht
  · rfl

theorem State.laneDrop_still (s : State) (n : Nat) : (s.laneDrop n).still = s.still := by
  unfold State.laneDrop
  dsimp only
  rw [State.countLane_still, State.setLane_still, State.framesCut_still]

theorem State.laneDrop_tb (s : State) (n : Nat) : (s.laneDrop n).tb = s.tb := by
  unfold State.laneDrop
  dsimp only
  rw [State.countLane_tb, State.setLane_tb, State.framesCut_tb]

/-- The chain takes the transmitters: lanes drop, and lane 0 moves the time base (R437). -/
theorem State.tapTakes_keeps (s : State) : s.tapTakes.still = s.still ∧ s.tapTakes.tnNow = s.tnNow := by
  have h1 : ∀ (t : State) (n : Nat), (if (t.lane n).st = 5 then (if n = 0 then t.tbLaneLost 2 else t).laneDrop n else t).still = t.still :=
    fun t n => ite_keeps _ _ ((State.laneDrop_still _ _).trans (ite_keeps _ _ (t.tbLaneLost_still 2) rfl)) rfl
  have h2 : ∀ (t : State) (n : Nat),
      (if (t.lane n).st = 5 then (if n = 0 then t.tbLaneLost 2 else t).laneDrop n else t).tnNow = t.tnNow :=
    fun t n => ite_keeps State.tnNow _ ((congrArg Tb.tn (State.laneDrop_tb _ _)).trans
      (ite_keeps State.tnNow _ (t.tbLaneLost_tn 2) rfl)) rfl
  have k1 := foldl_keeps State.still h1 (List.range 32) { s with tap := { s.tap with driving := [3] } }
  have k2 := foldl_keeps State.tnNow h2 (List.range 32) { s with tap := { s.tap with driving := [3] } }
  exact ⟨k1, k2⟩

theorem State.drivePins_keeps (s : State) : s.drivePins.still = s.still ∧ s.drivePins.tnNow = s.tnNow := ⟨rfl, rfl⟩

theorem State.tapEnters_keeps (s : State) : s.tapEnters.still = s.still ∧ s.tapEnters.tnNow = s.tnNow := by
  obtain ⟨h, ht⟩ := s.tapTakes_keeps
  unfold State.tapEnters
  split
  · rw [(State.drivePins_keeps _).1, (State.drivePins_keeps _).2]
    exact ⟨h, ht⟩
  · exact ⟨rfl, rfl⟩

/-- What the start of the Whisk leaves. -/
theorem State.whiskStart_keeps (s : State) (t : Nat) :
    (s.whiskStart t).still = s.still ∧ (s.whiskStart t).tb = s.tb ∧ (s.whiskStart t).cd.whisk.on = true := by
  refine ⟨(State.resetRegs_still _ _).trans (s.setCd_still _), (State.setCd_tb _ _), ?_⟩
  show (State.cd (s.setCd _)).whisk.on = true
  rw [State.cd_setCd]

/-- The samplers start in the next tick (R132, R140). -/
theorem State.startSamplers_keeps (s : State) : s.startSamplers.hk = s.hk ∧ s.startSamplers.run = s.run ∧
    s.startSamplers.tb = s.tb ∧ s.startSamplers.wf.sampStart = some (s.tb.tn + 1) := ⟨rfl, rfl, rfl, rfl⟩

theorem State.toTest_enters (s : State) (env : EntryEnv) :
    s.arrives (s.toTest env) .test ∧ (s.toTest env).wf.sampStart = some ((s.toTest env).tb.tn + 1) := by
  unfold State.toTest
  generalize (s.advanceTo env.now).finishResume env.failed = u
  obtain ⟨hs, ht⟩ := (u.modeDone .test s.hk.tcause).startSamplers.tapEnters_keeps
  refine ⟨State.arrives_of_hk (s.arrives_modeDone u .test) ((still_hk hs).trans (State.startSamplers_keeps _).1), ?_⟩
  show _ = some (State.tnNow _ + 1)
  rw [ht, still_wf hs]
  rfl

theorem State.toCalib_enters (s : State) (env : EntryEnv) :
    s.arrives (s.toCalib env) .calib ∧ (s.toCalib env).cd.whisk.on = true ∧
      (s.toCalib env).wf.sampStart = some ((s.toCalib env).tb.tn + 1) := by
  unfold State.toCalib
  extract_lets t
  have ht : s.arrives t .calib := s.arrives_modeDone _ .calib
  obtain ⟨hs, htb, hon⟩ := t.startSamplers.whiskStart_keeps (t.tb.tn + 1)
  refine ⟨State.arrives_of_hk ht ((still_hk hs).trans (State.startSamplers_keeps _).1), hon, ?_⟩
  rw [htb, still_wf hs]
  rfl

/-! ### RUN -/

theorem State.modeDone_mode (s : State) (m : Mode) (c : Nat) : (s.modeDone m c).hk.mode = m := by
  rw [State.modeDone_hk]

theorem State.modeDone_target (s : State) (m : Mode) (c : Nat) : (s.modeDone m c).hk.target = none := by
  rw [State.modeDone_hk]

/-- What the state of a fresh run leaves. -/
theorem State.openRun_keeps (s : State) (sf named : Nat) :
    (s.openRun sf named).hk = s.hk ∧ (s.openRun sf named).wf = s.wf ∧ (s.openRun sf named).run.active = true ∧
      (s.openRun sf named).run.closedMark = false := by
  unfold State.openRun
  extract_lets c s1 o s2 fresh
  have h2 : s2.still = s.still := by
    rw [show s2 = State.markRan _ _ from rfl, State.markRan_still, State.markRan_still, State.markRan_still,
      State.setOther_still]
    exact s.setCd_still _
  have hk := still_hk h2
  have hw := still_wf h2
  exact ⟨hk, hw, rfl, rfl⟩

/-- What a run needs of the state in which it begins: no SPILL_END held, the samplers on, open and not closed. -/
def State.runReady (s : State) : Prop :=
  s.hk.heldSpillEnd = none ∧ s.wf.sampStart.isSome = true ∧ s.run.active = true ∧ s.run.closedMark = false

theorem State.runReady_of_still {s t : State} (h : s.runReady) (ht : t.still = s.still) : t.runReady := by
  unfold State.runReady at *
  rw [still_hk ht, still_wf ht, still_run ht]
  exact h

/-- The state in which RUN is entered is ready for a run where the one before holds no SPILL_END and its samplers are on. -/
theorem State.runReady_openRun {t : State} (hh : t.hk.heldSpillEnd = none) (hw : t.wf.sampStart.isSome = true)
    (sf named : Nat) (gs : List LGroup) : ((t.openRun sf named).aheadOf gs).runReady := by
  obtain ⟨hk, hwf, ha, hc⟩ := t.openRun_keeps sf named
  refine State.runReady_of_still (s := t.openRun sf named) ?_ (State.aheadOf_still _ _)
  unfold State.runReady
  rw [hk, hwf]
  exact ⟨hh, hw, ha, hc⟩

/-- The arrival of a ready run in RUN: the held markers go, and with none held nothing follows (R43, R46). -/
def State.entersRun (w : State) (cause : Nat) : State :=
  (({ w with hk := { w.hk with heldSpillEnd := none, spillSf := none, spillEntry := false } }).modeDone .run cause).heldEnd
    w.hk.heldSpillEnd

theorem State.entersRun_ready {w : State} (h : w.runReady) (cause : Nat) :
    (w.entersRun cause).hk.mode = .run ∧ (w.entersRun cause).hk.target = none ∧ (w.entersRun cause).run.active = true ∧
      (w.entersRun cause).run.closedMark = false ∧ (w.entersRun cause).wf.sampStart.isSome = true := by
  obtain ⟨hheld, hon, hact, hclosed⟩ := h
  have he : w.entersRun cause =
      ({ w with hk := { w.hk with heldSpillEnd := none, spillSf := none, spillEntry := false } }).modeDone .run cause := by
    unfold State.entersRun
    rw [hheld]
    rfl
  rw [he, State.modeDone_mode, State.modeDone_target, State.modeDone_run, State.modeDone_wf]
  exact ⟨rfl, rfl, hact, hclosed, hon⟩

/-- RUN is reached, its run open (R36, R43). -/
theorem State.toRun_ready {s : State} (hh : s.hk.heldSpillEnd = none) (env : EntryEnv) :
    ∃ (w : State) (cause : Nat), w.runReady ∧ s.toRun env = w.entersRun cause := by
  have h0 : (((s.advanceTo env.now).runFlushes.finishResume env.failed).ringCheck).still = s.still := by
    rw [State.ringCheck_still, State.finishResume_still, State.runFlushes_still, State.advanceTo_still]
  obtain ⟨hk, -, -, hsamp⟩ := (((s.advanceTo env.now).runFlushes.finishResume env.failed).ringCheck).startSamplers_keeps
  rw [still_hk h0] at hk
  unfold State.toRun
  generalize (((s.advanceTo env.now).runFlushes.finishResume env.failed).ringCheck).startSamplers = t0 at hk hsamp ⊢
  extract_lets t soon named late sf cause u gaps v v2 w h0 x
  have hu : u.runReady := State.runReady_openRun (t := t0) (by rw [hk, hh]) (by rw [hsamp]; rfl) sf named _
  clear_value u
  have hv : v.runReady := State.runReady_of_still hu (foldl_keeps State.still (fun x n =>
    (State.errLoss_still _ _ _).trans (State.aheadOf_still _ _)) gaps u)
  clear_value v
  have hv2 : v2.runReady := State.runReady_of_still hv (foldl_keeps State.still (fun x b =>
    State.standBarrier_still _ _) _ v)
  clear_value v2
  have hw : w.runReady := State.runReady_of_still hv2 ((State.advanceTo_still _ _).trans (State.eventIf_still _ _ _ _))
  exact ⟨w, cause, hw, rfl⟩

/-! ### LOAD and BOOT -/

theorem State.stopTest_tb (s : State) : s.stopTest.tb.state = s.tb.state ∧
    (s.tb.tn < 2 ^ 64 → s.stopTest.tb.tn = s.tb.tn) := by
  unfold State.stopTest
  extract_lets t u
  have hf : ∀ v : State, ((List.range 32).foldl (fun (v : State) n =>
      let k := instKey Reg.LN_PRBS_CFG n
      (v.setRegAt k (putBits (putBits (v.regAt k) 18 16 0) 14 12 0)).setLane n { v.lane n with prbsSync := false, prbs := .off }) v).tb =
        v.tb := fun v => foldl_keeps State.tb (fun v n => by rw [State.setLane_tb, State.setRegAt_tb]) (List.range 32) v
  rw [hf]
  show (State.tb (if _ then _ else _)).state = _ ∧ (_ → (State.tb (if _ then _ else _)).tn = _)
  split
  · exact ⟨rfl, fun h => Nat.mod_eq_of_lt h⟩
  · exact ⟨rfl, fun _ => rfl⟩

theorem State.attAbort_tb (s : State) : s.attAbort.tb = s.tb := by
  unfold State.attAbort
  split
  · rw [State.pqPush_tb, State.event_tb]
  · rfl

theorem State.injAbort_tb (s : State) : s.injAbort.tb = s.tb := by
  unfold State.injAbort
  split
  · rw [State.event_tb]
  · rfl

/-- What entry to LOAD leaves (R36, R258, R373). -/
theorem State.enterLoad_enters (s : State) : s.arrives s.enterLoad .load ∧ s.enterLoad.tb.state = .freerun ∧
    (s.tb.tn < 2 ^ 64 → s.enterLoad.tb.tn = s.tb.tn) ∧ s.enterLoad.lid.state = .off ∧ s.enterLoad.lanes = [] ∧
      s.enterLoad.rd.step = 0 := by
  have htn : (s.injAbort.tbGo .freerun 6).tb.tn = s.tb.tn := by
    rw [State.tbGo_tn _ (by decide), State.injAbort_tb]
  unfold State.enterLoad
  extract_lets t b u
  have hu : u.tb.state = .freerun ∧ u.tb.tn = s.tb.tn := ⟨rfl, htn⟩
  clear_value u
  obtain ⟨hst, htn'⟩ := u.stopTest_tb
  have harr := s.arrives_modeDone u.stopTest.unitsReset .load
  have hm : (u.stopTest.unitsReset.modeDone .load s.hk.tcause).hk.mode = .boot ∨
    (u.stopTest.unitsReset.modeDone .load s.hk.tcause).hk.mode = .load := .inr harr.1
  have ho := State.lidOff_down _ hm
  have htb : (u.stopTest.unitsReset.modeDone .load s.hk.tcause).lidOff.tb = u.stopTest.tb := by
    rw [ho]
    show (u.stopTest.unitsReset.modeDone .load s.hk.tcause).tb = _
    rw [State.modeDone_tb]
    exact State.attAbort_tb _
  rw [htb]
  refine ⟨State.arrives_of_hk harr (State.lidOff_hk _ hm), hst.trans hu.1, fun h => ?_, State.lidOff_state _,
    State.lidOff_noLanes rfl hm, ?_⟩
  · rw [htn' (by rw [hu.2]; exact h), hu.2]
  · rw [ho]
    rfl


/-- BOOT is reached out of LOAD, with the minimal link (R36, R42). -/
theorem State.bootAfterLoad_enters (s : State) :
    s.arrives ({ s.modeDone .boot s.hk.tcause with
        hk := { (s.modeDone .boot s.hk.tcause).hk with minimalLink := true } }).bootHk .boot ∧
      ({ s.modeDone .boot s.hk.tcause with
        hk := { (s.modeDone .boot s.hk.tcause).hk with minimalLink := true } }).bootHk.hk.minimalLink = true := by
  obtain ⟨hm, ht, hc⟩ := s.arrives_modeDone s .boot
  obtain ⟨r, e, h⟩ := ({ s.modeDone .boot s.hk.tcause with
    hk := { (s.modeDone .boot s.hk.tcause).hk with minimalLink := true } } : State).bootHk_only
  rw [h]
  exact ⟨⟨hm, ht, hc⟩, rfl⟩

/-! ### Extra lanes are parked -/

/-- From `s` to `t` only lanes other than lane 0, registers, and of the link the held frames and the peers have changed. -/
def State.parksTo (s t : State) : Prop :=
  t = { s with lanes := t.lanes, regs := t.regs, ulp := { s.ulp with held := t.ulp.held, peers := t.ulp.peers } } ∧
    t.lane 0 = s.lane 0 ∧ (s.ulp.held = [] → t.ulp.held = [])

theorem State.parksTo_refl (s : State) : s.parksTo s := ⟨rfl, rfl, id⟩

theorem State.parksTo.trans {s t u : State} (h : s.parksTo t) (k : t.parksTo u) : s.parksTo u := by
  obtain ⟨h1, h2, h3⟩ := h
  obtain ⟨k1, k2, k3⟩ := k
  refine ⟨?_, k2.trans h2, fun hn => k3 (h3 hn)⟩
  rw [k1, h1]

theorem State.framesCut_parks (s : State) (n : Nat) : s.parksTo (s.framesCut n) := by
  have hl : s.parksTo (s.lacksFrame n) := by
    unfold State.lacksFrame
    split
    · exact ⟨rfl, rfl, id⟩
    · exact s.parksTo_refl
  unfold State.framesCut
  split
  · extract_lets t u
    have ht : s.parksTo t := by
      show s.parksTo (if _ then _ else _)
      split
      · exact s.parksTo_refl
      · exact hl
    refine ht.trans ⟨rfl, rfl, fun h => ?_⟩
    show t.ulp.held.map _ = []
    rw [h]
    rfl
  · exact s.parksTo_refl

/-- Parking a lane other than lane 0 (R270). -/
theorem State.park_parks (s : State) {n : Nat} (hn : n ≠ 0) : s.parksTo (s.park n) := by
  have h := s.framesCut_parks n
  unfold State.park
  refine h.trans ⟨rfl, ?_, id⟩
  have hb : ∀ (u : State) (a i : Nat) (b : Bool), (u.setBit a i b).lane 0 = u.lane 0 := fun _ _ _ _ => rfl
  rw [hb, State.lane_setLane, if_neg (Ne.symm hn)]

theorem State.parkExtra_parks (s : State) : s.parksTo s.parkExtra := by
  have hf : ∀ (l : List Nat), (∀ n ∈ l, n ≠ 0) → ∀ t : State, t.parksTo (l.foldl State.park t) := by
    intro l
    induction l with
    | nil => exact fun _ t => t.parksTo_refl
    | cons n l ih =>
      intro hl t
      exact (t.park_parks (hl n (List.mem_cons_self ..))).trans (ih (fun m hm => hl m (List.mem_cons_of_mem _ hm)) _)
  refine hf _ (fun n hn => ?_) s
  have := (List.mem_filter.1 hn).2
  rintro rfl
  simp at this

/-! ### The end of a run's data -/

/-- Samplers, Whisk and run stop, and nothing but them and the group enables moves (R36, R48, R140). -/
theorem State.stopData_keeps (s : State) : s.stopData.hk = s.hk ∧ s.stopData.run = { s.run with active := false } ∧
    s.stopData.wf.sampStart = none ∧ s.stopData.cd.whisk.on = false ∧ s.stopData.lanes = s.lanes ∧
      s.stopData.tb = s.tb ∧ s.stopData.lid = s.lid ∧ s.stopData.regs = s.regs ∧ s.stopData.ulp = s.ulp := by
  unfold State.stopData
  extract_lets t c k u
  have hu : u.cd.whisk.on = false := by
    rw [show u = State.setCd _ _ from rfl, State.cd_setCd]
  have hs : u.still = t.still := State.setCd_still _ _
  refine ⟨(still_hk hs).trans rfl, congrArg (fun r : Run => { r with active := false }) ((still_run hs).trans rfl),
    ?_, hu, State.setCd_lanes _ _, State.setCd_tb _ _, (still_lid hs).trans rfl, State.setCd_regs _ _, State.setCd_ulp _ _⟩
  show u.wf.sampStart = none
  rw [still_wf hs]
  rfl

/-- The lanes, and the frames that the link holds. -/
def State.carried (s : State) : Sparse LaneSt × List Frame := (s.lanes, s.ulp.held)

section
variable (s : State)

theorem State.setRegAt_carried (k : Nat) (v : W32) : (s.setRegAt k v).carried = s.carried := rfl
theorem State.countAt_carried (k top n : Nat) : (s.countAt k top n).carried = s.carried := s.setRegAt_carried k _
theorem State.setBit_carried (a i : Nat) (b : Bool) : (s.setBit a i b).carried = s.carried := s.setRegAt_carried _ _
theorem State.setFld_carried (a h l v : Nat) : (s.setFld a h l v).carried = s.carried := s.setRegAt_carried _ _
theorem State.event_carried (a : Nat) (bs : List Nat) : (s.event a bs).carried = s.carried := rfl
theorem State.eventIf_carried (c : Bool) (a : Nat) (bs : List Nat) : (s.eventIf c a bs).carried = s.carried :=
  ite_keeps _ _ (s.event_carried a bs) rfl
theorem State.count_carried (a n : Nat) : (s.count a n).carried = s.carried := s.countAt_carried _ _ n
theorem State.setCd_carried (c : Cd) : (s.setCd c).carried = s.carried := ite_keeps _ _ rfl rfl
theorem State.setOther_carried (c : Cd) : (s.setOther c).carried = s.carried := ite_keeps _ _ rfl rfl

theorem State.hardResult_carried (c r : Nat) : (s.hardResult c r).carried = s.carried := by
  unfold State.hardResult
  dsimp only
  rw [State.event_carried]
  rfl

theorem State.exhaust_carried (m i : Nat) (on : Bool) : (s.exhaust m i on).carried = s.carried := by
  unfold State.exhaust
  dsimp only
  rw [State.eventIf_carried, State.setBit_carried]
  rfl

theorem State.plannerMove_carried (f : Bool) : (s.plannerMove f).carried = s.carried := by
  have h : ((s.count Reg.AGE_ACT_CNT 1).event Reg.AGE_EVT (if f then [0, 4] else [0])).carried = s.carried :=
    (State.event_carried _ _ _).trans (s.count_carried _ _)
  exact ite_keeps _ _ ((State.setBit_carried _ _ _ _).trans h) h

theorem State.planLen_carried (g len : Nat) : (s.planLen g len).carried = s.carried := by
  unfold State.planLen
  dsimp only
  rw [State.plannerMove_carried]
  exact s.setFld_carried (Reg.TDC_LEN + 4 * (g / 16)) (2 * (g % 16) + 1) (2 * (g % 16)) len

theorem State.margin1_carried (now : Bool) (g a : Nat) : (s.margin1 now g a).carried = s.carried := by
  unfold State.margin1
  dsimp only
  refine ite_keeps _ _ rfl (ite_keeps _ _ (s.exhaust_carried _ _ _) ?_)
  split
  · exact s.exhaust_carried _ _ _
  · exact ite_keeps _ _ ((State.planLen_carried _ _ _).trans (s.exhaust_carried _ _ _)) (s.exhaust_carried _ _ _)

theorem State.planFill_carried (f : Fill) (chans : List Nat) (e : Bool) : (s.planFill f chans e).carried = s.carried := by
  unfold State.planFill
  extract_lets due a0 t0 t gs waits a1 u
  have ht0 : t0.carried = s.carried := rfl
  have ht : t.carried = s.carried := ite_keeps _ _ (ite_keeps _ _ ((State.setBit_carried _ _ _ _).trans ht0) ht0) rfl
  have hl : ∀ (v : State) (w : Nat × Nat), (v.planLen w.1 w.2).carried = v.carried := fun v w => v.planLen_carried w.1 w.2
  have hu : u.carried = s.carried := (foldl_keeps State.carried hl waits _).trans (ite_keeps _ _ ht ht)
  exact ite_keeps _ _ ht ((foldl_keeps State.carried (fun v g => State.margin1_carried v e g _) gs u).trans hu)

/-- A fill that stops leaves lanes and frames (R121, R124). -/
theorem State.abortFill_carried : s.abortFill.carried = s.carried := by
  unfold State.abortFill
  split
  · refine ite_keeps _ _ rfl ?_
    dsimp only
    rw [State.planFill_carried]
    exact (show _ = State.carried _ from rfl).trans
      (foldl_keeps State.carried (fun t c => t.hardResult_carried c 6) _ s)
  · rfl

theorem State.insertBarrier_carried (b : Barrier) : (s.insertBarrier b).carried = s.carried := by
  unfold State.insertBarrier
  extract_lets c p nr nj q later k rel jbs c1 x t j
  refine ite_keeps _ _ (s.setCd_carried _) (ite_keeps _ _ ?_ (s.setCd_carried _))
  rw [State.count_carried, State.count_carried, State.count_carried, State.count_carried]
  exact s.setCd_carried _

theorem State.standBarrier_carried (b : Barrier) : (s.standBarrier b).carried = s.carried := by
  have hr : (s.recordBarrier b).carried = s.carried := ite_keeps _ _ (s.setOther_carried _) rfl
  refine ite_keeps _ _ ?_ ?_
  · rw [State.setCd_carried, State.insertBarrier_carried, hr]
  · rw [State.setCd_carried, hr]

theorem State.flushAt_carried (n id : Nat) : (s.flushAt n id).carried = s.carried :=
  ite_keeps _ _ ((State.event_carried _ _ _).trans (s.count_carried _ _)) (s.standBarrier_carried _)

theorem State.runFlushes_carried : s.runFlushes.carried = s.carried := by
  unfold State.runFlushes
  extract_lets due
  have h : ∀ (t : State) (f : Nat × Nat), (t.flushAt f.1 f.2).carried = t.carried := fun t f => t.flushAt_carried f.1 f.2
  exact (foldl_keeps State.carried h due _).trans rfl

end

/-- DRAIN ends (R45, R346). -/
theorem drainComplete_ends {s : State} (hm : s.hk.mode = .drain) (hc : s.run.closedMark = true) (ht : s.hk.target = none)
    (hr : s.ringsOpen = false) : ∃ t, exec .drainComplete s = .next t ∧ t.hk.mode = .simmer ∧ t.hk.cause = 5 ∧
      t.run.active = false ∧ t.wf.sampStart = none ∧ t.cd.whisk.on = false ∧ t.lane 0 = s.lane 0 ∧
        (s.role = .limb → t.ulp.held = []) := by
  have hn : ¬(s.hk.mode ≠ .drain ∨ (!s.run.closedMark) = true ∨ s.ringsOpen = true ∨ s.hk.target ≠ none) := by
    rw [hm, hc, ht, hr]; simp
  refine ⟨_, congrArg Host.Outcome.next (if_neg hn), ?_⟩
  extract_lets link t
  have hfreed : t.lanes = s.lanes ∧ (s.role = .limb → t.ulp.held = []) := by
    show (State.lanes (if _ then _ else _)) = _ ∧ (_ → (State.ulp (if _ then _ else _)).held = _)
    split
    · exact ⟨rfl, fun _ => rfl⟩
    · next h => exact ⟨rfl, fun hl => absurd hl h⟩
  have hcar : t.runFlushes.abortFill.carried = t.carried := (State.abortFill_carried _).trans t.runFlushes_carried
  obtain ⟨hlan, hheld⟩ := Prod.mk.inj hcar
  generalize t.runFlushes.abortFill = u at hlan hheld ⊢
  obtain ⟨-, hrun, hsamp, hon, hla, -, -, -, hul⟩ := u.stopData_keeps
  obtain ⟨hpk, hl0, hheld'⟩ := u.stopData.parkExtra_parks
  generalize u.stopData.parkExtra = v at hpk hl0 hheld' ⊢
  have hvrun : v.run = u.stopData.run := by rw [hpk]
  have hvwf : v.wf = u.stopData.wf := by rw [hpk]
  have hvcd : v.cd = u.stopData.cd := by rw [hpk]; rfl
  have hdcd : (v.modeDone .simmer 5).cd = v.cd := State.cd_congr (by rw [State.modeDone_rd]) (State.modeDone_cda _ _ _) (State.modeDone_cdb _ _ _)
  refine ⟨State.modeDone_mode _ _ _, by rw [State.modeDone_hk], ?_, ?_, ?_, ?_, fun hl => ?_⟩
  · rw [State.modeDone_run, hvrun, hrun]
  · rw [State.modeDone_wf, hvwf, hsamp]
  · rw [hdcd, hvcd, hon]
  · have : (v.modeDone .simmer 5).lane 0 = v.lane 0 := by
      unfold State.lane
      rw [State.modeDone_lanes]
    rw [this, hl0]
    unfold State.lane
    rw [hla, hlan, hfreed.1]
  · rw [State.modeDone_ulp, hheld' (by rw [hul, hheld, hfreed.2 hl])]

/-- The drain of SAFE ends (R48). -/
theorem safeDrainEnd_ends {s : State} (hm : s.hk.mode = .safe ∨ s.hk.target = some .safe) (hd : s.hk.safeDrained = false)
    (hc : s.run.closedMark = true) (hr : s.ringsOpen = false) :
    ∃ t, exec .safeDrainEnd s = .next t ∧ t.hk = { s.hk with safeDrained := true } ∧ t.run = { s.run with active := false } ∧
      t.wf.sampStart = none ∧ t.cd.whisk.on = false ∧ t.lanes = s.lanes ∧ t.tb = s.tb ∧ t.lid = s.lid ∧
      t.regs = s.regs := by
  refine ⟨_, congrArg Host.Outcome.next (if_pos ⟨hm, by rw [hd]; rfl, hc, by rw [hr]; rfl⟩), ?_⟩
  obtain ⟨hk, hrun, hsamp, hon, hla, htb, hli, hre, -⟩ := s.stopData_keeps
  exact ⟨congrArg (fun h : Hk => { h with safeDrained := true }) hk, hrun, hsamp, hon, hla, htb, hli, hre⟩

/-! ### The obligation -/

/-- The last step of each transition enters its target (R36). -/
theorem modeTransitionComplete_enters {s : State} {m : Mode} (env : EntryEnv) (ht : s.hk.target = some m) (hd : m ≠ .drain)
    (hr : m = .run → s.hk.heldSpillEnd = none) (hs : m = .safe → s.rd.step = 0 ∨ s.hk.tcause ≠ 6) :
    ∃ t, exec (.modeTransitionComplete env) s = .next t ∧ t.hk.mode = m ∧ t.hk.target = none ∧
      (m ≠ .run → t.hk.cause = s.hk.tcause) ∧
      (m = .load → t.tb.state = .freerun ∧ (s.tb.tn < 2 ^ 64 → t.tb.tn = s.tb.tn) ∧ t.lid.state = .off ∧ t.lanes = [] ∧
        t.rd.step = 0) ∧
      (m = .run → t.run.active = true ∧ t.run.closedMark = false ∧ t.wf.sampStart.isSome = true) ∧
      (m = .calib → t.cd.whisk.on = true ∧ t.wf.sampStart = some (t.tb.tn + 1)) ∧
      (m = .test → t.wf.sampStart = some (t.tb.tn + 1)) ∧
      (m = .boot → t.hk.minimalLink = true) := by
  show ∃ t, execModeTransitionComplete env s = .next t ∧ _
  unfold execModeTransitionComplete
  rw [ht]
  cases m with
  | boot =>
    obtain ⟨⟨hm, htg, hc⟩, hl⟩ := s.bootAfterLoad_enters
    exact ⟨_, rfl, hm, htg, fun _ => hc, nofun, nofun, nofun, nofun, fun _ => hl⟩
  | load =>
    obtain ⟨⟨hm, htg, hc⟩, h⟩ := s.enterLoad_enters
    exact ⟨_, rfl, hm, htg, fun _ => hc, fun _ => h, nofun, nofun, nofun, nofun⟩
  | simmer =>
    obtain ⟨hm, htg, hc⟩ := s.toSimmer_arrives env
    exact ⟨_, rfl, hm, htg, fun _ => hc, nofun, nofun, nofun, nofun, nofun⟩
  | calib =>
    obtain ⟨⟨hm, htg, hc⟩, h⟩ := s.toCalib_enters env
    exact ⟨s.toCalib env, rfl, hm, htg, fun _ => hc, nofun, nofun, fun _ => h, nofun, nofun⟩
  | run =>
    obtain ⟨w, c, hw, he⟩ := State.toRun_ready (hr rfl) env
    obtain ⟨hm, htg, h⟩ := State.entersRun_ready hw c
    rw [← he] at hm htg h
    exact ⟨s.toRun env, rfl, hm, htg, fun hne => absurd rfl hne, nofun, fun _ => h, nofun, nofun, nofun⟩
  | drain => exact absurd rfl hd
  | safe =>
    have hn : ¬(s.rd.step ≠ 0 ∧ s.hk.tcause = 6) := fun ⟨h1, h2⟩ => (hs rfl).elim h1 (fun h => h h2)
    obtain ⟨hm, htg, hc⟩ := s.toSafe_arrives env
    show ∃ t, Host.Outcome.next (if s.rd.step ≠ 0 ∧ s.hk.tcause = 6 then s else s.toSafe env) = .next t ∧ _
    rw [if_neg hn]
    exact ⟨_, rfl, hm, htg, fun _ => hc, nofun, nofun, nofun, nofun, nofun⟩
  | test =>
    obtain ⟨⟨hm, htg, hc⟩, h⟩ := s.toTest_enters env
    exact ⟨s.toTest env, rfl, hm, htg, fun _ => hc, nofun, nofun, nofun, fun _ => h, nofun⟩

/-- Settles O20: the last step by its target, then the ends of CALIB, DRAIN and the drain of SAFE. -/
theorem transitionsReachTheirMode : Obligations.TransitionsReachTheirMode := by
  unfold Obligations.TransitionsReachTheirMode
  refine ⟨fun env m s => modeTransitionComplete_enters env, fun env s ht hst hc => ?_, fun s hm ht hb => ?_,
    fun s => drainComplete_ends, fun s => safeDrainEnd_ends⟩
  · show execModeTransitionComplete env s = _
    unfold execModeTransitionComplete
    rw [ht]
    exact congrArg Host.Outcome.next (if_pos ⟨hst, hc⟩)
  · refine ⟨s.modeGo .simmer 5, ?_, rfl⟩
    exact congrArg Host.Outcome.next (if_pos ⟨hm, ht, by rw [hb]; rfl⟩)

end Sys2Proof.Machine
end

section
/-! O21: markers on lane 0 and the FLUSH that a tick executes (R44 to R46, R226, R304). -/

namespace Sys2Proof.Machine

/-! ### A marker that is no duplicate -/

/-- The state in which a new marker acts: its MSEQ remembered, its frame counted. -/
def State.marked (s : State) (mseq : BitVec 16) : State :=
  ({ s with ulp := { s.ulp with marks := lastN 8 (s.ulp.marks ++ [mseq]) } }).countLane Reg.LK_LANE_RX_FRAMES 0 1

/-- A state with the two marker registers of lane 0 written. -/
def State.noted (s : State) (w : W32) (slice : Nat) : State :=
  (s.setReg Reg.LK_MARK_LAST w).setReg Reg.LK_MARK_SLICE (BitVec.ofNat 32 slice)

/-- A new marker does what its action does, and writes the two marker registers. -/
theorem State.marker_acts {s : State} {mseq : BitVec 16} (ho : s.pathOpen 0 = true) (hm : mseq ∉ s.ulp.marks)
    {act : State → Bool × State} {b : Bool} {u : State} (h : act (s.marked mseq) = (b, u)) (kind mode slice : Nat) :
    ∃ w, s.marker kind mode mseq.toNat slice act = u.noted w slice := by
  have hq : BitVec.ofNat 16 mseq.toNat = mseq := by simp
  refine ⟨word32 [(kind, 4), (mode, 4), (mseq.toNat, 16), (0, 7), (b2n b, 1)], ?_⟩
  unfold State.marker
  rw [if_neg (by simp [ho]), hq, if_neg (by simpa using hm)]
  show (State.setReg (act (s.marked mseq)).2 _ _).setReg _ _ = _
  rw [show act (({ s with ulp := { s.ulp with marks := lastN 8 (s.ulp.marks ++ [mseq]) } } : State).countLane
    Reg.LK_LANE_RX_FRAMES 0 1) = (b, u) from h, h]
  rfl

theorem mem_lastN_concat {α : Type} (n : Nat) (l : List α) (x : α) : x ∈ lastN (n + 1) (l ++ [x]) := by
  unfold lastN
  rw [List.drop_append_of_le_length (by simp)]
  simp

theorem State.other_congr {s t : State} (hd : t.rd.activeB = s.rd.activeB) (ha : t.cda = s.cda) (hb : t.cdb = s.cdb) :
    t.other = s.other := by
  unfold State.other
  rw [hd, ha, hb]

section
variable (s : State)

theorem State.noted_still (w : W32) (n : Nat) : (s.noted w n).still = s.still :=
  (State.setReg_still _ _ _).trans (s.setReg_still _ _)
theorem State.noted_resp (w : W32) (n : Nat) : (s.noted w n).resp = s.resp :=
  (State.setReg_resp _ _ _).trans (s.setReg_resp _ _)
theorem State.noted_ulp (w : W32) (n : Nat) : (s.noted w n).ulp = s.ulp :=
  (State.setReg_ulp _ _ _).trans (s.setReg_ulp _ _)
theorem State.noted_cd (w : W32) (n : Nat) : (s.noted w n).cd = s.cd :=
  State.cd_congr (congrArg Rd.activeB (still_rd (s.noted_still w n)))
    ((State.setReg_cda _ _ _).trans (s.setReg_cda _ _)) ((State.setReg_cdb _ _ _).trans (s.setReg_cdb _ _))
theorem State.noted_other (w : W32) (n : Nat) : (s.noted w n).other = s.other :=
  State.other_congr (congrArg Rd.activeB (still_rd (s.noted_still w n)))
    ((State.setReg_cda _ _ _).trans (s.setReg_cda _ _)) ((State.setReg_cdb _ _ _).trans (s.setReg_cdb _ _))
theorem State.noted_slice (w : W32) (n : Nat) : (s.noted w n).reg Reg.LK_MARK_SLICE = BitVec.ofNat 32 n :=
  State.reg_setReg _ _ _

variable (m : BitVec 16)

theorem State.marked_still : (s.marked m).still = s.still := State.countLane_still _ _ _ _
theorem State.marked_resp : (s.marked m).resp = s.resp := State.countLane_resp _ _ _ _
theorem State.marked_tb : (s.marked m).tb = s.tb := State.countLane_tb _ _ _ _
theorem State.marked_cd : (s.marked m).cd = s.cd := rfl
theorem State.marked_other : (s.marked m).other = s.other := rfl
theorem State.marked_flushes : (s.marked m).ulp.flushes = s.ulp.flushes := by
  unfold State.marked
  rw [State.countLane_ulp]
theorem State.marked_marks : m ∈ (s.marked m).ulp.marks := by
  unfold State.marked
  rw [State.countLane_ulp]
  exact mem_lastN_concat 7 _ _
theorem State.marked_regAt {k : Nat} (h : k ≠ instKey Reg.LK_LANE_RX_FRAMES 0) : (s.marked m).regAt k = s.regAt k :=
  State.regAt_countAt_ne _ h _ _
theorem State.marked_reg {a : Nat} (h : s.phys a ≠ instKey Reg.LK_LANE_RX_FRAMES 0) : (s.marked m).reg a = s.reg a := by
  have hp : (s.marked m).phys a = s.phys a := State.phys_countAt _ _ _ _ _
  unfold State.reg
  rw [hp, s.marked_regAt m h]

/-! ### The slice of DT -/

theorem State.curSlice_congr {s t : State} (hk : t.k = s.k) (ht : t.tb = s.tb) : t.curSlice = s.curSlice := by
  unfold State.curSlice State.sliceOf
  rw [hk, ht]

theorem State.sliceEnded_congr {s t : State} (hk : t.k = s.k) (ht : t.tb = s.tb) (n : Nat) :
    t.sliceEnded n = s.sliceEnded n := by
  unfold State.sliceEnded State.firstTick
  rw [hk, ht, State.curSlice_congr hk ht]

theorem State.marked_k : (s.marked m).k = s.k := by
  unfold State.k State.eff
  rw [s.marked_regAt m (by decide)]

theorem State.marked_curSlice : (s.marked m).curSlice = s.curSlice :=
  State.curSlice_congr (s.marked_k m) (s.marked_tb m)

/-- The k in force once SLC_CFG is applied (R213). -/
theorem State.latch_k : (s.latch [Reg.SLC_CFG]).k = bits (s.reg Reg.SLC_CFG) 2 0 + 8 := by
  unfold State.k State.eff State.latch
  extract_lets changed old s1 l w l' w' new fresh slc st trg
  have h1 : s1.regAt (effKey Reg.SLC_CFG) = s.reg Reg.SLC_CFG := by
    show (s.setEff Reg.SLC_CFG (s.reg Reg.SLC_CFG)).regAt _ = _
    unfold State.setEff
    rw [State.regAt_setRegAt, if_pos rfl]
  clear_value s1 new slc trg
  rw [State.regAt_congr (State.eventIf_regs _ _ _ _), State.regAt_congr (State.eventIf_regs _ _ _ _)]
  unfold State.setEff
  rw [State.regAt_setRegAt_ne _ (by decide), h1]

theorem State.latch_tb (rs : List Nat) : (s.latch rs).tb = s.tb := by
  unfold State.latch
  extract_lets changed old s1 l w l' w' new fresh slc st trg
  rw [State.eventIf_tb, State.eventIf_tb, State.setEff_tb]
  exact foldl_keeps State.tb (fun t a => t.setEff_tb a _) rs s

theorem State.marked_latch_curSlice :
    ((s.marked m).latch [Reg.SLC_CFG]).curSlice = (s.latch [Reg.SLC_CFG]).curSlice := by
  refine State.curSlice_congr ?_ ?_
  · rw [State.latch_k, State.latch_k, s.marked_reg m]
    unfold State.phys
    split
    · split <;> decide
    · decide
  · rw [State.latch_tb, State.latch_tb, s.marked_tb]

/-! ### What the start of a transition leaves of the uplink path -/

/-- The MSEQ values that are remembered. -/
def State.marksSeen : List (BitVec 16) := s.ulp.marks

theorem State.setReg_marksSeen (a : Nat) (v : W32) : (s.setReg a v).marksSeen = s.marksSeen :=
  congrArg Ulp.marks (s.setReg_ulp a v)
theorem State.setLane_marksSeen (n : Nat) (l : LaneSt) : (s.setLane n l).marksSeen = s.marksSeen :=
  congrArg Ulp.marks (s.setLane_ulp n l)
theorem State.latch_marksSeen (rs : List Nat) : (s.latch rs).marksSeen = s.marksSeen := by
  unfold State.latch
  extract_lets changed old s1 l w l' w' new fresh slc st trg
  refine (congrArg Ulp.marks ((State.eventIf_ulp _ _ _ _).trans ((State.eventIf_ulp _ _ _ _).trans
    (State.setEff_ulp _ _ _)))).trans ?_
  exact foldl_keeps State.marksSeen (fun t a => congrArg Ulp.marks (t.setEff_ulp a _)) rs s

/-- A change of the time base that is no entry to ACQUIRE sends nothing. -/
theorem State.tbGo_marksSeen {t : TbState} (ht : t ≠ .acquire) (cause : Nat) :
    (s.tbGo t cause).marksSeen = s.marksSeen := by
  refine ite_keeps _ _ rfl ?_
  unfold State.firstDreq
  rw [if_neg]
  · exact (congrArg Ulp.marks (State.event_ulp _ _ _)).trans (congrArg Ulp.marks (State.pqPush_ulp _ _ _))
  · rintro ⟨hd, -⟩
    rw [State.event_tb, State.tsEntry_tb] at hd
    exact ht (by simpa using hd)

theorem State.toXo_marksSeen : s.toXo.marksSeen = s.marksSeen := by
  have hl : s.learned.2.ulp = s.ulp := by
    unfold State.learned
    split <;> rfl
  have hx : ∀ u : State, u.xoTemp.2.ulp = u.ulp := by
    intro u
    unfold State.xoTemp
    dsimp only
    split <;> rfl
  unfold State.toXo
  extract_lets d f x t
  have ht : t.ulp = x.2.ulp := rfl
  exact congrArg Ulp.marks (ht.trans ((hx _).trans hl))

theorem State.tbLaneLost_marksSeen (cause : Nat) : (s.tbLaneLost cause).marksSeen = s.marksSeen := by
  have hh : (s.enterHoldover cause).marksSeen = s.marksSeen :=
    (State.toXo_marksSeen _).trans (s.tbGo_marksSeen (by decide) _)
  unfold State.tbLaneLost
  split
  · rfl
  · exact ite_keeps _ _ hh ((State.tbGo_marksSeen _ (by decide) _).trans rfl)
  · exact hh
  · exact ite_keeps _ _ rfl s.toXo_marksSeen

theorem State.framesCut_marksSeen (n : Nat) : (s.framesCut n).marksSeen = s.marksSeen := by
  have hl : (s.lacksFrame n).marksSeen = s.marksSeen := ite_keeps State.marksSeen _ rfl rfl
  unfold State.framesCut
  split
  · extract_lets t
    have ht : t.marksSeen = s.marksSeen := ite_keeps State.marksSeen _ rfl hl
    exact ht
  · rfl

theorem State.unblock_marksSeen (n cause : Nat) : (s.unblock n cause).marksSeen = s.marksSeen :=
  ite_keeps _ _ ((State.tbLaneLost_marksSeen _ _).trans (s.setLane_marksSeen _ _)) (s.setLane_marksSeen _ _)

theorem State.startBringUp_marksSeen (n : Nat) : (s.startBringUp n).marksSeen = s.marksSeen := by
  unfold State.startBringUp
  extract_lets c t l wait
  have hc : c.marksSeen = s.marksSeen := s.framesCut_marksSeen n
  have ht : t.marksSeen = s.marksSeen := ite_keeps _ _ ((State.unblock_marksSeen _ _ _).trans hc) hc
  exact ite_keeps _ _ ((State.setLane_marksSeen _ _ _).trans ht) ((State.setLane_marksSeen _ _ _).trans ht)

theorem State.unparkAll_marksSeen : s.unparkAll.marksSeen = s.marksSeen := by
  have hu : ∀ (t : State) (n : Nat), (t.unpark n).marksSeen = t.marksSeen := fun t n =>
    ite_keeps _ _ (ite_keeps _ _ (t.setLane_marksSeen _ _) (t.startBringUp_marksSeen n)) rfl
  exact foldl_keeps State.marksSeen hu _ s

theorem State.fullBias_marksSeen : s.fullBias.marksSeen = s.marksSeen := ite_keeps _ _ rfl rfl

theorem State.checkBegins_marksSeen : s.checkBegins.marksSeen = s.marksSeen := ite_keeps _ _ rfl rfl

theorem State.goRun_marksSeen (cause : Nat) : (s.goRun cause).marksSeen = s.marksSeen := by
  unfold State.goRun
  rw [State.unparkAll_marksSeen]
  exact (State.checkBegins_marksSeen _).trans ((State.fullBias_marksSeen _).trans (s.latch_marksSeen _))

theorem State.goCalib_marksSeen : (s.fullBias.checkBegins.modeGo .calib 2).unparkAll.marksSeen = s.marksSeen := by
  rw [State.unparkAll_marksSeen]
  exact (State.checkBegins_marksSeen _).trans s.fullBias_marksSeen

theorem State.goRun_asks (cause : Nat) : (s.goRun cause).asks = s.asks := by
  unfold State.goRun
  rw [State.unparkAll_asks, State.modeGo_asks, State.checkBegins_asks, State.fullBias_asks, State.latch_asks]

theorem State.goRun_hk (cause : Nat) : (s.goRun cause).hk = { s.hk with target := some .run, tcause := cause } := by
  have h : ((s.latch [Reg.SLC_CFG]).fullBias.checkBegins).still = s.still := by simp
  unfold State.goRun
  rw [still_hk (State.unparkAll_still _)]
  show ({ ((s.latch [Reg.SLC_CFG]).fullBias.checkBegins).hk with target := some .run, tcause := cause } : Hk) = _
  rw [still_hk h]

end

/-! ### SPILL_START and SPILL_END -/

theorem State.marked_bit (s : State) (m : BitVec 16) {a : Nat} (h : a < 0x1000000) (i : Nat) :
    (s.marked m).bit a i = s.bit a i := by
  unfold State.bit
  rw [s.marked_reg m (s.phys_ne_instKey h _ _)]

theorem State.noted_marks {s u : State} {m : BitVec 16} (h : u.marksSeen = (s.marked m).marksSeen) (w : W32) (n : Nat) :
    m ∈ (u.noted w n).ulp.marks := by
  rw [State.noted_ulp, show u.ulp.marks = (s.marked m).ulp.marks from h]
  exact s.marked_marks m

/-- A state on its way to RUN for the slice `n` (R44). -/
def State.spillStarted (u : State) (n : Nat) : State :=
  { u with hk := { u.hk with spillSf := some n, spillEntry := true } }

theorem State.markStart_acts {s : State} {mseq : BitVec 16} {n : Nat} (ho : s.pathOpen 0 = true)
    (hn : mseq ∉ s.ulp.marks) (ht : s.hk.target = none) (hm : s.hk.mode = .simmer)
    (ha : s.bit Reg.HK_AUTO_SPILL 0 = true) (hl : -64 ≤ sdiff n (s.latch [Reg.SLC_CFG]).curSlice)
    (hu : sdiff n (s.latch [Reg.SLC_CFG]).curSlice ≤ 2 ^ 20) :
    ∃ w, s.markStart mseq.toNat n = (((s.marked mseq).goRun 3).spillStarted n).noted w n := by
  refine State.marker_acts ho hn (b := false) ?_ 1 0 n
  have hin : ¬((!(s.marked mseq).bit Reg.HK_AUTO_SPILL 0) = true ∨ (s.marked mseq).hk.mode ≠ .simmer ∨
      (s.marked mseq).hk.target ≠ none ∨ sdiff n ((s.marked mseq).latch [Reg.SLC_CFG]).curSlice > 2 ^ 20 ∨
      sdiff n ((s.marked mseq).latch [Reg.SLC_CFG]).curSlice < -64) := by
    rw [s.marked_bit mseq (by decide), ha, still_hk (s.marked_still mseq), hm, ht, s.marked_latch_curSlice mseq]
    simp only [Bool.not_true, Bool.false_eq_true, ne_eq, not_true_eq_false, false_or]
    omega
  dsimp only
  rw [if_neg hin]
  rfl

/-- R44: SPILL_START in SIMMER, its slice in time. -/
theorem markSpillStart_acts {s0 s : State} {mseq : BitVec 16} {slice : W32} {now : Nat} (hs : s = s0.advanceTo now)
    (ho : s.pathOpen 0 = true) (hn : mseq ∉ s.ulp.marks) (ht : s.hk.target = none) (hm : s.hk.mode = .simmer)
    (ha : s.bit Reg.HK_AUTO_SPILL 0 = true) (hl : -64 ≤ sdiff slice.toNat (s.latch [Reg.SLC_CFG]).curSlice)
    (hu : sdiff slice.toNat (s.latch [Reg.SLC_CFG]).curSlice ≤ 2 ^ 20) :
    ∃ t, exec (.markSpillStart mseq slice now) s0 = .next t ∧ t.hk.mode = .simmer ∧ t.hk.target = some .run ∧
      t.hk.tcause = 3 ∧ t.hk.spillSf = some slice.toNat ∧ t.hk.spillEntry = true ∧ mseq ∈ t.ulp.marks ∧
      t.reg Reg.LK_MARK_SLICE = slice ∧ t.resp = s0.resp := by
  obtain ⟨w, hw⟩ := State.markStart_acts ho hn ht hm ha hl hu
  have hgo : ((s.marked mseq).goRun 3).hk = { s.hk with target := some .run, tcause := 3 } := by
    rw [State.goRun_hk, still_hk (s.marked_still mseq)]
  have hmk := (s.marked mseq).goRun_marksSeen 3
  have hre : ((s.marked mseq).goRun 3).resp = s0.resp := by
    rw [asks_resp (State.goRun_asks _ 3), s.marked_resp mseq, hs, State.advanceTo_resp]
  generalize (s.marked mseq).goRun 3 = u at hw hgo hmk hre
  have hex : exec (.markSpillStart mseq slice now) s0 = .next (s.markStart mseq.toNat slice.toNat) := by
    rw [hs]
    rfl
  refine ⟨(u.spillStarted slice.toNat).noted w slice.toNat, hex.trans (congrArg Host.Outcome.next hw), ?_⟩
  have hhk : (u.spillStarted slice.toNat).hk = { s.hk with
      target := some .run, tcause := 3, spillSf := some slice.toNat, spillEntry := true } := by
    unfold State.spillStarted
    rw [hgo]
  rw [still_hk (State.noted_still _ _ _), State.noted_resp, State.noted_slice, hhk]
  have hmem : mseq ∈ ((u.spillStarted slice.toNat).noted w slice.toNat).ulp.marks := State.noted_marks hmk w slice.toNat
  exact ⟨hm, rfl, rfl, rfl, rfl, hmem, by simp, hre⟩

theorem State.dropSyncs_still (s : State) (n : Nat) : (s.dropSyncs n).still = s.still := by
  unfold State.dropSyncs
  extract_lets k c s1 o s2
  have h2 : s2.still = s.still := (State.setOther_still _ _).trans (s.setCd_still _)
  exact ite_keeps _ _ h2 ((State.event_still _ _ _).trans ((State.count_still _ _ _).trans h2))

theorem State.dropSyncs_marksSeen (s : State) (n : Nat) : (s.dropSyncs n).marksSeen = s.marksSeen := by
  have h : (s.dropSyncs n).ulp = s.ulp := by
    unfold State.dropSyncs
    extract_lets k c s1 o s2
    have h2 : s2.ulp = s.ulp := (State.setOther_ulp _ _).trans (s.setCd_ulp _)
    exact ite_keeps State.ulp _ h2 ((State.event_ulp _ _ _).trans ((State.count_ulp _ _ _).trans h2))
  exact congrArg Ulp.marks h

/-- R45: the end slice `n` of a SPILL_END that is in time is Sl. -/
theorem State.spillInTime_acts {s : State} {n : Nat} (hf : 0 ≤ sdiff n s.run.sf) :
    (s.spillInTime n).hk = { s.hk with target := some .drain, tcause := 4 } ∧
      (s.spillInTime n).run = { s.run with sl := some n, endMode := 2, endCause := 4 } ∧
      (s.spillInTime n).resp = s.resp ∧ (s.spillInTime n).marksSeen = s.marksSeen := by
  unfold State.spillInTime
  rw [if_neg (by omega)]
  dsimp only
  generalize ht : ({ s with run := { s.run with sl := some n, endMode := 2, endCause := 4 } } : State) = t
  have hh : t.hk = s.hk := by rw [← ht]
  have hr : t.run = { s.run with sl := some n, endMode := 2, endCause := 4 } := by rw [← ht]
  have hp : t.resp = s.resp := by rw [← ht]
  have hu : t.marksSeen = s.marksSeen := by rw [← ht]; rfl
  refine ⟨?_, ?_, ?_, ?_⟩
  · show ({ (t.dropSyncs n).hk with target := some .drain, tcause := 4 } : Hk) = _
    rw [still_hk (t.dropSyncs_still n), hh]
  · rw [State.modeGo_run, still_run (t.dropSyncs_still n), hr]
  · rw [State.modeGo_resp, asks_resp (t.dropSyncs_asks n), hp]
  · exact (t.dropSyncs_marksSeen n).trans hu

theorem State.markEnd_acts {s : State} {mseq : BitVec 16} {n : Nat} (ho : s.pathOpen 0 = true)
    (hn : mseq ∉ s.ulp.marks) (ht : s.hk.target = none) (hm : s.hk.mode = .run)
    (ha : s.bit Reg.HK_AUTO_SPILL 0 = true) (hd : 0 ≤ sdiff n s.run.named) (hl : 0 < sdiff n s.curSlice)
    (hu : sdiff n s.curSlice ≤ 2 ^ 20) :
    ∃ w, s.markEnd mseq.toNat n = ((s.marked mseq).spillInTime n).noted w n := by
  refine State.marker_acts ho hn (b := false) ?_ 2 0 n
  have hhk := still_hk (s.marked_still mseq)
  have hmiss : (s.marked mseq).spillMisses n = false := by
    unfold State.spillMisses
    rw [hhk, hm, ht, still_run (s.marked_still mseq), s.marked_curSlice mseq]
    simp only [bne_self_eq_false, Bool.or_false, Bool.false_or, Bool.or_eq_false_iff, decide_eq_false_iff_not]
    omega
  dsimp only
  rw [s.marked_bit mseq (by decide), ha, hhk, hm, if_neg (by decide), if_neg (by simp)]
  unfold State.spillEnd
  rw [hmiss, if_neg (by decide), s.marked_curSlice mseq, if_pos hl]
  rfl

/-- R45: SPILL_END in RUN, its slice in time. -/
theorem markSpillEnd_acts {s0 s : State} {mseq : BitVec 16} {slice : W32} {now : Nat} (hs : s = s0.advanceTo now)
    (ho : s.pathOpen 0 = true) (hn : mseq ∉ s.ulp.marks) (ht : s.hk.target = none) (hm : s.hk.mode = .run)
    (ha : s.bit Reg.HK_AUTO_SPILL 0 = true) (hd : 0 ≤ sdiff slice.toNat s.run.named)
    (hf : 0 ≤ sdiff slice.toNat s.run.sf) (hl : 0 < sdiff slice.toNat s.curSlice)
    (hu : sdiff slice.toNat s.curSlice ≤ 2 ^ 20) :
    ∃ t, exec (.markSpillEnd mseq slice now) s0 = .next t ∧ t.hk.mode = .run ∧ t.hk.target = some .drain ∧
      t.hk.tcause = 4 ∧ t.run = { s.run with sl := some slice.toNat, endMode := 2, endCause := 4 } ∧
      mseq ∈ t.ulp.marks ∧ t.resp = s0.resp := by
  obtain ⟨w, hw⟩ := State.markEnd_acts ho hn ht hm ha hd hl hu
  have hmr : (s.marked mseq).run = s.run := still_run (s.marked_still mseq)
  obtain ⟨hhk, hrun, hre, hmk⟩ := State.spillInTime_acts (s := s.marked mseq) (n := slice.toNat) (by rw [hmr]; exact hf)
  rw [still_hk (s.marked_still mseq)] at hhk
  rw [hmr] at hrun
  rw [s.marked_resp mseq, hs, State.advanceTo_resp, ← hs] at hre
  generalize (s.marked mseq).spillInTime slice.toNat = u at hw hhk hrun hre hmk
  have hex : exec (.markSpillEnd mseq slice now) s0 = .next (s.markEnd mseq.toNat slice.toNat) := by
    rw [hs]
    rfl
  refine ⟨u.noted w slice.toNat, hex.trans (congrArg Host.Outcome.next hw), ?_⟩
  rw [still_hk (u.noted_still _ _), still_run (u.noted_still _ _), State.noted_resp, hhk, hrun]
  exact ⟨hm, rfl, rfl, rfl, State.noted_marks hmk w slice.toNat, hre⟩

/-! ### Barriers that wait for their slice -/

/-- A barrier behind a slice whose frame is not built waits in the active CD, and in a READY standby where it is no CLOSING
one (R226, R319). -/
theorem State.standBarrier_waits {s : State} {b : Barrier} (hb : s.built b.after = false) (hc : b.cls ≠ 3) :
    (s.standBarrier b).cd = { s.cd with barriers := s.cd.barriers ++ [b] } ∧
      (s.other.st = cdReady → (s.standBarrier b).other.barriers = s.other.barriers ++ [b]) ∧
      (s.standBarrier b).resp = s.resp ∧ (s.standBarrier b).ulp = s.ulp := by
  unfold State.standBarrier
  extract_lets t u
  have ht : t.still = s.still := s.recordBarrier_still b
  have hcd : t.cd = s.cd := ite_keeps State.cd _ (s.cd_setOther _) rfl
  have hre : t.resp = s.resp := ite_keeps State.resp _ (s.setOther_resp _) rfl
  have hul : t.ulp = s.ulp := ite_keeps State.ulp _ (s.setOther_ulp _) rfl
  have hot : s.other.st = cdReady → t.other.barriers = s.other.barriers ++ [b] := by
    intro hr
    show (s.recordBarrier b).other.barriers = _
    unfold State.recordBarrier
    rw [if_pos ⟨hc, Or.inr hr⟩, State.other_setOther]
  clear_value t
  have hbt : t.built b.after = false := by
    unfold State.built
    rw [still_run ht]
    exact hb
  rw [if_neg (by simp [hbt]), State.cd_setCd, State.other_setCd, State.setCd_resp, State.setCd_ulp]
  exact ⟨congrArg (fun c : Cd => { c with barriers := c.barriers ++ [b] }) hcd, hot, hre, hul⟩

/-! ### SYNC, FLUSH and MODE -/

/-- A SYNC for a slice that is still to be built stands behind it (R226). -/
theorem State.placeSync_waits {s : State} {n id : Nat} (ha : s.run.active = true) (hc : s.run.closedMark = false)
    (hs : s.run.sl = none) (hh : s.handed n = false) (hn : 0 ≤ sdiff n s.run.named) :
    s.placeSync n id = (false, s.standBarrier ⟨1, 0, n, n, id, false⟩) := by
  unfold State.placeSync
  extract_lets past a
  have hp : ∀ x, past x = false := by
    intro x
    show (match s.run.sl with | some l => decide (sdiff x l > 0) | none => false) = false
    rw [hs]
  have hae : a = n := if_neg (by simp [hh]; omega)
  rw [hp, hp, hae, ha, hc]
  rfl

theorem markSync_acts {s0 s : State} {mseq : BitVec 16} {slice : W32} {tick : Nat} {id : BitVec 16} {now : Nat}
    (hs : s = s0.advanceTo now) (ho : s.pathOpen 0 = true) (hn : mseq ∉ s.ulp.marks) (ha : s.run.active = true)
    (hc : s.run.closedMark = false) (hl : s.run.sl = none) (hb : s.built slice.toNat = false)
    (hh : s.handed slice.toNat = false) (hd : 0 ≤ sdiff slice.toNat s.run.named) :
    ∃ t, exec (.markSync mseq slice tick id now) s0 = .next t ∧
      t.cd = { s.cd with barriers := s.cd.barriers ++ [⟨1, 0, slice.toNat, slice.toNat, id.toNat, false⟩] } ∧
      (s.other.st = cdReady →
        t.other.barriers = s.other.barriers ++ [⟨1, 0, slice.toNat, slice.toNat, id.toNat, false⟩]) ∧ t.hk = s0.hk ∧
      t.resp = s0.resp := by
  have hr : (s.marked mseq).run = s.run := still_run (s.marked_still mseq)
  have hbm : (s.marked mseq).built slice.toNat = false := by
    unfold State.built
    rw [hr]
    exact hb
  have hp := State.placeSync_waits (s := s.marked mseq) (n := slice.toNat) (id := id.toNat) (by rw [hr, ha])
    (by rw [hr, hc]) (by rw [hr, hl]) (by rw [← hh]; rfl) (by rw [hr]; exact hd)
  obtain ⟨hcd, hot, hre, -⟩ := State.standBarrier_waits (s := s.marked mseq)
    (b := ⟨1, 0, slice.toNat, slice.toNat, id.toNat, false⟩) hbm (Nat.ne_of_lt (by decide : 1 < 3))
  have hst := (s.marked mseq).standBarrier_still ⟨1, 0, slice.toNat, slice.toNat, id.toNat, false⟩
  obtain ⟨w, hw⟩ : ∃ w, s.markSync mseq.toNat slice.toNat id.toNat =
      ((s.marked mseq).standBarrier ⟨1, 0, slice.toNat, slice.toNat, id.toNat, false⟩).noted w slice.toNat := by
    refine State.marker_acts ho hn (b := false) ?_ 3 0 slice.toNat
    rw [hp]
    rfl
  rw [State.marked_cd] at hcd
  rw [State.marked_other] at hot
  rw [s.marked_resp mseq, hs, State.advanceTo_resp, ← hs] at hre
  rw [State.marked_still] at hst
  generalize (s.marked mseq).standBarrier ⟨1, 0, slice.toNat, slice.toNat, id.toNat, false⟩ = u at hw hcd hot hre hst
  have hex : exec (.markSync mseq slice tick id now) s0 = .next (s.markSync mseq.toNat slice.toNat id.toNat) := by
    rw [hs]
    rfl
  refine ⟨u.noted w slice.toNat, hex.trans (congrArg Host.Outcome.next hw), ?_⟩
  rw [State.noted_cd, State.noted_other, still_hk (u.noted_still _ _), State.noted_resp, still_hk hst]
  exact ⟨hcd, hot, by rw [hs, State.advanceTo_hk], hre⟩

/-- FLUSH markers wait while none of their slices has ended (R304). -/
theorem State.runFlushes_none {s : State} (h : ∀ f, f ∈ s.ulp.flushes → s.sliceEnded f.1 = false) : s.runFlushes = s := by
  have hd : s.ulp.flushes.filter (fun f => s.sliceEnded f.1) = [] :=
    List.filter_eq_nil_iff.2 (fun f hf => by simp [h f hf])
  have hk : s.ulp.flushes.filter (fun f => !s.sliceEnded f.1) = s.ulp.flushes :=
    List.filter_eq_self.2 (fun f hf => by simp [h f hf])
  unfold State.runFlushes
  dsimp only
  rw [hd, hk]
  rfl

theorem markFlush_acts {s0 s : State} {mseq : BitVec 16} {slice : W32} {id : BitVec 16} {now : Nat}
    (hs : s = s0.advanceTo now) (ho : s.pathOpen 0 = true) (hn : mseq ∉ s.ulp.marks)
    (hu : sdiff slice.toNat s.curSlice ≤ 2 ^ 20) (hf : ∀ f, f ∈ s.ulp.flushes → s.sliceEnded f.1 = false) :
    ∃ t, exec (.markFlush mseq slice id now) s0 = .next t ∧ mseq ∈ t.ulp.marks ∧
      t.ulp.flushes = s.ulp.flushes ++ [((if sdiff slice.toNat s.curSlice < 0 then s.curSlice else slice.toNat), id.toNat)] ∧
      t.cd = s.cd ∧ t.hk = s0.hk ∧ t.resp = s0.resp := by
  have hnone : (s.marked mseq).runFlushes = s.marked mseq := by
    refine State.runFlushes_none (fun f hm => ?_)
    rw [s.marked_flushes mseq] at hm
    rw [State.sliceEnded_congr (s.marked_k mseq) (s.marked_tb mseq)]
    exact hf f hm
  obtain ⟨w, hw⟩ : ∃ w, s.markFlushAt mseq.toNat slice.toNat id.toNat =
      ({ s.marked mseq with ulp := { (s.marked mseq).ulp with flushes := (s.marked mseq).ulp.flushes ++
        [((if sdiff slice.toNat s.curSlice < 0 then s.curSlice else slice.toNat), id.toNat)] } } : State).noted w
          slice.toNat := by
    refine State.marker_acts ho hn (b := false) ?_ 4 0 slice.toNat
    dsimp only
    rw [hnone]
    unfold State.markFlush
    dsimp only
    rw [s.marked_curSlice mseq, if_neg (by omega)]
    rfl
  have hex : exec (.markFlush mseq slice id now) s0 = .next (s.markFlushAt mseq.toNat slice.toNat id.toNat) := by
    rw [hs]
    rfl
  refine ⟨_, hex.trans (congrArg Host.Outcome.next hw), ?_⟩
  rw [State.noted_ulp, State.noted_cd, still_hk (State.noted_still _ _ _), State.noted_resp]
  refine ⟨s.marked_marks mseq, ?_, s.marked_cd mseq, ?_, ?_⟩
  · show (s.marked mseq).ulp.flushes ++ _ = _
    rw [s.marked_flushes mseq]
  · exact (still_hk (s.marked_still mseq)).trans (by rw [hs, State.advanceTo_hk])
  · exact (s.marked_resp mseq).trans (by rw [hs, State.advanceTo_resp])

theorem markMode_acts {s0 s : State} {mseq : BitVec 16} {now : Nat} (hs : s = s0.advanceTo now)
    (ho : s.pathOpen 0 = true) (hn : mseq ∉ s.ulp.marks) (hst : s.hk.stuck = false) (ht : s.hk.target = none)
    (hm : s.hk.mode = .simmer) :
    ∃ t, exec (.markMode mseq 3 now) s0 = .next t ∧ t.hk.mode = .simmer ∧ t.hk.target = some .calib ∧
      t.hk.tcause = 2 ∧ mseq ∈ t.ulp.marks ∧ t.resp = s0.resp := by
  have hhk : (s.marked mseq).hk = s.hk := still_hk (s.marked_still mseq)
  have hreq : (s.marked mseq).modeReq 3 = .done ((s.marked mseq).startReq 3) :=
    State.modeReq_accepted (by rw [hhk, ht]) (by decide) (by decide) (by rw [hhk, hm]; rfl) rfl
  obtain ⟨w, hw⟩ : ∃ w, s.markMode mseq.toNat 3 = ((s.marked mseq).startReq 3).noted w 0 := by
    refine State.marker_acts ho hn (b := false) ?_ 5 3 0
    dsimp only
    rw [hreq, hhk, hst, if_neg (by simp [Rep.done])]
    rfl
  have hh : (s.marked mseq).heads ((s.marked mseq).startReq 3) .calib := (s.marked mseq).startReq_heads (fun h => absurd h (by decide))
  have hre := asks_resp ((s.marked mseq).startReq_asks 3)
  have hmk : ((s.marked mseq).startReq 3).marksSeen = (s.marked mseq).marksSeen :=
    (State.setReg_marksSeen _ _ _).trans (s.marked mseq).goCalib_marksSeen
  obtain ⟨htg, hca, hmd⟩ := hh
  rw [s.marked_resp mseq, hs, State.advanceTo_resp, ← hs] at hre
  rw [hhk] at hmd
  generalize (s.marked mseq).startReq 3 = u at hw htg hca hmd hre hmk
  have hex : exec (.markMode mseq 3 now) s0 = .next (s.markMode mseq.toNat 3) := by
    rw [hs]
    rfl
  refine ⟨u.noted w 0, hex.trans (congrArg Host.Outcome.next hw), ?_⟩
  rw [still_hk (u.noted_still _ _), State.noted_resp]
  exact ⟨hmd.trans hm, htg, hca, State.noted_marks hmk w 0, hre⟩

/-! ### The FLUSH that a tick executes -/

/-- Writing words of the event record leaves the active CD, the uplink path and the responses. -/
theorem State.recordWord_keeps (s : State) :
    s.recordWord.cd = s.cd ∧ s.recordWord.ulp = s.ulp ∧ s.recordWord.resp = s.resp := by
  unfold State.recordWord
  split
  · split
    · exact ⟨rfl, rfl, rfl⟩
    · unfold State.writeRecord
      extract_lets a t
      split
      · exact ⟨rfl, rfl, rfl⟩
      · exact ⟨rfl, rfl, rfl⟩
  · exact ⟨rfl, rfl, rfl⟩

/-- A FLUSH marker whose slice has ended in RUN stands behind that slice (R304). -/
theorem State.runFlushes_one {s : State} {n id : Nat} (hm : s.hk.mode = .run) (ht : s.hk.target = none)
    (hl : s.run.sl = none) (hf : s.ulp.flushes = [(n, id)]) (he : s.sliceEnded n = true) (hb : s.built n = false) :
    s.runFlushes.ulp.flushes = [] ∧
      s.runFlushes.cd = { s.cd with barriers := s.cd.barriers ++ [⟨2, 0, n, n, id, false⟩] } ∧ s.runFlushes.resp = s.resp := by
  have hr : s.runFlushes =
      ({ s with ulp := { s.ulp with flushes := [] } } : State).standBarrier ⟨2, 0, n, n, id, false⟩ := by
    unfold State.runFlushes
    rw [hf]
    simp only [List.filter_cons, List.filter_nil, he, Bool.not_true, if_true, Bool.false_eq_true, if_false,
      List.foldl_cons, List.foldl_nil]
    unfold State.flushAt State.allows
    dsimp only
    rw [hl, hm, ht, if_neg (by simp [Cls.accepted])]
  obtain ⟨hcd, -, hre, hul⟩ := State.standBarrier_waits (s := { s with ulp := { s.ulp with flushes := [] } })
    (b := ⟨2, 0, n, n, id, false⟩) hb (Nat.ne_of_lt (by decide : 2 < 3))
  rw [hr]
  exact ⟨congrArg Ulp.flushes hul, hcd, hre⟩

theorem tick_flushes {s : State} {n id : Nat} (hp : s.pending = []) (hm : s.hk.mode = .run) (ht : s.hk.target = none)
    (hl : s.run.sl = none) (hf : s.ulp.flushes = [(n, id)]) (he : (s.advance 1).sliceEnded n = true)
    (hb : s.built n = false) :
    ∃ t, step s = .next t ∧ t.ulp.flushes = [] ∧
      t.cd = { s.cd with barriers := s.cd.barriers ++ [⟨2, 0, n, n, id, false⟩] } ∧ t.resp = s.resp := by
  have htick : step s = .next (s.advance 1).runFlushes.recordWord := by
    unfold step
    rw [hp]
    refine congrArg Host.Outcome.next (if_pos ?_)
    unfold State.aclkRuns
    rw [hm]
    rfl
  obtain ⟨hfl, hcd, hre⟩ := State.runFlushes_one (s := s.advance 1) hm ht hl hf he hb
  obtain ⟨h1, h2, h3⟩ := (s.advance 1).runFlushes.recordWord_keeps
  exact ⟨_, htick, by rw [h2, hfl], by rw [h1, hcd]; rfl, h3.trans hre⟩

/-- Settles O21: a new marker acts once its MSEQ is remembered; the FLUSH of a tick stands behind the slice that ended. -/
theorem markersActOnLaneZero : Obligations.MarkersActOnLaneZero := by
  unfold Obligations.MarkersActOnLaneZero
  refine ⟨?_, fun n id s hp hm ht hl hf he hb => tick_flushes hp hm ht hl hf he hb⟩
  intro mseq now s0 s hs ho hn hst ht
  refine ⟨?_, ?_, ?_, ?_, ?_⟩
  · intro slice hm ha hl hu
    exact markSpillStart_acts hs ho hn ht hm ha hl hu
  · intro slice hm ha hd hf hl hu
    exact markSpillEnd_acts hs ho hn ht hm ha hd hf hl hu
  · intro slice tick id ha hc hl hb hh hd
    exact markSync_acts hs ho hn ha hc hl hb hh hd
  · intro slice id hu hf
    exact markFlush_acts hs ho hn hu hf
  · intro hm
    exact markMode_acts hs ho hn hst ht hm

end Sys2Proof.Machine
end

section
/-! O19: LOAD to its result (R40 to R42), and the bring-up and parking of the lanes behind it (R36, R276). -/

namespace Sys2Proof.Machine

/-! ### What reading the NVD leaves -/

/-- What LOAD's reads of the NVD do not touch: HK, the locks' switch and both CDs. -/
def State.loads (s : State) : Hk × Bool × Cd × Cd := (s.hk, s.nvd.locksOn, s.cda, s.cdb)

theorem loads_hk {s t : State} (h : t.loads = s.loads) : t.hk = s.hk := congrArg Prod.fst h
theorem loads_cda {s t : State} (h : t.loads = s.loads) : t.cda = s.cda := congrArg (fun x => x.2.2.1) h
theorem loads_of_still {s t : State} (h : t.still = s.still) (ha : t.cda = s.cda) (hb : t.cdb = s.cdb) :
    t.loads = s.loads := by
  unfold State.loads
  rw [still_hk h, still_nvd h, ha, hb]

/-- A fold that carries a state beside another value keeps what each of its steps keeps of the state. -/
theorem foldl_snd_keeps {α β γ : Type} (π : State → γ) {f : α × State → β → α × State}
    (h : ∀ x b, π (f x b).2 = π x.2) (l : List β) (x : α × State) : π (l.foldl f x).2 = π x.2 := by
  induction l generalizing x with
  | nil => rfl
  | cons b l ih => exact (ih _).trans (h x b)

section
variable (s : State)

theorem State.setFld_loads (a h l v : Nat) : (s.setFld a h l v).loads = s.loads := rfl

theorem State.countUncorr_cda (d : Die) (m i c : Nat) (e : List Nat) : (s.countUncorr d m i c e).cda = s.cda := by
  unfold State.countUncorr
  extract_lets s1 s2
  have h2 : s2.cda = s.cda := by
    rw [show s2 = State.eventAt _ _ _ from rfl, State.eventAt_cda, State.setRegAt_cda]
    exact s.countAt_cda _ _ _
  clear_value s2
  refine ite_keeps State.cda _ ?_ ?_
  · rw [State.errEntry_cda, State.draw_cda, h2]
  · rw [State.errEntry_cda, h2]

theorem State.countUncorr_cdb (d : Die) (m i c : Nat) (e : List Nat) : (s.countUncorr d m i c e).cdb = s.cdb := by
  unfold State.countUncorr
  extract_lets s1 s2
  have h2 : s2.cdb = s.cdb := by
    rw [show s2 = State.eventAt _ _ _ from rfl, State.eventAt_cdb, State.setRegAt_cdb]
    exact s.countAt_cdb _ _ _
  clear_value s2
  refine ite_keeps State.cdb _ ?_ ?_
  · rw [State.errEntry_cdb, State.draw_cdb, h2]
  · rw [State.errEntry_cdb, h2]

theorem State.countUncorr_loads (d : Die) (m i c : Nat) (e : List Nat) : (s.countUncorr d m i c e).loads = s.loads :=
  loads_of_still (s.countUncorr_still d m i c e) (s.countUncorr_cda d m i c e) (s.countUncorr_cdb d m i c e)

theorem State.takeRaw_nvd_loads (i : Nat) : (s.takeRaw .hbd 0x04 i).loads = s.loads := by
  unfold State.takeRaw
  split <;> rfl

theorem State.memReadC_nvd_loads (i c : Nat) : (s.memReadC .hbd 0x04 i c).2.loads = s.loads := by
  unfold State.memReadC
  split
  · exact s.takeRaw_nvd_loads i
  · exact s.takeRaw_nvd_loads i
  · exact (State.countUncorr_loads _ _ _ _ _ _).trans rfl

theorem State.nvdReads_loads (a n : Nat) : (s.nvdReads a n).2.loads = s.loads := by
  unfold State.nvdReads State.readRange
  extract_lets idx
  refine foldl_snd_keeps State.loads ?_ idx (true, s)
  exact fun x i => x.2.memReadC_nvd_loads i 0

theorem State.nvdReads_hk (a n : Nat) : (s.nvdReads a n).2.hk = s.hk := loads_hk (s.nvdReads_loads a n)

/-! ### L1 to L6: HK stands -/

theorem State.loadL1_hk : s.loadL1.hk = s.hk := by
  unfold State.loadL1
  dsimp only
  rw [State.setBit_hk, State.setReg_hk, State.resetRegs_hk]

theorem State.votePref_hk : s.votePref.2.hk = s.hk := by
  unfold State.votePref
  extract_lets r
  have hr : r.2.hk = s.hk := by
    refine foldl_snd_keeps State.hk ?_ [0, 1, 2] (0, s)
    intro x i
    exact State.nvdReads_hk x.2 (0x1000 * i) 8
  clear_value r
  exact hr

theorem State.checkSections_hk (base length : Nat) (ss : List Section) : (s.checkSections base length ss).2.hk = s.hk := by
  unfold State.checkSections
  extract_lets r missing
  have hr : r.2.2.hk = s.hk := by
    refine foldl_keeps (fun x : Nat × Option (Nat × Bool) × State => x.2.2.hk) (fun x y => ?_) ss (0, none, s)
    dsimp only
    split
    · exact x.2.2.nvdReads_hk _ _
    · rfl
  clear_value r missing
  split
  · exact hr
  · exact hr

theorem State.readSlot_hk (b : Bool) : (s.readSlot b).st.hk = s.hk := by
  unfold State.readSlot
  extract_lets base r
  have hr : r.2.hk = s.hk := s.nvdReads_hk _ _
  clear_value r
  split
  · exact hr
  · next h _ =>
    extract_lets t ss c
    have ht : t.2.hk = s.hk := (r.2.nvdReads_hk _ _).trans hr
    have hc : c.2.hk = s.hk := (t.2.checkSections_hk _ _ _).trans ht
    clear_value t ss c
    split
    · exact ht
    · split
      · exact hc
      · exact hc

theorem State.freeBytes_hk (n : Nat) (s : State) : (State.freeBytes n s).2.hk = s.hk := by
  induction n generalizing s with
  | zero => rfl
  | succ n ih => exact ih _

theorem State.digest_hk (a n : Nat) : (s.digest a n).2.hk = s.hk := by
  unfold State.digest
  extract_lets r
  have hr : r.2.hk = s.hk := s.nvdReads_hk a n
  clear_value r
  split
  · exact hr
  · exact (State.freeBytes_hk _ _).trans hr

theorem State.measure_hk (base length : Nat) : (s.measure base length).hk = s.hk := by
  unfold State.measure
  extract_lets m1 m2 m0
  have h2 : m2.2.hk = s.hk := (m1.2.digest_hk _ _).trans (s.digest_hk _ _)
  exact h2

theorem State.skip_hk (n : Nat) : (s.skip n).hk = s.hk := ite_keeps _ _ rfl (s.setFld_hk _ _ _ _)

theorem State.cdStore_hk (v : Nat) : (s.cdStore v).hk = s.hk := by
  have hi : ∀ t : State, t.cdInc.hk = t.hk := fun t => ite_keeps _ _ (t.setFld_hk _ _ _ _) rfl
  have ht : ∀ (l : List Nat) (u : State) (c : Nat) (bank : Bool) (f : State → Nat → Nat),
      (l.foldl (fun u j => u.setTab c bank j (f u j)) u).hk = u.hk := by
    intro l u c bank f
    refine foldl_keeps State.hk ?_ l u
    exact fun t j => rfl
  unfold State.cdStore
  extract_lets c bank b t1
  have h1 : t1.hk = s.hk := ite_keeps State.hk _ ((ht _ _ _ _ _).trans rfl) rfl
  clear_value t1
  exact (hi _).trans h1

theorem State.setFields_hk (a : Nat) (v : W32) : (s.setFields a v).hk = s.hk := by
  unfold State.setFields
  split
  · exact ite_keeps State.hk _ rfl (s.cdStore_hk _)
  · exact ite_keeps State.hk _ rfl (s.setRegAt_hk _ _)

theorem State.applyRegs_hk (es : List (Nat × W32)) : (s.applyRegs es).hk = s.hk := by
  have ha : ∀ (v : W32) (l : List Nat) (t : State), (l.foldl (fun u a => u.setFields a v) t).hk = t.hk := fun v l t =>
    foldl_keeps State.hk (fun u a => u.setFields_hk a v) l t
  have hstep : ∀ (t : State) (e : Nat × W32),
      (if regsTakes e.1 then (bothCds e.1).foldl (fun u a => u.setFields a e.2) t else t.skip 1).hk = t.hk := fun t e =>
    ite_keeps State.hk _ (ha _ _ _) (t.skip_hk 1)
  unfold State.applyRegs
  exact foldl_keeps State.hk hstep es s

theorem State.setEntry_hk (table i : Nat) (bs : List Octet) : (s.setEntry table i bs).hk = s.hk := by
  unfold State.setEntry
  split <;> rfl

theorem State.applyTabl_hk (f : Nat) (bs : List Octet) (s : State) : (State.applyTabl f bs s).hk = s.hk := by
  induction f generalizing bs s with
  | zero => rfl
  | succ f ih =>
    unfold State.applyTabl
    refine ite_keeps State.hk _ rfl ?_
    extract_lets n table first count size body rest es s'
    refine (ih rest s').trans ?_
    show State.hk (match tableShape table with | none => _ | some sh => _) = _
    split
    · exact s.skip_hk 1
    · refine ite_keeps State.hk _ (s.skip_hk 1) ?_
      refine (State.skip_hk _ _).trans ?_
      exact foldl_keeps State.hk (fun t (e : Nat × List Octet) => t.setEntry_hk table e.1 e.2) _ s

theorem State.applyCal_hk : s.applyCal.hk = s.hk := by
  unfold State.applyCal
  extract_lets r t hdr
  have ht : t.hk = s.hk := s.nvdReads_hk _ _
  clear_value t hdr
  refine ite_keeps State.hk _ ?_ ?_
  · rw [State.setFld_hk, State.setFld_hk]
    exact ht
  · rw [State.event_hk, State.setFld_hk, State.setFld_hk]
    exact ht

theorem State.applyImage_hk (b : Bool) (h : Header) (ss : List Section) : (s.applyImage b h ss).hk = s.hk := by
  unfold State.applyImage
  extract_lets base w info t u tabl
  have ht : t.hk = s.hk := by
    refine (State.skip_hk _ _).trans ?_
    rw [State.setReg_hk, State.setReg_hk]
  have hu : u.hk = s.hk := (State.applyRegs_hk _ _).trans ht
  clear_value u tabl
  rw [State.applyCal_hk, State.applyTabl_hk, hu]

theorem State.zeroMemories_hk : s.zeroMemories.hk = s.hk := rfl

theorem State.trySlot_hk (b : Bool) : (s.trySlot b).st.hk = s.hk := by
  unfold State.trySlot
  extract_lets t u
  have ht : t.st.hk = s.hk := s.readSlot_hk b
  have hu : u.hk = s.hk := by
    rw [show u = State.applyImage _ _ _ _ from rfl, State.applyImage_hk, State.zeroMemories_hk, State.measure_hk, ht]
  clear_value t u
  split
  · exact ht
  · exact hu

theorem State.unload_hk (b : Bool) (ss : List Section) : (s.unload b ss).hk = s.hk := by
  unfold State.unload
  dsimp only
  rw [State.setReg_hk, State.setReg_hk, State.resetRegs_hk]

/-! ### L7 to L10 -/

theorem State.loadClamps_still : s.loadClamps.still = s.still := by
  have hf : ∀ (u : State) (a : Nat), ({ u with
      sts := Sparse.put Sts.zero (0x400000 + a % 0x100000) (u.stsAt (0x300000 + a % 0x100000)) u.sts } : State).still =
        u.still := fun u a => rfl
  unfold State.loadClamps
  extract_lets trg t
  have ht : t.still = s.still := by
    refine (State.eventIf_still _ _ _ _).trans ((State.eventIf_still _ _ _ _).trans ((State.eventIf_still _ _ _ _).trans ?_))
    exact s.latch_still _
  exact (foldl_keeps State.still hf _ t).trans ht

/-- In LOAD a change of the Lid state leads to no SAFE entry (R36). -/
theorem State.lidGo_load_hk {s : State} (hm : s.hk.mode = .load) (c : LidCh) (t : LidState) (e : List Nat) :
    (s.lidGo c t e).hk = s.hk := by
  unfold State.lidGo
  split
  · exact State.eventIf_hk _ _ _ _
  · extract_lets trip s1 s2 evt s3
    have h3 : s3.hk = s.hk := (State.eventIf_hk _ _ _ _).trans ((State.lidEntry_hk _ _ _ _ _ _ _).trans rfl)
    clear_value s3
    have hk : (s3.count Reg.LID_TRIP_CNT 1).hk = s.hk := (State.count_hk _ _ _).trans h3
    refine ite_keeps State.hk _ ?_ h3
    rw [State.enterSafe_down _ _ (by rw [hk]; exact Or.inr hm), hk]

theorem State.lidCause_load_hk {s : State} (hm : s.hk.mode = .load) (c : LidCh) (cause i v : Nat) :
    (s.lidCause c cause i v).hk = s.hk := by
  have hd : (s.lidDemand cause i).hk = s.hk := by
    unfold State.lidDemand
    exact ite_keeps State.hk _ (s.lidCancel_lid cause i).2 (s.lidCancel_lid cause i).2
  unfold State.lidCause
  refine ite_keeps State.hk _ rfl ?_
  dsimp only
  have hl : ((s.lidDemand cause i).lidLatch (s.lid.after cause) c cause i v).hk = s.hk := (State.lidLatch_hk _ _ _ _ _ _).trans hd
  rw [State.lidGo_load_hk (by rw [hl]; exact hm), hl]

theorem State.loadLid_agrees (bs : List Octet) (agreed : Bool) : (s.loadLid bs agreed).1 = (lidParOk bs && agreed) := by
  unfold State.loadLid
  extract_lets ok lcrc agree set l t
  have ha : agree = (lidParOk bs && agreed) := rfl
  rw [← ha]
  clear_value agree t
  cases agree <;> rfl

theorem State.loadLid_hk {s : State} (hm : s.hk.mode = .load) (bs : List Octet) (agreed : Bool) :
    (s.loadLid bs agreed).2.hk = s.hk := by
  have hheld : ∀ u : State, u.hk = s.hk →
      (if s.lid.rstIn then ({ u with lid := { u.lid with heldOver := true } } : State).lidCause .h 0x19 0 0 else u).hk = s.hk := by
    intro u hu
    refine ite_keeps State.hk _ ?_ hu
    exact (State.lidCause_load_hk (s := { u with lid := { u.lid with heldOver := true } }) (by rw [← hm, ← hu]) _ _ _ _).trans hu
  unfold State.loadLid
  extract_lets ok lcrc agree set l t held u src1 fresh v src2
  have ht : t.hk = s.hk := rfl
  have hu : u.hk = s.hk := (State.lidGo_load_hk (by rw [ht]; exact hm) _ _ _).trans ht
  have hl : (t.lidLatch .fault .h 0x17 0 0).hk = s.hk := (State.lidLatch_hk _ _ _ _ _ _).trans ht
  have hv : v.hk = s.hk := (State.lidGo_load_hk (by rw [hl]; exact hm) _ _ _).trans hl
  clear_value agree u v
  split
  · exact hheld u hu
  · exact hheld v hv

theorem State.loadCds_hk (active : Nat) (env : LoadEnv) : (s.loadCds active env).hk = s.hk := by
  have hf : ∀ (t : State) (b : Bool), (t.failCd b).hk = t.hk := fun t b => ite_keeps State.hk _ rfl rfl
  unfold State.loadCds
  extract_lets la lb failA failB named b g st srcA srcB srcF srcR t u
  have ht : t.hk = s.hk := rfl
  have hu : u.hk = s.hk := ite_keeps State.hk _ ((hf t false).trans ht) ht
  clear_value u
  rw [State.setFld_hk]
  exact ite_keeps State.hk _ ((hf u true).trans hu) hu

/-- With both CDs passed and linked neither is OUT (R40, R42). -/
theorem State.loadCds_both {env : LoadEnv} (hca : env.passCda = true) (hcb : env.passCdb = true) (ha : env.linkA = true)
    (hb : env.linkB = true) (active : Nat) : (s.loadCds active env).cda.st ≠ cdOut := by
  unfold State.loadCds
  extract_lets la lb failA failB named b g st srcA srcB srcF srcR t u
  have hfa : failA = false := by
    show (!(env.passCda && (env.linkA || !env.passFed))) = false
    rw [hca, ha]
    rfl
  have hfb : failB = false := by
    show (!(env.passCdb && (env.linkB || !env.passFed))) = false
    rw [hcb, hb]
    rfl
  have ht : t.cda.st = st (!b) failA := rfl
  have hst : ∀ me, st me false ≠ cdOut := by
    intro me
    show (if false then cdOut else if me then Sys2Proof.Machine.cdActive else cdReady) ≠ cdOut
    cases me <;> decide
  clear_value st t
  have hu : u = t := if_neg (by rw [hfa]; decide)
  rw [State.setFld_cda, if_neg (by rw [hfb]; decide), hu, ht, hfa]
  exact hst _

theorem State.skip_loads (n : Nat) : (s.skip n).loads = s.loads := ite_keeps State.loads _ rfl (s.setFld_loads _ _ _ _)

theorem State.bootOld_loads : s.bootOld.2.loads = s.loads := by
  have hm : s.bootMajority.2.loads = s.loads := by
    unfold State.bootMajority
    extract_lets r
    have hr : r.2.loads = s.loads := by
      refine foldl_snd_keeps State.loads ?_ [0x30000, 0x30008, 0x30010] ([], s)
      intro x i
      exact State.nvdReads_loads x.2 i 8
    clear_value r
    exact hr
  unfold State.bootOld
  extract_lets r
  have hr : r.2.loads = s.loads := hm
  clear_value r
  split
  · exact hr
  · exact hr

theorem State.writeBoot_loads (w : W64) (taken : BitVec 3) : (s.writeBoot w taken).loads = s.loads := by
  unfold State.writeBoot
  refine foldl_keeps State.loads ?_ _ s
  exact fun t i => rfl

theorem State.readBoot_loads (w : W64) : (s.readBoot w).2.loads = s.loads := by
  unfold State.readBoot
  refine foldl_snd_keeps State.loads ?_ _ (true, s)
  intro x i
  exact State.nvdReads_loads x.2 i 8

/-- L10 turns the locks on and loads TN; HK and both CDs stand (R71, R72, R254, R389). -/
theorem State.loadL10_spec (lock : List Octet) (env : LoadEnv) :
    (s.loadL10 lock env).hk = s.hk ∧ (s.loadL10 lock env).nvd.locksOn = true ∧ (s.loadL10 lock env).cda = s.cda ∧
      (s.loadL10 lock env).tb.tn = env.tn % 2 ^ 64 := by
  unfold State.loadL10
  extract_lets t srcN r v srcV srcA w
  have ht : t.hk = s.hk ∧ t.cda = s.cda := by
    have h : ∀ as', (s.applyLock as').hk = s.hk ∧ (s.applyLock as').cda = s.cda := fun as' =>
      ⟨loads_hk (s.skip_loads _), loads_cda (s.skip_loads _)⟩
    exact h _
  have hr : r.2.loads = ({ t with nvd := { t.nvd with locksOn := true } } : State).loads := State.bootOld_loads _
  clear_value t r
  have hv : v.2.loads = r.2.loads := (State.readBoot_loads _ _).trans (r.2.writeBoot_loads _ _)
  have hall : v.2.loads = (s.hk, true, s.cda, t.cdb) := by
    rw [hv, hr]
    unfold State.loads
    rw [ht.1, ht.2]
  clear_value v
  have hw : w.loads = v.2.loads := rfl
  clear_value w
  rw [hall] at hw
  have hx : ((w.loadTime env.tn).setReg Reg.HK_LOAD_TIME (BitVec.ofNat 32 env.us)).loads = w.loads := rfl
  rw [hw] at hx
  exact ⟨congrArg Prod.fst hx, congrArg (fun x => x.2.1) hx, congrArg (fun x => x.2.2.1) hx, rfl⟩

end

/-! ### The result of LOAD -/

/-- LOAD has ended in `t`, reached from `s`: mode and target stand, and there is a result. -/
def State.endsLoad (s t : State) : Prop :=
  t.hk.mode = s.hk.mode ∧ t.hk.target = s.hk.target ∧ t.hk.loadResult ≠ .none ∧ t.hk.firstLoadDone = true

section
variable (s : State)

theorem State.loadEnds_hk (r : LoadResult) (cause : Nat) : ∃ regs sts, (s.loadEnds r cause).hk =
    { s.hk with loadResult := r, tcause := cause, firstLoadDone := true, loadRegs := regs, loadSts := sts } := by
  have hk : ∀ u : State, ∃ regs sts, ({ u with hk := { u.hk with
      loadResult := r, tcause := cause, firstLoadDone := true } } : State).keepHk.hk =
        { u.hk with loadResult := r, tcause := cause, firstLoadDone := true, loadRegs := regs, loadSts := sts } :=
    fun u => ⟨_, _, rfl⟩
  obtain ⟨regs, sts, h⟩ := hk (s.eventIf (s.fld Reg.HK_CFG_INFO 31 24 != 0) Reg.HK_CFG_EVT [3])
  refine ⟨regs, sts, h.trans ?_⟩
  rw [State.eventIf_hk]

theorem State.loadEnds_tb (r : LoadResult) (cause : Nat) : (s.loadEnds r cause).tb = s.tb := by
  unfold State.loadEnds
  extract_lets t
  have ht : t.tb = s.tb := State.eventIf_tb _ _ _ _
  exact ht

theorem State.loadEnds_nvd (r : LoadResult) (cause : Nat) : (s.loadEnds r cause).nvd = s.nvd := by
  unfold State.loadEnds
  extract_lets t
  have ht : t.nvd = s.nvd := State.eventIf_nvd _ _ _ _
  exact ht

theorem State.loadEnds_reg (r : LoadResult) (cause : Nat) :
    (s.loadEnds r cause).reg Reg.HK_LOAD_STEP = s.reg Reg.HK_LOAD_STEP := by
  have hk : ∀ u : State, u.keepHk.reg Reg.HK_LOAD_STEP = u.reg Reg.HK_LOAD_STEP := by
    intro u
    rw [State.reg_of_die _ (by decide), State.reg_of_die _ (by decide)]
    refine (State.regAt_setRegAt_ne u ?_ u.pqSts)
    rw [State.phys_of_die_ne_two _ (by decide)]
    decide
  unfold State.loadEnds
  extract_lets t
  rw [hk]
  exact State.reg_congr (State.eventIf_regs _ _ _ _) (congrArg Rd.activeB (State.eventIf_rd _ _ _ _)) _

theorem State.endsLoad_loadEnds {u : State} (hu : u.hk = s.hk) {r : LoadResult} (hr : r ≠ .none) (cause : Nat) :
    s.endsLoad (u.loadEnds r cause) := by
  obtain ⟨regs, sts, h⟩ := u.loadEnds_hk r cause
  rw [hu] at h
  unfold State.endsLoad
  rw [h]
  exact ⟨rfl, rfl, hr, rfl⟩

theorem State.loadStep_hk (second : Bool) (f l : Nat) : (s.loadStep second f l).hk = s.hk := s.setReg_hk _ _

/-- The state in which L8 takes the Lid parameters. -/
def State.beforeL8 (env : LoadEnv) : State :=
  let s1 := (s.setReg Reg.HK_SELFTEST (word32 [(b2n env.passHbd, 1), (b2n env.passCdb, 1), (b2n env.passCda, 1),
    (b2n env.passFed, 1)])).loadClamps
  { s1 with fe := { s1.fe with groupEff := s1.groupReg, gate := s1.fld Reg.FE_RATE_GATE 9 0 } }

theorem State.beforeL8_still (env : LoadEnv) : (s.beforeL8 env).still = s.still := by
  unfold State.beforeL8
  extract_lets s1 src
  have h1 : s1.still = s.still := (State.loadClamps_still _).trans (s.setReg_still _ _)
  clear_value s1
  exact h1

/-- L7 to L10 end LOAD with a result (R42). -/
theorem State.loadRest_ends {s : State} (hm : s.hk.mode = .load) (b second : Bool) (t : Try) (env : LoadEnv) :
    s.endsLoad (s.loadRest b second t env) := by
  unfold State.loadRest
  extract_lets base s1 src s2 lid dieFail s3 s4 none'
  have h2 : s2.hk = s.hk := still_hk (s.beforeL8_still env)
  have hl : lid.2.hk = s.hk := (State.loadLid_hk (by rw [h2]; exact hm) _ _).trans h2
  have h4 : s4.hk = s.hk := (State.loadL10_spec _ _ _).1.trans ((State.loadCds_hk _ _ _).trans hl)
  clear_value lid s4 none'
  split
  · refine s.endsLoad_loadEnds ?_ (by decide) _
    rw [State.loadStep_hk, State.eventIf_hk, hl]
  · split
    · refine s.endsLoad_loadEnds ?_ (by decide) _
      rw [State.loadStep_hk, State.event_hk, h4]
    · split
      · refine s.endsLoad_loadEnds ?_ (by decide) _
        rw [State.loadStep_hk, State.event_hk, h4]
      · refine s.endsLoad_loadEnds ?_ (by decide) _
        rw [State.loadStep_hk, h4]

/-- An image whose Lid parameters, self-tests and links pass leads to SIMMER (R42). -/
theorem State.loadRest_passes {s : State} {b : Bool} {t : Try} {env : LoadEnv}
    (hp : lidParOk (s.nvd.sectionBytes (slotBase b) t.ss tagLid) = true)
    (h8 : env.l8first = true ∨ env.l8second = true) (hf : env.passFed = true) (hh : env.passHbd = true)
    (hca : env.passCda = true) (hcb : env.passCdb = true) (hla : env.linkA = true) (hlb : env.linkB = true) :
    (s.loadRest b false t env).hk.loadResult = .simmer ∧ (s.loadRest b false t env).hk.tcause = 5 ∧
      (s.loadRest b false t env).tb.tn = env.tn % 2 ^ 64 ∧ (s.loadRest b false t env).nvd.locksOn = true ∧
      (s.loadRest b false t env).reg Reg.HK_LOAD_STEP = 10 := by
  unfold State.loadRest
  extract_lets base s1 src s2 lid dieFail s3 s4 none'
  have h2 := s.beforeL8_still env
  have hagree : lid.1 = true := by
    refine (State.loadLid_agrees _ _ _).trans ?_
    rw [show s2.nvd = s.nvd from still_nvd h2, show base = slotBase b from rfl, hp]
    simpa using h8
  have hd : dieFail = false := by
    show (!env.passFed || !env.passHbd || (!env.passCda && !env.passCdb)) = false
    rw [hf, hh, hca]
    rfl
  obtain ⟨-, hlk, hcd, htn⟩ := s3.loadL10_spec (s3.nvd.sectionBytes base t.ss tagLock) env
  have hno : none' = false := by
    refine decide_eq_false (fun hx => ?_)
    have hst : s4.cda.st = s3.cda.st := congrArg Cd.st hcd
    exact State.loadCds_both _ hca hcb hla hlb _ (hst.symm.trans hx.1)
  have hlk4 : s4.nvd.locksOn = true := hlk
  have htn4 : s4.tb.tn = env.tn % 2 ^ 64 := htn
  clear_value lid s4 none' dieFail
  rw [hagree, hd, hno, if_neg (by decide), if_neg (by decide), if_neg (by decide)]
  obtain ⟨regs, sts, hk⟩ := (s4.loadStep false 0 10).loadEnds_hk .simmer 5
  rw [hk, State.loadEnds_tb, State.loadEnds_nvd, State.loadEnds_reg]
  refine ⟨rfl, rfl, htn4, hlk4, ?_⟩
  exact State.reg_setReg _ _ _

/-- LOAD runs to its result (R40 to R42). -/
theorem loadSequence_ends {s : State} (env : LoadEnv) (hm : s.hk.mode = .load) (ht : s.hk.target = none)
    (hr : s.hk.loadResult = .none) :
    ∃ t, exec (.loadSequence env) s = .next t ∧ s.endsLoad t ∧
      (s.firstTry.fail = 0 → t = s.firstTry.st.loadRest s.preferred false s.firstTry env) := by
  have hf : s.firstTry.st.hk = s.hk := by
    unfold State.firstTry
    dsimp only
    rw [State.trySlot_hk, State.setFld_hk, State.votePref_hk, State.loadL1_hk]
  have hex : exec (.loadSequence env) s = .next (
      if s.firstTry.fail = 0 then s.firstTry.st.loadRest s.preferred false s.firstTry env
      else
        let s2 := ((s.firstTry.st.unload s.preferred s.firstTry.ss).zeroMemories).event Reg.HK_MODE_EVT [0]
        let u := s2.trySlot (!s.preferred)
        if u.fail = 0 then u.st.loadRest (!s.preferred) true u env
        else
          let w := u.st.reg Reg.HK_CFG_INFO
          let s3 := (u.st.setReg Reg.HK_CFG_INFO (word32 [(bits w 31 24, 8), (0, 13), (bits w 10 8, 3), (0, 8)])).setReg
            Reg.HK_CFG_GEN 0
          ((s3.event Reg.HK_MODE_EVT [1]).loadStep true u.fail u.fail).loadEnds .boot 8) :=
    congrArg Host.Outcome.next (if_neg (by rw [hm, ht, hr]; decide))
  generalize s.firstTry = x at hex hf
  have hends : ∀ (y : State) (b second : Bool) (z : Try), y.hk = s.hk → s.endsLoad (y.loadRest b second z env) := by
    intro y b second z hy
    have h := State.loadRest_ends (s := y) (by rw [hy]; exact hm) b second z env
    unfold State.endsLoad at h ⊢
    rw [hy] at h
    exact h
  refine ⟨_, hex, ?_, fun h0 => if_pos h0⟩
  split
  · exact hends _ _ _ _ hf
  · extract_lets s2 u w s3
    have h2 : s2.hk = s.hk := by
      rw [show s2 = State.event _ _ _ from rfl, State.event_hk, State.zeroMemories_hk, State.unload_hk, hf]
    have hu : u.st.hk = s.hk := (State.trySlot_hk _ _).trans h2
    clear_value u
    split
    · exact hends _ _ _ _ hu
    · refine s.endsLoad_loadEnds ?_ (by decide) _
      rw [State.loadStep_hk, State.event_hk]
      exact (State.setReg_hk _ _ _).trans ((State.setReg_hk _ _ _).trans hu)

end

/-! ### Lanes behind LOAD -/

theorem loadComplete_starts {s : State} (hm : s.hk.mode = .load) (ht : s.hk.target = none)
    (hr : s.hk.loadResult ≠ .none) : ∃ m c, exec .loadComplete s = .next ((s.modeGo m c).startBringUp 0) ∧
      some m = (match s.hk.loadResult with
        | .none => none
        | .simmer => some Mode.simmer
        | .safe => some .safe
        | .boot => some .boot) := by
  have hex : exec .loadComplete s = .next (match s.hk.loadResult with
      | .none => s
      | .simmer => (s.modeGo .simmer 5).startBringUp 0
      | .safe => (s.modeGo .safe s.hk.tcause).startBringUp 0
      | .boot => (s.modeGo .boot 8).startBringUp 0) :=
    congrArg Host.Outcome.next (if_neg (by rw [hm, ht]; decide))
  rw [hex]
  cases h : s.hk.loadResult with
  | none => exact absurd h hr
  | simmer => exact ⟨.simmer, 5, rfl, rfl⟩
  | safe => exact ⟨.safe, s.hk.tcause, rfl, rfl⟩
  | boot => exact ⟨.boot, 8, rfl, rfl⟩

/-- LOAD's result starts the transition that it names and the bring-up of lane 0 (R36, R276). -/
theorem loadComplete_acts {s : State} (hm : s.hk.mode = .load) (ht : s.hk.target = none)
    (hr : s.hk.loadResult ≠ .none) :
    ∃ t, exec .loadComplete s = .next t ∧ (t.lane 0).st = (if s.patOn 0 then 6 else 2) ∧
      (t.lane 0).bringUp = !s.patOn 0 ∧ t.hk.target = (match s.hk.loadResult with
        | .none => none
        | .simmer => some .simmer
        | .safe => some .safe
        | .boot => some .boot) ∧
      ((s.lane 0).block = false → (s.lane 0).st ≠ 5 → t = { s with hk := t.hk, lanes := t.lanes }) := by
  obtain ⟨m, c, hex, hmm⟩ := loadComplete_starts hm ht hr
  obtain ⟨hst, hbu⟩ := (s.modeGo m c).lane_startBringUp 0
  refine ⟨_, hex, hst, hbu, ?_, fun hb h5 => ?_⟩
  · rw [still_hk (State.startBringUp_still _ _), ← hmm]
    rfl
  · have hq := State.startBringUp_quiet (s := s.modeGo m c) (n := 0) hb h5
    rw [hq]
    rfl

/-- A lane other than lane 0 that is not UP begins its bring-up without an effect on anything but itself. -/
theorem State.startBringUp_alone {s : State} {n : Nat} (hn : n ≠ 0) (h5 : (s.lane n).st ≠ 5) :
    s.startBringUp n = { s with lanes := (s.startBringUp n).lanes } ∧
      ∀ m, m ≠ n → (s.startBringUp n).lane m = s.lane m := by
  have hc : s.framesCut n = s := if_neg h5
  have hu : s.unblock n 2 = s.setLane n { s.lane n with block := false } := if_neg hn
  unfold State.startBringUp
  rw [hc]
  extract_lets c t l wait
  have ht : t = { s with lanes := t.lanes } ∧ ∀ m, m ≠ n → t.lane m = s.lane m := by
    show (if (c.lane n).block then c.unblock n 2 else c) = { s with
      lanes := (if (c.lane n).block then c.unblock n 2 else c).lanes } ∧ _
    rw [show c = s from rfl, hu]
    refine ⟨by split <;> rfl, fun m hm => ?_⟩
    show (if (s.lane n).block then s.unblock n 2 else s).lane m = s.lane m
    rw [hu]
    refine ite_keeps (fun u : State => u.lane m) _ ?_ rfl
    exact (State.lane_setLane _ _ _ _).trans (if_neg hm)
  clear_value t l wait
  obtain ⟨h1, h2⟩ := ht
  have hset : ∀ x, t.setLane n x = { s with lanes := (t.setLane n x).lanes } := by
    intro x
    unfold State.setLane
    rw [h1]
  have hlane : ∀ x m, m ≠ n → (t.setLane n x).lane m = s.lane m := fun x m hm =>
    (State.lane_setLane _ _ _ _).trans ((if_neg hm).trans (h2 m hm))
  split
  · exact ⟨hset _, hlane _⟩
  · exact ⟨hset _, hlane _⟩

/-- Bring-up of several lanes, each started from what it was. -/
theorem State.bringUps_alone {l : List Nat} (hd : l.Nodup) (s : State) (hl : ∀ n ∈ l, n ≠ 0 ∧ (s.lane n).st ≠ 5) :
    l.foldl State.startBringUp s = { s with lanes := (l.foldl State.startBringUp s).lanes } ∧
      (∀ m, m ∉ l → (l.foldl State.startBringUp s).lane m = s.lane m) ∧
      ∀ n ∈ l, ((l.foldl State.startBringUp s).lane n).st = (if s.patOn n then 6 else 2) := by
  induction l generalizing s with
  | nil => exact ⟨rfl, fun _ _ => rfl, fun n hn => absurd hn (List.not_mem_nil)⟩
  | cons n l ih =>
    obtain ⟨hnl, hd'⟩ := List.nodup_cons.1 hd
    obtain ⟨hn0, hn5⟩ := hl n (List.mem_cons_self ..)
    obtain ⟨h1, h2⟩ := State.startBringUp_alone hn0 hn5
    have hst := (s.lane_startBringUp n).1
    rw [List.foldl_cons]
    generalize s.startBringUp n = u at h1 h2 hst
    have hpat : ∀ m, u.patOn m = s.patOn m := fun m => by rw [h1]; rfl
    have hlu : ∀ m ∈ l, m ≠ 0 ∧ (u.lane m).st ≠ 5 := by
      intro m hm
      obtain ⟨hm0, hm5⟩ := hl m (List.mem_cons_of_mem _ hm)
      refine ⟨hm0, ?_⟩
      rw [h2 m (fun he => hnl (he ▸ hm))]
      exact hm5
    obtain ⟨k1, k2, k3⟩ := ih hd' u hlu
    refine ⟨?_, fun m hm => ?_, fun m hm => ?_⟩
    · rw [k1, h1]
    · rw [List.mem_cons, not_or] at hm
      exact (k2 m hm.2).trans (h2 m hm.1)
    · rcases List.mem_cons.1 hm with rfl | hml
      · rw [k2 m hnl, hst]
      · rw [k3 m hml, hpat]

/-- The lanes that wait start their bring-up when lane 0's wait ends (R276). -/
theorem lane0WaitExpire_acts {s : State} (hm : s.hk.mode = .load)
    (ht : s.hk.target = some .simmer ∨ s.hk.target = some .safe) (hu : s.laneUp 0 = false) :
    ∃ t, exec .lane0WaitExpire s = .next t ∧ t = { s with lanes := t.lanes } ∧ t.lane 0 = s.lane 0 ∧
      ∀ n, 0 < n → n < 32 → s.laneRole n ≠ 0 → (s.lane n).st = 0 → (t.lane n).st = (if s.patOn n then 6 else 2) := by
  have hex : exec .lane0WaitExpire s = .next
      (((List.range 32).filter (fun n => n != 0 && s.laneRole n != 0 && (s.lane n).st == 0)).foldl State.startBringUp s) := by
    refine congrArg Host.Outcome.next ((if_neg (by rw [hu]; decide)).trans ?_)
    exact if_pos ⟨hm, ht⟩
  generalize hlw : (List.range 32).filter (fun n => n != 0 && s.laneRole n != 0 && (s.lane n).st == 0) = l at hex
  have hmem : ∀ n, n ∈ l ↔ n < 32 ∧ n ≠ 0 ∧ s.laneRole n ≠ 0 ∧ (s.lane n).st = 0 := by
    intro n
    rw [← hlw, List.mem_filter, List.mem_range]
    simp [and_assoc]
  have hnd : l.Nodup := hlw ▸ List.nodup_range.filter _
  obtain ⟨h1, h2, h3⟩ := State.bringUps_alone hnd s (fun n hn => by
    obtain ⟨-, h0, -, hs⟩ := (hmem n).1 hn
    exact ⟨h0, by rw [hs]; decide⟩)
  refine ⟨_, hex, h1, h2 0 (fun h => ((hmem 0).1 h).2.1 rfl), fun n hn0 hn hr hs => ?_⟩
  exact h3 n ((hmem n).2 ⟨hn, by omega, hr, hs⟩)

/-- What parking one lane does: that lane rests with its settings and RETRAIN cleared, and no other lane or lane register
moves (R270, R288). -/
theorem State.park_alone (s : State) {n : Nat} (hn : n < 32) :
    ((s.park n).lane n).st = 1 ∧ ((s.park n).lane n).stored = (s.lane n).stored ∧ (s.park n).bit (laneCfg n) 0 = false ∧
      ∀ m, m < 32 → m ≠ n → (s.park n).lane m = s.lane m ∧ (s.park n).reg (laneCfg m) = s.reg (laneCfg m) := by
  have hdie : ∀ m, m < 32 → laneCfg m / 0x100000 ≠ 2 := by
    intro m hm
    show (0x020000 + 0x100 * m) / 0x100000 ≠ 2
    omega
  have hc : s.parksTo (s.framesCut n) ∧ (s.framesCut n).regs = s.regs ∧ (s.framesCut n).lanes = s.lanes := by
    refine ⟨s.framesCut_parks n, ?_, ?_⟩
    · unfold State.framesCut
      split
      · exact ite_keeps State.regs _ rfl (s.lacksFrame_regs n)
      · rfl
    · unfold State.framesCut
      split
      · exact ite_keeps State.lanes _ rfl (ite_keeps State.lanes _ rfl rfl)
      · rfl
  obtain ⟨-, hregs, hlanes⟩ := hc
  have hl : ∀ (u : State) (m : Nat), (u.setBit (laneCfg n) 0 false).lane m = u.lane m := fun _ _ => rfl
  unfold State.park
  generalize s.framesCut n = c at hregs hlanes
  have hcl : ∀ m, c.lane m = s.lane m := fun m => by
    unfold State.lane
    rw [hlanes]
  refine ⟨?_, ?_, State.bit_setBit _ _ (by decide) _, fun m hm hmn => ⟨?_, ?_⟩⟩
  · rw [hl, State.lane_setLane, if_pos rfl]
  · rw [hl, State.lane_setLane, if_pos rfl]
    rfl
  · rw [hl, State.lane_setLane, if_neg hmn, hcl]
  · rw [State.reg_of_die _ (hdie m hm), State.reg_of_die _ (hdie m hm)]
    refine (State.regAt_setRegAt_ne _ ?_ _).trans ?_
    · rw [State.phys_of_die_ne_two _ (hdie n hn)]
      show 0x020000 + 0x100 * m ≠ 0x020000 + 0x100 * n
      omega
    · exact State.regAt_congr ((State.setLane_regs _ _ _).trans hregs) _

/-- Parking several lanes. -/
theorem State.parks_alone {l : List Nat} (hd : l.Nodup) (hl : ∀ n ∈ l, n < 32) (s : State) :
    (∀ m, m < 32 → m ∉ l → (l.foldl State.park s).lane m = s.lane m ∧
      (l.foldl State.park s).reg (laneCfg m) = s.reg (laneCfg m)) ∧
    ∀ n ∈ l, ((l.foldl State.park s).lane n).st = 1 ∧ (l.foldl State.park s).bit (laneCfg n) 0 = false ∧
      ((l.foldl State.park s).lane n).stored = (s.lane n).stored := by
  induction l generalizing s with
  | nil => exact ⟨fun _ _ _ => ⟨rfl, rfl⟩, fun n hn => absurd hn List.not_mem_nil⟩
  | cons n l ih =>
    obtain ⟨hnl, hd'⟩ := List.nodup_cons.1 hd
    have hn := hl n (List.mem_cons_self ..)
    obtain ⟨h1, h2, h3, h4⟩ := s.park_alone hn
    rw [List.foldl_cons]
    generalize s.park n = u at h1 h2 h3 h4
    obtain ⟨k1, k2⟩ := ih hd' (fun m hm => hl m (List.mem_cons_of_mem _ hm)) u
    refine ⟨fun m hm hml => ?_, fun m hm => ?_⟩
    · rw [List.mem_cons, not_or] at hml
      obtain ⟨a1, a2⟩ := k1 m hm hml.2
      obtain ⟨b1, b2⟩ := h4 m hm hml.1
      exact ⟨a1.trans b1, a2.trans b2⟩
    · rcases List.mem_cons.1 hm with rfl | hml
      · obtain ⟨a1, a2⟩ := k1 m hn hnl
        refine ⟨by rw [a1, h1], ?_, by rw [a1, h2]⟩
        unfold State.bit at h3 ⊢
        rw [a2, h3]
      · obtain ⟨a1, a2, a3⟩ := k2 m hml
        have hmn : m ≠ n := fun he => hnl (he ▸ hml)
        exact ⟨a1, a2, a3.trans (by rw [(h4 m (hl m (List.mem_cons_of_mem _ hml)) hmn).1])⟩

/-- Every used lane but lane 0 and the SIMMER lane is parked at the end of LOAD (R270, R276). -/
theorem parkWindowExpire_acts {s : State} (hm : s.hk.mode = .load)
    (ht : s.hk.target = some .simmer ∨ s.hk.target = some .safe) :
    ∃ t, exec .parkWindowExpire s = .next t ∧ t.lane 0 = s.lane 0 ∧
      t = { s with lanes := t.lanes, regs := t.regs,
                   ulp := { s.ulp with held := t.ulp.held, peers := t.ulp.peers } } ∧
      ∀ n, 0 < n → n < 32 → s.laneRole n ≠ 0 → s.simmerLane ≠ some n → (t.lane n).st = 1 ∧
        t.bit (laneCfg n) 0 = false ∧ (t.lane n).stored = (s.lane n).stored := by
  have hex : exec .parkWindowExpire s = .next s.parkExtra := congrArg Host.Outcome.next (if_pos ⟨hm, ht⟩)
  obtain ⟨hp, h0, -⟩ := s.parkExtra_parks
  refine ⟨_, hex, h0, hp, fun n hn0 hn hr hs => ?_⟩
  refine (State.parks_alone (List.nodup_range.filter _) (fun m hm => List.mem_range.1 (List.mem_filter.1 hm).1) s).2 n ?_
  rw [List.mem_filter, List.mem_range]
  refine ⟨hn, ?_⟩
  simp only [Bool.and_eq_true, bne_iff_ne, ne_eq]
  exact ⟨⟨by omega, hs⟩, hr⟩

/-- Settles O19: LOAD's sequence and the three steps behind it, a lemma each. -/
theorem loadRunsToItsResult : Obligations.LoadRunsToItsResult := by
  unfold Obligations.LoadRunsToItsResult
  refine ⟨fun env s hm ht hr => ?_, fun s => loadComplete_acts, fun s => lane0WaitExpire_acts,
    fun s => parkWindowExpire_acts⟩
  obtain ⟨t, hex, ⟨h1, h2, h3, h4⟩, hpass⟩ := loadSequence_ends env hm ht hr
  refine ⟨t, hex, h1.trans hm, h2.trans ht, h3, h4, fun hf hp h8 hfed hhbd hca hcb hla hlb => ?_⟩
  rw [hpass hf]
  exact State.loadRest_passes hp h8 hfed hhbd hca hcb hla hlb

end Sys2Proof.Machine
end

section
/-! O30: slices open, close and drain, with the pressure that their level follows and THROTTLE (R214 to R216, R223, R228 to R231,
R329, R45). -/

namespace Sys2Proof.Machine

/-! ### What the ladder reads -/

/-- The registers that the ladder of an opening slice and its level read. -/
def openingRegs : List Nat := Reg.HK_CFG_INFO :: ladderRegs

/-- The words of those registers. -/
def State.ladderWords (s : State) : List W32 := openingRegs.map s.reg

section
variable {s t : State}

theorem State.ladderWords_reg (h : t.ladderWords = s.ladderWords) {a : Nat} (ha : a ∈ openingRegs) : t.reg a = s.reg a :=
  List.map_inj_left.1 h a ha

theorem State.upThr_congr (h : t.ladderWords = s.ladderWords) (n : Nat) : t.upThr n = s.upThr n := by
  have hb : ∀ m, t.ladderByte Reg.SLC_LADDER_UP m = s.ladderByte Reg.SLC_LADDER_UP m := fun m => by
    unfold State.ladderByte
    rw [State.ladderWords_reg h (by decide)]
  induction n with
  | zero => rfl
  | succ n ih =>
    unfold State.upThr
    rw [hb, hb, ih]

theorem State.ladderStep_congr (h : t.ladderWords = s.ladderWords) (l : Ladder) (p : Nat) :
    t.ladderStep l p = s.ladderStep l p := by
  have hu : t.upThr = s.upThr := funext (State.upThr_congr h)
  have hd : t.downThr = s.downThr := by
    funext n
    unfold State.downThr State.ladderByte
    rw [hu, State.ladderWords_reg h (by decide)]
  have hc : ∀ hi lo, t.fld Reg.SLC_LADDER_CFG hi lo = s.fld Reg.SLC_LADDER_CFG hi lo := fun hi lo => by
    unfold State.fld
    rw [State.ladderWords_reg h (by decide)]
  unfold State.ladderStep
  rw [hu, hd, hc, hc]

theorem State.applied_congr (h : t.ladderWords = s.ladderWords) (l : Ladder) : t.applied l = s.applied l := by
  have hc : ∀ hi lo, t.fld Reg.SLC_THROTTLE hi lo = s.fld Reg.SLC_THROTTLE hi lo := fun hi lo => by
    unfold State.fld
    rw [State.ladderWords_reg h (by decide)]
  unfold State.applied
  rw [hc, hc]

theorem State.role_of_ladderWords (h : t.ladderWords = s.ladderWords) : t.role = s.role := by
  unfold State.role State.fld
  rw [State.ladderWords_reg h (by decide)]

end

/-! ### What a FLUSH that falls due leaves -/

/-- What opening, closing and building read and write of a slice, beside its barriers. -/
def State.slicing (s : State) : Ladder × List SliceSt × List SliceSt × BitVec 8 × List Out × List W32 :=
  (s.cd.ladder, s.cd.opened, s.cd.closed, s.cd.gen, s.out, s.ladderWords)

/-- Registers outside the CDs' own nibbles have places of their own. -/
theorem State.phys_inj (s : State) {a b : Nat} (ha : a / 0x100000 ≠ 3 ∧ a / 0x100000 ≠ 4)
    (hb : b / 0x100000 ≠ 3 ∧ b / 0x100000 ≠ 4) (h : s.phys a = s.phys b) : a = b := by
  unfold State.phys at h
  have hbase : (if s.rd.activeB then 0x400000 else 0x300000) = 0x400000 ∨
      (if s.rd.activeB then 0x400000 else 0x300000) = 0x300000 := by
    cases s.rd.activeB
    · exact Or.inr rfl
    · exact Or.inl rfl
  generalize (if s.rd.activeB then 0x400000 else 0x300000) = base at h hbase
  split at h
  · split at h
    · omega
    · omega
  · split at h
    · omega
    · omega

section
variable (s : State)

theorem State.count_ladderWords {a : Nat} (ha : a / 0x100000 ≠ 3 ∧ a / 0x100000 ≠ 4) (hn : a ∉ openingRegs) (n : Nat) :
    (s.count a n).ladderWords = s.ladderWords := by
  have hdie : ∀ b ∈ openingRegs, b / 0x100000 ≠ 3 ∧ b / 0x100000 ≠ 4 := by decide
  refine List.map_inj_left.2 (fun b hb => ?_)
  have hp : (s.count a n).phys b = s.phys b := State.phys_countAt _ _ _ _ _
  unfold State.reg
  rw [hp]
  refine State.regAt_countAt_ne _ (fun h => hn ?_) _ _
  exact (s.phys_inj (hdie b hb) ha h) ▸ hb

theorem State.ladderWords_congr {t : State} (hr : t.regs = s.regs) (hd : t.rd.activeB = s.rd.activeB) :
    t.ladderWords = s.ladderWords := List.map_inj_left.2 (fun b _ => State.reg_congr hr hd b)

theorem State.count_slicing {a : Nat} (ha : a / 0x100000 ≠ 3 ∧ a / 0x100000 ≠ 4) (hn : a ∉ openingRegs) (n : Nat) :
    (s.count a n).slicing = s.slicing := by
  unfold State.slicing
  rw [State.cd_count, State.count_out, s.count_ladderWords ha hn]

theorem State.event_slicing (a : Nat) (bs : List Nat) : (s.event a bs).slicing = s.slicing := by
  unfold State.slicing
  rw [State.cd_event, State.event_out, s.ladderWords_congr (s.event_regs a bs) (congrArg Rd.activeB (s.event_rd a bs))]

/-- Writing the active CD without a change of ladder, slices and generation. -/
theorem State.setCd_slicing {c : Cd} (hl : c.ladder = s.cd.ladder) (ho : c.opened = s.cd.opened)
    (hc : c.closed = s.cd.closed) (hg : c.gen = s.cd.gen) : (s.setCd c).slicing = s.slicing := by
  unfold State.slicing
  rw [State.cd_setCd, State.setCd_out, s.ladderWords_congr (s.setCd_regs c) (congrArg Rd.activeB (s.setCd_rd c)), hl, ho, hc, hg]

theorem State.setOther_slicing (c : Cd) : (s.setOther c).slicing = s.slicing := by
  unfold State.slicing
  rw [State.cd_setOther, State.setOther_out,
    s.ladderWords_congr (s.setOther_regs c) (congrArg Rd.activeB (s.setOther_rd c))]

theorem State.insertBarrier_slicing (b : Barrier) : (s.insertBarrier b).slicing = s.slicing := by
  unfold State.insertBarrier
  extract_lets c p nr nj q alone later k rel jbs c1 x t j
  split
  · exact s.setCd_slicing rfl rfl rfl rfl
  · split
    · have ht : t.slicing = s.slicing := s.setCd_slicing rfl rfl rfl rfl
      clear_value t
      rw [State.count_slicing _ (by decide) (by decide), State.count_slicing _ (by decide) (by decide),
        State.count_slicing _ (by decide) (by decide), State.count_slicing _ (by decide) (by decide), ht]
    · exact s.setCd_slicing rfl rfl rfl rfl

theorem State.standBarrier_slicing (b : Barrier) : (s.standBarrier b).slicing = s.slicing := by
  have hr : (s.recordBarrier b).slicing = s.slicing := ite_keeps State.slicing _ (s.setOther_slicing _) rfl
  unfold State.standBarrier
  extract_lets t u
  have ht : t.slicing = s.slicing := hr
  have hu : u.slicing = s.slicing := (t.insertBarrier_slicing b).trans ht
  clear_value t u
  refine ite_keeps State.slicing _ (Eq.trans ?_ hu) (Eq.trans ?_ ht)
  · exact u.setCd_slicing rfl rfl rfl rfl
  · exact t.setCd_slicing rfl rfl rfl rfl

theorem State.flushAt_slicing (n id : Nat) : (s.flushAt n id).slicing = s.slicing := by
  refine ite_keeps State.slicing _ ?_ (s.standBarrier_slicing _)
  exact (State.event_slicing _ _ _).trans (s.count_slicing (by decide) (by decide) 1)

theorem State.runFlushes_slicing : s.runFlushes.slicing = s.slicing := by
  have hf : ∀ (t : State) (f : Nat × Nat), (t.flushAt f.1 f.2).slicing = t.slicing := fun t f => t.flushAt_slicing _ _
  unfold State.runFlushes
  exact (foldl_keeps State.slicing hf _ _).trans rfl

theorem State.groupBoundary_slicing : s.groupBoundary.slicing = s.slicing := by
  unfold State.groupBoundary
  split
  · exact ite_keeps State.slicing _ rfl rfl
  · rfl

theorem State.groupBoundary_run : s.groupBoundary.run = s.run := by
  unfold State.groupBoundary
  split
  · exact ite_keeps State.run _ rfl rfl
  · rfl

theorem State.advanceTo_slicing (n : Nat) : (s.advanceTo n).slicing = s.slicing := ite_keeps State.slicing _ rfl rfl

theorem State.advanceTo_cd (n : Nat) : (s.advanceTo n).cd = s.cd :=
  State.cd_congr (congrArg Rd.activeB (s.advanceTo_rd n)) (s.advanceTo_cda n) (s.advanceTo_cdb n)

theorem State.eventIf_cd (b : Bool) (a : Nat) (bs : List Nat) : (s.eventIf b a bs).cd = s.cd :=
  State.cd_congr (congrArg Rd.activeB (s.eventIf_rd b a bs)) (s.eventIf_cda b a bs) (s.eventIf_cdb b a bs)

theorem State.setEff_cd (a : Nat) (v : W32) : (s.setEff a v).cd = s.cd :=
  State.cd_congr (congrArg Rd.activeB (s.setEff_rd a v)) (s.setEff_cda a v) (s.setEff_cdb a v)

theorem State.setFld_cd (a h l v : Nat) : (s.setFld a h l v).cd = s.cd :=
  State.cd_congr (congrArg Rd.activeB (s.setFld_rd a h l v)) (s.setFld_cda a h l v) (s.setFld_cdb a h l v)

theorem State.latch_cd (rs : List Nat) : (s.latch rs).cd = s.cd := by
  unfold State.latch
  extract_lets changed old s1 l w l' w' new fresh slc st trg
  rw [State.eventIf_cd, State.eventIf_cd, State.setEff_cd]
  exact foldl_keeps State.cd (fun t a => t.setEff_cd a _) rs s

/-- The state in which a slice boundary is reached. -/
def State.atBoundary (s : State) (n : Nat) : State := (s.advanceTo (s.firstTick n)).groupBoundary.runFlushes

theorem State.atBoundary_slicing (n : Nat) : (s.atBoundary n).slicing = s.slicing :=
  (State.runFlushes_slicing _).trans ((State.groupBoundary_slicing _).trans (s.advanceTo_slicing _))

theorem State.atBoundary_run (n : Nat) : (s.atBoundary n).run = s.run :=
  (still_run (State.runFlushes_still _)).trans ((State.groupBoundary_run _).trans (s.advanceTo_run _))

theorem State.atBoundary_cd {n : Nat}
    (hf : ∀ f, f ∈ s.ulp.flushes → (s.advanceTo (s.firstTick n)).sliceEnded f.1 = false) : (s.atBoundary n).cd = s.cd := by
  have hb : ∀ u : State, u.groupBoundary.ulp = u.ulp ∧ u.groupBoundary.cd = u.cd ∧
      ∀ m, u.groupBoundary.sliceEnded m = u.sliceEnded m := by
    intro u
    unfold State.groupBoundary
    split
    · split <;> exact ⟨rfl, rfl, fun _ => rfl⟩
    · exact ⟨rfl, rfl, fun _ => rfl⟩
  have hul := s.advanceTo_ulp (s.firstTick n)
  have hcd := s.advanceTo_cd (s.firstTick n)
  unfold State.atBoundary
  generalize s.advanceTo (s.firstTick n) = u at hf hul hcd
  obtain ⟨h1, h2, h3⟩ := hb u
  rw [State.runFlushes_none (fun f hm => by rw [h3]; exact hf f (by rw [← hul, ← h1]; exact hm)), h2, hcd]

end

/-! ### Opening -/

/-- What an opening does with the ladder, the slices and the run (R198, R216, R230, R231). -/
theorem State.openSlice_opens (s : State) (n : Nat) :
    (s.openSlice n).run = { s.run with nextOpen := (n + 1) % 2 ^ 32, opened := true } ∧
      (s.openSlice n).cd.ladder = s.ladderStep s.cd.ladder s.cd.ladder.p ∧
      (s.openSlice n).cd.presc = s.cd.presc ∧ (s.openSlice n).cd.whisk = s.cd.whisk ∧
      ∃ x, (s.openSlice n).cd.opened = s.cd.opened ++ [x] ∧ x.n = n ∧
        x.level = (s.applied (s.ladderStep s.cd.ladder s.cd.ladder.p)).1 ∧
        x.step = (if s.role = .limb then 0 else (s.applied (s.ladderStep s.cd.ladder s.cd.ladder.p)).2) ∧
        x.restart = false ∧ (s.openSlice n).out = s.out ++ [.level s.cd.gen n x.level x.step] := by
  unfold State.openSlice
  extract_lets c l a step hot fresh s1 s2
  have h1 : s1.cd = { c with
      ladder := l, rateSup := hot, hotPend := [], coolPend := [],
      opened := c.opened ++ [SliceSt.mk n a.1 step false hot s.fe.groupEff] } := State.cd_setCd _ _
  have h2 : s2.cd = s1.cd := (State.eventIf_cd _ _ _ _).trans (State.eventIf_cd _ _ _ _)
  have hr : s2.run = s.run := (State.eventIf_run _ _ _ _).trans ((State.eventIf_run _ _ _ _).trans (s.setCd_run _))
  have ho : s2.out = s.out := (State.eventIf_out _ _ _ _).trans ((State.eventIf_out _ _ _ _).trans (s.setCd_out _))
  rw [h1] at h2
  have hpresc : s2.cd.presc = c.presc := by rw [h2]
  have hwhisk : s2.cd.whisk = c.whisk := by rw [h2]
  have hgen : s2.cd.gen = c.gen := by rw [h2]
  clear_value s1 s2
  refine ⟨?_, ?_, hpresc, hwhisk, SliceSt.mk n a.1 step false hot s.fe.groupEff, ?_, rfl, rfl, rfl, rfl, ?_⟩
  · show ({ s2.run with nextOpen := (n + 1) % 2 ^ 32, opened := true } : Run) = _
    rw [hr]
  · exact congrArg Cd.ladder h2
  · exact congrArg Cd.opened h2
  · show s2.out ++ [.level s2.cd.gen n a.1 step] = _
    rw [ho, hgen]

/-- The first opening of a run clears what the run before left and starts the Whisk (R150, R197, R230). -/
theorem State.runFirst_clears (s : State) :
    s.runFirst.run = s.run ∧ s.runFirst.cd.presc = [] ∧ s.runFirst.cd.opened = [] ∧ s.runFirst.cd.whisk.on = true := by
  have hw : ∀ (u : State) (m : Nat), (u.whiskStart m).run = u.run ∧ (u.whiskStart m).cd.presc = u.cd.presc ∧
      (u.whiskStart m).cd.opened = u.cd.opened := by
    intro u m
    have hc : (u.whiskStart m).cd = { u.cd with
        whisk := { Whisk.reset with on := true, start := m, next := m }, toWhisk := [] } := State.cd_setCd _ _
    rw [hc]
    exact ⟨still_run (u.whiskStart_keeps m).1, rfl, rfl⟩
  unfold State.runFirst
  extract_lets src l c s1 s2 srcF srcR srcU s3
  have h2 : s2.run = s.run := by
    rw [show s2 = State.latch _ _ from rfl, still_run (State.latch_still _ _), State.setFld_run]
    exact s.setCd_run _
  have hc2 : s2.cd.presc = [] ∧ s2.cd.opened = [] := by
    rw [show s2 = State.latch _ _ from rfl, State.latch_cd, State.setFld_cd, show s1 = s.setCd _ from rfl, State.cd_setCd]
    exact ⟨rfl, rfl⟩
  clear_value s2
  have h3 : s3.run = s2.run ∧ s3.cd = s2.cd := ⟨rfl, State.cd_congr rfl rfl rfl⟩
  clear_value s3
  obtain ⟨h3r, h3p, h3o⟩ := hw s3 (s3.firstTick s3.run.sf)
  obtain ⟨h3s, h3c⟩ := h3
  exact ⟨h3r.trans (h3s.trans h2), h3p.trans (by rw [h3c, hc2.1]), h3o.trans (by rw [h3c, hc2.2]), (s3.whiskStart_keeps _).2.2⟩

/-- A slice boundary that is not past Sl opens the next slice. -/
theorem exec_sliceOpen_opens {s : State} (ha : s.run.active = true)
    (hl : ∀ l, s.run.sl = some l → sdiff s.run.nextOpen l ≤ 0) (hm : s.run.sl ≠ none ∨ s.hk.mode = .run) :
    exec .sliceOpen s = .next
      ((if (s.atBoundary s.run.nextOpen).run.opened then s.atBoundary s.run.nextOpen
        else (s.atBoundary s.run.nextOpen).runFirst).openSlice s.run.nextOpen) := by
  refine (congrArg Host.Outcome.next (if_neg (by rw [ha]; decide))).trans ?_
  refine (congrArg Host.Outcome.next (if_neg ?_)).trans ?_
  · intro h
    split at h
    · next l hsl =>
      have := hl l hsl
      simp only [decide_eq_true_eq] at h
      omega
    · cases h
  · refine congrArg Host.Outcome.next (if_neg ?_)
    rintro ⟨h1, h2⟩
    exact hm.elim (fun h => h h1) h2

theorem sliceOpen_next {s : State} (ha : s.run.active = true)
    (hl : ∀ l, s.run.sl = some l → sdiff s.run.nextOpen l ≤ 0) (hm : s.run.sl ≠ none ∨ s.hk.mode = .run)
    (ho : s.run.opened = true) :
    ∃ t, exec .sliceOpen s = .next t ∧ t.run = { s.run with nextOpen := (s.run.nextOpen + 1) % 2 ^ 32 } ∧
      t.cd.ladder = s.ladderStep s.cd.ladder s.cd.ladder.p ∧
      (∃ x, t.cd.opened = s.cd.opened ++ [x] ∧ x.n = s.run.nextOpen ∧ x.level = (s.applied t.cd.ladder).1 ∧
        x.step = (if s.role = .limb then 0 else (s.applied t.cd.ladder).2) ∧ x.restart = false ∧
        t.out = s.out ++ [.level s.cd.gen x.n x.level x.step]) := by
  have hex := exec_sliceOpen_opens ha hl hm
  have hrun := s.atBoundary_run s.run.nextOpen
  have hsl := s.atBoundary_slicing s.run.nextOpen
  generalize s.atBoundary s.run.nextOpen = u at hex hrun hsl
  rw [if_pos (by rw [hrun, ho])] at hex
  unfold State.slicing at hsl
  simp only [Prod.mk.injEq] at hsl
  obtain ⟨hlad, hopn, -, hgen, hout, hw⟩ := hsl
  obtain ⟨h1, h2, -, -, x, hx, hxn, hxl, hxs, hxr, hxo⟩ := u.openSlice_opens s.run.nextOpen
  rw [hlad, State.ladderStep_congr hw] at h2 hxl hxs
  rw [State.applied_congr hw] at hxl hxs
  rw [State.role_of_ladderWords hw] at hxs
  rw [hopn] at hx
  rw [hout, hgen] at hxo
  refine ⟨_, hex, ?_, h2, x, hx, hxn, ?_, ?_, hxr, ?_⟩
  · rw [h1, hrun]
    show ({ s.run with nextOpen := _, opened := true } : Run) = _
    rw [← ho]
  · rw [h2, hxl]
  · rw [h2, hxs]
  · rw [hxo, hxn]

theorem sliceOpen_first {s : State} (ha : s.run.active = true)
    (hl : ∀ l, s.run.sl = some l → sdiff s.run.nextOpen l ≤ 0) (hm : s.run.sl ≠ none ∨ s.hk.mode = .run)
    (ho : s.run.opened = false) :
    ∃ t, exec .sliceOpen s = .next t ∧ t.run.opened = true ∧ t.cd.presc = [] ∧ t.cd.whisk.on = true ∧
      (∃ x, t.cd.opened = [x] ∧ x.n = s.run.nextOpen) := by
  have hex := exec_sliceOpen_opens ha hl hm
  have hrun := s.atBoundary_run s.run.nextOpen
  generalize s.atBoundary s.run.nextOpen = u at hex hrun
  rw [if_neg (by rw [hrun, ho]; decide)] at hex
  obtain ⟨-, hp, hop, hwh⟩ := u.runFirst_clears
  generalize u.runFirst = v at hex hp hop hwh
  obtain ⟨h1, -, h3, h4, x, hx, hxn, -⟩ := v.openSlice_opens s.run.nextOpen
  refine ⟨_, hex, by rw [h1], h3.trans hp, by rw [h4, hwh], x, ?_, hxn⟩
  rw [hx, hop]
  rfl

/-- Past Sl the run's end leads to DRAIN (R45). -/
theorem sliceOpen_past {s : State} {l : Nat} (ha : s.run.active = true) (hl : s.run.sl = some l)
    (hd : 0 < sdiff s.run.nextOpen l) (hm : s.hk.mode = .run) (ht : s.hk.target = some .drain) (he : s.run.endMode = 2) :
    ∃ t, exec .sliceOpen s = .next t ∧ t.hk.mode = .drain ∧ t.hk.cause = s.run.endCause ∧
      t.hk.target = none ∧ t.run = s.run ∧
      ((∀ f, f ∈ s.ulp.flushes → (s.advanceTo (s.firstTick s.run.nextOpen)).sliceEnded f.1 = false) → t.cd = s.cd) := by
  have hex : exec .sliceOpen s = .next ((s.atBoundary s.run.nextOpen).modeDone .drain (s.atBoundary s.run.nextOpen).run.endCause) := by
    refine (congrArg Host.Outcome.next (if_neg (by rw [ha]; decide))).trans ?_
    refine (congrArg Host.Outcome.next (if_pos ?_)).trans ?_
    · rw [hl]
      exact decide_eq_true hd
    exact congrArg Host.Outcome.next (if_pos ⟨hm, ht, he⟩)
  have hrun := s.atBoundary_run s.run.nextOpen
  have hcd := s.atBoundary_cd (n := s.run.nextOpen)
  generalize s.atBoundary s.run.nextOpen = u at hex hrun hcd
  have hmcd : (u.modeDone .drain u.run.endCause).cd = u.cd :=
    State.cd_congr (congrArg Rd.activeB (State.modeDone_rd _ _ _)) (State.modeDone_cda _ _ _) (State.modeDone_cdb _ _ _)
  refine ⟨_, hex, u.modeDone_mode _ _, ?_, u.modeDone_target _ _, (State.modeDone_run _ _ _).trans hrun, fun hf => ?_⟩
  · rw [State.modeDone_hk, hrun]
  · rw [hmcd, hcd hf]

/-! ### Closing, the peer deadline and the pressure -/

/-- The oldest open slice closes (R215). -/
theorem sliceClose_acts {s : State} {x : SliceSt} {rest : List SliceSt} (ho : s.cd.opened = x :: rest)
    (hr : s.rd.step = 0) :
    ∃ t, exec .sliceClose s = .next t ∧ t.cd.opened = rest ∧ t.cd.closed = s.cd.closed ++ [x] ∧
      t.cd.lastClosed = some x.n ∧ t.out = s.out ∧
      ((∀ f, f ∈ s.ulp.flushes → (s.advanceTo (s.firstTick x.n + 2 ^ s.k + s.late)).sliceEnded f.1 = false) →
        t.cd = { s.cd with opened := rest, closed := s.cd.closed ++ [x], lastClosed := some x.n } ∧ t.regs = s.regs) := by
  have hex : exec .sliceClose s = .next (((s.advanceTo (s.firstTick x.n + 2 ^ s.k + s.late)).runFlushes).setCd
      { (s.advanceTo (s.firstTick x.n + 2 ^ s.k + s.late)).runFlushes.cd with
        opened := rest, closed := (s.advanceTo (s.firstTick x.n + 2 ^ s.k + s.late)).runFlushes.cd.closed ++ [x],
        lastClosed := some x.n }) := by
    show execSliceClose s = _
    unfold execSliceClose
    rw [ho]
    refine congrArg Host.Outcome.next (if_pos ?_)
    unfold State.mayClose
    rw [hr]
    rfl
  generalize hn : s.firstTick x.n + 2 ^ s.k + s.late = n at hex
  have hsl := ((s.advanceTo n).runFlushes_slicing).trans (s.advanceTo_slicing n)
  unfold State.slicing at hsl
  simp only [Prod.mk.injEq] at hsl
  obtain ⟨-, -, hcl, -, hout, -⟩ := hsl
  have hnone : (∀ f, f ∈ s.ulp.flushes → (s.advanceTo n).sliceEnded f.1 = false) →
      (s.advanceTo n).runFlushes = s.advanceTo n := fun hf =>
    State.runFlushes_none (fun f hm => hf f ((s.advanceTo_ulp n) ▸ hm))
  refine ⟨_, hex, ?_, ?_, ?_, (State.setCd_out _ _).trans hout, fun hf => ⟨?_, ?_⟩⟩
  · rw [State.cd_setCd]
  · rw [State.cd_setCd, hcl]
  · rw [State.cd_setCd]
  · rw [State.cd_setCd, hnone hf, State.advanceTo_cd]
  · rw [State.setCd_regs, hnone hf, State.advanceTo_regs]

/-- The oldest closed slice not yet due meets its peer deadline (R223). -/
theorem peerDeadline_acts {s : State} {x : SliceSt} (hr : s.role = .head)
    (hx : s.cd.closed.find? (fun y => !s.cd.peerDue.contains y.n) = some x)
    (hs : s.rd.step = 0 ∨ s.openAtS2 x.n = false) :
    ∃ t, exec .peerDeadline s = .next t ∧ t.cd = { s.cd with peerDue := s.cd.peerDue ++ [x.n] } := by
  refine ⟨(s.advanceTo (s.peerDeadline x.n)).setCd { (s.advanceTo (s.peerDeadline x.n)).cd with
    peerDue := (s.advanceTo (s.peerDeadline x.n)).cd.peerDue ++ [x.n] }, ?_, ?_⟩
  · show execPeerDeadline s = _
    unfold execPeerDeadline
    rw [if_neg (by rw [hr]; decide), hx]
    refine congrArg Host.Outcome.next (if_neg ?_)
    rintro ⟨h0, h1⟩
    exact hs.elim h0 (fun h => by rw [h] at h1; cases h1)
  · rw [State.cd_setCd, State.advanceTo_cd]

/-- A pressure sample (R229, R234). -/
theorem pressureSample_acts {s : State} (awaiting : Nat) (hc : s.cclkRuns = true) :
    ∃ t, exec (.pressureSample awaiting) s = .next t ∧
      t.cd.ladder.pantry = s.pantryNow ∧ t.cd.ladder.replay = s.replayNow ∧ t.cd.ladder.output = s.outputNow awaiting ∧
      s.cd.ladder.p ≤ t.cd.ladder.p ∧ t.cd.ladder.level = s.cd.ladder.level ∧ t.cd.ladder.step = s.cd.ladder.step ∧
      t.regs = s.regs := by
  refine ⟨_, congrArg Host.Outcome.next (if_neg (by rw [hc]; decide)), ?_⟩
  dsimp only
  rw [State.eventIf_cd, State.eventIf_regs, State.cd_setCd, State.setCd_regs]
  exact ⟨rfl, rfl, rfl, Nat.le_max_left _ _, rfl, rfl, rfl⟩

/-! ### Building a frame -/

/-- What the records and reports of a frame leave: the run, the closed slices, the Ladle and whether critical state is lost. -/
def State.framing (s : State) : Run × List SliceSt × List LGroup × Option Die :=
  (s.run, s.cd.closed, s.cd.ladle, s.err.crit)

theorem State.framing_congr {s t : State} (hr : t.run = s.run) (hc : t.cd = s.cd) (he : t.err.crit = s.err.crit) :
    t.framing = s.framing := by
  unfold State.framing
  rw [hr, hc, he]

section
variable (s : State)

theorem State.setCd_framing {c : Cd} (hc : c.closed = s.cd.closed) (hl : c.ladle = s.cd.ladle) :
    (s.setCd c).framing = s.framing := by
  unfold State.framing
  rw [State.setCd_run, State.cd_setCd, State.setCd_err, hc, hl]

theorem State.count_framing (a n : Nat) : (s.count a n).framing = s.framing :=
  State.framing_congr (s.count_run a n) (s.cd_count a n) (congrArg Err.crit (s.count_err a n))

theorem State.errEntry_crit (d : Die) (a b c e : Nat) : (s.errEntry d a b c e).err.crit = s.err.crit := by
  unfold State.errEntry State.pqPush
  exact ite_keeps (fun u : State => u.err.crit) _ rfl rfl

theorem State.errEntry_framing (d : Die) (a b c e : Nat) : (s.errEntry d a b c e).framing = s.framing :=
  State.framing_congr (s.errEntry_run d a b c e)
    (State.cd_congr (congrArg Rd.activeB (s.errEntry_rd d a b c e)) (s.errEntry_cda d a b c e) (s.errEntry_cdb d a b c e))
    (s.errEntry_crit d a b c e)

theorem State.draw_framing : s.draw.2.framing = s.framing :=
  State.framing_congr s.draw_run (State.cd_congr (congrArg Rd.activeB s.draw_rd) s.draw_cda s.draw_cdb)
    (congrArg Err.crit s.draw_err)

theorem State.setRegAt_framing (k : Nat) (v : W32) : (s.setRegAt k v).framing = s.framing :=
  State.framing_congr (s.setRegAt_run k v)
    (State.cd_congr (congrArg Rd.activeB (s.setRegAt_rd k v)) (s.setRegAt_cda k v) (s.setRegAt_cdb k v))
    (congrArg Err.crit (s.setRegAt_err k v))

theorem State.countAt_framing (k top n : Nat) : (s.countAt k top n).framing = s.framing := s.setRegAt_framing k _

theorem State.eventAt_framing (k : Nat) (bs : List Nat) : (s.eventAt k bs).framing = s.framing :=
  State.framing_congr (s.eventAt_run k bs)
    (State.cd_congr (congrArg Rd.activeB (s.eventAt_rd k bs)) (s.eventAt_cda k bs) (s.eventAt_cdb k bs))
    (congrArg Err.crit (s.eventAt_err k bs))

theorem State.countUncorr_framing (d : Die) (m i c : Nat) (e : List Nat) :
    (s.countUncorr d m i c e).framing = s.framing := by
  unfold State.countUncorr
  extract_lets s1 s2
  have h2 : s2.framing = s.framing := by
    rw [show s2 = State.eventAt _ _ _ from rfl, State.eventAt_framing, State.setRegAt_framing]
    exact s.countAt_framing _ _ _
  clear_value s2
  refine ite_keeps State.framing _ ?_ ?_
  · rw [State.errEntry_framing, State.draw_framing, h2]
  · rw [State.errEntry_framing, h2]

theorem State.uncorrLoss_framing (d : Die) (m i c : Nat) : (s.uncorrLoss d m i c).framing = s.framing := by
  unfold State.uncorrLoss
  rw [State.countAt_framing, State.countUncorr_framing]

theorem State.errLossC_framing (d : Die) (a c : Nat) : (s.errLossC d a c).framing = s.framing := by
  have hc : (s.lossCount d c).framing = s.framing := by
    unfold State.lossCount
    rw [State.eventAt_framing, State.countAt_framing]
  unfold State.errLossC State.lossEntry
  refine ite_keeps State.framing _ ?_ ?_
  · rw [State.errEntry_framing, State.draw_framing, hc]
  · rw [State.errEntry_framing, hc]

theorem State.pantryLoss_framing (n src ch k : Nat) : (s.pantryLoss n src ch k).framing = s.framing := by
  unfold State.pantryLoss
  extract_lets r
  have hr : r.2.framing = s.framing := s.draw_framing
  clear_value r
  refine (State.uncorrLoss_framing _ _ _ _ _).trans (Eq.trans ?_ hr)
  exact r.2.setCd_framing rfl rfl

theorem State.recordSection_framing (n level : Nat) : (s.recordSection n level).2.framing = s.framing := by
  have hbad : ∀ (k src ch : Nat) (t : State),
      ((List.range k).foldl (fun u _ => u.pantryLoss n src ch 0) t).framing = t.framing := fun k src ch t =>
    foldl_keeps State.framing (fun u (_ : Nat) => u.pantryLoss_framing n src ch 0) _ t
  unfold State.recordSection
  refine foldl_snd_keeps State.framing ?_ _ ([], s)
  intro acc x
  extract_lets t h
  split
  · exact State.pantryLoss_framing _ _ _ _ _
  · split
    · exact State.count_framing _ _ _
    · split
      · rfl
      · exact hbad _ _ _ _

theorem State.lossInC_framing (cls n src lo hi k cause : Nat) : (s.lossInC cls n src lo hi k cause).framing = s.framing := by
  refine (State.errLossC_framing _ _ _ _).trans ?_
  exact s.setCd_framing rfl rfl

theorem State.lossIn_framing (n src lo hi k cause : Nat) : (s.lossIn n src lo hi k cause).framing = s.framing :=
  s.lossInC_framing _ _ _ _ _ _ _

theorem State.setPeer_framing (i : Nat) (p : Peer) : (s.setPeer i p).framing = s.framing := rfl

theorem State.frameLosses_framing (n : Nat) : (s.frameLosses n).framing = s.framing := by
  have hgap : ∀ (t : State) (i : Nat), (match (t.peer i).gap n with
      | some cause => t.lossInC 12 n i 0 4095 0 cause
      | none => t).framing = t.framing := by
    intro t i
    split
    · exact t.lossInC_framing _ _ _ _ _ _ _
    · rfl
  have hbad : ∀ (t : State) (i : Nat), (match (t.peer i).badPend with
      | some (m, lo) => if m = n then (t.setPeer i { t.peer i with badPend := none }).lossIn n i lo 4095 0 10 else t
      | none => t).framing = t.framing := by
    intro t i
    split
    · exact ite_keeps State.framing _ ((State.lossIn_framing _ _ _ _ _ _ _).trans (t.setPeer_framing _ _)) rfl
    · rfl
  unfold State.frameLosses
  extract_lets on dead s1 s2 s3 held
  have h1 : s1.framing = s.framing :=
    foldl_keeps State.framing (fun (t : State) (c : Nat) => t.lossInC_framing 7 n t.source c c 0 8) dead s
  have h2 : s2.framing = s.framing := (foldl_keeps State.framing hgap _ s1).trans h1
  have h3 : s3.framing = s.framing := (foldl_keeps State.framing hbad _ s2).trans h2
  clear_value s3
  refine Eq.trans ?_ h3
  exact s3.setCd_framing rfl rfl

end

/-- Reads of a memory without a faulty word return data and leave nothing (R334). -/
theorem State.readCrit_sound {s : State} (h : s.sound) (mem lo n : Nat) : s.readCrit mem lo n = s := by
  obtain ⟨hb, hr, -⟩ := h
  have hread : s.readRange s.activeDie mem lo n 0 = (true, s) := by
    unfold State.readRange
    rw [hb, hr]
    rfl
  unfold State.readCrit
  rw [hread]
  rfl

theorem State.readDrained_sound {s : State} (h : s.sound) (n : Nat) : s.readDrained n = s := by
  have hf : ∀ l : List (Nat × Queue), l.foldl (fun u e => u.readCrit 0x22 e.1 1) s = s := by
    intro l
    induction l with
    | nil => rfl
    | cons e l ih => rw [List.foldl_cons, State.readCrit_sound h, ih]
  unfold State.readDrained
  extract_lets mine t
  have ht : t = s := hf mine
  clear_value t
  subst ht
  split
  · exact State.readCrit_sound h _ _ _
  · rfl

theorem State.retirePeers_run (s : State) (n : Nat) : (s.retirePeers n).run = s.run.retire n := rfl
theorem State.retirePeers_err (s : State) (n : Nat) : (s.retirePeers n).err = s.err := by
  have h : ∀ (u : Ulp) (r : Rd) (q : Run), ({ s with ulp := u, rd := r, run := q } : State).err = s.err := fun _ _ _ => rfl
  exact h _ _ _
theorem State.retirePeers_cd (s : State) (n : Nat) : (s.retirePeers n).cd = s.cd := by
  have h : ∀ (u : Ulp) (r : Rd) (q : Run), r.activeB = s.rd.activeB →
      ({ s with ulp := u, rd := r, run := q } : State).cd = s.cd := fun u r q hr => State.cd_congr hr rfl rfl
  exact h _ _ _ rfl

/-- What follows the frame or gap of a slice: the run's marks move, barriers go behind it (R7, R43, R227). -/
theorem State.afterSlice_spec (s : State) (n : Nat) :
    (s.afterSlice n).run = { s.run.retire n with lastEmitted := some n } ∧ (s.afterSlice n).cd.closed = s.cd.closed ∧
      (s.afterSlice n).err.crit = s.err.crit ∧ ∃ l, (s.afterSlice n).cd.ladle = s.cd.ladle ++ l := by
  have hru := s.retirePeers_run n
  have hcd := s.retirePeers_cd n
  have he := s.retirePeers_err n
  unfold State.afterSlice
  generalize s.retirePeers n = u at hru hcd he
  dsimp only
  rw [hcd]
  refine ⟨?_, ?_, ?_, barrierGroups s.cd.barriers n ++ u.closing n, ?_⟩
  · show ({ (u.setCd _).run with lastEmitted := some n } : Run) = _
    rw [State.setCd_run, hru]
  · show (u.setCd _).cd.closed = _
    rw [State.cd_setCd]
  · show (u.setCd _).err.crit = _
    rw [State.setCd_err, he]
  · show (u.setCd _).cd.ladle = _
    rw [State.cd_setCd]
    exact List.append_assoc _ _ _

/-- What a frame that is counted leaves, once its slice is left behind. -/
theorem State.emitted_spec (s : State) (c : Cd) (a b k n : Nat) :
    ((((s.setCd c).count a 1).count b k).afterSlice n).cd.closed = c.closed ∧
      ((((s.setCd c).count a 1).count b k).afterSlice n).run = { s.run.retire n with lastEmitted := some n } ∧
      c.ladle.length ≤ ((((s.setCd c).count a 1).count b k).afterSlice n).cd.ladle.length ∧
      ((((s.setCd c).count a 1).count b k).afterSlice n).err.crit = s.err.crit := by
  obtain ⟨h1, h2, h3, l, h4⟩ := (((s.setCd c).count a 1).count b k).afterSlice_spec n
  rw [State.cd_count, State.cd_count, State.cd_setCd] at h2 h4
  rw [State.count_run, State.count_run, State.setCd_run] at h1
  rw [State.count_err, State.count_err, State.setCd_err] at h3
  refine ⟨h2, h1, ?_, h3⟩
  rw [h4, List.length_append]
  exact Nat.le_add_right _ _

/-- The frame of the oldest closed slice (R218). -/
theorem State.buildFrame_builds {s : State} {x : SliceSt} {rest : List SliceSt} (hc : s.cd.closed = x :: rest)
    (hs : s.sound) :
    s.buildFrame.cd.closed = rest ∧ s.buildFrame.run = { s.run.retire x.n with lastEmitted := some x.n } ∧
      s.cd.ladle.length < s.buildFrame.cd.ladle.length ∧ s.buildFrame.err.crit = none := by
  unfold State.buildFrame
  rw [hc]
  dsimp only
  rw [State.readDrained_sound hs]
  have h1 : ((s.recordSection x.n x.level).2.frameLosses x.n).framing = s.framing :=
    (State.frameLosses_framing _ _).trans (s.recordSection_framing _ _)
  generalize (s.recordSection x.n x.level).1 = recs
  generalize (s.recordSection x.n x.level).2.frameLosses x.n = s1 at h1
  unfold State.framing at h1
  simp only [Prod.mk.injEq] at h1
  obtain ⟨hr, -, hl, he⟩ := h1
  have hgs : ∀ (w : List W64) (a b c : List (List W64)),
      s.cd.ladle.length < (s1.cd.ladle ++ frameGroups x.n ([w] ++ a ++ b ++ c)).length := by
    intro w a b c
    rw [hl]
    unfold frameGroups
    simp
  refine ⟨(s1.emitted_spec _ _ _ _ _).1, (s1.emitted_spec _ _ _ _ _).2.1.trans (by rw [hr]),
    Nat.lt_of_lt_of_le ?_ (s1.emitted_spec _ _ _ _ _).2.2.1, (s1.emitted_spec _ _ _ _ _).2.2.2.trans (he.trans hs.2.2)⟩
  exact hgs _ _ _ _

/-- A SLICE_GAP in place of a frame (R48, R329). -/
theorem State.gapSlice_emits (s : State) (n cause : Nat) :
    (s.gapSlice n cause).run.lastEmitted = some n ∧ aloneGroup n (recGap n cause) ∈ (s.gapSlice n cause).cd.ladle ∧
      (s.gapSlice n cause).err.crit = s.err.crit := by
  have hemit : ∀ (c : Cd), c.ladle = s.cd.ladle ++ [aloneGroup n (recGap n cause)] →
      (((s.setCd c).errLoss s.activeDie cause).afterSlice n).run.lastEmitted = some n ∧
        aloneGroup n (recGap n cause) ∈ (((s.setCd c).errLoss s.activeDie cause).afterSlice n).cd.ladle ∧
        (((s.setCd c).errLoss s.activeDie cause).afterSlice n).err.crit = s.err.crit := by
    intro c hc
    have hf : ((s.setCd c).errLoss s.activeDie cause).framing = (s.setCd c).framing := State.errLossC_framing _ _ _ _
    unfold State.framing at hf
    simp only [Prod.mk.injEq] at hf
    obtain ⟨-, -, hl, he⟩ := hf
    obtain ⟨h1, -, h3, l, h4⟩ := ((s.setCd c).errLoss s.activeDie cause).afterSlice_spec n
    refine ⟨by rw [h1], ?_, by rw [h3, he, State.setCd_err]⟩
    rw [h4, hl, State.cd_setCd, hc]
    simp
  exact hemit _ rfl

/-! ### Draining -/

/-- No lost critical state, no switch-over (R320). -/
theorem State.settleCrit_none {s : State} (h : s.err.crit = none) : s.settleCrit = s := by
  unfold State.settleCrit
  rw [h]

section
variable {s : State} {x : SliceSt} {rest : List SliceSt} (hc : s.cd.closed = x :: rest) (hs : s.sound)
include hc hs

/-- A SOLO or LIMB emits the frame of its oldest closed slice (R216). -/
theorem sliceDrainStart_builds (hst : cdActive ≤ s.cd.st) (hno : s.shortOf x.n = false) (hr : s.role ≠ .head) :
    ∃ t, exec .sliceDrainStart s = .next t ∧ t.cd.closed = rest ∧
      t.run = { s.run.retire x.n with lastEmitted := some x.n } ∧ s.cd.ladle.length < t.cd.ladle.length := by
  obtain ⟨h1, h2, h3, h4⟩ := State.buildFrame_builds hc hs
  have hd : s.drainNext = s.buildFrame := by
    unfold State.drainNext
    rw [if_neg (Nat.not_lt.2 hst), hc]
    dsimp only
    rw [hno, if_neg (by decide), if_neg hr]
  refine ⟨s.buildFrame, ?_, h1, h2, h3⟩
  show Host.Outcome.next s.drainNext.settleCrit = _
  rw [hd, State.settleCrit_none h4]

/-- A HEAD starts that frame when its sources are ready (R223). -/
theorem headFrameStart_builds (hst : cdActive ≤ s.cd.st) (hno : s.shortOf x.n = false) (hr : s.role = .head)
    (hh : s.headReady x.n = true) :
    ∃ t, exec .headFrameStart s = .next t ∧ t.cd.closed = rest ∧
      t.run = { s.run.retire x.n with lastEmitted := some x.n } ∧ s.cd.ladle.length < t.cd.ladle.length := by
  obtain ⟨h1, h2, h3, h4⟩ := State.buildFrame_builds hc hs
  have hd : s.startHeadFrame = s.buildFrame := by
    unfold State.startHeadFrame
    rw [hc]
    dsimp only
    rw [if_pos ⟨hr, hst, hh, by rw [hno]; rfl⟩]
  refine ⟨s.buildFrame, ?_, h1, h2, h3⟩
  show Host.Outcome.next s.startHeadFrame.settleCrit = _
  rw [hd, State.settleCrit_none h4]

/-- Where a restart fell short of the slice it becomes a SLICE_GAP (R329). -/
theorem sliceDrainStart_gap (hst : cdActive ≤ s.cd.st) (hsh : s.shortOf x.n = true) :
    ∃ t, exec .sliceDrainStart s = .next t ∧ t.run.lastEmitted = some x.n ∧
      aloneGroup x.n (recGap x.n 11) ∈ t.cd.ladle := by
  obtain ⟨h1, h2, h3⟩ := s.gapSlice_emits x.n 11
  have hd : s.drainNext = s.gapSlice x.n 11 := by
    unfold State.drainNext
    rw [if_neg (Nat.not_lt.2 hst), hc]
    dsimp only
    rw [hsh, if_pos rfl]
  refine ⟨s.gapSlice x.n 11, ?_, h1, h2⟩
  show Host.Outcome.next s.drainNext.settleCrit = _
  rw [hd, State.settleCrit_none (h3.trans hs.2.2)]

end

/-! ### THROTTLE -/

/-- The effect of a write of SLC_THROTTLE that is taken (R231). -/
def State.throttled (s : State) (data : W32) (be : BitVec 4) : State :=
  let t := s.storeFields (s.phys Reg.SLC_THROTTLE) (mergeBE (s.reg Reg.SLC_THROTTLE) data be)
  t.eventIf t.ladderClamped Reg.SLC_EVT [4]

section
variable (s : State) (data : W32) (be : BitVec 4)

theorem State.throttled_resp : (s.throttled data be).resp = s.resp :=
  (State.eventIf_resp _ _ _ _).trans (s.storeFields_resp _ _)
theorem State.throttled_lanes : (s.throttled data be).lanes = s.lanes :=
  (State.eventIf_lanes _ _ _ _).trans (s.storeFields_lanes _ _)
theorem State.throttled_rd : (s.throttled data be).rd = s.rd :=
  (State.eventIf_rd _ _ _ _).trans (s.storeFields_rd _ _)
theorem State.throttled_cda : (s.throttled data be).cda = s.cda :=
  (State.eventIf_cda _ _ _ _).trans (s.storeFields_cda _ _)
theorem State.throttled_cdb : (s.throttled data be).cdb = s.cdb :=
  (State.eventIf_cdb _ _ _ _).trans (s.storeFields_cdb _ _)

theorem State.throttled_regAt (k : Nat) : (s.throttled data be).regAt k =
    (s.storeFields (s.phys Reg.SLC_THROTTLE) (mergeBE (s.reg Reg.SLC_THROTTLE) data be)).regAt k :=
  State.regAt_congr (State.eventIf_regs _ _ _ _) k

/-- A write that is answered OK, or with an uncorrectable word, has stored. -/
theorem State.throttleWrite_ok (h : (s.throttleWrite data be).status = Stat.ok ∨
    (s.throttleWrite data be).status = Stat.uncorrectable) : s.throttleWrite data be = .done (s.throttled data be) := by
  unfold State.throttleWrite State.guarded at h ⊢
  dsimp only at h ⊢
  split at h
  · next hb => cases hb
  · split at h
    · exact absurd h (show ¬(Stat.locked = Stat.ok ∨ Stat.locked = Stat.uncorrectable) by decide)
    · split at h
      · exact absurd h (show ¬(Stat.stateReject = Stat.ok ∨ Stat.stateReject = Stat.uncorrectable) by decide)
      · next hb hl ha =>
        rw [if_neg hb, if_neg hl, if_neg ha]
        rfl

theorem State.throttleWrite_open {s : State} (hl : s.lockMask (s.phys Reg.SLC_THROTTLE) = 0)
    (hc : s.allows .throttleFlush = true) : s.throttleWrite data be = .done (s.throttled data be) := by
  unfold State.throttleWrite State.guarded
  dsimp only
  rw [s.lockHit_of_unlocked hl, hc]
  rfl

/-- The two CDs hold SLC_THROTTLE at places of their own (R411). -/
theorem State.phys_flipCd : s.flipCd.phys Reg.SLC_THROTTLE ≠ s.phys Reg.SLC_THROTTLE := by
  have h : s.flipCd.rd.activeB = !s.rd.activeB := rfl
  unfold State.phys
  rw [h]
  cases s.rd.activeB <;> decide

theorem Rep.st_done (t : State) : (Rep.done t).st = t := rfl

/-- A write that is done in the active CD is done in the other CD as well, or in it alone (R412). -/
theorem Rep.mirrored_done (t : State) (again : State → Rep) : (Rep.done t).mirrored again = .done t ∨
    ((again t.flipCd).status = Stat.ok ∨ (again t.flipCd).status = Stat.uncorrectable) ∧
      (Rep.done t).mirrored again = .done (again t.flipCd).st.flipCd := by
  unfold Rep.mirrored
  split
  · dsimp only
    split
    · next hq => exact Or.inr ⟨hq, rfl⟩
    · exact Or.inl rfl
  · exact Or.inl rfl

/-- What a write of SLC_THROTTLE by nibble 2 leaves (R412): the active CD's copy is stored, and nothing of the request's
bookkeeping or of the CDs' own state moves. -/
structure State.Throttles (s : State) (data : W32) (be : BitVec 4) (u : State) : Prop where
  resp : u.resp = s.resp
  lanes : u.lanes = s.lanes
  cd : u.cd = s.cd
  active : u.rd.activeB = s.rd.activeB
  word : u.regAt (s.phys Reg.SLC_THROTTLE) = (s.throttled data be).regAt (s.phys Reg.SLC_THROTTLE)

theorem State.throttled_throttles : s.Throttles data be (s.throttled data be) where
  resp := s.throttled_resp data be
  lanes := s.throttled_lanes data be
  cd := State.cd_congr (congrArg Rd.activeB (s.throttled_rd data be)) (s.throttled_cda data be) (s.throttled_cdb data be)
  active := congrArg Rd.activeB (s.throttled_rd data be)
  word := rfl

theorem State.flipCd_regAt (k : Nat) : s.flipCd.regAt k = s.regAt k := rfl
theorem State.flipCd_resp : s.flipCd.resp = s.resp := rfl
theorem State.flipCd_lanes : s.flipCd.lanes = s.lanes := rfl
theorem State.flipCd_cda : s.flipCd.cda = s.cda := rfl
theorem State.flipCd_cdb : s.flipCd.cdb = s.cdb := rfl
theorem State.flipCd_activeB : s.flipCd.rd.activeB = !s.rd.activeB := rfl

/-- The other CD's copy is another register (R411, R412). -/
theorem State.throttled_both : s.Throttles data be ((s.throttled data be).flipCd.throttled data be).flipCd := by
  have hrd := s.throttled_rd data be
  have hphys : (s.throttled data be).flipCd.phys Reg.SLC_THROTTLE ≠ s.phys Reg.SLC_THROTTLE := by
    have hp : (s.throttled data be).phys Reg.SLC_THROTTLE = s.phys Reg.SLC_THROTTLE := by
      unfold State.phys
      rw [hrd]
    rw [← hp]
    exact State.phys_flipCd _
  have hx : ((s.throttled data be).flipCd.throttled data be).flipCd.rd.activeB = s.rd.activeB := by
    rw [State.flipCd_activeB, State.throttled_rd, State.flipCd_activeB, Bool.not_not, hrd]
  refine ⟨?_, ?_, State.cd_congr hx ?_ ?_, hx, ?_⟩
  · rw [State.flipCd_resp, State.throttled_resp, State.flipCd_resp, State.throttled_resp]
  · rw [State.flipCd_lanes, State.throttled_lanes, State.flipCd_lanes, State.throttled_lanes]
  · rw [State.flipCd_cda, State.throttled_cda, State.flipCd_cda, State.throttled_cda]
  · rw [State.flipCd_cdb, State.throttled_cdb, State.flipCd_cdb, State.throttled_cdb]
  · rw [State.flipCd_regAt, State.throttled_regAt, State.regAt_storeFields, if_neg (Ne.symm hphys), State.flipCd_regAt]

theorem State.throttleAlias_open {s : State} (hl : s.lockMask (s.phys Reg.SLC_THROTTLE) = 0)
    (hc : s.allows .throttleFlush = true) : ∃ u, s.throttleAlias data be = .done u ∧ s.Throttles data be u := by
  have hboth := s.throttled_both data be
  have hself := s.throttled_throttles data be
  unfold State.throttleAlias
  rw [State.throttleWrite_open data be hl hc]
  generalize s.throttled data be = t at hboth hself ⊢
  rcases Rep.mirrored_done t (fun t => t.throttleWrite data be) with h | ⟨hq, h⟩
  · exact ⟨t, h, hself⟩
  · rw [State.throttleWrite_ok _ _ _ hq, Rep.st_done] at h
    exact ⟨(t.flipCd.throttled data be).flipCd, h, hboth⟩

end

/-- FORCE_LEVEL and FORCE_STEP are inside the bits of SLC_THROTTLE that a write stores. -/
theorem storeMask_throttle (s : State) (i : Nat) (h : i ≤ 2 ∨ (4 ≤ i ∧ i ≤ 6)) :
    (BitVec.ofNat 32 (storeMask (s.phys Reg.SLC_THROTTLE))).getLsbD i = true := by
  have hm : storeMask (s.phys Reg.SLC_THROTTLE) = 0x77 := by
    unfold State.phys
    cases s.rd.activeB <;> decide
  rw [hm]
  rcases h with h | ⟨h, h'⟩
  · interval_cases i <;> rfl
  · interval_cases i <;> rfl

/-- A served THROTTLE stores its force and level fields (R231). -/
theorem throttle_acts {s : State} {lane : Lane} {data : W32} {be : BitVec 4} (hs : s.serves lane Reg.SLC_THROTTLE = true)
    (hb : be ≠ 0) (hc : s.allows .throttleFlush = true) (hl : s.lockMask (s.phys Reg.SLC_THROTTLE) = 0) :
    ∃ t, exec (.throttle lane data be) s = .next t ∧ s.replied t lane Reg.SLC_THROTTLE Stat.ok 0 ∧
      t.fld Reg.SLC_THROTTLE 2 0 = bits (mergeBE (s.reg Reg.SLC_THROTTLE) data be) 2 0 ∧
      t.fld Reg.SLC_THROTTLE 6 4 = bits (mergeBE (s.reg Reg.SLC_THROTTLE) data be) 6 4 ∧ t.cd = s.cd := by
  have hp : (s.got lane).phys Reg.SLC_THROTTLE = s.phys Reg.SLC_THROTTLE := s.phys_got _ _
  obtain ⟨u, hact, ⟨hre, hla, hcd, hrd, hreg⟩⟩ := State.throttleAlias_open (s := s.got lane) data be
    (by rw [hp, State.lockMask_got, hl]) (by rw [State.allows_got, hc])
  have hact' : (fun t : State => t.throttleAlias data be) (s.got lane) = .done u := hact
  have hgrd : (s.got lane).rd = s.rd := State.countLane_rd _ _ _ _
  have hgcd : (s.got lane).cd = s.cd := State.cd_congr (congrArg Rd.activeB hgrd) (State.countLane_cda _ _ _ _)
    (State.countLane_cdb _ _ _ _)
  rw [State.throttled_regAt, hp, s.reg_got lane (by decide), State.regAt_storeFields, if_pos rfl] at hreg
  have hword : (u.finish lane Reg.SLC_THROTTLE Stat.ok 0).reg Reg.SLC_THROTTLE = u.regAt (s.phys Reg.SLC_THROTTLE) := by
    have hph : (u.finish lane Reg.SLC_THROTTLE Stat.ok 0).phys Reg.SLC_THROTTLE = s.phys Reg.SLC_THROTTLE := by
      unfold State.phys
      rw [State.finish_rd, hrd, hgrd]
    unfold State.reg
    rw [hph]
    refine State.regAt_finish _ _ _ _ _ ?_
    unfold State.phys
    cases s.rd.activeB <;> decide
  refine ⟨u.finish lane Reg.SLC_THROTTLE Stat.ok 0, congrArg Host.Outcome.next (State.accessW_done hs hb hact'),
    ?_, ?_, ?_, ?_⟩
  · refine State.replied_finish (by rw [hre, State.resp_got]) ?_ _ _ _
    unfold State.lane
    rw [hla]
    exact congrArg LaneSt.e (s.lane_got lane lane)
  · unfold State.fld
    rw [hword, hreg]
    exact bits_stored _ _ _ (fun i _ h => storeMask_throttle s i (Or.inl h))
  · unfold State.fld
    rw [hword, hreg]
    exact bits_stored _ _ _ (fun i h h' => storeMask_throttle s i (Or.inr ⟨h, h'⟩))
  · refine Eq.trans ?_ (hcd.trans hgcd)
    exact State.cd_congr (congrArg Rd.activeB (State.finish_rd _ _ _ _ _)) (State.finish_cda _ _ _ _ _)
      (State.finish_cdb _ _ _ _ _)

/-- Settles O30: one lemma for each command and case. -/
theorem slicesOpenCloseAndDrain : Obligations.SlicesOpenCloseAndDrain := by
  unfold Obligations.SlicesOpenCloseAndDrain
  refine ⟨fun s ha => ⟨?_, ?_, ?_⟩, fun x rest s => sliceClose_acts, fun x rest s hc hs hst => ⟨?_, ?_, ?_⟩,
    fun x s => peerDeadline_acts, fun awaiting s => pressureSample_acts awaiting, fun lane data be s => throttle_acts⟩
  · exact fun hl hm ho => sliceOpen_next ha hl hm ho
  · exact fun hl hm ho => sliceOpen_first ha hl hm ho
  · exact fun l hl hd hm ht he => sliceOpen_past ha hl hd hm ht he
  · exact fun hno hr => sliceDrainStart_builds hc hs hst hno hr
  · exact fun hno hr hh => headFrameStart_builds hc hs hst hno hr hh
  · exact fun hsh => sliceDrainStart_gap hc hs hst hsh

end Sys2Proof.Machine
end

section
/-! What reads of the NVD leave: registers of the map, redundancy, both CDs and the running command (R57, R334). -/

namespace Sys2Proof.Machine

/-- A register of the map, redundancy, both CDs and the running NVD command. -/
def State.mapped (a : Nat) (s : State) : W32 × Rd × Cd × Cd × Option (NvdOp × Bool) :=
  (s.regAt a, s.rd, s.cda, s.cdb, s.nvd.busy)

theorem State.mapped_iff {a : Nat} {s t : State} : t.mapped a = s.mapped a ↔
    t.regAt a = s.regAt a ∧ t.rd = s.rd ∧ t.cda = s.cda ∧ t.cdb = s.cdb ∧ t.nvd.busy = s.nvd.busy := by
  unfold State.mapped
  simp only [Prod.mk.injEq]

section
variable {a : Nat} (ha : a < 0x1000000) (s : State)
include ha

theorem State.regAt_countUncorr (d : Die) (m i c : Nat) (e : List Nat) : (s.countUncorr d m i c e).regAt a = s.regAt a := by
  have hne : ∀ b, a ≠ instKey b m := fun b => Nat.ne_of_lt (Nat.lt_of_lt_of_le ha (instKey_ge b m))
  unfold State.countUncorr
  extract_lets s1 s2
  have h2 : s2.regAt a = s.regAt a := by
    rw [show s2 = State.eventAt _ _ _ from rfl, State.regAt_eventAt, State.regAt_setRegAt_ne _ (hne _)]
    exact s.regAt_countAt_ne (hne _) _ _
  clear_value s2
  refine ite_keeps (fun t : State => t.regAt a) _ ?_ ?_
  · exact (State.regAt_congr (by rw [State.errEntry_regs, State.draw_regs]) a).trans h2
  · exact (State.regAt_congr (State.errEntry_regs _ _ _ _ _ _) a).trans h2

theorem State.countUncorr_mapped (d : Die) (m i c : Nat) (e : List Nat) :
    (s.countUncorr d m i c e).mapped a = s.mapped a :=
  State.mapped_iff.2 ⟨s.regAt_countUncorr ha d m i c e, still_rd (s.countUncorr_still d m i c e),
    s.countUncorr_cda d m i c e, s.countUncorr_cdb d m i c e, congrArg Nvd.busy (still_nvd (s.countUncorr_still d m i c e))⟩

theorem State.countCorr_mapped (d : Die) (m : Nat) : (s.countCorr d m).mapped a = s.mapped a := by
  have hr : (s.countCorr d m).regAt a = s.regAt a := by
    unfold State.countCorr
    rw [State.regAt_eventAt, s.regAt_countAt_ne (Nat.ne_of_lt (Nat.lt_of_lt_of_le ha (instKey_ge _ _)))]
  have hs : (s.countCorr d m).still = s.still := by
    unfold State.countCorr
    rw [State.eventAt_still, State.countAt_still]
  have hcd : (s.countCorr d m).cda = s.cda ∧ (s.countCorr d m).cdb = s.cdb := by
    unfold State.countCorr
    rw [State.eventAt_cda, State.countAt_cda, State.eventAt_cdb, State.countAt_cdb]
    exact ⟨rfl, rfl⟩
  exact State.mapped_iff.2 ⟨hr, still_rd hs, hcd.1, hcd.2, congrArg Nvd.busy (still_nvd hs)⟩

omit ha in
theorem State.takeRaw_nvd_mapped (i : Nat) : (s.takeRaw .hbd 0x04 i).mapped a = s.mapped a := by
  unfold State.takeRaw
  split <;> rfl

theorem State.memReadC_nvd_mapped (i c : Nat) : (s.memReadC .hbd 0x04 i c).2.mapped a = s.mapped a := by
  unfold State.memReadC
  split
  · exact s.takeRaw_nvd_mapped i
  · exact (State.countCorr_mapped ha _ _ _).trans (s.takeRaw_nvd_mapped i)
  · exact (State.countUncorr_mapped ha _ _ _ _ _ _).trans rfl

theorem State.nvdReads_mapped (b n : Nat) : (s.nvdReads b n).2.mapped a = s.mapped a := by
  unfold State.nvdReads State.readRange
  extract_lets idx
  refine foldl_snd_keeps (State.mapped a) ?_ idx (true, s)
  exact fun x i => x.2.memReadC_nvd_mapped ha i 0

end

/-! ### Reading a slot -/

section
variable {γ : Type} (π : State → γ) (h : ∀ (s : State) (b n : Nat), π (s.nvdReads b n).2 = π s) (s : State)
include h

/-- What every read of the NVD leaves, the section checks leave (R64). -/
theorem State.checkSections_keeps (base length : Nat) (ss : List Section) :
    π (s.checkSections base length ss).2 = π s := by
  unfold State.checkSections
  extract_lets r missing
  have hr : π r.2.2 = π s := by
    refine foldl_keeps (fun x : Nat × Option (Nat × Bool) × State => π x.2.2) (fun x y => ?_) ss (0, none, s)
    dsimp only
    split
    · exact h _ _ _
    · rfl
  clear_value r missing
  split
  · exact hr
  · exact hr

/-- The same of the reading of a slot (R63, R64). -/
theorem State.readSlot_keeps (b : Bool) : π (s.readSlot b).st = π s := by
  unfold State.readSlot
  extract_lets base r
  have hr : π r.2 = π s := h _ _ _
  clear_value r
  split
  · exact hr
  · next x _ =>
    extract_lets t ss c
    have ht : π t.2 = π s := (h r.2 _ _).trans hr
    have hc : π c.2 = π s := (State.checkSections_keeps π h t.2 _ _ _).trans ht
    clear_value t ss c
    split
    · exact ht
    · split
      · exact hc
      · exact hc

/-- The same of SLOT_VERIFY's reading (R75). -/
theorem State.verifySlot_keeps (b : Bool) : π (s.verifySlot b).2.2 = π s := by
  unfold State.verifySlot
  extract_lets base r
  have hr : π r.2 = π s := h _ _ _
  clear_value r
  split
  · exact hr
  · split
    · exact hr
    · next x _ =>
      extract_lets t ss c
      have ht : π t.2 = π s := (h r.2 _ _).trans hr
      have hc : π c.2 = π s := (State.checkSections_keeps π h t.2 _ _ _).trans ht
      clear_value t ss c
      split
      · exact ht
      · split
        · exact hc
        · split
          · exact hc
          · exact hc

end

/-- The result of SLOT_VERIFY is one of the five codes (R75). -/
theorem State.verifySlot_code (s : State) (b : Bool) : (s.verifySlot b).1 ≤ 4 := by
  unfold State.verifySlot
  extract_lets base r
  clear_value r
  split
  · exact Nat.le_refl 4
  · split
    · exact Nat.le_of_ble_eq_true rfl
    · extract_lets t ss c
      clear_value t ss c
      split
      · exact Nat.le_refl 4
      · split
        · dsimp only
          split
          · exact Nat.le_refl 4
          · exact Nat.le_of_ble_eq_true rfl
        · split
          · exact Nat.le_of_ble_eq_true rfl
          · exact Nat.le_of_ble_eq_true rfl

end Sys2Proof.Machine
end

section
/-! O22: the commands of HK_NVD_CMD start and end, and window 0xD writes words of a slot (R56, R60, R74, R75, R80, R81). -/

namespace Sys2Proof.Machine

/-! ### A command of HK_NVD_CMD starts -/

/-- The code of an NVD command (R75, R80). -/
def NvdOp.code : NvdOp → Nat
  | .invalidate => 1
  | .verify => 2
  | .prefer => 3
  | .commit => 4

/-- Beside an idle NVD and no lock, what a command of a slot asks for (R50, R75, R80). -/
def State.nvdTakes (s : State) (slot : Bool) : NvdOp → Prop
  | .invalidate | .verify => s.allows .nvdSlot = true ∧ s.loadedSlot slot = false
  | .prefer => s.allows .nvdSlot = true ∧ (if slot then s.nvd.verB else s.nvd.verA) = true
  | .commit => s.allows .calSet = true ∧ s.calibBusy = false

/-- The NVD in which a command runs; a commit has taken the live set (R80). -/
def State.nvdRunning (s : State) (slot : Bool) (x : NvdOp) : Nvd :=
  match x with
  | .commit => { s.nvd with busy := some (.commit, slot), snap := some s.cal }
  | x => { s.nvd with busy := some (x, slot) }

/-- The state in which a command runs: its word is stored and its code shows. -/
def State.nvdStarted (s : State) (slot : Bool) (x : NvdOp) : State :=
  { ((s.storeFields Reg.HK_NVD_CMD (nvdCmdWord x.code slot)).setFld Reg.HK_NVD_CMD 3 0 x.code) with
    nvd := s.nvdRunning slot x }

theorem bits_nvdCmdWord (x : NvdOp) (slot : Bool) : bits (nvdCmdWord x.code slot) 3 0 = x.code := by
  cases x <;> cases slot <;> rfl

theorem bitOf_nvdCmdWord (x : NvdOp) (slot : Bool) : bitOf (nvdCmdWord x.code slot) 8 = slot := by
  cases x <;> cases slot <;> rfl

/-- A command that nothing stands in the way of starts. -/
theorem State.nvdCmdWrite_open {s : State} (hl : s.lockMask Reg.HK_NVD_CMD = 0) (hb : s.nvd.busy = none) {slot : Bool}
    {x : NvdOp} (h : s.nvdTakes slot x) :
    s.nvdCmdWrite (nvdCmdWord x.code slot) 0xF = .done (s.nvdStarted slot x) := by
  unfold State.nvdCmdWrite
  dsimp only
  rw [mergeBE_all, bits_nvdCmdWord, bitOf_nvdCmdWord, s.lockHit_of_unlocked hl, hb]
  cases x with
  | invalidate =>
    obtain ⟨hc, hn⟩ := h
    rw [hn]
    exact s.guarded_open hc _
  | verify =>
    obtain ⟨hc, hn⟩ := h
    rw [hn]
    exact s.guarded_open hc _
  | prefer =>
    obtain ⟨hc, hv⟩ := h
    rw [hv]
    exact s.guarded_open hc _
  | commit =>
    obtain ⟨hc, hw⟩ := h
    rw [hw]
    exact s.guarded_open hc _

theorem State.nvd_got (s : State) (lane : Nat) : (s.got lane).nvd = s.nvd := State.countLane_nvd _ _ _ _

theorem State.loadedSlot_got (s : State) (lane : Nat) (b : Bool) : (s.got lane).loadedSlot b = s.loadedSlot b := by
  unfold State.loadedSlot
  rw [s.bit_got lane 7 (by decide), s.bit_got lane 6 (by decide)]

theorem State.calibBusy_got (s : State) (lane : Nat) : (s.got lane).calibBusy = s.calibBusy := by
  have ht : (s.got lane).tdc = s.tdc := State.countLane_tdc _ _ _ _
  have hr : (s.got lane).ring = s.ring := State.countLane_ring _ _ _ _
  unfold State.calibBusy
  rw [State.hk_got, State.fe_got, ht, hr]

theorem State.nvdTakes_got (s : State) (lane : Nat) (slot : Bool) (x : NvdOp) :
    (s.got lane).nvdTakes slot x ↔ s.nvdTakes slot x := by
  cases x <;> simp only [State.nvdTakes, State.allows_got, State.loadedSlot_got, State.nvd_got, State.calibBusy_got]

theorem State.nvdRunning_got (s : State) (lane : Nat) (slot : Bool) (x : NvdOp) :
    (s.got lane).nvdRunning slot x = s.nvdRunning slot x := by
  have hc : (s.got lane).cal = s.cal := State.countLane_cal _ _ _ _
  cases x <;> simp only [State.nvdRunning, State.nvd_got, hc]

theorem State.nvdStarted_resp (s : State) (slot : Bool) (x : NvdOp) : (s.nvdStarted slot x).resp = s.resp := rfl

theorem State.nvdStarted_lane (s : State) (slot : Bool) (x : NvdOp) (n : Nat) : (s.nvdStarted slot x).lane n = s.lane n := rfl

theorem State.nvdStarted_nvd (s : State) (slot : Bool) (x : NvdOp) : (s.nvdStarted slot x).nvd = s.nvdRunning slot x := rfl

/-- The code of the command shows. -/
theorem State.nvdStarted_fld (s : State) (slot : Bool) (x : NvdOp) :
    (s.nvdStarted slot x).fld Reg.HK_NVD_CMD 3 0 = x.code := by
  have h := State.fld_setFld (s.storeFields Reg.HK_NVD_CMD (nvdCmdWord x.code slot)) Reg.HK_NVD_CMD (hi := 3) (lo := 0)
    (by decide) (by decide) x.code
  refine Eq.trans h ?_
  cases x <;> rfl

/-- A served command that starts: the response, the NVD in which it runs, and its code (R75). -/
theorem State.access_nvdStarts {s : State} {lane : Nat} (hs : s.serves lane Reg.HK_NVD_CMD = true)
    (hl : s.lockMask Reg.HK_NVD_CMD = 0) (hb : s.nvd.busy = none) {slot : Bool} {x : NvdOp} (h : s.nvdTakes slot x)
    {act : State → Rep} (ha : act (s.got lane) = (s.got lane).nvdCmdWrite (nvdCmdWord x.code slot) 0xF) :
    ∃ t, Host.Outcome.next (s.access lane Reg.HK_NVD_CMD act) = (.next t : Outcm) ∧
      s.replied t lane Reg.HK_NVD_CMD Stat.ok 0 ∧ t.nvd = s.nvdRunning slot x ∧ t.fld Reg.HK_NVD_CMD 3 0 = x.code := by
  have hopen := State.nvdCmdWrite_open (s := s.got lane) (by rw [State.lockMask_got, hl]) (by rw [State.nvd_got, hb])
    ((s.nvdTakes_got lane slot x).2 h)
  refine ⟨((s.got lane).nvdStarted slot x).finish lane Reg.HK_NVD_CMD Stat.ok 0,
    congrArg Host.Outcome.next (State.access_done hs (ha.trans hopen)), ?_, ?_, ?_⟩
  · exact State.replied_finish (by rw [State.nvdStarted_resp, State.resp_got])
      (by rw [State.nvdStarted_lane, State.lane_got]) _ _ _
  · rw [State.nvd_finish, State.nvdStarted_nvd, State.nvdRunning_got]
  · unfold State.fld
    rw [State.reg_finish _ _ _ _ _ (by decide) (by decide)]
    exact State.nvdStarted_fld _ slot x

/-! ### Fields of one register under a write of another field, and of another register -/

theorem State.fld_setFld_below (s : State) (a : Nat) {hi lo hi' lo' : Nat} (h : hi < 32) (hl : lo ≤ hi) (hb : hi' < lo)
    (v : Nat) : (s.setFld a hi lo v).fld a hi' lo' = s.fld a hi' lo' := by
  unfold State.fld State.setFld State.setReg State.reg
  rw [State.phys_setRegAt, State.regAt_setRegAt, if_pos rfl, bits_putBits_below _ h hl hb]

theorem State.fld_setFld_above (s : State) (a : Nat) {hi lo hi' lo' : Nat} (h : hi < 32) (hl : lo ≤ hi) (hb : hi < lo')
    (v : Nat) : (s.setFld a hi lo v).fld a hi' lo' = s.fld a hi' lo' := by
  unfold State.fld State.setFld State.setReg State.reg
  rw [State.phys_setRegAt, State.regAt_setRegAt, if_pos rfl, bits_putBits_above _ h hl hb]

/-- A field of a register outside nibble 2 stands through a write of another register there. -/
theorem State.fld_setFld_ne (s : State) {a b : Nat} (ha : a / 0x100000 ≠ 2) (hb : b / 0x100000 ≠ 2) (h : b ≠ a)
    (hi lo hi' lo' v : Nat) : (s.setFld a hi lo v).fld b hi' lo' = s.fld b hi' lo' := by
  unfold State.fld
  rw [State.reg_of_die _ hb, State.reg_of_die _ hb]
  unfold State.setFld State.setReg
  rw [s.phys_of_die_ne_two ha, State.regAt_setRegAt_ne _ h]

theorem State.fld_congr {s t : State} {a : Nat} (h : t.reg a = s.reg a) (hi lo : Nat) : t.fld a hi lo = s.fld a hi lo := by
  unfold State.fld
  rw [h]

theorem State.bit_eq_fld (s : State) (a i : Nat) : s.bit a i = decide (s.fld a i i = 1) := bitOf_eq_bits _ _

/-! ### A command of HK_NVD_CMD ends -/

/-- The command has ended: its code is gone and the NVD is idle (R75). -/
def State.nvdEnded (s : State) : State := { (s.setFld Reg.HK_NVD_CMD 3 0 0) with nvd := { s.nvd with busy := none } }

/-- HK_NVD_STS shows a result and the section it is about (R75). -/
def State.nvdResult (s : State) (res sec : Nat) : State :=
  (s.setFld Reg.HK_NVD_STS 7 4 res).setFld Reg.HK_NVD_STS 12 8 sec

theorem State.nvdEnded_code (s : State) : s.nvdEnded.fld Reg.HK_NVD_CMD 3 0 = 0 :=
  State.fld_setFld s Reg.HK_NVD_CMD (hi := 3) (lo := 0) (by decide) (by decide) 0

theorem State.nvdEnded_busy (s : State) : s.nvdEnded.nvd.busy = none := rfl

theorem State.nvdEnded_words (s : State) : s.nvdEnded.nvd.words = s.nvd.words := rfl

theorem State.nvdResult_nvd (s : State) (res sec : Nat) : (s.nvdResult res sec).nvd = s.nvd := rfl

/-- A field of another register stands through the result. -/
theorem State.fld_nvdResult (s : State) (res sec : Nat) {a : Nat} (ha : a / 0x100000 ≠ 2) (h : a ≠ Reg.HK_NVD_STS)
    (hi lo : Nat) : (s.nvdResult res sec).fld a hi lo = s.fld a hi lo := by
  unfold State.nvdResult
  rw [State.fld_setFld_ne _ (by decide) ha h, State.fld_setFld_ne _ (by decide) ha h]

theorem State.nvdResult_res (s : State) (res sec : Nat) : (s.nvdResult res sec).fld Reg.HK_NVD_STS 7 4 = res % 16 := by
  unfold State.nvdResult
  rw [State.fld_setFld_below _ _ (by decide) (by decide) (by decide), State.fld_setFld _ _ (by decide) (by decide)]
  rfl

theorem State.nvdResult_sec (s : State) (res sec : Nat) : (s.nvdResult res sec).fld Reg.HK_NVD_STS 12 8 = sec % 32 := by
  unfold State.nvdResult
  rw [State.fld_setFld _ _ (by decide) (by decide)]
  rfl

/-- What a command leaves when its work has kept HK_NVD_CMD and the idle NVD. -/
theorem State.nvdResult_ended {s u : State} (hr : u.reg Reg.HK_NVD_CMD = s.nvdEnded.reg Reg.HK_NVD_CMD) (res sec : Nat) :
    (u.nvdResult res sec).fld Reg.HK_NVD_CMD 3 0 = 0 := by
  rw [State.fld_nvdResult _ _ _ (by decide) (by decide), State.fld_congr hr, State.nvdEnded_code]

section
variable {s : State} {b : Bool}

theorem execNvdCommandDone_invalidate (h : s.nvd.busy = some (.invalidate, b)) : exec .nvdCommandDone s =
    .next ((s.nvdEnded.invalidate b).2.nvdResult (s.nvdEnded.invalidate b).1 31) := by
  unfold exec execNvdCommandDone
  rw [h]
  rfl

theorem execNvdCommandDone_verify (h : s.nvd.busy = some (.verify, b)) : exec .nvdCommandDone s =
    .next ((if (s.nvdEnded.verifySlot b).1 = 0 then (s.nvdEnded.verifySlot b).2.2.setVerified b true
      else (s.nvdEnded.verifySlot b).2.2.event Reg.HK_CFG_EVT [2]).nvdResult (s.nvdEnded.verifySlot b).1
        (s.nvdEnded.verifySlot b).2.1) := by
  unfold exec execNvdCommandDone
  rw [h]
  rfl

theorem execNvdCommandDone_prefer (h : s.nvd.busy = some (.prefer, b)) :
    exec .nvdCommandDone s = .next ((s.nvdEnded.prefer b).nvdResult 0 31) := by
  unfold exec execNvdCommandDone
  rw [h]
  rfl

theorem execNvdCommandDone_commit (h : s.nvd.busy = some (.commit, b)) :
    exec .nvdCommandDone s = .next (s.nvdEnded.commit.nvdResult 0 31) := by
  unfold exec execNvdCommandDone
  rw [h]
  rfl

end

/-! ### What each command has done -/

theorem State.withNvd_reg (s : State) (v : Nvd) (a : Nat) : ({ s with nvd := v }).reg a = s.reg a := rfl

theorem Nvd.put_busy (v : Nvd) (a : Nat) (w : W64) : (v.put a w).busy = v.busy := rfl

theorem State.setVerified_mark (s : State) (b v : Bool) :
    (if b then (s.setVerified b v).nvd.verB else (s.setVerified b v).nvd.verA) = v := by
  cases b <;> rfl

theorem State.setVerified_words (s : State) (b v : Bool) : (s.setVerified b v).nvd.words = s.nvd.words := by
  cases b <;> rfl

theorem State.setVerified_busy (s : State) (b v : Bool) : (s.setVerified b v).nvd.busy = s.nvd.busy := by
  cases b <;> rfl

theorem State.setVerified_reg (s : State) (b v : Bool) (a : Nat) : (s.setVerified b v).reg a = s.reg a := by
  cases b <;> rfl

/-- A narrow write merges with a clean word (R336). -/
theorem State.memMerge_clean {s : State} {d : Die} {mem idx : Nat} (h : s.clean d mem idx = true) :
    s.memMerge d mem idx = (true, s) := by
  obtain ⟨hr, hb⟩ := (s.clean_iff d mem idx).1 h
  unfold State.memMerge State.memRead State.memReadC State.takeRaw
  rw [hb, hr]
  rfl

/-- The state with a slot's header word cut and its mark gone (R75). -/
def State.invalidated (s : State) (b : Bool) : State :=
  ({ s with nvd := s.nvd.put (slotBase b) (putBits (s.nvd.word (slotBase b)) 31 0 0) }).setVerified b false

theorem State.invalidated_reg (s : State) (b : Bool) (a : Nat) : (s.invalidated b).reg a = s.reg a :=
  (State.setVerified_reg _ _ _ _).trans (s.withNvd_reg _ a)

theorem State.invalidated_busy (s : State) (b : Bool) : (s.invalidated b).nvd.busy = s.nvd.busy :=
  (State.setVerified_busy _ _ _).trans (Nvd.put_busy _ _ _)

theorem State.invalidated_words (s : State) (b : Bool) : (s.invalidated b).nvd.words =
    Sparse.put 0 (slotBase b / 8) (putBits (s.nvd.word (slotBase b)) 31 0 0) s.nvd.words :=
  State.setVerified_words _ _ _

/-- SLOT_INVALIDATE of a slot whose header word is clean (R75). -/
theorem State.invalidate_clean {s : State} {b : Bool} (h : s.clean .hbd 0x04 (slotBase b / 8) = true) :
    s.invalidate b = (0, s.invalidated b) := by
  unfold State.invalidate
  dsimp only
  rw [State.memMerge_clean h]
  rfl

theorem nvdCommandDone_invalidates {s : State} {b : Bool} (hb : s.nvd.busy = some (.invalidate, b))
    (hw : s.clean .hbd 0x04 (slotBase b / 8) = true) :
    ∃ t, exec .nvdCommandDone s = .next t ∧ t.nvd.busy = none ∧
      t.nvd.words = Sparse.put 0 (slotBase b / 8) (putBits (s.nvd.word (slotBase b)) 31 0 0) s.nvd.words ∧
      (if b then t.nvd.verB else t.nvd.verA) = false ∧ t.fld Reg.HK_NVD_CMD 3 0 = 0 ∧ t.fld Reg.HK_NVD_STS 7 4 = 0 ∧
      t.fld Reg.HK_NVD_STS 12 8 = 31 := by
  have hi := State.invalidate_clean (s := s.nvdEnded) (b := b) hw
  have he := execNvdCommandDone_invalidate hb
  rw [hi] at he
  refine ⟨_, he, ?_, ?_, ?_, ?_, State.nvdResult_res _ _ _, State.nvdResult_sec _ _ _⟩
  · rw [State.nvdResult_nvd, State.invalidated_busy, State.nvdEnded_busy]
  · rw [State.nvdResult_nvd, State.invalidated_words]
    rfl
  · rw [State.nvdResult_nvd]
    exact State.setVerified_mark _ _ _
  · exact State.nvdResult_ended (State.invalidated_reg _ _ _) _ _

theorem nvdCommandDone_verifies {s : State} {b : Bool} (hb : s.nvd.busy = some (.verify, b)) :
    ∃ t, exec .nvdCommandDone s = .next t ∧ t.nvd.busy = none ∧ t.fld Reg.HK_NVD_CMD 3 0 = 0 ∧
      t.fld Reg.HK_NVD_STS 7 4 ≤ 4 ∧
      (t.fld Reg.HK_NVD_STS 7 4 = 0 → (if b then t.nvd.verB else t.nvd.verA) = true) := by
  have hk := State.verifySlot_keeps (State.mapped Reg.HK_NVD_CMD) (fun s => s.nvdReads_mapped (by decide)) s.nvdEnded b
  obtain ⟨hr, -, -, -, hbusy⟩ := State.mapped_iff.1 hk
  have hle : (s.nvdEnded.verifySlot b).1 ≤ 4 := s.nvdEnded.verifySlot_code b
  have hreg : (s.nvdEnded.verifySlot b).2.2.reg Reg.HK_NVD_CMD = s.nvdEnded.reg Reg.HK_NVD_CMD := by
    rw [State.reg_of_die _ (by decide), State.reg_of_die _ (by decide), hr]
  have he := execNvdCommandDone_verify hb
  generalize s.nvdEnded.verifySlot b = r at he hr hbusy hle hreg
  refine ⟨_, he, ?_, State.nvdResult_ended (s := s) ?_ _ _, ?_, ?_⟩
  · rw [State.nvdResult_nvd]
    refine (ite_keeps (fun u : State => u.nvd.busy) _ (State.setVerified_busy _ _ _) ?_).trans hbusy
    exact congrArg Nvd.busy (State.event_nvd _ _ _)
  · exact (ite_keeps (fun u : State => u.reg Reg.HK_NVD_CMD) _ (State.setVerified_reg _ _ _ _)
      (State.reg_event _ _ _ _)).trans hreg
  · rw [State.nvdResult_res]
    omega
  · rw [State.nvdResult_res, State.nvdResult_nvd]
    intro h0
    rw [if_pos (show r.1 = 0 by omega)]
    exact State.setVerified_mark _ _ _

/-- The word of a directory copy (R74; its bytes by log entry 124). -/
def prefWord (b : Bool) : W64 := BitVec.ofNat 64 (b2n b + (crc32c (leBytes 4 (b2n b))).toNat * 2 ^ 32)

/-- SLOT_PREFER writes the three copies (R75). -/
theorem State.prefer_words (s : State) (b : Bool) : (s.prefer b).nvd.words =
    Sparse.put 0 0x400 (prefWord b) (Sparse.put 0 0x200 (prefWord b) (Sparse.put 0 0 (prefWord b) s.nvd.words)) := rfl

theorem State.memClean_reg (s : State) (d : Die) (m i a : Nat) : (s.memClean d m i).reg a = s.reg a := rfl

/-- One directory copy is written (R75). -/
def State.copyPref (s : State) (w : W64) (i : Nat) : State :=
  ({ s with nvd := s.nvd.put (0x1000 * i) w }).memClean .hbd 0x04 (0x200 * i)

theorem State.prefer_eq (s : State) (b : Bool) :
    s.prefer b = [0, 1, 2].foldl (fun t i => t.copyPref (prefWord b) i) s := rfl

theorem State.prefer_reg (s : State) (b : Bool) (a : Nat) : (s.prefer b).reg a = s.reg a := by
  rw [State.prefer_eq]
  refine foldl_keeps (fun t : State => t.reg a) ?_ _ s
  exact fun t i => (State.memClean_reg _ _ _ _ a).trans (t.withNvd_reg _ a)

theorem State.prefer_busy (s : State) (b : Bool) : (s.prefer b).nvd.busy = s.nvd.busy := by
  rw [State.prefer_eq]
  refine foldl_keeps (fun t : State => t.nvd.busy) ?_ _ s
  exact fun t i => (congrArg Nvd.busy (State.memClean_nvd _ _ _ _)).trans (Nvd.put_busy _ _ _)

theorem nvdCommandDone_prefers {s : State} {b : Bool} (hb : s.nvd.busy = some (.prefer, b)) :
    ∃ t, exec .nvdCommandDone s = .next t ∧ t.nvd.busy = none ∧ (∀ i, i < 3 → t.nvd.word (0x1000 * i) = prefWord b) ∧
      (∀ j, j ≠ 0 → j ≠ 0x200 → j ≠ 0x400 → Sparse.get 0 t.nvd.words j = Sparse.get 0 s.nvd.words j) ∧
      t.fld Reg.HK_NVD_CMD 3 0 = 0 ∧ t.fld Reg.HK_NVD_STS 7 4 = 0 := by
  refine ⟨_, execNvdCommandDone_prefer hb, ?_, fun i hi => ?_, fun j h0 h1 h2 => ?_,
    State.nvdResult_ended (State.prefer_reg _ _ _) _ _, State.nvdResult_res _ _ _⟩
  · rw [State.nvdResult_nvd, State.prefer_busy, State.nvdEnded_busy]
  · unfold Nvd.word
    rw [State.nvdResult_nvd, State.prefer_words, Sparse.get_put, Sparse.get_put, Sparse.get_put]
    split
    · rfl
    · split
      · rfl
      · rw [if_pos (by omega)]
  · rw [State.nvdResult_nvd, State.prefer_words, Sparse.get_put, Sparse.get_put, Sparse.get_put, if_neg h2, if_neg h1,
      if_neg h0, State.nvdEnded_words]

theorem Nvd.putWords_busy (v : Nvd) (a : Nat) (ws : List W64) : (v.putWords a ws).busy = v.busy := by
  induction ws generalizing v a with
  | nil => rfl
  | cons w ws ih => exact ih _ _

/-- The state with another NVD, live set and attestation state. -/
def State.withSet (s : State) (v : Nvd) (k : Cal) (x : Att) : State := { s with nvd := v, cal := k, att := x }

theorem State.withSet_reg (s : State) (v : Nvd) (k : Cal) (x : Att) (a : Nat) : (s.withSet v k x).reg a = s.reg a := rfl

theorem State.withSet_nvd (s : State) (v : Nvd) (k : Cal) (x : Att) : (s.withSet v k x).nvd = v := rfl

theorem State.cleanRange_reg (s : State) (d : Die) (mem lo n a : Nat) : (s.cleanRange d mem lo n).reg a = s.reg a := rfl

/-- The header words that a commit writes (R80). -/
def State.committedHeader (s : State) (c : Cal) : List W64 :=
  commitHeader (s.nvd.num (calBase + 4) 2) (s.nvd.num (calBase + 8) 4) s.tb.sec s.nvd.serial c.body

/-- The NVD in which a set stands whole (R81). -/
def Nvd.sealed (v : Nvd) : Nvd := { v with snap := none, torn := false }

theorem Nvd.sealed_busy (v : Nvd) : v.sealed.busy = v.busy := rfl

/-- The NVD with the committed set, its header last and nothing of it torn (R80, R81). -/
def State.committedNvd (s : State) (c : Cal) : Nvd :=
  ((s.nvd.putWords (calBase + 0x40) c.body).putWords calBase (s.committedHeader c)).sealed

/-- The committed set stands in the NVD, with its header as the live one (R80). -/
def State.committed (s : State) (c : Cal) : State :=
  (s.cleanRange .hbd 0x04 (calBase / 8) 4664).withSet (s.committedNvd c)
    { s.cal with hdr := ((List.range 8).map (fun i => (i, nth 0 (s.committedHeader c) i))).filter (fun e => e.2 != 0) }
    { s.att with flags := s.att.flags ||| 1 }

/-- CAL_COMMIT's last step: the set is valid and has version 1 (R80). -/
theorem State.commit_of_snap {s : State} {c : Cal} (h : s.nvd.snap = some c) :
    s.commit = ((s.committed c).setFld Reg.HK_CFG_INFO 10 10 1).setFld Reg.HK_CFG_INFO 9 9 1 := by
  unfold State.commit
  rw [h]
  rfl

theorem State.committed_reg (s : State) (c : Cal) (a : Nat) : (s.committed c).reg a = s.reg a :=
  (State.withSet_reg _ _ _ _ a).trans (State.cleanRange_reg _ _ _ _ _ a)

theorem State.committed_nvd (s : State) (c : Cal) : (s.committed c).nvd = s.committedNvd c := State.withSet_nvd _ _ _ _

theorem State.committedNvd_busy (s : State) (c : Cal) : (s.committedNvd c).busy = s.nvd.busy := by
  unfold State.committedNvd
  rw [Nvd.sealed_busy, Nvd.putWords_busy, Nvd.putWords_busy]

theorem nvdCommandDone_commits {s : State} {b : Bool} {c : Cal} (hb : s.nvd.busy = some (.commit, b))
    (hc : s.nvd.snap = some c) :
    ∃ t, exec .nvdCommandDone s = .next t ∧ t.nvd.busy = none ∧ t.nvd.snap = none ∧ t.nvd.torn = false ∧
      t.bit Reg.HK_CFG_INFO 10 = true ∧ t.fld Reg.HK_CFG_INFO 9 9 = 1 ∧ t.fld Reg.HK_NVD_CMD 3 0 = 0 ∧
      t.fld Reg.HK_NVD_STS 7 4 = 0 := by
  have he := execNvdCommandDone_commit hb
  rw [State.commit_of_snap (s := s.nvdEnded) hc] at he
  refine ⟨_, he, ?_, ?_, ?_, ?_, ?_, ?_, State.nvdResult_res _ _ _⟩
  · rw [State.nvdResult_nvd, State.setFld_nvd, State.setFld_nvd, State.committed_nvd, State.committedNvd_busy,
      State.nvdEnded_busy]
  · rw [State.nvdResult_nvd, State.setFld_nvd, State.setFld_nvd, State.committed_nvd]
    rfl
  · rw [State.nvdResult_nvd, State.setFld_nvd, State.setFld_nvd, State.committed_nvd]
    rfl
  · rw [State.bit_eq_fld, State.fld_nvdResult _ _ _ (by decide) (by decide),
      State.fld_setFld_above _ _ (by decide) (by decide) (by decide), State.fld_setFld _ _ (by decide) (by decide)]
    rfl
  · rw [State.fld_nvdResult _ _ _ (by decide) (by decide), State.fld_setFld _ _ (by decide) (by decide)]
    rfl
  · rw [State.fld_nvdResult _ _ _ (by decide) (by decide), State.fld_setFld_ne _ (by decide) (by decide) (by decide),
      State.fld_setFld_ne _ (by decide) (by decide) (by decide),
      State.fld_congr (State.committed_reg _ c _), State.nvdEnded_code]

/-! ### Writes through window 0xD -/

/-- The state with half a word of a slot written, the slot's mark gone (R60, R75). -/
def State.nvdWritten (s : State) (off : Nat) (b : Bool) (data : W32) (be : BitVec 4) : State :=
  ({ s with
    nvd := s.nvd.put (s.nvdAddr off) (setHalf (s.nvd.word (s.nvdAddr off)) (s.nvdAddr off % 8 == 4)
      (mergeBE (halfOf (s.nvd.word (s.nvdAddr off)) (s.nvdAddr off % 8 == 4)) data be)),
    att := { s.att with flags := s.att.flags ||| 4 } }).setVerified b false

section
variable {s : State} {off : Nat}

/-- A write of a clean word of a slot that is not loaded, the NVD idle (R75, R76). -/
theorem State.nvdWrite_slot {b : Bool} (hp : nvdPlace (s.nvdAddr off) = .slot b) (hn : s.loadedSlot b = false)
    (hc : s.allows .nvdSlot = true) (hb : s.nvd.busy = none) (hw : s.clean .hbd 0x04 (s.nvdAddr off / 8) = true)
    (data : W32) (be : BitVec 4) : s.nvdWrite off data be = .done (s.nvdWritten off b data be) := by
  unfold State.nvdWrite
  dsimp only
  rw [hp]
  dsimp only
  rw [hn, hb, State.merged_clean hw]
  exact State.guardedR_open hc _

/-- A write of held space is LOCKED (R59). -/
theorem State.nvdWrite_held (hp : nvdPlace (s.nvdAddr off) = .held) (data : W32) (be : BitVec 4) :
    s.nvdWrite off data be = .lockedBy s := by
  unfold State.nvdWrite
  dsimp only
  rw [hp]

/-- A write of reserved space has no effect (R404). -/
theorem State.nvdWrite_reserved (hp : nvdPlace (s.nvdAddr off) = .reserved) (hc : s.allows .writeCfg = true) (data : W32)
    (be : BitVec 4) : s.nvdWrite off data be = .done s := by
  unfold State.nvdWrite
  dsimp only
  rw [hp]
  exact s.guarded_open hc _

end

theorem State.nvdAddr_got (s : State) (lane off : Nat) : (s.got lane).nvdAddr off = s.nvdAddr off := by
  unfold State.nvdAddr
  rw [s.fld_got lane 5 0 (by decide)]

theorem State.nvdWritten_words (s : State) (off : Nat) (b : Bool) (data : W32) (be : BitVec 4) :
    (s.nvdWritten off b data be).nvd.words = Sparse.put 0 (s.nvdAddr off / 8)
      (setHalf (s.nvd.word (s.nvdAddr off)) (s.nvdAddr off % 8 == 4)
        (mergeBE (halfOf (s.nvd.word (s.nvdAddr off)) (s.nvdAddr off % 8 == 4)) data be)) s.nvd.words :=
  State.setVerified_words _ _ _

theorem State.setVerified_resp (s : State) (b v : Bool) : (s.setVerified b v).resp = s.resp := by
  cases b <;> rfl

theorem State.setVerified_lane (s : State) (b v : Bool) (n : Nat) : (s.setVerified b v).lane n = s.lane n := by
  cases b <;> rfl

theorem State.nvdWritten_resp (s : State) (off : Nat) (b : Bool) (data : W32) (be : BitVec 4) :
    (s.nvdWritten off b data be).resp = s.resp := State.setVerified_resp _ _ _

theorem State.nvdWritten_lane (s : State) (off : Nat) (b : Bool) (data : W32) (be : BitVec 4) (n : Nat) :
    (s.nvdWritten off b data be).lane n = s.lane n := State.setVerified_lane _ _ _ _

/-- The command is the write of its window address (R60). -/
theorem exec_nvdWindowWrite {off : BitVec 20} (ho : off.toNat % 4 = 0) (lane : Lane) (data : W32) (be : BitVec 4) (s : State) :
    exec (.nvdWindowWrite lane off data be) s =
      .next (s.accessW lane (0xD00000 + off.toNat) be (fun t => t.nvdWrite off.toNat data be)) := by
  have hact : (fun t : State => if off.toNat % 4 ≠ 0 then Rep.no Stat.badFormat t else t.nvdWrite off.toNat data be) =
      fun t => t.nvdWrite off.toNat data be := funext fun t => if_neg (not_not.2 ho)
  show Host.Outcome.next (s.accessW lane (0xD00000 + off.toNat) be _) = _
  rw [hact]

section
variable {lane : Lane} {off : BitVec 20} {be : BitVec 4} {s : State}
  (hs : s.serves lane (0xD00000 + off.toNat) = true) (hb : be ≠ 0) (ho : off.toNat % 4 = 0)
include hs hb ho

theorem nvdWindowWrite_writesSlot (data : W32) {b : Bool} (hp : nvdPlace (s.nvdAddr off.toNat) = .slot b)
    (hn : s.loadedSlot b = false) (hc : s.allows .nvdSlot = true) (hi : s.nvd.busy = none)
    (hw : s.clean .hbd 0x04 (s.nvdAddr off.toNat / 8) = true) :
    ∃ t, exec (.nvdWindowWrite lane off data be) s = .next t ∧ s.replied t lane (0xD00000 + off.toNat) Stat.ok 0 ∧
      t.nvd.words = Sparse.put 0 (s.nvdAddr off.toNat / 8)
        (setHalf (s.nvd.word (s.nvdAddr off.toNat)) (s.nvdAddr off.toNat % 8 == 4)
          (mergeBE (halfOf (s.nvd.word (s.nvdAddr off.toNat)) (s.nvdAddr off.toNat % 8 == 4)) data be)) s.nvd.words ∧
      (if b then t.nvd.verB else t.nvd.verA) = false := by
  have hact := State.nvdWrite_slot (s := s.got lane) (off := off.toNat) (by rw [State.nvdAddr_got, hp])
    (by rw [State.loadedSlot_got, hn]) (by rw [State.allows_got, hc]) (by rw [State.nvd_got, hi])
    (by rw [State.nvdAddr_got, State.clean_got, hw]) data be
  refine ⟨((s.got lane).nvdWritten off.toNat b data be).finish lane (0xD00000 + off.toNat) Stat.ok 0, ?_, ?_, ?_, ?_⟩
  · rw [exec_nvdWindowWrite ho, State.accessW_done hs hb hact]
  · exact State.replied_finish (by rw [State.nvdWritten_resp, State.resp_got])
      (by rw [State.nvdWritten_lane, State.lane_got]) _ _ _
  · rw [State.nvd_finish, State.nvdWritten_words, State.nvdAddr_got, State.nvd_got]
  · rw [State.nvd_finish]
    exact State.setVerified_mark _ _ _

theorem nvdWindowWrite_locked (data : W32) (hp : nvdPlace (s.nvdAddr off.toNat) = .held) :
    ∃ t, exec (.nvdWindowWrite lane off data be) s = .next t ∧
      s.replied t lane (0xD00000 + off.toNat) Stat.locked 0 ∧ t.nvd = s.nvd := by
  have hact := State.nvdWrite_held (s := s.got lane) (off := off.toNat) (by rw [State.nvdAddr_got, hp]) data be
  refine ⟨(((s.got lane).count16 Reg.HK_LOCKED_CNT 1).event Reg.HK_CFG_EVT [0]).finish lane (0xD00000 + off.toNat)
    Stat.locked 0, ?_, ?_, ?_⟩
  · rw [exec_nvdWindowWrite ho, State.accessW_no hs hb hact]
  · refine State.replied_finish (by rw [State.event_resp, State.count16_resp, State.resp_got]) ?_ _ _ _
    unfold State.lane
    rw [State.event_lanes, State.count16_lanes]
    exact congrArg LaneSt.e (s.lane_got lane lane)
  · rw [State.nvd_finish, State.event_nvd, State.count16_nvd, State.nvd_got]

theorem nvdWindowWrite_reserved (data : W32) (hp : nvdPlace (s.nvdAddr off.toNat) = .reserved)
    (hc : s.allows .writeCfg = true) :
    ∃ t, exec (.nvdWindowWrite lane off data be) s = .next t ∧ s.replied t lane (0xD00000 + off.toNat) Stat.ok 0 ∧
      t.nvd = s.nvd := by
  have hact := State.nvdWrite_reserved (s := s.got lane) (off := off.toNat) (by rw [State.nvdAddr_got, hp])
    (by rw [State.allows_got, hc]) data be
  refine ⟨(s.got lane).finish lane (0xD00000 + off.toNat) Stat.ok 0, ?_, ?_, ?_⟩
  · rw [exec_nvdWindowWrite ho, State.accessW_done hs hb hact]
  · exact State.replied_finish (s.resp_got lane) (by rw [State.lane_got]) _ _ _
  · rw [State.nvd_finish, State.nvd_got]

end

/-! ### The obligation -/

/-- The commands of HK_NVD_CMD that R75 and R80 accept. -/
theorem nvdCommands_start {lane : Lane} {slot : Bool} {s : State} (hs : s.serves lane Reg.HK_NVD_CMD = true)
    (hl : s.lockMask Reg.HK_NVD_CMD = 0) (hb : s.nvd.busy = none) :
    (s.allows .nvdSlot = true → s.loadedSlot slot = false → ∃ t, exec (.slotInvalidate lane slot) s = .next t ∧
      s.replied t lane Reg.HK_NVD_CMD Stat.ok 0 ∧ t.nvd = { s.nvd with busy := some (.invalidate, slot) } ∧
      t.fld Reg.HK_NVD_CMD 3 0 = 1) ∧
    (s.allows .nvdSlot = true → s.loadedSlot slot = false → ∃ t, exec (.slotVerify lane slot) s = .next t ∧
      s.replied t lane Reg.HK_NVD_CMD Stat.ok 0 ∧ t.nvd = { s.nvd with busy := some (.verify, slot) } ∧
      t.fld Reg.HK_NVD_CMD 3 0 = 2) ∧
    (s.allows .nvdSlot = true → (if slot then s.nvd.verB else s.nvd.verA) = true →
      ∃ t, exec (.slotPrefer lane slot) s = .next t ∧ s.replied t lane Reg.HK_NVD_CMD Stat.ok 0 ∧
        t.nvd = { s.nvd with busy := some (.prefer, slot) } ∧ t.fld Reg.HK_NVD_CMD 3 0 = 3) ∧
    (s.allows .calSet = true → s.calibBusy = false → ∃ t, exec (.calCommit lane) s = .next t ∧
      s.replied t lane Reg.HK_NVD_CMD Stat.ok 0 ∧
      t.nvd = { s.nvd with busy := some (.commit, s.bit Reg.HK_NVD_CMD 8), snap := some s.cal } ∧
      t.fld Reg.HK_NVD_CMD 3 0 = 4) := by
  refine ⟨fun hc hn => ?_, fun hc hn => ?_, fun hc hv => ?_, fun hc hw => ?_⟩
  · exact State.access_nvdStarts hs hl hb (x := .invalidate) ⟨hc, hn⟩ rfl
  · exact State.access_nvdStarts hs hl hb (x := .verify) ⟨hc, hn⟩ rfl
  · exact State.access_nvdStarts hs hl hb (x := .prefer) ⟨hc, hv⟩ rfl
  · refine State.access_nvdStarts hs hl hb (x := .commit) ⟨hc, hw⟩ ?_
    rw [s.bit_got lane 8 (by decide)]
    rfl

/-- Settles O22: the start of each command, its end, and the three places of a window write. -/
theorem nvdCommandsStartAndEnd : Obligations.NvdCommandsStartAndEnd := by
  unfold Obligations.NvdCommandsStartAndEnd
  refine ⟨fun lane slot s => nvdCommands_start, fun b s _ => ?_, fun lane off data be s hs hb ho => ?_⟩
  · exact ⟨nvdCommandDone_invalidates, nvdCommandDone_verifies, nvdCommandDone_prefers, fun c => nvdCommandDone_commits⟩
  · exact ⟨fun b hp hn hc hi hw => nvdWindowWrite_writesSlot hs hb ho data hp hn hc hi hw,
      nvdWindowWrite_locked hs hb ho data, nvdWindowWrite_reserved hs hb ho data⟩

end Sys2Proof.Machine
end

section
/-! O47: a die rejoins, by command or by itself, through the reload of its slot and J5, or fails (R77, R330). -/

namespace Sys2Proof.Machine

/-! ### Redundancy and the two CDs -/

/-- Redundancy and both CDs. -/
def State.dies (s : State) : Rd × Cd × Cd := (s.rd, s.cda, s.cdb)

theorem State.dies_iff {s t : State} : t.dies = s.dies ↔ t.rd = s.rd ∧ t.cda = s.cda ∧ t.cdb = s.cdb := by
  unfold State.dies
  simp only [Prod.mk.injEq]

theorem dies_rd {s t : State} (h : t.dies = s.dies) : t.rd = s.rd := congrArg Prod.fst h

theorem dies_cd {s t : State} (h : t.dies = s.dies) : t.cd = s.cd :=
  have ⟨hd, ha, hb⟩ := State.dies_iff.1 h
  State.cd_congr (congrArg Rd.activeB hd) ha hb

theorem dies_other {s t : State} (h : t.dies = s.dies) : t.other = s.other :=
  have ⟨hd, ha, hb⟩ := State.dies_iff.1 h
  State.other_congr (congrArg Rd.activeB hd) ha hb

theorem dies_of_mapped {a : Nat} {s t : State} (h : t.mapped a = s.mapped a) : t.dies = s.dies :=
  have ⟨_, hd, ha, hb, _⟩ := State.mapped_iff.1 h
  State.dies_iff.2 ⟨hd, ha, hb⟩

theorem State.finish_dies (s : State) (lane addr status : Nat) (data : W32) :
    (s.finish lane addr status data).dies = s.dies :=
  State.dies_iff.2 ⟨State.finish_rd _ _ _ _ _, State.finish_cda _ _ _ _ _, State.finish_cdb _ _ _ _ _⟩

theorem State.got_dies (s : State) (lane : Nat) : (s.got lane).dies = s.dies :=
  State.dies_iff.2 ⟨State.countLane_rd _ _ _ _, State.countLane_cda _ _ _ _, State.countLane_cdb _ _ _ _⟩

theorem State.setRegAt_dies (s : State) (k : Nat) (v : W32) : (s.setRegAt k v).dies = s.dies := rfl

theorem State.event_dies (s : State) (a : Nat) (bs : List Nat) : (s.event a bs).dies = s.dies :=
  State.dies_iff.2 ⟨State.event_rd _ _ _, State.event_cda _ _ _, State.event_cdb _ _ _⟩

theorem State.count_dies (s : State) (a n : Nat) : (s.count a n).dies = s.dies :=
  State.dies_iff.2 ⟨State.count_rd _ _ _, State.count_cda _ _ _, State.count_cdb _ _ _⟩

/-! ### A rejoin begins -/

/-- J1 of R330: the die is LOADING with the present GEN, and the active CD stands. -/
theorem State.startRejoin_loads (s : State) : s.startRejoin.other = { Cd.reset with st := cdLoading, gen := s.rd.gen } ∧
    s.startRejoin.rd.rejoin = some (!s.rd.activeB, 1) ∧ s.startRejoin.cd = s.cd := by
  unfold State.startRejoin State.setOther State.other State.cd
  cases h : s.rd.activeB <;> simp [State.resetRegs, h]

theorem State.startRejoin_resp (s : State) : s.startRejoin.resp = s.resp := by
  unfold State.startRejoin State.setOther
  split <;> rfl

theorem State.startRejoin_lane (s : State) (n : Nat) : s.startRejoin.lane n = s.lane n := by
  unfold State.startRejoin State.setOther
  split <;> rfl

/-- RD_CMD.REJOIN where the die may rejoin (R330). -/
theorem State.rdCmdWrite_rejoin {s : State} (hc : s.allows .writeCfg = true) (hm : s.mayRejoin = true) :
    s.rdCmdWrite 2 0xF = .done s.startRejoin := by
  unfold State.rdCmdWrite
  dsimp only
  rw [mergeBE_all, show bitOf (2 : W32) 0 = false from rfl, show bitOf (2 : W32) 1 = true from rfl, hm]
  exact s.guarded_open hc _

theorem State.mayRejoin_got (s : State) (lane : Nat) : (s.got lane).mayRejoin = s.mayRejoin := by
  have hd := s.got_dies lane
  unfold State.mayRejoin
  rw [dies_other hd, dies_rd hd, s.fld_got lane 11 8 (by decide)]

theorem rejoin_starts {lane : Lane} {s : State} (hs : s.serves lane Reg.RD_CMD = true) (hc : s.allows .writeCfg = true)
    (hm : s.mayRejoin = true) : ∃ t, exec (.rejoin lane) s = .next t ∧ s.replied t lane Reg.RD_CMD Stat.ok 0 ∧
      t.other = { Cd.reset with st := cdLoading, gen := s.rd.gen } ∧ t.rd.rejoin = some (!s.rd.activeB, 1) ∧ t.cd = s.cd := by
  have hact := State.rdCmdWrite_rejoin (s := s.got lane) (by rw [State.allows_got, hc]) (by rw [State.mayRejoin_got, hm])
  have hd := s.got_dies lane
  obtain ⟨ho, hr, hcd⟩ := (s.got lane).startRejoin_loads
  rw [dies_rd hd] at ho hr
  have hf := (s.got lane).startRejoin.finish_dies lane Reg.RD_CMD Stat.ok 0
  refine ⟨(s.got lane).startRejoin.finish lane Reg.RD_CMD Stat.ok 0,
    congrArg Host.Outcome.next (State.accessW_done hs (by decide) hact), ?_, ?_, ?_, ?_⟩
  · exact State.replied_finish (by rw [State.startRejoin_resp, State.resp_got])
      (by rw [State.startRejoin_lane, State.lane_got]) _ _ _
  · rw [dies_other hf, ho]
  · rw [dies_rd hf, hr]
  · rw [dies_cd hf, hcd, dies_cd hd]

theorem autoRejoin_starts {s : State} (hb : s.bit Reg.RD_CFG 1 = true) (hm : s.mayRejoin = true) (ha : s.aclkRuns = true) :
    ∃ t, exec .autoRejoin s = .next t ∧ t.other = { Cd.reset with st := cdLoading, gen := s.rd.gen } ∧
      t.rd.rejoin = some (!s.rd.activeB, 1) ∧ t.cd = s.cd :=
  ⟨s.startRejoin, congrArg Host.Outcome.next (if_pos ⟨hb, hm, ha⟩), s.startRejoin_loads⟩

/-! ### J2 and J5: the reload and the mirror -/

/-- A CD with the queue map, rule table and regions of another. -/
def Cd.withTables (c x : Cd) : Cd := { c with qmap := x.qmap, rules := x.rules, regions := x.regions }

section
variable (s : State)

theorem State.cdStore_dies (v : Nat) : (s.cdStore v).dies = s.dies := by
  have hi : ∀ t : State, t.cdInc.dies = t.dies := fun t => ite_keeps _ _ (t.setRegAt_dies _ _) rfl
  have ht : ∀ (l : List Nat) (u : State) (c : Nat) (bank : Bool) (f : State → Nat → Nat),
      (l.foldl (fun u j => u.setTab c bank j (f u j)) u).dies = u.dies := by
    intro l u c bank f
    refine foldl_keeps State.dies ?_ l u
    exact fun t j => rfl
  unfold State.cdStore
  extract_lets c bank b t1
  have h1 : t1.dies = s.dies := ite_keeps State.dies _ ((ht _ _ _ _ _).trans rfl) rfl
  clear_value t1
  exact (hi _).trans h1

theorem State.setFields_dies (a : Nat) (v : W32) : (s.setFields a v).dies = s.dies := by
  unfold State.setFields
  split
  · exact ite_keeps State.dies _ rfl (s.cdStore_dies _)
  · exact ite_keeps State.dies _ rfl (s.setRegAt_dies _ _)

/-- The reload leaves redundancy and the active CD; of the other one it sets the three tables (R77). -/
theorem State.reloadCd_keeps (b : Bool) (base : Nat) (ss : List Section) : (s.reloadCd b base ss).rd = s.rd ∧
    (s.reloadCd b base ss).cd = s.cd ∧ ∃ x, (s.reloadCd b base ss).other = s.other.withTables x := by
  unfold State.reloadCd
  extract_lets t tabl c
  have ht : t.dies = s.dies := foldl_keeps State.dies (fun u (e : Nat × W32) => u.setFields_dies e.1 e.2) _ s
  clear_value t c
  refine ⟨(State.setOther_rd _ _).trans (dies_rd ht), (State.cd_setOther _ _).trans (dies_cd ht), c, ?_⟩
  rw [State.other_setOther]
  exact congrArg (fun o : Cd => o.withTables c) (dies_other ht)

/-- The mirror leaves redundancy and the active CD, whose three tables the other one takes over (J5 of R330). -/
theorem State.mirrorAll_keeps : s.mirrorAll.rd = s.rd ∧ s.mirrorAll.cd = s.cd ∧
    s.mirrorAll.other = s.other.withTables s.cd := by
  unfold State.mirrorAll
  extract_lets src dst offs s1
  have h1 : s1.dies = s.dies := foldl_keeps State.dies (fun t o => t.setRegAt_dies _ _) _ s
  clear_value s1
  refine ⟨(State.setOther_rd _ _).trans (dies_rd h1), (State.cd_setOther _ _).trans (dies_cd h1), ?_⟩
  rw [State.other_setOther]
  exact congrArg₂ Cd.withTables (dies_other h1) (dies_cd h1)

end

/-! ### A rejoin fails -/

/-- The state with another rejoin under way. -/
def State.withRejoin (s : State) (x : Option (Bool × Nat)) : State := { s with rd := { s.rd with rejoin := x } }

theorem State.withRejoin_cd (s : State) (x : Option (Bool × Nat)) : (s.withRejoin x).cd = s.cd := rfl

theorem State.withRejoin_other (s : State) (x : Option (Bool × Nat)) : (s.withRejoin x).other = s.other := rfl

/-- The die that is not active goes OUT; the active one, the registers and the rejoin stand. -/
theorem State.failCd_other (s : State) : (s.failCd (!s.rd.activeB)).rd.activeB = s.rd.activeB ∧
    (s.failCd (!s.rd.activeB)).other.st = cdOut ∧ (s.failCd (!s.rd.activeB)).cd = s.cd ∧
    (s.failCd (!s.rd.activeB)).regs = s.regs := by
  unfold State.failCd State.other State.cd
  cases h : s.rd.activeB <;> simp [h]

theorem State.rejoinFails_eq (s : State) (b : Bool) :
    s.rejoinFails b = (((s.failCd b).withRejoin none).event Reg.RD_EVT [3]).count Reg.RD_REJOIN_FAIL_CNT 1 := rfl

/-- A rejoin of the die that is not active fails: it is OUT, counted and noted (R330). -/
theorem State.rejoinFails_out (s : State) : (s.rejoinFails (!s.rd.activeB)).rd.rejoin = none ∧
    (s.rejoinFails (!s.rd.activeB)).other.st = cdOut ∧ (s.rejoinFails (!s.rd.activeB)).cd = s.cd ∧
    s.counts (s.rejoinFails (!s.rd.activeB)) Reg.RD_REJOIN_FAIL_CNT 1 ∧
    (s.rejoinFails (!s.rd.activeB)).shows Reg.RD_EVT 3 := by
  obtain ⟨hb, ho, hc, hr⟩ := s.failCd_other
  rw [State.rejoinFails_eq]
  generalize s.failCd (!s.rd.activeB) = t at hb ho hc hr ⊢
  have hd := (State.count_dies ((t.withRejoin none).event Reg.RD_EVT [3]) Reg.RD_REJOIN_FAIL_CNT 1).trans
    (State.event_dies _ _ _)
  refine ⟨?_, ?_, ?_, ?_, ?_⟩
  · rw [dies_rd hd]
    rfl
  · rw [dies_other hd, State.withRejoin_other, ho]
  · rw [dies_cd hd, State.withRejoin_cd, hc]
  · refine State.counts_count ?_ 1
    rw [State.reg_event]
    exact State.reg_congr hr hb _
  · exact (State.shows_event _ _ (by decide)).congr (State.count_sts _ _ _) (State.count_rd _ _ _)

/-! ### J1 to J4 end -/

theorem Cd.withTables_withTables (c x y : Cd) : (c.withTables x).withTables y = c.withTables y := rfl

/-- The slot reads whole or not; redundancy and the CDs stand. -/
theorem State.readSlot_dies (s : State) (b : Bool) : (s.readSlot b).st.dies = s.dies :=
  State.readSlot_keeps State.dies (fun t a n => dies_of_mapped (t.nvdReads_mapped (a := 0) (by decide) a n)) s b

theorem State.readSlot_reg (s : State) (b : Bool) {a : Nat} (ha : a < 0x100000) : (s.readSlot b).st.reg a = s.reg a := by
  have hd : a / 0x100000 ≠ 2 := by omega
  rw [State.reg_of_die _ hd, State.reg_of_die _ hd]
  exact (State.mapped_iff.1 (State.readSlot_keeps (State.mapped a)
    (fun t x n => t.nvdReads_mapped (by omega) x n) s b)).1

/-- The slot the rejoin reads, as it was loaded (R77). -/
def State.rejoinSlot (s : State) : Try := s.readSlot (s.bit Reg.HK_CFG_INFO 6)

/-- The state in which a rejoin has reloaded and mirrored its die (R330). -/
def State.rejoined (s : State) : State :=
  let t := (s.rejoinSlot.st.reloadCd (!s.rd.activeB) (slotBase (s.bit Reg.HK_CFG_INFO 6)) s.rejoinSlot.ss).mirrorAll
  let u := t.setOther { t.other with st := cdMirroring }
  { u with rd := { u.rd with rejoin := some (!s.rd.activeB, 5) } }

theorem State.rejoined_mirrors (s : State) : s.rejoined.rd.rejoin = some (!s.rd.activeB, 5) ∧ s.rejoined.cd = s.cd ∧
    s.rejoined.other = { s.other with st := cdMirroring, qmap := s.cd.qmap, rules := s.cd.rules, regions := s.cd.regions } := by
  have hk : s.rejoinSlot.st.dies = s.dies := s.readSlot_dies _
  unfold State.rejoined
  generalize s.rejoinSlot = r at hk ⊢
  obtain ⟨-, hcd, x, ho⟩ := r.st.reloadCd_keeps (!s.rd.activeB) (slotBase (s.bit Reg.HK_CFG_INFO 6)) r.ss
  generalize r.st.reloadCd (!s.rd.activeB) (slotBase (s.bit Reg.HK_CFG_INFO 6)) r.ss = v at hcd ho ⊢
  obtain ⟨-, hcd', ho'⟩ := v.mirrorAll_keeps
  generalize v.mirrorAll = w at hcd' ho' ⊢
  rw [hcd, ho, dies_cd hk, dies_other hk, Cd.withTables_withTables] at ho'
  refine ⟨rfl, ?_, ?_⟩
  · exact (State.withRejoin_cd _ _).trans (by rw [State.cd_setOther, hcd', hcd, dies_cd hk])
  · exact (State.withRejoin_other _ _).trans (by rw [State.other_setOther, ho']; rfl)

section
variable {n : Nat} {s : State} (hr : s.rd.rejoin = some (!s.rd.activeB, n))
include hr

/-- The slot is whole and the steps passed: reload, mirror, MIRRORING (R77, R330). -/
theorem rejoinMirroring_passes (hn : n < 5) (hf : s.rejoinSlot.fail = 0) :
    exec (.rejoinMirroring true) s = .next s.rejoined := by
  unfold State.rejoinSlot at hf
  unfold exec execRejoinMirroring State.rejoined State.rejoinSlot
  rw [hr]
  dsimp only
  rw [if_neg (by omega), if_neg (by simp [hf])]

/-- A slot that fails its checks, or a step that failed, ends the rejoin (R77, R330). -/
theorem rejoinMirroring_fails {ok : Bool} (hn : n < 5) (hf : s.rejoinSlot.fail ≠ 0 ∨ ok = false) :
    exec (.rejoinMirroring ok) s = .next (s.rejoinSlot.st.rejoinFails (!s.rd.activeB)) := by
  unfold State.rejoinSlot at hf
  unfold exec execRejoinMirroring
  rw [hr]
  dsimp only
  rw [if_neg (by omega), if_pos (by simpa using hf)]
  rfl

/-- J5 ends without an effect, or fails (R330). -/
theorem rejoinMirroring_j5 (hn : 5 ≤ n) (ok : Bool) :
    exec (.rejoinMirroring ok) s = .next (if ok then s else s.rejoinFails (!s.rd.activeB)) := by
  unfold exec execRejoinMirroring
  rw [hr]
  dsimp only
  rw [if_pos hn]

end

/-- What a failed rejoin leaves once the slot was read. -/
theorem State.rejoinSlot_fails (s : State) : (s.rejoinSlot.st.rejoinFails (!s.rd.activeB)).rd.rejoin = none ∧
    (s.rejoinSlot.st.rejoinFails (!s.rd.activeB)).other.st = cdOut ∧
    (s.rejoinSlot.st.rejoinFails (!s.rd.activeB)).cd = s.cd ∧
    s.counts (s.rejoinSlot.st.rejoinFails (!s.rd.activeB)) Reg.RD_REJOIN_FAIL_CNT 1 ∧
    (s.rejoinSlot.st.rejoinFails (!s.rd.activeB)).shows Reg.RD_EVT 3 := by
  have hk : s.rejoinSlot.st.dies = s.dies := s.readSlot_dies _
  have hreg : s.rejoinSlot.st.reg Reg.RD_REJOIN_FAIL_CNT = s.reg Reg.RD_REJOIN_FAIL_CNT := s.readSlot_reg _ (by decide)
  rw [← dies_rd hk, ← dies_cd hk]
  obtain ⟨h1, h2, h3, h4, h5⟩ := s.rejoinSlot.st.rejoinFails_out
  exact ⟨h1, h2, h3, h4.since hreg, h5⟩

/-- Settles O47: the two starts, and each end of the steps. -/
theorem rejoinBringsAStandbyBack : Obligations.RejoinBringsAStandbyBack := by
  unfold Obligations.RejoinBringsAStandbyBack
  refine ⟨fun lane s hs hc hm => rejoin_starts hs hc hm, fun s hb hm ha => autoRejoin_starts hb hm ha,
    fun n s hr hn => ⟨fun hf => ?_, fun hf => ?_, ?_⟩, fun n s hr hn => ⟨?_, ?_⟩⟩
  · exact ⟨_, rejoinMirroring_passes hr hn hf, s.rejoined_mirrors⟩
  · exact ⟨_, rejoinMirroring_fails hr hn (.inl hf), s.rejoinSlot_fails⟩
  · exact ⟨_, rejoinMirroring_fails hr hn (.inr rfl), s.rejoinSlot_fails⟩
  · exact rejoinMirroring_j5 hr hn true
  · exact ⟨_, rejoinMirroring_j5 hr hn false, s.rejoinFails_out⟩

end Sys2Proof.Machine
end

section
/-! O8: the words of the NVD through the commands that do not write it. They stand in the core of a state as `core.2.1`,
so the laws that keep the core are used as they stand; below are the operations that move the rest of the core. -/

namespace Sys2Proof.Machine

theorem words_of {s t : State} (h : t.core = s.core) : t.core.2.1 = s.core.2.1 :=
  congrArg (fun c : List Instr × Sparse W64 × Mode × Option Mode × Bool × Bool × Bool × Bool × Bool => c.2.1) h

theorem ite_words (c : Prop) [Decidable c] {a b : State} {w : Sparse W64} (ha : a.core.2.1 = w) (hb : b.core.2.1 = w) :
    (if c then a else b).core.2.1 = w :=
  ite_keeps (fun t : State => t.core.2.1) c ha hb

theorem foldl_words {α : Type} (f : State → α → State) (h : ∀ t x, (f t x).core.2.1 = t.core.2.1) (l : List α) (s : State) :
    (l.foldl f s).core.2.1 = s.core.2.1 :=
  foldl_keeps (fun t : State => t.core.2.1) h l s

/-! ### Modes -/

@[simp] theorem State.modeGo_words (s : State) (m : Mode) (cause : Nat) : (s.modeGo m cause).core.2.1 = s.core.2.1 := rfl

@[simp] theorem State.modeDone_words (s : State) (m : Mode) (cause : Nat) : (s.modeDone m cause).core.2.1 = s.core.2.1 := by
  unfold State.modeDone
  dsimp only
  split <;> simp only [State.count_core, State.setReg_core, State.setFld_core] <;> rfl

theorem State.goRun_words (s : State) (cause : Nat) : (s.goRun cause).core.2.1 = s.core.2.1 := by
  unfold State.goRun
  rw [State.unparkAll_core, State.modeGo_words, State.checkBegins_core, State.fullBias_core, State.latch_core]

theorem State.goDrain_words (s : State) (cause : Nat) : (s.goDrain cause).core.2.1 = s.core.2.1 := by
  unfold State.goDrain
  rw [State.modeGo_words, State.endRun_core]

@[simp] theorem State.startReq_words (s : State) (code : Nat) : (s.startReq code).core.2.1 = s.core.2.1 := by
  unfold State.startReq
  dsimp only
  rw [State.setFld_core]
  split
  · rfl
  · rfl
  · rw [State.unparkAll_core, State.modeGo_words, State.checkBegins_core, State.fullBias_core]
  · exact s.goRun_words 2
  · exact s.goDrain_words 2
  · rw [State.enterSafe_core]
  · rw [State.unparkAll_core, State.modeGo_words, State.fullBias_core]
  · rfl

/-- A mode request starts a transition and writes no word. -/
@[simp] theorem State.modeReq_words (s : State) (code : Nat) : (s.modeReq code).st.core.2.1 = s.core.2.1 := by
  have hr : (Rep.modeReject s).st.core.2.1 = s.core.2.1 := words_of (Rep.modeReject_core s)
  unfold State.modeReq
  split
  · rfl
  split
  · rfl
  split
  · split
    · rfl
    split
    · split
      · exact hr
      split
      · exact words_of (s.enterSafe_core 2)
      · exact words_of ((State.setFld_core _ _ _ _ _).trans (s.enterSafe_core 2))
    · exact hr
  · split
    · exact hr
    · rfl
    · split
      · rfl
      · exact s.startReq_words code

@[simp] theorem State.unitsReset_core_words (s : State) : s.unitsReset.core.2.1 = s.core.2.1 := s.unitsReset_words

theorem State.enterLoad_words (s : State) : s.enterLoad.core.2.1 = s.core.2.1 := by
  unfold State.enterLoad
  dsimp only
  rw [State.lidOff_core, State.modeDone_words, State.unitsReset_core_words, State.stopTest_core, core_mk, core_eta,
    State.tbGo_core, State.injAbort_core]

theorem State.toSimmer_words (s : State) (env : EntryEnv) : (s.toSimmer env).core.2.1 = s.core.2.1 := by
  unfold State.toSimmer
  dsimp only
  rw [State.firstDreq_core, State.modeDone_words]
  split <;> simp

theorem State.toCalib_words (s : State) (env : EntryEnv) : (s.toCalib env).core.2.1 = s.core.2.1 := by
  unfold State.toCalib
  simp

theorem State.toTest_words (s : State) (env : EntryEnv) : (s.toTest env).core.2.1 = s.core.2.1 := by
  unfold State.toTest
  simp

theorem State.toSafe_words (s : State) (env : EntryEnv) : (s.toSafe env).core.2.1 = s.core.2.1 := by
  unfold State.toSafe
  extract_lets t v u1 v2 w u x
  have ht : t.core = s.core := s.advanceTo_core env.now
  have hv : v2.core = s.core := ite_keeps State.core _ (by rw [State.leaveTest_core, State.stopTasks_core, ht])
    ((State.stopTasks_core _).trans ht)
  have hw : w.core = s.core := (State.unparkAll_core _).trans hv
  have hu : u.core = s.core := ite_keeps State.core _ (by rw [core_mk, core_eta, State.unparkAll_core, State.parkLoaded_core, ht])
    (ite_keeps State.core _ ((State.stopData_core _).trans hw) hw)
  have hx : x.core.2.1 = s.core.2.1 :=
    (words_of (State.firstDreq_core _)).trans ((State.modeDone_words _ _ _).trans (words_of hu))
  exact ite_words _ ((words_of (State.lidDegrade_core _ _)).trans hx) hx

theorem State.toRun_words (s : State) (env : EntryEnv) : (s.toRun env).core.2.1 = s.core.2.1 := by
  have hg (l : List Nat) (u : State) :
      (l.foldl (fun (x : State) n => (x.aheadOf [aloneGroup n (recGap n 3)]).errLoss x.activeDie 3) u).core = u.core :=
    foldl_core _ (fun t x => by rw [State.errLoss_core, State.aheadOf_core]) _ _
  have hb (f : State → Barrier → Barrier) (l : List Barrier) (u : State) :
      (l.foldl (fun (x : State) b => x.standBarrier (f x b)) u).core = u.core :=
    foldl_core _ (fun t x => State.standBarrier_core _ _) _ _
  have hx (w : State) (c : Nat) : (({ w with hk := { w.hk with
      heldSpillEnd := none, spillSf := none, spillEntry := false } } : State).modeDone .run c).core.2.1 = w.core.2.1 :=
    State.modeDone_words _ _ _
  unfold State.toRun
  dsimp only
  rw [State.heldEnd_core, hx, State.advanceTo_core, State.eventIf_core, hb (fun _ b => { b with after := _ }), hg,
    State.aheadOf_core, State.openRun_core, State.startSamplers_core, State.ringCheck_core, State.finishResume_core,
    State.runFlushes_core, State.advanceTo_core]

theorem execModeTransitionComplete_words (env : EntryEnv) (s : State) :
    ∀ t, execModeTransitionComplete env s = .next t → t.core.2.1 = s.core.2.1 := by
  rintro t ⟨⟩
  split
  · rfl
  · exact s.enterLoad_words
  · exact s.toSimmer_words env
  · exact s.toCalib_words env
  · exact s.toRun_words env
  · exact ite_words _ rfl (s.toSafe_words env)
  · exact s.toTest_words env
  · rw [State.bootHk_core, core_mk]
    exact s.modeDone_words .boot s.hk.tcause
  · rfl

theorem execDrainComplete_words (s : State) : ∀ t, execDrainComplete s = .next t → t.core.2.1 = s.core.2.1 := by
  rintro t ⟨⟩
  split
  · rfl
  · rw [State.modeDone_words, State.parkExtra_core, State.stopData_core, State.abortFill_core, State.runFlushes_core]
    split
    · exact words_of (State.countAt_core _ _ _ _)
    · rfl

theorem execSliceOpen_words (s : State) : ∀ t, execSliceOpen s = .next t → t.core.2.1 = s.core.2.1 := by
  have hb : ∀ n, ((s.advanceTo (s.firstTick n)).groupBoundary.runFlushes).core = s.core := fun n => by
    rw [State.runFlushes_core, State.groupBoundary_core, State.advanceTo_core]
  have hdrain : ∀ n cause, ((s.advanceTo (s.firstTick n)).groupBoundary.runFlushes.modeDone .drain cause).core.2.1 = s.core.2.1 :=
    fun n cause => (State.modeDone_words _ _ _).trans (words_of (hb n))
  have hopen : ∀ (n : Nat) (u : State), u.core = s.core → ((if u.run.opened then u else u.runFirst).openSlice n).core = s.core :=
    fun n u hu => (State.openSlice_core _ _).trans (ite_keeps State.core _ hu (u.runFirst_core.trans hu))
  rintro t ⟨⟩
  exact ite_words _ rfl (ite_words _ (ite_words _ (hdrain _ _) rfl)
    (ite_words _ rfl (words_of (hopen _ _ (hb _)))))

/-! ### Supplies and RST_N -/

theorem execPowerOn_words (r : Bool) (s : State) : ∀ t, execPowerOn r s = .next t → t.core.2.1 = s.core.2.1 := by
  rintro t ⟨⟩
  split
  · rfl
  · rw [State.setReg_core, State.lidOff_core]
    rfl

theorem execPowerLoss12V_words (s : State) : ∀ t, execPowerLoss12V s = .next t → t.core.2.1 = s.core.2.1 := by
  rintro t ⟨⟩
  split <;> rfl

theorem execSupply24VApply_words (s : State) : ∀ t, execSupply24VApply s = .next t → t.core.2.1 = s.core.2.1 := by
  rintro t ⟨⟩
  split
  · rfl
  · rw [State.setV24_core]
    rfl

theorem execSupply24VLoss_words (s : State) : ∀ t, execSupply24VLoss s = .next t → t.core.2.1 = s.core.2.1 := by
  rintro t ⟨⟩
  split
  · split
    · rw [State.setV24_core, State.lidCancel_core]
      rfl
    · rfl
  · rfl

theorem execRstNLow_words (s : State) : ∀ t, execRstNLow s = .next t → t.core.2.1 = s.core.2.1 := by
  rintro t ⟨⟩
  split
  · rfl
  · rw [State.setFld_core]
    obtain ⟨-, -, -, -, -, hw⟩ := State.enterBoot_reset { s with hk := { s.hk with rstN := false } } 1
    exact hw

theorem execRstNRise_words (ms : Nat) (s : State) : ∀ t, execRstNRise ms s = .next t → t.core.2.1 = s.core.2.1 := by
  rintro t ⟨⟩
  split
  · rfl
  · rw [State.setFld_core]
    exact ite_words _ rfl rfl

theorem execRstNHigh1ms_words (s : State) : ∀ t, execRstNHigh1ms s = .next t → t.core.2.1 = s.core.2.1 := by
  rintro t ⟨⟩
  split <;> rfl

theorem execResetStuck_words (s : State) : ∀ t, execResetStuck s = .next t → t.core.2.1 = s.core.2.1 := by
  rintro t ⟨⟩
  split
  · rfl
  · rw [State.startBringUp_core, State.setFld_core, State.event_core]
    rfl

/-! ### Accesses -/

theorem State.execute_words (s : State) (lane addr : Nat) {act : State → Rep}
    (h : ∀ t, (act t).st.core.2.1 = t.core.2.1) : (s.execute lane addr act).core.2.1 = s.core.2.1 :=
  ite_words _ (words_of (s.finish_core _ _ _ _))
    ((words_of (State.finish_core _ _ _ _ _)).trans (h s))

theorem State.atStage_words (s : State) (lane addr : Nat) {go : State → State}
    (h : ∀ t, (go t).core.2.1 = t.core.2.1) : (s.atStage lane addr go).core.2.1 = s.core.2.1 := by
  unfold State.atStage
  split
  · rfl
  split
  · exact words_of (s.discard_core lane 2)
  have hs : (s.endStalls.countLane Reg.LK_LANE_RX_UNITS lane 2).core = s.core := by
    rw [State.countLane_core, State.endStalls_core]
  generalize s.endStalls.countLane Reg.LK_LANE_RX_UNITS lane 2 = u at hs
  dsimp only
  split
  · exact words_of ((u.seqGap_core lane _ addr).trans hs)
  split
  · exact words_of ((State.event_core _ _ _).trans ((u.count_core _ _).trans hs))
  · exact (h u).trans (words_of hs)

theorem State.access_words (s : State) (lane addr : Nat) {act : State → Rep}
    (h : ∀ t, (act t).st.core.2.1 = t.core.2.1) : (s.access lane addr act).core.2.1 = s.core.2.1 :=
  s.atStage_words lane addr fun t =>
    ite_words _ (words_of (t.finish_core _ _ _ _)) (t.execute_words lane addr h)

/-- A mode request that is served writes no word. -/
theorem State.reqAccess_words (s : State) (lane : Nat) (data : W32) (be : BitVec 4) :
    (s.access lane Reg.HK_MODE_REQ (fun t => t.modeReqWrite data be)).core.2.1 = s.core.2.1 :=
  s.access_words _ _ fun t => t.modeReq_words _

/-- OP VOTE_FLIP is the operation of ERR_ECC_TEST that writes no word of a memory. -/
theorem State.eccTestWrite_flip_words (s : State) (d : Die) (data : W32) :
    (s.eccTestWrite d (eccWord data 3) 0xF).st.core = s.core := by
  have hop : bits (eccWord data 3) 3 0 = 3 := bits_putBits data (by decide) (by decide) 3
  unfold State.eccTestWrite
  dsimp only
  rw [mergeBE_all, hop]
  exact State.guarded_core _ _ _ _ _ _ ((State.flipCopy_core _ _).trans (s.storeFields_core _ _))

theorem execVoteFlip_words (lane : Lane) (die : Die) (data : W32) (s : State) :
    ∀ t, execVoteFlip lane die data s = .next t → t.core.2.1 = s.core.2.1 := by
  intro t h
  unfold execVoteFlip at h
  split at h
  · cases h
    exact s.access_words _ _ fun u => words_of (u.eccTestWrite_flip_words die data)
  · cases h

/-! ### Markers and data frames -/

theorem State.marker_words (s : State) (kind mode mseq slice : Nat) {act : State → Bool × State}
    (h : ∀ t, (act t).2.core.2.1 = t.core.2.1) : (s.marker kind mode mseq slice act).core.2.1 = s.core.2.1 := by
  unfold State.marker
  dsimp only
  split
  · rfl
  · split
    · simp
    · simp [h]

theorem State.markMode_words (s : State) (mseq mode : Nat) : (s.markMode mseq mode).core.2.1 = s.core.2.1 :=
  s.marker_words _ _ _ _ fun t => (words_of (State.markIgnored_core _)).trans
    (ite_keeps (fun r : Bool × State => r.2.core.2.1) _ rfl (t.modeReq_words _))

theorem execMarkMode_words (mseq : BitVec 16) (mode : BitVec 4) (now : Nat) (s : State) :
    ∀ t, execMarkMode mseq mode now s = .next t → t.core.2.1 = s.core.2.1 := by
  rintro t ⟨⟩
  exact (State.markMode_words _ _ _).trans (words_of (s.advanceTo_core now))

theorem State.markFrame_words (s : State) (a b : W64) : (s.markFrame a b).core.2.1 = s.core.2.1 := by
  unfold State.markFrame
  dsimp only
  split
  · exact words_of (State.markStart_core _ _ _)
  · exact words_of (State.markEnd_core _ _ _)
  · exact words_of (State.markSync_core _ _ _ _)
  · exact words_of (State.markFlushAt_core _ _ _ _)
  · exact State.markMode_words _ _ _
  · exact words_of (State.marker_core _ _ _ _ _ _ fun t => State.markIgnored_core _)

section Blocks

variable {mark : State → W64 → W64 → State} (hm : ∀ t a b, (mark t a b).core.2.1 = t.core.2.1)
include hm

theorem State.frameWhole_words (s : State) (n : Nat) (ws : List W64) (tail : W64) :
    (s.frameWhole n ws tail mark).core.2.1 = s.core.2.1 := by
  unfold State.frameWhole
  split
  · rfl
  dsimp only
  split
  · simp
  split
  · simp
  split
  · simp
  · split
    · simp
    · split <;> simp
  · split
    · split
      · simp
      split
      · simp [hm]
      · simp
    · simp

theorem State.rxWord_words (s : State) (n : Nat) (b : LineBlock) : (s.rxWord n b mark).core.2.1 = s.core.2.1 := by
  have hf := fun ws tail => State.frameWhole_words hm s n ws tail
  unfold State.rxWord
  dsimp only
  repeat' split
  all_goals simp [hf]

theorem State.rxBlock_words (s : State) (n : Nat) (b : LineBlock) : (s.rxBlock n b mark).core.2.1 = s.core.2.1 := by
  unfold State.rxBlock
  dsimp only
  split
  · rfl
  split
  · split <;> simp
  split
  · exact words_of ((State.rxReserved_core _ _ _).trans (State.setLane_core _ _ _))
  · exact (State.rxWord_words hm _ _ _).trans (words_of (State.setLane_core _ _ _))

end Blocks

theorem execDataFrameReceive_words (n : Lane) (bs : List LineBlock) (s : State) :
    ∀ t, execDataFrameReceive n bs s = .next t → t.core.2.1 = s.core.2.1 := by
  rintro t ⟨⟩
  exact foldl_words _ (fun u b => State.rxBlock_words State.markFrame_words u _ b) _ _

/-! ### The statement -/

/-- A command outside `mayWriteNvd` leaves every word of the NVD. -/
theorem exec_words {c : Instr} {s t : State} (hc : mayWriteNvd c = false) (h : exec c s = .next t) :
    t.core.2.1 = s.core.2.1 := by
  cases ha : actsOnCore c
  · exact words_of (exec_core h ha)
  match c, hc, ha, h with
  | .powerOn _, _, _, h => exact execPowerOn_words _ s t h
  | .powerLoss12V, _, _, h => exact execPowerLoss12V_words s t h
  | .supply24VApply, _, _, h => exact execSupply24VApply_words s t h
  | .supply24VLoss, _, _, h => exact execSupply24VLoss_words s t h
  | .rstNLow, _, _, h => exact execRstNLow_words s t h
  | .rstNRise _, _, _, h => exact execRstNRise_words _ s t h
  | .rstNHigh1ms, _, _, h => exact execRstNHigh1ms_words s t h
  | .resetStuck, _, _, h => exact execResetStuck_words s t h
  | .reqLoad _, _, _, rfl => exact s.reqAccess_words _ _ _
  | .reqSimmer _, _, _, rfl => exact s.reqAccess_words _ _ _
  | .reqCalib _, _, _, rfl => exact s.reqAccess_words _ _ _
  | .reqRun _, _, _, rfl => exact s.reqAccess_words _ _ _
  | .reqDrain _ _, _, _, rfl => exact (State.reqAccess_words _ _ _ _).trans (words_of (s.advanceTo_core _))
  | .reqSafe _ _, _, _, rfl => exact (State.reqAccess_words _ _ _ _).trans (words_of (s.advanceTo_core _))
  | .reqTest _, _, _, rfl => exact s.reqAccess_words _ _ _
  | .safeExit _, _, _, rfl => exact s.reqAccess_words _ _ _
  | .modeTransitionComplete _, _, _, h => exact execModeTransitionComplete_words _ s t h
  | .drainComplete, _, _, h => exact execDrainComplete_words s t h
  | .sliceOpen, _, _, h => exact execSliceOpen_words s t h
  | .markMode _ _ _, _, _, h => exact execMarkMode_words _ _ _ s t h
  | .dataFrameReceive _ _, _, _, h => exact execDataFrameReceive_words _ _ s t h
  | .voteFlip _ _ _, _, _, h => exact execVoteFlip_words _ _ _ s t h

/-- Settles O8: the commands outside `mayWriteNvd` that reach the core at all move its modes, supplies and pins, and none
of them its words. -/
theorem nvdWordsChangeOnlyAsGiven : Obligations.NvdWordsChangeOnlyAsGiven := by
  intro c s t hc h
  exact exec_words hc h

end Sys2Proof.Machine
end

section
/-! O24: what a crossing does to its channel's pulse, the hit that its last event forms, and the record made of a hit (R107 to
R114). -/

namespace Sys2Proof.Machine

/-! ### Conversion -/

/-- A clean word is read as it is, whatever its loss would be put down to (R334). -/
theorem State.memReadC_clean {s : State} {d : Die} {mem idx : Nat} (h : s.clean d mem idx = true) (cause : Nat) :
    s.memReadC d mem idx cause = (true, s) := by
  obtain ⟨hr, hb⟩ := (s.clean_iff d mem idx).1 h
  unfold State.memReadC State.takeRaw
  rw [hb, hr]
  rfl

theorem State.converts_iff (s : State) (c : Nat) (bank : Bool) (e : Edge) : s.converts c bank e = true ↔
    e.wf = true ∧ Edge.isOverrun e = false ∧ s.clean .fed 0x12 (tabIdx c bank e.s) = true := by
  unfold State.converts
  simp [and_assoc]

/-- An edge inside the table, whose entry is clean, is converted to its raw time and leaves no trace (R108). -/
theorem State.convert_clean {s : State} {c : Nat} {bank : Bool} {e : Edge} (h : s.converts c bank e = true) :
    s.convert c bank e = (some (s.rawTime c bank e), s) := by
  obtain ⟨-, ho, hc⟩ := (s.converts_iff c bank e).1 h
  unfold State.convert
  rw [ho, State.memReadC_clean hc]
  rfl

theorem State.hears_iff (s : State) (c t : Nat) : s.hears c t = true ↔
    s.live c t = true ∧ s.fe.blank.contains c = false ∧ s.linesOn = true ∧ s.filled c = false := by
  unfold State.hears
  simp [and_assoc]

/-! ### The time of an event -/

/-- The state with another time, other sticky bits and other rate counts: an edge is converted there as before. -/
def State.clocked (s : State) (tb : Tb) (sts : Sparse Sts) (cnt : Sparse Nat) : State :=
  { s with tb := tb, sts := sts, fe := { s.fe with cnt := cnt } }

theorem State.convert_clocked {s : State} {c : Nat} {bank : Bool} {e : Edge} (h : s.converts c bank e = true) (tb : Tb)
    (sts : Sparse Sts) (cnt : Sparse Nat) :
    (s.clocked tb sts cnt).convert c bank e = (some (s.rawTime c bank e), s.clocked tb sts cnt) :=
  State.convert_clean (s := s.clocked tb sts cnt) h

/-- The wall tick moves the time alone. -/
theorem State.advanceTo_clocked (s : State) (now : Nat) : ∃ tb, s.advanceTo now = s.clocked tb s.sts s.fe.cnt := by
  unfold State.advanceTo
  split <;> exact ⟨_, rfl⟩

/-- The state in which a leading crossing is judged: its tick has passed and its channel's rate has counted it (R97). -/
def State.crossed (s : State) (c tick : Nat) : State := (s.advanceTo (tick + 1)).rateCount c

/-- Counting a crossing moves the sticky bits and the counts alone; a count below its top goes up by one while a gate is set
(R97). -/
theorem State.rateCount_clocked (s : State) (c : Nat) :
    s.rateCount c = s.clocked s.tb (s.rateCount c).sts (s.rateCount c).fe.cnt ∧
      (s.fe.gate ≠ 0 → Sparse.get 0 s.fe.cnt c < 0xFFFFFF →
        Sparse.get 0 (s.rateCount c).fe.cnt c = Sparse.get 0 s.fe.cnt c + 1) := by
  unfold State.rateCount
  by_cases hg : s.fe.gate = 0
  · rw [if_pos hg]
    exact ⟨rfl, fun h => absurd hg h⟩
  rw [if_neg hg]
  dsimp only
  by_cases hn : Sparse.get 0 s.fe.cnt c = 0xFFFFFF
  · rw [if_pos hn]
    exact ⟨rfl, fun _ h => absurd hn (Nat.ne_of_lt h)⟩
  · rw [if_neg hn]
    exact ⟨rfl, fun _ _ => by simp⟩

theorem State.crossed_clocked (s : State) (c tick : Nat) : ∃ tb sts cnt, s.crossed c tick = s.clocked tb sts cnt ∧
    (s.fe.gate ≠ 0 → Sparse.get 0 s.fe.cnt c < 0xFFFFFF → Sparse.get 0 cnt c = Sparse.get 0 s.fe.cnt c + 1) := by
  obtain ⟨tb, ha⟩ := s.advanceTo_clocked (tick + 1)
  unfold State.crossed
  rw [ha]
  obtain ⟨hr, hn⟩ := (s.clocked tb s.sts s.fe.cnt).rateCount_clocked c
  exact ⟨_, _, _, hr, hn⟩

/-! ### What fills and captures leave -/

/-- The pulses and formed hits, the front end, the record path and the modes. -/
def State.front (s : State) : Sparse Pulse × List Formed × Fe × Fed × Hk :=
  (s.tdc.pulse, s.tdc.formed, s.fe, s.fed, s.hk)

theorem State.front_eq_iff (s t : State) : t.front = s.front ↔
    t.tdc.pulse = s.tdc.pulse ∧ t.tdc.formed = s.tdc.formed ∧ t.fe = s.fe ∧ t.fed = s.fed ∧ t.hk = s.hk := by
  unfold State.front
  simp only [Prod.mk.injEq]

/-- An event of a fill concerns the banks and their histograms alone (R118). -/
theorem State.fillEvent_front (s : State) (c code : Nat) (ovr : Bool) : (s.fillEvent c code ovr).front = s.front :=
  ite_keeps State.front _ rfl (ite_keeps State.front _ rfl rfl)

/-- A capture that falls due concerns the waveforms alone (R130). -/
theorem State.captureDue_front (s : State) (c : Nat) (p : Pulse) (high : Nat) : (s.captureDue c p high).front = s.front :=
  ite_keeps State.front _ rfl rfl

/-- Where the table of pulses is that of a state with one pulse written, that channel reads as written and the others as
before. -/
theorem State.pulse_of_setPulse {s t : State} {c : Nat} {q : Pulse} (h : t.tdc.pulse = (s.setPulse c q).tdc.pulse) :
    t.pulse c = q ∧ ∀ d, d ≠ c → t.pulse d = s.pulse d := by
  have ht : ∀ d, t.pulse d = if d = c then q else s.pulse d := fun d => by
    rw [← State.pulse_setPulse]
    unfold State.pulse
    rw [h]
  exact ⟨(ht c).trans (if_pos rfl), fun d hd => (ht d).trans (if_neg hd)⟩

/-! ### A leading crossing -/

/-- What a leading crossing does that the TDC hears while its channel's low output is high, `p` being the channel's pulse and
`s` the state in which the crossing is judged (R110, R112, R114). -/
def State.leadHeard (s : State) (c : Nat) (p : Pulse) (e : Edge) : State :=
  if s.compat then
    match p.lastTick with
    | some x =>
      if e.tick > x then s.leadCompat c p e
      else (s.setPulse c { p with low := true, disc := min 15 (p.disc + 1) }).deadCrossing
    | none => s.leadCompat c p e
  else
    match p.rearm with
    | some m =>
      if p.timing ∨ e.tick < m + 3 then (s.setPulse c { p with low := true }).deadCrossing else s.leadNative c p e
    | none => if p.timing then (s.setPulse c { p with low := true }).deadCrossing else s.leadNative c p e

theorem exec_leadingCrossing_heard {ch : Chan} {e : Edge} {s : State} (hw : e.wf = true) (hh : s.hears ch e.tick = true)
    (hl : (s.pulse ch).low = false) :
    exec (.leadingCrossing ch e) s = .next ((s.crossed ch e.tick).leadHeard ch (s.pulse ch) e) := by
  obtain ⟨hlive, hblank, hon, hfill⟩ := (s.hears_iff _ _).1 hh
  obtain ⟨tb, sts, cnt, hu, -⟩ := s.crossed_clocked ch e.tick
  have hshut : ¬((!(s.crossed ch e.tick).linesOn) = true ∨ (s.crossed ch e.tick).filled ch = true) := by
    rw [hu]
    show ¬((!s.linesOn) = true ∨ s.filled ch = true)
    simp [hon, hfill]
  show execLeadingCrossing ch e s = _
  unfold execLeadingCrossing
  rw [if_pos (show (Instr.leadingCrossing ch e).wf = true from hw)]
  dsimp only
  rw [if_neg (by simp only [hblank, hl]; decide), if_neg (by simp only [hlive]; decide)]
  exact congrArg Host.Outcome.next (if_neg hshut)

section
variable {s : State} {c : Nat} {p : Pulse} {e : Edge}

/-- In native mode a crossing from the third tick of an idle channel's re-arm on is timed (R112). -/
theorem State.leadHeard_native (hn : s.compat = false) (ht : p.timing = false)
    (hr : p.rearm = none ∨ ∃ m, p.rearm = some m ∧ m + 3 ≤ e.tick) : s.leadHeard c p e = s.leadNative c p e := by
  unfold State.leadHeard
  rcases hr with hr | ⟨m, hr, hm⟩
  · simp [hn, ht, hr]
  · simp [hn, ht, hr, hm]

/-- One while the channel is timing, or earlier in its re-arm, finds it dead (R112). -/
theorem State.leadHeard_dead (hn : s.compat = false)
    (hr : p.timing = true ∨ ∃ m, p.rearm = some m ∧ e.tick < m + 3) :
    s.leadHeard c p e = (s.setPulse c { p with low := true }).deadCrossing := by
  unfold State.leadHeard
  rcases hr with ht | ⟨m, hr, hm⟩
  · cases h : p.rearm <;> simp [hn, ht]
  · simp [hn, hr, hm]

/-- In compatibility mode a crossing in a later tick than the last one's is a hit (R114). -/
theorem State.leadHeard_compat (hc : s.compat = true) (hx : ∀ x, p.lastTick = some x → x < e.tick) :
    s.leadHeard c p e = s.leadCompat c p e := by
  unfold State.leadHeard
  cases h : p.lastTick with
  | none => simp [hc]
  | some x => simp [hc, hx x h]

/-- One in the same tick is discarded (R114). -/
theorem State.leadHeard_discard (hc : s.compat = true) {x : Nat} (hp : p.lastTick = some x) (hx : e.tick ≤ x) :
    s.leadHeard c p e = (s.setPulse c { p with low := true, disc := min 15 (p.disc + 1) }).deadCrossing := by
  unfold State.leadHeard
  simp [hc, hp, hx]

/-- The pulse that a timed leading crossing opens (R110, R112). -/
def State.ledPulse (s : State) (c : Nat) (p : Pulse) (e : Edge) : Pulse :=
  let b := (s.banks c).active
  let raw := s.rawTime c b e
  let cal := s.calMark c e.tick
  { p with
    low := true, held := false, timing := true, lead := raw, high := if p.held then some raw else none, latest := raw,
    bank := b, skew := s.skewNow c, cal := cal, strobe := s.strobeOf cal, lost := false, spent := false, rearm := none,
    edgeTick := e.tick, edges := 1, near := e.s }

/-- A timed leading crossing opens its channel's pulse; a live fill and a held high crossing go their own ways. -/
theorem State.leadNative_front (h : s.converts c (s.banks c).active e = true) :
    (s.leadNative c p e).front = (s.setPulse c (s.ledPulse c p e)).front := by
  unfold State.leadNative
  dsimp only
  rw [State.convert_clean h]
  have hfill := ite_keeps State.front (((s.setPulse c (s.ledPulse c p e)).filling c false) = true)
    (State.fillEvent_front (s.setPulse c (s.ledPulse c p e)) c e.s (Edge.isOverrun e)) rfl
  exact ite_keeps State.front _ ((State.captureDue_front _ _ _ _).trans hfill) hfill

/-- The hit that a leading crossing of compatibility mode is (R114). -/
def State.compatHit (s : State) (c : Nat) (p : Pulse) (e : Edge) : Formed :=
  let raw := s.rawTime c (s.banks c).active e
  let cc := corrected raw (s.skewNow c)
  let cal := s.calMark c e.tick
  let no := if p.hitSlice = s.sliceOf (cc / 2048) then p.hitNo else 0
  ⟨c, raw, none, cc, 0, 0xFF, cal, s.strobeOf cal, true, no % 256, p.disc, false⟩

/-- The pulse that it leaves: the tick and the hit's number in its slice are noted. -/
def State.compatPulse (s : State) (c : Nat) (p : Pulse) (e : Edge) : Pulse :=
  let sl := s.sliceOf ((s.compatHit c p e).c / 2048)
  { p with
    low := true, lastTick := some e.tick, disc := 0, hitSlice := sl,
    hitNo := (if p.hitSlice = sl then p.hitNo else 0) + 1, edgeTick := e.tick, edges := 1, near := e.s }

/-- The state with one more formed hit. -/
def State.withFormed (s : State) (f : Formed) : State := { s with tdc := { s.tdc with formed := s.tdc.formed ++ [f] } }

theorem State.leadCompat_front (h : s.converts c (s.banks c).active e = true) :
    (s.leadCompat c p e).front = ((s.setPulse c (s.compatPulse c p e)).withFormed (s.compatHit c p e)).front := by
  unfold State.leadCompat
  dsimp only
  rw [State.convert_clean h]
  exact ite_keeps State.front _ (State.fillEvent_front _ _ _ _) rfl

end

section
variable {ch : Chan} {e : Edge} {s : State} (hh : s.hears ch e.tick = true) (hl : (s.pulse ch).low = false)
include hh hl

/-- A leading crossing of native mode that an idle channel hears. -/
theorem leadingCrossing_timed (hn : s.compat = false) (hc : s.converts ch (s.banks ch).active e = true)
    (ht : (s.pulse ch).timing = false)
    (hr : (s.pulse ch).rearm = none ∨ ∃ m, (s.pulse ch).rearm = some m ∧ m + 3 ≤ e.tick) :
    ∃ t, exec (.leadingCrossing ch e) s = .next t ∧ t.pulse ch = s.ledPulse ch (s.pulse ch) e ∧
      (∀ c, c ≠ ch.val → t.pulse c = s.pulse c) ∧
      (s.fe.gate ≠ 0 → Sparse.get 0 s.fe.cnt ch.val < 0xFFFFFF →
        Sparse.get 0 t.fe.cnt ch.val = Sparse.get 0 s.fe.cnt ch.val + 1) ∧
      t.tdc.formed = s.tdc.formed ∧ t.fed = s.fed ∧ t.hk = s.hk := by
  obtain ⟨tb, sts, cnt, hu, hcnt⟩ := s.crossed_clocked ch e.tick
  have hexec := exec_leadingCrossing_heard ((s.converts_iff _ _ _).1 hc).1 hh hl
  rw [hu, State.leadHeard_native (s := s.clocked tb sts cnt) hn ht hr] at hexec
  obtain ⟨hpulse, hformed, hfe, hfed, hhk⟩ := (State.front_eq_iff _ _).1
    (State.leadNative_front (s := s.clocked tb sts cnt) (p := s.pulse ch) hc)
  obtain ⟨hself, hother⟩ := State.pulse_of_setPulse hpulse
  refine ⟨_, hexec, hself, hother, ?_, hformed, hfed, hhk⟩
  rw [hfe]
  exact hcnt

/-- A leading crossing of compatibility mode that is accepted. -/
theorem leadingCrossing_hits (hm : s.compat = true) (hc : s.converts ch (s.banks ch).active e = true)
    (hx : ∀ x, (s.pulse ch).lastTick = some x → x < e.tick) :
    ∃ t, exec (.leadingCrossing ch e) s = .next t ∧ t.pulse ch = s.compatPulse ch (s.pulse ch) e ∧
      (∀ c, c ≠ ch.val → t.pulse c = s.pulse c) ∧
      t.tdc.formed = s.tdc.formed ++ [s.compatHit ch (s.pulse ch) e] := by
  obtain ⟨tb, sts, cnt, hu, -⟩ := s.crossed_clocked ch e.tick
  have hexec := exec_leadingCrossing_heard ((s.converts_iff _ _ _).1 hc).1 hh hl
  rw [hu, State.leadHeard_compat (s := s.clocked tb sts cnt) hm hx] at hexec
  obtain ⟨hpulse, hformed, -⟩ := (State.front_eq_iff _ _).1
    (State.leadCompat_front (s := s.clocked tb sts cnt) (p := s.pulse ch) hc)
  obtain ⟨hself, hother⟩ := State.pulse_of_setPulse (s := s.clocked tb sts cnt) (c := ch)
    (q := s.compatPulse ch (s.pulse ch) e) hpulse
  exact ⟨_, hexec, hself, hother, hformed⟩

/-- A leading crossing in the dead time only moves its channel's pulse to `q` and is counted (R112, R114). -/
theorem leadingCrossing_counted (hw : e.wf = true) {q : Pulse}
    (hq : ∀ u : State, u.compat = s.compat → u.leadHeard ch (s.pulse ch) e = (u.setPulse ch q).deadCrossing) :
    ∃ t, exec (.leadingCrossing ch e) s = .next t ∧ t.pulse ch = q ∧ s.counts t Reg.TDC_DEAD_CNT 1 ∧
      t.tdc.formed = s.tdc.formed := by
  obtain ⟨tb, sts, cnt, hu, -⟩ := s.crossed_clocked ch e.tick
  have hexec := exec_leadingCrossing_heard hw hh hl
  rw [hu, hq (s.clocked tb sts cnt) rfl] at hexec
  obtain ⟨hself, -⟩ := State.pulse_of_setPulse (s := s.clocked tb sts cnt) (c := ch) (q := q) rfl
  exact ⟨_, hexec, hself, State.counts_count rfl 1, rfl⟩

end

/-! ### The later crossings of a pulse -/

/-- The launch of a wavefront changes what the pulse notes of its tick alone (R109). -/
theorem Pulse.launch_eq (p : Pulse) (e : Edge) : ∃ tick n near,
    (p.launch e).1 = { p with edgeTick := tick, edges := n, near := near } := by
  unfold Pulse.launch
  split <;> exact ⟨_, _, _, rfl⟩

/-- The raw time of a later event of a channel's pulse (R109). -/
def State.nextRaw (s : State) (c : Nat) (e : Edge) : Nat :=
  nearPrev (s.pulse c).latest (s.rawTime c (s.pulse c).bank ((s.pulse c).launch e).2)

/-- The pulse with its high crossing timed. -/
def State.risenPulse (s : State) (c : Nat) (e : Edge) : Pulse :=
  { ((s.pulse c).launch e).1 with
    high := some (s.nextRaw c e), latest := s.nextRaw c e, lost := (s.pulse c).lost }

/-- The pulse with its trailing crossing timed, complete. -/
def State.fallenPulse (s : State) (c : Nat) (e : Edge) : Pulse :=
  { ((s.pulse c).launch e).1 with
    low := false, held := false, timing := false, latest := s.nextRaw c e, rearm := some e.tick,
    lost := (s.pulse c).lost }

/-- The leading time stands when the high crossing is timed. -/
theorem State.risenPulse_lead (s : State) (c : Nat) (e : Edge) : (s.risenPulse c e).lead = (s.pulse c).lead := by
  obtain ⟨tick, n, near, h⟩ := (s.pulse c).launch_eq e
  unfold State.risenPulse
  rw [h]

/-- The hit that a channel's pulse forms with this ToT (R110, R113). -/
def State.pulseHit (s : State) (c tot : Nat) : Formed :=
  let p := s.pulse c
  ⟨c, p.lead, p.high, corrected p.lead p.skew, tot, riseOf p.lead p.high, p.cal, p.strobe, false, 0, 0, p.lost⟩

/-- The hit that a complete pulse forms is made of what the crossings before its last one fixed. -/
theorem State.form_fallenPulse (s t : State) (c : Nat) (e : Edge) (tot : Nat) :
    t.form c (s.fallenPulse c e) tot = t.withFormed (s.pulseHit c tot) := by
  obtain ⟨tick, n, near, h⟩ := (s.pulse c).launch_eq e
  unfold State.form State.fallenPulse
  rw [h]
  rfl

/-- A capture falls due where the channel and the mode ask for one (R129). -/
theorem State.captureDue_wf (s : State) (c : Nat) (p : Pulse) (high : Nat) (hn : s.compat = false) :
    (bitOf (s.chanWord c) 54 = false → (s.captureDue c p high).wf = s.wf) ∧
      (bitOf (s.chanWord c) 54 = true → s.captures = true →
        (s.captureDue c p high).wf.waiting.length = s.wf.waiting.length + 1) := by
  unfold State.captureDue
  refine ⟨fun hb => ?_, fun hb hc => ?_⟩
  · simp [hb]
  · simp [hb, hn, hc]

section
variable {ch : Chan} {e : Edge} {s : State} (hw : e.wf = true) (hblank : s.fe.blank.contains ch.val = false)
  (hfill : s.filled ch = false) (hc : s.converts ch (s.pulse ch).bank ((s.pulse ch).launch e).2 = true)
  (hl : (s.pulse ch).low = true) (ht : (s.pulse ch).timing = true)
include hw hblank hfill hc hl ht

/-- The first high crossing of a pulse is timed, and a capture may fall due (R110, R130). -/
theorem exec_highCrossing_first (hon : s.linesOn = true) (hn : s.compat = false) (hh : (s.pulse ch).high = none) :
    exec (.highCrossing ch e) s = .next (((s.advanceTo (e.tick + 1)).setPulse ch (s.risenPulse ch e)).captureDue ch
      (s.risenPulse ch e) (s.nextRaw ch e)) := by
  obtain ⟨tb, ha⟩ := s.advanceTo_clocked (e.tick + 1)
  show execHighCrossing ch e s = _
  unfold execHighCrossing
  rw [if_pos (show (Instr.highCrossing ch e).wf = true from hw)]
  dsimp only
  rw [if_neg (by simpa [ht, hon, hn, hfill] using hblank), if_neg (by simp [hl]), if_neg (by simp [ht, hh]),
    ha, State.convert_clocked hc]
  simp only [Option.isNone_some, Bool.or_false]
  rfl

/-- Timing it leaves the other pulses, and the waveforms where the channel asks for none (R110, R129, R130). -/
theorem highCrossing_timed (hon : s.linesOn = true) (hn : s.compat = false) (hh : (s.pulse ch).high = none) :
    ∃ t, exec (.highCrossing ch e) s = .next t ∧ (t.pulse ch).high = some (s.nextRaw ch e) ∧
      (t.pulse ch).lead = (s.pulse ch).lead ∧ (∀ c, c ≠ ch.val → t.pulse c = s.pulse c) ∧
      (bitOf (s.chanWord ch) 54 = false → t.wf = s.wf) ∧
      (bitOf (s.chanWord ch) 54 = true → s.captures = true → t.wf.waiting.length = s.wf.waiting.length + 1) := by
  obtain ⟨tb, ha⟩ := s.advanceTo_clocked (e.tick + 1)
  have hexec := exec_highCrossing_first hw hblank hfill hc hl ht hon hn hh
  rw [ha] at hexec
  obtain ⟨hpulse, -⟩ := (State.front_eq_iff _ _).1 (State.captureDue_front
    ((s.clocked tb s.sts s.fe.cnt).setPulse ch (s.risenPulse ch e)) ch (s.risenPulse ch e) (s.nextRaw ch e))
  obtain ⟨hself, hother⟩ := State.pulse_of_setPulse hpulse
  refine ⟨_, hexec, ?_, ?_, hother,
    State.captureDue_wf ((s.clocked tb s.sts s.fe.cnt).setPulse ch (s.risenPulse ch e)) _ _ _ hn⟩
  · rw [hself]
    rfl
  · rw [hself, State.risenPulse_lead]

/-- The trailing crossing completes the pulse and forms its hit (R110, R112). -/
theorem exec_trailingCrossing_complete : exec (.trailingCrossing ch e) s =
    .next (((s.advanceTo (e.tick + 1)).setPulse ch (s.fallenPulse ch e)).form ch (s.fallenPulse ch e)
      (totOf (s.pulse ch).lead (s.nextRaw ch e))) := by
  obtain ⟨tb, ha⟩ := s.advanceTo_clocked (e.tick + 1)
  have hshut : (s.advanceTo (e.tick + 1)).filled ch = false := by
    rw [ha]
    exact hfill
  show execTrailingCrossing ch e s = _
  unfold execTrailingCrossing
  rw [if_pos (show (Instr.trailingCrossing ch e).wf = true from hw)]
  dsimp only
  rw [if_neg (by simp [hl]), if_neg (by simpa using hblank), if_neg (by simp [hshut]), if_pos ht, ha,
    State.convert_clocked hc]
  simp only [Option.isNone_some, Bool.or_false]
  rfl

/-- The completed pulse leaves the others, and its channel in the re-arm (R112). -/
theorem trailingCrossing_forms : ∃ t, exec (.trailingCrossing ch e) s = .next t ∧
    t.tdc.formed = s.tdc.formed ++ [s.pulseHit ch (totOf (s.pulse ch).lead (s.nextRaw ch e))] ∧
    t.pulse ch = s.fallenPulse ch e ∧ ∀ c, c ≠ ch.val → t.pulse c = s.pulse c := by
  obtain ⟨tb, ha⟩ := s.advanceTo_clocked (e.tick + 1)
  have hexec := exec_trailingCrossing_complete hw hblank hfill hc hl ht
  rw [State.form_fallenPulse, ha] at hexec
  obtain ⟨hself, hother⟩ := State.pulse_of_setPulse (s := s.clocked tb s.sts s.fe.cnt) (c := ch)
    (q := s.fallenPulse ch e) rfl
  exact ⟨_, hexec, rfl, hself, hother⟩

end

/-- The pulse that no trailing crossing has completed in time. -/
def State.expiredPulse (s : State) (c : Nat) : Pulse := { s.pulse c with timing := false, spent := (s.pulse c).low }

/-- R111: the pulse ends without a trailing crossing, and but for an internal fill its hit is formed with ToT 0xFFF. -/
theorem totTimeout_forms {ch : Chan} {s : State} (ht : (s.pulse ch).timing = true) :
    ∃ t, exec (.totTimeout ch) s = .next t ∧
      t.tdc.formed = s.tdc.formed ++ (if s.filled ch then [] else [s.pulseHit ch 0xFFF]) ∧
      (t.pulse ch).timing = false ∧ t = { s with tdc := t.tdc, tb := t.tb } := by
  obtain ⟨tb, ha⟩ := s.advanceTo_clocked ((s.pulse ch).lead / 2048 + 129)
  have hexec : exec (.totTimeout ch) s = .next (if s.filled ch then
        (s.clocked tb s.sts s.fe.cnt).setPulse ch (s.expiredPulse ch)
      else ((s.clocked tb s.sts s.fe.cnt).setPulse ch (s.expiredPulse ch)).form ch (s.expiredPulse ch) 0xFFF) := by
    show execTotTimeout ch s = _
    unfold execTotTimeout
    dsimp only
    rw [if_pos ht, ha]
    rfl
  obtain ⟨hself, -⟩ := State.pulse_of_setPulse (s := s) (c := ch) (q := s.expiredPulse ch) rfl
  have htiming := congrArg Pulse.timing hself
  refine ⟨_, hexec, ?_⟩
  cases s.filled ch
  · exact ⟨rfl, htiming, rfl⟩
  · exact ⟨(List.append_nil _).symm, htiming, rfl⟩

/-! ### The record of a hit -/

/-- The accumulation of R126 concerns the skew sums alone. -/
theorem State.skewAdd_eq (s : State) (f : Formed) :
    s.skewAdd f = { s with tdc := { s.tdc with skew := (s.skewAdd f).tdc.skew } } := by
  unfold State.skewAdd
  split
  · rfl
  · dsimp only
    split <;> rfl

/-- A record enters an input stage that has room (R189). -/
theorem State.stageIn_room {s : State} {c : Nat} (h : (s.group (groupOf c)).stage.length < 64) (e : Ent) :
    s.stageIn c e = s.setGroup (groupOf c) { s.group (groupOf c) with stage := (s.group (groupOf c)).stage ++ [e] } := by
  unfold State.stageIn
  exact if_neg (Nat.not_le.2 h)

section
variable {ch : Chan} {s : State} {f : Formed} {rest : List Formed} (hf : takeFormed ch.val s.tdc.formed = some (f, rest))
include hf

/-- Outside a run the channel's oldest formed hit is taken, and no record is made of it (R113). -/
theorem exec_hitEmit_unrecorded (hr : s.recording f.c = false) :
    exec (.hitEmit ch) s = .next (({ s with tdc := { s.tdc with formed := rest } } : State).skewAdd f) := by
  show execHitEmit ch s = _
  unfold execHitEmit
  rw [hf]
  simp [hr]

/-- In a run its record is offered to the input stage of its group (R113, R189). -/
theorem exec_hitEmit_recorded (hr : s.recording f.c = true) (hl : f.lost = false) :
    exec (.hitEmit ch) s = .next ((({ s with tdc := { s.tdc with formed := rest } } : State).skewAdd f).stageIn f.chan
      ⟨s.hitWord f, .hit, f.chan, f.c, s.sliceOf (f.c / 2048), 0, false⟩) := by
  show execHitEmit ch s = _
  unfold execHitEmit
  rw [hf]
  simp [hr, hl]

end

/-! ### The statement -/

/-- Settles O24: each crossing by the branch of the TDC that hears it, each formed hit by what is made of it. -/
theorem pulsesBecomeRecords : Obligations.PulsesBecomeRecords := by
  unfold Obligations.PulsesBecomeRecords
  intro ch e s
  refine ⟨fun hh hn hc hl ht hr => ?_, fun hw hh hn hl hr => ?_, fun hh hm hc hl hx => ?_,
    fun x hw hh hm hl hp hx => ?_, fun hw hblank hon hfill hn hc hl ht hh => ?_, fun hw hblank hfill hc hl ht => ?_,
    fun ht => ?_, fun f rest hf => ⟨fun hr => ?_, fun hr hlost hroom => ?_⟩⟩
  · obtain ⟨t, hexec, hself, hother, hrest⟩ := leadingCrossing_timed hh hl hn hc ht hr
    refine ⟨t, hexec, ?_, ?_, ?_, ?_, ?_, hother, hrest⟩ <;> rw [hself] <;> rfl
  · exact leadingCrossing_counted hh hl hw fun u hu => State.leadHeard_dead (hu.trans hn) hr
  · obtain ⟨t, hexec, hself, hother, hformed⟩ := leadingCrossing_hits hh hl hm hc hx
    refine ⟨t, hexec, ⟨hformed, ?_, ?_⟩, ?_, ?_, ?_, hother⟩ <;> rw [hself] <;> rfl
  · exact leadingCrossing_counted hh hl hw fun u hu => State.leadHeard_discard (hu.trans hm) hp hx
  · exact highCrossing_timed hw hblank hfill hc hl ht hon hn hh
  · obtain ⟨t, hexec, hformed, hself, hother⟩ := trailingCrossing_forms hw hblank hfill hc hl ht
    refine ⟨t, hexec, hformed, ?_, ?_, ?_, hother⟩ <;> rw [hself] <;> rfl
  · exact totTimeout_forms ht
  · refine ⟨_, exec_hitEmit_unrecorded hf hr, ?_, ?_⟩ <;> rw [State.skewAdd_eq]
  · have hexec := exec_hitEmit_recorded hf hr hlost
    rw [State.skewAdd_eq, State.stageIn_room (by exact hroom)] at hexec
    exact ⟨_, hexec, rfl, rfl⟩

end Sys2Proof.Machine
end

section
/-! O2: the idle step, by what the tick's three parts leave: the time, the FLUSH markers and the ageing record (R254, R304,
R381). -/

namespace Sys2Proof.Machine

/-! ### The time base through the FLUSH markers of a tick -/

section
variable (s : State)

theorem State.insertBarrier_tb (b : Barrier) : (s.insertBarrier b).tb = s.tb := by
  unfold State.insertBarrier
  extract_lets c p nr nj q later k rel jbs c1 x t j
  refine ite_keeps State.tb _ (s.setCd_tb _) (ite_keeps State.tb _ ?_ (s.setCd_tb _))
  rw [State.count_tb, State.count_tb, State.count_tb, State.count_tb]
  exact s.setCd_tb _

theorem State.recordBarrier_tb (b : Barrier) : (s.recordBarrier b).tb = s.tb :=
  ite_keeps State.tb _ (s.setOther_tb _) rfl

theorem State.standBarrier_tb (b : Barrier) : (s.standBarrier b).tb = s.tb := by
  refine ite_keeps State.tb _ ?_ ?_
  · rw [State.setCd_tb, State.insertBarrier_tb, State.recordBarrier_tb]
  · rw [State.setCd_tb, State.recordBarrier_tb]

theorem State.flushAt_tb (n id : Nat) : (s.flushAt n id).tb = s.tb :=
  ite_keeps State.tb _ ((State.event_tb _ _ _).trans (s.count_tb _ _)) (s.standBarrier_tb _)

theorem State.runFlushes_tb : s.runFlushes.tb = s.tb := by
  have h : ∀ (t : State) (f : Nat × Nat), (t.flushAt f.1 f.2).tb = t.tb := fun t f => t.flushAt_tb f.1 f.2
  exact (foldl_keeps State.tb h _ _).trans rfl

/-! ### The ageing record -/

theorem State.writeRecord_tb (w : W64) (rest : List W64) : (s.writeRecord w rest).tb = s.tb :=
  ite_keeps State.tb _ (State.setReg_tb _ _ _) rfl

theorem State.recordWord_tb : s.recordWord.tb = s.tb := by
  unfold State.recordWord
  split
  · exact ite_keeps State.tb _ rfl (s.writeRecord_tb _ _)
  · rfl

end

/-- Without a record being written, or under an NVD command, a tick writes no word (R381). -/
theorem State.recordWord_idle {s : State} (h : s.age.writing = none ∨ s.nvd.busy ≠ none) : s.recordWord = s := by
  unfold State.recordWord
  split
  · next w rest hw =>
    have hb : s.nvd.busy ≠ none := h.resolve_left (by rw [hw]; exact Option.some_ne_none _)
    rw [if_pos (Option.isSome_iff_ne_none.2 hb)]
  · rfl

theorem State.recordWord_writes {s : State} {w : W64} {rest : List W64} (hw : s.age.writing = some (w :: rest))
    (hb : s.nvd.busy = none) : s.recordWord = s.writeRecord w rest := by
  unfold State.recordWord
  rw [hw, hb]
  rfl

/-- The next word goes to its place in the log; the last one completes the record, whose number shows in AGE_RSEQ and
advances (R381). -/
theorem State.writeRecord_spec (s : State) (w : W64) (rest : List W64) :
    (s.writeRecord w rest).nvd.words =
      Sparse.put 0 ((0x100000 + 256 * (s.age.rseq % 4096) + 8 * (31 - rest.length)) / 8) w s.nvd.words ∧
    (s.writeRecord w rest).age = { s.age with
      writing := if rest = [] then none else some rest,
      rseq := if rest = [] then (s.age.rseq + 1) % 2 ^ 32 else s.age.rseq } ∧
    (rest = [] → (s.writeRecord w rest).reg Reg.AGE_RSEQ = BitVec.ofNat 32 s.age.rseq) ∧
    s.writeRecord w rest = { s with
      nvd := (s.writeRecord w rest).nvd, age := (s.writeRecord w rest).age, regs := (s.writeRecord w rest).regs,
      err := (s.writeRecord w rest).err } := by
  unfold State.writeRecord
  by_cases hr : rest = []
  · simp only [if_pos hr]
    exact ⟨rfl, rfl, fun _ => State.reg_setReg _ _ _, rfl⟩
  · simp only [if_neg hr]
    exact ⟨rfl, rfl, fun h => absurd h hr, rfl⟩

/-! ### The statement -/

/-- Where ACLK runs, an idle step is a tick (R34, R254). -/
theorem State.tick_runs {s : State} (hb : s.hk.mode ≠ .boot) (hl : s.hk.mode ≠ .load) :
    s.tick = (s.advance 1).runFlushes.recordWord :=
  if_pos (by simp [State.aclkRuns, hb, hl])

/-- Where it stands, nothing moves. -/
theorem State.tick_stands {s : State} (h : s.hk.mode = .boot ∨ s.hk.mode = .load) : s.tick = s :=
  if_neg (by rcases h with h | h <;> simp [State.aclkRuns, h])

/-- Settles O2: the three parts of a tick, of which the FLUSH markers and the record leave the time. -/
theorem emptyQueueLetsOneTickPass : Obligations.EmptyQueueLetsOneTickPass := by
  unfold Obligations.EmptyQueueLetsOneTickPass
  intro s hp
  have hstep : step s = .next s.tick := by
    unfold step
    rw [hp]
  refine ⟨fun h => by rw [hstep, State.tick_stands h], fun hb hl => ⟨s.tick, hstep, ?_⟩⟩
  rw [State.tick_runs hb hl]
  have htb : (s.advance 1).runFlushes.recordWord.tb = (s.advance 1).tb :=
    (State.recordWord_tb _).trans (State.runFlushes_tb _)
  refine ⟨by rw [htb]; rfl, by rw [htb]; rfl, fun hf => ?_⟩
  rw [State.runFlushes_none (s := s.advance 1) hf]
  refine ⟨fun hidle => ?_, fun w rest hw hbusy => ?_⟩
  · rw [State.recordWord_idle (s := s.advance 1) hidle]
    rfl
  · rw [State.recordWord_writes (s := s.advance 1) hw hbusy]
    obtain ⟨hwords, hage, hrseq, honly⟩ := (s.advance 1).writeRecord_spec w rest
    refine ⟨hwords, hage, hrseq, honly.trans ?_⟩
    rw [State.writeRecord_tb]
    rfl

end Sys2Proof.Machine
end

section
/-! O25, the banks: what a fill's steps do to a channel's banks, its histograms and its tables, each by itself (R117 to
R122). -/

namespace Sys2Proof

/-- A key that a filter of keys lets through reads as before. -/
theorem Sparse.get_filter_of {α : Type} (d : α) (p : Nat → Bool) {j : Nat} (h : p j = true) (m : Sparse α) :
    Sparse.get d (m.filter (fun e => p e.1)) j = Sparse.get d m j := by
  induction m with
  | nil => rfl
  | cons e m ih =>
    obtain ⟨k, v⟩ := e
    by_cases hk : p k = true
    · rw [List.filter_cons_of_pos (p := fun e : Nat × α => p e.1) hk]
      unfold Sparse.get
      rw [ih]
    · have hj : j ≠ k := fun he => hk (he ▸ h)
      rw [List.filter_cons_of_neg (p := fun e : Nat × α => p e.1) hk, ih]
      exact (if_neg hj).symm

end Sys2Proof

namespace Sys2Proof.Machine

/-! ### The banks of a channel -/

theorem State.banks_congr {s t : State} (h : t.tdc.banks = s.tdc.banks) (c : Nat) : t.banks c = s.banks c := by
  unfold State.banks
  rw [h]

/-- A channel's banks read as written, the others as before. -/
@[simp] theorem State.banks_setBanks (s : State) (c d : Nat) (b : Banks) :
    (s.setBanks c b).banks d = if d = c then b else s.banks d :=
  Sparse.get_put _ _ _ _ _

@[simp] theorem Banks.setSt_active (b : Banks) (bank : Bool) (x : BankSt) : (b.setSt bank x).active = b.active := by
  cases bank <;> rfl

@[simp] theorem Banks.st_setSt (b : Banks) (bank bank' : Bool) (x : BankSt) :
    (b.setSt bank x).st bank' = if bank' = bank then x else b.st bank' := by
  cases bank <;> cases bank' <;> rfl

/-- A fold whose steps each change the banks of their own channel, in a way that doing it twice does not change. -/
theorem State.banks_foldl {f : State → Nat → State} {g : Nat → Banks → Banks}
    (hf : ∀ t c d, (f t c).banks d = if d = c then g c (t.banks c) else t.banks d) (hg : ∀ c b, g c (g c b) = g c b)
    (l : List Nat) (s : State) (d : Nat) :
    (l.foldl f s).banks d = if d ∈ l then g d (s.banks d) else s.banks d := by
  induction l generalizing s with
  | nil => rfl
  | cons c l ih =>
    rw [List.foldl_cons, ih, hf]
    by_cases hd : d = c
    · subst hd
      simp [hg]
    · simp [hd]

/-- The state with another fill, or none. -/
def State.withFill (s : State) (x : Option Fill) : State := { s with tdc := { s.tdc with fill := x } }

/-! ### Keys of the histograms and tables -/

/-- Entries of one bank each stand at a place of their own. -/
theorem tabKey_inj {c d i j : Nat} {bank bank' : Bool} (hi : i < 1408) (hj : j < 1408)
    (h : tabKey c bank i = tabKey d bank' j) : c = d ∧ bank = bank' ∧ i = j := by
  have hb : b2n bank < 2 := by cases bank <;> decide
  have hb' : b2n bank' < 2 := by cases bank' <;> decide
  have he : b2n bank = b2n bank' := by
    unfold tabKey at h
    omega
  refine ⟨?_, by revert he; cases bank <;> cases bank' <;> decide, ?_⟩ <;>
  · unfold tabKey at h
    omega

/-- Clearing one bank's table leaves the entries of every other bank. -/
theorem State.tabAt_clearTab {s : State} {c d i : Nat} {bank bank' : Bool} (hi : i < 1408)
    (h : d = c → bank' ≠ bank) : (s.clearTab c bank).tabAt d bank' i = s.tabAt d bank' i := by
  refine Sparse.get_filter_of _ (fun k => decide (k < tabKey c bank 0 ∨ tabKey c bank 0 + 1408 ≤ k)) ?_ _
  by_contra hk
  have hr : ¬(tabKey d bank' i < tabKey c bank 0 ∨ tabKey c bank 0 + 1408 ≤ tabKey d bank' i) := by
    simpa using hk
  obtain ⟨hc, hb, -⟩ := tabKey_inj (j := tabKey d bank' i - tabKey c bank 0) hi (by omega)
    (show tabKey d bank' i = tabKey c bank (tabKey d bank' i - tabKey c bank 0) by unfold tabKey at *; omega)
  exact h hc hb

/-- A written entry reads as written, every other one of the tables as before. -/
theorem State.tabAt_setTab (s : State) (c : Nat) (bank : Bool) (i v : Nat) : (s.setTab c bank i v).tabAt c bank i = v :=
  Sparse.get_put_self _ _ _ _

theorem State.tabAt_setTab_ne (s : State) {c i d j : Nat} {bank bank' : Bool} (h : tabKey d bank' j ≠ tabKey c bank i)
    (v : Nat) : (s.setTab c bank i v).tabAt d bank' j = s.tabAt d bank' j :=
  Sparse.get_put_ne _ _ _ _ _ _ h

/-! ### A fill starts, stops, and is ordered to swap -/

/-- The banks of a channel whose standby bank starts to fill (R118). -/
def Banks.toFill (b : Banks) (len : Nat) : Banks :=
  { b.setSt (!b.active) .filling with n := 0, top := 0, ovr := false, fillLen := len }

/-- The banks of a channel whose fill ends with a hard result (R120). -/
def Banks.toFailed (b : Banks) (result : Nat) : Banks :=
  { b.setSt (!b.active) .failed with result := result, span := min 2047 b.top }

theorem Banks.toFill_toFill (b : Banks) (len : Nat) : (b.toFill len).toFill len = b.toFill len := by
  unfold Banks.toFill Banks.setSt
  cases b.active <;> rfl

theorem Banks.toFailed_toFailed (b : Banks) (r : Nat) : (b.toFailed r).toFailed r = b.toFailed r := by
  unfold Banks.toFailed Banks.setSt
  cases b.active <;> rfl

theorem Banks.toFill_spec (b : Banks) (len : Nat) :
    (b.toFill len).n = 0 ∧ (b.toFill len).active = b.active ∧ (b.toFill len).st (!b.active) = .filling :=
  ⟨rfl, b.setSt_active _ _, (b.st_setSt _ _ _).trans (if_pos rfl)⟩

theorem Banks.toFailed_active (b : Banks) (r : Nat) : (b.toFailed r).active = b.active := b.setSt_active _ _

theorem State.banks_startFill (s : State) (len c d : Nat) :
    (s.startFill len c).banks d = if d = c then (s.banks c).toFill len else s.banks d :=
  s.banks_setBanks c d _

theorem State.banks_hardResult (s : State) (c r d : Nat) :
    (s.hardResult c r).banks d = if d = c then (s.banks c).toFailed r else s.banks d := by
  refine (State.banks_congr ?_ d).trans (s.banks_setBanks c d ((s.banks c).toFailed r))
  unfold State.hardResult
  dsimp only
  rw [State.event_tdc]
  rfl

end Sys2Proof.Machine
end

section
/-! O25, the commands of TDC_CD_CMD: FILL_INTERNAL, FILL_LIVE, SWAP and ABORT (R119, R121, R122, R124). -/

namespace Sys2Proof.Machine

/-! ### What the request's count leaves -/

section
variable (s : State) (lane : Nat)

theorem State.tdc_got : (s.got lane).tdc = s.tdc := State.countLane_tdc _ _ _ _

theorem State.banks_got (c : Nat) : (s.got lane).banks c = s.banks c := State.banks_congr (by rw [State.tdc_got]) c

theorem State.cdGroups_got : (s.got lane).cdGroups = s.cdGroups := by
  unfold State.cdGroups
  rw [s.reg_got lane (by decide), s.reg_got lane (by decide)]

theorem State.live_got (c t : Nat) : (s.got lane).live c t = s.live c t := by
  have he : (s.got lane).err = s.err := State.countLane_err _ _ _ _
  have hcal : (s.got lane).cal = s.cal := State.countLane_cal _ _ _ _
  have hw : (s.got lane).chanWord c = s.chanWord c :=
    State.chanWord_congr (by rw [State.fe_got]) (by rw [hcal]) c
  unfold State.live State.groupsAt State.aclkRuns State.dead State.badKind State.rawAt
  rw [hw, State.fe_got, State.hk_got, he]

theorem State.liveOf_got (gs : List Nat) : (s.got lane).liveOf gs = s.liveOf gs := by
  unfold State.liveOf
  rw [State.fe_got, State.tb_got]
  simp only [State.live_got]

theorem State.lenWords_got {a : Nat} (h : a + 12 < 0x1000000) : (s.got lane).lenWords a = s.lenWords a := by
  unfold State.lenWords
  refine List.map_congr_left (fun i hi => s.reg_got lane ?_)
  have := List.mem_range.1 hi
  omega

end

/-- What a served request leaves whose action is done and keeps the responses and lanes: the answer, and of time measurement
what the action made of it. -/
theorem State.access_acts {s u : State} {lane addr : Nat} {act : State → Rep} (hs : s.serves lane addr = true)
    (h : act (s.got lane) = .done u) (hu : u.asks = (s.got lane).asks) :
    ∃ t, s.access lane addr act = t ∧ s.replied t lane addr Stat.ok 0 ∧ t.tdc = u.tdc := by
  have hasks : u.asks = s.asks := hu.trans (s.asks_got lane)
  exact ⟨_, State.access_done hs h, State.replied_finish (asks_resp hasks) (asks_e hasks lane) _ _ _, State.finish_tdc _ _ _ _ _⟩

/-! ### A fill -/

/-- A fill of the live channels of the selected groups has started (R119, R121). -/
def State.fillStarted (s : State) (internal : Bool) (len : List W32) : State :=
  (s.liveOf s.cdGroups).foldl (fun t c => t.startFill (lenOf len (groupOf c)) c)
    { s with tdc := { s.tdc with
      hard := 0,
      fill := some ⟨internal, false, s.liveOf s.cdGroups, s.liveOf s.cdGroups, s.cdGroups, len⟩ } }

theorem State.startFill_asks (s : State) (len c : Nat) : (s.startFill len c).asks = s.asks := rfl
theorem State.startFill_fill (s : State) (len c : Nat) : (s.startFill len c).tdc.fill = s.tdc.fill := rfl
theorem State.startFill_hard (s : State) (len c : Nat) : (s.startFill len c).tdc.hard = s.tdc.hard := rfl

theorem State.fillStarted_asks (s : State) (internal : Bool) (len : List W32) :
    (s.fillStarted internal len).asks = s.asks :=
  (foldl_keeps State.asks (fun t c => t.startFill_asks _ c) (s.liveOf s.cdGroups) _).trans rfl

theorem State.fillStarted_fill (s : State) (internal : Bool) (len : List W32) : (s.fillStarted internal len).tdc.fill =
    some ⟨internal, false, s.liveOf s.cdGroups, s.liveOf s.cdGroups, s.cdGroups, len⟩ :=
  (foldl_keeps (fun t : State => t.tdc.fill) (fun t c => t.startFill_fill _ c) (s.liveOf s.cdGroups) _).trans rfl

theorem State.fillStarted_hard (s : State) (internal : Bool) (len : List W32) :
    (s.fillStarted internal len).tdc.hard = 0 :=
  (foldl_keeps (fun t : State => t.tdc.hard) (fun t c => t.startFill_hard _ c) (s.liveOf s.cdGroups) _).trans rfl

theorem State.fillStarted_banks (s : State) (internal : Bool) (len : List W32) {c : Nat}
    (hc : c ∈ s.liveOf s.cdGroups) :
    (s.fillStarted internal len).banks c = (s.banks c).toFill (lenOf len (groupOf c)) :=
  (State.banks_foldl (g := fun c b => b.toFill (lenOf len (groupOf c))) (fun t c d => t.banks_startFill _ c d)
    (fun _ b => b.toFill_toFill _) _ _ c).trans (if_pos hc)

/-- FILL_INTERNAL in CALIB, with no fill running and a live channel, starts a fill by TDC_LEN (R121, R124). -/
theorem State.cdCmd_fillInternal {s : State} (ha : s.allows .writeCfg = true) (hm : s.hk.mode = .calib)
    (hf : s.tdc.fill = none) (hl : s.liveOf s.cdGroups ≠ []) :
    s.cdCmd 1 = .done (s.fillStarted true (s.lenWords Reg.TDC_LEN)) := by
  unfold State.cdCmd State.fillStarted
  simp [ha, hm, hf, hl]

/-- FILL_LIVE in CALIB, RUN or DRAIN starts one by TDC_LEN_ACT (R119, R124). -/
theorem State.cdCmd_fillLive {s : State} (ha : s.allows .writeCfg = true)
    (hm : s.hk.mode = .calib ∨ s.hk.mode = .run ∨ s.hk.mode = .drain) (hf : s.tdc.fill = none)
    (hl : s.liveOf s.cdGroups ≠ []) :
    s.cdCmd 2 = .done (s.fillStarted false (s.lenWords Reg.TDC_LEN_ACT)) := by
  have hmode : (s.hk.mode == .calib || s.hk.mode == .run || s.hk.mode == .drain) = true := by
    rcases hm with hm | hm | hm <;> rw [hm] <;> rfl
  unfold State.cdCmd State.fillStarted
  simp only [hmode, ha, hf, hl]
  rfl

/-- What a served command leaves that starts a fill. -/
theorem fill_starts {s : State} {lane op : Nat} {internal : Bool} {len : List W32}
    (hs : s.serves lane Reg.TDC_CD_CMD = true)
    (hact : (s.got lane).cdCmd op = .done ((s.got lane).fillStarted internal len)) :
    ∃ t, s.access lane Reg.TDC_CD_CMD (fun t => t.cdCmd op) = t ∧ s.replied t lane Reg.TDC_CD_CMD Stat.ok 0 ∧
      t.tdc.fill = some ⟨internal, false, s.liveOf s.cdGroups, s.liveOf s.cdGroups, s.cdGroups, len⟩ ∧
      t.tdc.hard = 0 ∧ ∀ c, c ∈ s.liveOf s.cdGroups → (t.banks c).n = 0 ∧ (t.banks c).active = (s.banks c).active ∧
        (t.banks c).st (!(s.banks c).active) = .filling := by
  obtain ⟨t, ht, hrep, htdc⟩ := State.access_acts (act := fun t => t.cdCmd op) hs hact (State.fillStarted_asks _ _ _)
  refine ⟨t, ht, hrep, ?_, ?_, fun c hc => ?_⟩
  · rw [htdc, State.fillStarted_fill, State.cdGroups_got, State.liveOf_got]
  · rw [htdc, State.fillStarted_hard]
  · rw [State.banks_congr (congrArg Tdc.banks htdc),
      State.fillStarted_banks _ _ _ (by rw [State.cdGroups_got, State.liveOf_got]; exact hc), State.banks_got]
    exact Banks.toFill_spec _ _

/-! ### SWAP -/

/-- The live channels of the selected groups whose standby bank holds a table. -/
def State.swapList (s : State) : List Nat :=
  (s.liveOf s.cdGroups).filter (fun c => (s.banks c).st (!(s.banks c).active) == .table)

/-- Those channels wait to swap (R122). -/
def State.swapOrdered (s : State) : State :=
  (s.swapList.foldl (fun t c => t.setBanks c { t.banks c with swapWait := true })
    (s.eventIf (decide (s.swapList.length < (s.liveOf s.cdGroups).length)) Reg.TDC_EVT [2])).withFill
    (some ⟨false, true, s.swapList, s.swapList, s.cdGroups, []⟩)

theorem State.cdCmd_swap {s : State} (ha : s.allows .writeCfg = true) (hf : s.tdc.fill = none) (hl : s.swapList ≠ []) :
    s.cdCmd 3 = .done s.swapOrdered := by
  have hrun : s.aclkRuns = true := by
    unfold State.allows Cls.accepted at ha
    unfold State.aclkRuns
    cases hm : s.hk.mode <;> simp [hm] at ha ⊢
  have hl' : ¬(s.liveOf s.cdGroups).filter (fun c => (s.banks c).st (!(s.banks c).active) == .table) = [] := hl
  unfold State.cdCmd
  simp only [hrun, ha, hf, hl']
  rfl

theorem State.swapOrdered_asks (s : State) : s.swapOrdered.asks = s.asks := by
  have hwait : ∀ (t : State) (c : Nat), (t.setBanks c { t.banks c with swapWait := true }).asks = t.asks := fun _ _ => rfl
  exact (foldl_keeps State.asks hwait s.swapList _).trans (s.eventIf_asks _ _ _)

theorem State.swapOrdered_banks (s : State) {c : Nat} (hc : c ∈ s.swapList) :
    s.swapOrdered.banks c = { s.banks c with swapWait := true } := by
  refine ((State.banks_foldl (g := fun _ b => { b with swapWait := true }) (fun t c d => t.banks_setBanks c d _)
    (fun _ _ => rfl) s.swapList _ c).trans (if_pos hc)).trans ?_
  rw [State.banks_congr (congrArg Tdc.banks (s.eventIf_tdc _ _ _))]

theorem swap_orders {s : State} {lane : Nat} (hs : s.serves lane Reg.TDC_CD_CMD = true)
    (ha : s.allows .writeCfg = true) (hf : s.tdc.fill = none)
    (hl : ∃ c, c ∈ s.liveOf s.cdGroups ∧ (s.banks c).st (!(s.banks c).active) = .table) :
    ∃ t, s.access lane Reg.TDC_CD_CMD (fun t => t.cdCmd 3) = t ∧ s.replied t lane Reg.TDC_CD_CMD Stat.ok 0 ∧
      t.tdc.fill = some ⟨false, true, s.swapList, s.swapList, s.cdGroups, []⟩ ∧
      ∀ c, c ∈ s.swapList → (t.banks c).swapWait = true ∧ (t.banks c).active = (s.banks c).active := by
  have hgot : (s.got lane).swapList = s.swapList := by
    unfold State.swapList
    simp only [State.cdGroups_got, State.liveOf_got, State.banks_got]
  have hne : (s.got lane).swapList ≠ [] := by
    obtain ⟨c, hc, ht⟩ := hl
    rw [hgot]
    exact List.ne_nil_of_mem (List.mem_filter.2 ⟨hc, by rw [ht]; rfl⟩)
  obtain ⟨t, ht, hrep, htdc⟩ := State.access_acts (act := fun t => t.cdCmd 3) hs (State.cdCmd_swap (by rw [State.allows_got, ha])
    (by rw [State.tdc_got, hf]) hne) (State.swapOrdered_asks _)
  refine ⟨t, ht, hrep, ?_, fun c hc => ?_⟩
  · rw [htdc]
    unfold State.swapOrdered State.withFill
    rw [hgot, State.cdGroups_got]
  · rw [State.banks_congr (congrArg Tdc.banks htdc), State.swapOrdered_banks _ (by rw [hgot]; exact hc), State.banks_got]
    exact ⟨rfl, rfl⟩

/-! ### ABORT -/

/-- A state but for its registers, sticky bits and ageing part, which alone a planner's move concerns. -/
def State.offPlan (s : State) : State := { s with regs := [], sts := [], age := State.reset.age }

section
variable (s : State)

theorem State.of_offPlan {s t : State} (h : t.offPlan = s.offPlan) :
    t.tdc = s.tdc ∧ t.resp = s.resp ∧ t.lanes = s.lanes := by
  have htdc := congrArg State.tdc h
  have hresp := congrArg State.resp h
  have hlanes := congrArg State.lanes h
  exact ⟨htdc, hresp, hlanes⟩

theorem State.setBit_offPlan (a i : Nat) (b : Bool) : (s.setBit a i b).offPlan = s.offPlan := rfl
theorem State.event_offPlan (a : Nat) (bs : List Nat) : (s.event a bs).offPlan = s.offPlan := rfl
theorem State.count_offPlan (a n : Nat) : (s.count a n).offPlan = s.offPlan := rfl

theorem State.exhaust_offPlan (m i : Nat) (on : Bool) : (s.exhaust m i on).offPlan = s.offPlan := by
  unfold State.exhaust
  dsimp only
  exact ite_keeps State.offPlan _ rfl rfl

theorem State.setFld_offPlan (a hi lo v : Nat) : (s.setFld a hi lo v).offPlan = s.offPlan := rfl

theorem State.plannerMove_offPlan (f : Bool) : (s.plannerMove f).offPlan = s.offPlan :=
  ite_keeps State.offPlan _ rfl rfl

theorem State.planLen_offPlan (g len : Nat) : (s.planLen g len).offPlan = s.offPlan :=
  (State.plannerMove_offPlan _ _).trans (s.setFld_offPlan (Reg.TDC_LEN + 4 * (g / 16)) (2 * (g % 16) + 1) (2 * (g % 16)) len)

theorem State.margin1_offPlan (now : Bool) (g a : Nat) : (s.margin1 now g a).offPlan = s.offPlan := by
  unfold State.margin1
  dsimp only
  refine ite_keeps State.offPlan _ rfl (ite_keeps State.offPlan _ (s.exhaust_offPlan _ _ _) ?_)
  split
  · exact s.exhaust_offPlan _ _ _
  · exact ite_keeps State.offPlan _ ((State.planLen_offPlan _ _ _).trans (s.exhaust_offPlan _ _ _)) (s.exhaust_offPlan _ _ _)

/-- The planner's part at the end of a fill touches nothing else (R384, R385). -/
theorem State.planFill_offPlan (f : Fill) (chans : List Nat) (e : Bool) : (s.planFill f chans e).offPlan = s.offPlan := by
  unfold State.planFill
  extract_lets due a0 t0 t gs waits a1 u
  have ht : t.offPlan = s.offPlan := ite_keeps State.offPlan _ (ite_keeps State.offPlan _ rfl rfl) rfl
  have hl : ∀ (v : State) (w : Nat × Nat), (v.planLen w.1 w.2).offPlan = v.offPlan := fun v w => v.planLen_offPlan w.1 w.2
  have hu : u.offPlan = s.offPlan := (foldl_keeps State.offPlan hl waits _).trans (ite_keeps State.offPlan _ ht ht)
  exact ite_keeps State.offPlan _ ht
    ((foldl_keeps State.offPlan (fun v g => State.margin1_offPlan v e g _) gs u).trans hu)

theorem State.planFill_tdc (f : Fill) (chans : List Nat) (e : Bool) : (s.planFill f chans e).tdc = s.tdc :=
  (State.of_offPlan (s.planFill_offPlan f chans e)).1

theorem State.planFill_asks (f : Fill) (chans : List Nat) (e : Bool) : (s.planFill f chans e).asks = s.asks :=
  have ⟨_, hresp, hlanes⟩ := State.of_offPlan (s.planFill_offPlan f chans e)
  State.asks_congr hresp hlanes

theorem State.hardResult_asks (c r : Nat) : (s.hardResult c r).asks = s.asks :=
  (State.event_asks _ _ _).trans (State.asks_congr rfl rfl)

end

/-- The state in which every channel left of a fill is ABORTED and no fill runs. -/
def State.fillStopped (s : State) (f : Fill) : State :=
  (f.remain.foldl (fun t c => t.hardResult c 6) s).withFill none

/-- A fill that stops before its events are complete ends, every channel left with the result ABORTED (R121, R124). -/
theorem State.abortFill_spec {s : State} {f : Fill} (hf : s.tdc.fill = some f) (hw : f.swap = false) :
    s.abortFill.asks = s.asks ∧ s.abortFill.tdc.fill = none ∧
      ∀ c, c ∈ f.remain → s.abortFill.banks c = (s.banks c).toFailed 6 := by
  have heq : s.abortFill = (s.fillStopped f).planFill f (f.chans.filter (fun c => !f.remain.contains c)) false := by
    unfold State.abortFill
    rw [hf]
    exact if_neg (by rw [hw]; exact Bool.false_ne_true)
  rw [heq]
  refine ⟨?_, ?_, fun c hc => ?_⟩
  · rw [State.planFill_asks]
    exact foldl_keeps State.asks (fun t c => t.hardResult_asks c 6) f.remain s
  · rw [State.planFill_tdc]
    rfl
  · rw [State.banks_congr (congrArg Tdc.banks (State.planFill_tdc _ _ _ _))]
    exact (State.banks_foldl (g := fun _ b => b.toFailed 6) (fun t c d => t.banks_hardResult c 6 d)
      (fun _ b => b.toFailed_toFailed 6) f.remain s c).trans (if_pos hc)

theorem State.cdCmd_abort {s : State} (ha : s.allows .writeCfg = true) : s.cdCmd 4 = .done s.abortFill := by
  have hb : (s.hk.mode != .boot) = true := by
    unfold State.allows Cls.accepted at ha
    cases hm : s.hk.mode <;> simp [hm] at ha ⊢
  unfold State.cdCmd
  simp only [hb, ha]
  rfl

theorem abort_stops {s : State} {lane : Nat} {f : Fill} (hs : s.serves lane Reg.TDC_CD_CMD = true)
    (ha : s.allows .writeCfg = true) (hf : s.tdc.fill = some f) (hw : f.swap = false) :
    ∃ t, s.access lane Reg.TDC_CD_CMD (fun t => t.cdCmd 4) = t ∧ s.replied t lane Reg.TDC_CD_CMD Stat.ok 0 ∧
      t.tdc.fill = none ∧ ∀ c, c ∈ f.remain → (t.banks c).result = 6 ∧ (t.banks c).active = (s.banks c).active := by
  obtain ⟨hasks, hfill, hbanks⟩ := State.abortFill_spec (s := s.got lane) (by rw [State.tdc_got, hf]) hw
  obtain ⟨t, ht, hrep, htdc⟩ := State.access_acts (act := fun t => t.cdCmd 4) hs (State.cdCmd_abort (by rw [State.allows_got, ha])) hasks
  refine ⟨t, ht, hrep, by rw [htdc, hfill], fun c hc => ?_⟩
  rw [State.banks_congr (congrArg Tdc.banks htdc), hbanks c hc, State.banks_got]
  exact ⟨rfl, Banks.toFailed_active _ _⟩

end Sys2Proof.Machine
end

section
/-! O25, the events and the end of a fill: a launch of codes, the conversion of a histogram, and the swap of one channel
(R108, R118, R120 to R122). -/

namespace Sys2Proof.Machine

/-! ### An event of a fill -/

/-- The count of one entry of a bank's histogram. -/
def State.binAt (s : State) (c : Nat) (bank : Bool) (i : Nat) : Nat := Sparse.get 0 s.tdc.hist (tabKey c bank i)

/-- From `s` to `t` a channel's banks and histograms stand. -/
def State.sameFill (s t : State) (c : Nat) : Prop :=
  t.banks c = s.banks c ∧ ∀ bank i, i < 1408 → t.binAt c bank i = s.binAt c bank i

theorem State.sameFill.trans {s t u : State} {c : Nat} (h : s.sameFill t c) (g : t.sameFill u c) : s.sameFill u c :=
  ⟨g.1.trans h.1, fun bank i hi => (g.2 bank i hi).trans (h.2 bank i hi)⟩

theorem State.sameFill_of_tdc {s t : State} (h : t.tdc = s.tdc) (c : Nat) : s.sameFill t c :=
  ⟨State.banks_congr (by rw [h]) c, fun _ _ _ => by unfold State.binAt; rw [h]⟩

/-- One more event in a bin. -/
def State.addBin (s : State) (c : Nat) (bank : Bool) (i : Nat) : State :=
  { s with tdc := { s.tdc with hist := Sparse.put 0 (tabKey c bank i) (s.binAt c bank i + 1) s.tdc.hist } }

theorem State.binAt_addBin (s : State) (c : Nat) (bank : Bool) (i d : Nat) (bank' : Bool) (j : Nat) :
    (s.addBin c bank i).binAt d bank' j =
      if tabKey d bank' j = tabKey c bank i then s.binAt c bank i + 1 else s.binAt d bank' j := by
  simp only [State.binAt, State.addBin, Sparse.get_put]

/-- The banks of a channel after one more event (R118, R120). -/
def Banks.counted (b : Banks) (code : Nat) (ovr : Bool) : Banks :=
  { b with n := b.n + 1, top := max b.top (code + 1), ovr := b.ovr || ovr }

theorem State.fillEvent_full {s : State} {c : Nat} (h : fillN ≤ (s.banks c).n) (code : Nat) (ovr : Bool) :
    s.fillEvent c code ovr = s := if_pos h

/-- An event of the table's range enters its bin. -/
theorem State.fillEvent_in {s : State} {c : Nat} (h : (s.banks c).n < fillN) {code : Nat} (hc : code < 1408) :
    s.fillEvent c code false =
      (s.setBanks c ((s.banks c).counted code false)).addBin c (!(s.banks c).active) code := by
  unfold State.fillEvent
  exact (if_neg (Nat.not_le.2 h)).trans (if_pos ⟨hc, rfl⟩)

/-- An overrun enters none. -/
theorem State.fillEvent_over {s : State} {c : Nat} (h : (s.banks c).n < fillN) {code : Nat} {ovr : Bool}
    (hc : 1408 ≤ code ∨ ovr = true) : s.fillEvent c code ovr = s.setBanks c ((s.banks c).counted code ovr) := by
  unfold State.fillEvent
  refine (if_neg (Nat.not_le.2 h)).trans (if_neg ?_)
  rintro ⟨hlt, hov⟩
  rcases hc with hc | hc
  · omega
  · rw [hc] at hov
    exact absurd hov (by decide)

/-- An event of one channel is none of another. -/
theorem State.fillEvent_sameFill (s : State) {c d : Nat} (h : d ≠ c) (code : Nat) (ovr : Bool) :
    s.sameFill (s.fillEvent c code ovr) d := by
  have hset : ∀ b, s.sameFill (s.setBanks c b) d := fun b => ⟨(s.banks_setBanks c d b).trans (if_neg h), fun _ _ _ => rfl⟩
  rcases Nat.lt_or_ge (s.banks c).n fillN with hn | hn
  · by_cases hc : 1408 ≤ code ∨ ovr = true
    · rw [State.fillEvent_over hn hc]
      exact hset _
    · obtain ⟨hlt, hov⟩ := not_or.1 hc
      rw [Bool.not_eq_true] at hov
      rw [hov, State.fillEvent_in hn (Nat.lt_of_not_le hlt)]
      refine ⟨(hset _).1, fun bank i hi => ?_⟩
      rw [State.binAt_addBin, if_neg fun he => h (tabKey_inj hi (Nat.lt_of_not_le hlt) he).1]
      rfl
  · rw [State.fillEvent_full hn]
    exact State.sameFill_of_tdc rfl d

/-- It concerns neither the tables nor the fill. -/
theorem State.fillEvent_keeps (s : State) (c code : Nat) (ovr : Bool) :
    (s.fillEvent c code ovr).tdc.fill = s.tdc.fill ∧ (s.fillEvent c code ovr).tdc.tab = s.tdc.tab := by
  unfold State.fillEvent
  dsimp only
  split
  · exact ⟨rfl, rfl⟩
  · split <;> exact ⟨rfl, rfl⟩

/-! ### A launch -/

theorem State.overrun_tdc (s : State) : s.overrun.tdc = s.tdc := (State.event_tdc _ _ _).trans (s.count_tdc _ _)

/-- The state in which a channel counts its event of a launch: a code may have been drawn, an overrun counted. -/
def State.launched (s : State) (codes : List (Nat × Nat × Bool)) (c : Nat) : State :=
  let r := s.launchCode codes c
  if Edge.isOverrun r.1 then r.2.overrun else r.2

theorem State.launchIn_eq (s : State) (codes : List (Nat × Nat × Bool)) (c : Nat) : s.launchIn codes c =
    (s.launched codes c).fillEvent c (s.launchCode codes c).1.s (Edge.isOverrun (s.launchCode codes c).1) := rfl

theorem State.launched_tdc (s : State) (codes : List (Nat × Nat × Bool)) (c : Nat) : (s.launched codes c).tdc = s.tdc := by
  have hcode : (s.launchCode codes c).2.tdc = s.tdc := by
    unfold State.launchCode
    split
    · rfl
    · exact s.draw_tdc
  exact ite_keeps State.tdc _ ((State.overrun_tdc _).trans hcode) hcode

theorem State.launchCode_listed {codes : List (Nat × Nat × Bool)} {c v : Nat} {full : Bool}
    (h : codes.find? (fun x => x.1 == c) = some (c, v, full)) (s : State) : s.launchCode codes c = (⟨0, v, full⟩, s) := by
  unfold State.launchCode
  rw [h]

theorem State.launchIn_sameFill (s : State) (codes : List (Nat × Nat × Bool)) {c d : Nat} (h : d ≠ c) :
    s.sameFill (s.launchIn codes c) d := by
  rw [State.launchIn_eq]
  exact (State.sameFill_of_tdc (s.launched_tdc codes c) d).trans (State.fillEvent_sameFill _ h _ _)

theorem State.launchIn_keeps (s : State) (codes : List (Nat × Nat × Bool)) (c : Nat) :
    ((s.launchIn codes c).tdc.fill, (s.launchIn codes c).tdc.tab) = (s.tdc.fill, s.tdc.tab) := by
  obtain ⟨hf, ht⟩ := (s.launched codes c).fillEvent_keeps c (s.launchCode codes c).1.s
    (Edge.isOverrun (s.launchCode codes c).1)
  rw [State.launchIn_eq, hf, ht, State.launched_tdc]

/-- The channels of a list are the ones a launch into it reaches. -/
theorem State.launches_sameFill (codes : List (Nat × Nat × Bool)) {l : List Nat} {d : Nat} (h : d ∉ l) (s : State) :
    s.sameFill (l.foldl (fun t c => t.launchIn codes c) s) d := by
  induction l generalizing s with
  | nil => exact State.sameFill_of_tdc rfl d
  | cons c l ih =>
    obtain ⟨hc, hl⟩ := not_or.1 (mt List.mem_cons.2 h)
    exact (s.launchIn_sameFill codes hc).trans (ih hl _)

/-- What a launch leaves of a channel whose code it lists. -/
theorem State.launchIn_listed {codes : List (Nat × Nat × Bool)} {c v : Nat} {full : Bool}
    (h : codes.find? (fun x => x.1 == c) = some (c, v, full)) {s : State} (hn : (s.banks c).n < fillN) :
    (s.launchIn codes c).banks c = (s.banks c).counted v (decide (1408 ≤ v) || full) ∧
      (v < 1408 → full = false → (s.launchIn codes c).binAt c (!(s.banks c).active) v =
        s.binAt c (!(s.banks c).active) v + 1) ∧
      (1408 ≤ v ∨ full = true → ∀ bank i, (s.launchIn codes c).binAt c bank i = s.binAt c bank i) := by
  have htdc := s.launched_tdc codes c
  have hb : (s.launched codes c).banks c = s.banks c := State.banks_congr (by rw [htdc]) c
  have hbin : ∀ bank i, (s.launched codes c).binAt c bank i = s.binAt c bank i := fun bank i => by
    unfold State.binAt
    rw [htdc]
  have heq : s.launchIn codes c = (s.launched codes c).fillEvent c v (decide (1408 ≤ v) || full) := by
    rw [State.launchIn_eq, State.launchCode_listed h]
    rfl
  rw [heq]
  by_cases ho : 1408 ≤ v ∨ full = true
  · rw [State.fillEvent_over (by rw [hb]; exact hn) (ho.imp_right fun hf => by rw [hf, Bool.or_true])]
    refine ⟨?_, fun hv hf => ?_, fun _ bank i => hbin bank i⟩
    · rw [State.banks_setBanks, if_pos rfl, hb]
    · rcases ho with ho | ho
      · omega
      · rw [hf] at ho
        exact absurd ho (by decide)
  · obtain ⟨hv, hf⟩ := not_or.1 ho
    rw [Bool.not_eq_true] at hf
    rw [hf, decide_eq_false hv, Bool.or_self, State.fillEvent_in (by rw [hb]; exact hn) (Nat.lt_of_not_le hv)]
    refine ⟨?_, fun _ _ => ?_, fun h => absurd h (by simp [hv])⟩
    · exact ((State.banks_setBanks _ c c _).trans (if_pos rfl)).trans (by rw [hb])
    · rw [hb]
      rw [State.binAt_addBin, if_pos rfl]
      exact congrArg (· + 1) (hbin _ _)

/-- One wavefront into every channel of an internal fill (R119): each channel's event once. -/
theorem fillLaunch_counts {codes : List (Nat × Nat × Bool)} {f : Fill} {s : State} (hw : (Instr.fillLaunch codes).wf = true)
    (hf : s.tdc.fill = some f) (hi : f.internal = true) (hs : f.swap = false) (hd : f.remain.Nodup) :
    ∃ t, exec (.fillLaunch codes) s = .next t ∧ t.tdc.fill = s.tdc.fill ∧ t.tdc.tab = s.tdc.tab ∧
      (∀ c, c ∉ f.remain → s.sameFill t c) ∧
      (∀ c v full, c ∈ f.remain → codes.find? (fun x => x.1 == c) = some (c, v, full) → (s.banks c).n < fillN →
        t.banks c = (s.banks c).counted v (decide (1408 ≤ v) || full) ∧
        (v < 1408 → full = false → t.binAt c (!(s.banks c).active) v = s.binAt c (!(s.banks c).active) v + 1) ∧
        (1408 ≤ v ∨ full = true → ∀ bank i, i < 1408 → t.binAt c bank i = s.binAt c bank i)) := by
  have hexec : exec (.fillLaunch codes) s = .next (f.remain.foldl (fun t c => t.launchIn codes c) s) := by
    show execFillLaunch codes s = _
    unfold execFillLaunch
    rw [if_pos hw, hf]
    dsimp only
    rw [hi, hs]
    rfl
  have hkeep := foldl_keeps (fun t : State => (t.tdc.fill, t.tdc.tab)) (fun t c => t.launchIn_keeps codes c) f.remain s
  refine ⟨_, hexec, congrArg Prod.fst hkeep, congrArg Prod.snd hkeep, fun c hc => State.launches_sameFill codes hc s,
    fun c v full hc hfind hn => ?_⟩
  obtain ⟨l, r, hlr⟩ := List.append_of_mem hc
  rw [hlr] at hd ⊢
  obtain ⟨-, hcr, hdisj⟩ := List.nodup_append.1 hd
  have hl : c ∉ l := fun h => hdisj c h c List.mem_cons_self rfl
  have hr : c ∉ r := (List.nodup_cons.1 hcr).1
  rw [List.foldl_append, List.foldl_cons]
  obtain ⟨hb, hbins⟩ := State.launches_sameFill codes hl s
  generalize l.foldl (fun t c => t.launchIn codes c) s = u at hb hbins ⊢
  obtain ⟨hb', hbins'⟩ := State.launches_sameFill codes hr (u.launchIn codes c)
  obtain ⟨h1, h2, h3⟩ := State.launchIn_listed hfind (s := u) (by rw [hb]; exact hn)
  rw [hb] at h1 h2
  refine ⟨hb'.trans h1, fun hv hfull => ?_, fun ho bank i hi => ?_⟩
  · rw [hbins' _ _ hv, h2 hv hfull, hbins _ _ hv]
  · rw [hbins' _ _ hi, h3 ho, hbins _ _ hi]

/-! ### The conversion of a histogram -/

/-- The events of the `n` highest bins. -/
def State.topBins (s : State) (c : Nat) (bank : Bool) (n : Nat) : Nat :=
  ((List.range n).map (fun j => s.binAt c bank (1407 - j))).sum

/-- The entry that a histogram gives its bin `i` (R118). -/
def State.densityOf (s : State) (c : Nat) (bank : Bool) (i : Nat) : Nat :=
  (2 * s.topBins c bank (1407 - i) + s.binAt c bank i) / 4096

/-- One bin of the conversion, with the events of the bins above it. -/
def State.convertBin (s : State) (c : Nat) (bank : Bool) (p : Nat × State) (j : Nat) : Nat × State :=
  (p.1 + s.binAt c bank (1407 - j),
    p.2.setTab c bank (1407 - j) ((2 * p.1 + s.binAt c bank (1407 - j)) / 4096))

theorem State.convertHist_eq (s : State) (c : Nat) (bank : Bool) : s.convertHist c bank =
    ((List.range 1408).foldl (s.convertBin c bank) (0, s)).2.clearHist c bank := rfl

theorem State.topBins_succ (s : State) (c : Nat) (bank : Bool) (n : Nat) :
    s.topBins c bank (n + 1) = s.topBins c bank n + s.binAt c bank (1407 - n) := by
  unfold State.topBins
  rw [List.range_succ, List.map_append, List.sum_append]
  rfl

/-- After the `n` highest bins their entries stand, and nothing but the tables has changed. -/
theorem State.convertBins_spec (s : State) (c : Nat) (bank : Bool) (n : Nat) (hn : n ≤ 1408) :
    let r := (List.range n).foldl (s.convertBin c bank) (0, s)
    r.1 = s.topBins c bank n ∧ r.2 = { s with tdc := { s.tdc with tab := r.2.tdc.tab } } ∧
      ∀ i, i < 1408 → 1408 ≤ i + n → r.2.tabAt c bank i = s.densityOf c bank i := by
  induction n with
  | zero => exact ⟨rfl, rfl, fun i hi h => by omega⟩
  | succ n ih =>
    obtain ⟨hsum, honly, htab⟩ := ih (by omega)
    rw [List.range_succ, List.foldl_append, List.foldl_cons, List.foldl_nil]
    generalize (List.range n).foldl (s.convertBin c bank) (0, s) = r at hsum honly htab ⊢
    refine ⟨?_, ?_, fun i hi h => ?_⟩
    · rw [State.topBins_succ, ← hsum]
      rfl
    · show r.2.setTab c bank _ _ = _
      rw [honly]
      rfl
    · show (r.2.setTab c bank (1407 - n) ((2 * r.1 + s.binAt c bank (1407 - n)) / 4096)).tabAt c bank i = _
      by_cases he : i = 1407 - n
      · have hi' : 1407 - i = n := by omega
        subst he
        rw [State.tabAt_setTab, hsum]
        unfold State.densityOf
        rw [hi']
      · rw [State.tabAt_setTab_ne _ fun hk => he (tabKey_inj hi (by omega) hk).2.2]
        exact htab i hi (by omega)

/-- The conversion writes every entry by the cumulative rule and leaves all but the tables and histograms (R118). -/
theorem State.convertHist_spec (s : State) (c : Nat) (bank : Bool) :
    s.convertHist c bank = { s with tdc := { s.tdc with
      tab := (s.convertHist c bank).tdc.tab, hist := (s.convertHist c bank).tdc.hist } } ∧
      ∀ i, i < 1408 → (s.convertHist c bank).tabAt c bank i = s.densityOf c bank i := by
  obtain ⟨-, honly, htab⟩ := s.convertBins_spec c bank 1408 (Nat.le_refl _)
  rw [State.convertHist_eq]
  generalize (List.range 1408).foldl (s.convertBin c bank) (0, s) = r at honly htab ⊢
  refine ⟨?_, fun i hi => htab i hi (by omega)⟩
  unfold State.clearHist
  dsimp only
  rw [honly]

/-! ### The end of a fill -/

/-- From `s` to `t` a converted table stands, with its result and span, whichever bank is active. -/
structure State.TableKept (s t : State) (c : Nat) (bank : Bool) : Prop where
  st : (t.banks c).st bank = .table
  result : (t.banks c).result = (s.banks c).result
  span : (t.banks c).span = (s.banks c).span
  tab : ∀ i, i < 1408 → t.tabAt c bank i = s.tabAt c bank i

theorem State.TableKept.trans {s t u : State} {c : Nat} {bank : Bool} (h : s.TableKept t c bank)
    (g : t.TableKept u c bank) : s.TableKept u c bank :=
  ⟨g.st, g.result.trans h.result, g.span.trans h.span, fun i hi => (g.tab i hi).trans (h.tab i hi)⟩

theorem State.TableKept.of_tdc {s t : State} {c : Nat} {bank : Bool} (hb : t.tdc.banks = s.tdc.banks)
    (ht : t.tdc.tab = s.tdc.tab) (h : (s.banks c).st bank = .table) : s.TableKept t c bank := by
  have hbanks := State.banks_congr hb c
  exact ⟨by rw [hbanks, h], by rw [hbanks], by rw [hbanks], fun i _ => by unfold State.tabAt; rw [ht]⟩

/-- The planner's part at the end of a fill keeps a table that stands (R384, R385). -/
theorem State.planFill_ends {s : State} {c : Nat} {bank : Bool} (h : (s.banks c).st bank = .table) (f : Fill)
    (chans : List Nat) (e : Bool) :
    s.TableKept ((s.withFill none).planFill f chans e) c bank ∧ ((s.withFill none).planFill f chans e).tdc.fill = none := by
  have htdc := (s.withFill none).planFill_tdc f chans e
  refine ⟨State.TableKept.of_tdc ?_ ?_ h, ?_⟩ <;>
  · rw [htdc]
    rfl

/-- What the end of an internal fill does to one of its channels (R121): a usable table swaps in; where the line setting
changes, a nominal one. -/
def State.settleFilled (s : State) (moves : Bool) (c : Nat) : State :=
  if (s.banks c).st (!(s.banks c).active) = .table then
    s.setBanks c { s.banks c with active := !(s.banks c).active }
  else if moves then
    ((s.setBanks c { (s.banks c).setSt (!(s.banks c).active) .table with active := !(s.banks c).active }).clearTab c
      (!(s.banks c).active)).clearHist c (!(s.banks c).active)
  else s

/-- A table that stands is neither cleared nor replaced there. -/
theorem State.settleFilled_keeps {s : State} {c : Nat} {bank : Bool} (h : (s.banks c).st bank = .table) (moves : Bool)
    (d : Nat) : s.TableKept (s.settleFilled moves d) c bank := by
  unfold State.settleFilled
  split
  · by_cases hd : c = d
    · subst hd
      refine ⟨?_, ?_, ?_, fun _ _ => rfl⟩ <;> rw [State.banks_setBanks, if_pos rfl]
      exact h
    · refine ⟨?_, ?_, ?_, fun _ _ => rfl⟩ <;> rw [State.banks_setBanks, if_neg hd]
      exact h
  · next hst =>
    split
    · have hb : ∀ x : Banks, (((s.setBanks d x).clearTab d (!(s.banks d).active)).clearHist d
          (!(s.banks d).active)).banks c = if c = d then x else s.banks c := fun x => s.banks_setBanks d c x
      have hne : c = d → bank ≠ !(s.banks d).active := fun hd he => by
        subst hd
        exact hst (he ▸ h)
      refine ⟨?_, ?_, ?_, fun i hi => ?_⟩
      · rw [hb]
        split
        · next hd =>
          refine ((Banks.st_setSt _ _ _ _).trans (if_neg (hne hd))).trans ?_
          rw [← hd, h]
        · exact h
      · rw [hb]
        split
        · next hd =>
          rw [hd]
          unfold Banks.setSt
          cases (s.banks d).active <;> rfl
        · rfl
      · rw [hb]
        split
        · next hd =>
          rw [hd]
          unfold Banks.setSt
          cases (s.banks d).active <;> rfl
        · rfl
      · exact State.tabAt_clearTab (s := s.setBanks d _) hi hne
    · exact State.TableKept.of_tdc rfl rfl h

theorem State.settleFills_keeps {c : Nat} {bank : Bool} (moves : Nat → Bool) (l : List Nat) {s : State}
    (h : (s.banks c).st bank = .table) :
    s.TableKept (l.foldl (fun t d => t.settleFilled (moves d) d) s) c bank := by
  induction l generalizing s with
  | nil => exact State.TableKept.of_tdc rfl rfl h
  | cons d l ih =>
    have hd := State.settleFilled_keeps h (moves d) d
    exact hd.trans (ih hd.st)

/-- The end of an internal fill keeps a table that stands, and no fill runs after it (R121). -/
theorem State.endInternal_spec {s : State} {c : Nat} {bank : Bool} (h : (s.banks c).st bank = .table) (f : Fill) :
    s.TableKept (s.endInternal f) c bank ∧ (s.endInternal f).tdc.fill = none := by
  unfold State.endInternal
  extract_lets old s1 ws s2
  have hs1 : s1 = f.chans.foldl (fun t d => t.settleFilled
      (decide (lenOf old (groupOf d) ≠ lenOf f.len (groupOf d))) d) s := by
    refine congrArg (fun g => f.chans.foldl g s) (funext fun t => funext fun d => ?_)
    unfold State.settleFilled
    simp only [decide_eq_true_eq]
  have hk : s.TableKept s1 c bank := by
    rw [hs1]
    exact State.settleFills_keeps (fun d => decide (lenOf old (groupOf d) ≠ lenOf f.len (groupOf d))) f.chans h
  have hs2 : s2.tdc = s1.tdc :=
    foldl_keeps State.tdc (fun t i => t.setReg_tdc (Reg.TDC_LEN_ACT + 4 * i) (nth 0 ws i)) (List.range 4) s1
  have hk2 : s.TableKept s2 c bank :=
    hk.trans (State.TableKept.of_tdc (congrArg Tdc.banks hs2) (congrArg Tdc.tab hs2) hk.st)
  obtain ⟨hend, hfill⟩ := State.planFill_ends hk2.st f f.chans true
  exact ⟨hk2.trans hend, hfill⟩

/-- The banks of a channel whose fill has become a table (R118, R120). -/
def Banks.toTable (b : Banks) (result : Nat) : Banks :=
  { b.setSt (!b.active) .table with result := result, span := b.top, good := b.top }

theorem Banks.toTable_st (b : Banks) (r : Nat) : (b.toTable r).st (!b.active) = .table :=
  (b.st_setSt _ _ _).trans (if_pos rfl)

/-- A channel's table has been converted, with the result of its fill. -/
def State.tableMade (s : State) (c : Nat) : State :=
  ((s.convertHist c (!(s.banks c).active)).setBanks c ((s.banks c).toTable (s.fillResult c))).eventIf
    (s.fillResult c != 1) Reg.TDC_EVT [3]

/-- Writing a channel's banks, with an event or none, leaves the tables. -/
theorem State.setBanks_eventIf (s : State) (c : Nat) (b : Banks) (x : Bool) (a : Nat) (bs : List Nat) :
    ((s.setBanks c b).eventIf x a bs).banks c = b ∧
      ∀ bank i, ((s.setBanks c b).eventIf x a bs).tabAt c bank i = s.tabAt c bank i := by
  have htdc := (s.setBanks c b).eventIf_tdc x a bs
  refine ⟨?_, fun bank i => ?_⟩
  · rw [State.banks_congr (congrArg Tdc.banks htdc), State.banks_setBanks, if_pos rfl]
  · unfold State.tabAt
    rw [htdc]
    rfl

theorem State.tableMade_spec (s : State) (c : Nat) :
    (s.tableMade c).banks c = (s.banks c).toTable (s.fillResult c) ∧
      ∀ i, i < 1408 → (s.tableMade c).tabAt c (!(s.banks c).active) i = s.densityOf c (!(s.banks c).active) i := by
  obtain ⟨hb, htab⟩ := (s.convertHist c (!(s.banks c).active)).setBanks_eventIf c ((s.banks c).toTable (s.fillResult c))
    (s.fillResult c != 1) Reg.TDC_EVT [3]
  exact ⟨hb, fun i hi => (htab _ i).trans ((s.convertHist_spec c _).2 i hi)⟩

/-- The state in which a fill has done with a channel: it goes on without it, or ends with it (R118, R121). -/
def State.fillLeaves (s : State) (f : Fill) (c : Nat) : State :=
  let f' := { f with remain := setDel c f.remain }
  if f'.remain = [] then
    if f.internal then s.endInternal f' else (s.withFill none).planFill f' f'.chans true
  else s.withFill (some f')

theorem State.fillLeaves_spec {s : State} {f : Fill} {c : Nat} {bank : Bool} (h : (s.banks c).st bank = .table) :
    s.TableKept (s.fillLeaves f c) c bank ∧
      (setDel c f.remain ≠ [] → (s.fillLeaves f c).tdc.fill = some { f with remain := setDel c f.remain }) ∧
      (setDel c f.remain = [] → (s.fillLeaves f c).tdc.fill = none) := by
  unfold State.fillLeaves
  dsimp only
  by_cases hr : setDel c f.remain = []
  · rw [if_pos hr]
    by_cases hi : f.internal = true
    · obtain ⟨hk, hf⟩ := State.endInternal_spec h { f with remain := setDel c f.remain }
      rw [if_pos hi]
      exact ⟨hk, fun hn => absurd hr hn, fun _ => hf⟩
    · obtain ⟨hk, hf⟩ := State.planFill_ends h { f with remain := setDel c f.remain } f.chans true
      rw [if_neg hi]
      exact ⟨hk, fun hn => absurd hr hn, fun _ => hf⟩
  · rw [if_neg hr]
    exact ⟨State.TableKept.of_tdc rfl rfl h, fun _ => rfl, fun hn => absurd hn hr⟩

/-- A channel that holds its events becomes a table and leaves the fill (R118, R120). -/
theorem fillConvert_makes {ch : Chan} {f : Fill} {s : State} (hf : s.tdc.fill = some f) (hc : ch.val ∈ f.remain)
    (hw : f.swap = false) (hn : fillN ≤ (s.banks ch).n) (h4 : s.fillResult ch ≠ 4) (h5 : s.fillResult ch ≠ 5) :
    ∃ t, exec (.fillConvert ch) s = .next t ∧ (t.banks ch).st (!(s.banks ch).active) = .table ∧
      (t.banks ch).result = s.fillResult ch ∧ (t.banks ch).span = (s.banks ch).top ∧
      (∀ i, i < 1408 → t.tabAt ch (!(s.banks ch).active) i = s.densityOf ch (!(s.banks ch).active) i) ∧
      (setDel ch.val f.remain ≠ [] → t.tdc.fill = some { f with remain := setDel ch.val f.remain }) ∧
      (setDel ch.val f.remain = [] → t.tdc.fill = none) := by
  have hexec : exec (.fillConvert ch) s = .next ((s.tableMade ch).fillLeaves f ch) := by
    show execFillConvert ch s = _
    unfold execFillConvert
    rw [hf]
    dsimp only
    rw [if_neg (by simp [hw, hc]; omega), if_neg (not_or.2 ⟨h4, h5⟩)]
    rfl
  obtain ⟨hb, htab⟩ := s.tableMade_spec ch
  obtain ⟨hk, hgo, hend⟩ := State.fillLeaves_spec (f := f)
    (show ((s.tableMade ch).banks ch).st (!(s.banks ch).active) = .table by rw [hb, Banks.toTable_st])
  refine ⟨_, hexec, hk.st, hk.result.trans ?_, hk.span.trans ?_, fun i hi => (hk.tab i hi).trans (htab i hi), hgo, hend⟩
  · rw [hb]
    rfl
  · rw [hb]
    rfl

/-- A channel's banks are exchanged, and the swap goes on without it (R122). -/
def State.banksSwapped (s : State) (f : Fill) (c : Nat) : State :=
  (s.setBanks c { s.banks c with active := !(s.banks c).active, swapWait := false }).withFill
    (if setDel c f.remain = [] then none else some { f with remain := setDel c f.remain })

/-- A channel with no pulse open and no event in conversion exchanges its banks (R122). -/
theorem channelBankSwap_exchanges {ch : Chan} {f : Fill} {s : State} (hf : s.tdc.fill = some f) (hc : ch.val ∈ f.remain)
    (hw : f.swap = true) (ht : (s.pulse ch).timing = false) (hx : ∀ x, x ∈ s.tdc.formed → x.chan ≠ ch.val) :
    ∃ t, exec (.channelBankSwap ch) s = .next t ∧
      t.banks ch = { s.banks ch with active := !(s.banks ch).active, swapWait := false } ∧
      t = { s with tdc := { s.tdc with banks := t.tdc.banks, fill := t.tdc.fill } } ∧
      (setDel ch.val f.remain = [] → t.tdc.fill = none) := by
  have hidle : s.tdc.formed.any (fun x => x.chan == ch.val) = false :=
    List.any_eq_false.2 fun x hm => by simpa using hx x hm
  have hexec : exec (.channelBankSwap ch) s = .next (s.banksSwapped f ch) := by
    show execChannelBankSwap ch s = _
    unfold execChannelBankSwap
    rw [hf]
    dsimp only
    rw [if_neg (by simp [hw, hc, ht, hidle])]
    rfl
  exact ⟨_, hexec, (s.banks_setBanks ch ch _).trans (if_pos rfl), rfl, fun hr => if_pos hr⟩

end Sys2Proof.Machine
end

section
/-! O25, the access to table entries and skew accumulators, and the statement (R123, R126). -/

namespace Sys2Proof.Machine

/-! ### Table entries -/

/-- The same of a write with a byte enabled. -/
theorem State.accessW_acts {s u : State} {lane addr : Nat} {be : BitVec 4} {act : State → Rep}
    (hs : s.serves lane addr = true) (hb : be ≠ 0) (h : act (s.got lane) = .done u) (hu : u.asks = (s.got lane).asks) :
    ∃ t, s.accessW lane addr be act = t ∧ s.replied t lane addr Stat.ok 0 ∧ t.tdc = u.tdc :=
  State.access_acts (act := fun t => if be = 0 then .no Stat.badFormat t else act t) hs ((if_neg hb).trans h) hu

theorem State.tabAt_congr {s t : State} (h : t.tdc.tab = s.tdc.tab) (c : Nat) (bank : Bool) (i : Nat) :
    t.tabAt c bank i = s.tabAt c bank i := by
  unfold State.tabAt
  rw [h]

theorem State.setTab_asks (s : State) (c : Nat) (bank : Bool) (i v : Nat) : (s.setTab c bank i v).asks = s.asks := rfl

theorem State.setBanks_asks (s : State) (c : Nat) (b : Banks) : (s.setBanks c b).asks = s.asks := rfl

theorem State.setBanks_tab (s : State) (c : Nat) (b : Banks) : (s.setBanks c b).tdc.tab = s.tdc.tab := rfl

theorem State.cdSel_got (s : State) (lane : Nat) : (s.got lane).cdSel = s.cdSel := by
  unfold State.cdSel
  rw [s.fld_got lane _ _ (by decide), s.fld_got lane _ _ (by decide), s.bit_got lane _ (by decide)]

theorem State.cdEntry_got (s : State) (lane c : Nat) (bank : Bool) (i : Nat) :
    (s.got lane).cdEntry c bank i = s.cdEntry c bank i := by
  unfold State.cdEntry
  rw [State.banks_got, State.tabAt_congr (congrArg Tdc.tab (s.tdc_got lane)), State.tdc_got]

theorem State.cdInc_tdc (s : State) : s.cdInc.tdc = s.tdc := ite_keeps State.tdc _ (s.setFld_tdc _ _ _ _) rfl

theorem State.cdInc_asks (s : State) : s.cdInc.asks = s.asks := ite_keeps State.asks _ (s.setFld_asks _ _ _ _) rfl

/-- Where AUTOINC is set the selected entry advances, modulo its field (R123). -/
theorem State.cdInc_entry (s : State) : s.cdInc.fld Reg.TDC_CD_SEL 10 0 =
    if s.bit Reg.TDC_CD_SEL 31 then (s.cdSel.2.2 + 1) % 2048 else s.cdSel.2.2 := by
  unfold State.cdInc
  split
  · exact s.fld_setFld _ (by decide) (by decide) _
  · rfl

/-- The selected entry of a standby table takes a value. -/
theorem State.cdStore_table {s : State} (h : (s.banks s.cdSel.1).st s.cdSel.2.1 = .table) (v : Nat) : s.cdStore v =
    ((s.setTab s.cdSel.1 s.cdSel.2.1 s.cdSel.2.2 v).setBanks s.cdSel.1
      ((s.banks s.cdSel.1).setSt s.cdSel.2.1 .table)).cdInc := by
  unfold State.cdStore
  dsimp only
  rw [if_neg (by rw [h]; decide)]

theorem State.cdEntry_table {s : State} {c i : Nat} {bank : Bool} (hi : i < 1408) (h : (s.banks c).st bank = .table) :
    s.cdEntry c bank i = s.tabAt c bank i := by
  unfold State.cdEntry
  rw [if_neg (Nat.not_le.2 hi), if_pos h]

theorem State.lockDiff_of_unlocked {s : State} {k : Nat} (h : s.lockMask k = 0) (old v : W32) :
    s.lockDiff k old v = false := by
  unfold State.lockDiff
  rw [h]
  simp

/-- A write of the selected entry, of a standby table and a clean word, in a mode that takes it (R123). -/
theorem State.cdDataWrite_open {s : State} (hl : s.lockMask Reg.TDC_CD_DATA = 0) (hc : s.allows .writeCfg = true)
    (hi : s.cdSel.2.2 < 1408) (ha : s.cdSel.2.1 ≠ (s.banks s.cdSel.1).active)
    (ht : (s.banks s.cdSel.1).st s.cdSel.2.1 = .table)
    (hw : s.clean .fed 0x12 (tabIdx s.cdSel.1 s.cdSel.2.1 s.cdSel.2.2) = true) (data : W32) (be : BitVec 4) :
    s.cdDataWrite data be = .done (s.cdStore (bits (mergeBE (BitVec.ofNat 32
      (s.tabAt s.cdSel.1 s.cdSel.2.1 s.cdSel.2.2)) data be) 15 0)) := by
  have hshut : s.cdShut = false := by
    unfold State.cdShut
    simp [hi, ha, ht]
  unfold State.cdDataWrite
  dsimp only
  rw [State.lockDiff_of_unlocked hl, hshut, State.guardedR_open hc, State.merged_clean hw, State.cdEntry_table hi ht]

/-- What a served write of the selected entry leaves (R123). -/
theorem cdTableWrite_writes {lane : Lane} {be : BitVec 4} {s : State} (h : s.takes lane Reg.TDC_CD_DATA be = true)
    (hi : s.cdSel.2.2 < 1408) (ha : s.cdSel.2.1 ≠ (s.banks s.cdSel.1).active)
    (ht : (s.banks s.cdSel.1).st s.cdSel.2.1 = .table)
    (hw : s.clean .fed 0x12 (tabIdx s.cdSel.1 s.cdSel.2.1 s.cdSel.2.2) = true) (data : W32) :
    ∃ t, exec (.cdTableWrite lane data be) s = .next t ∧ s.replied t lane Reg.TDC_CD_DATA Stat.ok 0 ∧
      t.tabAt s.cdSel.1 s.cdSel.2.1 s.cdSel.2.2 = bits (mergeBE (BitVec.ofNat 32 (s.tabAt s.cdSel.1 s.cdSel.2.1
        s.cdSel.2.2)) data be) 15 0 ∧
      (∀ c bank i, tabKey c bank i ≠ tabKey s.cdSel.1 s.cdSel.2.1 s.cdSel.2.2 → t.tabAt c bank i = s.tabAt c bank i) := by
  obtain ⟨hs, hb, hl, hc⟩ := State.takes_got (by decide) h
  have htab : ∀ c bank i, (s.got lane).tabAt c bank i = s.tabAt c bank i :=
    State.tabAt_congr (congrArg Tdc.tab (s.tdc_got lane))
  have hact := State.cdDataWrite_open (s := s.got lane) hl hc (by rw [State.cdSel_got]; exact hi)
    (by rw [State.cdSel_got, State.banks_got]; exact ha) (by rw [State.cdSel_got, State.banks_got]; exact ht)
    (by rw [State.cdSel_got, State.clean_got]; exact hw) data be
  rw [State.cdStore_table (by rw [State.cdSel_got, State.banks_got]; exact ht), State.cdSel_got, htab] at hact
  generalize bits (mergeBE (BitVec.ofNat 32 (s.tabAt s.cdSel.1 s.cdSel.2.1 s.cdSel.2.2)) data be) 15 0 = v at hact ⊢
  obtain ⟨t, hexec, hrep, htdc⟩ := State.accessW_acts (act := fun t => t.cdDataWrite data be) hs hb hact
    ((State.cdInc_asks _).trans ((State.setBanks_asks _ _ _).trans (State.setTab_asks _ _ _ _ _)))
  rw [State.cdInc_tdc] at htdc
  have hset : ∀ c bank i, t.tabAt c bank i =
      ((s.got lane).setTab s.cdSel.1 s.cdSel.2.1 s.cdSel.2.2 v).tabAt c bank i :=
    State.tabAt_congr (by rw [htdc, State.setBanks_tab])
  refine ⟨t, congrArg Host.Outcome.next hexec, hrep, (hset _ _ _).trans (State.tabAt_setTab _ _ _ _ _), fun c bank i hne => ?_⟩
  exact (hset c bank i).trans ((State.tabAt_setTab_ne _ hne v).trans (htab c bank i))

/-- What a served read of the selected entry leaves (R123, R402). -/
theorem cdTableReadAutoinc_reads {lane : Lane} {s : State} (hs : s.serves lane Reg.TDC_CD_DATA = true)
    (ha : s.allows .readOther = true) (hi : s.cdSel.2.2 < 1408)
    (hw : s.clean .fed 0x12 (tabIdx s.cdSel.1 s.cdSel.2.1 s.cdSel.2.2) = true) :
    ∃ t, exec (.cdTableReadAutoinc lane) s = .next t ∧
      s.replied t lane Reg.TDC_CD_DATA Stat.ok (BitVec.ofNat 32 (s.cdEntry s.cdSel.1 s.cdSel.2.1 s.cdSel.2.2)) ∧
      t.fld Reg.TDC_CD_SEL 10 0 = (if s.bit Reg.TDC_CD_SEL 31 then (s.cdSel.2.2 + 1) % 2048 else s.cdSel.2.2) ∧
      t.tdc = s.tdc := by
  have hact : (s.got lane).cdDataRead =
      ⟨Stat.ok, BitVec.ofNat 32 (s.cdEntry s.cdSel.1 s.cdSel.2.1 s.cdSel.2.2), (s.got lane).cdInc⟩ := by
    have hread : (s.got lane).memRead .fed 0x12 (tabIdx s.cdSel.1 s.cdSel.2.1 s.cdSel.2.2) = (true, s.got lane) :=
      State.memReadC_clean (by rw [State.clean_got, hw]) 0
    unfold State.cdDataRead
    rw [State.cdSel_got]
    dsimp only
    rw [if_neg (Nat.not_le.2 hi), hread, State.allows_got, ha, State.cdEntry_got]
    rfl
  have hasks : (s.got lane).cdInc.asks = s.asks := (State.cdInc_asks _).trans (s.asks_got lane)
  refine ⟨_, congrArg Host.Outcome.next ((State.access_serves hs (fun t => t.cdDataRead)).trans (by rw [hact])), ?_, ?_, ?_⟩
  · exact State.replied_finish (asks_resp hasks) (asks_e hasks lane) _ _ _
  · rw [State.fld_congr (State.reg_finish _ _ _ _ _ (by decide) (by decide)), State.cdInc_entry, State.cdSel_got,
      s.bit_got lane _ (by decide)]
  · rw [State.finish_tdc, State.cdInc_tdc, State.tdc_got]

/-! ### The skew accumulators -/

/-- The register stored and the skew table empty. -/
def State.skewCleared (s : State) (v : W32) : State :=
  { s.storeFields Reg.TDC_SKW_CTRL v with tdc := { s.tdc with skew := [] } }

theorem State.skewCleared_asks (s : State) (v : W32) : (s.skewCleared v).asks = s.asks :=
  State.asks_congr (s.storeFields_resp Reg.TDC_SKW_CTRL v) (s.storeFields_lanes Reg.TDC_SKW_CTRL v)

theorem State.skewCleared_tdc (s : State) (v : W32) : (s.skewCleared v).tdc = { s.tdc with skew := [] } := rfl

theorem State.skwWrite_clears {s : State} (hl : s.lockMask Reg.TDC_SKW_CTRL = 0) (hc : s.allows .writeCfg = true) {v : W32}
    (hv : bitOf v 1 = true) : s.skwWrite v 0xF = .done (s.skewCleared v) := by
  unfold State.skwWrite
  dsimp only
  rw [mergeBE_all, State.lockHit_of_unlocked _ hl, State.guarded_open _ hc, if_pos ⟨hv, by decide⟩]
  rfl

/-- CLEAR empties the skew table (R126). -/
theorem skewClear_clears {lane : Lane} {s : State} (h : s.takes lane Reg.TDC_SKW_CTRL 0xF = true) (data : W32) :
    ∃ t, exec (.skewClear lane data 0xF) s = .next t ∧ s.replied t lane Reg.TDC_SKW_CTRL Stat.ok 0 ∧
      t.tdc = { s.tdc with skew := [] } := by
  obtain ⟨hs, hb, hl, hc⟩ := State.takes_got (by decide) h
  obtain ⟨t, hexec, hrep, htdc⟩ := State.accessW_acts (act := fun t => t.skwWrite (data ||| 2) 0xF) hs hb
    (State.skwWrite_clears hl hc (bitOf_or_two data).2) (State.skewCleared_asks _ _)
  exact ⟨t, congrArg Host.Outcome.next hexec, hrep, by rw [htdc, State.skewCleared_tdc, State.tdc_got]⟩

/-! ### The statement -/

/-- Settles O25: one lemma for each command. -/
theorem fillsRunAsGiven : Obligations.FillsRunAsGiven := by
  unfold Obligations.FillsRunAsGiven
  refine ⟨fun lane s hs ha => ⟨fun hm hf hl => ?_, fun hm hf hl => ?_, fun hf hl => ?_, fun f hf hw => ?_⟩,
    fun codes f s hw hf hi hs hd => ?_, fun ch f s hf hc => ⟨fun hw hn h4 h5 => ?_, fun hw ht hx => ?_⟩,
    fun lane data be s => ⟨fun h hi ha ht hw => ?_, fun hs ha hi hw => ?_, fun h => ?_⟩⟩
  · have hact := State.cdCmd_fillInternal (s := s.got lane) (by rw [State.allows_got, ha]) (by rw [State.hk_got, hm])
      (by rw [State.tdc_got, hf]) (by rw [State.cdGroups_got, State.liveOf_got]; exact hl)
    rw [s.lenWords_got lane (by decide)] at hact
    obtain ⟨t, ht, h⟩ := fill_starts hs hact
    exact ⟨t, congrArg Host.Outcome.next ht, h⟩
  · have hact := State.cdCmd_fillLive (s := s.got lane) (by rw [State.allows_got, ha]) (by rw [State.hk_got]; exact hm)
      (by rw [State.tdc_got, hf]) (by rw [State.cdGroups_got, State.liveOf_got]; exact hl)
    rw [s.lenWords_got lane (by decide)] at hact
    obtain ⟨t, ht, h⟩ := fill_starts hs hact
    exact ⟨t, congrArg Host.Outcome.next ht, h⟩
  · obtain ⟨t, ht, h⟩ := swap_orders hs ha hf hl
    exact ⟨t, congrArg Host.Outcome.next ht, h⟩
  · obtain ⟨t, ht, h⟩ := abort_stops hs ha hf hw
    exact ⟨t, congrArg Host.Outcome.next ht, h⟩
  · obtain ⟨t, hexec, hfill, htab, hout, hin⟩ := fillLaunch_counts hw hf hi hs hd
    refine ⟨t, hexec, hfill, htab, fun c hc => (hout c hc).1, fun c v full hc hfind hn => ?_⟩
    obtain ⟨hb, hone, hover⟩ := hin c v full hc hfind hn
    refine ⟨by rw [hb]; rfl, by rw [hb]; rfl, hone, fun ho => ⟨?_, hover ho _⟩⟩
    rw [hb]
    rcases ho with ho | ho <;> simp [Banks.counted, ho]
  · exact fillConvert_makes hf hc hw hn h4 h5
  · exact channelBankSwap_exchanges hf hc hw ht hx
  · exact cdTableWrite_writes h hi ha ht hw data
  · exact cdTableReadAutoinc_reads hs ha hi hw
  · exact skewClear_clears h data

end Sys2Proof.Machine
end

section
/-! O27, the group FIFOs and the beats: from the input stage to the links and into retention (R189 to R194). -/

namespace Sys2Proof.Machine

/-! ### Group FIFOs -/

theorem State.group_congr {s t : State} (h : t.fed.groups = s.fed.groups) (g : Nat) : t.group g = s.group g := by
  unfold State.group
  rw [h]

/-- Below 511 entries the oldest staged record enters the FIFO (R189). -/
theorem groupFifoWrite_enters {g : Group} {s : State} {e : Ent} {rest : List Ent} (hs : (s.group g).stage = e :: rest)
    (hn : (s.group g).fifo.length < 511) :
    ∃ t, exec (.groupFifoWrite g) s = .next t ∧
      t.group g = { s.group g with stage := rest, fifo := (s.group g).fifo ++ [e] } ∧
      (∀ h, h ≠ g.val → t.group h = s.group h) ∧ t = { s with fed := t.fed } := by
  have hexec : exec (.groupFifoWrite g) s = .next
      (s.setGroup g { s.group g with stage := rest, fifo := (s.group g).fifo ++ [e] }) := by
    show execGroupFifoWrite g s = _
    unfold execGroupFifoWrite
    dsimp only
    rw [hs]
    exact congrArg Host.Outcome.next (if_pos (Or.inl hn))
  refine ⟨_, hexec, ?_, fun h hh => ?_, rfl⟩
  · rw [State.group_setGroup, if_pos rfl]
  · rw [State.group_setGroup, if_neg hh]

/-- What a drop leaves of its group (R191). -/
theorem State.gfifoDrop_spec (s : State) (c : Nat) :
    ((s.gfifoDrop c).group (groupOf c)).stage = (s.group (groupOf c)).stage ∧
      ((s.gfifoDrop c).group (groupOf c)).fifo = (s.group (groupOf c)).fifo ∧
      ((s.gfifoDrop c).group (groupOf c)).dropN = (s.group (groupOf c)).dropN + 1 ∧
      s.counts (s.gfifoDrop c) Reg.FE_GFIFO_DROP_CNT 1 := by
  unfold State.gfifoDrop
  extract_lets g x y
  have hy : y.stage = x.stage ∧ y.fifo = x.fifo ∧ y.dropN = x.dropN + 1 := by
    by_cases h : x.dropN = 0
    · rw [show y = { x with dropN := 1, dropLo := c, dropHi := c } from if_pos h, h]
      exact ⟨rfl, rfl, rfl⟩
    · rw [show y = { x with dropN := x.dropN + 1, dropLo := min x.dropLo c, dropHi := max x.dropHi c } from if_neg h]
      exact ⟨rfl, rfl, rfl⟩
  have hg : (((s.setGroup g y).count Reg.FE_GFIFO_DROP_CNT 1).event Reg.FE_DP_EVT [0]).group g = y := by
    refine (State.group_congr (s := s.setGroup g y) (by rw [State.event_fed, State.count_fed]) g).trans ?_
    rw [State.group_setGroup, if_pos rfl]
  rw [hg]
  exact ⟨hy.1, hy.2.1, hy.2.2, (State.counts_count (State.reg_congr rfl rfl _) 1).congr (State.reg_event _ _ _ _)⟩

/-- At 511 entries a hit is dropped and counted (R191). -/
theorem groupFifoWrite_drops {g : Group} {s : State} {e : Ent} {rest : List Ent} (hs : (s.group g).stage = e :: rest)
    (hn : (s.group g).fifo.length ≥ 511) (hk : e.kind ≠ .loss) (hg : groupOf e.chan = g.val) :
    ∃ t, exec (.groupFifoWrite g) s = .next t ∧ (t.group g).stage = rest ∧ (t.group g).fifo = (s.group g).fifo ∧
      (t.group g).dropN = (s.group g).dropN + 1 ∧ s.counts t Reg.FE_GFIFO_DROP_CNT 1 := by
  have hexec : exec (.groupFifoWrite g) s = .next
      ((s.setGroup g { s.group g with stage := rest }).gfifoDrop e.chan) := by
    show execGroupFifoWrite g s = _
    unfold execGroupFifoWrite
    dsimp only
    rw [hs]
    refine congrArg Host.Outcome.next ((if_neg ?_).trans (if_neg hk))
    rintro (h | ⟨h, -⟩)
    · exact absurd h (Nat.not_lt.2 hn)
    · exact hk h
  obtain ⟨hstage, hfifo, hdrop, hcount⟩ := (s.setGroup g { s.group g with stage := rest }).gfifoDrop_spec e.chan
  rw [hg, State.group_setGroup, if_pos rfl] at hstage hfifo hdrop
  exact ⟨_, hexec, hstage, hfifo, hdrop, hcount.since (State.reg_congr rfl rfl _)⟩

/-- Once there is room one loss record covers the drops (R191). -/
theorem gfifoLossWrite_covers {g : Group} {s : State} (hd : (s.group g).dropN ≠ 0) (hn : (s.group g).fifo.length < 511) :
    ∃ t, exec (.gfifoLossWrite g) s = .next t ∧
      t.group g = { s.group g with dropN := 0, dropLo := 0, dropHi := 0,
                                   fifo := (s.group g).fifo ++ [⟨recLoss s.source (s.group g).dropLo (s.group g).dropHi
                                     (s.group g).dropN 5, .loss, (s.group g).dropLo, 0, s.curSlice, 0, false⟩] } := by
  refine ⟨_, congrArg Host.Outcome.next (if_neg (not_or.2 ⟨hd, Nat.not_le.2 hn⟩)), ?_⟩
  rw [State.group_congr (congrArg Fed.groups (State.errLoss_fed _ _ _)), State.group_setGroup, if_pos rfl]

/-! ### Beats -/

/-- The wall tick moves the time base alone. -/
theorem State.advanceTo_only (s : State) (now : Nat) : ∃ tb, s.advanceTo now = { s with tb := tb } := by
  unfold State.advanceTo
  split <;> exact ⟨_, rfl⟩

/-- The groups, the beats on the links and the group served last. -/
def State.sending (s : State) : Sparse GroupSt × List Beat × Nat := (s.fed.groups, s.fed.beats, s.fed.rr)

/-- A copy into retention concerns the ring alone (R194). -/
theorem State.retain_sending (s : State) (now g : Nat) (e : Ent) : (s.retain now g e).sending = s.sending := by
  unfold State.retain
  extract_lets c t
  split
  · refine ite_keeps State.sending _ rfl ?_
    unfold State.sending
    rw [State.event_fed, State.count_fed]
    rfl
  · rfl

/-- Where the ring has room the copy stands behind the others. -/
theorem State.retain_room {s : State} (h : s.fed.ret.length < 524288) (now g : Nat) (e : Ent) :
    (s.retain now g e).fed.ret = s.fed.ret ++ [⟨e, g, now % 2 ^ 24⟩] := by
  unfold State.retain
  extract_lets c t
  split
  · rw [if_pos (show t.fed.ret.length < 524288 from h)]
    rfl
  · next hr =>
    rw [show s.fed.ret = [] from hr]
    rfl

theorem State.retains_room (now g : Nat) (es : List Ent) {s : State} (h : s.fed.ret.length + es.length ≤ 524288) :
    (es.foldl (fun t e => t.retain now g e) s).fed.ret = s.fed.ret ++ es.map (fun e => ⟨e, g, now % 2 ^ 24⟩) := by
  induction es generalizing s with
  | nil => exact (List.append_nil _).symm
  | cons e es ih =>
    rw [List.length_cons] at h
    have hr := State.retain_room (s := s) (by omega) now g e
    rw [List.foldl_cons, ih (by rw [hr, List.length_append, List.length_singleton]; omega), hr, List.append_assoc,
      List.map_cons, List.singleton_append]

/-- The state in which a beat of a group has left, before its records are copied (R192). -/
def State.beatSent (s : State) (g : Nat) : State :=
  let es := Machine.takeBeat 4 (s.group g).allow (s.group g).fifo
  let t := s.setGroup g { s.group g with fifo := (s.group g).fifo.drop es.length, allow := (s.group g).allow - es.length }
  { t with fed := { t.fed with rr := g, beats := t.fed.beats ++ [⟨g, t.fed.gen, es, []⟩] } }

/-- The next group's records leave in a beat, its allowance is used and they are copied into retention (R192, R194). -/
theorem innerLinkBeat_sends {now g : Nat} {s : State} (hc : s.cclkRuns = true) (hw : s.fed.walk = none)
    (hg : s.nextGroup = some g) :
    ∃ t, exec (.innerLinkBeat now) s = .next t ∧
      (let es := takeBeat 4 (s.group g).allow (s.group g).fifo
       t.fed.beats = s.fed.beats ++ [⟨g, s.fed.gen, es, []⟩] ∧ t.fed.rr = g ∧
       t.group g = { s.group g with fifo := (s.group g).fifo.drop es.length, allow := (s.group g).allow - es.length } ∧
       (s.fed.ret.length + es.length ≤ 524288 →
         t.fed.ret = s.fed.ret ++ es.map (fun e => ⟨e, g, now % 2 ^ 24⟩))) := by
  obtain ⟨tb, htb⟩ := s.advanceTo_only now
  have hexec : exec (.innerLinkBeat now) s = .next ((takeBeat 4 (s.group g).allow (s.group g).fifo).foldl
      (fun t e => t.retain now g e) (State.beatSent { s with tb := tb } g)) := by
    have hc' : ({ s with tb := tb } : State).cclkRuns = true := hc
    have hg' : ({ s with tb := tb } : State).nextGroup = some g := hg
    show execInnerLinkBeat now s = _
    unfold execInnerLinkBeat
    rw [htb]
    dsimp only
    rw [hc', hw, hg']
    rfl
  have hkeep := foldl_keeps State.sending (fun t e => t.retain_sending now g e)
    (takeBeat 4 (s.group g).allow (s.group g).fifo) (State.beatSent { s with tb := tb } g)
  refine ⟨_, hexec, ?_, ?_, ?_, fun hr => State.retains_room now g _ hr⟩
  · exact congrArg (fun x => x.2.1) hkeep
  · exact congrArg (fun x => x.2.2) hkeep
  · rw [State.group_congr (congrArg Prod.fst hkeep)]
    exact (State.group_setGroup { s with tb := tb } g g _).trans (if_pos rfl)

end Sys2Proof.Machine
end

section
/-! O27, the Colander: a beat of another generation, and a single clean hit on its way to its queue (R195 to R198, R207); the
statement. -/

namespace Sys2Proof.Machine

/-! ### What the Colander reads -/

/-- A CD but for its credit counters, what waits for the Whisk, the prescalers, and the record of outcomes. -/
def Cd.sieve (c : Cd) : Cd := { c with rem := [], out := [], toWhisk := [], presc := [], prescHist := [], seen := [] }

/-- From `s` to `u` stands what decides the way of a hit through the Colander: the run, the registers of the map and the
applied SLC_CFG, the channel table, the errors, and the active CD's sieve. -/
structure State.SameSight (s u : State) : Prop where
  run : u.run = s.run
  rd : u.rd = s.rd
  err : u.err = s.err
  fe : u.fe = s.fe
  cal : u.cal = s.cal
  map : s.sameMap u
  eff : u.eff Reg.SLC_CFG = s.eff Reg.SLC_CFG
  cd : u.cd.sieve = s.cd.sieve

theorem State.SameSight.refl (s : State) : s.SameSight s := ⟨rfl, rfl, rfl, rfl, rfl, fun _ _ => rfl, rfl, rfl⟩

theorem State.SameSight.trans {s t u : State} (h : s.SameSight t) (g : t.SameSight u) : s.SameSight u :=
  ⟨g.run.trans h.run, g.rd.trans h.rd, g.err.trans h.err, g.fe.trans h.fe, g.cal.trans h.cal, h.map.trans g.map,
    g.eff.trans h.eff, g.cd.trans h.cd⟩

section
variable {s u : State} (h : s.SameSight u)
include h

theorem State.SameSight.chanWord (c : Nat) : u.chanWord c = s.chanWord c :=
  State.chanWord_congr (by rw [h.fe]) (by rw [h.cal]) c

theorem State.SameSight.bit {a : Nat} (ha : a < 0x1000000) (i : Nat) : u.bit a i = s.bit a i := by
  unfold State.bit
  rw [h.map a ha]

theorem State.SameSight.sound (hs : s.sound) : u.sound := by
  unfold State.sound
  rw [h.err]
  exact hs

theorem State.SameSight.acq : u.acq = s.acq := by
  unfold State.acq
  rw [h.eff]

theorem State.SameSight.inRun (c : Nat) : u.inRun c = s.inRun c := by
  unfold State.inRun State.sliceOf State.k
  rw [h.run, h.eff]

theorem State.SameSight.source : u.source = s.source := by
  unfold State.source
  rw [h.map.role, h.map.fld (by decide)]

theorem State.SameSight.hitClass (w : W64) : u.hitClass w = s.hitClass w := by
  unfold State.hitClass State.validated State.compat
  rw [h.bit (by decide)]

theorem State.SameSight.queueOf (src ch n cls : Nat) : u.queueOf src ch n cls = s.queueOf src ch n cls := by
  unfold State.queueOf
  rw [h.map.role]

theorem State.SameSight.hotIn (n : Nat) : u.cd.hotIn n = s.cd.hotIn n := by
  have hc := congrArg (fun c : Cd => c.hotIn n) h.cd
  exact hc

theorem State.SameSight.isClosed (n : Nat) : u.cd.isClosed n = s.cd.isClosed n := by
  have hc := congrArg (fun c : Cd => c.isClosed n) h.cd
  exact hc

theorem State.SameSight.quotaSup : u.cd.quotaSup = s.cd.quotaSup := by
  have hc := congrArg Cd.quotaSup h.cd
  exact hc

theorem State.SameSight.qmap : u.cd.qmap = s.cd.qmap := by
  have hc := congrArg Cd.qmap h.cd
  exact hc

theorem State.SameSight.queue (q : Nat) : u.cd.queue q = s.cd.queue q := by
  have hc := congrArg (fun c : Cd => c.queue q) h.cd
  exact hc

end

/-! ### What leaves the sight -/

/-- A step of the active CD within the parts that the sieve leaves out. -/
theorem State.setCd_sight {s : State} {c : Cd} (h : c.sieve = s.cd.sieve) : s.SameSight (s.setCd c) where
  run := s.setCd_run c
  rd := s.setCd_rd c
  err := s.setCd_err c
  fe := s.setCd_fe c
  cal := s.setCd_cal c
  map := State.sameMap_of_regs (s.setCd_regs c) (s.setCd_rd c)
  eff := State.regAt_congr (s.setCd_regs c) _
  cd := by rw [State.cd_setCd, h]

theorem State.withTb_sight (s : State) (tb : Tb) : s.SameSight { s with tb := tb } :=
  ⟨rfl, rfl, rfl, rfl, rfl, fun _ _ => rfl, rfl, rfl⟩

theorem State.withFed_sight (s : State) (f : Fed) : s.SameSight { s with fed := f } :=
  ⟨rfl, rfl, rfl, rfl, rfl, fun _ _ => rfl, rfl, rfl⟩

/-- An applied value is no counter behind a selector of another register. -/
theorem State.eff_countAt (s : State) {a b : Nat} (h : b % 0x1000000 ≠ a % 0x1000000) (i top n : Nat) :
    (s.countAt (instKey a i) top n).eff b = s.eff b :=
  State.regAt_countAt_ne s (instKey_ne h 0 i) top n

/-- A counter behind a selector, of another register than SLC_CFG. -/
theorem State.countAt_sight (s : State) {a : Nat} (h : Reg.SLC_CFG % 0x1000000 ≠ a % 0x1000000) (i top n : Nat) :
    s.SameSight (s.countAt (instKey a i) top n) where
  run := s.countAt_run _ _ _
  rd := s.countAt_rd _ _ _
  err := s.countAt_err _ _ _
  fe := s.countAt_fe _ _ _
  cal := s.countAt_cal _ _ _
  map b hb := by
    unfold State.reg
    rw [State.phys_countAt, State.regAt_countAt_ne _ (s.phys_ne_instKey hb a i)]
  eff := s.eff_countAt h i top n
  cd := congrArg Cd.sieve (State.cd_congr (by rw [State.countAt_rd]) (s.countAt_cda _ _ _) (s.countAt_cdb _ _ _))

theorem State.eventAt_sight (s : State) (k : Nat) (bs : List Nat) : s.SameSight (s.eventAt k bs) :=
  ⟨rfl, rfl, rfl, rfl, rfl, fun _ _ => rfl, rfl, rfl⟩

/-- A corrected word is counted (R334). -/
theorem State.countCorr_sight (s : State) (d : Die) (mem : Nat) : s.SameSight (s.countCorr d mem) := by
  refine State.SameSight.trans (s.countAt_sight ?_ _ _ _) (State.eventAt_sight _ _ _)
  cases d <;> decide

theorem State.countCorr_fed (s : State) (d : Die) (mem : Nat) : (s.countCorr d mem).fed = s.fed :=
  (State.eventAt_fed _ _ _).trans (s.countAt_fed _ _ _)

theorem State.countBeat_sight (s : State) (corr : BitVec 4) (n : Nat) : s.SameSight (s.countBeat corr n) := by
  unfold State.countBeat
  generalize (List.range n).filter (fun i => corr.getLsbD i) = l
  induction l generalizing s with
  | nil => exact State.SameSight.refl s
  | cons i l ih =>
    rw [List.foldl_cons]
    exact (s.countCorr_sight s.activeDie 0x10).trans (ih (s.countCorr s.activeDie 0x10))

theorem State.countBeat_fed (s : State) (corr : BitVec 4) (n : Nat) : (s.countBeat corr n).fed = s.fed :=
  foldl_keeps State.fed (fun t _ => t.countCorr_fed _ _) _ s

/-! ### A hit that nothing stops -/

/-- The queue of an own hit (R201). -/
def State.homeOf (s : State) (e : Ent) : Nat := s.queueOf s.source e.chan e.slice (s.hitClass e.word)

/-- Nothing stops the hit: memories and channel table are sound, the channel is unmasked, unvetoed and unprescaled, not
suppressed, the hit is in the run and not late, no quota rules, and its queue is enabled. -/
structure State.Passes (s : State) (e : Ent) : Prop where
  sound : s.sound
  unmasked : bits (s.chanWord e.chan) 53 52 = 0
  unscaled : bits (s.chanWord e.chan) 51 48 = 0
  cool : (s.cd.hotIn e.slice).contains e.chan = false
  unheld : s.cd.quotaSup = []
  inRun : s.inRun e.c = true
  notStreaming : s.acq ≠ 1
  intime : s.cd.isClosed e.slice = false
  noQuota : s.bit Reg.COL_CTRL 1 = false
  enabled : bitOf (Sparse.get 0 s.cd.qmap (s.homeOf e)) 31 = true

theorem State.SameSight.homeOf {s u : State} (h : s.SameSight u) (e : Ent) : u.homeOf e = s.homeOf e := by
  unfold State.homeOf
  rw [h.source, h.hitClass, h.queueOf]

theorem State.Passes.congr {s u : State} {e : Ent} (hp : s.Passes e) (h : s.SameSight u) : u.Passes e where
  sound := h.sound hp.sound
  unmasked := by rw [h.chanWord, hp.unmasked]
  unscaled := by rw [h.chanWord, hp.unscaled]
  cool := by rw [h.hotIn, hp.cool]
  unheld := by rw [h.quotaSup, hp.unheld]
  inRun := by rw [h.inRun, hp.inRun]
  notStreaming := by rw [h.acq]; exact hp.notStreaming
  intime := by rw [h.isClosed, hp.intime]
  noQuota := by rw [h.bit (by decide), hp.noQuota]
  enabled := by rw [h.qmap, h.homeOf, hp.enabled]

/-- Where no error stands a word is clean. -/
theorem State.clean_of_sound {s : State} (h : s.sound) (d : Die) (mem idx : Nat) : s.clean d mem idx = true := by
  obtain ⟨hb, hr, -⟩ := h
  have hraw : s.rawAt d mem idx = none := by
    unfold State.rawAt
    rw [hr]
    rfl
  refine (s.clean_iff d mem idx).2 ⟨hraw, ?_⟩
  unfold State.badKind
  rw [hraw, hb]
  rfl

/-- A field is zero when each of its bits is clear. -/
theorem bitOf_of_bits_zero {w : W64} {hi lo : Nat} (h : bits w hi lo = 0) {i : Nat} (hl : lo ≤ i) (hi' : i ≤ hi) :
    bitOf w i = false := by
  have ht : ((w.toNat >>> lo) % 2 ^ (hi + 1 - lo)).testBit (i - lo) = false := by
    rw [show (w.toNat >>> lo) % 2 ^ (hi + 1 - lo) = 0 from h, Nat.zero_testBit]
  rw [Nat.testBit_mod_two_pow, Nat.testBit_shiftRight, Nat.add_sub_cancel' hl,
    decide_eq_true (show i - lo < hi + 1 - lo by omega), Bool.true_and] at ht
  exact ht

/-- An unprescaled hit is kept (R197). -/
theorem State.prescale_keeps {s : State} {e : Ent} (h : bits (s.chanWord e.chan) 51 48 = 0) :
    ∃ t, s.prescale e = (true, t) ∧ s.SameSight t ∧ t.fed = s.fed := by
  unfold State.prescale
  extract_lets c before p keep hist
  have hkeep : keep = true := decide_eq_true (by rw [show p = 0 from h]; omega)
  rw [hkeep]
  exact ⟨_, rfl, State.setCd_sight rfl, State.setCd_fed s _⟩

/-- At stage 6 the hit enters its enabled queue (R202). -/
theorem State.stageQueue_enters {s : State} {e : Ent} (hp : s.Passes e) :
    s.stageQueue s.source (s.hitClass e.word) [e] = (0, s.enqueue (s.homeOf e) [e]) := by
  have hclean := State.clean_of_sound hp.sound s.activeDie 0x23 (qmapIdx (s.homeOf e))
  have hread : s.memRead s.activeDie 0x23 (qmapIdx (s.homeOf e)) = (true, s) := State.memReadC_clean hclean 0
  have hdead : s.dead s.activeDie 0x23 (qmapIdx (s.homeOf e)) = false := by
    unfold State.dead
    rw [((s.clean_iff _ _ _).1 hclean).2]
    rfl
  have hq : s.quotaHit (s.homeOf e) = false := by
    unfold State.quotaHit
    rw [hp.noQuota]
    rfl
  have hin : ∀ k n t, s.cd.quotaIn k n t = false := fun k n t => by
    unfold Cd.quotaIn
    rw [hp.unheld]
    rfl
  have hen := hp.enabled
  unfold State.stageQueue
  dsimp only
  rw [show s.queueOf s.source e.chan e.slice (s.hitClass e.word) = s.homeOf e from rfl, hread, hdead,
    State.readCrit_sound hp.sound, hen, hq, hin]
  simp

/-- What entering a queue leaves. -/
theorem State.enqueue_spec (s : State) (q : Nat) (es : List Ent) :
    (s.enqueue q es).fed = s.fed ∧ (s.enqueue q es).err.crit = s.err.crit ∧
      ((s.enqueue q es).cd.queue q).ents = (s.cd.queue q).ents ++ es ∧
      ∀ j, j ≠ q → (s.enqueue q es).cd.queue j = s.cd.queue j := by
  have hq : ∀ j, (s.enqueue q es).cd.queue j = if j = q then
      { s.cd.queue q with ents := (s.cd.queue q).ents ++ es } else s.cd.queue j := fun j => by
    unfold State.enqueue
    dsimp only
    rw [State.cd_setCd]
    exact Sparse.get_put _ _ _ _ _
  refine ⟨State.setCd_fed _ _, ?_, by rw [hq, if_pos rfl], fun j hj => by rw [hq, if_neg hj]⟩
  unfold State.enqueue
  dsimp only
  rw [State.setCd_err]
  rfl

/-- A hit that nothing stops enters its queue in a state of the same sight, and its outcome is noted (R195 to R202). -/
theorem State.ownHit_passes {s : State} {e : Ent} (hp : s.Passes e) :
    ∃ u, s.SameSight u ∧ u.fed = s.fed ∧ s.ownHit e = (u.enqueue (s.homeOf e) [e]).note e 0 := by
  have hmask : bitOf (s.chanWord e.chan) 53 = false := bitOf_of_bits_zero hp.unmasked (by decide) (by decide)
  have hval : bitOf (s.chanWord e.chan) 52 = false := bitOf_of_bits_zero hp.unmasked (by decide) (by decide)
  have hquota : s.cd.quotaIn (4096 * s.source + e.chan) e.slice e.c = false := by
    unfold Cd.quotaIn
    rw [hp.unheld]
    rfl
  have hcool : (s.cd.hotIn e.slice).contains e.chan = false := hp.cool
  unfold State.ownHit
  extract_lets w n x cal prim c t val r q
  have ht : s.SameSight t ∧ t.fed = s.fed := by
    by_cases hc : (cal && !s.bit Reg.TRG_CTRL 1) = true
    · rw [show t = s from if_pos hc]
      exact ⟨State.SameSight.refl s, rfl⟩
    · rw [show t = s.setCd { s.cd with toWhisk := s.cd.toWhisk ++ [prim] } from if_neg hc]
      exact ⟨State.setCd_sight rfl, State.setCd_fed _ _⟩
  have hpt : t.Passes e := hp.congr ht.1
  obtain ⟨u, hu, hsight, hfed⟩ := State.prescale_keeps hpt.unscaled
  have hpu : u.Passes e := hpt.congr hsight
  have hr : r = (true, u) := hu
  have hq : q = (0, u.enqueue (s.homeOf e) [e]) := by
    rw [show q = r.2.stageQueue t.source (t.hitClass e.word) [e] from rfl, hr, ← hsight.source, ← hsight.hitClass,
      State.stageQueue_enters hpu, hsight.homeOf, ht.1.homeOf]
  refine ⟨u, ht.1.trans hsight, hfed.trans ht.2, ?_⟩
  rw [if_neg (by rw [show bitOf w 53 = false from hmask]; decide), if_neg (by rw [hcool, hquota]; simp),
    if_neg (by rw [hpt.inRun]; decide), if_neg (fun h => hpt.notStreaming h.1),
    if_neg (by rw [show bitOf w 52 = false from hval]; simp), hr, hq, if_neg (by simp),
    if_neg (by rw [show u.cd.isClosed n = false from hpu.intime]; decide)]

/-- A note concerns the record of outcomes alone. -/
theorem State.note_spec (s : State) (e : Ent) (out : Nat) :
    (s.note e out).fed = s.fed ∧ (s.note e out).err = s.err ∧ ∀ j, (s.note e out).cd.queue j = s.cd.queue j := by
  refine ⟨State.setCd_fed _ _, State.setCd_err _ _, fun j => ?_⟩
  unfold State.note
  rw [State.cd_setCd]
  rfl

/-- A hit that nothing stops is appended to its queue and to no other (R195 to R202). -/
theorem State.ownHit_enters {s : State} {e : Ent} (hp : s.Passes e) :
    (s.ownHit e).fed = s.fed ∧ (s.ownHit e).err.crit = none ∧
      ((s.ownHit e).cd.queue (s.homeOf e)).ents = (s.cd.queue (s.homeOf e)).ents ++ [e] ∧
      ∀ j, j ≠ s.homeOf e → (s.ownHit e).cd.queue j = s.cd.queue j := by
  obtain ⟨u, hs, hu, heq⟩ := State.ownHit_passes hp
  obtain ⟨hfed, hcrit, hin, hout⟩ := u.enqueue_spec (s.homeOf e) [e]
  obtain ⟨hfed', herr, hq⟩ := (u.enqueue (s.homeOf e) [e]).note_spec e 0
  rw [heq]
  refine ⟨by rw [hfed', hfed, hu], by rw [herr, hcrit, hs.err]; exact hp.sound.2.2, by rw [hq, hin, hs.queue],
    fun j hj => by rw [hq, hout j hj, hs.queue]⟩

/-! ### A beat at the Colander -/

/-- The state in which a beat has left the links. -/
def State.beatLeft (s : State) (rest : List Beat) : State := { s with fed := { s.fed with beats := rest } }

/-- A beat of another generation is discarded and counted (R207). -/
theorem takeBeat_stale {s : State} {b : Beat} {rest : List Beat} (hb : s.fed.beats = b :: rest)
    (hst : cdActive ≤ s.cd.st) (hg : b.gen ≠ s.cd.gen) (x : BeatBits) :
    s.takeBeat true x = ((s.beatLeft rest).count Reg.Q_STALE_CNT 1).event Reg.Q_EVT [0] := by
  unfold State.takeBeat
  rw [hb]
  dsimp only
  exact (if_neg (Nat.not_lt.2 hst)).trans ((if_neg (by decide)).trans (if_pos hg))

/-- The state in which the words of a received beat are counted (R206, R334). -/
def State.beatTaken (s : State) (b : Beat) (rest : List Beat) (x : BeatBits) : State :=
  let t := s.beatLeft rest
  (t.setCd (t.cd.consume b.group b.ents.length)).countBeat x.corr b.ents.length

theorem State.beatTaken_sight (s : State) (b : Beat) (rest : List Beat) (x : BeatBits) :
    s.SameSight (s.beatTaken b rest x) :=
  have hconsume : (s.beatLeft rest).SameSight
      ((s.beatLeft rest).setCd ((s.beatLeft rest).cd.consume b.group b.ents.length)) := State.setCd_sight rfl
  (s.withFed_sight _).trans (hconsume.trans (State.countBeat_sight _ _ _))

theorem State.beatTaken_fed (s : State) (b : Beat) (rest : List Beat) (x : BeatBits) :
    (s.beatTaken b rest x).fed = { s.fed with beats := rest } :=
  (State.countBeat_fed _ _ _).trans (State.setCd_fed _ _)

/-- Without an uncorrectable word the entry of a beat stands. -/
theorem markBeat_zero (e : Ent) : markBeat 0 [e] = [e] := by
  have he : ({ e with unc := e.unc || (0 : BitVec 4).getLsbD 0 } : Ent) = e := by
    rw [show (0 : BitVec 4).getLsbD 0 = false from rfl, Bool.or_false]
  exact congrArg (fun a => [a]) he

theorem State.ingest_hit {e : Ent} (hu : e.unc = false) (hk : e.kind = .hit) (s : State) (g : Nat) :
    s.ingest g e = s.ownHit e := by
  unfold State.ingest
  exact (if_neg (by rw [hu]; decide)).trans ((if_neg (by rw [hk]; decide)).trans (if_pos hk))

/-- A single correct hit of the present generation passes the Colander (R195). -/
theorem takeBeat_hit {s : State} {b : Beat} {rest : List Beat} {e : Ent} {x : BeatBits} (hb : s.fed.beats = b :: rest)
    (hst : cdActive ≤ s.cd.st) (hg : b.gen = s.cd.gen) (he : b.ents = [e]) (ht : b.ticks = []) (hx : x.unc = 0)
    (hk : e.kind = .hit) (hu : e.unc = false) : s.takeBeat true x = (s.beatTaken b rest x).ownHit e := by
  have hmark : markBeat x.unc b.ents = [e] := by rw [hx, he, markBeat_zero]
  have hticks : b.ticks[0]? = none := by rw [ht]; rfl
  unfold State.takeBeat
  rw [hb]
  refine (if_neg (Nat.not_lt.2 hst)).trans ((if_neg (by decide)).trans ((if_neg (not_not_intro hg)).trans ?_))
  rw [hmark]
  show (match b.ticks[0]? with
    | some tick => (s.beatTaken b rest x).ingestCopy b.group tick e
    | none => (s.beatTaken b rest x).ingest b.group e) = _
  rw [hticks]
  exact State.ingest_hit hu hk _ _

/-- A beat of another generation leaves the links, the CD stands and the beat is counted (R207). -/
theorem beatReceive_stale {x : BeatBits} {now : Nat} {b : Beat} {rest : List Beat} {s : State} (hb : s.fed.beats = b :: rest)
    (hst : cdActive ≤ s.cd.st) (hg : b.gen ≠ s.cd.gen) (hc : s.err.crit = none) :
    ∃ t, exec (.beatReceive true x now) s = .next t ∧ t.fed = { s.fed with beats := rest } ∧ t.cd = s.cd ∧
      s.counts t Reg.Q_STALE_CNT 1 := by
  obtain ⟨tb, htb⟩ := s.advanceTo_only now
  let u : State := ({ s with tb := tb } : State).beatLeft rest
  refine ⟨(u.count Reg.Q_STALE_CNT 1).event Reg.Q_EVT [0], ?_, rfl, ?_, ?_⟩
  · show execBeatReceive true x now s = _
    unfold execBeatReceive
    rw [htb, takeBeat_stale (s := { s with tb := tb }) hb hst hg]
    exact congrArg Host.Outcome.next (State.settleCrit_none hc)
  · exact (State.cd_event _ _ _).trans (State.cd_count _ _ _)
  · exact (State.counts_count (State.reg_congr rfl rfl _) 1).congr (State.reg_event _ _ _ _)

/-- A single correct hit of the present generation that nothing stops is appended to its queue and to no other (R195 to R202,
R207). -/
theorem beatReceive_hit {x : BeatBits} {now : Nat} {b : Beat} {rest : List Beat} {s : State} {e : Ent}
    (hb : s.fed.beats = b :: rest) (hst : cdActive ≤ s.cd.st) (hg : b.gen = s.cd.gen) (he : b.ents = [e]) (ht : b.ticks = [])
    (hx : x.unc = 0) (hk : e.kind = .hit) (hu : e.unc = false) (hp : s.Passes e) :
    ∃ t, exec (.beatReceive true x now) s = .next t ∧ t.fed = { s.fed with beats := rest } ∧
      (t.cd.queue (s.homeOf e)).ents = (s.cd.queue (s.homeOf e)).ents ++ [e] ∧
      ∀ j, j ≠ s.homeOf e → t.cd.queue j = s.cd.queue j := by
  obtain ⟨tb, htb⟩ := s.advanceTo_only now
  let v : State := { s with tb := tb }
  have hs : s.SameSight (v.beatTaken b rest x) := (s.withTb_sight tb).trans (v.beatTaken_sight b rest x)
  obtain ⟨hfed, hcrit, hin, hout⟩ := State.ownHit_enters (hp.congr hs)
  rw [hs.homeOf, hs.queue] at hin
  rw [hs.homeOf] at hout
  refine ⟨(v.beatTaken b rest x).ownHit e, ?_, hfed.trans (v.beatTaken_fed b rest x), hin,
    fun j hj => (hout j hj).trans (hs.queue j)⟩
  show execBeatReceive true x now s = _
  unfold execBeatReceive
  rw [htb, takeBeat_hit (s := { s with tb := tb }) hb hst hg he ht hx hk hu]
  exact congrArg Host.Outcome.next (State.settleCrit_none hcrit)

/-! ### O27 -/

/-- Settles O27: each clause is the rule of its operation. A clean hit passes because what the Colander does on the way (taking
the credit, counting the words, telling the Whisk, the prescaler) leaves all that decides its way. -/
theorem recordsPassToThePantry : Obligations.RecordsPassToThePantry := by
  unfold Obligations.RecordsPassToThePantry
  refine ⟨fun g s => ⟨fun e rest hs => ⟨groupFifoWrite_enters hs, groupFifoWrite_drops hs⟩, gfifoLossWrite_covers⟩,
    fun now g s => innerLinkBeat_sends, fun x now b rest s hb hst => ⟨beatReceive_stale hb hst, ?_⟩⟩
  intro e hg he ht hx hsound hk hu hmask hpresc hhot hquota hrun hacq hlate hno q _ hen
  exact beatReceive_hit hb hst hg he ht hx hk hu
    ⟨hsound, hmask, hpresc, hhot, hquota, hrun, hacq, hlate, hno, hen⟩

end Sys2Proof.Machine
end

section
/-! O28: credit from the Pantry to its senders, and what a CREDIT, a CLOSED and a LEVEL do at the FED (R141, R193, R194, R204 to
R207). -/

namespace Sys2Proof.Machine

/-! ### Grants -/

/-- A CD's credit counters once sender `x` has been granted `g` pages (R206, R298). -/
def Cd.granted (c : Cd) (x g : Nat) : Cd :=
  { c with
    rr := x, out := Sparse.put 0 x (Sparse.get 0 c.out x + g) c.out,
    cum := if x < 64 then c.cum else Sparse.put 0 (x - 64) (Sparse.get 0 c.cum (x - 64) + g) c.cum }

/-- The pages of the next grant to sender `x`: the smallest of the free ones, 15 and what remains to its maximum (R206). -/
def State.grantSize (s : State) (x : Nat) : Nat :=
  min (s.cd.f - (s.cd.cOut + s.cd.a)) (min 15 (s.credMax x - Sparse.get 0 s.cd.out x))

/-- The first sender in round-robin order that is below its maximum (R206). -/
def State.nextSender (s : State) : Option Nat :=
  (s.senders.filter (fun y => decide (y > s.cd.rr)) ++ s.senders.filter (fun y => decide (y ≤ s.cd.rr))).find?
    (fun y => decide (Sparse.get 0 s.cd.out y < s.credMax y))

/-- The grant of an active CD in sound memory. -/
theorem grantNext_sender {s : State} {x : Nat} (hst : cdActive ≤ s.cd.st) (hs : s.sound) (hx : s.nextSender = some x) :
    s.grantNext = if s.grantSize x = 0 then s.event Reg.Q_EVT [1]
      else (s.setCd (s.cd.granted x (s.grantSize x))).grantOut x (s.grantSize x) := by
  unfold State.nextSender at hx
  unfold State.grantNext
  dsimp only
  rw [if_neg (Nat.not_lt.2 hst), hx]
  dsimp only
  rw [State.readCrit_sound hs]
  rfl

/-- A unit to a source leaves the CDs and the errors. -/
theorem State.sendUnit_keeps (s : State) (i : Nat) (u : W64) :
    (s.sendUnit i u).cd = s.cd ∧ (s.sendUnit i u).err = s.err := by
  have hsend : ∀ n, (s.sendInSlot n u).cd = s.cd ∧ (s.sendInSlot n u).err = s.err := fun n =>
    ⟨State.cd_congr (congrArg Rd.activeB (State.countLane_rd _ _ _ _)) (State.countLane_cda _ _ _ _)
      (State.countLane_cdb _ _ _ _), State.countLane_err _ _ _ _⟩
  unfold State.sendUnit
  split
  · exact hsend _
  · exact ⟨rfl, rfl⟩

/-- A grant on its way leaves the CDs and the errors. -/
theorem State.grantOut_keeps (s : State) (x g : Nat) : (s.grantOut x g).cd = s.cd ∧ (s.grantOut x g).err = s.err := by
  unfold State.grantOut
  split
  · exact ⟨rfl, rfl⟩
  · exact s.sendUnit_keeps _ _

/-- The grant of a group leaves as a CREDIT message (R193). -/
theorem State.grantOut_group {x : Nat} (h : x < 64) (s : State) (g : Nat) :
    (s.grantOut x g).out = s.out ++ [.credit s.cd.gen x g] := by
  unfold State.grantOut
  rw [if_pos h]

/-- With no page free a grant is an event alone (R206). -/
theorem creditGrant_none {s : State} {x : Nat} (hst : cdActive ≤ s.cd.st) (hs : s.sound) (hx : s.nextSender = some x)
    (hg : s.grantSize x = 0) : exec .creditGrant s = .next (s.event Reg.Q_EVT [1]) := by
  show execCreditGrant s = _
  unfold execCreditGrant
  rw [grantNext_sender hst hs hx, if_pos hg, State.settleCrit_none ((congrArg Err.crit (s.event_err _ _)).trans hs.2.2)]

/-- With pages free the next sender is granted them (R206). -/
theorem creditGrant_grants {s : State} {x : Nat} (hst : cdActive ≤ s.cd.st) (hs : s.sound) (hx : s.nextSender = some x)
    (hg : s.grantSize x ≠ 0) :
    exec .creditGrant s = .next ((s.setCd (s.cd.granted x (s.grantSize x))).grantOut x (s.grantSize x)) := by
  have herr := (State.grantOut_keeps (s.setCd (s.cd.granted x (s.grantSize x))) x (s.grantSize x)).2.trans (s.setCd_err _)
  show execCreditGrant s = _
  unfold execCreditGrant
  rw [grantNext_sender hst hs hx, if_neg hg, State.settleCrit_none ((congrArg Err.crit herr).trans hs.2.2)]

/-! ### Messages of the FED's own generation -/

/-- CREDIT adds 32 records a page to the allowance of its group (R205). -/
theorem creditReceive_allows (g : Group) (pages : Fin 16) (s : State) :
    ∃ t, exec (.creditReceive s.fed.gen g pages) s = .next t ∧
      t.group g = { s.group g with allow := (s.group g).allow + 32 * pages.val } ∧
      (∀ h, h ≠ g.val → t.group h = s.group h) ∧ t = { s with fed := t.fed } := by
  refine ⟨_, congrArg Host.Outcome.next (if_pos rfl), ?_, fun h hh => ?_, rfl⟩
  · rw [State.group_setGroup, if_pos rfl]
  · rw [State.group_setGroup, if_neg hh]

/-- CLOSED releases retained copies, and drops what is kept of the waveforms of closed slices (R194). -/
theorem closedReceive_releases (n : W32) (s : State) :
    ∃ t, exec (.closedReceive s.fed.gen n) s = .next t ∧ t.fed = s.fed.release n.toNat ∧
      t.fed.ret = releaseCopies n.toNat s.fed.ret ∧ t = { s with fed := t.fed, wf := t.wf } :=
  ⟨_, congrArg Host.Outcome.next (if_pos rfl), rfl, rfl, rfl⟩

/-- LEVEL fixes the level of its slice (R141). -/
theorem levelReceive_fixes (n : W32) (level : Fin 5) (step : Fin 7) (s : State) :
    ∃ t, exec (.levelReceive s.fed.gen n level step) s = .next t ∧ Sparse.get 0 t.wf.level n.toNat = level.val ∧
      t = { s with wf := { s.wf with level := t.wf.level } } :=
  ⟨_, congrArg Host.Outcome.next (if_pos rfl), Sparse.get_put_self _ _ _ _, rfl⟩

/-! ### The statement -/

/-- Settles O28: the grant by whether a page is free, and each message by whether it is of the FED's generation. -/
theorem creditsReachTheirSenders : Obligations.CreditsReachTheirSenders := by
  unfold Obligations.CreditsReachTheirSenders
  refine ⟨fun x s hst hs hx => ?_, fun gen g pages n level step s => ⟨?_, fun hg => ?_⟩⟩
  · by_cases hg : s.grantSize x = 0
    · exact ⟨_, creditGrant_none hst hs hx hg,
        fun _ => ⟨s.cd_event _ _, s.event_out _ _, s.shows_event _ (by decide)⟩, fun h => absurd hg h⟩
    · have hcd := ((s.setCd (s.cd.granted x (s.grantSize x))).grantOut_keeps x (s.grantSize x)).1.trans (s.cd_setCd _)
      refine ⟨_, creditGrant_grants hst hs hx hg, fun h => absurd h hg, fun _ => ⟨?_, ?_, fun h64 => ?_⟩⟩
      · rw [hcd]
        rfl
      · rw [hcd]
        exact Sparse.get_put_self _ _ _ _
      · rw [State.grantOut_group h64, s.cd_setCd, s.setCd_out]
        rfl
  · rintro rfl
    exact ⟨creditReceive_allows g pages s, closedReceive_releases n s, levelReceive_fixes n level step s⟩
  · exact ⟨congrArg Host.Outcome.next (if_neg hg), congrArg Host.Outcome.next (if_neg hg),
      congrArg Host.Outcome.next (if_neg hg)⟩

end Sys2Proof.Machine
end

section
/-! O26, the rings of a channel: what a cell reads as in a tick, and what a write of one cell leaves (R132, R139). -/

namespace Sys2Proof.Machine

/-! ### A cell in a tick -/

theorem nth_eq_default {α : Type} {d : α} {l : List α} {i : Nat} (h : l.length ≤ i) : nth d l i = d := by
  unfold nth
  rw [List.getElem?_eq_none h]
  rfl

theorem nth_set_self {α : Type} (d x : α) {l : List α} {i : Nat} (h : i < l.length) : nth d (l.set i x) i = x := by
  unfold nth
  rw [List.getElem?_set_self h]
  rfl

theorem nth_set_ne {α : Type} (d x : α) (l : List α) {i j : Nat} (h : i ≠ j) : nth d (l.set i x) j = nth d l j := by
  unfold nth
  rw [List.getElem?_set_ne h]

theorem RingCell.at_free (tick : Nat) : RingCell.free.at tick = RingCell.free := rfl

/-- A cell whose time to become FREE has not come stands. -/
theorem RingCell.at_stays {x : RingCell} {tick : Nat} (h : x.freeAt = 0 ∨ tick < x.freeAt) : x.at tick = x :=
  if_neg fun hf => h.elim hf.1 (Nat.not_lt.2 hf.2)

/-- A ring that samples from the first sample of a tick on. -/
def RingCell.started (d : Nat) : RingCell := ⟨1, 8 * d, none, 0, 0⟩

/-- A start concerns a FREE cell alone, which then samples. -/
theorem nth_startFree (d : Nat) (rs : List RingCell) (r : Nat) :
    nth RingCell.free (startFree d rs) r = nth RingCell.free rs r ∨
      (nth RingCell.free rs r).st = 0 ∧ nth RingCell.free (startFree d rs) r = RingCell.started d := by
  unfold startFree
  split
  · exact .inl rfl
  · split
    · next i hi =>
      obtain ⟨hlt, hst, -⟩ := List.findIdx?_eq_some_iff_getElem.1 hi
      by_cases hir : i = r
      · subst hir
        refine .inr ⟨?_, nth_set_self _ _ hlt⟩
        unfold nth
        rw [List.getElem?_eq_getElem hlt]
        exact beq_iff_eq.1 hst
      · exact .inl (nth_set_ne _ _ _ hir)
    · exact .inl rfl

/-- The cell of a ring as it was last written. -/
def State.cell (s : State) (c r : Nat) : RingCell := Sparse.get RingCell.free s.wf.rings (ringKey c r)

theorem State.ringsBy_length (s : State) (c tick : Nat) : (s.ringsBy c tick).length = 4 := by
  have hstart : ∀ (d : Nat) (rs : List RingCell), (startFree d rs).length = rs.length := by
    intro d rs
    unfold startFree
    split
    · rfl
    · split
      · exact List.length_set
      · rfl
  unfold State.ringsBy
  dsimp only
  split
  · rfl
  · split
    · exact hstart _ _
    · rfl

/-- With the samplers on a ring reads as its cell does in the tick, or has started there. -/
theorem State.nth_ringsBy {s : State} (hs : s.wf.sampStart.isSome = true) (c tick : Nat) {r : Nat} (hr : r < 4) :
    nth RingCell.free (s.ringsBy c tick) r = (s.cell c r).at tick ∨
      ((s.cell c r).at tick).st = 0 ∧
        ∃ d, nth RingCell.free (s.ringsBy c tick) r = RingCell.started d := by
  have hrs : nth RingCell.free
      ((List.range 4).map (fun j => (Sparse.get RingCell.free s.wf.rings (ringKey c j)).at tick)) r = (s.cell c r).at tick := by
    unfold nth
    rw [List.getElem?_map, List.getElem?_range hr]
    rfl
  have hon : ¬ s.wf.sampStart.isNone = true := by
    rw [Option.isNone_iff_eq_none]
    exact Option.isSome_iff_ne_none.1 hs
  unfold State.ringsBy
  dsimp only
  rw [if_neg hon]
  split
  · rw [← hrs]
    exact (nth_startFree _ _ r).imp_right fun h => ⟨h.1, _, h.2⟩
  · exact .inl hrs

/-- A FREE ring holds no capture, started or not. -/
theorem State.ringsBy_cap_of_free {s : State} {c r tick : Nat} (hr : r < 4) (h : (s.cell c r).at tick = RingCell.free)
    (hs : s.wf.sampStart.isSome = true) : (nth RingCell.free (s.ringsBy c tick) r).cap = none := by
  obtain he | ⟨-, d, he⟩ := State.nth_ringsBy hs c tick hr
  · rw [he, h]
    rfl
  · rw [he]
    rfl

/-- A cell that is neither FREE nor sampling in a tick reads as it stands there. -/
theorem State.ringsBy_of_at {s : State} {c r tick : Nat} {x : RingCell} (hs : s.wf.sampStart.isSome = true) (hr : r < 4)
    (h : (s.cell c r).at tick = x) (hst : 2 ≤ x.st) : nth RingCell.free (s.ringsBy c tick) r = x := by
  obtain he | ⟨hfree, -⟩ := State.nth_ringsBy hs c tick hr
  · exact he.trans h
  · rw [h] at hfree
    omega

/-! ### A cell in use -/

/-- Ring `r` of a channel holds `x`: the samplers are on, and `x` is HELD, KEPT or CONVERTING with no time to become FREE. -/
structure State.Occupies (s : State) (c r : Nat) (x : RingCell) : Prop where
  on : s.wf.sampStart.isSome = true
  lt : r < 4
  cell : s.cell c r = x
  st : 2 ≤ x.st
  stays : x.freeAt = 0

/-- A ring in use reads the same in every tick. -/
theorem State.Occupies.ringsBy {s : State} {c r : Nat} {x : RingCell} (h : s.Occupies c r x) (tick : Nat) :
    nth RingCell.free (s.ringsBy c tick) r = x :=
  State.ringsBy_of_at h.on h.lt (by rw [h.cell]; exact RingCell.at_stays (.inl h.stays)) h.st

theorem State.Occupies.ringAt {s : State} {c r : Nat} {x : RingCell} (h : s.Occupies c r x) : s.ringAt c r = x := h.ringsBy _

theorem State.Occupies.congr {s t : State} {c r : Nat} {x : RingCell} (h : s.Occupies c r x) (hr : t.wf.rings = s.wf.rings)
    (hs : t.wf.sampStart = s.wf.sampStart) : t.Occupies c r x where
  on := hs ▸ h.on
  lt := h.lt
  cell := (congrArg (Sparse.get RingCell.free · (ringKey c r)) hr).trans h.cell
  st := h.st
  stays := h.stays

/-- A ring that reads as in use is so in its cell. -/
theorem State.occupies_of_ringAt {s : State} {c r : Nat} (hs : s.wf.sampStart.isSome = true) (hst : 2 ≤ (s.ringAt c r).st)
    (hf : (s.ringAt c r).freeAt = 0) : s.Occupies c r (s.ringAt c r) := by
  have hr : r < 4 := by
    refine Nat.lt_of_not_le fun hr => ?_
    have hfree : s.ringAt c r = RingCell.free := nth_eq_default ((s.ringsBy_length c s.tb.tn).trans_le hr)
    rw [hfree] at hst
    exact absurd hst (by decide : ¬ 2 ≤ 0)
  refine ⟨hs, hr, ?_, hst, hf⟩
  obtain he | ⟨-, d, he⟩ := State.nth_ringsBy hs c s.tb.tn hr
  · have he' : s.ringAt c r = (s.cell c r).at s.tb.tn := he
    unfold RingCell.at at he'
    split at he'
    · rw [he'] at hst
      exact absurd hst (by decide : ¬ 2 ≤ 0)
    · exact he'.symm
  · have he' : s.ringAt c r = RingCell.started d := he
    rw [he'] at hst
    exact absurd hst (by decide : ¬ 2 ≤ 1)

/-! ### A cell is written -/

/-- Ring `r` of a channel becomes `x` in a tick; where then no ring samples, one may start from tick `next` on. -/
def State.putCell (s : State) (c r tick next : Nat) (x : RingCell) : State :=
  s.setRings c tick next ((s.ringsBy c tick).set r x)

/-- The cells of a channel read as written, the others as before. -/
theorem State.cell_setRings (s : State) (c tick next : Nat) (rs : List RingCell) (d : Nat) {r : Nat} (hr : r < 4) :
    (s.setRings c tick next rs).cell d r = if d = c then nth RingCell.free rs r else s.cell d r := by
  show Sparse.get RingCell.free ([0, 1, 2, 3].foldl
    (fun m j => Sparse.put RingCell.free (ringKey c j) (nth RingCell.free rs j) m) s.wf.rings) (ringKey d r) = _
  simp only [List.foldl_cons, List.foldl_nil, Sparse.get_put]
  unfold State.cell ringKey
  by_cases hd : d = c
  · subst hd
    rw [if_pos rfl]
    obtain rfl | rfl | rfl | rfl : r = 0 ∨ r = 1 ∨ r = 2 ∨ r = 3 := by omega
    all_goals simp
  · rw [if_neg hd, if_neg (by omega), if_neg (by omega), if_neg (by omega), if_neg (by omega)]

theorem State.cell_putCell_self (s : State) (c tick next : Nat) (x : RingCell) {r : Nat} (hr : r < 4) :
    (s.putCell c r tick next x).cell c r = x := by
  unfold State.putCell
  rw [State.cell_setRings _ _ _ _ _ _ hr, if_pos rfl, nth_set_self]
  rw [State.ringsBy_length]
  exact hr

/-- A ring that takes a cell in use is in use. -/
theorem State.occupies_putCell {s : State} {c r : Nat} {x : RingCell} (hs : s.wf.sampStart.isSome = true) (hr : r < 4)
    (hst : 2 ≤ x.st) (hf : x.freeAt = 0) (tick next : Nat) : (s.putCell c r tick next x).Occupies c r x :=
  ⟨hs, hr, s.cell_putCell_self c tick next x hr, hst, hf⟩

/-- A write of one ring leaves another in use. -/
theorem State.Occupies.putCell_ne {s : State} {c r d q : Nat} {x : RingCell} (h : s.Occupies c r x) (hne : ¬ (d = c ∧ q = r))
    (tick next : Nat) (y : RingCell) : (s.putCell d q tick next y).Occupies c r x := by
  refine ⟨h.on, h.lt, ?_, h.st, h.stays⟩
  unfold State.putCell
  rw [State.cell_setRings _ _ _ _ _ _ h.lt]
  split
  · next hd =>
    subst hd
    rw [nth_set_ne _ _ _ fun hq => hne ⟨rfl, hq⟩]
    exact h.ringsBy tick
  · exact h.cell

/-- A ring that is freed holds no capture in any tick. -/
theorem State.putCell_free_cap {s : State} (hs : s.wf.sampStart.isSome = true) (c tick next : Nat) {r : Nat} (hr : r < 4)
    (k : Nat) : (nth RingCell.free ((s.putCell c r tick next RingCell.free).ringsBy c k) r).cap = none := by
  refine State.ringsBy_cap_of_free hr ?_ hs
  rw [State.cell_putCell_self _ _ _ _ _ hr]
  exact RingCell.at_free k

end Sys2Proof.Machine
end

section
/-! O26, keep and release: a HELD ring is kept by a window or released by a notice or the end of its budget (R134, R135). -/

namespace Sys2Proof.Machine

/-! ### Release -/

/-- The release of a ring that holds a capture (R134). -/
theorem State.release_eq {s : State} {c r : Nat} {x : RingCell} {p : Capture} (h : s.Occupies c r x) (hp : x.cap = some p)
    (tick : Nat) : s.release c r tick =
      (({ s with wf := { s.wf with released := s.wf.released ++ [p] } } : State).putCell c r tick (tick + 1)
        RingCell.free).count Reg.WF_RELEASED_CNT 1 := by
  unfold State.release
  rw [h.ringAt, hp]
  rfl

/-- A released capture is listed and counted, and its ring holds none. -/
theorem State.release_spec {s : State} {c r : Nat} {x : RingCell} {p : Capture} (h : s.Occupies c r x) (hp : x.cap = some p)
    (tick : Nat) : (s.release c r tick).wf.released = s.wf.released ++ [p] ∧ ((s.release c r tick).ringAt c r).cap = none ∧
      s.counts (s.release c r tick) Reg.WF_RELEASED_CNT 1 := by
  rw [State.release_eq h hp]
  exact ⟨rfl, State.putCell_free_cap h.on c tick (tick + 1) h.lt _, State.counts_count (State.reg_congr rfl rfl _) 1⟩

/-- What of capture a release leaves: the start of the samplers and the noted rings; and the redundancy. -/
theorem State.release_keeps (s : State) (c r tick : Nat) :
    (s.release c r tick).wf.sampStart = s.wf.sampStart ∧ (s.release c r tick).wf.noticed = s.wf.noticed ∧
      (s.release c r tick).rd = s.rd := by
  unfold State.release
  split <;> exact ⟨rfl, rfl, rfl⟩

/-- At the end of its budget a HELD ring is released (R134). -/
theorem holdBudgetExpire_releases {ch : Chan} {ring : Fin 4} {p : Capture} {s : State} (hs : s.wf.sampStart.isSome = true)
    (hp : (s.ringAt ch ring).cap = some p) (hf : (s.ringAt ch ring).freeAt = 0) (hst : (s.ringAt ch ring).st = 2) :
    ∃ t, exec (.holdBudgetExpire ch ring) s = .next t ∧ t.wf.released = s.wf.released ++ [p] ∧
      (t.ringAt ch ring).cap = none ∧ s.counts t Reg.WF_RELEASED_CNT 1 := by
  obtain ⟨tb, htb⟩ := s.advanceTo_only (p.freeze + p.budget + 1)
  have hexec : exec (.holdBudgetExpire ch ring) s =
      .next (State.release { s with tb := tb } ch ring (p.freeze + p.budget)) := by
    show execHoldBudgetExpire ch ring s = _
    unfold execHoldBudgetExpire
    dsimp only
    rw [hp, ← htb]
    exact congrArg Host.Outcome.next (if_pos hst)
  have hocc := State.occupies_of_ringAt hs hst.ge hf
  obtain ⟨hrel, hcap, hcount⟩ := State.release_spec (s := { s with tb := tb }) (hocc.congr rfl rfl) hp (p.freeze + p.budget)
  exact ⟨_, hexec, hrel, hcap, hcount⟩

/-! ### Keep -/

/-- Ring `r` of a channel is KEPT in tick `now` with the capture `p`. -/
def State.KeptIn (s : State) (c r : Nat) (p : Capture) (now : Nat) : Prop :=
  ∃ x, s.Occupies c r x ∧ x.st = 3 ∧ x.keptAt = now ∧ x.cap = some p

theorem State.KeptIn.ringAt {s : State} {c r now : Nat} {p : Capture} (h : s.KeptIn c r p now) :
    (s.ringAt c r).st = 3 ∧ (s.ringAt c r).keptAt = now ∧ (s.ringAt c r).cap = some p := by
  obtain ⟨x, hx, h⟩ := h
  rw [hx.ringAt]
  exact h

theorem State.KeptIn.congr {s t : State} {c r now : Nat} {p : Capture} (h : s.KeptIn c r p now) (ht : t.wf = s.wf) :
    t.KeptIn c r p now := by
  obtain ⟨x, hx, h⟩ := h
  exact ⟨x, hx.congr (congrArg Wf.rings ht) (congrArg Wf.sampStart ht), h⟩

/-- A keep of a cell with a capture that waits for no deadline. -/
theorem State.keptIn_keepRing {s : State} {c r : Nat} {p : Capture} {x : RingCell} (hs : s.wf.sampStart.isSome = true)
    (hr : r < 4) (hp : x.cap = some p) (hf : x.freeAt = 0) (now : Nat) : (s.keepRing c r now x).KeptIn c r p now :=
  ⟨{ x with st := 3, keptAt := now },
    (State.occupies_putCell (x := { x with st := 3, keptAt := now }) hs hr (by decide : 2 ≤ 3) hf now (now + 1)).congr rfl rfl,
    rfl, rfl, hp⟩

/-- A keep of any ring in the same tick leaves a ring KEPT. -/
theorem State.KeptIn.keepRing {s : State} {c r now : Nat} {p : Capture} (h : s.KeptIn c r p now) (d q : Nat) :
    (s.keepRing d q now (s.ringAt d q)).KeptIn c r p now := by
  obtain ⟨x, hx, hst, hk, hp⟩ := h
  by_cases hdq : d = c ∧ q = r
  · obtain ⟨rfl, rfl⟩ := hdq
    rw [hx.ringAt]
    exact State.keptIn_keepRing hx.on hx.lt hp hx.stays now
  · exact ⟨x, (hx.putCell_ne hdq now (now + 1) _).congr rfl rfl, hst, hk, hp⟩

/-- So do the keeps of a window. -/
theorem State.KeptIn.keepRings {c r now : Nat} {p : Capture} (l : List (Nat × Nat × Capture)) {s : State}
    (h : s.KeptIn c r p now) : (l.foldl (fun t h => t.keepRing h.1 h.2.1 now (t.ringAt h.1 h.2.1)) s).KeptIn c r p now := by
  induction l generalizing s with
  | nil => exact h
  | cons e l ih => exact ih (h.keepRing e.1 e.2.1)

/-! ### A keep window -/

/-- Does a keep window cover a capture (R134). -/
def Capture.covered (first last : Nat) (p : Capture) : Bool := decide (first ≤ p.tick ∧ p.tick ≤ last)

/-- The HELD rings whose budgets have ended before a tick are released. -/
def State.overdueReleased (s : State) (now : Nat) : State :=
  (s.heldRings.filter (fun h => decide (h.2.2.freeze + h.2.2.budget < now))).foldl
    (fun t h => t.release h.1 h.2.1 (h.2.2.freeze + h.2.2.budget)) s

/-- What every release leaves, those of a tick leave. -/
theorem State.overdueReleased_keeps {β : Type} (π : State → β) (h : ∀ (t : State) (c r tick : Nat), π (t.release c r tick) = π t)
    (s : State) (now : Nat) : π (s.overdueReleased now) = π s := by
  unfold State.overdueReleased
  exact foldl_keeps π (fun t (e : Nat × Nat × Capture) => h t e.1 e.2.1 (e.2.2.freeze + e.2.2.budget)) _ s

/-- The rings noted in a tick that a window covers. -/
def State.takenBack (s : State) (first last now : Nat) : List (Nat × Nat × RingCell) :=
  s.wf.noticed.filter (fun e => e.1 == now && (match e.2.2.cap with | some p => p.covered first last | none => false))

/-- The captures released before a window that covers them are counted (R135). -/
def State.lateKeeps (s : State) (first last : Nat) : State :=
  let late := (s.wf.released.filter (Capture.covered first last)).length
  if late = 0 then s else (s.count Reg.WF_LATE_KEEP_CNT late).event Reg.WF_EVT [3]

/-- The steps of a keep window: budgets that have ended, releases of its tick taken back, the count of late keeps, and the
keeps. -/
theorem State.keepWindow_eq (s : State) (first last now : Nat) : s.keepWindow first last now =
    (let s0 := s.overdueReleased now
     let s1 := (s0.takenBack first last now).foldl (fun t e => t.unrelease now e.2.1 e.2.2) s0
     let s2 := s1.lateKeeps first last
     (s2.heldRings.filter (fun h => h.2.2.covered first last && decide (h.2.2.freeze < now))).foldl
       (fun t h => t.keepRing h.1 h.2.1 now (t.ringAt h.1 h.2.1)) s2) := rfl

theorem State.lateKeeps_wf (s : State) (first last : Nat) : (s.lateKeeps first last).wf = s.wf :=
  ite_keeps State.wf _ rfl rfl

/-- A window over the one HELD ring, inside its budget, keeps it (R134). -/
theorem State.keepWindow_held {s : State} {c r first last now : Nat} {p : Capture} {x : RingCell} (h : s.Occupies c r x)
    (hp : x.cap = some p) (hh : s.heldRings = [(c, r, p)]) (hn : ∀ e, e ∈ s.wf.noticed → e.1 ≠ now)
    (hc : p.covered first last = true) (hf : p.freeze < now) (hb : now ≤ p.freeze + p.budget) :
    (s.keepWindow first last now).KeptIn c r p now := by
  have h0 : s.overdueReleased now = s := by
    unfold State.overdueReleased
    rw [hh, List.filter_cons_of_neg (by simpa using hb)]
    rfl
  have hnot : s.takenBack first last now = [] := by
    refine List.filter_eq_nil_iff.2 fun e he => ?_
    rw [beq_false_of_ne (hn e he), Bool.false_and]
    exact Bool.false_ne_true
  have hwf := s.lateKeeps_wf first last
  have hheld : (s.lateKeeps first last).heldRings = [(c, r, p)] :=
    (congrArg (fun w => List.filterMap _ (Wf.rings w)) hwf).trans hh
  have hocc : (s.lateKeeps first last).Occupies c r x := h.congr (congrArg Wf.rings hwf) (congrArg Wf.sampStart hwf)
  rw [State.keepWindow_eq, h0]
  dsimp only
  rw [hnot, List.foldl_nil, hheld, List.filter_cons_of_pos (by simp [hc, hf]), List.filter_nil, List.foldl_cons, List.foldl_nil]
  dsimp only
  rw [hocc.ringAt]
  exact State.keptIn_keepRing hocc.on h.lt hp h.stays now

/-- A window over a ring noted in its tick takes the ring back (R134). -/
theorem State.keepWindow_noted {s : State} {c r first last now : Nat} {p : Capture} {x : RingCell}
    (hs : s.wf.sampStart.isSome = true) (hr : r < 4) (hp : x.cap = some p) (hf : x.freeAt = 0)
    (hn : s.wf.noticed = [(now, ringKey c r, x)]) (hc : p.covered first last = true) :
    (s.keepWindow first last now).KeptIn c r p now := by
  have hstart : (s.overdueReleased now).wf.sampStart = s.wf.sampStart :=
    State.overdueReleased_keeps (fun t => t.wf.sampStart) (fun t c r tick => (t.release_keeps c r tick).1) s now
  have hnoticed : (s.overdueReleased now).wf.noticed = s.wf.noticed :=
    State.overdueReleased_keeps (fun t => t.wf.noticed) (fun t c r tick => (t.release_keeps c r tick).2.1) s now
  have hnot : (s.overdueReleased now).takenBack first last now = [(now, ringKey c r, x)] := by
    unfold State.takenBack
    rw [hnoticed, hn]
    simp [hp, hc]
  rw [State.keepWindow_eq]
  dsimp only
  rw [hnot, List.foldl_cons, List.foldl_nil]
  refine State.KeptIn.keepRings _ (State.KeptIn.congr ?_ (State.lateKeeps_wf _ first last))
  have hc4 : ringKey c r / 4 = c := show (4 * c + r) / 4 = c by omega
  have hr4 : ringKey c r % 4 = r := show (4 * c + r) % 4 = r by omega
  unfold State.unrelease
  dsimp only
  rw [hc4, hr4]
  exact State.keptIn_keepRing (by exact hstart ▸ hs) hr hp hf now

/-- A CD that is heard keeps the one HELD ring that its window covers (R134, R166). -/
theorem keepWindowReceive_keeps {c r : Nat} {p : Capture} {s : State} (h : s.Occupies c r (s.ringAt c r))
    (hp : (s.ringAt c r).cap = some p) (hh : s.heldRings = [(c, r, p)]) {fromB : Bool} {first last now : Nat}
    (hheard : (s.advanceTo now).heard fromB = true) (hn : ∀ e, e ∈ s.wf.noticed → e.1 ≠ now) (hc : p.covered first last = true)
    (hf : p.freeze < now) (hb : now ≤ p.freeze + p.budget) :
    ∃ t, exec (.keepWindowReceive fromB first last now) s = .next t ∧ t.KeptIn c r p now := by
  refine ⟨_, congrArg Host.Outcome.next (if_pos hheard), ?_⟩
  obtain ⟨tb, htb⟩ := s.advanceTo_only now
  rw [htb]
  exact State.keepWindow_held (h.congr rfl rfl) hp hh hn hc hf hb

/-! ### A release-through notice -/

/-- The rings that are noted in a tick once a notice has freed the ring at `c` and `r` there: they include it while its budget
lasts. -/
def State.notedWith (s : State) (c r : Nat) (p : Capture) (now : Nat) : List (Nat × Nat × RingCell) :=
  s.wf.noticed.filter (fun e => e.1 == now) ++
    if now ≤ p.freeze + p.budget then [(now, ringKey c r, s.ringAt c r)] else []

/-- The notice releases the one HELD ring, and notes it (R134). -/
theorem State.releaseThrough_held {s : State} {c r x now : Nat} {p : Capture} (hh : s.heldRings = [(c, r, p)])
    (hx : p.tick < x) (hf : p.freeze < now) : s.releaseThrough x now =
      State.release { s with wf := { s.wf with noticed := s.notedWith c r p now } } c r now := by
  unfold State.releaseThrough State.notedWith
  dsimp only
  rw [hh, List.filter_cons_of_pos (by simp [hx, hf]), List.filter_nil]
  by_cases hb : now ≤ p.freeze + p.budget
  · rw [if_pos hb, List.filter_cons_of_pos (by simpa using hb)]
    rfl
  · rw [if_neg hb, List.filter_cons_of_neg (by simpa using hb)]
    rfl

/-- A notice of the FED's own generation from the active CD releases the one HELD ring, and a keep in the same tick, inside the
budget, takes it back (R134). -/
theorem releaseThroughReceive_releases {c r : Nat} {p : Capture} {s : State} (h : s.Occupies c r (s.ringAt c r))
    (hp : (s.ringAt c r).cap = some p) (hh : s.heldRings = [(c, r, p)]) {x now : Nat} (hx : p.tick < x) (hf : p.freeze < now) :
    ∃ t, exec (.releaseThroughReceive ⟨s.rd.activeB, s.fed.gen⟩ x now) s = .next t ∧
      t.wf.released = s.wf.released ++ [p] ∧ (t.ringAt c r).cap = none ∧ s.counts t Reg.WF_RELEASED_CNT 1 ∧
      ((∀ e, e ∈ s.wf.noticed → e.1 ≠ now) → now ≤ p.freeze + p.budget → ∀ first last, p.covered first last = true →
        ∃ u, exec (.keepWindowReceive s.rd.activeB first last now) t = .next u ∧ u.KeptIn c r p now) := by
  obtain ⟨tb, htb⟩ := s.advanceTo_only now
  let v : State := { s with tb := tb }
  let w : State := { v with wf := { v.wf with noticed := v.notedWith c r p now } }
  have hv : v.Occupies c r (s.ringAt c r) := h.congr rfl rfl
  have hw : w.Occupies c r (s.ringAt c r) := hv.congr rfl rfl
  have hexec : exec (.releaseThroughReceive ⟨s.rd.activeB, s.fed.gen⟩ x now) s = .next (w.release c r now) := by
    show execReleaseThroughReceive _ x now s = _
    unfold execReleaseThroughReceive
    rw [htb]
    exact congrArg Host.Outcome.next ((if_pos ⟨rfl, rfl⟩).trans (State.releaseThrough_held (s := v) hh hx hf))
  obtain ⟨hrel, hcap, hcount⟩ := State.release_spec hw hp now
  obtain ⟨hon, hnoticed, hrd⟩ := w.release_keeps c r now
  refine ⟨_, hexec, hrel, hcap, hcount, fun hn hb first last hc => ?_⟩
  have hnote : v.notedWith c r p now = [(now, ringKey c r, s.ringAt c r)] := by
    have hold : v.wf.noticed.filter (fun e => e.1 == now) = [] :=
      List.filter_eq_nil_iff.2 fun e he => by simpa using hn e he
    unfold State.notedWith
    rw [hold, if_pos hb, hv.ringAt]
    rfl
  obtain ⟨tb', htb'⟩ := (w.release c r now).advanceTo_only now
  have hheard : ((w.release c r now).advanceTo now).heard s.rd.activeB = true := by
    unfold State.heard
    rw [State.advanceTo_rd, hrd]
    simp [w, v]
  refine ⟨_, congrArg Host.Outcome.next (if_pos hheard), ?_⟩
  rw [htb']
  exact State.keepWindow_noted (hon ▸ h.on) h.lt hp h.stays (hnoticed.trans hnote) hc

end Sys2Proof.Machine
end

section
/-! O26, from the freeze of a ring to the unit in its group FIFO, and the statement (R130, R132, R137 to R139, R189). -/

namespace Sys2Proof.Machine

/-! ### Records of a capture -/

/-- Whether records are made of a hit rests on the run, the mode and the applied SLC_CFG. -/
theorem State.recording_congr {s t : State} (hrun : t.run = s.run) (hhk : t.hk = s.hk)
    (heff : t.eff Reg.SLC_CFG = s.eff Reg.SLC_CFG) (c : Nat) : t.recording c = s.recording c := by
  unfold State.recording State.inRun State.sliceOf State.k
  rw [hrun, hhk, heff]

theorem State.recording_count (s : State) {a : Nat} (ha : a < 0x1000000) (n c : Nat) :
    (s.count a n).recording c = s.recording c :=
  State.recording_congr (s.count_run a n) (s.count_hk a n)
    (State.regAt_countAt_ne s (s.phys_ne_instKey ha Reg.SLC_CFG 0).symm _ _) c

theorem State.recording_event (s : State) (a : Nat) (bs : List Nat) (c : Nat) :
    (s.event a bs).recording c = s.recording c :=
  State.recording_congr (s.event_run a bs) (s.event_hk a bs) (State.regAt_congr (s.event_regs a bs) _) c

/-- A unit waits where records are made of its hit (R44). -/
theorem State.unitIn_eq (s : State) (p : Capture) (u : WaveUnit) :
    s.unitIn p u = { s with wf := { s.wf with units := s.wf.units ++ if s.recording p.c then [u] else [] } } := by
  unfold State.unitIn
  split
  · rfl
  · rw [List.append_nil]

/-! ### The freeze -/

/-- A ring that can freeze a capture: it samples, and did so at the capture's last sample (R132). -/
def RingCell.freezes (p : Capture) (x : RingCell) : Bool := x.st == 1 && decide (x.start ≤ p.last)

/-- The capture of a freeze takes the budget and KEEP_ALL of that moment (R136). -/
def State.frozenAs (s : State) (p : Capture) : Capture := { p with budget := s.wfBudget, keepAll := s.bit Reg.WF_CTRL 1 }

/-- The freeze of ring `i`, HELD or KEPT by KEEP_ALL (R130, R136). -/
def State.frozenIn (s : State) (c i : Nat) (p : Capture) : State :=
  let x : RingCell := ⟨if p.keepAll then 3 else 2, (nth RingCell.free (s.ringsBy c p.freeze) i).start, some p, p.freeze, 0⟩
  let t := s.putCell c i p.freeze (p.freeze + 1) x
  if p.keepAll then t.count Reg.WF_KEPT_CNT 1 else t

/-- A capture that finds no ring is dropped and counted (R132). -/
def State.ringMissed (s : State) (p : Capture) : State :=
  (({ s with wf := { s.wf with released := s.wf.released ++ [p] } } : State).count Reg.WF_NORING_CNT 1).event Reg.WF_EVT [1]

/-- Its unit is empty (R132). -/
def State.ringless (s : State) (p : Capture) : State :=
  (s.ringMissed p).unitIn p ((s.ringMissed p).waveUnit p 6 2 [])

/-- What becomes of the capture that is taken, by EN and by the first ring that can freeze it. -/
theorem ringFreeze_eq {ch : Chan} {p : Capture} {rest : List Capture} {s : State}
    (hp : takeCapture ch.val s.wf.waiting = some (p, rest)) : ∃ tb,
    (let v : State := { s with wf := { s.wf with waiting := rest }, tb := tb }
     exec (.ringFreeze ch) s = .next (if !s.bit Reg.WF_CTRL 0 then v
       else match (s.ringsBy ch p.freeze).findIdx? (RingCell.freezes p) with
         | some i => v.frozenIn ch i (s.frozenAs p)
         | none => v.ringless (s.frozenAs p))) := by
  obtain ⟨tb, htb⟩ := ({ s with wf := { s.wf with waiting := rest } } : State).advanceTo_only (s.frozenAs p).freeze
  refine ⟨tb, ?_⟩
  show execRingFreeze ch s = _
  unfold execRingFreeze
  dsimp only
  rw [hp]
  unfold State.frozenAs at htb
  dsimp only
  rw [htb]
  rfl

/-- A frozen ring reads as HELD or KEPT, with its capture. -/
theorem State.frozenIn_spec {s : State} {c i : Nat} (hs : s.wf.sampStart.isSome = true) (hi : i < 4) (p : Capture) :
    (s.frozenIn c i p).wf.waiting = s.wf.waiting ∧
      ((s.frozenIn c i p).ringAt c i).st = (if p.keepAll then 3 else 2) ∧
      ((s.frozenIn c i p).ringAt c i).cap = some p ∧ ((s.frozenIn c i p).ringAt c i).keptAt = p.freeze := by
  let x : RingCell := ⟨if p.keepAll then 3 else 2, (nth RingCell.free (s.ringsBy c p.freeze) i).start, some p, p.freeze, 0⟩
  have hst : 2 ≤ x.st := by
    show 2 ≤ if p.keepAll then 3 else 2
    split <;> decide
  have hwf : (s.frozenIn c i p).wf = (s.putCell c i p.freeze (p.freeze + 1) x).wf := ite_keeps State.wf _ rfl rfl
  have hocc : (s.frozenIn c i p).Occupies c i x :=
    (State.occupies_putCell hs hi hst rfl p.freeze (p.freeze + 1)).congr (congrArg Wf.rings hwf) (congrArg Wf.sampStart hwf)
  rw [hocc.ringAt, hwf]
  exact ⟨rfl, rfl, rfl, rfl⟩

/-- A capture without a ring is counted, and its unit waits where records are made of its hit. -/
theorem State.ringless_spec (s : State) (p : Capture) :
    (s.ringless p).wf.waiting = s.wf.waiting ∧ s.counts (s.ringless p) Reg.WF_NORING_CNT 1 ∧
      (s.ringless p).wf.units.length = s.wf.units.length + b2n (s.recording p.c) := by
  have hrec : (s.ringMissed p).recording p.c = s.recording p.c :=
    (State.recording_event _ _ _ _).trans (State.recording_count _ (by decide) 1 _)
  have hcount : s.counts (s.ringMissed p) Reg.WF_NORING_CNT 1 :=
    (State.counts_count (State.reg_congr rfl rfl _) 1).congr (State.reg_event _ _ _ _)
  unfold State.ringless
  rw [State.unitIn_eq, hrec]
  refine ⟨rfl, hcount.congr (State.reg_congr rfl rfl _), ?_⟩
  show (s.wf.units ++ _).length = _
  rw [List.length_append]
  cases s.recording p.c <;> rfl

section
variable {ch : Chan} {p : Capture} {rest : List Capture} {s : State} (hp : takeCapture ch.val s.wf.waiting = some (p, rest))
include hp

/-- With EN the first ring that can freeze the capture does (R132). -/
theorem ringFreeze_freezes {i : Nat} (hs : s.wf.sampStart.isSome = true) (he : s.bit Reg.WF_CTRL 0 = true)
    (hi : (s.ringsBy ch p.freeze).findIdx? (RingCell.freezes p) = some i) :
    ∃ t, exec (.ringFreeze ch) s = .next t ∧ t.wf.waiting = rest ∧
      (t.ringAt ch i).st = (if s.bit Reg.WF_CTRL 1 then 3 else 2) ∧ (t.ringAt ch i).cap = some (s.frozenAs p) ∧
      (t.ringAt ch i).keptAt = p.freeze := by
  obtain ⟨tb, hexec⟩ := ringFreeze_eq hp
  have hi4 : i < 4 := (List.findIdx?_eq_some_iff_getElem.1 hi).1.trans_eq (s.ringsBy_length _ _)
  rw [he, hi] at hexec
  exact ⟨_, hexec, State.frozenIn_spec (s := { s with wf := { s.wf with waiting := rest }, tb := tb }) hs hi4 (s.frozenAs p)⟩

/-- With EN and no such ring the capture is counted, with an empty unit in a run (R132). -/
theorem ringFreeze_ringless (he : s.bit Reg.WF_CTRL 0 = true)
    (hi : (s.ringsBy ch p.freeze).findIdx? (RingCell.freezes p) = none) :
    ∃ t, exec (.ringFreeze ch) s = .next t ∧ t.wf.waiting = rest ∧ s.counts t Reg.WF_NORING_CNT 1 ∧
      t.wf.units.length = s.wf.units.length + b2n (s.recording p.c) := by
  obtain ⟨tb, hexec⟩ := ringFreeze_eq hp
  rw [he, hi] at hexec
  exact ⟨_, hexec, State.ringless_spec { s with wf := { s.wf with waiting := rest }, tb := tb } (s.frozenAs p)⟩

/-- Without EN a freeze takes its capture from those that wait, and nothing freezes (R136). -/
theorem ringFreeze_disabled (he : s.bit Reg.WF_CTRL 0 = false) :
    ∃ t, exec (.ringFreeze ch) s = .next t ∧ t = { s with wf := { s.wf with waiting := rest }, tb := t.tb } := by
  obtain ⟨tb, hexec⟩ := ringFreeze_eq hp
  rw [he] at hexec
  exact ⟨_, hexec, rfl⟩

end

/-! ### The deadline -/

/-- A ring past its deadline becomes FREE in the tick after (R139). -/
theorem State.freeAfter_eq {s : State} {c r : Nat} {x : RingCell} (h : s.Occupies c r x) :
    s.freeAfter c r = s.putCell c r s.tb.tn (s.tb.tn + 1) { x with freeAt := s.tb.tn + 1 } := by
  unfold State.freeAfter State.putCell
  dsimp only
  rw [h.ringsBy]

/-- Such a ring stands now, and holds no capture in the tick after. -/
theorem State.ringAt_freeNext {s : State} {c r : Nat} {x : RingCell} (hs : s.wf.sampStart.isSome = true) (hr : r < 4)
    (hst : 2 ≤ x.st) (hx : s.cell c r = { x with freeAt := s.tb.tn + 1 }) :
    s.ringAt c r = { x with freeAt := s.tb.tn + 1 } ∧
      (nth RingCell.free (s.ringsBy c (s.tb.tn + 1)) r).cap = none := by
  refine ⟨State.ringsBy_of_at hs hr ?_ hst, State.ringsBy_cap_of_free hr ?_ hs⟩
  · rw [hx]
    exact RingCell.at_stays (.inr (Nat.lt_succ_self _))
  · rw [hx]
    exact if_pos ⟨Nat.succ_ne_zero _, Nat.le_refl _⟩

/-- A KEPT ring past its deadline counts, with an empty unit in a run, and is FREE from the next tick on (R139). -/
theorem waveDeadline_frees {ch : Chan} {ring : Fin 4} {p : Capture} {s : State} (hs : s.wf.sampStart.isSome = true)
    (hp : (s.ringAt ch ring).cap = some p) (hf : (s.ringAt ch ring).freeAt = 0) (hst : (s.ringAt ch ring).st = 3) :
    ∃ t, exec (.waveDeadline ch ring) s = .next t ∧ t.ringAt ch ring = { s.ringAt ch ring with freeAt := t.tb.tn + 1 } ∧
      (nth RingCell.free (t.ringsBy ch (t.tb.tn + 1)) ring).cap = none ∧ s.counts t Reg.WF_DEADLINE_CNT 1 ∧
      t.wf.units = s.wf.units ++ (if s.recording p.c then [s.waveUnit p 6 3 []] else []) := by
  obtain ⟨tb, htb⟩ := s.advanceTo_only (s.waveEnd p - 319)
  have hst2 : 2 ≤ (s.ringAt ch ring).st := by omega
  have hocc : State.Occupies { s with tb := tb } ch ring (s.ringAt ch ring) :=
    (State.occupies_of_ringAt hs hst2 hf).congr rfl rfl
  let x : RingCell := { s.ringAt ch ring with freeAt := tb.tn + 1 }
  let v : State := State.putCell { s with tb := tb } ch ring tb.tn (tb.tn + 1) x
  let u : State := { v with wf := { v.wf with units := s.wf.units ++ if s.recording p.c then [s.waveUnit p 6 3 []] else [] } }
  have hexec : exec (.waveDeadline ch ring) s = .next ((u.count Reg.WF_DEADLINE_CNT 1).event Reg.WF_EVT [2]) := by
    show execWaveDeadline ch ring s = _
    unfold execWaveDeadline
    dsimp only
    rw [hp]
    dsimp only
    rw [if_pos ⟨hst, hf⟩, htb, State.freeAfter_eq hocc, State.unitIn_eq]
    rfl
  have hcell : u.cell ch ring = x := State.cell_putCell_self _ ch tb.tn (tb.tn + 1) x ring.isLt
  obtain ⟨hat, hcap⟩ := State.ringAt_freeNext (s := u) hs ring.isLt hst2 hcell
  exact ⟨_, hexec, hat, hcap, (State.counts_count (State.reg_congr rfl rfl _) 1).congr (State.reg_event _ _ _ _), rfl⟩

/-! ### Conversion -/

/-- What a choice among the elements of a list yields is one of them, or the choice before. -/
theorem foldl_choice_mem {α : Type} {f : Option α → α → Option α} (hf : ∀ b e x, f b e = some x → x = e ∨ b = some x)
    {l : List α} {b : Option α} {x : α} (h : l.foldl f b = some x) : x ∈ l ∨ b = some x := by
  induction l generalizing b with
  | nil => exact .inr h
  | cons e l ih =>
    obtain hl | he := ih h
    · exact .inl (List.mem_cons_of_mem e hl)
    · obtain rfl | hb := hf b e x he
      · exact .inl List.mem_cons_self
      · exact .inr hb

/-- The ring that goes next at an ADC waits for no deadline (R138). -/
theorem State.nextKept_stays {s : State} {a now : Nat} {e : Nat × RingCell} (h : s.nextKept a now = some e) : e.2.freeAt = 0 := by
  unfold State.nextKept at h
  refine (foldl_choice_mem (fun b e x hx => ?_) h).elim (fun hmem => ?_) nofun
  · cases b with
    | none => exact .inl (Option.some.inj hx).symm
    | some y =>
      have hx' := Option.some.inj hx
      split at hx'
      · exact .inl hx'.symm
      · exact .inr (congrArg some hx')
  · have hc := (List.mem_filter.1 hmem).2
    simp only [Bool.and_eq_true, beq_iff_eq] at hc
    exact hc.1.2

/-- An idle ADC whose units all have room takes the next ring (R138). -/
theorem adcConversionStart_takes {adc : Adc} {now : Nat} {e : Nat × RingCell} {s : State}
    (hs : s.wf.sampStart.isSome = true) (hidle : Sparse.get none s.wf.adc adc.val = none)
    (hroom : ∀ u, u ∈ s.wf.units → u.adc = adc.val → s.unitRoom u = true) (he : s.nextKept adc now = some e) :
    ∃ t, exec (.adcConversionStart adc now) s = .next t ∧ Sparse.get none t.wf.adc adc.val = some (e.1 / 4, e.1 % 4) ∧
      (t.ringAt (e.1 / 4) (e.1 % 4)).st = 4 ∧ t = { s with wf := t.wf, tb := t.tb } := by
  obtain ⟨tb, htb⟩ := s.advanceTo_only now
  let v : State := { s with tb := tb }
  let u : State := v.putCell (e.1 / 4) (e.1 % 4) tb.tn (tb.tn + 1) { e.2 with st := 4 }
  let t : State := { u with wf := { u.wf with adc := Sparse.put none adc.val (some (e.1 / 4, e.1 % 4)) u.wf.adc } }
  have hgo : ¬ ((Sparse.get none s.wf.adc adc.val).isSome ∨ s.wf.units.any (fun u => u.adc == adc.val && !s.unitRoom u)) := by
    rw [hidle, not_or]
    refine ⟨Bool.false_ne_true, fun hany => ?_⟩
    obtain ⟨u, hu, hb⟩ := List.any_eq_true.1 hany
    obtain ⟨ha, hr⟩ := Bool.and_eq_true_iff.1 hb
    rw [hroom u hu (beq_iff_eq.1 ha)] at hr
    exact Bool.false_ne_true hr
  have hexec : exec (.adcConversionStart adc now) s = .next t := by
    show execAdcConversionStart adc now s = _
    unfold execAdcConversionStart
    have hk : v.nextKept adc now = some e := he
    rw [htb]
    refine congrArg Host.Outcome.next ((if_neg hgo).trans ?_)
    rw [hk]
    rfl
  have hocc : u.Occupies (e.1 / 4) (e.1 % 4) { e.2 with st := 4 } :=
    State.occupies_putCell (s := v) (x := { e.2 with st := 4 }) hs (Nat.mod_lt e.1 (by decide)) (by decide : 2 ≤ 4)
      (State.nextKept_stays he) tb.tn (tb.tn + 1)
  refine ⟨t, hexec, Sparse.get_put_self none (some (e.1 / 4, e.1 % 4)) s.wf.adc adc.val, ?_, rfl⟩
  rw [State.Occupies.ringAt (s := t) (hocc.congr rfl rfl)]

/-- The cells of a conversion: the corrected counts, zero where the ring had not started (R137). -/
def State.waveCells (s : State) (adc start : Nat) (p : Capture) (raw : List Nat) : List Nat :=
  raw.mapIdx (fun i v => if p.first + (i : Int) < (start : Int) then 0 else s.adcValue adc v)

/-- The unit of a conversion: its cells reduced and packed, behind its header (R141 to R145). -/
def State.waveOf (s : State) (adc start : Nat) (p : Capture) (raw : List Nat) : WaveUnit :=
  let red := s.redOf (s.sliceOf p.tick)
  s.waveUnit p red (b2n (decide (p.first < (start : Int)))) (packWave red (reduceCells red (s.waveCells adc start p raw)))

/-- At the end of a conversion its unit waits, and the ADC is idle (R137, R138). -/
theorem adcConversionEnd_packs {adc : Adc} {raw : List Nat} {c r : Nat} {p : Capture} {s : State}
    (hw : (Instr.adcConversionEnd adc raw).wf = true) (ha : Sparse.get none s.wf.adc adc.val = some (c, r))
    (hp : (s.ringAt c r).cap = some p) (hr : s.recording p.c = true) :
    ∃ t, exec (.adcConversionEnd adc raw) s = .next t ∧ Sparse.get none t.wf.adc adc.val = none ∧
      t.wf.units = s.wf.units ++ [s.waveOf adc (s.ringAt c r).start p raw] := by
  let v : State := State.freeRing { s with wf := { s.wf with adc := Sparse.put none adc.val none s.wf.adc } } c r s.tb.tn
  let u : WaveUnit := s.waveOf adc (s.ringAt c r).start p raw
  have hrec : v.recording p.c = true := hr
  have hexec : exec (.adcConversionEnd adc raw) s = .next ((v.unitIn p u).eventIf
      (decide (p.first < ((s.ringAt c r).start : Int)) && s.recording p.c) Reg.WF_EVT [0]) := by
    show execAdcConversionEnd adc raw s = _
    unfold execAdcConversionEnd
    rw [if_pos hw, ha]
    dsimp only
    rw [hp]
    rfl
  refine ⟨_, hexec, ?_⟩
  rw [State.eventIf_wf, State.unitIn_eq, hrec]
  exact ⟨Sparse.get_put_self none none s.wf.adc adc.val, rfl⟩

/-! ### The unit -/

/-- The first unit of a group that fits is written whole to its FIFO (R189). -/
theorem waveUnitWrite_writes {g : Group} {u : WaveUnit} {rest : List WaveUnit} {s : State}
    (h : s.takeUnit g.val [] s.wf.units = some (u, rest)) :
    ∃ t, exec (.waveUnitWrite g) s = .next t ∧ t.wf = { s.wf with units := rest } ∧
      t.group g = { s.group g with fifo := (s.group g).fifo ++ u.ents } ∧
      (∀ h, h ≠ g.val → t.group h = s.group h) ∧ t = { s with wf := t.wf, fed := t.fed } := by
  have hexec : exec (.waveUnitWrite g) s = .next (({ s with wf := { s.wf with units := rest } } : State).setGroup g
      { s.group g with fifo := (s.group g).fifo ++ u.ents }) := by
    show execWaveUnitWrite g s = _
    unfold execWaveUnitWrite
    rw [h]
  refine ⟨_, hexec, rfl, ?_, fun h hh => ?_, rfl⟩
  · rw [State.group_setGroup, if_pos rfl]
  · rw [State.group_setGroup, if_neg hh]
    rfl

/-! ### The statement -/

/-- Settles O26: one lemma for each command; the rings that it reads stand in every tick until they are written. -/
theorem waveformsAreCapturedAndSent : Obligations.WaveformsAreCapturedAndSent := by
  unfold Obligations.WaveformsAreCapturedAndSent
  refine ⟨fun ch p rest s hp hs => ⟨fun i => ringFreeze_freezes hp hs, ringFreeze_ringless hp, ringFreeze_disabled hp⟩,
    fun c r p s hs hh hst hp hf => ?_,
    fun ch ring p s hs hp hf => ⟨holdBudgetExpire_releases hs hp hf, waveDeadline_frees hs hp hf⟩,
    fun adc now e s => adcConversionStart_takes, fun adc raw c r p s => adcConversionEnd_packs,
    fun g u rest s => waveUnitWrite_writes⟩
  have hocc := State.occupies_of_ringAt hs hst.ge hf
  refine ⟨fun fromB first last now hheard hn h1 h2 hnow hb => ?_, fun x now hx hnow => ?_⟩
  · obtain ⟨t, hexec, hkept⟩ := keepWindowReceive_keeps hocc hp hh hheard hn (decide_eq_true ⟨h1, h2⟩) hnow hb
    exact ⟨t, hexec, hkept.ringAt⟩
  · obtain ⟨t, hexec, hrel, hcap, hcount, hback⟩ := releaseThroughReceive_releases hocc hp hh hx hnow
    refine ⟨t, hexec, hrel, hcap, hcount, fun first last h1 h2 hn hb => ?_⟩
    obtain ⟨u, hu, hkept⟩ := hback hn hb first last (decide_eq_true ⟨h1, h2⟩)
    exact ⟨u, hu, hkept.ringAt.1, hkept.ringAt.2.2⟩

end Sys2Proof.Machine
end

section
/-! O32: a primitive joins the Whisk, the Whisk evaluates its ticks in order and makes the decisions that are due, and the
release through them leaves (R148 to R150, R163, R165). -/

namespace Sys2Proof.Machine

/-! ### The Whisk of the active CD -/

@[simp] theorem State.setWhisk_whisk (s : State) (w : Whisk) : (s.setWhisk w).cd.whisk = w :=
  congrArg Cd.whisk (s.cd_setCd _)

theorem State.setWhisk_err (s : State) (w : Whisk) : (s.setWhisk w).err = s.err := s.setCd_err _

theorem State.bit_congr {s t : State} {a : Nat} (h : t.reg a = s.reg a) (i : Nat) : t.bit a i = s.bit a i :=
  congrArg (bitOf · i) h

theorem State.setWhisk_reg (s : State) (w : Whisk) (a : Nat) : (s.setWhisk w).reg a = s.reg a :=
  State.reg_congr (s.setCd_regs _) (congrArg Rd.activeB (s.setCd_rd _)) a

/-- Whether a run has an end is read from the run alone. -/
theorem State.lastEval_none {s t : State} (hr : t.run = s.run) (h : s.lastEval = none) : t.lastEval = none := by
  unfold State.lastEval at h ⊢
  rw [hr]
  split
  · next ha =>
    rw [if_pos ha, Option.map_eq_none_iff] at h
    rw [h]
    rfl
  · rfl

/-! ### Primitives -/

/-- What is left of the Whisk's input once its first primitive has been taken. -/
def State.primTaken (s : State) (rest : List Prim) : State := s.setCd { s.cd with toWhisk := rest }

/-- The Whisk that holds one more primitive, with the tick at which it will be evaluated first. -/
def Whisk.joined (w : Whisk) (p : Prim) : Whisk := { w with prims := w.prims ++ [{ p with tag := w.next }] }

/-- The same where the primitive is in time: its channel has a new last hit, and trackers of its silence start again (R152). -/
def Whisk.joinedInTime (w : Whisk) (p : Prim) : Whisk :=
  { w.joined p with
    lastHit := Sparse.ins p.chan (p.c / 2048) w.lastHit, quiet := w.quiet.filter (fun q => q / 4 != p.chan) }

theorem State.primTaken_whisk (s : State) (rest : List Prim) : (s.primTaken rest).cd.whisk = s.cd.whisk := by
  unfold State.primTaken
  rw [State.cd_setCd]

section
variable {s : State} {p : Prim} {rest : List Prim} (hq : s.cd.toWhisk = p :: rest) (hon : s.cd.whisk.on = true)
  (hen : s.bit Reg.TRG_CTRL 0 = true) (hstep : s.rd.step ≠ 4) (hl : s.lastEval = none)
  (hst : s.cd.whisk.start ≤ p.c / 2048)
include hq hon hen hstep hl hst

/-- A primitive joins the others; one that is late is counted besides (R148, R149). -/
theorem primitiveArrival_joins : exec .primitiveArrival s = .next (if p.c / 2048 < s.cd.whisk.next then
      (((s.primTaken rest).setWhisk (s.cd.whisk.joined p)).count Reg.TRG_LATE_PRIM_CNT 1).event Reg.TRG_EVT [1]
    else (s.primTaken rest).setWhisk (s.cd.whisk.joinedInTime p)) := by
  have hen' : (s.primTaken rest).bit Reg.TRG_CTRL 0 = true :=
    (State.bit_congr (State.reg_congr (s.setCd_regs _) (congrArg Rd.activeB (s.setCd_rd _)) _) 0).trans hen
  have hl' : (s.primTaken rest).lastEval = none := State.lastEval_none (s.setCd_run _) hl
  have hstep' : (s.primTaken rest).rd.step ≠ 4 := by
    rw [show (s.primTaken rest).rd = s.rd from s.setCd_rd _]
    exact hstep
  have hgo : ¬((!s.cd.whisk.on) = true ∨ (!(s.primTaken rest).bit Reg.TRG_CTRL 0) = true) := by simp [hon, hen']
  show execPrimitiveArrival s = _
  unfold execPrimitiveArrival
  rw [hq]
  dsimp only
  rw [← State.primTaken, s.primTaken_whisk rest, hl', if_neg hgo, if_neg (fun h => hstep' h.1),
    if_neg (by simpa using hst)]
  rfl

/-- What a primitive's arrival leaves of the input, the Whisk and the counter of late primitives. -/
theorem primitiveArrival_spec : ∃ t, exec .primitiveArrival s = .next t ∧ t.cd.toWhisk = rest ∧
    t.cd.whisk.prims = s.cd.whisk.prims ++ [{ p with tag := s.cd.whisk.next }] ∧ t.cd.whisk.decs = s.cd.whisk.decs ∧
    t.reg Reg.TRG_LATE_PRIM_CNT = (if p.c / 2048 < s.cd.whisk.next
      then BitVec.ofNat 32 (satAdd 0xFFFFFFFF (s.reg Reg.TRG_LATE_PRIM_CNT).toNat 1)
      else s.reg Reg.TRG_LATE_PRIM_CNT) := by
  have hcd : ∀ w, ((s.primTaken rest).setWhisk w).cd = { s.cd with toWhisk := rest, whisk := w } := fun w => by
    unfold State.setWhisk State.primTaken
    rw [State.cd_setCd, State.cd_setCd]
  have hreg : ∀ w a, ((s.primTaken rest).setWhisk w).reg a = s.reg a := fun w a =>
    (State.setWhisk_reg _ w a).trans (State.reg_congr (s.setCd_regs _) (congrArg Rd.activeB (s.setCd_rd _)) a)
  refine ⟨_, primitiveArrival_joins hq hon hen hstep hl hst, ?_⟩
  split
  · rw [State.cd_event, State.cd_count, hcd, State.reg_event]
    exact ⟨rfl, rfl, rfl, State.counts_count (hreg _ _) 1⟩
  · rw [hcd]
    exact ⟨rfl, rfl, rfl, hreg _ _⟩

end

/-! ### Decisions -/

/-- The decisions due when tick `e` is evaluated (R173). -/
def Whisk.due (w : Whisk) (e : Nat) : List PendDec := w.pend.filter (fun p => decide (p.t + 3 ≤ e))

/-- The decisions still to be made then. -/
def Whisk.waiting (w : Whisk) (e : Nat) : List PendDec := w.pend.filter (fun p => decide (e < p.t + 3))

theorem State.keepOut_cd (s : State) (t : Nat) : (s.keepOut t).cd = s.cd := rfl
theorem State.keepOut_err (s : State) (t : Nat) : (s.keepOut t).err = s.err := rfl

/-- A decision made is one more in the Whisk, and leaves the errors. -/
theorem State.makeDecision_spec (s : State) (p : PendDec) : ∃ d,
    (s.makeDecision p).cd.whisk = { s.cd.whisk with decs := s.cd.whisk.decs ++ [d] } ∧
      (s.makeDecision p).err = s.err := by
  unfold State.makeDecision
  extract_lets w d src s1 s2
  have hcd : s2.cd = s1.cd := by
    rw [show s2 = State.keepOut _ _ from rfl, State.keepOut_cd, State.cd_count, State.eventIf_cd, State.cd_count]
  have hw : s2.cd.whisk = { s.cd.whisk with decs := s.cd.whisk.decs ++ [d] } :=
    (congrArg Cd.whisk hcd).trans (State.setWhisk_whisk _ _)
  have he : s2.err = s.err := by
    rw [show s2 = State.keepOut _ _ from rfl, State.keepOut_err, State.count_err, State.eventIf_err, State.count_err]
    exact s.setWhisk_err _
  clear_value s2
  refine ⟨d, ?_⟩
  split <;> exact ⟨hw, he⟩

/-- The same of several decisions, made one after the other. -/
theorem State.makeDecisions_spec (l : List PendDec) (s : State) : ∃ ds : List Dec, ds.length = l.length ∧
    (l.foldl State.makeDecision s).cd.whisk = { s.cd.whisk with decs := s.cd.whisk.decs ++ ds } ∧
      (l.foldl State.makeDecision s).err = s.err := by
  induction l generalizing s with
  | nil => exact ⟨[], rfl, by simp, rfl⟩
  | cons p l ih =>
    obtain ⟨d, hw, he⟩ := s.makeDecision_spec p
    obtain ⟨ds, hlen, hw', he'⟩ := ih (s.makeDecision p)
    refine ⟨d :: ds, by simp [hlen], ?_, he'.trans he⟩
    rw [List.foldl_cons, hw', hw]
    simp

/-- Exactly the due decisions are made, and the others wait on. -/
theorem State.makeDue_spec (s : State) (e : Nat) : ∃ ds : List Dec, ds.length = (s.cd.whisk.due e).length ∧
    (s.makeDue e).cd.whisk = { s.cd.whisk with pend := s.cd.whisk.waiting e, decs := s.cd.whisk.decs ++ ds } ∧
      (s.makeDue e).err = s.err := by
  have hwait : s.cd.whisk.pend.filter (fun p => !decide (p.t + 3 ≤ e)) = s.cd.whisk.waiting e :=
    List.filter_congr (fun p _ => by rw [← decide_not, decide_eq_decide]; omega)
  unfold State.makeDue
  dsimp only
  rw [hwait]
  obtain ⟨ds, hlen, hw, he⟩ := State.makeDecisions_spec (s.cd.whisk.due e)
    (s.setWhisk { s.cd.whisk with pend := s.cd.whisk.waiting e })
  refine ⟨ds, hlen, hw.trans ?_, he.trans (s.setWhisk_err _)⟩
  rw [State.setWhisk_whisk]

/-- Where no decision is due, none is made and nothing else happens. -/
theorem State.makeDue_none {s : State} {e : Nat} (h : ∀ p ∈ s.cd.whisk.pend, e < p.t + 3) :
    s.makeDue e = s.setWhisk s.cd.whisk := by
  have hdue : s.cd.whisk.due e = [] := List.filter_eq_nil_iff.2 (fun p hp => by simpa using h p hp)
  have hwait : s.cd.whisk.pend.filter (fun p => !decide (p.t + 3 ≤ e)) = s.cd.whisk.pend :=
    List.filter_eq_self.2 (fun p hp => by simpa using h p hp)
  unfold Whisk.due at hdue
  unfold State.makeDue
  dsimp only
  rw [hdue, hwait]
  rfl

/-! ### The evaluation of a tick -/

/-- The Whisk without what every tick renews: primitives, silent channels, rule states and bus. -/
def Whisk.steady (w : Whisk) : Whisk := { w with prims := [], quiet := [], rules := [], bus := [] }

/-- The Whisk once tick `n` has passed. -/
def Whisk.ticked (w : Whisk) (n : Nat) : Whisk := { w with next := n + 1 }

/-- The errors, and the Whisk without what every tick renews. -/
def State.steady (s : State) : Err × Whisk := (s.err, s.cd.whisk.steady)

/-- What the passing of rules leaves of the Whisk: whether it is on, its next tick, and its decisions. -/
def Whisk.pace (w : Whisk) : Bool × Nat × List Dec := (w.on, w.next, w.decs)

/-- The errors, and the pace of the Whisk. -/
def State.paced (s : State) : Err × Bool × Nat × List Dec := (s.err, s.cd.whisk.pace)

theorem State.setWhisk_steady (s : State) (w : Whisk) : (s.setWhisk w).steady = (s.err, w.steady) := by
  unfold State.steady
  rw [State.setWhisk_whisk, State.setWhisk_err]

theorem State.countAt_steady (s : State) (k top n : Nat) : (s.countAt k top n).steady = s.steady := rfl

theorem State.countAt_paced (s : State) (k top n : Nat) : (s.countAt k top n).paced = s.paced := rfl

theorem Whisk.setRule_steady (w : Whisk) (r : Nat) (x : RuleSt) : (w.setRule r x).steady = w.steady := rfl

theorem State.summaryRise_steady (s : State) (j t : Nat) : (s.summaryRise j t).steady = s.steady := by
  unfold State.summaryRise
  extract_lets n b old new rest src s1
  exact (s1.countAt_steady _ _ _).trans rfl

/-- A gate changes the state of its rule alone (R157). -/
theorem State.gates_steady (s : State) (r t : Nat) : (s.gates r t).2.steady = s.steady := by
  unfold State.gates
  extract_lets w x
  have hset : ∀ y, (s.setWhisk (w.setRule r y)).steady = s.steady := fun y => s.setWhisk_steady _
  exact ite_keeps (fun g : Bool × State => g.2.steady) _ (s.countAt_steady _ _ _)
    (ite_keeps (fun g : Bool × State => g.2.steady) _ (s.countAt_steady _ _ _)
      (ite_keeps (fun g : Bool × State => g.2.steady) _ (hset _) ((State.countAt_steady _ _ _ _).trans (hset _))))

/-- Within 64 ticks of the last decision no rule passes (R157, R163). -/
theorem State.gates_busy {s : State} {t d : Nat} (h : s.cd.whisk.lastDec = some d) (hb : t < d + 64) (r : Nat) :
    (s.gates r t).1 = false := by
  unfold State.gates
  dsimp only
  rw [h]
  split
  · rfl
  · rw [if_pos (decide_eq_true hb)]

/-- One firing rule at the gates: the rules that have passed, and the state. -/
def gateRule (t : Nat) (a : List Nat × State) (r : Nat) : List Nat × State :=
  (if (a.2.gates r t).1 then a.1 ++ [r] else a.1, (a.2.gates r t).2)

theorem gateRules_steady (t : Nat) (l : List Nat) (a : List Nat × State) :
    (l.foldl (gateRule t) a).2.steady = a.2.steady :=
  foldl_snd_keeps State.steady (f := gateRule t) (fun x r => x.2.gates_steady r t) l a

theorem gateRules_busy {t d : Nat} (hb : t < d + 64) (l : List Nat) (a : List Nat × State)
    (h : a.2.cd.whisk.lastDec = some d) : (l.foldl (gateRule t) a).1 = a.1 := by
  induction l generalizing a with
  | nil => rfl
  | cons r l ih =>
    have hlast : (gateRule t a r).2.cd.whisk.lastDec = some d :=
      (congrArg (fun x : Err × Whisk => x.2.lastDec) (a.2.gates_steady r t)).trans h
    rw [List.foldl_cons, ih _ hlast]
    exact if_neg (by rw [State.gates_busy h hb r]; exact Bool.false_ne_true)

/-- A tick in sound memory: rules come to the gates, and of the Whisk only what a tick renews and the next tick have changed
when those that passed make their decision; none passes within 64 ticks of the last (R150, R157). -/
theorem State.evalTick_passes {s : State} (hs : s.sound) (t : Nat) : ∃ (u : State) (passing : List Nat),
    s.evalTick t = u.passRules passing t ∧ u.steady = (s.err, (s.cd.whisk.ticked t).steady) ∧
      ∀ d, s.cd.whisk.lastDec = some d → t < d + 64 → passing = [] := by
  have hread : s.readTables.readCrit 0x26 0 16777216 = s := by
    have htab : s.readTables = s := by
      obtain ⟨hbad, hraw, -⟩ := hs
      unfold State.readTables
      rw [hbad, hraw]
      rfl
    rw [htab, State.readCrit_sound hs]
  unfold State.evalTick
  rw [hread]
  extract_lets v quiet w s1 rules vals fired high w1 s2 g
  have h1 : s1.cd.whisk.steady = s.cd.whisk.steady := (congrArg Whisk.steady (s.setWhisk_whisk _)).trans rfl
  have hw1 : w1.steady = s.cd.whisk.steady :=
    Eq.trans (foldl_keeps Whisk.steady (fun v r => ite_keeps Whisk.steady _ rfl (v.setRule_steady _ _)) _ _) h1
  clear_value w1
  have h2 : s2.steady = (s.err, (s.cd.whisk.ticked t).steady) := by
    rw [show s2 = s1.setWhisk _ from rfl, State.setWhisk_steady, show s1.err = s.err from s.setWhisk_err _]
    exact congrArg (fun v : Whisk => (s.err, v.ticked t)) hw1
  clear_value s2
  split
  · exact ⟨_, [], rfl, (foldl_keeps State.steady (fun u j => u.summaryRise_steady j t) fired s2).trans h2,
      fun _ _ _ => rfl⟩
  · refine ⟨g.2, g.1, rfl, (gateRules_steady t fired ([], s2)).trans h2, fun d hd hb => ?_⟩
    exact gateRules_busy hb fired ([], s2) ((congrArg (fun x : Err × Whisk => x.2.lastDec) h2).trans hd)

theorem State.holdOff_paced (s : State) (passing : List Nat) (t : Nat) : (s.holdOff passing t).paced = s.paced := by
  unfold State.holdOff
  extract_lets w less aged w'
  have hw : w'.pace = w.pace := by
    refine Eq.trans (foldl_keeps Whisk.pace ?_ passing aged) rfl
    exact fun v r => ite_keeps Whisk.pace _ rfl (ite_keeps Whisk.pace _ rfl rfl)
  clear_value w'
  unfold State.paced
  rw [State.setWhisk_whisk, State.setWhisk_err]
  exact congrArg (Prod.mk s.err) hw

/-- Rules that pass leave the pace of the Whisk, and decisions for later (R159, R160). -/
theorem State.passRules_paced (s : State) (passing : List Nat) (t : Nat) : (s.passRules passing t).paced = s.paced := by
  unfold State.passRules
  split
  · rfl
  · next cause tail =>
    extract_lets p src s1
    have h1 : s1.paced = s.paced := by
      unfold State.paced
      rw [show s1 = s.setWhisk _ from rfl, State.setWhisk_whisk, State.setWhisk_err]
      rfl
    refine (State.holdOff_paced _ _ _).trans (Eq.trans (foldl_keeps State.paced ?_ _ s1) h1)
    exact fun u r => u.countAt_paced _ _ _

/-! ### The Whisk's next tick -/

theorem State.evalWait_only (s : State) (t : Nat) : ∃ tb, s.evalWait t = { s with tb := tb } := by
  unfold State.evalWait
  split
  · exact ⟨s.tb, rfl⟩
  · exact s.advanceTo_only _

/-- The next tick `n` once what is due has been made: evaluated, or passed with EN = 0 (R150). -/
def State.passTick (s : State) (n : Nat) : State :=
  if s.bit Reg.TRG_CTRL 0 then s.evalTick n else s.setWhisk (s.cd.whisk.ticked n)

/-- Either way the next tick is `n + 1`, no decision is made, and within 64 ticks of the last one none is taken. -/
theorem State.passTick_spec {s : State} (hs : s.sound) (n : Nat) :
    (s.passTick n).paced = (s.err, s.cd.whisk.on, n + 1, s.cd.whisk.decs) ∧
      ∀ d, s.cd.whisk.lastDec = some d → n < d + 64 → (s.passTick n).cd.whisk.pend = s.cd.whisk.pend := by
  unfold State.passTick
  split
  · obtain ⟨u, passing, heq, hu, hbusy⟩ := State.evalTick_passes hs n
    rw [heq]
    refine ⟨(u.passRules_paced passing n).trans
      (congrArg (fun x : Err × Whisk => (x.1, x.2.pace)) hu), fun d hd hb => ?_⟩
    rw [hbusy d hd hb]
    exact congrArg (fun x : Err × Whisk => x.2.pend) hu
  · unfold State.paced
    rw [State.setWhisk_whisk, State.setWhisk_err]
    exact ⟨rfl, fun _ _ _ => rfl⟩

section
variable {s : State} (hon : s.cd.whisk.on = true) (hl : s.lastEval = none)
include hon hl

/-- The Whisk makes what is due, and its next tick passes. -/
theorem State.whiskNext_eval : ∃ tb,
    s.whiskNext = (({ s with tb := tb } : State).makeDue s.cd.whisk.next).passTick s.cd.whisk.next := by
  obtain ⟨tb, htb⟩ := s.evalWait_only s.cd.whisk.next
  refine ⟨tb, ?_⟩
  unfold State.whiskNext
  dsimp only
  rw [hon, hl, htb]
  rfl

/-- With EN = 0 and no decision due a tick passes, and nothing moves but the next tick. -/
theorem whiskNext_disabled (hen : s.bit Reg.TRG_CTRL 0 = false)
    (hp : ∀ p ∈ s.cd.whisk.pend, s.cd.whisk.next < p.t + 3) :
    s.whiskNext.cd.whisk = { s.cd.whisk with next := s.cd.whisk.next + 1 } ∧ s.whiskNext.out = s.out := by
  obtain ⟨tb, hnext⟩ := State.whiskNext_eval hon hl
  have hbit : (({ s with tb := tb } : State).setWhisk s.cd.whisk).bit Reg.TRG_CTRL 0 = false :=
    (State.bit_congr (State.setWhisk_reg _ _ _) 0).trans hen
  rw [hnext, State.makeDue_none (s := { s with tb := tb }) hp]
  unfold State.passTick
  rw [show ({ s with tb := tb } : State).cd.whisk = s.cd.whisk from rfl, hbit, if_neg Bool.false_ne_true,
    State.setWhisk_whisk, State.setWhisk_whisk]
  exact ⟨rfl, (State.setCd_out _ _).trans (State.setCd_out _ _)⟩

/-- A tick, evaluated or not, advances the next tick by one, makes exactly the due decisions, and takes no new one within 64
ticks of the last (R150, R163, R173). -/
theorem whiskNext_spec (hs : s.sound) : s.whiskNext.err = s.err ∧ s.whiskNext.cd.whisk.next = s.cd.whisk.next + 1 ∧
    s.whiskNext.cd.whisk.on = true ∧
    s.whiskNext.cd.whisk.decs.length = s.cd.whisk.decs.length + (s.cd.whisk.due s.cd.whisk.next).length ∧
    ∀ d, s.cd.whisk.lastDec = some d → s.cd.whisk.next < d + 64 →
      s.whiskNext.cd.whisk.pend = s.cd.whisk.waiting s.cd.whisk.next := by
  obtain ⟨tb, hnext⟩ := State.whiskNext_eval hon hl
  obtain ⟨ds, hlen, hw, he⟩ := ({ s with tb := tb } : State).makeDue_spec s.cd.whisk.next
  generalize ({ s with tb := tb } : State).makeDue s.cd.whisk.next = u at hnext hw he
  have hsound : u.sound := by
    unfold State.sound
    rw [he]
    exact hs
  obtain ⟨hp, hbusy⟩ := State.passTick_spec hsound s.cd.whisk.next
  rw [← hnext, he, hw] at hp
  unfold State.paced Whisk.pace at hp
  rw [← hnext, hw] at hbusy
  simp only [Prod.mk.injEq] at hp
  obtain ⟨herr, hon', htick, hdecs⟩ := hp
  refine ⟨herr, htick, hon'.trans hon, ?_, hbusy⟩
  rw [hdecs, List.length_append, hlen]
  rfl

end

theorem exec_whiskTickEvaluate {s : State} (h : s.whiskNext.err.crit = none) :
    exec .whiskTickEvaluate s = .next s.whiskNext :=
  congrArg Host.Outcome.next (State.settleCrit_none h)

/-! ### Release -/

/-- A SOLO or HEAD that has evaluated a tick sends the release through what is decided (R165). -/
theorem releaseThroughSend_sends {s : State} (hr : s.role ≠ .limb) (hon : s.cd.whisk.on = true)
    (hen : s.bit Reg.TRG_CTRL 0 = true) (hst : s.cd.whisk.start < s.cd.whisk.next) :
    ∃ t, exec .releaseThroughSend s = .next t ∧ t.out = s.out ++ [.release s.cd.gen s.releaseX] ∧
      t.cd.whisk = { s.cd.whisk with sentThrough := some (s.cd.whisk.next - 1) } := by
  have hgo : ¬(s.role = .limb ∨ (!s.cd.whisk.on) = true ∨ (!s.bit Reg.TRG_CTRL 0) = true ∨
      s.cd.whisk.next ≤ s.cd.whisk.start) := by
    simp [hr, hon, hen, hst]
  refine ⟨_, congrArg Host.Outcome.next (if_neg hgo), ?_, ?_⟩
  · exact congrArg (· ++ [Out.release s.cd.gen s.releaseX]) (s.setCd_out _)
  · exact s.setWhisk_whisk _

/-! ### The statement -/

/-- Settles O32: the arrival by whether the primitive is late; the evaluation as the due decisions, then the tick itself. -/
theorem primitivesAndTicksDriveTheWhisk : Obligations.PrimitivesAndTicksDriveTheWhisk := by
  unfold Obligations.PrimitivesAndTicksDriveTheWhisk
  refine ⟨fun p rest s => primitiveArrival_spec, fun s hon hl hs => ?_, fun s => releaseThroughSend_sends⟩
  obtain ⟨herr, hnext, hon', hdecs, hbusy⟩ := whiskNext_spec hon hl hs
  exact ⟨s.whiskNext, exec_whiskTickEvaluate (herr ▸ hs.2.2), hnext, hon', whiskNext_disabled hon hl, hdecs, hbusy⟩

end Sys2Proof.Machine
end

section
/-! O33: a HEAD originates ring frames and takes them back, a LIMB receives and forwards them (R168 to R175). -/

namespace Sys2Proof.Machine

/-! ### Slots -/

theorem slotOf_eq_bits (f : BitVec 128) (i : Nat) : slotOf f i = BitVec.ofNat 16 (bits f (16 * i + 15) (16 * i)) := by
  apply BitVec.eq_of_toNat_eq
  unfold slotOf bits
  rw [BitVec.extractLsb'_toNat, BitVec.toNat_ofNat, show 16 * i + 15 + 1 - 16 * i = 16 by omega, Nat.mod_mod]

/-- A slot holds the token put into it. -/
theorem slotOf_setSlot_self (f : BitVec 128) {i : Nat} (hi : i < 8) (t : BitVec 16) : slotOf (setSlot f i t) i = t := by
  unfold setSlot
  rw [slotOf_eq_bits, bits_putBits f (by omega) (by omega), show 16 * i + 15 + 1 - 16 * i = 16 by omega,
    Nat.mod_eq_of_lt t.isLt, BitVec.ofNat_toNat, BitVec.setWidth_eq]

/-- The slots above it stand. -/
theorem slotOf_setSlot_above (f : BitVec 128) {i j : Nat} (hi : i < 8) (hj : i < j) (t : BitVec 16) :
    slotOf (setSlot f i t) j = slotOf f j := by
  unfold setSlot
  rw [slotOf_eq_bits, bits_putBits_above f (by omega) (by omega) (by omega), ← slotOf_eq_bits]

/-! ### The frame that a HEAD originates -/

/-- Outside token mode slot 0 is empty. -/
theorem State.headToken_idle {s : State} (h : s.tokenMode = false) (t : Nat) : s.headToken t = (0, s) := by
  unfold State.headToken
  rw [h]
  rfl

/-- Without an offer of a KEEP slot 0 holds the release through (R170, R174). -/
theorem State.headToken_release {s : State} (h : s.tokenMode = true) (ht : s.ring.task = none) (hk : s.ring.pendKeep = [])
    (t : Nat) : (s.headToken t).1 = BitVec.ofNat 16 (0x8000 + s.releaseX % 16384) := by
  unfold State.headToken State.offerToken
  rw [h, ht, hk]
  rfl

/-- The one KEEP that the active CD offers goes first, and is offered no longer (R174). -/
theorem State.headToken_keep {s : State} {d : Nat} (h : s.tokenMode = true) (ht : s.ring.task = none)
    (hk : s.ring.pendKeep = [(s.rd.activeB, d)]) (t : Nat) :
    s.headToken t = (BitVec.ofNat 16 (0x4000 + d % 16384), { s with ring := { s.ring with pendKeep := [] } }) := by
  have hheard : [(s.rd.activeB, d)].filter (fun k => s.heard k.1) = [(s.rd.activeB, d)] :=
    List.filter_eq_self.2 (by simp [State.heard])
  unfold State.headToken State.offerToken
  rw [h, ht, hk]
  dsimp only
  rw [hheard]
  rfl

/-- The loop task marks 64 frames with their numbers (R176). -/
theorem State.headToken_mark {s : State} {n : Nat} {rs : List (Nat × Nat)} (h : s.tokenMode = true)
    (ht : s.ring.task = some (n, rs)) (hn : n < 64) (t : Nat) : s.headToken t =
      (BitVec.ofNat 16 (0xC000 + t % 16384), { s with ring := { s.ring with task := some (n + 1, rs) } }) := by
  unfold State.headToken
  rw [h, ht]
  exact if_pos hn

/-- The frames on the ring, and what leaves the module. -/
def State.afloat (s : State) : List (Nat × BitVec 16 × Bool) × List Out := (s.ring.sent, s.out)

theorem State.offerToken_afloat (s : State) : s.offerToken.2.afloat = s.afloat := by
  unfold State.offerToken
  dsimp only
  split <;> rfl

theorem State.headToken_afloat (s : State) (t : Nat) : (s.headToken t).2.afloat = s.afloat := by
  unfold State.headToken
  split
  · rfl
  · split
    · split
      · rfl
      · exact s.offerToken_afloat
    · exact s.offerToken_afloat

/-- Is the frame that begins now a training frame: in a ring check, and outside token mode one of 64 (R169). -/
def State.trainDue (s : State) : Bool := s.ringChecking || (!s.tokenMode && s.tb.tn / 8 % 64 == 0)

/-- The slot 0 token of the frame that begins now, and what offering it leaves. -/
def State.tokenNow (s : State) : BitVec 16 × State := s.headToken (8 * (s.tb.tn / 8))

/-- The frame that begins now. -/
def State.frameNow (s : State) : BitVec 128 := if s.trainDue then trainingFrame else setSlot 0 0 s.tokenNow.1

/-- What is left of the offers once it has been made up. -/
def State.offersAfter (s : State) : State := if s.trainDue then s else s.tokenNow.2

/-- A HEAD sends the frame and remembers its number, token and kind (R168). -/
def State.originated (s : State) : State :=
  { s.offersAfter with
    ring := { s.offersAfter.ring with
      sent := s.offersAfter.ring.sent ++ [(s.tb.tn / 8, slotOf s.frameNow 0, s.trainDue)] },
    out := s.offersAfter.out ++ [.ring s.frameNow] }

theorem State.offersAfter_afloat (s : State) : s.offersAfter.afloat = s.afloat :=
  ite_keeps State.afloat _ rfl (s.headToken_afloat _)

theorem State.originated_out (s : State) : s.originated.out = s.out ++ [.ring s.frameNow] :=
  congrArg (· ++ [Out.ring s.frameNow]) (congrArg Prod.snd s.offersAfter_afloat)

theorem State.originated_sent (s : State) :
    s.originated.ring.sent = s.ring.sent ++ [(s.tb.tn / 8, slotOf s.frameNow 0, s.trainDue)] :=
  congrArg (· ++ [(s.tb.tn / 8, slotOf s.frameNow 0, s.trainDue)]) (congrArg Prod.fst s.offersAfter_afloat)

/-- A frame that is no training frame carries its token in slot 0. -/
theorem State.slotOf_frameNow_zero {s : State} (h : s.trainDue = false) : slotOf s.frameNow 0 = s.tokenNow.1 := by
  unfold State.frameNow
  rw [h, if_neg Bool.false_ne_true]
  exact slotOf_setSlot_self 0 (by decide) _

/-- Its other slots are empty. -/
theorem State.slotOf_frameNow_above {s : State} (h : s.trainDue = false) {i : Nat} (hi : 1 ≤ i) :
    slotOf s.frameNow i = 0 := by
  unfold State.frameNow
  rw [h, if_neg Bool.false_ne_true, slotOf_setSlot_above 0 (by decide) hi]
  exact BitVec.extractLsb'_zero

/-- A training frame leaves the offers (R169). -/
theorem State.originated_training {s : State} (h : s.trainDue = true) :
    s.frameNow = trainingFrame ∧ s.originated.ring.task = s.ring.task := by
  have hoff : s.offersAfter = s := if_pos h
  have htask : s.originated.ring.task = s.offersAfter.ring.task := rfl
  exact ⟨if_pos h, htask.trans (by rw [hoff])⟩

/-- Another one leaves what offering its token leaves. -/
theorem State.originated_token {s u : State} {tok : BitVec 16} (h : s.trainDue = false) (ht : s.tokenNow = (tok, u)) :
    slotOf s.frameNow 0 = tok ∧ s.originated.ring.pendKeep = u.ring.pendKeep ∧
      s.originated.ring.task = u.ring.task := by
  have hoff : s.offersAfter = u := (if_neg (by rw [h]; exact Bool.false_ne_true)).trans (congrArg Prod.snd ht)
  have hpend : s.originated.ring.pendKeep = s.offersAfter.ring.pendKeep := rfl
  have htask : s.originated.ring.task = s.offersAfter.ring.task := rfl
  exact ⟨(State.slotOf_frameNow_zero h).trans (congrArg Prod.fst ht), hpend.trans (by rw [hoff]),
    htask.trans (by rw [hoff])⟩

theorem State.advanceTo_role (s : State) (n : Nat) : (s.advanceTo n).role = s.role := by
  unfold State.role State.fld
  rw [State.reg_congr (s.advanceTo_regs n) (congrArg Rd.activeB (s.advanceTo_rd n))]

theorem State.advanceTo_aclkRuns (s : State) (n : Nat) : (s.advanceTo n).aclkRuns = s.aclkRuns := by
  unfold State.aclkRuns
  rw [State.advanceTo_hk]

theorem exec_ringFrameOriginate {now : Nat} {s : State} (hr : s.role = .head) (ha : s.aclkRuns = true) :
    exec (.ringFrameOriginate now) s = .next (s.advanceTo now).originated := by
  have hgo : ¬((s.advanceTo now).role ≠ .head ∨ (!(s.advanceTo now).aclkRuns) = true) := by
    rw [State.advanceTo_role, State.advanceTo_aclkRuns, hr, ha]
    decide
  show execRingFrameOriginate now s = _
  unfold execRingFrameOriginate
  dsimp only
  rw [if_neg hgo]
  unfold State.originated State.offersAfter State.frameNow
  rfl

/-! ### Frames that come in -/

/-- What the checks of a frame leave of the ring: the frame held to be forwarded, the frames on the ring, and the loop time. -/
def State.wire (s : State) : Option (BitVec 128 × Nat) × List (Nat × BitVec 16 × Bool) × Nat :=
  (s.ring.rx, s.ring.sent, s.ring.loop)

/-- The same with the registers. -/
def State.turned (s : State) :
    (Option (BitVec 128 × Nat) × List (Nat × BitVec 16 × Bool) × Nat) × Sparse W32 × Rd := (s.wire, s.regs, s.rd)

theorem rx_of_wire {s t : State} (h : t.wire = s.wire) : t.ring.rx = s.ring.rx := congrArg Prod.fst h
theorem sent_of_wire {s t : State} (h : t.wire = s.wire) : t.ring.sent = s.ring.sent := congrArg (fun w => w.2.1) h
theorem loop_of_wire {s t : State} (h : t.wire = s.wire) : t.ring.loop = s.ring.loop := congrArg (fun w => w.2.2) h
theorem wire_of_turned {s t : State} (h : t.turned = s.turned) : t.wire = s.wire := congrArg Prod.fst h
theorem regs_of_turned {s t : State} (h : t.turned = s.turned) : t.regs = s.regs := congrArg (fun v => v.2.1) h
theorem rd_of_turned {s t : State} (h : t.turned = s.turned) : t.rd = s.rd := congrArg (fun v => v.2.2) h

section
variable (s : State)

theorem State.setCd_turned (c : Cd) : (s.setCd c).turned = s.turned := ite_keeps State.turned _ rfl rfl

theorem State.eventIf_turned (c : Bool) (a : Nat) (bs : List Nat) : (s.eventIf c a bs).turned = s.turned :=
  ite_keeps State.turned _ rfl rfl

theorem State.ringFails_turned (align : Bool) : (s.ringFails align).turned = s.turned := by
  unfold State.ringFails
  dsimp only
  rw [State.eventIf_turned]
  exact ite_keeps State.turned _ rfl rfl

theorem State.trainSeen_turned (ok : Bool) : (s.trainSeen ok).turned = s.turned :=
  ite_keeps State.turned _ (ite_keeps State.turned _ rfl rfl)
    (ite_keeps State.turned _ ((State.ringFails_turned _ true).trans rfl) rfl)

theorem State.patternSeen_turned (train : Bool) (f : BitVec 128) (skew : Bool) :
    (s.patternSeen train f skew).turned = s.turned :=
  ite_keeps State.turned _ (s.trainSeen_turned _) (ite_keeps State.turned _ (s.trainSeen_turned _) rfl)

theorem State.ringCheckFrame_turned (ok : Bool) : (s.ringCheckFrame ok).turned = s.turned :=
  ite_keeps State.turned _ rfl (ite_keeps State.turned _ ((State.ringFails_turned _ false).trans rfl) rfl)

theorem State.loopResults_turned (f : BitVec 128) (x : Nat) : (s.loopResults f x).turned = s.turned := by
  unfold State.loopResults
  split <;> rfl

theorem State.busToken_turned (x slot : Nat) (tok : BitVec 16) : (s.busToken x slot tok).turned = s.turned :=
  ite_keeps State.turned _ rfl (s.setCd_turned _)

theorem State.limbKeep_wire (t : Nat) : (s.limbKeep t).wire = s.wire := by
  unfold State.limbKeep
  extract_lets p a closed b w s1 ring s2 s3
  have h1 : s1.ring = s.ring := s.setCd_ring _
  have h3 : s3.wire = s.wire := by
    show (s1.ring.rx, s1.ring.sent, s1.ring.loop) = _
    rw [h1]
    rfl
  refine ite_keeps State.wire _ (Eq.trans ?_ h3) h3
  unfold State.wire State.lossOldest State.lossOldestC
  rw [State.event_ring, State.count_ring, State.errLossC_ring, State.setCd_ring]

theorem State.limbToken_wire (tok : BitVec 16) : (s.limbToken tok).wire = s.wire := by
  unfold State.limbToken
  extract_lets ty lag ok s1 t
  have h1 : s1.wire = s.wire := wire_of_turned (s.ringCheckFrame_turned _)
  exact ite_keeps State.wire _ h1 (ite_keeps State.wire _ ((s1.limbKeep_wire t).trans h1) (ite_keeps State.wire _ h1 h1))

end

/-! ### Alignment -/

/-- The sixteenth agreeing training frame in a row aligns a receiver and clears its fault (R169). -/
theorem State.trainSeen_aligns {s : State} (h : 15 ≤ s.ring.agree) :
    (s.trainSeen true).ring.aligned = true ∧ (s.trainSeen true).ring.alignFault = false := by
  have hs : s.trainSeen true =
      { s with ring := { s.ring with agree := 16, disagree := 0, aligned := true, alignFault := false } } :=
    if_pos (Nat.succ_le_succ h)
  rw [hs]
  exact ⟨rfl, rfl⟩

/-- The third that disagrees takes the alignment, with a fault (R169, R175). -/
theorem State.trainSeen_loses {s : State} (ha : s.ring.aligned = true) (h : 2 ≤ s.ring.disagree) :
    (s.trainSeen false).ring.aligned = false ∧ (s.trainSeen false).ring.alignFault = true ∧
      (s.trainSeen false).ring.agree = 0 := by
  have hs : (s.trainSeen false).ring =
      { s.ring with agree := 0, disagree := s.ring.disagree + 1, aligned := false, alignFault := true } := by
    unfold State.trainSeen
    dsimp only
    rw [if_neg Bool.false_ne_true, if_pos ⟨ha, Nat.succ_le_succ h⟩]
    exact State.eventIf_ring _ _ _ _
  rw [hs]
  exact ⟨rfl, rfl, rfl⟩

theorem State.trainingIn_of_isTraining {f : BitVec 128} (h : isTraining f = true) (s : State) : s.trainingIn f = true := by
  unfold State.trainingIn
  rw [h, Bool.true_or]

theorem looksTraining_of_isTraining {f : BitVec 128} (h : isTraining f = true) : looksTraining f = true :=
  (Bool.and_eq_true_iff.1 h).1

/-- A LIMB that holds a frame received now. -/
def State.received (s : State) (frame : BitVec 128) : State := { s with ring := { s.ring with rx := some (frame, s.tb.tn) } }

/-- A LIMB holds the frame, checks its pattern, and acts on the token of one that is no training frame (R168, R169). -/
theorem exec_ringFrameReceive {s : State} (hr : s.role = .limb) (ha : s.aclkRuns = true) (frame : BitVec 128) (skew : Bool)
    (now : Nat) : exec (.ringFrameReceive frame skew now) s = .next (if (s.advanceTo now).trainingIn frame
      then ((s.advanceTo now).received frame).trainSeen (trainingOk frame skew)
      else (((s.advanceTo now).received frame).patternSeen false frame skew).limbToken (slotOf frame 0)) := by
  have hgo : ¬((s.advanceTo now).role ≠ .limb ∨ (!(s.advanceTo now).aclkRuns) = true) := by
    rw [State.advanceTo_role, State.advanceTo_aclkRuns, hr, ha]
    decide
  show execRingFrameReceive frame skew now s = _
  unfold execRingFrameReceive
  dsimp only
  rw [if_neg hgo]
  cases (s.advanceTo now).trainingIn frame <;> rfl

theorem ringFrameReceive_spec {s : State} (hr : s.role = .limb) (ha : s.aclkRuns = true) (frame : BitVec 128) (skew : Bool)
    (now : Nat) : ∃ t, exec (.ringFrameReceive frame skew now) s = .next t ∧
      t.ring.rx = some (frame, (s.advanceTo now).tb.tn) ∧
      (isTraining frame = true → pairsRight frame = true → skew = false → 15 ≤ s.ring.agree →
        t.ring.aligned = true ∧ t.ring.alignFault = false) ∧
      (s.ring.aligned = true → (s.advanceTo now).trainingIn frame = true →
        looksTraining frame = false ∨ pairsRight frame = false ∨ skew = true → 2 ≤ s.ring.disagree →
        t.ring.aligned = false ∧ t.ring.alignFault = true ∧ t.ring.agree = 0) := by
  have hring : ((s.advanceTo now).received frame).ring = { s.ring with rx := some (frame, (s.advanceTo now).tb.tn) } :=
    congrArg (fun r : Ring => { r with rx := some (frame, (s.advanceTo now).tb.tn) }) (s.advanceTo_ring now)
  refine ⟨_, exec_ringFrameReceive hr ha frame skew now, rx_of_wire (s := (s.advanceTo now).received frame) ?_,
    fun htr hp hsk hag => ?_, fun hal htr hbad hdis => ?_⟩
  · exact ite_keeps State.wire _ (wire_of_turned (State.trainSeen_turned _ _))
      ((State.limbToken_wire _ _).trans (wire_of_turned (State.patternSeen_turned _ _ _ _)))
  · have hok : trainingOk frame skew = true := by
      unfold trainingOk
      rw [looksTraining_of_isTraining htr, hp, hsk]
      rfl
    rw [if_pos (State.trainingIn_of_isTraining htr _), hok]
    exact State.trainSeen_aligns (hring ▸ hag)
  · have hok : trainingOk frame skew = false := by
      unfold trainingOk
      rcases hbad with h | h | h <;> simp [h]
    rw [if_pos htr, hok]
    exact State.trainSeen_loses (hring ▸ hal) (hring ▸ hdis)

/-- The frame goes on four ticks later, with the module's own slot filled where it carries tokens (R168, R169). -/
theorem ringFrameForward_forwards {f : BitVec 128} {n : Nat} {s : State} (h : s.ring.rx = some (f, n)) :
    ∃ t, exec .ringFrameForward s = .next t ∧ t.ring.rx = none ∧ t.out = s.out ++ [.ring (if s.trainingIn f then f
      else setSlot f s.source ((s.advanceTo (n + 4)).limbSlot f n))] := by
  have htrain : (s.advanceTo (n + 4)).trainingIn f = s.trainingIn f := by
    unfold State.trainingIn State.tokenMode
    rw [State.advanceTo_hk]
  have hsrc : (s.advanceTo (n + 4)).source = s.source :=
    State.source_congr (s.advanceTo_regs _) (congrArg Rd.activeB (s.advanceTo_rd _))
  have hexec : exec .ringFrameForward s = .next { s.advanceTo (n + 4) with
      ring := { (s.advanceTo (n + 4)).ring with rx := none },
      out := (s.advanceTo (n + 4)).out ++ [.ring (if (s.advanceTo (n + 4)).trainingIn f then f
        else setSlot f (s.advanceTo (n + 4)).source ((s.advanceTo (n + 4)).limbSlot f n))] } := by
    show execRingFrameForward s = _
    unfold execRingFrameForward
    rw [h]
  refine ⟨_, hexec, rfl, ?_⟩
  rw [htrain, hsrc, State.advanceTo_out]

/-! ### Return -/

/-- A HEAD that has taken a frame back from the ring, with its loop time (R172). -/
def State.returned (s : State) (x : Nat) (rest : List (Nat × BitVec 16 × Bool)) : State :=
  { s with ring := { s.ring with sent := rest, loop := s.tb.tn - 8 * x } }

/-- It has counted an error where slot 0 is not the token sent (R175). -/
def State.tokenBack (s : State) (same : Bool) : State := if same then s else s.count Reg.TRG_RING_ERR_CNT 1

/-- It has checked token and pattern besides. -/
def State.frameChecked (s : State) (same train : Bool) (frame : BitVec 128) (skew : Bool) : State :=
  ((s.tokenBack same).ringCheckFrame same).patternSeen train frame skew

theorem State.frameChecked_turned (s : State) (same train : Bool) (frame : BitVec 128) (skew : Bool) :
    (s.frameChecked same train frame skew).turned = (s.tokenBack same).turned :=
  (State.patternSeen_turned _ _ _ _).trans (State.ringCheckFrame_turned _ _)

section
variable {s : State} {x : Nat} {tok : BitVec 16} {train : Bool} {rest : List (Nat × BitVec 16 × Bool)}
  (hr : s.role = .head) (hs : s.ring.sent = (x, tok, train) :: rest)
include hr hs

/-- A returned frame is checked; then its loop results or summary tokens are taken, if it carries any (R172, R175, R176). -/
theorem exec_ringFrameReturn (frame : BitVec 128) (skew : Bool) (now : Nat) :
    ∃ u, ((s.advanceTo now).returned x rest).frameChecked (slotOf frame 0 == tok) (train || isTraining frame) frame
        skew = u ∧
      exec (.ringFrameReturn frame skew now) s = .next (if train || isTraining frame then u
        else if bits tok 15 14 = 3 then u.loopResults frame x
        else u.ringSlots.foldl (fun t i => t.busToken x i (slotOf frame i)) u) := by
  have hsent : (s.advanceTo now).ring.sent = (x, tok, train) :: rest := by rw [State.advanceTo_ring, hs]
  have hrole : ¬(s.advanceTo now).role ≠ .head := by
    rw [State.advanceTo_role, hr]
    decide
  refine ⟨_, rfl, ?_⟩
  show execRingFrameReturn frame skew now s = _
  unfold execRingFrameReturn
  dsimp only
  rw [hsent]
  dsimp only
  rw [if_neg hrole]
  rfl

/-- A frame that returns to the HEAD (R172, R175). -/
theorem ringFrameReturn_spec (frame : BitVec 128) (skew : Bool) (now : Nat) :
    ∃ t, exec (.ringFrameReturn frame skew now) s = .next t ∧ t.ring.sent = rest ∧
      t.ring.loop = (s.advanceTo now).tb.tn - 8 * x ∧
      (slotOf frame 0 ≠ tok → s.counts t Reg.TRG_RING_ERR_CNT 1) := by
  obtain ⟨u, hu, hexec⟩ := exec_ringFrameReturn hr hs frame skew now
  generalize ht : (if train || isTraining frame then u else _ : State) = t at hexec
  have hturned : t.turned = (((s.advanceTo now).returned x rest).tokenBack (slotOf frame 0 == tok)).turned := by
    rw [← State.frameChecked_turned, hu, ← ht]
    exact ite_keeps State.turned _ rfl (ite_keeps State.turned _ (u.loopResults_turned frame x)
      (foldl_keeps State.turned (fun t i => t.busToken_turned x i (slotOf frame i)) u.ringSlots u))
  have hwire : t.wire = ((s.advanceTo now).returned x rest).wire := (wire_of_turned hturned).trans
    (ite_keeps State.wire _ rfl (congrArg (fun r : Ring => (r.rx, r.sent, r.loop)) (State.count_ring _ _ _)))
  refine ⟨t, hexec, sent_of_wire hwire, loop_of_wire hwire, fun hne => ?_⟩
  have hback : ((s.advanceTo now).returned x rest).reg Reg.TRG_RING_ERR_CNT = s.reg Reg.TRG_RING_ERR_CNT :=
    State.reg_congr (s.advanceTo_regs now) (congrArg Rd.activeB (s.advanceTo_rd now)) _
  unfold State.tokenBack at hturned
  rw [if_neg (by simpa using hne)] at hturned
  exact (State.counts_count hback 1).congr
    (State.reg_congr (regs_of_turned hturned) (congrArg Rd.activeB (rd_of_turned hturned)) _)

end

end Sys2Proof.Machine
end

section
/-! O33: the loop task of a HEAD (R176), and the statement. -/

namespace Sys2Proof

/-- Keys written once each, every one from what it held: a key of the list reads as its new value, the others as before. -/
theorem Sparse.get_foldl_put {α : Type} [DecidableEq α] (d : α) (f : Nat → α → α) {l : List Nat} (hl : l.Nodup)
    (m : Sparse α) (j : Nat) : get d (l.foldl (fun m i => put d i (f i (get d m i)) m) m) j =
      if j ∈ l then f j (get d m j) else get d m j := by
  induction l generalizing m with
  | nil => rfl
  | cons i l ih =>
    obtain ⟨hi, hl⟩ := List.nodup_cons.1 hl
    rw [List.foldl_cons, ih hl, get_put]
    by_cases hj : j = i
    · subst hj
      simp [hi]
    · simp [hj]

end Sys2Proof

namespace Sys2Proof.Machine

/-! ### Its start -/

/-- A module whose loop task has just begun. -/
def State.loopBegun (s : State) : State := { s with ring := { s.ring with task := some (0, []) } }

theorem State.loopBegun_ring (s : State) : s.loopBegun.ring = { s.ring with task := some (0, []) } := rfl

theorem State.loopBegun_asks (s : State) : s.loopBegun.asks = s.asks := rfl

/-- GO in CALIB at a HEAD without a loop task begins one (R176). -/
theorem State.loopWrite_go {s : State} (ha : s.allows .writeCfg = true) (hr : s.role = .head) (hm : s.hk.mode = .calib)
    (ht : s.hk.target = none) (hn : s.ring.task = none) : s.loopWrite 1 0xF = .done s.loopBegun := by
  have hgo : bitOf (mergeBE 0 1 0xF) 0 = true := by
    rw [mergeBE_all]
    rfl
  unfold State.loopWrite
  rw [if_pos hgo, if_neg (by simp [ha, hr, hm, ht]), hn]
  rfl

theorem loopTask_begins {lane : Lane} {s : State} (hs : s.serves lane Reg.TRG_LOOP_CMD = true)
    (ha : s.allows .writeCfg = true) (hr : s.role = .head) (hm : s.hk.mode = .calib) (ht : s.hk.target = none)
    (hn : s.ring.task = none) : ∃ t, exec (.loopTask lane) s = .next t ∧ s.replied t lane Reg.TRG_LOOP_CMD Stat.ok 0 ∧
      t.ring = { s.ring with task := some (0, []) } := by
  have hring : (s.got lane).ring = s.ring := State.countLane_ring _ _ _ _
  have hact : (s.got lane).loopWrite 1 0xF = .done (s.got lane).loopBegun :=
    State.loopWrite_go ((s.allows_got lane _).trans ha) ((s.role_got lane).trans hr) (by rw [State.hk_got, hm])
      (by rw [State.hk_got, ht]) (by rw [hring, hn])
  refine ⟨_, congrArg Host.Outcome.next (State.accessW_done (be := 0xF) hs (by decide) hact), ?_, ?_⟩
  · have hasks : (s.got lane).loopBegun.asks = s.asks := (State.loopBegun_asks _).trans (s.asks_got lane)
    exact State.replied_finish (asks_resp hasks) (asks_e hasks lane) _ _ _
  · rw [State.finish_ring, State.loopBegun_ring, hring]

/-! ### Its end -/

/-- A hop entry after the loop task: the result of its slot, or not VALID (R172, R176). -/
def hopAfter (rs : List (Nat × Nat)) (i : Nat) (e : W64) : W64 :=
  match loopResult i rs with
  | some v => rec64 [(1, 1), (0, 19), (v, 12)]
  | none => putBits e 31 31 0

theorem hopAfter_some {rs : List (Nat × Nat)} {i v : Nat} (h : loopResult i rs = some v) (e : W64) :
    hopAfter rs i e = rec64 [(1, 1), (0, 19), (v, 12)] := by
  unfold hopAfter
  rw [h]

/-- Without 64 agreeing results VALID is clear. -/
theorem hopAfter_none {rs : List (Nat × Nat)} {i : Nat} (h : loopResult i rs = none) (e : W64) :
    bitOf (hopAfter rs i e) 31 = false := by
  unfold hopAfter
  rw [h]
  dsimp only
  rw [bitOf_eq_bits, bits_putBits e (by decide) (by decide)]
  rfl

/-- The hop table once the loop task is over, and no task. -/
def State.loopEnded (s : State) (rs : List (Nat × Nat)) : State :=
  { s with
    cal := { s.cal with
      hop := (List.range 8).foldl (fun m i => Sparse.put 0 i (hopAfter rs i (Sparse.get 0 m i)) m) s.cal.hop },
    ring := { s.ring with task := none } }

theorem State.loopEnded_hop (s : State) (rs : List (Nat × Nat)) {i : Nat} (hi : i < 8) :
    Sparse.get 0 (s.loopEnded rs).cal.hop i = hopAfter rs i (Sparse.get 0 s.cal.hop i) :=
  (Sparse.get_foldl_put 0 (hopAfter rs) List.nodup_range s.cal.hop i).trans (if_pos (List.mem_range.2 hi))

/-- Has a slot that the ring needs no result: the HEAD's own or a configured source (log entry 20). -/
def State.loopFails (s : State) (rs : List (Nat × Nat)) : Bool :=
  (0 :: s.configured).any (fun i => (loopResult i rs).isNone)

theorem State.loopFails_iff (s : State) (rs : List (Nat × Nat)) :
    s.loopFails rs = true ↔ ∃ i, i ∈ 0 :: s.configured ∧ loopResult i rs = none := by
  unfold State.loopFails
  simp only [List.any_eq_true, Option.isNone_iff_eq_none]

/-- The loop task ends with LOOP_FAIL, or with the ring fault cleared (R175, R176). -/
theorem exec_loopTaskDone {n : Nat} {rs : List (Nat × Nat)} {s : State} (h : s.ring.task = some (n, rs)) :
    exec .loopTaskDone s = .next (if s.loopFails rs then (s.loopEnded rs).event Reg.TRG_EVT [4]
      else { s.loopEnded rs with ring := { (s.loopEnded rs).ring with fault := false, bad := 0 } }) := by
  show execLoopTaskDone s = _
  unfold execLoopTaskDone
  rw [h]
  rfl

theorem loopTaskDone_spec {n : Nat} {rs : List (Nat × Nat)} {s : State} (h : s.ring.task = some (n, rs)) :
    ∃ t, exec .loopTaskDone s = .next t ∧ t.ring.task = none ∧
      (∀ i v, i < 8 → loopResult i rs = some v → Sparse.get 0 t.cal.hop i = rec64 [(1, 1), (0, 19), (v, 12)]) ∧
      (∀ i, i < 8 → loopResult i rs = none → bitOf (Sparse.get 0 t.cal.hop i) 31 = false) ∧
      ((∀ i, i ∈ 0 :: s.configured → loopResult i rs ≠ none) → t.ring.fault = false) ∧
      ((∃ i, i ∈ 0 :: s.configured ∧ loopResult i rs = none) → t.shows Reg.TRG_EVT 4) := by
  refine ⟨_, exec_loopTaskDone h, ?_⟩
  generalize ht : (if s.loopFails rs then _ else _ : State) = t
  have hhop : ∀ i, i < 8 → Sparse.get 0 t.cal.hop i = hopAfter rs i (Sparse.get 0 s.cal.hop i) := fun i hi => by
    rw [← s.loopEnded_hop rs hi, ← ht]
    exact congrArg (fun c : Cal => Sparse.get 0 c.hop i) (ite_keeps State.cal _ (State.event_cal _ _ _) rfl)
  refine ⟨?_, fun i v hi hv => (hhop i hi).trans (hopAfter_some hv _), fun i hi hv => ?_, fun hall => ?_, fun hex => ?_⟩
  · rw [← ht]
    exact ite_keeps (fun u : State => u.ring.task) _ rfl rfl
  · rw [hhop i hi]
    exact hopAfter_none hv _
  · have hok : ¬s.loopFails rs = true := fun hf =>
      have ⟨i, hi, hv⟩ := (s.loopFails_iff rs).1 hf
      hall i hi hv
    rw [← ht, if_neg hok]
  · rw [← ht, if_pos ((s.loopFails_iff rs).2 hex)]
    exact State.shows_event _ _ (by decide)

/-! ### The statement -/

/-- Settles O33: one lemma for each command; the frame that a HEAD originates by what its slot 0 holds. -/
theorem ringFramesCircleAndLoopsAreTimed : Obligations.RingFramesCircleAndLoopsAreTimed := by
  unfold Obligations.RingFramesCircleAndLoopsAreTimed
  refine ⟨fun now s u hr ha hu => ?_, fun frame skew now s hr ha => ringFrameReceive_spec hr ha frame skew now,
    fun f n s => ringFrameForward_forwards,
    fun frame skew now x tok train rest s hr hs => ringFrameReturn_spec hr hs frame skew now,
    fun lane s => loopTask_begins, fun n rs s => loopTaskDone_spec⟩
  subst hu
  have hring := s.advanceTo_ring now
  have hrd := s.advanceTo_rd now
  refine ⟨_, (s.advanceTo now).frameNow, exec_ringFrameOriginate hr ha, ?_, ?_, fun htr => ?_, fun htr =>
    ⟨fun i hi _ => ?_, fun hm => ?_, fun hm ht hk => ?_, fun d hm ht hk => ?_, fun n rs hm ht hn => ?_⟩⟩
  · rw [State.originated_out, State.advanceTo_out]
  · rw [State.originated_sent, hring]
    rfl
  · rw [← hring]
    exact State.originated_training htr
  · exact State.slotOf_frameNow_above htr hi
  · exact (State.originated_token htr (State.headToken_idle hm _)).1
  · exact (State.slotOf_frameNow_zero htr).trans (State.headToken_release hm (hring ▸ ht) (hring ▸ hk) _)
  · obtain ⟨hslot, hpend, -⟩ := State.originated_token htr
      (State.headToken_keep (d := d) hm (hring ▸ ht) (by rw [hring, hrd, hk]) _)
    exact ⟨hslot, hpend⟩
  · obtain ⟨hslot, -, htask⟩ := State.originated_token htr (State.headToken_mark hm (by rw [hring, ht]) hn _)
    exact ⟨hslot, htask⟩

end Sys2Proof.Machine
end

section
/-! O34, the Press: blocks taken, resumed, cut on idle, verified and released (R236, R237, R247, R248, R250). -/

namespace Sys2Proof.Machine

/-! ### Registers and the applied PRS_CFG -/

/-- A register stands through a write of another one, both named outside the CDs' own nibbles. -/
theorem State.reg_setReg_ne (s : State) {a b : Nat} (ha : a / 0x100000 ≠ 3 ∧ a / 0x100000 ≠ 4)
    (hb : b / 0x100000 ≠ 3 ∧ b / 0x100000 ≠ 4) (h : a ≠ b) (v : W32) : (s.setReg b v).reg a = s.reg a :=
  s.regAt_setRegAt_ne (fun hp => h (s.phys_inj ha hb hp)) v

/-- The same through a count of another one. -/
theorem State.reg_count_ne (s : State) {a b : Nat} (ha : a / 0x100000 ≠ 3 ∧ a / 0x100000 ≠ 4)
    (hb : b / 0x100000 ≠ 3 ∧ b / 0x100000 ≠ 4) (h : a ≠ b) (n : Nat) : (s.count b n).reg a = s.reg a :=
  s.reg_setReg_ne ha hb h _

/-- An applied value stands through a write of a register of the map. -/
theorem State.eff_setReg (s : State) {b : Nat} (hb : b < 0x1000000) (v : W32) (a : Nat) : (s.setReg b v).eff a = s.eff a :=
  s.regAt_setRegAt_ne (Ne.symm (s.phys_ne_instKey hb a 0)) v

theorem State.eff_count (s : State) {b : Nat} (hb : b < 0x1000000) (n a : Nat) : (s.count b n).eff a = s.eff a :=
  s.eff_setReg hb _ a

@[simp] theorem State.eff_event (s : State) (b : Nat) (bs : List Nat) (a : Nat) : (s.event b bs).eff a = s.eff a :=
  State.regAt_congr (s.event_regs b bs) _

theorem State.eff_setCd (s : State) (c : Cd) (a : Nat) : (s.setCd c).eff a = s.eff a := State.regAt_congr (s.setCd_regs c) _

theorem State.reg_setCd (s : State) (c : Cd) (a : Nat) : (s.setCd c).reg a = s.reg a :=
  State.reg_congr (s.setCd_regs c) (congrArg Rd.activeB (s.setCd_rd c)) a

@[simp] theorem State.cd_setReg (s : State) (a : Nat) (v : W32) : (s.setReg a v).cd = s.cd := rfl

/-! ### What a job is, whatever its engine has done -/

/-- Job `k` is job `j` after its engine has gone on: the same block of the same engine with the same space, which stops,
waits for verification or waits for release. -/
structure Job.GoesOnAs (j k : Job) : Prop where
  eng : k.eng = j.eng
  slice : k.slice = j.slice
  groups : k.groups = j.groups
  space : k.space = j.space
  verify : k.verify = j.verify
  st : k.st = 2 ∨ k.st = 3 ∨ k.st = 4

/-- A block that is RAW, stands alone or is forced RAW is copied: it stops or waits for release (R239). -/
theorem Job.go_raw {j : Job} {force : Bool} (h : (j.raw || j.alone || force) = true) :
    j.GoesOnAs (j.go force).1 ∧ (j.go force).1.raw = true ∧ ((j.go force).1.st = 2 ∨ (j.go force).1.st = 4) := by
  unfold Job.go
  extract_lets n asRaw r k
  rw [if_pos h]
  show j.GoesOnAs (if n ≤ j.space then _ else _ : Job × Bool).1 ∧ _
  unfold asRaw
  split
  · exact ⟨⟨rfl, rfl, rfl, rfl, rfl, Or.inr (Or.inr rfl)⟩, rfl, Or.inr rfl⟩
  · exact ⟨⟨rfl, rfl, rfl, rfl, rfl, Or.inl rfl⟩, rfl, Or.inl rfl⟩

/-- An engine that goes on keeps its block. -/
theorem Job.go_goesOn (j : Job) (force : Bool) : j.GoesOnAs (j.go force).1 := by
  by_cases h : (j.raw || j.alone || force) = true
  · exact (Job.go_raw h).1
  · unfold Job.go
    extract_lets n asRaw r k
    rw [if_neg h]
    split
    · exact ⟨rfl, rfl, rfl, rfl, rfl, Or.inl rfl⟩
    · split
      · unfold asRaw
        split
        · exact ⟨rfl, rfl, rfl, rfl, rfl, Or.inr (Or.inr rfl)⟩
        · exact ⟨rfl, rfl, rfl, rfl, rfl, Or.inl rfl⟩
      · exact ⟨rfl, rfl, rfl, rfl, rfl, Or.inr (Or.inl rfl)⟩

/-! ### Output space and held input -/

/-- Freeing held frames leaves the CDs. -/
theorem State.makeRoom_cd (f bytes : Nat) (s : State) : (State.makeRoom f bytes s).cd = s.cd := by
  induction f generalizing s with
  | zero => rfl
  | succ f ih =>
    unfold State.makeRoom
    split
    · rfl
    · exact ite_keeps State.cd _ rfl (ih _)

/-- A grant gives at most what was asked for, and leaves the CDs (R250). -/
theorem State.grantSpace_le (s : State) (want : Nat) : (s.grantSpace want).1 ≤ want := Nat.min_le_left _ _

theorem State.grantSpace_cd (s : State) (want : Nat) : (s.grantSpace want).2.cd = s.cd :=
  ite_keeps State.cd _ (State.makeRoom_cd _ _ s) rfl

@[simp] theorem State.stall_cd (s : State) : s.stall.cd = s.cd :=
  (State.cd_event _ _ _).trans (s.cd_count _ _)

/-- Where no word is in error an engine reads its held input and leaves nothing (R334). -/
theorem State.readInput_sound {s : State} (hb : s.err.bad = []) (hr : s.err.raw = []) (j : Job) :
    s.readInput j = (true, s) := by
  have hread : ∀ cause, s.readRange s.activeDie 0x25 (512 * j.eng) j.nrec cause = (true, s) := fun cause => by
    unfold State.readRange
    rw [hb, hr]
    rfl
  unfold State.readInput
  rw [hread]
  rfl

/-! ### BLOCK_CODE and PRESS_JOB_RESUME -/

/-- The job that takes the groups `g :: l` with so much output space (R236, R250). -/
def Cd.newJob (c : Cd) (g : LGroup) (l : List LGroup) (space : Nat) : Job :=
  { eng := c.nextEng, slice := g.slice, bidx := Sparse.get 0 c.bidx g.slice, first := g.first,
    last := ((g :: l).getLastD g).endFrame, alone := g.alone, verify := false, raw := false,
    groups := (g :: l).map LGroup.words, consumed := 0, ctx := .init, bits := [], space := space, st := 1, rank := g.rank }

/-- The state in which the Press has taken the groups `g :: l` as job `j`, which coding has brought to `k` (R236, R247). -/
def State.blockTaken (s : State) (g : LGroup) (l : List LGroup) (j k : Job) : State :=
  (s.cleanRange s.activeDie 0x25 (512 * s.cd.nextEng) j.nrec).setCd { s.cd with
    begun := if g.first || g.words.any isGapWord then ((g.slice, j.bidx) :: s.cd.begun).take 130 else s.cd.begun,
    ladle := s.cd.ladle.drop (g :: l).length, jobs := s.cd.jobs ++ [k], nextEng := (s.cd.nextEng + 1) % 8,
    bidx := (Sparse.put 0 g.slice (j.bidx + 1) s.cd.bidx).filter (fun e => decide (sdiff e.1 g.slice ≥ -(2 ^ 21 : Int))) }

/-- BLOCK_CODE with room in the Press and output space for header and DEP (R247). -/
theorem exec_blockCode {space : Nat} {g : LGroup} {l : List LGroup} {s u : State} {n : Nat}
    (hn : nextBlock s.cd.ladle = g :: l) (hu : s.grantSpace (space + 4) = (n, u))
    (hroom : u.cd.pressRoom ((g :: l).map (fun x => x.words.length)).sum = true) (hg : 4 ≤ n) :
    ∃ r, r = (u.cd.newJob g l (n - 4)).go u.forceRaw ∧ exec (.blockCode space) s = .next
      (if r.2 then (u.blockTaken g l (u.cd.newJob g l (n - 4)) r.1).stall
       else u.blockTaken g l (u.cd.newJob g l (n - 4)) r.1) := by
  refine ⟨_, rfl, ?_⟩
  show execBlockCode space s = _
  unfold execBlockCode
  rw [hn, hu]
  dsimp only
  rw [if_neg (by rw [hroom]; simp only [Bool.not_true, Bool.false_eq_true, false_or]; omega)]
  rfl

/-- BLOCK_CODE takes the groups of the next block to the next engine in turn (R236, R247, R250). -/
theorem blockCode_codes {space : Nat} {g : LGroup} {l : List LGroup} {s : State} (hn : nextBlock s.cd.ladle = g :: l)
    (hroom : s.cd.pressRoom ((g :: l).map (fun x => x.words.length)).sum = true)
    (hg : 4 ≤ (s.grantSpace (space + 4)).1) :
    ∃ t j, exec (.blockCode space) s = .next t ∧ t.cd.jobs = s.cd.jobs ++ [j] ∧ j.eng = s.cd.nextEng ∧
      j.slice = g.slice ∧ j.groups = (g :: l).map LGroup.words ∧ j.space + 4 = (s.grantSpace (space + 4)).1 ∧
      j.space ≤ space ∧ (j.st = 2 ∨ j.st = 3 ∨ j.st = 4) ∧ (g.alone = true → j.raw = true) ∧
      t.cd.ladle = s.cd.ladle.drop (l.length + 1) ∧ t.cd.nextEng = (s.cd.nextEng + 1) % 8 := by
  have hle := s.grantSpace_le (space + 4)
  have hcd := s.grantSpace_cd (space + 4)
  generalize hu : s.grantSpace (space + 4) = grant at hg hle hcd ⊢
  obtain ⟨n, u⟩ := grant
  dsimp only at hg hle hcd ⊢
  obtain ⟨r, hr, hexec⟩ := exec_blockCode hn hu (by rw [hcd]; exact hroom) hg
  have hjob : (u.cd.newJob g l (n - 4)).GoesOnAs r.1 := hr ▸ Job.go_goesOn _ _
  have htaken : (if r.2 then (u.blockTaken g l (u.cd.newJob g l (n - 4)) r.1).stall
      else u.blockTaken g l (u.cd.newJob g l (n - 4)) r.1).cd = (u.blockTaken g l (u.cd.newJob g l (n - 4)) r.1).cd :=
    ite_keeps State.cd _ (State.stall_cd _) rfl
  have hspace : r.1.space = n - 4 := hjob.space
  refine ⟨_, r.1, hexec, ?_, hjob.eng.trans (congrArg Cd.nextEng hcd), hjob.slice, hjob.groups, by omega, by omega,
    hjob.st, fun ha => ?_, ?_, ?_⟩
  · rw [htaken, State.blockTaken, State.cd_setCd, hcd]
  · rw [hr]
    exact (Job.go_raw (by simp [Cd.newJob, ha])).2.1
  · rw [htaken, State.blockTaken, State.cd_setCd, hcd]
    rfl
  · rw [htaken, State.blockTaken, State.cd_setCd, hcd]

/-- The job of an engine is replaced, the others stand. -/
theorem Cd.setJob_jobs (c : Cd) {j k : Job} (h : k.eng = j.eng) :
    (c.setJob k).jobs = c.jobs.map (fun x => if x.eng = j.eng then k else x) := by
  rw [← h]
  rfl

/-- A stopped job goes on in the space that it is granted (R250). -/
theorem pressJobResume_resumes {engine : Fin 8} {space : Nat} {j : Job} {s : State}
    (hf : s.cd.jobs.find? (fun x => x.eng == engine.val) = some j) (hst : j.st = 2) (hb : s.err.bad = [])
    (hr : s.err.raw = []) : ∃ t j', exec (.pressJobResume engine space) s = .next t ∧
      t.cd.jobs = s.cd.jobs.map (fun x => if x.eng = engine.val then j' else x) ∧
      j'.space = j.space + (s.grantSpace space).1 ∧ j'.groups = j.groups ∧ (j'.st = 2 ∨ j'.st = 3 ∨ j'.st = 4) := by
  have heng : j.eng = engine.val := by simpa using List.find?_some hf
  let g := s.grantSpace space
  let r := ({ j with space := j.space + g.1 }).go s.forceRaw
  let u := g.2.setCd (g.2.cd.setJob r.1)
  have hexec : exec (.pressJobResume engine space) s = .next (if r.2 then u.stall else u) := by
    show execPressJobResume engine space s = _
    unfold execPressJobResume
    rw [hf]
    dsimp only
    rw [if_neg (not_not_intro hst), State.readInput_sound hb hr]
    rfl
  have hjob := Job.go_goesOn { j with space := j.space + g.1 } s.forceRaw
  have hcd : (if r.2 then u.stall else u).cd = s.cd.setJob r.1 :=
    ite_keeps State.cd _ ((State.stall_cd _).trans (by rw [State.cd_setCd, State.grantSpace_cd]))
      (by rw [State.cd_setCd, State.grantSpace_cd])
  refine ⟨_, r.1, hexec, ?_, hjob.space, hjob.groups, hjob.st⟩
  rw [hcd, ← heng]
  exact Cd.setJob_jobs _ hjob.eng

/-! ### BLOCK_IDLE_END -/

/-- A cut moves no word (R236). -/
theorem cutAt_words (n : Nat) (gs : List LGroup) : (cutAt n gs).map LGroup.words = gs.map LGroup.words := by
  induction gs generalizing n with
  | nil => rfl
  | cons g t ih =>
    unfold cutAt
    split
    · rfl
    · exact ite_keeps (List.map LGroup.words) _ rfl (congrArg (List.cons g.words) (ih _))

/-- The waiting output is cut behind what has arrived (R236). -/
theorem blockIdleEnd_cuts {arrived : Nat} {g : LGroup} {l : List LGroup} {s : State} (hl : s.cd.ladle = g :: l)
    (ha : g.alone = false) (hi : bits (s.eff Reg.PRS_CFG) 23 16 ≠ 0) :
    ∃ t, exec (.blockIdleEnd arrived) s = .next t ∧ t.cd = { s.cd with ladle := cutAt arrived s.cd.ladle } ∧
      t.regs = s.regs ∧ t.cd.ladle.map LGroup.words = s.cd.ladle.map LGroup.words := by
  refine ⟨s.setCd { s.cd with ladle := cutAt arrived s.cd.ladle }, ?_, State.cd_setCd _ _, State.setCd_regs _ _, ?_⟩
  · show execBlockIdleEnd arrived s = _
    unfold execBlockIdleEnd
    rw [hl]
    dsimp only
    rw [if_neg (by simp [hi, ha])]
  · rw [State.cd_setCd]
    exact cutAt_words _ _

/-! ### The codes of the Expander's errors -/

/-- An outcome of the Expander whose error, where it is one, has a code of R251 (1 to 3; a difference has code 0). -/
def Listed {α : Type} (r : Except XpdErr α) : Prop := ∀ e, r = .error e → e.code ≤ 3

theorem listed_ok {α : Type} (a : α) : Listed (.ok a : Except XpdErr α) := fun _ h => by cases h

theorem listed_error {α : Type} {code pos : Nat} (h : code ≤ 3) :
    Listed (.error ⟨code, pos⟩ : Except XpdErr α) := fun _ he => by
  cases he
  exact h

/-- A step after another fails with the error of the one or of the other. -/
theorem listed_bind {α β : Type} {r : Except XpdErr α} {f : α → Except XpdErr β} (hr : Listed r)
    (hf : ∀ a, Listed (f a)) :
    Listed (r >>= f) := by
  cases r with
  | error e => exact listed_error (hr e rfl)
  | ok a => exact hf a

theorem listed_ite {α : Type} {c : Prop} [Decidable c] {a b : Except XpdErr α} (ha : Listed a) (hb : Listed b) :
    Listed (if c then a else b) := by
  split
  · exact ha
  · exact hb

theorem BitSrc.listed_take (b : BitSrc) (n : Nat) : Listed (b.take n) :=
  listed_ite (listed_error (by decide)) (listed_ok _)

theorem BitSrc.listed_ones (f : Nat) (b : BitSrc) : Listed (b.ones f) := by
  induction f generalizing b with
  | zero => exact listed_ok _
  | succ f ih =>
    unfold BitSrc.ones
    split
    · exact listed_error (by decide)
    · exact listed_ok _
    · split
      · next h => exact listed_error (ih _ _ h)
      · exact listed_ok _

theorem listed_getCtx (c : Ctxs) (k : Ctx) (b : BitSrc) : Listed (getCtx c k b) := by
  unfold getCtx
  refine listed_bind (b.listed_ones 15) (fun q => listed_ite ?_ ?_)
  · exact listed_bind (BitSrc.listed_take _ _) (fun r => listed_ok _)
  · refine listed_bind (BitSrc.listed_take _ _) (fun r => listed_ite ?_ ?_)
    · exact listed_error (by decide)
    · exact listed_ok _

theorem listed_getHit (h : Hist) (r : W64) (b : BitSrc) : Listed (getHit h r b) := by
  unfold getHit
  exact listed_bind (listed_getCtx _ _ _) fun sc => listed_bind (listed_getCtx _ _ _) fun t =>
    listed_bind (listed_getCtx _ _ _) fun tot => listed_bind (listed_getCtx _ _ _) fun rise =>
    listed_bind (BitSrc.listed_take _ _) fun cal => listed_ok _

theorem listed_getValues (red : Nat) (r : Option (List Nat)) (n : Nat) (x : List Nat) (c : Ctxs) (b : BitSrc) :
    Listed (getValues red r n x c b) := by
  induction n generalizing x c b with
  | zero => exact listed_ok _
  | succ n ih =>
    unfold getValues
    exact listed_bind (listed_getCtx _ _ _) fun v => listed_ite (listed_error (by decide)) (ih _ _ _)

theorem listed_getUnit (h : Hist) (room : Nat) (b : BitSrc) : Listed (getUnit h room b) := by
  unfold getUnit
  exact listed_bind (BitSrc.listed_take _ _) fun f => listed_bind (BitSrc.listed_take _ _) fun hi =>
    listed_bind (BitSrc.listed_take _ _) fun lo => listed_ite (listed_error (by decide))
    (listed_ite (listed_error (by decide)) (listed_bind (listed_getValues _ _ _ _ _ _) fun v => listed_ok _))

theorem listed_getItem (h : Hist) (room owed : Nat) (b : BitSrc) : Listed (getItem h room owed b) := by
  unfold getItem
  refine listed_bind (BitSrc.listed_take _ _) fun a => listed_ite ?_ (listed_bind (BitSrc.listed_take _ _) fun c =>
    listed_ite (listed_bind (BitSrc.listed_take _ _) fun d => ?_) (listed_bind (BitSrc.listed_take _ _) fun e =>
    listed_ite ?_ ?_))
  · exact listed_bind (listed_getHit _ _ _) fun x => listed_ok _
  · refine listed_ite (listed_error (by decide)) ?_
    split
    · exact listed_bind (listed_getHit _ _ _) fun x => listed_ok _
    · exact listed_error (by decide)
  · exact listed_bind (BitSrc.listed_take _ _) fun w => listed_ok _
  · exact listed_bind (listed_getUnit _ _ _) fun u => listed_ok _

theorem listed_getAll (first : Bool) (dep : List W64) (nrec f : Nat) (h : Hist) (owed : Nat) (at' : List Nat) (b : BitSrc) :
    Listed (getAll first dep nrec f h owed at' b) := by
  induction f generalizing h owed at' b with
  | zero => exact listed_ok _
  | succ f ih =>
    unfold getAll
    exact listed_ite (listed_ok _) (listed_bind (listed_getItem _ _ _ _) fun r =>
      listed_ite (listed_error (by decide)) (ih _ _ _ _))

/-- The Expander fails with a code of R251. -/
theorem listed_expand (b : Block) : Listed (expand b) := by
  unfold expand
  extract_lets nrec pw first dep all limit
  refine listed_ite (listed_error (by decide)) (listed_ite (listed_ite (listed_error (by decide)) ?_) ?_)
  · split
    · exact listed_ite (listed_ok _) (listed_error (by decide))
    · exact listed_ok _
  · split
    · next h => exact listed_error (listed_getAll _ _ _ _ _ _ _ _ _ h)
    · exact listed_ite (listed_error (by decide)) (listed_ite (listed_error (by decide)) (listed_ok _))

/-- What verification finds has a code of R251 or is a difference. -/
theorem verifyBlock_code {b : Block} {ws : List W64} {e : XpdErr} (h : verifyBlock b ws = some e) : e.code ≤ 3 := by
  unfold verifyBlock at h
  split at h
  · next e' he =>
    cases h
    exact listed_expand b _ he
  · obtain ⟨p, -, rfl⟩ := Option.map_eq_some_iff.1 h
    exact Nat.zero_le 3

/-! ### BLOCK_VERIFY -/

/-- What verification reads beside its job: the active CD, the count of failures and the applied PRS_CFG. -/
def State.verifying (s : State) : Cd × W32 × W32 := (s.cd, s.reg Reg.PRS_VFAIL_CNT, s.eff Reg.PRS_CFG)

theorem State.verifying_iff {s t : State} : t.verifying = s.verifying ↔
    t.cd = s.cd ∧ t.reg Reg.PRS_VFAIL_CNT = s.reg Reg.PRS_VFAIL_CNT ∧ t.eff Reg.PRS_CFG = s.eff Reg.PRS_CFG := by
  unfold State.verifying
  simp only [Prod.mk.injEq]

section
variable (s : State)

theorem State.setReg_verifying {a : Nat} (ha : a / 0x100000 = 2) (hne : a ≠ Reg.PRS_VFAIL_CNT) (v : W32) :
    (s.setReg a v).verifying = s.verifying := by
  unfold State.verifying
  rw [State.cd_setReg, s.reg_setReg_ne (by decide) (by omega) (Ne.symm hne), s.eff_setReg (by omega)]

theorem State.count_verifying {a : Nat} (ha : a / 0x100000 = 2) (hne : a ≠ Reg.PRS_VFAIL_CNT) (n : Nat) :
    (s.count a n).verifying = s.verifying := s.setReg_verifying ha hne _

theorem State.event_verifying (a : Nat) (bs : List Nat) : (s.event a bs).verifying = s.verifying := by
  unfold State.verifying
  rw [State.cd_event, State.reg_event, State.eff_event]

theorem State.stall_verifying : s.stall.verifying = s.verifying :=
  (State.event_verifying _ _ _).trans (s.count_verifying (by decide) (by decide) 1)

/-- An error of the Expander is captured in its own registers (R252). -/
theorem State.capture_verifying {e : XpdErr} (he : e.code ≤ 3) (peer : Bool) (b : Block) (unit lane : Nat) :
    (s.capture e peer b unit lane).verifying = s.verifying := by
  have hdie : (Reg.XPD_ILLEGAL_CNT + 4 * (e.code - 1)) / 0x100000 = 2 := by
    unfold Reg.XPD_ILLEGAL_CNT
    omega
  have hne : Reg.XPD_ILLEGAL_CNT + 4 * (e.code - 1) ≠ Reg.PRS_VFAIL_CNT := by
    unfold Reg.XPD_ILLEGAL_CNT Reg.PRS_VFAIL_CNT
    omega
  have h1 : (if e.code = 0 then s.event Reg.XPD_EVT [3] else (s.event Reg.XPD_EVT [e.code - 1]).count
      (Reg.XPD_ILLEGAL_CNT + 4 * (e.code - 1)) 1).verifying = s.verifying :=
    ite_keeps State.verifying _ (s.event_verifying _ _)
      ((State.count_verifying _ hdie hne 1).trans (s.event_verifying _ _))
  unfold State.capture
  extract_lets s1 seq
  exact (State.setReg_verifying _ (by decide) (by decide) _).trans
    ((State.setReg_verifying _ (by decide) (by decide) _).trans
      ((State.setReg_verifying _ (by decide) (by decide) _).trans h1))

end

/-- The captured failure of a job that is coded again RAW with the VERIFY flag (R248, R249). -/
def State.failed (s : State) (j : Job) (b : Block) (e : XpdErr) : State :=
  let r := ({ j with raw := true, verify := true }).go true
  let t := s.setCd (s.cd.setJob r.1)
  (((if r.2 then t.stall else t).count Reg.PRS_VFAIL_CNT 1).event Reg.PRS_EVT [1]).capture e false b j.eng 0

/-- Coding again replaces the job, and the failure is counted. -/
theorem State.failed_spec (s : State) (j : Job) (b : Block) {e : XpdErr} (he : e.code ≤ 3) :
    (s.failed j b e).cd = s.cd.setJob (({ j with raw := true, verify := true } : Job).go true).1 ∧
      s.counts (s.failed j b e) Reg.PRS_VFAIL_CNT 1 ∧ (s.failed j b e).eff Reg.PRS_CFG = s.eff Reg.PRS_CFG := by
  unfold State.failed
  extract_lets r t
  obtain ⟨htcd, htreg, hteff⟩ := State.verifying_iff.1
    (ite_keeps State.verifying (r.2 = true) t.stall_verifying (rfl : t.verifying = t.verifying))
  generalize (if r.2 then t.stall else t : State) = u at htcd htreg hteff ⊢
  obtain ⟨hcd, hreg, heff⟩ := State.verifying_iff.1
    ((State.capture_verifying ((u.count Reg.PRS_VFAIL_CNT 1).event Reg.PRS_EVT [1]) he false b j.eng 0).trans
      (State.event_verifying _ _ _))
  refine ⟨?_, ?_, ?_⟩
  · exact hcd.trans ((u.cd_count _ _).trans (htcd.trans (State.cd_setCd _ _)))
  · exact (State.counts_count (htreg.trans (s.reg_setCd _ _)) 1).congr hreg
  · exact heff.trans ((u.eff_count (by decide) _ _).trans (hteff.trans (s.eff_setCd _ _)))

/-- With no limit on failures a failure is only remembered (R249). -/
theorem State.verifyFail_unlimited (s : State) {j : Job} {b : Block} {e : XpdErr}
    (h : bits ((s.failed j b e).eff Reg.PRS_CFG) 11 8 = 0) :
    ∃ c : Cd, c.jobs = (s.failed j b e).cd.jobs ∧ s.verifyFail j b e = (s.failed j b e).setCd c := by
  unfold State.verifyFail
  extract_lets r s1 s2 s3 now fs c s4 lim s5
  have hlim : lim = 0 := (congrArg (fun w => bits w 11 8) (s3.eff_setCd _ _)).trans h
  rw [if_neg (fun hc => hc.1 hlim)]
  exact ⟨{ c with vfails := fs }, rfl, rfl⟩

/-- A block that fails is coded again RAW with the VERIFY flag and counted; without a limit nothing follows (R248, R249). -/
theorem State.verifyFail_spec {s : State} {e : XpdErr} (he : e.code ≤ 3) (hlim : bits (s.eff Reg.PRS_CFG) 11 8 = 0) (j : Job)
    (b : Block) : ∃ j', (s.verifyFail j b e).cd.jobs = s.cd.jobs.map (fun x => if x.eng = j.eng then j' else x) ∧
      j'.raw = true ∧ j'.verify = true ∧ (j'.st = 2 ∨ j'.st = 4) ∧ s.counts (s.verifyFail j b e) Reg.PRS_VFAIL_CNT 1 := by
  obtain ⟨hjob, hraw, hst⟩ := Job.go_raw (j := { j with raw := true, verify := true }) (force := true) (by simp)
  obtain ⟨hcd, hcnt, heff⟩ := s.failed_spec j b he
  obtain ⟨c, hc, heq⟩ := s.verifyFail_unlimited (j := j) (b := b) (by rw [heff, hlim])
  rw [heq, State.cd_setCd, hc, hcd]
  exact ⟨_, Cd.setJob_jobs _ hjob.eng, hraw, hjob.verify, hst, hcnt.congr (State.reg_setCd _ _ _)⟩

/-- BLOCK_VERIFY on the oldest job that waits for it, where its held input is sound (R248). -/
theorem exec_blockVerify {flips : List (Nat × W64)} {now : Nat} {j : Job} {s : State}
    (hf : s.cd.jobs.find? (fun x => x.st == 3) = some j) (hb : s.err.bad = []) (hr : s.err.raw = []) :
    ∃ tb, exec (.blockVerify flips now) s = .next (match verifyBlock ((s.blockOf j).seen flips) j.words with
      | some e => ({ s with tb := tb } : State).verifyFail j (s.blockOf j) e
      | none => ({ s with tb := tb } : State).setCd (s.cd.setJob { j with st := 4 })) := by
  obtain ⟨tb, htb⟩ := s.advanceTo_only now
  refine ⟨tb, ?_⟩
  show execBlockVerify flips now s = _
  unfold execBlockVerify
  rw [htb]
  have hf' : ({ s with tb := tb } : State).cd.jobs.find? (fun x => x.st == 3) = some j := hf
  dsimp only
  rw [hf']
  dsimp only
  rw [State.readInput_sound (s := { s with tb := tb }) hb hr]
  rfl

theorem blockVerify_verifies {flips : List (Nat × W64)} {now : Nat} {j : Job} {s : State}
    (hf : s.cd.jobs.find? (fun x => x.st == 3) = some j) (hb : s.err.bad = []) (hr : s.err.raw = [])
    (hv : verifyBlock ((s.blockOf j).seen flips) j.words = none) :
    ∃ t, exec (.blockVerify flips now) s = .next t ∧ t.cd = s.cd.setJob { j with st := 4 } ∧ t.regs = s.regs := by
  obtain ⟨tb, hexec⟩ := exec_blockVerify (flips := flips) (now := now) hf hb hr
  rw [hv] at hexec
  exact ⟨_, hexec, State.cd_setCd _ _, State.setCd_regs _ _⟩

theorem blockVerify_fails {flips : List (Nat × W64)} {now : Nat} {j : Job} {s : State}
    (hf : s.cd.jobs.find? (fun x => x.st == 3) = some j) (hb : s.err.bad = []) (hr : s.err.raw = []) {e : XpdErr}
    (hv : verifyBlock ((s.blockOf j).seen flips) j.words = some e) (hlim : bits (s.eff Reg.PRS_CFG) 11 8 = 0) :
    ∃ t j', exec (.blockVerify flips now) s = .next t ∧
      t.cd.jobs = s.cd.jobs.map (fun x => if x.eng = j.eng then j' else x) ∧ j'.raw = true ∧ j'.verify = true ∧
      (j'.st = 2 ∨ j'.st = 4) ∧ s.counts t Reg.PRS_VFAIL_CNT 1 := by
  obtain ⟨tb, hexec⟩ := exec_blockVerify (flips := flips) (now := now) hf hb hr
  rw [hv] at hexec
  obtain ⟨j', h⟩ := State.verifyFail_spec (s := { s with tb := tb }) (verifyBlock_code hv) hlim j (s.blockOf j)
  exact ⟨_, j', hexec, h⟩

/-! ### BLOCK_RELEASE -/

/-- The oldest job that waits for release goes to the HBD as its block, and block and records are counted (R247). -/
theorem blockRelease_releases {j : Job} {rest : List Job} {s : State} (hj : s.cd.jobs = j :: rest) (hst : j.st = 4)
    (hb : s.err.bad = []) (hr : s.err.raw = []) : ∃ t, exec .blockRelease s = .next t ∧
      t.cd = { s.cd with jobs := rest, released := s.cd.released ++ [s.blockOf j] } ∧ s.counts t Reg.PRS_BLK_CNT 1 ∧
      s.counts t Reg.PRS_IN_CNT j.nrec := by
  have hin : (if j.raw || j.alone then s.readInput j else (true, s)) = (true, s) := by
    rw [State.readInput_sound hb hr, ite_self]
  let u := s.setCd { s.cd with jobs := rest, released := s.cd.released ++ [s.blockOf j] }
  let blk := u.count Reg.PRS_BLK_CNT 1
  let raw := blk.count Reg.PRS_RAW_CNT (b2n (s.blockOf j).raw)
  let inp := raw.count Reg.PRS_IN_CNT j.nrec
  have hexec : exec .blockRelease s = .next (inp.count Reg.PRS_OUT_CNT (s.blockOf j).words.length) := by
    show execBlockRelease s = _
    unfold execBlockRelease
    rw [hj]
    dsimp only
    rw [if_neg (by rw [hst]; decide), if_neg (not_not_intro hst), hin]
    rfl
  refine ⟨_, hexec, ?_, ?_, ?_⟩
  · rw [State.cd_count, State.cd_count, State.cd_count, State.cd_count]
    exact State.cd_setCd _ _
  · refine State.counts.congr (State.counts_count (t := u) (s.reg_setCd _ _) 1) ?_
    exact (inp.reg_count_ne (by decide) (by decide) (by decide) _).trans
      ((raw.reg_count_ne (by decide) (by decide) (by decide) _).trans
        (blk.reg_count_ne (by decide) (by decide) (by decide) _))
  · refine State.counts.congr (State.counts_count (t := raw) ?_ j.nrec)
      (inp.reg_count_ne (by decide) (by decide) (by decide) _)
    exact (blk.reg_count_ne (by decide) (by decide) (by decide) _).trans
      ((u.reg_count_ne (by decide) (by decide) (by decide) _).trans (s.reg_setCd _ _))

end Sys2Proof.Machine
end

section
/-! O34, the peer Expanders: a block of a LIMB is rebuilt or discarded (R207, R253), and the statement. -/

namespace Sys2Proof.Machine

/-! ### What rebuilding leaves of a sound module -/

/-- From the sound state `s` to `u` the memories stay sound, and the senders' partial pages and the blocks that wait for the
peer Expanders stand. -/
def State.FeedKept (s u : State) : Prop :=
  s.sound → u.sound ∧ u.cd.rem = s.cd.rem ∧ ∀ i, (u.peer i).blocks = (s.peer i).blocks

theorem State.FeedKept.refl (s : State) : s.FeedKept s := fun h => ⟨h, rfl, fun _ => rfl⟩

theorem State.FeedKept.trans {s t u : State} (h : s.FeedKept t) (g : t.FeedKept u) : s.FeedKept u := fun hs =>
  have ⟨ht, hrem, hblocks⟩ := h hs
  have ⟨hu, hrem', hblocks'⟩ := g ht
  ⟨hu, hrem'.trans hrem, fun i => (hblocks' i).trans (hblocks i)⟩

theorem State.FeedKept.ite {s t u : State} (ht : s.FeedKept t) (hu : s.FeedKept u) (c : Prop) [Decidable c] :
    s.FeedKept (if c then t else u) := by
  split
  · exact ht
  · exact hu

theorem State.FeedKept.ite_snd {α : Type} {s : State} {a b : α × State} (ha : s.FeedKept a.2)
    (hb : s.FeedKept b.2) (c : Prop)
    [Decidable c] : s.FeedKept (if c then a else b).2 := by
  split
  · exact ha
  · exact hb

theorem State.FeedKept.foldl {α : Type} {f : State → α → State} (h : ∀ (t : State) x, t.FeedKept (f t x))
    (l : List α) (s : State) :
    s.FeedKept (l.foldl f s) := by
  induction l generalizing s with
  | nil => exact State.FeedKept.refl s
  | cons x l ih => exact (h s x).trans (ih _)

/-- What leaves the active CD, the uplink path and the errors leaves the feed. -/
theorem State.feedKept_of {s u : State} (hc : u.cd = s.cd) (hu : u.ulp = s.ulp) (he : u.err = s.err) : s.FeedKept u :=
  fun hs => ⟨by unfold State.sound; rw [he]; exact hs, by rw [hc], fun i => by rw [State.peer_congr hu]⟩

section
variable (s : State)

theorem State.setRegAt_feed (k : Nat) (v : W32) : s.FeedKept (s.setRegAt k v) := State.feedKept_of rfl rfl rfl
theorem State.setReg_feed (a : Nat) (v : W32) : s.FeedKept (s.setReg a v) := s.setRegAt_feed _ v
theorem State.countAt_feed (k top n : Nat) : s.FeedKept (s.countAt k top n) := s.setRegAt_feed k _
theorem State.count_feed (a n : Nat) : s.FeedKept (s.count a n) := s.countAt_feed _ _ n
theorem State.eventAt_feed (k : Nat) (bs : List Nat) : s.FeedKept (s.eventAt k bs) := State.feedKept_of rfl rfl rfl
theorem State.event_feed (a : Nat) (bs : List Nat) : s.FeedKept (s.event a bs) := s.eventAt_feed _ bs
theorem State.eventIf_feed (c : Bool) (a : Nat) (bs : List Nat) : s.FeedKept (s.eventIf c a bs) :=
  (s.event_feed a bs).ite (State.FeedKept.refl s) _
theorem State.draw_feed : s.FeedKept s.draw.2 := State.feedKept_of rfl rfl rfl
theorem State.setOther_feed (c : Cd) : s.FeedKept (s.setOther c) :=
  State.feedKept_of (s.cd_setOther c) (s.setOther_ulp c) (s.setOther_err c)

/-- A step of the active CD that takes no credit. -/
theorem State.setCd_feed {c : Cd} (h : c.rem = s.cd.rem) : s.FeedKept (s.setCd c) := fun hs =>
  ⟨by unfold State.sound; rw [State.setCd_err]; exact hs, by rw [State.cd_setCd, h],
    fun i => by rw [State.peer_congr (s.setCd_ulp c)]⟩

/-- A step of a source's receive side that takes none of its blocks. -/
theorem State.setPeer_feed {i : Nat} {p : Peer} (h : p.blocks = (s.peer i).blocks) : s.FeedKept (s.setPeer i p) := fun hs => by
  refine ⟨hs, rfl, fun j => ?_⟩
  rw [State.peer_setPeer]
  split
  · next hj => rw [h, hj]
  · rfl

theorem State.memClean_feed (d : Die) (mem idx : Nat) : s.FeedKept (s.memClean d mem idx) := fun ⟨hb, hr, hc⟩ =>
  ⟨⟨by unfold State.memClean; rw [hb]; rfl, by unfold State.memClean; rw [hr]; rfl, hc⟩, rfl, fun _ => rfl⟩

theorem State.cleanRange_feed (d : Die) (mem lo n : Nat) : s.FeedKept (s.cleanRange d mem lo n) := fun ⟨hb, hr, hc⟩ =>
  ⟨⟨by unfold State.cleanRange; dsimp only; rw [hb]; rfl, by unfold State.cleanRange; dsimp only; rw [hr]; rfl, hc⟩, rfl,
    fun _ => rfl⟩

theorem State.pqPush_feed (i : Nat) (w : W64) : s.FeedKept (s.pqPush i w) := by
  unfold State.pqPush
  refine State.FeedKept.ite (s.event_feed _ _) ((s.memClean_feed .hbd 0x03 (s.pqWord i (s.pqOf i).length)).trans ?_) _
  exact State.feedKept_of rfl rfl rfl

/-! ### Loss records -/

theorem State.errLossC_feed (d : Die) (cls cause : Nat) : s.FeedKept (s.errLossC d cls cause) := by
  have hcount : s.FeedKept (s.lossCount d cause) := (s.countAt_feed _ _ _).trans (State.eventAt_feed _ _ _)
  unfold State.errLossC State.lossEntry
  refine State.FeedKept.ite ?_ ?_ _
  · exact (hcount.trans (State.draw_feed _)).trans (State.pqPush_feed _ _ _)
  · exact hcount.trans (State.pqPush_feed _ _ _)

theorem State.lossInC_feed (cls n src lo hi k cause : Nat) : s.FeedKept (s.lossInC cls n src lo hi k cause) := by
  unfold State.lossInC
  refine (s.setCd_feed ?_).trans (State.errLossC_feed _ _ _ _)
  rfl

theorem Cd.place_rem (c : Cd) (src lo hi k cause : Nat) : (c.place src lo hi k cause).rem = c.rem := by
  unfold Cd.place
  split <;> rfl

theorem State.lossOldestC_feed (cls src lo hi k cause : Nat) : s.FeedKept (s.lossOldestC cls src lo hi k cause) :=
  (s.setCd_feed (Cd.place_rem _ _ _ _ _ _)).trans (State.errLossC_feed _ _ _ _)

theorem State.lossSum_feed (cls n src ch k cause : Nat) : s.FeedKept (s.lossSum cls n src ch k cause) := by
  unfold State.lossSum
  refine State.FeedKept.ite (s.setCd_feed ?_) (s.lossInC_feed _ _ _ _ _ _ _) _
  rfl

theorem State.peerLoss_feed (n src lo hi k cause : Nat) : s.FeedKept (s.peerLoss n src lo hi k cause) := by
  unfold State.peerLoss State.lossIn State.lossOldest
  exact State.FeedKept.ite (s.lossInC_feed _ _ _ _ _ _ _) (s.lossOldestC_feed _ _ _ _ _ _) _

theorem State.closeBad_feed (src hi : Nat) : s.FeedKept (s.closeBad src hi) := by
  unfold State.closeBad
  split
  · refine State.FeedKept.trans (s.setPeer_feed ?_) (State.peerLoss_feed _ _ _ _ _ _ _)
    rfl
  · exact State.FeedKept.refl s

theorem State.peerDone_feed (src n : Nat) : s.FeedKept (s.peerDone src n) := s.setPeer_feed rfl

/-! ### Barriers and queues -/

theorem State.insertBarrier_feed (b : Barrier) : s.FeedKept (s.insertBarrier b) := by
  unfold State.insertBarrier
  extract_lets c p nr nj q alone later k rel jbs c1 x t j
  have ht : s.FeedKept t := s.setCd_feed rfl
  refine State.FeedKept.ite (s.setCd_feed ?_) (State.FeedKept.ite ?_ (s.setCd_feed ?_) _) _
  · rfl
  · exact (((ht.trans (t.count_feed _ _)).trans (State.count_feed _ _ _)).trans (State.count_feed _ _ _)).trans
      (State.count_feed _ _ _)
  · rfl

theorem State.standBarrier_feed (b : Barrier) : s.FeedKept (s.standBarrier b) := by
  have hr : s.FeedKept (s.recordBarrier b) := (s.setOther_feed _).ite (State.FeedKept.refl s) _
  unfold State.standBarrier
  extract_lets t u
  have ht : s.FeedKept t := hr
  have hu : s.FeedKept u := ht.trans (t.insertBarrier_feed b)
  refine State.FeedKept.ite (hu.trans (u.setCd_feed ?_)) (ht.trans (t.setCd_feed ?_)) _ <;> rfl

theorem State.enqueue_feed (q : Nat) (es : List Ent) : s.FeedKept (s.enqueue q es) :=
  (s.cleanRange_feed _ _ _ _).trans (State.setCd_feed _ rfl)

/-- Where no word is in error stage 6 reads its map entry and descriptor without a trace (R198, R202, R203). -/
theorem State.stageQueue_feed (src cls : Nat) (es : List Ent) : s.FeedKept (s.stageQueue src cls es).2 := by
  intro hs
  suffices h : s.FeedKept (s.stageQueue src cls es).2 from h hs
  cases es with
  | nil => exact State.FeedKept.refl s
  | cons e es =>
    have hclean := State.clean_of_sound hs s.activeDie 0x23 (qmapIdx (s.queueOf src e.chan e.slice cls))
    have hread : s.memRead s.activeDie 0x23 (qmapIdx (s.queueOf src e.chan e.slice cls)) = (true, s) :=
      State.memReadC_clean hclean 0
    have hdead : s.dead s.activeDie 0x23 (qmapIdx (s.queueOf src e.chan e.slice cls)) = false := by
      unfold State.dead
      rw [((s.clean_iff _ _ _).1 hclean).2]
      rfl
    unfold State.stageQueue
    dsimp only
    rw [hread, hdead, State.readCrit_sound hs, if_neg Bool.false_ne_true]
    refine State.FeedKept.ite_snd ?_ (State.FeedKept.ite_snd ?_ (s.enqueue_feed _ _) _) _
    · have hcount : s.FeedKept (if (if e.kind = .hit then 1 else 0) = 1 then s.count Reg.COL_QDIS_CNT 1 else s) :=
        (s.count_feed _ _).ite (State.FeedKept.refl s) _
      exact (hcount.trans (State.event_feed _ _ _)).trans (State.lossSum_feed _ _ _ _ _ _ _)
    · refine (((s.setCd_feed ?_).trans (State.count_feed _ _ _)).trans (State.eventIf_feed _ _ _ _)).trans
        (State.lossSum_feed _ _ _ _ _ _ _)
      exact ite_keeps Cd.rem _ rfl rfl

/-! ### The blocks of a source -/

theorem State.capture_feed (e : XpdErr) (peer : Bool) (b : Block) (unit lane : Nat) :
    s.FeedKept (s.capture e peer b unit lane) := by
  unfold State.capture
  extract_lets s1 seq
  have h1 : s.FeedKept s1 :=
    State.FeedKept.ite (s.event_feed _ _) ((s.event_feed _ _).trans (State.count_feed _ _ _)) _
  exact ((h1.trans (s1.setReg_feed _ _)).trans (State.setReg_feed _ _ _)).trans (State.setReg_feed _ _ _)

theorem State.peerFault_feed (src lane : Nat) (b : Block) (e : XpdErr) : s.FeedKept (s.peerFault src lane b e) := by
  unfold State.peerFault
  extract_lets r s1 p s2 q lo s3
  have h1 : s.FeedKept s1 := s.draw_feed.trans (State.capture_feed _ _ _ _ _ _)
  have h2 : s.FeedKept s2 := by
    refine h1.trans ?_
    show s1.FeedKept (match p.badPend with
      | some (n, _) => if n = b.slice then s1 else s1.closeBad src 4095
      | none => s1)
    split
    · exact (State.FeedKept.refl s1).ite (s1.closeBad_feed _ _) _
    · exact State.FeedKept.refl s1
  have h3 : s.FeedKept s3 := by
    refine h2.trans (State.FeedKept.ite (State.FeedKept.refl s2) (s2.setPeer_feed ?_) _)
    rfl
  exact ((h3.trans (s3.closeBad_feed _ _)).trans (State.peerDone_feed _ _ _)).ite h3 _

theorem State.peerUnit_feed (src n : Nat) (es : List Ent) : s.FeedKept (s.peerUnit src n es) := by
  unfold State.peerUnit
  split
  · exact State.FeedKept.refl s
  · split
    · refine State.FeedKept.ite (s.setCd_feed ?_) (State.FeedKept.refl s) _
      rfl
    · exact (s.stageQueue_feed src 0 _).trans (State.setPeer_feed _ rfl)
    · exact (s.stageQueue_feed src 2 _).ite (State.FeedKept.refl s) _

theorem State.peerLateBlock_feed (src hits : Nat) (first last : Bool) :
    s.FeedKept (s.peerLateBlock src hits first last) := by
  unfold State.peerLateBlock
  extract_lets s1 p s2
  have h1 : s.FeedKept s1 := ((s.count_feed _ _).trans (State.event_feed _ _ _)).ite (State.FeedKept.refl s) _
  have h2 : s.FeedKept s2 := h1.trans (s1.setPeer_feed rfl)
  refine State.FeedKept.ite (h1.trans (s1.setPeer_feed ?_)) (State.FeedKept.ite (h2.trans (s2.setCd_feed ?_))
    (h2.trans (s2.lossOldestC_feed _ _ _ _ _ _)) _) _
  · rfl
  · exact Cd.place_rem _ _ _ _ _ _

theorem State.peerAlone_feed (src : Nat) (w : W64) : s.FeedKept (s.peerAlone src w) := by
  unfold State.peerAlone
  extract_lets n p t late
  have ht : s.FeedKept t := by
    refine State.FeedKept.ite (s.lossOldestC_feed _ _ _ _ _ _) (s.setPeer_feed ?_) _
    rfl
  split
  · exact ht.trans (t.peerDone_feed _ _)
  · exact (s.standBarrier_feed _).trans (State.eventIf_feed _ _ _ _)
  · exact State.FeedKept.refl s

theorem State.peerRecords_feed (src : Nat) (b : Block) (ws : List W64) : s.FeedKept (s.peerRecords src b ws) := by
  unfold State.peerRecords
  extract_lets n us hs s0 s1 p s2 hd s3 q s4
  have h0 : s.FeedKept s0 := by
    show s.FeedKept (match (s.peer src).badPend with
      | some (m, _) => s.closeBad src (if m = n then hs.headD 4095 else 4095)
      | none => s)
    split
    · exact s.closeBad_feed _ _
    · exact State.FeedKept.refl s
  have h1 : s.FeedKept s1 := h0.trans (s0.eventIf_feed _ _ _)
  have h2 : s.FeedKept s2 := by
    refine h1.trans (State.FeedKept.ite (s1.setPeer_feed ?_) (State.FeedKept.refl s1) _)
    rfl
  have h3 : s.FeedKept s3 := h2.trans ((s2.peerLateBlock_feed _ _ _ _).ite
    ((State.FeedKept.refl s2).ite (State.FeedKept.foldl (fun t u => t.peerUnit_feed src n u) us s2) _) _)
  have h4 : s.FeedKept s4 := by
    refine h3.trans ?_
    show s3.FeedKept (match hs.getLast? with
      | some c => s3.setPeer src { s3.peer src with lastHit := some (n, c) }
      | none => s3)
    split
    · exact s3.setPeer_feed rfl
    · exact State.FeedKept.refl s3
  exact (h4.trans (s4.peerDone_feed _ _)).ite h4 _

end

/-! ### PEER_BLOCK_EXPAND -/

/-- A block that has left its source's queue and is rebuilt, or found faulty (R253). -/
def State.rebuild (s : State) (src lane : Nat) (b : Block) : State :=
  match expand b with
  | .error e => s.peerFault src lane b e
  | .ok r =>
    let t := s.count Reg.XPD_PEER_BLK_CNT 1
    if b.alone then t.peerAlone src (r.1.headD 0) else t.peerRecords src b r.1

theorem State.rebuild_feed (s : State) (src lane : Nat) (b : Block) : s.FeedKept (s.rebuild src lane b) := by
  unfold State.rebuild
  split
  · exact s.peerFault_feed _ _ _ _
  · have hcount : s.FeedKept (s.count Reg.XPD_PEER_BLK_CNT 1) := s.count_feed _ _
    exact State.FeedKept.ite (hcount.trans (State.peerAlone_feed _ _ _)) (hcount.trans (State.peerRecords_feed _ _ _ _)) _

/-- The state in which a source's first block has left its queue. -/
def State.unqueued (s : State) (src : Nat) (rest : List (Nat × Block)) : State :=
  s.setPeer src { s.peer src with blocks := rest }

/-- The state in which that block's records are counted against the source's credit (R205). -/
def State.charged (s : State) (src : Nat) (b : Block) (rest : List (Nat × Block)) : State :=
  (s.unqueued src rest).setCd (s.cd.consume (64 + src) b.nrec)

theorem State.unqueued_blocks (s : State) (src : Nat) (rest : List (Nat × Block)) :
    ((s.unqueued src rest).peer src).blocks = rest := by
  unfold State.unqueued
  rw [State.peer_setPeer, if_pos rfl]

theorem Cd.consume_rem (c : Cd) (snd n : Nat) : Sparse.get 0 (c.consume snd n).rem snd = (Sparse.get 0 c.rem snd + n) % 32 :=
  Sparse.get_put_self _ _ _ _

section
variable {src : Fin 8} {lane : Nat} {b : Block} {rest : List (Nat × Block)} {s : State}
  (hp : (s.peer src).blocks = (lane, b) :: rest) (hr : s.role = .head) (hst : cdActive ≤ s.cd.st)
include hp hr hst

/-- A block of another generation is only counted (R207). -/
theorem expandNext_stale (hg : b.gen ≠ s.cd.gen) :
    s.expandNext src = ((s.unqueued src rest).count Reg.Q_STALE_CNT 1).event Reg.Q_EVT [0] := by
  unfold State.expandNext
  rw [hp]
  exact (if_neg (not_or.2 ⟨not_not_intro hr, Nat.not_lt.2 hst⟩)).trans (if_pos hg)

/-- A block of the present generation is charged; unless it is of a slice before the restart it is rebuilt (R253, R327). -/
theorem expandNext_present (hg : b.gen = s.cd.gen) : ∃ (early : Prop) (_ : Decidable early),
    s.expandNext src = if early then s.charged src b rest else (s.charged src b rest).rebuild src lane b := by
  unfold State.expandNext
  rw [hp]
  exact ⟨_, _, (if_neg (not_or.2 ⟨not_not_intro hr, Nat.not_lt.2 hst⟩)).trans (if_neg (not_not_intro hg))⟩

/-- A source's next block is taken, and charged or discarded by its generation (R205, R207, R253). -/
theorem peerBlockExpand_takes (hs : s.sound) : ∃ t, exec (.peerBlockExpand src) s = .next t ∧ (t.peer src).blocks = rest ∧
    (b.gen = s.cd.gen → Sparse.get 0 t.cd.rem (64 + src.val) = (Sparse.get 0 s.cd.rem (64 + src.val) + b.nrec) % 32) ∧
    (b.gen ≠ s.cd.gen → t.cd = s.cd ∧ s.counts t Reg.Q_STALE_CNT 1) := by
  have hexec : exec (.peerBlockExpand src) s = .next (s.expandNext src).settleCrit := rfl
  by_cases hg : b.gen = s.cd.gen
  · obtain ⟨early, hdec, hnext⟩ := expandNext_present hp hr hst hg
    have hcharged : (s.charged src b rest).sound := by
      unfold State.sound State.charged
      rw [State.setCd_err]
      exact hs
    obtain ⟨⟨-, -, hcrit⟩, hrem, hblocks⟩ : (s.expandNext src).sound ∧
        (s.expandNext src).cd.rem = (s.charged src b rest).cd.rem ∧
        ∀ i, ((s.expandNext src).peer i).blocks = ((s.charged src b rest).peer i).blocks := by
      rw [hnext]
      exact State.FeedKept.ite (State.FeedKept.refl _) (State.rebuild_feed _ _ _ _) early hcharged
    rw [State.settleCrit_none hcrit] at hexec
    refine ⟨_, hexec, ?_, fun _ => ?_, fun hne => absurd hg hne⟩
    · rw [hblocks, State.charged, State.peer_congr (State.setCd_ulp _ _)]
      exact s.unqueued_blocks src rest
    · rw [hrem, State.charged, State.cd_setCd]
      exact Cd.consume_rem _ _ _
  · have hcrit : (((s.unqueued src rest).count Reg.Q_STALE_CNT 1).event Reg.Q_EVT [0]).err.crit = none := hs.2.2
    rw [expandNext_stale hp hr hst hg, State.settleCrit_none hcrit] at hexec
    refine ⟨_, hexec, ?_, fun hge => absurd hge hg, fun _ => ⟨?_, ?_⟩⟩
    · rw [State.peer_event, State.peer_count]
      exact s.unqueued_blocks src rest
    · exact (State.cd_event _ _ _).trans (State.cd_count _ _ _)
    · exact (State.counts_count (t := s.unqueued src rest) rfl 1).congr (State.reg_event _ _ _ _)

end

/-! ### The statement -/

/-- Settles O34: one lemma for each command and case. What fails verification keeps its count apart from the registers that
capture the error because an error of the Expander has one of R251's codes; a peer block's charge stands because rebuilding
it leaves the senders' partial pages alone. -/
theorem pressCodesAndReleasesBlocks : Obligations.PressCodesAndReleasesBlocks := by
  unfold Obligations.PressCodesAndReleasesBlocks
  exact ⟨fun space g l s hn hroom hg => blockCode_codes hn hroom hg,
    fun engine space j s hf hst hb hr => pressJobResume_resumes hf hst hb hr,
    fun arrived g l s hl ha hi => blockIdleEnd_cuts hl ha hi,
    fun flips now j s hf hb hr => ⟨blockVerify_verifies hf hb hr, fun e hv hlim => blockVerify_fails hf hb hr hv hlim⟩,
    fun j rest s hj hst hb hr => blockRelease_releases hj hst hb hr,
    fun src lane b rest s hp hr hst hs => peerBlockExpand_takes hp hr hst hs⟩

end Sys2Proof.Machine
end

section
/-! O29: FLUSH and its barrier (R212), and the reads of the privileged queues (R210). -/

namespace Sys2Proof.Machine

/-! ### FLUSH -/

/-- A guarded answer that is OK, or tells of an uncorrectable word, is the effect (R51). -/
theorem State.guarded_ok {s eff : State} {lock : Bool} {cls : Cls}
    (h : (s.guarded false lock cls false eff).status = Stat.ok ∨
      (s.guarded false lock cls false eff).status = Stat.uncorrectable) :
    s.guarded false lock cls false eff = .done eff := by
  unfold State.guarded at h ⊢
  rw [if_neg Bool.false_ne_true] at h ⊢
  split at h
  · exact absurd h (show ¬(Stat.locked = Stat.ok ∨ Stat.locked = Stat.uncorrectable) by decide)
  · split at h
    · exact absurd h (show ¬(Stat.stateReject = Stat.ok ∨ Stat.stateReject = Stat.uncorrectable) by decide)
    · next hl ha => rw [if_neg hl, if_neg ha, if_neg Bool.false_ne_true]

/-- A plain write that is OK, or tells of an uncorrectable word, is the store (R51). -/
theorem State.plainWrite_ok {s : State} {k : Nat} {data : W32} {be : BitVec 4} {cls : Cls}
    (h : (s.plainWrite k data be cls).status = Stat.ok ∨
      (s.plainWrite k data be cls).status = Stat.uncorrectable) :
    s.plainWrite k data be cls = .done (s.storeFields k (mergeBE (s.regAt k) data be)) := State.guarded_ok h

/-- Storing in the other CD's copy leaves the active CD, the HK state and the requests (R411, R412). -/
theorem State.storeOther_keeps (s : State) (k : Nat) (v : W32) :
    (s.flipCd.storeFields k v).flipCd.cd = s.cd ∧ (s.flipCd.storeFields k v).flipCd.hk = s.hk ∧
      (s.flipCd.storeFields k v).flipCd.asks = s.asks := by
  obtain ⟨w, hw⟩ : ∃ w, s.flipCd.storeFields k v = s.flipCd.setRegAt k w := ⟨_, rfl⟩
  rw [hw]
  exact ⟨State.cd_congr (Bool.not_not _) rfl rfl, rfl, rfl⟩

/-- A write that is done in the active CD is mirrored without a trace in it (R412). -/
theorem Rep.mirrored_plainWrite (t : State) (a : Nat) (data : W32) (be : BitVec 4) (cls : Cls) :
    ∃ u, (Rep.done t).mirrored (fun x => x.plainWrite (x.phys a) data be cls) = .done u ∧ u.cd = t.cd ∧ u.hk = t.hk ∧
      u.asks = t.asks := by
  rcases Rep.mirrored_done t (fun x => x.plainWrite (x.phys a) data be cls) with h | ⟨hq, h⟩
  · exact ⟨t, h, rfl, rfl, rfl⟩
  · rw [State.plainWrite_ok hq, Rep.st_done] at h
    exact ⟨_, h, t.storeOther_keeps _ _⟩

/-- A barrier behind a slice that is not built leaves the lanes. -/
theorem State.standBarrier_lanes {s : State} {b : Barrier} (hb : s.built b.after = false) :
    (s.standBarrier b).lanes = s.lanes := by
  have hrun : (s.recordBarrier b).run = s.run := still_run (s.recordBarrier_still b)
  have hlanes : (s.recordBarrier b).lanes = s.lanes := ite_keeps State.lanes _ (s.setOther_lanes _) rfl
  unfold State.standBarrier
  extract_lets t u
  have ht : t.built b.after = false := by
    unfold State.built
    rw [show t.run = s.run from hrun]
    exact hb
  rw [if_neg (by rw [ht]; exact Bool.false_ne_true), State.setCd_lanes]
  exact hlanes

/-- The slice in which a FLUSH executed now stands, where no end of the run is known (R212). -/
theorem State.flushSlice_cur {s : State} (h : s.run.sl = none) : s.flushSlice = s.curSlice := by
  unfold State.flushSlice
  rw [h]

/-- A FLUSH executed in a slice that is not built waits behind it (R212). -/
theorem State.flushNow_waits {s : State} (hsl : s.run.sl = none) (hu : s.built s.curSlice = false) (id : Nat) :
    (s.flushNow id).cd = { s.cd with barriers := s.cd.barriers ++ [⟨2, 0, s.curSlice, s.curSlice, id, true⟩] } ∧
      (s.flushNow id).hk = s.hk ∧ (s.flushNow id).asks = s.asks := by
  unfold State.flushNow
  rw [State.flushSlice_cur hsl]
  obtain ⟨hcd, -, hresp, -⟩ := State.standBarrier_waits (b := ⟨2, 0, s.curSlice, s.curSlice, id, true⟩) hu
    (Nat.ne_of_lt (by decide : 2 < 3))
  exact ⟨hcd, still_hk (s.standBarrier_still _), State.asks_congr hresp (State.standBarrier_lanes hu)⟩

/-- The word of Q_FLUSH that orders a FLUSH. -/
def flushWord (id : BitVec 16) : W32 := word32 [(id.toNat, 16), (0, 15), (1, 1)]

theorem toNat_flushWord (id : BitVec 16) : (flushWord id).toNat = 2 ^ 16 * id.toNat + 1 := by
  have hid := id.isLt
  unfold flushWord word32 packNat
  simp only [List.foldl_cons, List.foldl_nil, BitVec.toNat_ofNat]
  omega

theorem flushWord_go (id : BitVec 16) : bitOf (flushWord id) 0 = true := by
  rw [bitOf_eq_bits, bits, toNat_flushWord, Nat.shiftRight_zero]
  exact decide_eq_true (by omega)

theorem flushWord_id (id : BitVec 16) : bits (flushWord id) 31 16 = id.toNat := by
  have hid := id.isLt
  rw [bits, toNat_flushWord, Nat.shiftRight_eq_div_pow]
  omega

/-- Storing in Q_FLUSH leaves the present slice, the run, the active CD, the HK state and the requests. -/
theorem State.orderStored_keeps (s : State) (w : W32) :
    (s.storeFields (s.phys Reg.Q_FLUSH) w).curSlice = s.curSlice ∧ (s.storeFields (s.phys Reg.Q_FLUSH) w).run = s.run ∧
      (s.storeFields (s.phys Reg.Q_FLUSH) w).cd = s.cd ∧ (s.storeFields (s.phys Reg.Q_FLUSH) w).hk = s.hk ∧
      (s.storeFields (s.phys Reg.Q_FLUSH) w).asks = s.asks := by
  have hk : (s.storeFields (s.phys Reg.Q_FLUSH) w).k = s.k := by
    have he : (s.storeFields (s.phys Reg.Q_FLUSH) w).eff Reg.SLC_CFG = s.eff Reg.SLC_CFG :=
      s.regAt_setRegAt_ne (Ne.symm (s.phys_ne_instKey (a := Reg.Q_FLUSH) (by decide) Reg.SLC_CFG 0)) _
    unfold State.k
    rw [he]
  exact ⟨State.curSlice_congr hk (s.storeFields_tb _ _), s.storeFields_run _ _,
    State.cd_congr (congrArg Rd.activeB (s.storeFields_rd _ _)) (s.storeFields_cda _ _) (s.storeFields_cdb _ _),
    s.storeFields_hk _ _, State.asks_congr (s.storeFields_resp _ _) (s.storeFields_lanes _ _)⟩

section
variable {s : State} (hl : s.lockMask (s.phys Reg.Q_FLUSH) = 0) (ha : s.allows .throttleFlush = true)
  (hc : s.run.closedMark = false) (hsl : s.run.sl = none)
include hl ha hc hsl

/-- An order of a FLUSH is judged by the FLUSHes whose barriers wait (R212). -/
theorem State.flushWrite_go (id : BitVec 16) : s.flushWrite (flushWord id) 15 =
    if s.cd.flushing.any (fun b => b.after != s.curSlice) then .no Stat.notReady s
    else .done ((s.storeFields (s.phys Reg.Q_FLUSH) (flushWord id)).flushNow id.toNat) := by
  unfold State.flushWrite
  dsimp only
  rw [mergeBE_all, flushWord_go, flushWord_id, s.lockHit_of_unlocked hl, State.flushSlice_cur hsl, hc, Bool.and_false,
    Bool.false_or, if_pos (by decide)]
  unfold State.guarded
  rw [ha]
  rfl

/-- An order of a FLUSH while one of an earlier slice waits is refused in both CDs (R51, R212, R412). -/
theorem State.flushAlias_waits {b : Barrier} (hb : b ∈ s.cd.flushing) (hne : b.after ≠ s.curSlice) (id : BitVec 16) :
    s.flushAlias (flushWord id) 15 = .no Stat.notReady s := by
  have hany : s.cd.flushing.any (fun b => b.after != s.curSlice) = true :=
    List.any_eq_true.2 ⟨b, hb, by rw [bne_iff_ne]; exact hne⟩
  unfold State.flushAlias
  rw [State.flushWrite_go hl ha hc hsl, hany]
  rfl

/-- An order of a FLUSH that no other precedes places its barrier behind the slice that DT lies in (R212). -/
theorem State.flushAlias_places (hb : ∀ b, b ∈ s.cd.flushing → b.after = s.curSlice) (hu : s.built s.curSlice = false)
    (id : BitVec 16) : ∃ u, s.flushAlias (flushWord id) 15 = .done u ∧
      u.cd = { s.cd with barriers := s.cd.barriers ++ [⟨2, 0, s.curSlice, s.curSlice, id.toNat, true⟩] } ∧ u.hk = s.hk ∧
      u.asks = s.asks := by
  have hany : s.cd.flushing.any (fun b => b.after != s.curSlice) = false :=
    List.any_eq_false.2 fun b hm => by rw [bne_iff_ne, not_not]; exact hb b hm
  have hact := State.flushWrite_go hl ha hc hsl id
  rw [hany, if_neg Bool.false_ne_true] at hact
  obtain ⟨hslice, hrun, hcd, hhk, hasks⟩ := s.orderStored_keeps (flushWord id)
  generalize s.storeFields (s.phys Reg.Q_FLUSH) (flushWord id) = v at hact hslice hrun hcd hhk hasks
  have hbuilt : v.built v.curSlice = false := by
    unfold State.built
    rw [hslice, hrun]
    exact hu
  obtain ⟨hfcd, hfhk, hfasks⟩ := State.flushNow_waits (by rw [hrun, hsl]) hbuilt id.toNat
  obtain ⟨u, hr, hucd, huhk, huasks⟩ :=
    Rep.mirrored_plainWrite (v.flushNow id.toNat) Reg.Q_FLUSH (flushWord id) 15 .writeCfg
  rw [hcd, hslice] at hfcd
  refine ⟨u, ?_, hucd.trans hfcd, huhk.trans (hfhk.trans hhk), huasks.trans (hfasks.trans hasks)⟩
  unfold State.flushAlias
  rw [hact, hr]

end

/-! ### The served request -/

theorem State.cd_got (s : State) (lane : Nat) : (s.got lane).cd = s.cd :=
  State.cd_congr (congrArg Rd.activeB (State.countLane_rd _ _ _ _)) (State.countLane_cda _ _ _ _)
    (State.countLane_cdb _ _ _ _)

theorem State.cd_finish (s : State) (lane addr status : Nat) (data : W32) : (s.finish lane addr status data).cd = s.cd :=
  State.cd_congr (congrArg Rd.activeB (State.finish_rd _ _ _ _ _)) (State.finish_cda _ _ _ _ _) (State.finish_cdb _ _ _ _ _)

theorem State.curSlice_got (s : State) (lane : Nat) : (s.got lane).curSlice = s.curSlice :=
  State.curSlice_congr (s.k_got lane) (s.tb_got lane)

/-- A FLUSH is served as an order of Q_FLUSH in the state that counted it. -/
theorem exec_flush (lane : Lane) (id : BitVec 16) {now : Nat} {s0 s : State} (hs : s = s0.advanceTo now) :
    exec (.flush lane id now) s0 =
      .next (s.accessW lane Reg.Q_FLUSH 15 (fun t => t.flushAlias (flushWord id) 15)) := by
  rw [hs]
  rfl

section
variable {lane : Lane} {id : BitVec 16} {now : Nat} {s0 s : State} (hs : s = s0.advanceTo now)
  (hsv : s.serves lane Reg.Q_FLUSH = true) (hl : s.lockMask (s.phys Reg.Q_FLUSH) = 0)
  (ha : s.allows .throttleFlush = true) (hc : s.run.closedMark = false) (hsl : s.run.sl = none)
include hs hsv hl ha hc hsl

/-- A served FLUSH that no other precedes places its barrier behind the present slice (R212). -/
theorem flush_places (hb : ∀ b, b ∈ s.cd.flushing → b.after = s.curSlice) (hu : s.built s.curSlice = false) :
    ∃ t, exec (.flush lane id now) s0 = .next t ∧ s.replied t lane Reg.Q_FLUSH Stat.ok 0 ∧
      t.cd = { s.cd with barriers := s.cd.barriers ++ [⟨2, 0, s.curSlice, s.curSlice, id.toNat, true⟩] } ∧
      t.hk = s0.hk := by
  have hbuilt : (s.got lane).built (s.got lane).curSlice = false := by
    unfold State.built
    rw [s.curSlice_got lane, s.run_got lane]
    exact hu
  obtain ⟨u, hact, hcd, hhk, hasks⟩ := State.flushAlias_places (s := s.got lane)
    (by rw [State.phys_got, State.lockMask_got, hl]) (by rw [State.allows_got, ha]) (by rw [State.run_got, hc])
    (by rw [State.run_got, hsl]) (by rw [State.cd_got, State.curSlice_got]; exact hb) hbuilt id
  refine ⟨u.finish lane Reg.Q_FLUSH Stat.ok 0, ?_, ?_, ?_, ?_⟩
  · rw [exec_flush lane id hs, State.accessW_done hsv (by decide) hact]
  · exact State.replied_finish ((asks_resp hasks).trans (s.resp_got lane))
      ((asks_e hasks lane).trans (congrArg LaneSt.e (s.lane_got lane lane))) _ _ _
  · rw [State.cd_finish, hcd, State.cd_got, State.curSlice_got]
  · rw [State.finish_hk, hhk, State.hk_got, hs, State.advanceTo_hk]

/-- A served FLUSH while one of an earlier slice waits is NOT_READY and places nothing (R212). -/
theorem flush_waits {b : Barrier} (hb : b ∈ s.cd.flushing) (hne : b.after ≠ s.curSlice) :
    ∃ t, exec (.flush lane id now) s0 = .next t ∧ s.replied t lane Reg.Q_FLUSH Stat.notReady 0 ∧ t.cd = s.cd ∧
      t.hk = s0.hk := by
  have hact := State.flushAlias_waits (s := s.got lane) (by rw [State.phys_got, State.lockMask_got, hl])
    (by rw [State.allows_got, ha]) (by rw [State.run_got, hc]) (by rw [State.run_got, hsl])
    (by rw [State.cd_got]; exact hb) (by rw [State.curSlice_got]; exact hne) id
  refine ⟨(s.got lane).finish lane Reg.Q_FLUSH Stat.notReady 0, ?_, ?_, ?_, ?_⟩
  · rw [exec_flush lane id hs, State.accessW_no hsv (by decide) hact]
  · exact State.replied_finish (s.resp_got lane) (congrArg LaneSt.e (s.lane_got lane lane)) _ _ _
  · rw [State.cd_finish, State.cd_got]
  · rw [State.finish_hk, State.hk_got, hs, State.advanceTo_hk]

end

/-! ### Lanes and the answers of their requests -/

/-- A lane after the answer of a request of lane `n`: that lane's next SEQ and cache have moved on (R307). -/
theorem State.lane_finish (s : State) (n addr status : Nat) (data : W32) (m : Nat) :
    ((s.finish n addr status data).lane m).snap = (s.lane m).snap ∧
      ((s.finish n addr status data).lane m).popWait = (s.lane m).popWait := by
  have h : ∀ l : LaneSt, l.snap = (s.lane n).snap → l.popWait = (s.lane n).popWait →
      ((s.setLane n l).lane m).snap = (s.lane m).snap ∧ ((s.setLane n l).lane m).popWait = (s.lane m).popWait := by
    intro l hsnap hwait
    rw [State.lane_setLane]
    split
    · next hm => rw [hm, hsnap, hwait]; exact ⟨rfl, rfl⟩
    · exact ⟨rfl, rfl⟩
  unfold State.finish
  dsimp only
  rw [State.lane_count]
  exact h _ rfl rfl

/-- The snapshot of a lane whose queue's head is popped goes stale (R210). -/
def staleSnap (q : Nat) (l : LaneSt) : LaneSt :=
  match l.snap with
  | some (i, w) => if i = q then { l with snap := some (i + 16, w) } else l
  | none => l

theorem staleSnap_none {q : Nat} {l : LaneSt} (h : l.snap = none) : staleSnap q l = l := by
  unfold staleSnap
  rw [h]

theorem staleSnap_some {q i : Nat} {w : W64} {l : LaneSt} (h : l.snap = some (i, w)) :
    staleSnap q l = if i = q then { l with snap := some (i + 16, w) } else l := by
  unfold staleSnap
  rw [h]

theorem State.popEntry_resp (s : State) (q : Nat) : (s.popEntry q).resp = s.resp := rfl
theorem State.popEntry_pq (s : State) (q : Nat) : (s.popEntry q).pq = dropHead q s.pq := rfl

theorem State.lane_popEntry (s : State) (q n : Nat) : (s.popEntry q).lane n = staleSnap q (s.lane n) := by
  have hmap : (s.popEntry q).lanes = s.lanes.map (fun e => (e.1, staleSnap q e.2)) := by
    unfold State.popEntry
    dsimp only
    refine List.map_congr_left (fun e _ => ?_)
    split
    · next i w h =>
      rw [staleSnap_some h]
      split <;> rfl
    · next h => exact Prod.ext rfl (staleSnap_none h).symm
  unfold State.lane
  rw [hmap]
  exact Sparse.get_map_snd rfl _ _

/-! ### POP_LO -/

theorem State.pq_got (s : State) (lane : Nat) : (s.got lane).pq = s.pq := State.countLane_pq _ _ _ _

theorem State.pqOf_congr {s t : State} (h : t.pq = s.pq) (q : Nat) : t.pqOf q = s.pqOf q := by
  unfold State.pqOf
  rw [h]

theorem State.pqWord_got (s : State) (lane q pos : Nat) : (s.got lane).pqWord q pos = s.pqWord q pos := by
  unfold State.pqWord
  rw [show (s.got lane).err = s.err from State.countLane_err _ _ _ _]

/-- A clean head of a queue goes out, and the requester holds its snapshot (R210). -/
theorem State.popLo_clean {s : State} {q : Nat} (hc : s.clean .hbd 0x03 (s.pqWord q 0) = true) {w : W64}
    (hw : (s.pqOf q).head? = some w) (n : Nat) :
    s.popLo n q = ⟨Stat.ok, w.extractLsb' 0 32, s.setLane n { s.lane n with snap := some (q, w) }⟩ := by
  have hread : s.memRead .hbd 0x03 (s.pqWord q 0) = (true, s) := State.memReadC_clean hc 0
  have hhead : (s.pqOf q).headD 0 = w := by rw [List.headD_eq_head?_getD, hw]; rfl
  unfold State.popLo
  rw [hread]
  dsimp only
  rw [if_pos rfl, hhead]

section
variable {lane : Lane} {s : State} (hs : s.serves lane Reg.HK_PQ_POP_LO = true) (hq : 9 ≤ s.fld Reg.HK_PQ_SEL 3 0)
include hs hq

/-- POP_LO of a queue that holds an entry answers its low word and removes nothing (R210). -/
theorem pqPopLo_answers {w : W64} {l : List W64} (hp : s.pqOf (s.fld Reg.HK_PQ_SEL 3 0) = w :: l)
    (hc : s.clean .hbd 0x03 (s.pqWord (s.fld Reg.HK_PQ_SEL 3 0) 0) = true) : ∃ t, exec (.pqPopLo lane) s = .next t ∧
      s.replied t lane Reg.HK_PQ_POP_LO Stat.ok (w.extractLsb' 0 32) ∧
      (t.lane lane).snap = some (s.fld Reg.HK_PQ_SEL 3 0, w) ∧ t.pq = s.pq := by
  obtain ⟨-, -, -, hstall, -⟩ := (s.serves_iff lane _).1 hs
  let q := s.fld Reg.HK_PQ_SEL 3 0
  have hp' : (s.got lane).pqOf q = w :: l := (State.pqOf_congr (s.pq_got lane) q).trans hp
  have hact := State.popLo_clean (s := s.got lane) (q := q) (by rw [State.clean_got, State.pqWord_got]; exact hc)
    (w := w) (by rw [hp']; rfl) lane
  have hexec : exec (.pqPopLo lane) s = .next (((s.got lane).setLane lane
      { (s.got lane).lane lane with snap := some (q, w) }).finish lane Reg.HK_PQ_POP_LO Stat.ok (w.extractLsb' 0 32)) := by
    show execPqPopLo lane s = _
    unfold execPqPopLo State.popLoRequest
    dsimp only
    rw [State.endStalls_none hstall, if_neg (fun h => by rw [h.2.2] at hp; cases hp), State.accessHk_serves hs, hp']
    dsimp only
    rw [if_neg (Nat.not_lt.2 hq), hact]
    rfl
  refine ⟨_, hexec, State.replied_finish ((State.setLane_resp _ _ _).trans (s.resp_got lane)) ?_ _ _ _, ?_, ?_⟩
  · rw [State.lane_setLane, if_pos rfl, State.lane_got]
  · rw [(State.lane_finish _ _ _ _ _ _).1, State.lane_setLane, if_pos rfl]
  · rw [State.finish_pq, State.setLane_pq, State.pq_got]

/-- POP_LO of an empty privileged queue stalls, and no response goes out (R210). -/
theorem pqPopLo_stalls (hp : s.pqOf (s.fld Reg.HK_PQ_SEL 3 0) = []) : ∃ t, exec (.pqPopLo lane) s = .next t ∧
    (t.lane lane).popWait = some (s.fld Reg.HK_PQ_SEL 3 0, none) ∧ t.resp = s.resp ∧ t.pq = s.pq := by
  obtain ⟨-, -, -, hstall, -, hstuck, -⟩ := (s.serves_iff lane _).1 hs
  let u := (s.got lane).setLane lane { (s.got lane).lane lane with popWait := some (s.fld Reg.HK_PQ_SEL 3 0, none) }
  have hexec : exec (.pqPopLo lane) s = .next u := by
    show execPqPopLo lane s = _
    unfold execPqPopLo State.popLoRequest
    dsimp only
    rw [State.endStalls_none hstall, if_pos ⟨hq, by rw [hstuck]; rfl, hp⟩, State.atStage_serves hs]
  refine ⟨u, hexec, ?_, (State.setLane_resp _ _ _).trans (s.resp_got lane), (State.setLane_pq _ _ _).trans (s.pq_got lane)⟩
  rw [State.lane_setLane, if_pos rfl]

end

/-! ### POP_HI -/

/-- A live snapshot goes out, and the head of its queue leaves it; whose snapshot was of it holds a stale one (R210). -/
theorem State.popHi_live {s : State} {n q : Nat} {w : W64} (h : (s.lane n).snap = some (q, w)) (hq : q < 16) :
    s.popHi n = ⟨Stat.ok, w.extractLsb' 32 32, (s.setLane n { s.lane n with snap := none }).popEntry q⟩ := by
  unfold State.popHi
  rw [h]
  exact if_pos hq

/-- Without a snapshot there is nothing to read (R210). -/
theorem State.popHi_none {s : State} {n : Nat} (h : (s.lane n).snap = none) : s.popHi n = .no Stat.badValue s := by
  unfold State.popHi
  rw [h]

/-- POP_HI answers the high word of the snapshot, which ends, and removes the head of its queue (R210). -/
theorem pqPopHi_removes {lane : Lane} {s : State} {q : Nat} {w : W64} (hs : s.serves lane Reg.HK_PQ_POP_HI = true)
    (hw : (s.lane lane).snap = some (q, w)) (hq : q < 16) : ∃ t, exec (.pqPopHi lane) s = .next t ∧
      s.replied t lane Reg.HK_PQ_POP_HI Stat.ok (w.extractLsb' 32 32) ∧ (t.lane lane).snap = none ∧
      t.pq = dropHead q s.pq := by
  have hact := State.popHi_live (s := s.got lane) (by rw [State.lane_got]; exact hw) hq
  let u := (s.got lane).setLane lane { (s.got lane).lane lane with snap := none }
  have hlane : (u.popEntry q).lane lane = { s.lane lane with snap := none } := by
    rw [State.lane_popEntry, State.lane_setLane, if_pos rfl, State.lane_got]
    exact staleSnap_none rfl
  have hexec : exec (.pqPopHi lane) s =
      .next ((u.popEntry q).finish lane Reg.HK_PQ_POP_HI Stat.ok (w.extractLsb' 32 32)) := by
    show execPqPopHi lane s = _
    unfold execPqPopHi
    rw [State.accessHk_serves hs, hact]
    rfl
  have hresp : (u.popEntry q).resp = s.resp := by
    rw [State.popEntry_resp, State.setLane_resp, State.resp_got]
  refine ⟨_, hexec, State.replied_finish hresp (by rw [hlane]) _ _ _, ?_, ?_⟩
  · rw [(State.lane_finish _ _ _ _ _ _).1, hlane]
  · rw [State.finish_pq, State.popEntry_pq, State.setLane_pq, State.pq_got]

/-! ### A stalled POP ends -/

/-- The state in which the wait of lane `n` is over. -/
def State.waitOver (s : State) (n : Nat) : State := s.setLane n { s.lane n with popWait := none }

/-- The state in which the wait of lane `n` is over and the lane holds such a snapshot. -/
def State.waitOverWith (s : State) (n : Nat) (x : Option (Nat × W64)) : State :=
  (s.waitOver n).setLane n { (s.waitOver n).lane n with snap := x }

theorem State.lane_waitOver (s : State) (n : Nat) : (s.waitOver n).lane n = { s.lane n with popWait := none } := by
  unfold State.waitOver
  rw [State.lane_setLane, if_pos rfl]

/-- How a wait on queue `q` is answered, by the entry that has ended it (R210). -/
def State.stallAnswer (s : State) (n q : Nat) (got : Option W64) : Rep :=
  match got with
  | some w =>
    if (s.lane n).snap = some (q, w) then (s.waitOver n).popLo n q
    else ⟨Stat.ok, w.extractLsb' 0 32, s.waitOver n⟩
  | none => .no Stat.empty (s.waitOverWith n none)

section
variable {s : State} {n q : Nat} (hst : s.hk.stuck = false)
include hst

theorem State.endStall_answers {got : Option W64} (hw : (s.lane n).popWait = some (q, got)) {r : Rep}
    (hr : s.stallAnswer n q got = r) :
    s.endStall n = r.st.finish n Reg.HK_PQ_POP_LO r.status (if r.status = Stat.ok then r.data else 0) := by
  have hnot : ¬(s.waitOver n).hk.stuck = true := by
    rw [show (s.waitOver n).hk = s.hk from rfl, hst]
    exact Bool.false_ne_true
  subst hr
  unfold State.endStall
  rw [hw]
  exact congrArg (fun st => (s.stallAnswer n q got).st.finish n Reg.HK_PQ_POP_LO st _) (if_neg hnot)

/-- A wait that nothing has ended is answered EMPTY, and no snapshot stays (R210). -/
theorem State.endStall_empty (hw : (s.lane n).popWait = some (q, none)) : s.endStall n =
    (s.waitOverWith n none).finish n Reg.HK_PQ_POP_LO Stat.empty 0 :=
  State.endStall_answers hst hw rfl

/-- A wait that an entry has ended is answered with it, while it is the head of its queue (R210). -/
theorem State.endStall_entry {w : W64} (hw : (s.lane n).popWait = some (q, some w))
    (hsnap : (s.lane n).snap = some (q, w)) (hhead : (s.pqOf q).head? = some w)
    (hc : s.clean .hbd 0x03 (s.pqWord q 0) = true) : s.endStall n =
      (s.waitOverWith n (some (q, w))).finish n Reg.HK_PQ_POP_LO Stat.ok
        (w.extractLsb' 0 32) :=
  State.endStall_answers hst hw ((if_pos hsnap).trans (State.popLo_clean (s := s.waitOver n) hc hhead n))

end

/-- What is answered at the end of a wait, and what is left (R210, R307). -/
theorem State.waitOverWith_finish (s : State) (n : Nat) (x : Option (Nat × W64)) (status : Nat) (data : W32) {t : State}
    (ht : t = (s.waitOverWith n x).finish n Reg.HK_PQ_POP_LO status data) :
    s.replied t n Reg.HK_PQ_POP_LO status data ∧ (t.lane n).popWait = none ∧ (t.lane n).snap = x ∧
      t.pq = s.pq ∧ t.hk = s.hk := by
  have hlane : (s.waitOverWith n x).lane n = { s.lane n with popWait := none, snap := x } := by
    unfold State.waitOverWith
    rw [State.lane_setLane, if_pos rfl, State.lane_waitOver]
  have hresp : (s.waitOverWith n x).resp = s.resp := rfl
  have hpq : (s.waitOverWith n x).pq = s.pq := rfl
  have hhk : (s.waitOverWith n x).hk = s.hk := rfl
  generalize s.waitOverWith n x = u at ht hlane hresp hpq hhk
  obtain ⟨hsnap, hwait⟩ := u.lane_finish n Reg.HK_PQ_POP_LO status data n
  rw [hlane] at hsnap hwait
  rw [ht]
  exact ⟨State.replied_finish hresp (by rw [hlane]) _ _ _, hwait, hsnap, (State.finish_pq _ _ _ _ _).trans hpq,
    (State.finish_hk _ _ _ _ _).trans hhk⟩

/-- A read at the sequence stage ends the POP that stalls there and then executes (R210, R309; log entry 115). -/
theorem State.accessHk_ends {lane : Lane} {s u : State} {addr : Nat} (he : s.endStalls = u) (hp : s.pathOpen lane = true)
    (hr : s.scRole lane = true) (hy : (u.lane lane).synced = true) (hn : u.noEntry lane = false)
    (hk : u.hk.stuck = false) (act : State → Rep) :
    s.accessHk lane addr act = (u.got lane).execute lane addr act := by
  have hroom : ¬(u.got lane).respUsed ((u.got lane).respQueue lane) ≥ 32 := by
    unfold State.noEntry at hn
    simpa using hn
  unfold State.accessHk State.atStage
  rw [hp, hr, he, if_neg (by decide), if_neg (by decide),
    show u.countLane Reg.LK_LANE_RX_UNITS lane 2 = u.got lane from rfl]
  dsimp only
  rw [State.lane_got, hy, if_neg (by decide), if_neg hroom, State.hk_got, hk, if_neg (by decide)]

/-- BAD_VALUE is answered whether or not the access reaches its die (R405). -/
theorem State.execute_badValue {s u : State} {lane addr : Nat} {act : State → Rep} (h : act s = .no Stat.badValue u) :
    s.execute lane addr act = u.finish lane addr Stat.badValue 0 := by
  unfold State.execute
  rw [h]
  exact if_neg (fun hx => absurd hx.2 (show ¬(Stat.badValue = Stat.ok ∨
    Stat.badValue ≥ Stat.uncorrectable ∧ Stat.badValue ≤ Stat.empty) by decide))

section
variable {lane : Lane} {s : State} {q : Nat} (hst : s.hk.stuck = false)
include hst

/-- A stall that expires on an empty queue is answered EMPTY (R210). -/
theorem popStallExpire_empty (hw : (s.lane lane).popWait = some (q, none)) : ∃ t, exec (.popStallExpire lane) s = .next t ∧
    s.replied t lane Reg.HK_PQ_POP_LO Stat.empty 0 ∧ (t.lane lane).popWait = none ∧ (t.lane lane).snap = none ∧
    t.pq = s.pq := by
  obtain ⟨hre, hwait, hsnap, hpq, -⟩ := s.waitOverWith_finish lane none _ _ (State.endStall_empty hst hw)
  exact ⟨s.endStall lane, rfl, hre, hwait, hsnap, hpq⟩

/-- A stall that expires once its queue has got an entry is answered with it (R210). -/
theorem popStallExpire_entry {w : W64} (hw : (s.lane lane).popWait = some (q, some w))
    (hsnap : (s.lane lane).snap = some (q, w)) (hhead : (s.pqOf q).head? = some w)
    (hc : s.clean .hbd 0x03 (s.pqWord q 0) = true) : ∃ t, exec (.popStallExpire lane) s = .next t ∧
      s.replied t lane Reg.HK_PQ_POP_LO Stat.ok (w.extractLsb' 0 32) ∧ (t.lane lane).popWait = none ∧
      (t.lane lane).snap = some (q, w) ∧ t.pq = s.pq := by
  obtain ⟨hre, hwait, hsn, hpq, -⟩ := s.waitOverWith_finish lane (some (q, w)) _ _
    (State.endStall_entry hst hw hsnap hhead hc)
  exact ⟨s.endStall lane, rfl, hre, hwait, hsn, hpq⟩

/-- A POP_HI without a snapshot, of any lane, ends the POP that stalls before it and is answered BAD_VALUE (R210, R309). -/
theorem pqPopHi_endsStall {m : Nat} (hw : (s.lane m).popWait = some (q, none)) (he : s.endStalls = s.endStall m)
    (hp : s.pathOpen lane = true) (hr : s.scRole lane = true) (hy : ((s.endStall m).lane lane).synced = true)
    (hn : (s.endStall m).noEntry lane = false) (hsnap : ((s.endStall m).lane lane).snap = none) :
    ∃ t, exec (.pqPopHi lane) s = .next t ∧ (t.lane m).popWait = none ∧ t.resp = s.resp ++
      [(m, ⟨Stat.empty, (s.lane m).e % 65536, Reg.HK_PQ_POP_LO, 0⟩),
       (lane.val, ⟨Stat.badValue, ((s.endStall m).lane lane).e % 65536, Reg.HK_PQ_POP_HI, 0⟩)] := by
  obtain ⟨⟨hresp, -⟩, hwait, -, -, hhk⟩ := s.waitOverWith_finish m none _ _ (State.endStall_empty hst hw)
  generalize s.endStall m = u at *
  have hact : (u.got lane).popHi lane = .no Stat.badValue (u.got lane) :=
    State.popHi_none (by rw [State.lane_got, hsnap])
  have hexec : exec (.pqPopHi lane) s =
      .next ((u.got lane).finish lane Reg.HK_PQ_POP_HI Stat.badValue 0) := by
    show execPqPopHi lane s = _
    unfold execPqPopHi
    rw [State.accessHk_ends he hp hr hy hn (by rw [hhk, hst]), State.execute_badValue hact]
  obtain ⟨hresp', -⟩ := State.replied_finish (s := u) (u := u.got lane) (lane := lane)
    (State.resp_got _ _) (by rw [State.lane_got]) Reg.HK_PQ_POP_HI Stat.badValue 0
  refine ⟨_, hexec, ?_, ?_⟩
  · rw [(State.lane_finish _ _ _ _ _ _).2, State.lane_got, hwait]
  · rw [hresp', hresp, List.append_assoc]
    rfl

end

/-! ### The statement -/

/-- Settles O29, by one lemma for each command and case. A FLUSH is an order of Q_FLUSH, whose barrier the mirror
write in the other CD leaves as it is; a stalled POP is a wait of its lane, whose end answers it before the request
that ends it executes. -/
theorem flushAndQueueReadsAct : Obligations.FlushAndQueueReadsAct := by
  unfold Obligations.FlushAndQueueReadsAct
  refine ⟨fun lane id now s0 s hs hsv hl ha hc hsl => ⟨fun hb hu => flush_places hs hsv hl ha hc hsl hb hu,
      fun b hb hne => flush_waits hs hsv hl ha hc hsl hb hne⟩,
    fun lane s => ⟨fun hs => ⟨fun w l hq hp hc => pqPopLo_answers hs hq hp hc, fun hq hp => pqPopLo_stalls hs hq hp⟩,
      fun q w hs hw hq => pqPopHi_removes hs hw hq, fun hst => ⟨fun q hw => popStallExpire_empty hst hw,
        fun q w hw hsnap hhead hc => popStallExpire_entry hst hw hsnap hhead hc,
        fun m q hw he hp hr hy hn hsnap => pqPopHi_endsStall hst hw he hp hr hy hn hsnap⟩⟩⟩

end Sys2Proof.Machine
end
